-- ==== Sys2Proof/Word.lean ====
section
/-! DEFINITION. The word types of the LV640 model: the widths the manual names, and nothing computed. -/

namespace Sys2Proof

/-- A byte of memory, of a record, of a frame (R7). -/
abbrev Byte := BitVec 8

/-- A thread register, and a register row's entry of one lane (R106). -/
abbrev Word32 := BitVec 32

/-- A 64-bit word: a task record word, a pool address, an instruction word (R22, R30, R104). -/
abbrev Word64 := BitVec 64

/-- Bits [55:0] of an instruction word; its OPCODE [63:56] is the command's own name (R105). -/
abbrev InstrBits := BitVec 56

/-- A set of lanes: bit `l` is lane `l` (R81, R128). -/
abbrev LaneMask := BitVec 32

end Sys2Proof
end

