-- ==== Sys2Proof/Syntax.lean ====
section
/-! DEFINITION. The commands of the LV640 block: one constructor of `Instr` for each row of the table of
operations and events, with the operands the row needs. What the part itself decides is computed from the state;
an operand carries only what comes from outside the model: the unit concerned, the bytes that arrive, the
environment's observations (sensor readings, test results, Ripple outcomes). -/

namespace Sys2Proof

/-- How a tested 128-bit word came out (R453, R454). A `transient` failed once and passed its reread; a `stored` word is
one that failed in a stationary store or a latent buffer (R159, R210), which only an engine's completion can report.
Log entries 7 (DESIGN CHOICE); 116 (DESIGN CHOICE). -/
inductive Chk where
  | ok
  | transient
  | failed
  | stored
  deriving DecidableEq, Repr

/-- How the words of the device reserve that a table walk read came out (R459): good, reloaded from the shadow, or lost in
the shadow too, with the sequence whose block held the word, if one did.
Log entry 7 (DESIGN CHOICE). -/
inductive ReserveChk where
  | ok
  | reloaded
  | lost (seq : Option Nat)
  deriving DecidableEq, Repr

/-- What takes a link to RETRAINING: flits resent too often, or the far end's training patterns (R309, R311). -/
inductive RetrainCause where
  | resends (link : Nat)
  | patterns (link : Nat)
  deriving DecidableEq, Repr

/-- The link that retrains. -/
def RetrainCause.link : RetrainCause → Nat
  | .resends l => l
  | .patterns l => l

/-- A function whose withdrawal drains (R379, R380). -/
inductive DrainFn where
  | core (p : Nat)
  | cls (c : Nat)
  deriving DecidableEq, Repr

/-- What a peer of a Casaro frame is: an address and port pair (R367). -/
structure Source where
  addr : Nat
  port : Nat
  linkLocal : Bool
  deriving DecidableEq, Repr

/-- The path a dictionary request came by (R359): the field network, a BAR0 request channel, or a relay. -/
inductive Via where
  | net (src : Source)
  | chan (c : Nat)
  | relay (dev tag : Nat)
  deriving DecidableEq, Repr

/-- The header of a Casaro frame less its OP, which the command's row gives (R366). -/
structure CasHdr where
  magic : Nat
  version : Nat
  kind : Nat
  tag : Nat
  target : Nat
  code : Nat
  length : Nat
  txn : Nat
  sourceId : Nat
  timebase : Nat
  deriving DecidableEq, Repr

/-- A Casaro request: how it came, its header, and its body bytes, whose number is what the UDP length (or the SUBMIT
length of a channel) leaves after the header (R366, R367). -/
structure CasReq where
  via : Via
  hdr : CasHdr
  body : List Byte
  deriving DecidableEq, Repr

/-- A value of a numeric object, or the bytes of a BYTES or TEXT object (R354). -/
inductive Val where
  | num (n : Nat)
  | bytes (b : List Byte)
  deriving DecidableEq, Repr

/-- A write of one dictionary object outside the message that carried it: `txn` is the transaction identity of the
message, 0 outside a transaction (R355, R374). -/
structure ObjWrite where
  key : Nat
  txn : Nat
  val : Val
  deriving DecidableEq, Repr

/-- One reading of the housekeeping round for a diode channel (R431, R433). -/
structure DiodeReading where
  channel : Nat
  /-- The reading in thousandths of a degree Celsius. -/
  milli : Int
  /-- The front end reports an open or short circuit. -/
  openOrShort : Bool
  deriving DecidableEq, Repr

/-- One voltage sense point in a round: the held minimum with its stamp, and the round's average, in µV (R429, R430). -/
structure SenseReading where
  point : Nat
  minMicro : Nat
  minStamp : Nat
  avgMicro : Nat
  deriving DecidableEq, Repr

/-- What one housekeeping round reads (R431). Values not listed are unchanged from the round before. Currents are in
mA, voltages in µV, power in mW, temperatures in thousandths of a degree. -/
structure Round where
  diodes : List DiodeReading
  points : List (Nat × Int)
  stackTemps : List (Nat × Int)
  sense : List SenseReading
  inletMicro : Nat
  inletMilliAmp : Nat
  railMicro : List (Nat × Nat)
  railAmp : List (Nat × Nat)
  clusterAmp : List (Nat × Nat)
  deriving DecidableEq, Repr

/-- What S0 observes (R403, R418, R420, R498): the rail that tripped, the failed converter phases, the ID straps, and
the voltages measured at its end, in µV. -/
structure S0Obs where
  trippedRail : Option Nat
  failedPhases : List Nat
  straps : Nat
  rails : List Nat
  inlet : Nat
  deriving DecidableEq, Repr

/-- What S3 observes: the bonds found failed, as (position, plane, bond) and the shared signals with both bonds failed. -/
structure S3Obs where
  failedBonds : List (Nat × Nat × Nat)
  sharedOne : List Nat
  sharedBoth : List Nat
  deriving DecidableEq, Repr

/-- What S4 observes: slices that fail their self-test, and slice ports halved (R403, R462). -/
structure S4Obs where
  failedSlices : List Nat
  halvedPorts : List Nat
  deriving DecidableEq, Repr

/-- What S6 observes for each stack: whether the saved training values verify, its channel that fails full training
three times if any, and the narrowest read window trained, in ps (R253). -/
structure StackTrain where
  stack : Nat
  verifies : Bool
  failedChannel : Option Nat
  margin : Nat
  deriving DecidableEq, Repr

/-- What training one lane of a link finds (R303): its polarity and precoding, and its bit errors before correction in 10⁹ bits. -/
structure LaneTrain where
  invert : Bool
  precode : Bool
  errors : Nat
  deriving DecidableEq, Repr

/-- What training one link finds (R303): the lane of the other end that each of its lanes receives, the lanes, whether frames
align, the identity of the other end (a device and a link number), and the narrowest eye height, in mV. -/
structure LinkTrain where
  link : Nat
  order : List Nat
  lanes : List LaneTrain
  aligned : Bool
  peerDevice : Nat
  peerLink : Nat
  eye : Nat
  deriving DecidableEq, Repr

/-- What a lane test of a vertical path finds (R460). -/
inductive LaneFinding where
  /-- A failed bond of this index in this plane; `control` when it is a control bond, `spare` the spare that is free. -/
  | bond (plane bond : Nat) (control : Bool) (spare : Option Nat)
  /-- No failed bond, after this many failed transfers. -/
  | clean (failures : Nat)
  deriving DecidableEq, Repr

/-- A vertical path (R460). -/
inductive VPath where
  | down (p : Nat)
  | chan (p : Nat)
  | slicePort (g : Nat)
  | shared (i : Nat)
  deriving DecidableEq, Repr

/-- What a shared signal serves (R463). -/
inductive SharedKind where
  | cluster (k : Nat)
  | region (r : Nat)
  | distribution
  deriving DecidableEq, Repr

/-- A clock whose loss CLOCK_LOCK reports (R447). -/
inductive ClockId where
  | refclk
  | corePll
  | memPll
  | linkPll (l : Nat)
  | pcieRef
  deriving DecidableEq, Repr

/-- The cause of a port reset (R348, R506). -/
inductive PortCause where
  | perst
  | hotReset
  | busReset
  | linkDown
  deriving DecidableEq, Repr

/-- A PCI Express configuration request: a read or write of one double word of function 0 (R336, R339). -/
structure CfgReq where
  tag : Nat
  reg : Nat
  write : Option Nat
  deriving DecidableEq, Repr

/-- A memory request to a BAR, other than a record write: the offset in its BAR, its length and its tag. -/
structure MemRd where
  offset : Nat
  len : Nat
  tag : Nat
  deriving DecidableEq, Repr

/-- A test's outcome on one core: each run made, with whether its digest was right (R466, R468). -/
structure CoreTest where
  position : Nat
  test : Nat
  runs : Nat
  failed : Nat
  expected : List Byte
  observed : List Byte
  mismatchAt : Nat
  expectedBytes : List Byte
  observedBytes : List Byte
  units : Nat
  deriving DecidableEq, Repr

/-- The units that a defect sweep's block found bad (R407, R412): KIND, UNIT, DETAIL and CODE of each new record. -/
structure SweepFinding where
  kind : Nat
  unit : Nat
  detail : Nat
  code : Nat
  deriving DecidableEq, Repr

/-- The commands. Each constructor is one row of the table of operations and events; the rule named is the row's own.
Log entries 99 (DESIGN CHOICE); 104 (DESIGN CHOICE). -/
inductive Instr where
  /-- BAR2_RECORD_WRITE: A posted write reaches the BAR2 intake window and, if it is one aligned 256-byte write, lands as a record in the intake. (R39) -/
  | bar2RecordWrite (offset : Nat) (data : List Byte) (ep : Bool)
  /-- BAR2_READ: A read of BAR2 is completed with Unsupported Request status. (R40) -/
  | bar2Read (rd : MemRd)
  /-- INTAKE_TAKE: The Fountain takes the oldest record out of the intake, at most once every 4 ns, and places it in its slot or drops it. (R44) -/
  | intakeTake (chk : Chk)
  /-- STAGING_WINDOW_ENTRY: A satisfied task enters the staging window, goes to state 2 and has one staging request sent to the Sluice. (R50) -/
  | stagingWindowEntry (rs : ReserveChk)
  /-- STAGING_ANSWER: When the moves of a staging request complete, the Sluice answers Staged and the task becomes dispatchable. (R51) -/
  | stagingAnswer (slot : Nat)
  /-- DEFERRED_RETRY: When capacity is freed, the deferred staging requests are retried in the order in which they were first deferred. (R276) -/
  | deferredRetry
  /-- SLUICE_STARVED: A request stays deferred beyond STARVE_LIMIT, so later requests for the same resource are blocked and a warning is sent. (R276) -/
  | sluiceStarved (slot : Nat)
  /-- AGE_LIMIT_EXPIRY: A dispatchable task passes the age limit of its class, and its effective class becomes 7. (R52) -/
  | ageLimitExpiry (slot : Nat)
  /-- GROUP_PLACE: The Fountain places the next group of the first fitting task on a chosen core, at most one per fabric cycle in each half. (R53) -/
  | groupPlace (half : Nat)
  /-- GROUP_EXIT: A group's resources are returned once its loads have returned and its asynchronous staging operations have completed. (R77) -/
  | groupExit (p g : Nat)
  /-- TASK_RETIRE: Once its stores have been accepted, a task whose last group has exited signals its counters, frees its buffers and is written in state 5. (R57) -/
  | taskRetire (slot : Nat)
  /-- TASK_FAULT_SETTLE: Once nothing of a faulted task can change memory, the task's counters are poisoned, its buffers freed and state 6 is written. (R66) -/
  | taskFaultSettle (slot : Nat)
  /-- TASK_TIMEOUT: A task's TIMEOUT expires and the task is ended with TASK_TIMEOUT. (R67) -/
  | taskTimeout (slot : Nat)
  /-- DRAIN_DEADLINE: A withdrawal reaches its drain deadline, and the remaining work is ended with FUNCTION_WITHDRAWN. (R380) -/
  | drainDeadline (fn : DrainFn)
  /-- NOP: The instruction does nothing. (R115) -/
  | nop (p g : Nat) (w : InstrBits)
  /-- IADD: The instruction adds two integers. (R116) -/
  | iadd (p g : Nat) (w : InstrBits)
  /-- ISUB: The instruction subtracts two integers. (R116) -/
  | isub (p g : Nat) (w : InstrBits)
  /-- IMUL: The instruction gives the low 32 bits of an integer product. (R116) -/
  | imul (p g : Nat) (w : InstrBits)
  /-- IMULHI: The instruction gives the high 32 bits of an integer product. (R115) -/
  | imulhi (p g : Nat) (w : InstrBits)
  /-- IMAD: The instruction performs an integer multiply-add. (R115) -/
  | imad (p g : Nat) (w : InstrBits)
  /-- IMIN: The instruction gives the integer minimum. (R115) -/
  | imin (p g : Nat) (w : InstrBits)
  /-- IMAX: The instruction gives the integer maximum. (R115) -/
  | imax (p g : Nat) (w : InstrBits)
  /-- AND: The instruction gives the bitwise AND. (R115) -/
  | andOp (p g : Nat) (w : InstrBits)
  /-- OR: The instruction gives the bitwise OR. (R115) -/
  | orOp (p g : Nat) (w : InstrBits)
  /-- XOR: The instruction gives the bitwise XOR. (R115) -/
  | xorOp (p g : Nat) (w : InstrBits)
  /-- SHL: The instruction shifts left. (R115) -/
  | shl (p g : Nat) (w : InstrBits)
  /-- SHR: The instruction shifts right, logically or arithmetically. (R115) -/
  | shr (p g : Nat) (w : InstrBits)
  /-- POPC: The instruction counts the set bits. (R115) -/
  | popc (p g : Nat) (w : InstrBits)
  /-- CLZ: The instruction counts the leading zeros. (R115) -/
  | clz (p g : Nat) (w : InstrBits)
  /-- ICMP: The instruction compares two integers into a predicate. (R116) -/
  | icmp (p g : Nat) (w : InstrBits)
  /-- SEL: The instruction selects one of two sources by a predicate. (R115) -/
  | sel (p g : Nat) (w : InstrBits)
  /-- MOV: The instruction copies a register. (R115) -/
  | mov (p g : Nat) (w : InstrBits)
  /-- MOVI: The instruction loads a 32-bit immediate. (R109) -/
  | movi (p g : Nat) (w : InstrBits)
  /-- PLOP: The instruction combines two predicates. (R116) -/
  | plop (p g : Nat) (w : InstrBits)
  /-- SHFL: The instruction reads a register from another lane. (R118) -/
  | shfl (p g : Nat) (w : InstrBits)
  /-- VOTE: The instruction forms a ballot, any or all of a predicate. (R118) -/
  | vote (p g : Nat) (w : InstrBits)
  /-- FADD: The instruction performs a binary32 addition. (R117) -/
  | fadd (p g : Nat) (w : InstrBits)
  /-- FMUL: The instruction performs a binary32 multiplication. (R117) -/
  | fmul (p g : Nat) (w : InstrBits)
  /-- FFMA: The instruction performs a binary32 fused multiply-add. (R117) -/
  | ffma (p g : Nat) (w : InstrBits)
  /-- FMIN: The instruction gives the binary32 minimum. (R117) -/
  | fmin (p g : Nat) (w : InstrBits)
  /-- FMAX: The instruction gives the binary32 maximum. (R117) -/
  | fmax (p g : Nat) (w : InstrBits)
  /-- FCMP: The instruction compares two binary32 values into a predicate. (R116) -/
  | fcmp (p g : Nat) (w : InstrBits)
  /-- CVT: The instruction converts between formats as MOD selects. (R117) -/
  | cvt (p g : Nat) (w : InstrBits)
  /-- EX2: The special-function unit computes exp2. (R80) -/
  | ex2 (p g : Nat) (w : InstrBits)
  /-- LG2: The special-function unit computes log2. (R80) -/
  | lg2 (p g : Nat) (w : InstrBits)
  /-- RCP: The special-function unit computes the reciprocal. (R80) -/
  | rcp (p g : Nat) (w : InstrBits)
  /-- RSQ: The special-function unit computes the reciprocal square root. (R80) -/
  | rsq (p g : Nat) (w : InstrBits)
  /-- IADDI: The immediate form of IADD. (R109) -/
  | iaddi (p g : Nat) (w : InstrBits)
  /-- ISUBI: The immediate form of ISUB. (R109) -/
  | isubi (p g : Nat) (w : InstrBits)
  /-- IMULI: The immediate form of IMUL. (R109) -/
  | imuli (p g : Nat) (w : InstrBits)
  /-- IMINI: The immediate form of IMIN. (R109) -/
  | imini (p g : Nat) (w : InstrBits)
  /-- IMAXI: The immediate form of IMAX. (R109) -/
  | imaxi (p g : Nat) (w : InstrBits)
  /-- ANDI: The immediate form of AND. (R109) -/
  | andi (p g : Nat) (w : InstrBits)
  /-- ORI: The immediate form of OR. (R109) -/
  | ori (p g : Nat) (w : InstrBits)
  /-- XORI: The immediate form of XOR. (R109) -/
  | xori (p g : Nat) (w : InstrBits)
  /-- SHLI: The immediate form of SHL. (R109) -/
  | shli (p g : Nat) (w : InstrBits)
  /-- SHRI: The immediate form of SHR. (R109) -/
  | shri (p g : Nat) (w : InstrBits)
  /-- ICMPI: The immediate form of ICMP. (R109) -/
  | icmpi (p g : Nat) (w : InstrBits)
  /-- SHFLI: The immediate form of SHFL. (R109) -/
  | shfli (p g : Nat) (w : InstrBits)
  /-- FADDI: The immediate form of FADD. (R109) -/
  | faddi (p g : Nat) (w : InstrBits)
  /-- FMULI: The immediate form of FMUL. (R109) -/
  | fmuli (p g : Nat) (w : InstrBits)
  /-- FMINI: The immediate form of FMIN. (R109) -/
  | fmini (p g : Nat) (w : InstrBits)
  /-- FMAXI: The immediate form of FMAX. (R109) -/
  | fmaxi (p g : Nat) (w : InstrBits)
  /-- FCMPI: The immediate form of FCMP. (R109) -/
  | fcmpi (p g : Nat) (w : InstrBits)
  /-- LD: The instruction issues a load, merged by sector, in the selected variant. (R119) -/
  | ld (p g : Nat) (w : InstrBits)
  /-- ST: The instruction issues a store. (R119) -/
  | st (p g : Nat) (w : InstrBits)
  /-- ATOM: The instruction issues an atomic at the home slice, which returns the old value. (R120) -/
  | atom (p g : Nat) (w : InstrBits)
  /-- RED: The instruction issues a reduction at the home slice, which returns nothing. (R120) -/
  | red (p g : Nat) (w : InstrBits)
  /-- BRA: The instruction branches directly, splitting the path if the lanes differ. (R122) -/
  | bra (p g : Nat) (w : InstrBits)
  /-- BRX: The instruction branches indirectly, with an optional link. (R122) -/
  | brx (p g : Nat) (w : InstrBits)
  /-- BAR: The instruction makes the threads arrive at a group barrier and parks their path. (R123) -/
  | bar (p g : Nat) (w : InstrBits)
  /-- TBAR: The instruction makes the threads arrive at the task-level barrier. (R89) -/
  | tbar (p g : Nat) (w : InstrBits)
  /-- EXIT: The instruction ends the executing threads. (R84) -/
  | exit (p g : Nat) (w : InstrBits)
  /-- CWAIT: The instruction parks the path until a completion counter falls to a threshold. (R124) -/
  | cwait (p g : Nat) (w : InstrBits)
  /-- FENCE: The instruction parks the path until earlier writes have been accepted. (R121) -/
  | fence (p g : Nat) (w : InstrBits)
  /-- MMA: The instruction copies and checks a descriptor into an array queue. (R125) -/
  | mma (p g : Nat) (w : InstrBits)
  /-- MFRAG: The instruction queues a group-wide matrix fragment on the pipeline's array. (R126) -/
  | mfrag (p g : Nat) (w : InstrBits)
  /-- WEIR: The instruction copies and checks a command block into a Weir engine queue. (R127) -/
  | weir (p g : Nat) (w : InstrBits)
  /-- SPAWN: The instruction submits a task record to a spawn slot of its own device or of a peer. (R58) -/
  | spawn (p g : Nat) (w : InstrBits)
  /-- PUB: The instruction adds a value to PROGRESS once earlier stores have been accepted. (R65) -/
  | pub (p g : Nat) (w : InstrBits)
  /-- SRD: The instruction reads a special register, capturing the whole value for the LO timer registers. (R128) -/
  | srd (p g : Nat) (w : InstrBits)
  /-- LOAD_DATA_RETURN: Load data returns to a group, completing a memory instruction. (R98) -/
  | loadDataReturn (p g id : Nat) (chk : Chk)
  /-- WRITE_ACCEPTANCE: A store, atomic or reduction is accepted at its destination, completing it and releasing any fence that waits on it. (R98) -/
  | writeAcceptance (p g id : Nat)
  /-- FETCH_LINE_RETURN: An instruction line arrives in a group's fetch buffer. (R510) -/
  | fetchLineReturn (p g : Nat) (chk : Chk)
  /-- BARRIER_RELEASE: A group barrier releases once every live thread has arrived and earlier writes have been accepted. (R88) -/
  | barrierRelease (p g b : Nat)
  /-- TASK_BARRIER_RELEASE: The task-level barrier releases after every group of the task has arrived or exited. (R89) -/
  | taskBarrierRelease (slot : Nat)
  /-- ARRAY_OP_START: An array starts its next queued operation, subject to the overlap hold. (R151) -/
  | arrayOpStart (p a : Nat)
  /-- ARRAY_OP_COMPLETE: An array operation's last D write lands and its completion counter falls by one. (R153) -/
  | arrayOpComplete (p a : Nat) (chk : Chk)
  /-- MFRAG_WINDOW_START: An array window of 4 cycles runs a waiting fragment. (R155) -/
  | mfragWindowStart (p a : Nat)
  /-- MFRAG_COMPLETE: A fragment's D registers are written and its counter falls. (R155) -/
  | mfragComplete (p a : Nat) (chk : Chk)
  /-- LXU_EXPAND: The latent expansion unit starts an expansion command. (R196) -/
  | lxuExpand (p : Nat)
  /-- LYT_TRANSPOSE: The layout transformer starts a TRANSPOSE command. (R198) -/
  | lytTranspose (p : Nat)
  /-- LYT_INGEST: The layout transformer starts an INGEST command into a value page. (R200) -/
  | lytIngest (p : Nat)
  /-- WEIR_COMMAND_COMPLETE: A Weir command's last write lands and its counter falls. (R190) -/
  | weirCommandComplete (p unit : Nat) (chk : Chk)
  /-- PAGE_WALK: A page-walker walk completes, giving a translation or handing the reference to the Sluice. (R202) -/
  | pageWalk (p id : Nat) (rs : ReserveChk)
  /-- WALKER_INVALIDATE: The Sluice invalidates a page's walker entries and waits for every acknowledgement. (R203) -/
  | walkerInvalidate (seq page : Nat)
  /-- SCRUB_READ: Every SCRUB_INTERVAL the scrubber reads and checks one Basin block. (R204) -/
  | scrubRead (p : Nat) (chk : Chk)
  /-- PROMOTE_REQUEST: A walker entry reaches PROMOTE_SECTORS and asks the Sluice to copy the page into a Sluice frame. (R279) -/
  | promoteRequest (p seq page : Nat)
  /-- PROMOTION_COPY_COMPLETE: A page copy into a Sluice frame completes and the page becomes BASIN. (R279) -/
  | promotionCopyComplete (p : Nat)
  /-- SLICE_INTAKE: A request enters a slice intake, hits or misses, and is accepted. (R224) -/
  | sliceIntake (g port : Nat) (chk : Chk)
  /-- SECTOR_FILL: A fetched sector arrives at its slice and serves its waiters. (R229) -/
  | sectorFill (g line sector : Nat)
  /-- REDUCTION_APPLY: A reduction ALU applies the entries for one sector. (R235) -/
  | reductionApply (g : Nat) (chk : Chk)
  /-- REDUCE_FORCE: A miss that has waited 256 cycles on a set of locked lines forces the oldest of them. (R237) -/
  | reduceForce (g set : Nat)
  /-- THRASH_WINDOW_END: At the end of a thrash window each slice compares its refetches with THRASH_LIMIT. (R221) -/
  | thrashWindowEnd
  /-- CISTERN_WATCHDOG: A slice that completes nothing for 1 ms trips the watchdog. (R239) -/
  | cisternWatchdog (g : Nat)
  /-- SILL_TRANSFER: A Sill transfer is received and checked, and is resent on failure. (R233) -/
  | sillTransfer (dir : Nat) (ok : Bool)
  /-- PIN_WAYS_APPLY: A committed change of PIN_WAYS is applied to every set. (R219) -/
  | pinWaysApply (half : Nat)
  /-- POOL_PAGES_APPLY: A committed change of POOL_PAGES redefines a half's LEVEL 1 pool. (R218) -/
  | poolPagesApply (half : Nat)
  /-- RESERVOIR_READ_REQUEST: A sector read enters a channel's read queue, within its class limit. (R245) -/
  | reservoirReadRequest (g id : Nat)
  /-- RESERVOIR_READ_RETURN: A sector read burst completes and is checked, and is read again on failure. (R244) -/
  | reservoirReadReturn (stack ch : Nat) (ok : Bool) (ecc : Option Nat)
  /-- RESERVOIR_WRITE_REQUEST: A sector write enters a channel's write queue, merging with queued writes. (R247) -/
  | reservoirWriteRequest (g : Nat)
  /-- RESERVOIR_WRITE_DRAIN: A channel switches to or from draining writes at its thresholds. (R246) -/
  | reservoirWriteDrain (stack ch : Nat)
  /-- REFRESH: A channel refreshes its next bank, every 122 ns or half that in hot mode. (R248) -/
  | refresh (stack ch : Nat)
  /-- CHANNEL_RETRAIN: A channel with 16 failed transfers in 1 ms is retrained. (R250) -/
  | channelRetrain (stack ch : Nat)
  /-- DEMAND_FAULT: The Sluice answers a walk handed to it, by page state. (R278) -/
  | demandFault (p id : Nat)
  /-- HOST_LOOKAHEAD: The Sluice pages in the HOST pages of the first HOST_AHEAD satisfied tasks. (R277) -/
  | hostLookahead
  /-- PAGE_IN_COMPLETE: A host page-in move completes or fails. (R283) -/
  | pageInComplete (seq page : Nat) (data : Option (List Byte))
  /-- PAGEOUT_START: A half's free sequence pages fall below PAGEOUT_LOW and page-out begins. (R282) -/
  | pageoutStart (half : Nat)
  /-- PAGEOUT_COMPLETE: A page-out copy completes, the page becomes HOST and its Reservoir page is freed. (R272) -/
  | pageoutComplete (seq page : Nat) (ok : Bool)
  /-- SEQ_RELEASE: A write of SEQ_RELEASE frees a sequence or marks it RELEASING. (R265) -/
  | seqRelease (w : ObjWrite)
  /-- SEQ_QUERY: A write of SEQ_QUERY selects the sequence that the query elements report. (R289) -/
  | seqQuery (w : ObjWrite)
  /-- FLIT_RECEIVE: A frame is received and corrected; the flit is accepted in SEQ order or a retry is requested. (R310) -/
  | flitReceive (link : Nat) (frame : List Byte)
  /-- READ_PACKET: A READ packet requests sectors from its destination. (R305) -/
  | readPacket (link : Nat) (chk : Chk)
  /-- WRITE_PACKET: A WRITE packet stores whole sectors. (R305) -/
  | writePacket (link : Nat)
  /-- WRITE_MASKED_PACKET: A WRITE_MASKED packet makes a byte-masked store to one line. (R306) -/
  | writeMaskedPacket (link : Nat)
  /-- ATOM_PACKET: An ATOM packet applies the lanes of one atomic to one line. (R306) -/
  | atomPacket (link : Nat)
  /-- POST_PACKET: The POST_A and POST_B pair delivers a task record to the Fountain. (R58) -/
  | postPacket (link : Nat)
  /-- SIGNAL_PACKET: A SIGNAL packet applies a signal entry, or poison, to a counter. (R48) -/
  | signalPacket (link : Nat)
  /-- READ_DATA_PACKET: A READ_DATA packet returns the sectors read. (R305) -/
  | readDataPacket (link : Nat)
  /-- WRITE_ACK_PACKET: A WRITE_ACK packet acknowledges the acceptance of a write, signal or reduce-write. (R320) -/
  | writeAckPacket (link : Nat)
  /-- ATOM_DATA_PACKET: An ATOM_DATA packet returns old values. (R305) -/
  | atomDataPacket (link : Nat)
  /-- POST_RESULT_PACKET: A POST_RESULT packet returns the spawn result. (R58) -/
  | postResultPacket (link : Nat)
  /-- REFUSED_PACKET: A REFUSED packet returns a code, ending the requesting task. (R320) -/
  | refusedPacket (link : Nat)
  /-- RED_PACKET: A RED packet carries whole-sector reduction operands to a reduction queue. (R322) -/
  | redPacket (link : Nat)
  /-- RED_MASKED_PACKET: A RED_MASKED packet carries byte-masked reduction operands for one line. (R322) -/
  | redMaskedPacket (link : Nat)
  /-- DICT_PACKET: A DICT packet carries a fragment of a relayed dictionary frame. (R370) -/
  | dictPacket (link : Nat)
  /-- RETRY_REQ_PACKET: A RETRY_REQ makes the transmitter resend from ACK + 1. (R310) -/
  | retryReqPacket (link : Nat)
  /-- NULL_PACKET: A NULL flit carries only an acknowledgement and credits. (R309) -/
  | nullPacket (link : Nat)
  /-- POOL_ASSIGN: An ASSIGN message gives a device its coordinates, and it checks its cabling and forwards the message. (R324) -/
  | poolAssign (link x y z : Nat)
  /-- POOL_JOIN: A JOIN message reaches the head, which accepts it or refuses it with POOL_MISMATCH. (R324) -/
  | poolJoin (device tier shape keeper fountain : Nat)
  /-- POOL_FORMATION_DEADLINE: Two seconds after ASSIGN began, the head takes the joined devices as members or sends all to WAITING. (R324) -/
  | poolFormationDeadline
  /-- POOL_STATE_QUERY: At S8 a device asks its peers for their pool state to decide whether to form or rejoin a pool. (R416) -/
  | poolStateQuery (answers : List (Nat × Nat))
  /-- POOL_LOSS: A LOSS message that names a broken pair makes the receiving member go BROKEN. (R327) -/
  | poolLoss (a b : Nat)
  /-- POOL_WITHDRAW: A WITHDRAW message sets both ends of a link to WITHDRAWN. (R330) -/
  | poolWithdraw (link : Nat)
  /-- POOL_RESET: A RESET message from a member after its Cistern-only reset ends the tasks whose writes it had accepted. (R331) -/
  | poolReset (device : Nat)
  /-- REPLAY_TIMEOUT: The oldest unacknowledged flit waits 2 µs and the transmitter resends from it. (R310) -/
  | replayTimeout (link : Nat)
  /-- LINK_RETRAIN: A link with too many resends goes to RETRAINING. (R311) -/
  | linkRetrain (cause : RetrainCause)
  /-- LINK_RETRAIN_COMPLETE: A retrain succeeds and resends from the oldest unacknowledged flit, or fails, and after three failures the link is DOWN. (R311) -/
  | linkRetrainComplete (train : LinkTrain)
  /-- LINK_DOWN_TIMEOUT: With no good flit for 8 µs, a link is declared DOWN and its unacknowledged flits are handled. (R309) -/
  | linkDownTimeout (link : Nat)
  /-- PEER_TIMEOUT: A peer request without an answer within PEER_TIMEOUT ends its task with PEER_LOST. (R320) -/
  | peerTimeout (peer tag : Nat)
  /-- LINK_ENABLE: A committed write of LINK_ENABLE withdraws the link or retrains it. (R330) -/
  | linkEnable (w : ObjWrite)
  /-- POOL_MEMBERS: A committed membership change ends tasks, changes the membership and recomputes routes at its instant. (R326) -/
  | poolMembers (members : Nat)
  /-- PCIE_CONFIG_REQUEST: A configuration request is answered with retry status before S10 ends, and completes after that. (R349) -/
  | pcieConfigRequest (req : CfgReq)
  /-- HOST_LINK_TRAINED: The PCIe link settles, and at an unsupported rate, width or mode the port refuses memory requests and warns. (R335) -/
  | hostLinkTrained (rate width : Nat) (flit : Bool)
  /-- PORT_RESET: PERST_N, a hot reset, a bus reset or a link-down resets the port alone. (R348) -/
  | portReset (cause : PortCause)
  /-- BAR4_READ: A BAR4 read is carried to the pool address and completed, refused or poisoned. (R341) -/
  | bar4Read (rd : MemRd) (chk : Chk)
  /-- BAR4_WRITE: A BAR4 write is carried to the pool address, or refused, or discarded if poisoned. (R340) -/
  | bar4Write (offset : Nat) (data : List Byte) (ep : Bool)
  /-- BAR0_DIRECT_READ: A read of the direct region is served by the port without the Keeper. (R363) -/
  | bar0DirectRead (rd : MemRd)
  /-- BAR0_CHANNEL_SUBMIT: A write of SUBMIT in a request channel submits the Casaro frame placed in REQUEST. (R362) -/
  | bar0ChannelSubmit (chan : Nat) (request : List Byte) (len : Nat) (ep : Bool)
  /-- BAR0_INVALID_ACCESS: A write to the header, a reserved range or the direct region, or a request spanning regions, is completed as Unsupported Request. (R361) -/
  | bar0InvalidAccess (rd : MemRd) (write : Option (List Byte))
  /-- COPY_GO: A write of COPY_GO splits a host copy into queued moves, or is refused. (R345) -/
  | copyGo (w : ObjWrite)
  /-- HOST_COPY_MOVE_COMPLETE: A host copy engine move completes or fails, and the copy status advances. (R345) -/
  | hostCopyMoveComplete (ok : Bool) (data : List Byte)
  /-- SPDM_GET_VERSION: The SPDM request GET_VERSION is answered. (R351) -/
  | spdmGetVersion
  /-- SPDM_GET_CAPABILITIES: The SPDM request GET_CAPABILITIES is answered. (R351) -/
  | spdmGetCapabilities
  /-- SPDM_NEGOTIATE_ALGORITHMS: The SPDM request NEGOTIATE_ALGORITHMS is answered with P-256 and SHA-256. (R351) -/
  | spdmNegotiateAlgorithms (asym hash : Nat)
  /-- SPDM_GET_DIGESTS: The SPDM request GET_DIGESTS is answered. (R351) -/
  | spdmGetDigests
  /-- SPDM_GET_CERTIFICATE: The SPDM request GET_CERTIFICATE returns the slot 0 chain. (R486) -/
  | spdmGetCertificate (slot offset len : Nat)
  /-- SPDM_CHALLENGE: The SPDM request CHALLENGE is signed with the identity key. (R486) -/
  | spdmChallenge (slot : Nat) (nonce : List Byte)
  /-- SPDM_GET_MEASUREMENTS: The SPDM request GET_MEASUREMENTS returns the measurement blocks. (R486) -/
  | spdmGetMeasurements (index : Nat) (sign : Bool) (nonce : List Byte)
  /-- SPDM_UNSUPPORTED_REQUEST: Any other SPDM request is answered with ERROR UnsupportedRequest. (R351) -/
  | spdmUnsupportedRequest (code : Nat)
  /-- CASARO_READ: A READ message returns items for its keys. (R369) -/
  | casaroRead (req : CasReq)
  /-- CASARO_WRITE: A WRITE message applies or stages each item after its checks. (R357) -/
  | casaroWrite (req : CasReq)
  /-- CASARO_LIST: A LIST message returns object descriptions from a first key. (R368) -/
  | casaroList (req : CasReq)
  /-- CASARO_DESCRIBE: A DESCRIBE message returns one object's description and default. (R368) -/
  | casaroDescribe (req : CasReq)
  /-- CASARO_BEGIN: A BEGIN message opens a transaction. (R373) -/
  | casaroBegin (req : CasReq)
  /-- CASARO_PREPARE: A PREPARE message checks the staged set, votes, and holds the checked conditions. (R375) -/
  | casaroPrepare (req : CasReq)
  /-- CASARO_COMMIT: A COMMIT message applies the staged writes now, or schedules them for an INSTANT. (R376) -/
  | casaroCommit (req : CasReq)
  /-- CASARO_ROLLBACK: A ROLLBACK message discards the transaction. (R377) -/
  | casaroRollback (req : CasReq)
  /-- CASARO_HELLO: A HELLO message is answered with the module's identity and state. (R368) -/
  | casaroHello (req : CasReq)
  /-- CASARO_RESEND: A RESEND message resends up to 64 events that are still in the ring. (R372) -/
  | casaroResend (req : CasReq)
  /-- DICT_RELAY_TIMEOUT: A relayed request without a whole response within PEER_TIMEOUT is answered with PEER_LOST. (R370) -/
  | dictRelayTimeout (dev tag : Nat)
  /-- TXN_TIMEOUT: A transaction without activity for 30 s is discarded and reported. (R377) -/
  | txnTimeout
  /-- TIMED_COMMIT_INSTANT: The timebase reaches INSTANT, the checks are repeated, and the writes are applied or the transaction fails. (R376) -/
  | timedCommitInstant
  /-- OBJECT_WRITE: A write to an object that has no row of its own is checked and applied or staged. (R357) -/
  | objectWrite (w : ObjWrite)
  /-- INTAKE_ERROR_WRITE: A write of INTAKE_ERROR clears each sticky bit written as 0. (R43) -/
  | intakeErrorWrite (w : ObjWrite)
  /-- EVENT_QUERY: A write of EVENT_QUERY selects the event that EVENT_RECORD reports. (R372) -/
  | eventQuery (w : ObjWrite)
  /-- DEFECT_QUERY: A write of DEFECT_QUERY selects the defect entry reported. (R400) -/
  | defectQuery (w : ObjWrite)
  /-- CORE_ENABLE: A committed write of CORE_ENABLE withdraws a core with a drain, or restores it. (R379) -/
  | coreEnable (w : ObjWrite)
  /-- CLASS_ENABLE: A committed write of CLASS_ENABLE withdraws a class with a drain, or restores it. (R379) -/
  | classEnable (w : ObjWrite)
  /-- MIN_RESET: A write of MIN_RESET restarts every minimum record and the crack counting. (R393) -/
  | minReset (w : ObjWrite)
  /-- SNAPSHOT: A write of SNAPSHOT copies the byte counters and choices into their SNAP elements in one fabric cycle. (R479) -/
  | snapshot (w : ObjWrite)
  /-- SNAPSHOT_AT: The timebase reaches SNAPSHOT_AT and a snapshot is taken. (R479) -/
  | snapshotAt
  /-- SECONDS_LOAD: A write of SECONDS_LOAD arms a seconds load for the next obeyed pulse and leaves state 3. (R450) -/
  | secondsLoad (w : ObjWrite)
  /-- ARITH_CLOCK: A write of ARITH_CLOCK changes the arithmetic clock and the compute-rail set point. (R445) -/
  | arithClock (w : ObjWrite)
  /-- ACCEPT_UNTESTED: A write of ACCEPT_UNTESTED true resumes a start stopped with UNTESTED_PAIR. (R410) -/
  | acceptUntested (w : ObjWrite)
  /-- WARM_RESET: A write of WARM_RESET restarts the device from S0 as a warm start. (R401) -/
  | warmReset (w : ObjWrite)
  /-- CISTERN_RESET: A write of CISTERN_RESET requests a Cistern-only reset. (R413) -/
  | cisternReset (w : ObjWrite)
  /-- CISTERN_RESET_DRAIN_END: The drain finishes or meets its 2 ms bound, and the writeback, refill, rebuild and resumption follow. (R413) -/
  | cisternResetDrainEnd
  /-- REGULATION_ADMIT: A held transaction is admitted when its class count falls below OUTSTANDING_LIMIT. (R477) -/
  | regulationAdmit (point inst cls : Nat)
  /-- SVC_CANCEL: A write of SVC_CANCEL ends a service operation at its next commit point. (R383) -/
  | svcCancel (w : ObjWrite)
  /-- DEFECT_SWEEP: SVC_GO of operation 0x01 starts a defect sweep on an idle device. (R412) -/
  | defectSweep (w : ObjWrite)
  /-- SWEEP_BLOCK_COMMIT: A sweep block finishes, appends its records and retires the units it names. (R412) -/
  | sweepBlockCommit (found : List SweepFinding)
  /-- SPOT_TEST: SVC_GO of operation 0x02 starts a spot test of the named positions. (R467) -/
  | spotTest (w : ObjWrite)
  /-- TEST_PACK_APPEND: Operation 0x03 in MODE 0 appends a chunk of a test pack. (R466) -/
  | testPackAppend (w : ObjWrite)
  /-- TEST_PACK_INSTALL: Operation 0x03 in MODE 1 verifies and installs the appended pack. (R466) -/
  | testPackInstall (w : ObjWrite)
  /-- TEST_PACK_INSTALL_POOL: Operation 0x03 in MODE 2 verifies and installs a pack from pool memory. (R466) -/
  | testPackInstallPool (w : ObjWrite)
  /-- TEST_PACK_RUN: Operation 0x03 in MODE 3 runs the installed pack on every enabled core. (R466) -/
  | testPackRun (w : ObjWrite)
  /-- CORE_TEST_COMPLETE: A core's tests finish; a failed core is retired and recorded, and a passing core returns to service. (R468) -/
  | coreTestComplete (t : CoreTest)
  /-- FIRMWARE_UPDATE: SVC_GO of operation 0x04 starts writing an image into the slot that is not running. (R411) -/
  | firmwareUpdate (w : ObjWrite)
  /-- FIRMWARE_UPDATE_PHASE: The update reaches a commit point or phase change, and phase 5 switches the preferred slot. (R411) -/
  | firmwareUpdatePhase
  /-- LICENCE_LOAD: SVC_GO of operation 0x05 verifies a licence, stores it as pending and may withdraw units. (R488) -/
  | licenceLoad (w : ObjWrite)
  /-- FAILURE_SIGNATURE_EXPORT: SVC_GO of operation 0x06 exports failure signatures as CBOR. (R469) -/
  | failureSignatureExport (w : ObjWrite)
  /-- DEFECT_ENTRY_CLEARING: SVC_GO of operation 0x07 verifies a service token and appends cancel records. (R490) -/
  | defectEntryClearing (w : ObjWrite)
  /-- FLASH_STORE: A store of a flash object or record completes or fails. (R389) -/
  | flashStore (ok : Bool)
  /-- COLD_START: 44 V applied starts the device from S0 as a cold start. (R401) -/
  | coldStart
  /-- RESET_N: RESET_N held low turns the rails off, and its rising edge begins a warm start. (R401) -/
  | resetN (level : Bool)
  /-- KEEPER_WATCHDOG: The Keeper watchdog expires and causes a full warm start. (R401) -/
  | keeperWatchdog
  /-- STAGE_S0: Rails ramp and the header regions switch on in pairs. (R403) -/
  | stageS0 (obs : S0Obs)
  /-- STAGE_S1: The reference is checked, the PLLs lock and the timebase starts. (R403) -/
  | stageS1 (locks : Nat)
  /-- STAGE_S2: Firmware is verified, the defect list is read and the network and PCIe link come up. (R409) -/
  | stageS2 (random : Nat) (linkRate linkWidth : Nat)
  /-- STAGE_S3: Vertical lanes are tested and spares substituted. (R403) -/
  | stageS3 (obs : S3Obs)
  /-- STAGE_S4: Slices and Basins are tested and filled, and the Fountain and Sluice come up. (R403) -/
  | stageS4 (obs : S4Obs)
  /-- STAGE_S5: Cores are self-tested, memories filled and the enabled positions chosen. (R14) -/
  | stageS5 (failedCores : List Nat)
  /-- STAGE_S6: The Reservoir stacks are trained and filled. (R253) -/
  | stageS6 (trains : List StackTrain)
  /-- STAGE_S7: Enabled links are trained. (R303) -/
  | stageS7 (trains : List LinkTrain)
  /-- STAGE_S8: The pool is formed or rejoined. (R324) -/
  | stageS8
  /-- STAGE_S9: The pending licence is taken and the licence in force is checked. (R489) -/
  | stageS9
  /-- STAGE_S10: Logical core numbers are given and the device begins taking work. (R15) -/
  | stageS10
  /-- THERMAL_RESTART: After every channel has read below 80 °C for 10 s following a trip, the device restarts as a warm start. (R440) -/
  | thermalRestart
  /-- INLET_FAULT: An inlet below 38 V for 100 µs, or above 52 V, stops the module converters. (R439) -/
  | inletFault
  /-- INLET_RESTORED: After the inlet has been within range for 1 s, the module restarts as a cold start. (R439) -/
  | inletRestored
  /-- PRESENT_N_RELEASE: PRESENT_N breaks and the converters stop within 10 µs. (R494) -/
  | presentNRelease
  /-- HOUSEKEEPING_ROUND: Every 1 ms the Keeper reads every sensor, voltage and current and acts on the results. (R431) -/
  | housekeepingRound (r : Round)
  /-- REGULATOR_FAILED: A regulator stops switching or overcurrents and turns itself off. (R423) -/
  | regulatorFailed (cluster reg : Nat)
  /-- CONVERTER_FAILED: A module converter phase stops and is shut off. (R420) -/
  | converterFailed (phase : Nat)
  /-- SENSE_LOST: A phase's remote sense line fails and the phase regulates at its own output. (R421) -/
  | senseLost (phase : Nat)
  /-- RAIL_FAULT: A rail beyond its trip value for 10 µs turns the compute and SRAM rails off. (R419) -/
  | railFault (rail : Nat)
  /-- PPS_PULSE: A PPS_IN edge is captured and, by PPS_STATE, obeyed or not. (R449) -/
  | ppsPulse
  /-- PPS_MISSING: No pulse by 2 µs after a whole second, and the state moves to holdover. (R449) -/
  | ppsMissing
  /-- CLOCK_LOCK: A reference or PLL is lost in service, with the outcome given by which clock it is. (R447) -/
  | clockLock (clock : ClockId)
  /-- VERTICAL_LANE_TEST: A vertical path with repeated failures is held while a lane test substitutes a spare or resumes. (R460) -/
  | verticalLaneTest (path : VPath) (finding : LaneFinding) (serves : SharedKind)
  /-- SLICE_RETIRED: A slice is retired within 1 ms of a second port loss, and its partner serves its sets. (R462) -/
  | sliceRetired (g : Nat)
  /-- SMBUS_INPUT_VOLTAGE: SMBus command 0x01 returns INPUT_VOLTAGE. (R503) -/
  | smbusInputVoltage
  /-- SMBUS_INPUT_POWER: SMBus command 0x02 returns INPUT_POWER. (R503) -/
  | smbusInputPower
  /-- SMBUS_HOTTEST: SMBus command 0x03 returns the reading of the hottest channel or point. (R503) -/
  | smbusHottest
  /-- SMBUS_STAGE: SMBus command 0x04 returns STAGE. (R503) -/
  | smbusStage
  /-- SMBUS_THROTTLE_STEP: SMBus command 0x05 returns THROTTLE_STEP. (R503) -/
  | smbusThrottleStep
  /-- SMBUS_SERIAL: SMBus command 0x06 returns SERIAL. (R503) -/
  | smbusSerial
  /-- SMBUS_STAGE_RESULT: SMBus command 0x07 returns STAGE_RESULT and releases SMB_ALERT_N. (R503) -/
  | smbusStageResult
  /-- SMBUS_OTHER_COMMAND: Any other SMBus command is answered with NACK. (R503) -/
  | smbusOtherCommand (cmd : Nat)
  /-- CHANNEL_RETRAIN_COMPLETE: A Reservoir channel's retraining ends within 200 µs: its waiting requests resume, or a channel that fails retraining loses its stack under R252. (R250) -/
  | channelRetrainComplete (stack ch : Nat) (ok : Bool)
  /-- RESERVOIR_WRITE_BURST_COMPLETE: A sector write burst completes on its channel and is tested by the stack, being sent again up to 3 times and, on final failure, recorded as RESERVOIR_LOST with the stack lost. (R251) -/
  | reservoirWriteBurstComplete (stack ch : Nat) (ok : Bool)
  /-- PCIE_REFCLK_RETURN: PCIE_REFCLK returns after being lost and the port retrains its link. (R447) -/
  | pcieRefclkReturn (rate width : Nat) (flit : Bool)
  /-- SPOT_TEST_WAIT_MS_EXPIRY: A core that is not free within WAIT_MS of a spot test is skipped and counted in SKIPPED. (R467) -/
  | spotTestWaitMsExpiry (p : Nat)
  deriving DecidableEq, Repr

end Sys2Proof
end

