-- ==== Sys2Proof/Decode.lean ====
section
/-! DEFINITION. The decoder of words: the table of operations and events gives no row any bits, so no word spells a
command. -/

namespace Sys2Proof

/-- The command that `nbits` bits of a word spell by the table: none, since no row of the table gives its command bits. -/
def decodeTableWord (_nbits _w : Nat) : Option Instr := none

end Sys2Proof
end

