-- ==== Sys2Proof/Machine/Bits.lean ====
section
/-! DEFINITION. Bit fields, byte orders, sign extension and the check polynomials. -/

namespace Sys2Proof.Machine

/-- Bits [hi:lo] of a number. -/
def bits (x hi lo : Nat) : Nat := x / 2 ^ lo % 2 ^ (hi + 1 - lo)

/-- Bit `i` of a number. -/
def bit (x i : Nat) : Bool := x / 2 ^ i % 2 == 1

/-- Bits [hi:lo] of an instruction word. -/
def fld (w : InstrBits) (hi lo : Nat) : Nat := bits w.toNat hi lo

/-- The number whose little-endian bytes are given (R7). -/
def leNat : List Byte → Nat
  | [] => 0
  | b :: bs => b.toNat + 256 * leNat bs

/-- The low `n` bytes of a number, least significant first. -/
def leBytes : Nat → Nat → List Byte
  | 0, _ => []
  | n + 1, x => BitVec.ofNat 8 x :: leBytes n (x / 256)

/-- The number whose big-endian bytes are given. -/
def beNat (bs : List Byte) : Nat := leNat bs.reverse

/-- The low `n` bytes of a number, most significant first. -/
def beBytes (n x : Nat) : List Byte := (leBytes n x).reverse

/-- `n` bytes of `bs` from offset `off`, zero past the end. -/
def slice (bs : List Byte) (off n : Nat) : List Byte :=
  let t := (bs.drop off).take n
  t ++ List.replicate (n - t.length) 0#8

/-- The little-endian number in `n` bytes at offset `off`. -/
def leAt (bs : List Byte) (off n : Nat) : Nat := leNat (slice bs off n)

/-- The list with the elements from `off` on replaced by `new`. -/
def splice {α : Type} (xs : List α) (off : Nat) (new : List α) : List α :=
  xs.take off ++ new ++ xs.drop (off + new.length)

/-- The `n`-bit two's complement reading of a number. -/
def signed (n x : Nat) : Int :=
  let y := x % 2 ^ n
  if y < 2 ^ (n - 1) then (y : Int) else (y : Int) - (2 ^ n : Nat)

/-- The low `n` bits of an integer, as a number. -/
def unsigned (n : Nat) (x : Int) : Nat := (x % ((2 ^ n : Nat) : Int)).toNat

/-- Sign extension of the low `n` bits to 32 bits. -/
def sext32 (n x : Nat) : Nat := unsigned 32 (signed n x)

/-- The numbers of the set bits of a mask below `n`, rising. -/
def bitsOf (n m : Nat) : List Nat := (List.range n).filter (fun i => bit m i)

/-- The mask with the bits of the list set. -/
def maskOf (ls : List Nat) : Nat := ls.foldl (fun m i => if bit m i then m else m + 2 ^ i) 0

/-- The bits of a byte string, least significant bit of each byte first. -/
def bitsLsb : List Byte → List Bool
  | [] => []
  | b :: bs => (List.range 8).map (fun i => b.getLsbD i) ++ bitsLsb bs

/-- One step of CRC-32C with the reflected polynomial 0x82F6_3B78 (R302). -/
def crc32cBit (c : BitVec 32) (b : Bool) : BitVec 32 :=
  let x := c.getLsbD 0 != b
  if x then (c >>> 1) ^^^ 0x82F63B78#32 else c >>> 1

/-- CRC-32C (Castagnoli) of a byte string (R302). -/
def crc32c (bs : List Byte) : Nat :=
  ((bitsLsb bs).foldl crc32cBit 0xFFFFFFFF#32 ^^^ 0xFFFFFFFF#32).toNat

/-- One step of the Ripple division: the next coefficient of W, highest first (R453). -/
def rippleBit (c : BitVec 16) (b : Bool) : BitVec 16 :=
  let x := c.getMsbD 0 != b
  if x then (c <<< 1) ^^^ 0x8BB7#16 else c <<< 1

/-- The Ripple check of a 16-byte word: W(x) x^16 mod G(x), inverted (R453). -/
def ripple (w : List Byte) : Nat :=
  (((bitsLsb w).reverse.foldl rippleBit 0#16) ^^^ 0xFFFF#16).toNat

/-- The median of a list of integers: the middle one when sorted (the lower of the two middle ones' mean for an even
number, rounded toward minus infinity). -/
def median (xs : List Int) : Int :=
  let ys := xs.insertionSort (· ≤ ·)
  let n := ys.length
  if n % 2 = 1 then ys.getD (n / 2) 0 else (ys.getD (n / 2 - 1) 0 + ys.getD (n / 2) 0) / 2

end Sys2Proof.Machine
end

