-- ==== Sys2Proof/Machine/Float.lean ====
section
/-! DEFINITION. Number formats and their arithmetic (chapter 6 of the manual): every value is held exactly, and every
rounding is to nearest, ties to even, at the place that names it. -/

namespace Sys2Proof.Machine

/-- What a format's top exponent encodes (R161). -/
inductive FmtKind where
  | ieee
  | e4m3
  | plain
  deriving DecidableEq, Repr

/-- A floating-point format: exponent and fraction widths, bias, kind (R161). -/
structure Fmt where
  eb : Nat
  mb : Nat
  bias : Int
  kind : FmtKind
  deriving DecidableEq, Repr

abbrev fmtF32 : Fmt := ⟨8, 23, 127, .ieee⟩
abbrev fmtBF16 : Fmt := ⟨8, 7, 127, .ieee⟩
abbrev fmtF16 : Fmt := ⟨5, 10, 15, .ieee⟩
abbrev fmtE4M3 : Fmt := ⟨4, 3, 7, .e4m3⟩
abbrev fmtE5M2 : Fmt := ⟨5, 2, 15, .ieee⟩
abbrev fmtE3M2 : Fmt := ⟨3, 2, 3, .plain⟩
abbrev fmtE2M3 : Fmt := ⟨2, 3, 1, .plain⟩
abbrev fmtE2M1 : Fmt := ⟨2, 1, 1, .plain⟩

/-- A value: NaN, an infinity, or (−1)^neg × m × 2^e; zero keeps its sign. -/
inductive FVal where
  | nan
  | inf (neg : Bool)
  | fin (neg : Bool) (m : Nat) (e : Int)
  deriving DecidableEq, Repr

/-- 2^k for an integer k that is not negative. -/
def pow2 (k : Int) : Nat := 2 ^ k.toNat

/-- The sign bit, exponent field and fraction field of an encoding. -/
def fSign (f : Fmt) (x : Nat) : Bool := bit x (f.eb + f.mb)
def fExp (f : Fmt) (x : Nat) : Nat := bits x (f.eb + f.mb - 1) f.mb
def fFrac (f : Fmt) (x : Nat) : Nat := x % 2 ^ f.mb

/-- The value of an encoding (R161). -/
def fDecode (f : Fmt) (x : Nat) : FVal :=
  let s := fSign f x
  let e := fExp f x
  let m := fFrac f x
  if f.kind = .ieee ∧ e = 2 ^ f.eb - 1 then (if m = 0 then .inf s else .nan)
  else if f.kind = .e4m3 ∧ e = 15 ∧ m = 7 then .nan
  else if e = 0 then .fin s m (1 - f.bias - f.mb)
  else .fin s (2 ^ f.mb + m) (e - f.bias - f.mb)

/-- An encoding is subnormal: exponent field 0, fraction not 0 (R173). -/
def fSubnormal (f : Fmt) (x : Nat) : Bool := fExp f x == 0 && fFrac f x != 0

/-- The code of the largest finite magnitude (R162). -/
def fMax (f : Fmt) : Nat :=
  match f.kind with
  | .ieee => (2 ^ f.eb - 1) * 2 ^ f.mb - 1
  | .e4m3 => 0x7E
  | .plain => 2 ^ (f.eb + f.mb) - 1

/-- The canonical NaN of a format (R163). -/
def fNaN (f : Fmt) : Nat :=
  match f.kind with
  | .ieee => (2 ^ f.eb - 1) * 2 ^ f.mb + 2 ^ (f.mb - 1)
  | .e4m3 => 0x7F
  | .plain => 0

/-- The infinity's code; E4M3 has none and gives its NaN (R175). -/
def fInf (f : Fmt) : Nat :=
  match f.kind with
  | .ieee => (2 ^ f.eb - 1) * 2 ^ f.mb
  | .e4m3 => 0x7F
  | .plain => fMax f

/-- `m / 2^d` to nearest, ties to even. -/
def shiftRne (m d : Nat) : Nat :=
  let q := m / 2 ^ d
  let r := m % 2 ^ d
  if 2 * r > 2 ^ d ∨ (2 * r = 2 ^ d ∧ q % 2 = 1) then q + 1 else q

/-- The magnitude code of m × 2^e rounded once, to nearest with ties to even, as though the exponent were unbounded. -/
def roundMag (f : Fmt) (m : Nat) (e : Int) : Nat :=
  if m = 0 then 0
  else
    let top : Int := e + (Nat.log2 m : Int)
    let q : Int := max (top - f.mb) (1 - f.bias - f.mb)
    let big := if q ≤ e then m * pow2 (e - q) else shiftRne m (q - e).toNat
    if big < 2 ^ f.mb then big
    else ((q + f.mb + f.bias - 1) * (2 ^ f.mb : Nat) + (big : Int)).toNat

/-- The encoding of a value: a finite value beyond the format's range gives its infinity, or its largest finite value
when `sat` (R167, R175). -/
def fEncode (f : Fmt) (sat : Bool) (v : FVal) : Nat :=
  let sg (n : Bool) : Nat := if n then 2 ^ (f.eb + f.mb) else 0
  match v with
  | .nan => fNaN f
  | .inf n => if f.kind = .e4m3 then fInf f else sg n + fInf f
  | .fin n m e =>
    let c := roundMag f m e
    if c > fMax f then sg n + (if sat then fMax f else fInf f) else sg n + c

/-- Zero of an encoding's sign. -/
def fZeroOf (f : Fmt) (x : Nat) : Nat := if fSign f x then 2 ^ (f.eb + f.mb) else 0

/-- A subnormal encoding replaced by zero of its sign when `flush`, and whether that happened (R173). -/
def fFlush (f : Fmt) (flush : Bool) (x : Nat) : Nat × Bool :=
  if flush && fSubnormal f x then (fZeroOf f x, true) else (x, false)

/-- −x. -/
def FVal.neg : FVal → FVal
  | .nan => .nan
  | .inf n => .inf !n
  | .fin n m e => .fin (!n) m e

/-- The signed mantissa at exponent `e₀ ≤ e`. -/
def alignTo (e0 : Int) (n : Bool) (m : Nat) (e : Int) : Int :=
  let x : Int := m * pow2 (e - e0)
  if n then -x else x

/-- The value of an integer times 2^e, zero with the sign `zneg`. -/
def fvOfInt (zneg : Bool) (x e : Int) : FVal :=
  if x = 0 then .fin zneg 0 e else .fin (decide (x < 0)) x.natAbs e

/-- The exact sum, with IEEE 754's signs of zero under round to nearest. -/
def FVal.add : FVal → FVal → FVal
  | .nan, _ => .nan
  | _, .nan => .nan
  | .inf a, .inf b => if a = b then .inf a else .nan
  | .inf a, _ => .inf a
  | _, .inf b => .inf b
  | .fin n1 m1 e1, .fin n2 m2 e2 =>
    let e := min e1 e2
    fvOfInt (n1 && n2) (alignTo e n1 m1 e1 + alignTo e n2 m2 e2) e

/-- The exact product. -/
def FVal.mul : FVal → FVal → FVal
  | .nan, _ => .nan
  | _, .nan => .nan
  | .inf a, .inf b => .inf (a != b)
  | .inf a, .fin b m _ => if m = 0 then .nan else .inf (a != b)
  | .fin a m _, .inf b => if m = 0 then .nan else .inf (a != b)
  | .fin n1 m1 e1, .fin n2 m2 e2 => .fin (n1 != n2) (m1 * m2) (e1 + e2)

/-- a < b, for values neither of which is NaN; −0 and +0 are equal. -/
def FVal.lt : FVal → FVal → Bool
  | .nan, _ => false
  | _, .nan => false
  | .inf a, .inf b => a && !b
  | .inf a, .fin .. => a
  | .fin .., .inf b => !b
  | .fin n1 m1 e1, .fin n2 m2 e2 =>
    let e := min e1 e2
    decide (alignTo e n1 m1 e1 < alignTo e n2 m2 e2)

/-- a = b, for values neither of which is NaN; −0 and +0 are equal. -/
def FVal.eq (a b : FVal) : Bool :=
  a != .nan && b != .nan && !(FVal.lt a b) && !(FVal.lt b a)

/-- A binary32 encoding is a NaN. -/
def f32IsNaN (x : Nat) : Bool := fDecode fmtF32 x == .nan

/-- The order of binary32 encodings that are not NaN, with −0 below +0 (R117). -/
def f32Key (x : Nat) : Nat := if bit x 31 then 2 ^ 31 - 1 - x % 2 ^ 31 else 2 ^ 31 + x % 2 ^ 31

/-- FMIN or FMAX of two encodings (R117). -/
def f32MinMax (max : Bool) (a b : Nat) : Nat :=
  if f32IsNaN a then (if f32IsNaN b then fNaN fmtF32 else b)
  else if f32IsNaN b then a
  else if decide (f32Key a < f32Key b) = max then b else a

/-- The binary32 sum, subnormals kept. -/
def f32Add (a b : Nat) : Nat := fEncode fmtF32 false (FVal.add (fDecode fmtF32 a) (fDecode fmtF32 b))

/-- The integer nearest a finite value, ties to even. -/
def FVal.toInt : FVal → Int
  | .fin n m e =>
    let x : Nat := if 0 ≤ e then m * pow2 e else shiftRne m (-e).toNat
    if n then -(x : Int) else x
  | _ => 0

/-- The binary32 nearest the ratio `n / d` (R354: the F32 objects show readings held in thousandths or millionths). -/
def f32OfRatio (x : Int) (d : Nat) : Nat :=
  let n := x.natAbs
  let k := 64 + Nat.log2 d
  let q := n * 2 ^ k / d
  let sticky := if n * 2 ^ k % d = 0 then 0 else 1
  fEncode fmtF32 false (.fin (decide (x < 0)) (2 * q + sticky) (-(k : Int) - 1))

/-! ### The exact window (R164 to R168) -/

/-- A window: a finite multiple of 2⁻³², or one of the four special states (R165). -/
inductive Win where
  | fin (w : Int)
  | inf (neg : Bool)
  | nan
  | over
  deriving DecidableEq, Repr

/-- An accumulator of an array (R131): an exact window for FP8, a 32-bit integer for INT8, a binary32 value for 16-bit operands. -/
inductive Acc where
  | win (w : Win)
  | int (n : Nat)
  | f32 (x : Nat)
  deriving DecidableEq, Repr

/-- A finite sum that leaves the window is the overflow state (R166). -/
def Win.ofInt (w : Int) : Win := if w.natAbs ≥ 2 ^ 70 then .over else .fin w

/-- The special-state order of R166: what an accumulator and further terms make of each other. -/
def Win.add : Win → Win → Win
  | .nan, _ => .nan
  | _, .nan => .nan
  | .inf a, .inf b => if a = b then .inf a else .nan
  | .inf a, _ => .inf a
  | _, .inf b => .inf b
  | .over, _ => .over
  | _, .over => .over
  | .fin a, .fin b => Win.ofInt (a + b)

/-- A term whose exact value is a multiple of 2⁻³² (a product of two FP8 values, R164). -/
def Win.ofVal : FVal → Win
  | .nan => .nan
  | .inf n => .inf n
  | .fin n m e => .fin (alignTo (-32) n m e)

/-- A window's 72-bit pattern (R164, R165). -/
def Win.encode : Win → Nat
  | .fin w => unsigned 72 w
  | .inf false => 0x400000000000000000
  | .inf true => 0x800000000000000000
  | .nan => 0x400000000000000001
  | .over => 0x400000000000000002

/-- The window that 72 bits hold; another pattern with bits 71 and 70 differing is NaN (R165). -/
def Win.decode (x : Nat) : Win :=
  if bit x 71 = bit x 70 then .fin (signed 72 x)
  else if x = 0x400000000000000000 then .inf false
  else if x = 0x800000000000000000 then .inf true
  else if x = 0x400000000000000002 then .over
  else .nan

/-- A value converted to the window, to nearest with ties to even at weight 2⁻³² (R168). -/
def Win.round : FVal → Win
  | .nan => .nan
  | .inf n => .inf n
  | .fin n m e =>
    let x : Nat := if -32 ≤ e then m * pow2 (e + 32) else shiftRne m (-32 - e).toNat
    if m * pow2 e ≥ 2 ^ 38 * pow2 (-e) then .over else Win.ofInt (if n then -(x : Int) else x)

/-- The value a window plus an addend has for the result port: exact, NaN for overflow, +0 for an exact zero (R167). -/
def Win.plus (w : Win) (c : FVal) : FVal :=
  match w, c with
  | .nan, _ => .nan
  | .over, _ => .nan
  | _, .nan => .nan
  | .inf a, .inf b => if a = b then .inf a else .nan
  | .inf a, _ => .inf a
  | .fin _, .inf b => .inf b
  | .fin w, .fin n m e =>
    let e0 := min e (-32)
    fvOfInt false (alignTo e0 (decide (w < 0)) w.natAbs (-32) + alignTo e0 n m e) e0

end Sys2Proof.Machine
end

