-- ==== Sys2Proof/Machine/Flags.lean ====
section
/-! DEFINITION. Every condition and flag of lane arithmetic: the conditions of ICMP and FCMP (R116), and FLUSH of a
binary32 operand or result, which sets FLUSHED (R173). -/

namespace Sys2Proof.Machine

/-- The condition of an integer comparison: MOD[2:0], signed when MOD[3] is set (R116). -/
def icmpCond (mod a b : Nat) : Bool :=
  let lt := if bit mod 3 then decide (signed 32 a < signed 32 b) else decide (a < b)
  let eq := a == b
  match mod % 8 with
  | 0 => eq
  | 1 => !eq
  | 2 => lt
  | 3 => lt || eq
  | 4 => !(lt || eq)
  | 5 => !lt
  | _ => false

/-- The condition of a floating-point comparison: a NaN makes NE and UNORD true and every other false (R116). -/
def fcmpCond (mod a b : Nat) : Bool :=
  let x := fDecode fmtF32 a
  let y := fDecode fmtF32 b
  let nan := x == .nan || y == .nan
  let lt := !nan && FVal.lt x y
  let eq := !nan && FVal.eq x y
  match mod with
  | 0 => eq
  | 1 => !eq
  | 2 => lt
  | 3 => lt || eq
  | 4 => !nan && !(lt || eq)
  | 5 => !nan && !lt
  | 6 => nan
  | _ => false

/-- A value with the flag that says whether a subnormal was flushed to make it. -/
abbrev Flushed := Nat × Bool

/-- Apply a binary32 operation of one operand under FLUSH: the operand and the result are flushed (R173). -/
def flush1 (flush : Bool) (f : Nat → Nat) (a : Nat) : Flushed :=
  let x := fFlush fmtF32 flush a
  let r := fFlush fmtF32 flush (f x.1)
  (r.1, x.2 || r.2)

/-- Apply a binary32 operation of two operands under FLUSH. -/
def flush2 (flush : Bool) (f : Nat → Nat → Nat) (a b : Nat) : Flushed :=
  let x := fFlush fmtF32 flush a
  let y := fFlush fmtF32 flush b
  let r := fFlush fmtF32 flush (f x.1 y.1)
  (r.1, x.2 || y.2 || r.2)

/-- Apply a binary32 operation of three operands under FLUSH. -/
def flush3 (flush : Bool) (f : Nat → Nat → Nat → Nat) (a b c : Nat) : Flushed :=
  let x := fFlush fmtF32 flush a
  let y := fFlush fmtF32 flush b
  let z := fFlush fmtF32 flush c
  let r := fFlush fmtF32 flush (f x.1 y.1 z.1)
  (r.1, x.2 || y.2 || z.2 || r.2)

/-- A binary32 comparison under FLUSH (R116). -/
def fcmpFlush (flush : Bool) (mod a b : Nat) : Bool × Bool :=
  let x := fFlush fmtF32 flush a
  let y := fFlush fmtF32 flush b
  (fcmpCond mod x.1 y.1, x.2 || y.2)

end Sys2Proof.Machine
end

