-- ==== Sys2Proof/Machine/ArrayMath.lean ====
section
/-! DEFINITION. The arithmetic of the matrix arrays: element formats and weight expansion (R138, R141, R150, R176 to
R178), accumulation (R166, R169, R171), and the result port (R144, R167, R168). -/

namespace Sys2Proof.Machine

/-- The floating-point format of AFMT or BFMT 0, 1, 3, 4 (R138). -/
def opFmt (f : Nat) : Fmt :=
  match f with
  | 0 => fmtE4M3
  | 1 => fmtE5M2
  | 3 => fmtBF16
  | _ => fmtF16

/-- A is an FP8 format, INT8, or a 16-bit format. -/
def isFp8 (afmt : Nat) : Bool := decide (afmt ≤ 1)
def isInt8 (afmt : Nat) : Bool := afmt == 2

/-- Bytes of an element of A or of an unexpanded B (R141). -/
def elemBytes (f : Nat) : Nat := if f ≤ 2 then 1 else 2

/-- Elements in a chunk (R132). -/
def chunkElems (afmt : Nat) : Nat := if afmt ≤ 2 then 64 else 32

/-- Bytes of an element of D or C_IN, with D's numbering: binary32, BF16, binary16, INT32, ACC72 (R141). -/
def resBytes (f : Nat) : Nat :=
  match f with
  | 0 => 4
  | 1 => 2
  | 2 => 2
  | 3 => 4
  | _ => 16

/-- The floating-point format of DFMT 0, 1, 2. -/
def resFmt (f : Nat) : Fmt :=
  match f with
  | 0 => fmtF32
  | 1 => fmtBF16
  | _ => fmtF16

/-- An element as read by a feeder, under FLUSH (R173). -/
def feedElem (flush : Bool) (f x : Nat) : Flushed := if f = 2 then (x, false) else fFlush (opFmt f) flush x

/-- The target format of an expanded weight: E4M3 for an FP8 A, BF16 otherwise (R149). -/
def targetFmt (afmt : Nat) : Fmt := if isFp8 afmt then fmtE4M3 else fmtBF16

/-- A value expanded to the target format (R175, R177, R178). -/
def expandVal (flush : Bool) (afmt : Nat) (v : FVal) : Flushed :=
  fFlush (targetFmt afmt) flush (fEncode (targetFmt afmt) (isFp8 afmt) v)

/-- BFMT 9: (q − z) × s (R177). -/
def expandInt4 (flush : Bool) (afmt q entry : Nat) : Flushed :=
  let z := bits entry 19 16
  expandVal flush afmt (FVal.mul (fvOfInt false ((q : Int) - z) 0) (fDecode fmtBF16 (entry % 65536)))

/-- The value of an E8M0 scale (R161). -/
def e8m0 (e : Nat) : FVal := if e = 255 then .nan else .fin false 1 ((e : Int) - 127)

/-- BFMT 10, 11, 12: x × 2^(e − 127) (R178). -/
def expandMx (flush : Bool) (afmt bfmt x e : Nat) : Flushed :=
  let f := if bfmt = 10 then fmtE2M1 else if bfmt = 11 then fmtE3M2 else fmtE2M3
  expandVal flush afmt (FVal.mul (fDecode f x) (e8m0 e))

/-- The packed element `j` of a row of B: 4-bit elements two to a byte, 6-bit elements four to three bytes (R150). `rd`
gives the row's bytes. -/
def packedElem (bfmt : Nat) (rd : Nat → Byte) (j : Nat) : Nat :=
  if bfmt ≤ 10 then (rd (j / 2)).toNat / (if j % 2 = 0 then 1 else 16) % 16
  else
    let b := 3 * (j / 4)
    ((rd b).toNat + 256 * (rd (b + 1)).toNat + 65536 * (rd (b + 2)).toNat) / 2 ^ (6 * (j % 4)) % 64

/-- Bytes of a row of B of `k` elements (R141). -/
def rowBytesB (bfmt k : Nat) : Nat :=
  if bfmt ≤ 4 then k * elemBytes bfmt else if bfmt ≤ 10 then k / 2 else 3 * k / 4

/-- Little-endian number of `n` bytes at an offset. -/
def readNat (rd : Nat → Byte) (off n : Nat) : Nat := leNat ((List.range n).map (fun i => rd (off + i)))

/-- Element `j` of a row of A. -/
def elemA (flush : Bool) (afmt : Nat) (rd : Nat → Byte) (j : Nat) : Flushed :=
  feedElem flush afmt (readNat rd (j * elemBytes afmt) (elemBytes afmt))

/-- Element `j` of a row of B, expanded where B is weight-only. `sc` gives the bytes of the row's scales, or of the table. -/
def elemB (flush : Bool) (afmt bfmt : Nat) (rd sc : Nat → Byte) (j : Nat) : Flushed :=
  if bfmt ≤ 4 then feedElem flush bfmt (readNat rd (j * elemBytes bfmt) (elemBytes bfmt))
  else
    let x := packedElem bfmt rd j
    if bfmt = 8 then
      let e := if isFp8 afmt then 1 else 2
      fFlush (targetFmt afmt) flush (readNat sc (x * e) e)
    else if bfmt = 9 then expandInt4 flush afmt x (readNat sc (j / 32 * 4) 4)
    else expandMx flush afmt bfmt x (sc (j / 32)).toNat

/-- The format that B's expanded elements have. -/
def fmtOfB (afmt bfmt : Nat) : Fmt := if bfmt ≤ 4 then opFmt bfmt else targetFmt afmt

/-! ### Accumulation -/

/-- One array cycle of FP8 products into a window (R166). -/
def fp8Chunk (fa fb : Fmt) (acc : Win) (as bs : List Nat) : Win :=
  Win.add acc ((as.zip bs).foldl (fun w e => Win.add w (Win.ofVal (FVal.mul (fDecode fa e.1) (fDecode fb e.2)))) (.fin 0))

/-- One chunk of 16-bit products into a binary32 accumulator, rounded once (R171), under FLUSH (R173). -/
def f16Chunk (flush : Bool) (fa fb : Fmt) (acc : Nat) (as bs : List Nat) : Flushed :=
  let total := (as.zip bs).foldl (fun v e => FVal.add v (FVal.mul (fDecode fa e.1) (fDecode fb e.2))) (fDecode fmtF32 acc)
  fFlush fmtF32 flush (fEncode fmtF32 false total)

/-- INT8 products into a 32-bit accumulator (R169). -/
def int8Chunk (acc : Nat) (as bs : List Nat) : Nat :=
  unsigned 32 ((as.zip bs).foldl (fun v e => v + signed 8 e.1 * signed 8 e.2) (acc : Int))

/-- The accumulator at the beginning of an operation. -/
def accZero (afmt : Nat) : Acc := if isFp8 afmt then .win (.fin 0) else if isInt8 afmt then .int 0 else .f32 0

/-- One chunk. -/
def accChunk (flush : Bool) (afmt : Nat) (fb : Fmt) (a : Acc × Bool) (as bs : List Nat) : Acc × Bool :=
  match a.1 with
  | .win w => (.win (fp8Chunk (opFmt afmt) fb w as bs), a.2)
  | .int n => (.int (int8Chunk n as bs), a.2)
  | .f32 x =>
    let r := f16Chunk flush (opFmt afmt) fb x as bs
    (.f32 r.1, a.2 || r.2)

/-- All the chunks of one row against another. -/
def accChunks (flush : Bool) (afmt : Nat) (fb : Fmt) (ce : Nat) : Nat → List Nat → List Nat → Acc × Bool → Acc × Bool
  | 0, _, _, a => a
  | n + 1, as, bs, a =>
    accChunks flush afmt fb ce n (as.drop ce) (bs.drop ce) (accChunk flush afmt fb a (as.take ce) (bs.take ce))

/-! ### The result port -/

/-- An exact value times a finite scale: an infinity stays that infinity, and an exact zero is +0 (R167).
Log entry 12 (DEDUCED). -/
def scaled (v scale : FVal) : FVal :=
  match v with
  | .inf n => .inf n
  | v => match FVal.mul v scale with
    | .fin n m e => if m = 0 then .fin false 0 e else .fin n m e
    | x => x

/-- A value times D_SCALE, where it is enabled (R167). -/
def scaleVal (scale : Option Nat) (v : FVal) : FVal :=
  match scale with
  | none => v
  | some d => scaled v (fDecode fmtF32 d)

/-- The exact value of a window, NaN for overflow (R167). -/
def Win.val : Win → FVal
  | .fin w => .fin (decide (w < 0)) w.natAbs (-32)
  | .inf n => .inf n
  | _ => .nan

/-- The exact value of a window plus a window: beside an infinite window the overflow state of an ACC72 C_IN changes nothing
(R167).
Log entry 12 (DEDUCED). -/
def Win.plusWin (w c : Win) : FVal :=
  match w, c with
  | .inf n, .over => .inf n
  | w, c => Win.plus w (Win.val c)

/-- The result element of a window: with C_IN as a value or as a window, in DFMT (R167, R168). `c` is C_IN's code.
Log entry 12 (DEDUCED). -/
def portFp8 (flush : Bool) (w : Win) (cfmt dfmt c : Nat) (scale : Option Nat) : Flushed :=
  if dfmt = 4 then
    let cw : Win := if cfmt = 0 then .fin 0 else if cfmt = 5 then Win.decode (c % 2 ^ 72) else Win.round (fDecode (resFmt (cfmt - 1)) c)
    (Win.encode (Win.add w cw), false)
  else
    let v : FVal := if cfmt = 0 then Win.plus w (.fin false 0 0)
      else if cfmt = 5 then Win.plusWin w (Win.decode (c % 2 ^ 72))
      else Win.plus w (fDecode (resFmt (cfmt - 1)) c)
    fFlush (resFmt dfmt) flush (fEncode (resFmt dfmt) false (scaleVal scale v))

/-- The result element of a 16-bit accumulation (R144, R173). -/
def portF16 (flush : Bool) (x cfmt dfmt c : Nat) (scale : Option Nat) : Flushed :=
  let a : Flushed := if cfmt = 0 then (x, false)
    else fFlush fmtF32 flush (fEncode fmtF32 false (FVal.add (fDecode fmtF32 x) (fDecode (resFmt (cfmt - 1)) c)))
  let v := match scale with
    | none => fDecode fmtF32 a.1
    | some d => FVal.mul (fDecode fmtF32 a.1) (fDecode fmtF32 d)
  let r := fFlush (resFmt dfmt) flush (fEncode (resFmt dfmt) false v)
  (r.1, a.2 || r.2)

/-- The result element of any accumulator.
Log entry 12 (DEDUCED). -/
def portOut (flush : Bool) (a : Acc) (cfmt dfmt c : Nat) (scale : Option Nat) : Flushed :=
  match a with
  | .win w => portFp8 flush w cfmt dfmt c scale
  | .int n => ((n + (if cfmt = 0 then 0 else c)) % 2 ^ 32, false)
  | .f32 x => portF16 flush x cfmt dfmt c scale

end Sys2Proof.Machine
end

