-- ==== Sys2Proof/Machine/CoreTypes.lean ====
section
/-! DEFINITION. The state of one core position: its thread groups, its matrix arrays, its Weir slice, its Basins and
its read-only cache (chapters 3, 4, 5 and 7 of the manual). -/

namespace Sys2Proof.Machine

/-- A table with a default for every key it does not list: (key, value) pairs, keys strictly rising, no value equal to
the default (`mapGet`, `mapSet`). Every large table of the device is held in this one canonical form. -/
abbrev Sparse (α : Type) := List (Nat × α)

/-- Who sent a memory request to a home slice (R224). -/
inductive Origin where
  /-- The memory instruction `id` of the group in slot `g` of position `p`. -/
  | core (p g id : Nat)
  /-- A Sluice page read for the staging of a page (R273). -/
  | sluice (seq page : Nat)
  /-- Job `id`, whose requests start in `half` and enter a slice by `port` (R19). -/
  | job (half port id : Nat)
  deriving DecidableEq, Repr

/-- An atomic or reduction operation at a home slice (R120, R235). -/
inductive RedOp where
  | addI32 | addF32 | addBF16 | minS32 | maxS32 | minU32 | maxU32 | and | or | xor | exch | cas | maxF32 | minF32
  deriving DecidableEq, Repr

/-- One lane of an atomic or reduction: its lane number, its address, its operand, and the swap value of a CAS. -/
structure RedLane where
  lane : Nat
  addr : Nat
  opnd : Nat
  swap : Nat
  deriving DecidableEq, Repr

/-- What a request asks of one 32-byte sector. -/
inductive ReqOp where
  | read
  /-- Every sector of the line is to be brought in (R229, R273). -/
  | line
  /-- Byte-enable mask over the 32 bytes, and the bytes. -/
  | write (mask : Nat) (data : List Byte)
  /-- The lanes that touch the sector; `returns` for ATOM. -/
  | reduce (op : RedOp) (returns : Bool) (lanes : List RedLane)
  deriving DecidableEq, Repr

/-- A request for one sector: its origin, its class label, the device-local sector address, the writer tag of the task
behind it, and what it asks (R224, R234, R456). -/
structure Req where
  origin : Origin
  cls : Nat
  sector : Nat
  wtag : Nat
  op : ReqOp
  deriving DecidableEq, Repr

/-- What a slice (or a peer) answered for one sector of a memory instruction: the sector's bytes, whether a word of it
failed its check with no copy below, and the writer tag it then carries (R455, R456). -/
structure Served where
  sector : Nat
  data : List Byte
  failed : Bool
  wtag : Nat
  code : Nat
  deriving DecidableEq, Repr

/-- One lane of a memory instruction that is outstanding: its lane and its pool address. -/
structure LaneAddr where
  lane : Nat
  addr : Nat
  deriving DecidableEq, Repr

/-- The kind of a memory instruction (R115). -/
inductive MemKind where
  | load | store | atom | red
  deriving DecidableEq, Repr

/-- A memory instruction that has issued and not completed (R98). `need` lists the sectors whose answers it waits for,
`got` those that came. For a load, `localBytes` holds the bytes that staging memory, the own Basins, the slot table or the
read-only cache gave at issue, by pool address; for the other kinds the operand bytes read at issue, by lane * 16. -/
structure MemOp where
  id : Nat
  kind : MemKind
  dst : Nat
  size : Nat
  /-- Sign extension of a load; for an atomic, that it is a CAS. -/
  sext : Bool
  ro : Bool
  lanes : List LaneAddr
  need : List Nat
  got : List Served
  /-- The sectors of a store, atomic or reduction that have been accepted (R21). -/
  accepted : List Nat
  /-- The sectors that each packet to a peer carries, in the order of the packets' keys. -/
  sizes : List Nat
  /-- Pool sectors that the core has written since a read-only load asked for them: the read-only cache does not take them
  (R97, R102). -/
  noFill : List Nat
  localBytes : Sparse Byte
  /-- A walk that the access waits for (R202, R278). -/
  walk : Option Nat
  pc : Nat
  deriving DecidableEq, Repr

/-- Why a path does not run (R82, R85, R89). -/
inductive PathState where
  /-- Running, or pushed and able to run. -/
  | runnable
  /-- At its reconvergence point (R82). -/
  | joined
  /-- Parked at group barrier `b` (R85). -/
  | barrier (b : Nat)
  /-- Parked at the task-level barrier (R89). -/
  | taskBarrier
  deriving DecidableEq, Repr

/-- A path of a group (R81): its program counter, its lanes, the split it belongs to, and its place in the order of
pushing (a greater `rank` was pushed more recently). -/
structure Path where
  pc : Nat
  lanes : LaneMask
  split : Nat
  rank : Nat
  st : PathState
  deriving DecidableEq, Repr

/-- A split of a group (R81): its reconvergence point, the split that encloses it (0 for none), the rank of the path
that split, and the stack entries it uses. -/
structure Split where
  id : Nat
  reconv : Nat
  outer : Nat
  rank : Nat
  entries : Nat
  deriving DecidableEq, Repr

/-- A wait that ends by itself and holds the current path (R121, R124). -/
inductive Hold where
  | none
  /-- CWAIT: the counter must be at or below the threshold. -/
  | counter (c threshold : Nat)
  /-- FENCE: the listed memory instructions must have been accepted: on this device, or wherever they go (`far`). -/
  | fence (far : Bool) (ids : List Nat)
  deriving DecidableEq, Repr

/-- A value that PUB adds to PROGRESS once the listed stores have been accepted (R65). -/
structure Publish where
  value : Nat
  ids : List Nat
  deriving DecidableEq, Repr

/-- A SPAWN to a peer that waits for its answer: where the result goes, and in which lanes (R58, R79). -/
structure Spawning where
  id : Nat
  dst : Nat
  lanes : LaneMask
  deriving DecidableEq, Repr

/-- A resident thread group (R72, R76). General registers are keyed by register * 32 + lane, predicates by
register * 32 + lane; captured timer values by lane (R129). -/
structure Group where
  slot : Nat
  index : Nat
  regs : Nat
  staging : Nat
  /-- The position's staging units that the group holds, in the order of its own view (R75). -/
  units : List Nat
  /-- The bytes of its staging memory, by offset in its view. -/
  stg : Sparse Byte
  gpr : Sparse Word32
  preds : Sparse Bool
  live : LaneMask
  paths : List Path
  splits : List Split
  nextSplit : Nat
  nextRank : Nat
  counters : Sparse Nat
  mem : List MemOp
  hold : Hold
  spawns : List Spawning
  pubs : List Publish
  tbTimebase : Sparse Nat
  tbCycle : Sparse Nat
  /-- The 128-byte instruction line in the fetch buffer: its line address and its 16 words (R510). -/
  fetched : Option (Nat × List Word64)
  /-- Ended under R66: it issues no more. -/
  ended : Bool
  deriving DecidableEq, Repr

/-- A line of the read-only cache (R99, R101): the line's pool address / 128, the task slot that filled it (65,536 for
an instruction line), its sectors, and its last use. -/
structure RoLine where
  line : Nat
  task : Nat
  sectors : List (Option (List Byte))
  use : Nat
  deriving DecidableEq, Repr

/-- The group slot of an operation whose group has left its core (R77). -/
abbrev goneSlot : Nat := 64

/-- An array operation, as copied into an array's queue (R136): the descriptor's sixteen words, who issued it (the group slot,
`goneSlot` once the group has left; the task slot and its placing there) and the completion counter it falls. -/
structure ArrayOp where
  words : List Nat
  g : Nat
  slot : Nat
  use : Nat
  counter : Nat
  flush : Bool
  deriving DecidableEq, Repr

/-- A write to a group's staging memory or to the core's Basins while an operation or a command runs (R154, R190). -/
structure Written where
  basin : Bool
  off : Nat
  data : List Byte
  deriving DecidableEq, Repr

/-- A running operation with the operand memory as it stood when it started, and what has been written there since (R154); `seed`
drives its free choices, and `cut` is the length of that list when its last chunk had streamed (R151). -/
structure RunningOp where
  op : ArrayOp
  stg : Sparse Byte
  basin : Sparse Byte
  log : List Written
  cut : Option Nat
  seed : Nat
  deriving DecidableEq, Repr

/-- A group-wide fragment (R126): its formats, the operand bytes read at issue, where D goes, and its counter. -/
structure Fragment where
  fmt : Nat
  a : List Nat
  b : List Nat
  c : Option (List Nat)
  dst : Nat
  g : Nat
  slot : Nat
  counter : Nat
  flush : Bool
  deriving DecidableEq, Repr

/-- A slot of the stationary store, and an accumulator, that nothing has used since the start.
Log entry 98 (DESIGN CHOICE). -/
def Slot64.zero : List Byte := List.replicate 64 0#8
def Acc.zero : Acc := .win (.fin 0)

/-- One matrix array (R131, R151, R155): `draining` has streamed and writes its last results while `running` begins; `windowed`
lists the fragments whose windows have run and whose results are not written. -/
structure ArrayUnit where
  queue : List ArrayOp
  running : Option RunningOp
  draining : Option RunningOp
  frags : List Fragment
  windowed : List Fragment
  /-- The previous window ran a fragment. -/
  lastFrag : Bool
  /-- The stationary store: 64 bytes a slot, by unit * 16 + slot. -/
  slots : Sparse (List Byte)
  /-- The accumulators, by unit * 64 + bank * 32 + number. -/
  accs : Sparse Acc
  deriving DecidableEq, Repr

/-- A Weir command, as copied into an engine's queue (R188), and who issued it. -/
structure WeirCmd where
  words : List Nat
  g : Nat
  slot : Nat
  use : Nat
  counter : Nat
  flush : Bool
  deriving DecidableEq, Repr

/-- A running Weir command with the memory as it stood when it started, and where the page of its reference lies: its base
address, once it is translated; `stored` once an INGEST has sent its sectors. -/
structure RunningCmd where
  cmd : WeirCmd
  stg : Sparse Byte
  basin : Sparse Byte
  log : List Written
  seed : Nat
  page : Option Nat
  stored : Bool
  /-- When it began, for the busy counters of R207. -/
  since : Nat
  deriving DecidableEq, Repr

/-- A Weir engine (R188). `latent` holds the bytes of the latent buffer by page offset, none where the last loads put
nothing; `slots` the expansion unit's stationary store, by unit * 32 + slot (R196); `lastGroup` is the group of the last completed command, as its task's placing and its index (R193). -/
structure Engine where
  queue : List WeirCmd
  running : Option RunningCmd
  latent : Sparse (Option Byte)
  slots : Sparse (List Byte)
  lastGroup : Option (Nat × Nat)
  deriving DecidableEq, Repr

/-- Where a walk's translation lies (R202, R271). -/
inductive PageLoc where
  /-- A device-local Reservoir address, served at its home slices. -/
  | memory (base : Nat)
  /-- A Sluice frame of this position, with the page's Reservoir address below it. -/
  | frame (f base : Nat)
  deriving DecidableEq, Repr

/-- A page-walker entry: sequence, page, location, sectors read through it, last use (R202, R279). -/
structure WalkEntry where
  seq : Nat
  page : Nat
  loc : PageLoc
  count : Nat
  use : Nat
  deriving DecidableEq, Repr

/-- What waits for a walk. -/
inductive Walker where
  | group (g id : Nat)
  | engine (unit : Nat)
  deriving DecidableEq, Repr

/-- How far a walk has come. -/
inductive WalkState where
  | walking
  /-- Handed to the Sluice (R278). -/
  | handed
  /-- Waits for a page-in; `host` when the walk found the page in state HOST. -/
  | waiting (host : Bool)
  /-- The page-in that it waited for has failed (R283). -/
  | failed
  deriving DecidableEq, Repr

/-- An outstanding walk (R202). -/
structure Walk where
  id : Nat
  seq : Nat
  page : Nat
  write : Bool
  who : Walker
  st : WalkState
  deriving DecidableEq, Repr

/-- The health of a vertical path of a position (R460, R461). -/
structure LaneHealth where
  half : Bool
  lost : Bool
  deriving DecidableEq, Repr

/-- One core position (R13, R72). `basin` holds the 4 MiB of Basin A and B by offset in the position's block (R25);
`basinTag` the writer tag of each aligned 256-byte block (R456); `frames` the page in each Sluice frame (R279). -/
structure Pos where
  groups : Sparse (Option Group)
  /-- Staging memory that no group holds, by unit * 256 + offset: what its last user left there (R72, R76). -/
  stgMem : Sparse Byte
  ro : List RoLine
  roUse : Nat
  arrays : Sparse ArrayUnit
  lxu : Engine
  lyt : Engine
  walker : List WalkEntry
  walks : List Walk
  nextWalk : Nat
  basin : Sparse Byte
  basinTag : Sparse Nat
  frames : Sparse (Option (Nat × Nat))
  frameUse : Sparse Nat
  promote : Option (Nat × Nat × Nat)
  scrub : Nat
  /-- The health of the position's vertical paths by plane: V0 the down port, V1 to V3 the private channels (R16). -/
  lanes : Sparse LaneHealth
  /-- Stores of exited groups that are not yet accepted, by task slot (R21). -/
  late : List (Nat × MemOp)
  /-- Values that exited groups have yet to publish, by task slot (R65). -/
  latePubs : List (Nat × Publish)
  /-- The identity of the position's next memory instruction. -/
  nextMem : Nat
  /-- The requests of the private channel's queue when one last entered it, and when that was (R18, R183). -/
  chan : Nat
  chanAt : Nat
  deriving DecidableEq, Repr

/-- A path that works at full width. -/
def LaneHealth.good : LaneHealth := { half := false, lost := false }

/-- An idle array. -/
def ArrayUnit.idle : ArrayUnit :=
  { queue := [], running := none, draining := none, frags := [], windowed := [], lastFrag := false, slots := [], accs := [] }

/-- The operations of an array that have started and are not complete, the earlier first (R151). -/
def ArrayUnit.started (u : ArrayUnit) : List RunningOp := u.draining.toList ++ u.running.toList

/-- An idle Weir engine with nothing kept. -/
def Engine.idle : Engine := { queue := [], running := none, latent := [], slots := [], lastGroup := none }

/-- A position after the fills of R406: nothing resident, Basins and staging zero, caches and walker invalid.
Log entry 97 (DESIGN CHOICE). -/
def Pos.idle : Pos :=
  { groups := [], stgMem := [], ro := [], roUse := 0, arrays := [], lxu := Engine.idle, lyt := Engine.idle, walker := [], walks := [],
    nextWalk := 0, basin := [], basinTag := [], frames := [], frameUse := [], promote := none, scrub := 0, lanes := [],
    late := [], latePubs := [], nextMem := 0, chan := 0, chanAt := 0 }

end Sys2Proof.Machine
end

