-- ==== Sys2Proof/Machine/Map.lean ====
section
/-! DEFINITION. Tables in one canonical form: (key, value) pairs with keys strictly rising and no value equal to the
table's default, so that equal tables are equal data. -/

namespace Sys2Proof.Machine

/-- The value at key `k`, the default `d` where the table lists none. -/
def mapGet {α : Type} (d : α) : Sparse α → Nat → α
  | [], _ => d
  | (j, v) :: m, k => if k = j then v else mapGet d m k

/-- The table without key `k`. -/
def mapErase {α : Type} (m : Sparse α) (k : Nat) : Sparse α := m.filter (fun e => e.1 != k)

/-- The table with `v` put in at key `k`. -/
def mapPut {α : Type} : Sparse α → Nat → α → Sparse α
  | [], k, v => [(k, v)]
  | (j, w) :: m, k, v =>
    if k = j then (k, v) :: m else if k < j then (k, v) :: (j, w) :: m else (j, w) :: mapPut m k v

/-- The table with `v` at key `k`: writing the default removes the entry. -/
def mapSet {α : Type} [DecidableEq α] (d : α) (m : Sparse α) (k : Nat) (v : α) : Sparse α :=
  if v = d then mapErase m k else mapPut m k v

/-- The table with the value at `k` changed by `f`. -/
def mapMod {α : Type} [DecidableEq α] (d : α) (m : Sparse α) (k : Nat) (f : α → α) : Sparse α :=
  mapSet d m k (f (mapGet d m k))

/-- Every key of the table is above `k`. -/
def mapAbove {α : Type} (k : Nat) : Sparse α → Bool
  | [] => true
  | (j, _) :: _ => decide (k < j)

/-- The canonical form: keys strictly rising, no value the default. -/
def mapWf {α : Type} [DecidableEq α] (d : α) : Sparse α → Bool
  | [] => true
  | (k, v) :: m => decide (v ≠ d) && mapAbove k m && mapWf d m

/-- The keys that the table lists, rising. -/
def mapKeys {α : Type} (m : Sparse α) : List Nat := m.map (·.1)

/-- `vs` written at keys `k`, `k + 1`, … -/
def mapSetList {α : Type} [DecidableEq α] (d : α) (m : Sparse α) (k : Nat) : List α → Sparse α
  | [] => m
  | v :: vs => mapSetList d (mapSet d m k v) (k + 1) vs

/-- The `n` values from key `k` on. -/
def mapGetList {α : Type} (d : α) (m : Sparse α) (k : Nat) : Nat → List α
  | 0 => []
  | n + 1 => mapGet d m k :: mapGetList d m (k + 1) n

/-- The entries whose keys satisfy `p`. -/
def mapKeep {α : Type} (p : Nat → Bool) (m : Sparse α) : Sparse α := m.filter (fun e => p e.1)

/-- Every listed value changed by `f`; one that becomes the default leaves the table. -/
def mapEach {α : Type} [DecidableEq α] (d : α) (f : α → α) : Sparse α → Sparse α
  | [] => []
  | (k, v) :: m => if f v = d then mapEach d f m else (k, f v) :: mapEach d f m

end Sys2Proof.Machine
end

