-- ==== Sys2Proof/Machine/Blocks.lean ====
section
/-! DEFINITION. The words of array descriptors (R137 to R142) and of Weir command blocks (R192, R193, R197), and the areas that
they name. -/

namespace Sys2Proof.Machine

/-! ### Array descriptors (R137 to R142) -/

/-- The bytes of an area of `lines` lines of `line` bytes. -/
def areaLen (lines stride line : Nat) : Nat := (lines - 1) * stride + line

/-- Word `i` of a descriptor or command block. -/
def dWord (ws : List Nat) (i : Nat) : Nat := ws.getD i 0
def dMode (ws : List Nat) : Nat := bits (dWord ws 0) 63 60
def dAfmt (ws : List Nat) : Nat := bits (dWord ws 0) 59 56
def dBfmt (ws : List Nat) : Nat := bits (dWord ws 0) 55 52
def dDfmt (ws : List Nat) : Nat := bits (dWord ws 0) 51 48
def dCfmt (ws : List Nat) : Nat := bits (dWord ws 0) 47 44
def dOrder (ws : List Nat) : Bool := bit (dWord ws 0) 43
def dScaleEn (ws : List Nat) : Bool := bit (dWord ws 0) 42
def dM (ws : List Nat) : Nat := bits (dWord ws 1) 63 48
def dN (ws : List Nat) : Nat := bits (dWord ws 1) 47 32
def dK (ws : List Nat) : Nat := bits (dWord ws 1) 16 0
def dStride (ws : List Nat) (i : Nat) : Nat := dWord ws i % 2 ^ 32

/-- Lines of D and C_IN, and elements in a line (R141). -/
def dLines (ws : List Nat) : Nat := if dMode ws = 2 then dN ws else dM ws
def dElems (ws : List Nat) : Nat := if dMode ws = 2 then dM ws else dN ws

/-- CFMT's numbering less one is DFMT's. -/
def cBytes (ws : List Nat) : Nat := if dCfmt ws = 0 then 0 else resBytes (dCfmt ws - 1)

/-- Bytes of a row of A, of B, and of a line of C_IN and D. -/
def rowBytesA (ws : List Nat) : Nat := dK ws * elemBytes (dAfmt ws)
def lineBytesC (ws : List Nat) : Nat := dElems ws * cBytes ws
def lineBytesD (ws : List Nat) : Nat := dElems ws * resBytes (dDfmt ws)

/-- The bytes of a scale row, or of the table (R150). -/
def scaleBytes (ws : List Nat) : Nat :=
  match dBfmt ws with
  | 8 => if isFp8 (dAfmt ws) then 16 else 32
  | 9 => dK ws / 32 * 4
  | _ => dK ws / 32

/-- The areas that a descriptor names, in the order of R157: A, B, C_IN, scales, D. -/
def descriptorAreas (ws : List Nat) : List (Nat × Nat) :=
  [(dWord ws 2, areaLen (dM ws) (dStride ws 3) (rowBytesA ws)), (dWord ws 4, areaLen (dN ws) (dStride ws 5) (rowBytesB (dBfmt ws) (dK ws)))] ++
  (if dCfmt ws = 0 then [] else [(dWord ws 6, areaLen (dLines ws) (dStride ws 7) (lineBytesC ws))]) ++
  (if dBfmt ws < 8 then [] else
    [(dWord ws 10, if dBfmt ws = 8 then scaleBytes ws else areaLen (dN ws) (dStride ws 11) (scaleBytes ws))]) ++
  [(dWord ws 8, areaLen (dLines ws) (dStride ws 9) (lineBytesD ws))]

/-! ### Weir command blocks (R192, R193, R195, R197, R198) -/

/-- CTRL of an expansion command (R193). -/
def xOrder (ws : List Nat) : Nat := bits (dWord ws 0) 63 62
def xOfmt (ws : List Nat) : Nat := bits (dWord ws 0) 61 60
def xSrcSeq (ws : List Nat) : Bool := bit (dWord ws 0) 59
def xKeep (ws : List Nat) : Bool := bit (dWord ws 0) 58
def xRank (ws : List Nat) : Nat := bits (dWord ws 0) 47 37
def xRows (ws : List Nat) : Nat := bits (dWord ws 0) 36 24
def xFirst (ws : List Nat) : Nat := bits (dWord ws 0) 11 6
def xCount (ws : List Nat) : Nat := bits (dWord ws 0) 5 0 + 1

/-- T: the tokens of a latent page (R191). -/
def xTokens (ws : List Nat) : Nat := if xRank ws = 1024 then 32 else 64

/-- Bytes of a result element, and of a line of the result (R195). -/
def xElem (ws : List Nat) : Nat := if xOfmt ws = 0 then 1 else 2
def xLineBytes (ws : List Nat) : Nat := (if xOrder ws = 0 then xRows ws else xTokens ws) * xElem ws
def xLines (ws : List Nat) : Nat := if xOrder ws = 0 then xCount ws else xRows ws

/-- CTRL of a layout command (R197). -/
def yOp (ws : List Nat) : Nat := bits (dWord ws 0) 63 60
def yEsize (ws : List Nat) : Nat := bits (dWord ws 0) 59 58
def yDstSeq (ws : List Nat) : Bool := bit (dWord ws 0) 57
def yRows (ws : List Nat) : Nat := bits (dWord ws 0) 44 32
def yCols (ws : List Nat) : Nat := bits (dWord ws 0) 28 16
def yCol0 (ws : List Nat) : Nat := bits (dWord ws 0) 5 0
def yElem (ws : List Nat) : Nat := 2 ^ yEsize ws

/-- The source areas that a command names by address.
Log entry 36 (DEDUCED). -/
def weirSources (unit : Nat) (ws : List Nat) : List (Nat × Nat) :=
  if unit = 0 then
    (if xSrcSeq ws || xKeep ws then [] else [(dWord ws 1, 65536)]) ++ [(dWord ws 2, areaLen (xRows ws) (dStride ws 3) (xRank ws))]
  else [(dWord ws 1, areaLen (yRows ws) (dStride ws 2) (yCols ws * yElem ws))]

/-- The destination area that a command names by address: a whole value page for INGEST.
Log entry 36 (DEDUCED). -/
def weirDest (unit : Nat) (ws : List Nat) : List (Nat × Nat) :=
  if unit = 0 then [(dWord ws 4, areaLen (xLines ws) (dStride ws 5) (xLineBytes ws))]
  else if yOp ws = 0 then [(dWord ws 3, areaLen (yCols ws) (dStride ws 4) (yRows ws * yElem ws))]
  else if yDstSeq ws then [] else [(dWord ws 3, 65536)]

end Sys2Proof.Machine
end

