-- ==== Sys2Proof/Machine/LinkTypes.lean ====
section
/-! DEFINITION. The state of the Rill links, the pool and the host port (chapters 12 and 13 of the manual). -/

namespace Sys2Proof.Machine

/-- A packet type (R305), by the name of its row. -/
inductive PktType where
  | read | write | writeMasked | atom | postA | postB | signal
  | readData | writeAck | atomData | postResult | refused
  | red | redMasked
  | dict | pool
  | retryReq | null
  deriving DecidableEq, Repr

/-- A packet: the header fields of R304 that concern it, and its 240 payload bytes (offset 16 of the flit first). -/
structure Packet where
  ty : PktType
  src : Nat
  dst : Nat
  cls : Nat
  hops : Nat
  sectors : Nat
  tag : Nat
  addr : Nat
  payload : List Byte
  deriving DecidableEq, Repr

/-- A sequenced flit in the replay buffer (R310): its SEQ, its packet, when it was last sent, its resends in succession. -/
structure Unacked where
  seq : Nat
  pkt : Packet
  sentAt : Nat
  resends : Nat
  deriving DecidableEq, Repr

/-- LINK_STATE (R333). -/
inductive LinkSt where
  | down | training | up | retraining | withdrawn | notLicensed | unused | miscabled
  deriving DecidableEq, Repr

/-- One Rill link (R304 to R311). `used` counts, for VC * 4 + hop class, the flits sent on credits not yet returned;
`toReturn` the credits this receiver owes; `egress` the packets waiting to
leave, a task record's two flits as one. -/
structure Link where
  st : LinkSt
  egress : List (List Packet)
  nextSeq : Nat
  unacked : List Unacked
  lastRx : Nat
  gap : Option Nat
  rx : List Packet
  used : Sparse Nat
  toReturn : List (Nat × Nat)
  resentAt : List Nat
  attempts : Nat
  lastGood : Nat
  peerDev : Option Nat
  peerLink : Option Nat
  /-- What the last training set: the lanes come in the order 3 to 0, and each lane's polarity and precoding (R303). -/
  reversed : Bool
  lanes : List LaneTrain
  /-- A link transmit PLL that is out of lock (R447). -/
  pllLost : Bool
  deriving DecidableEq, Repr

/-- A move of a copy slot (R344, R345). -/
structure CopyMove where
  cc : Nat
  host : Nat
  pool : Nat
  bytes : Nat
  toPool : Bool
  deriving DecidableEq, Repr

/-- Who waits for a peer request's answer (R319, R320). -/
inductive PeerUser where
  | core (p g id : Nat)
  | spawn (p g id : Nat)
  | signal (slot : Nat)
  /-- A BAR4 read or write (R323): its tag, base offset in the answer. -/
  | bar4 (tag : Nat) (write : Bool)
  /-- A move of a host copy, in its engine until the peer has answered all of it (R285, R345). -/
  | copy (m : CopyMove)
  /-- The source of a service operation, read from a peer (R411, R466). -/
  | image (op : Nat)
  deriving DecidableEq, Repr

/-- A peer request, outstanding or waiting to be sent (R307, R319, R320): the peer, its tag, who waits, since when, the
task behind it, the agent it comes from (a core's position, or 1,000 and above for the device's own agents), the lines
it touches, and its packets (two for a task record). -/
structure PeerReq where
  dev : Nat
  tag : Nat
  user : PeerUser
  since : Nat
  slot : Option Nat
  agent : Nat
  firstLine : Nat
  lastLine : Nat
  half : Nat
  pkts : List Packet
  deriving DecidableEq, Repr

/-- POOL_STATE (R333). -/
inductive PoolState where
  | standalone | forming | formed | broken | waiting
  deriving DecidableEq, Repr

/-- A JOIN that the head has accepted (R324): device, and its two firmware versions. -/
structure Joined where
  device : Nat
  keeper : Nat
  fountain : Nat
  deriving DecidableEq, Repr

/-- The pool as this device sees it. `assignedAt` is when the head's ASSIGN began (R324). -/
structure Pool where
  st : PoolState
  device : Nat
  x : Nat
  y : Nat
  z : Nat
  head : Bool
  members : Nat
  joined : List Joined
  /-- The pairs of members that are known to have no link left (R327). -/
  broken : List (Nat × Nat)
  assignedAt : Option Nat
  gotAssign : Bool
  s8code : Nat
  reqs : List PeerReq
  /-- Requests held at this device (R307, R319), oldest first. -/
  waiting : List PeerReq
  nextTag : Nat
  deriving DecidableEq, Repr

/-- What an awaited configuration request or memory read is completed with. -/
inductive CplStatus where
  | success | unsupported | retry | poisoned
  deriving DecidableEq, Repr

/-- A move of the host copy engines (R285): one of a host copy, or a page of the Sluice in or out. -/
inductive EngineMove where
  | copy (m : CopyMove)
  | page (seq page : Nat) (into : Bool)
  deriving DecidableEq, Repr

/-- A copy slot's run (R344): state, code, bytes moved, and the two addresses it began with. -/
structure CopySlot where
  state : Nat
  code : Nat
  moved : Nat
  host : Nat
  pool : Nat
  deriving DecidableEq, Repr

/-- A BAR0 request channel (R362): CH_STATE's fields, and the two frame areas. -/
structure Chan where
  state : Nat
  code : Nat
  tag : Nat
  len : Nat
  request : List Byte
  response : List Byte
  deriving DecidableEq, Repr

/-- A BAR4 access to a peer that waits for its packets (R323, R341, R342). -/
structure Bar4Wait where
  tag : Nat
  offset : Nat
  addr : Nat
  len : Nat
  left : Nat
  got : Sparse Byte
  failed : Bool
  deriving DecidableEq, Repr

/-- The host port (R334 to R350). `bars` holds the six Base Address registers, `assigned` which of them the host has written,
`sizeGiB` the Resizable BAR size of BAR4. `queue` lists the moves of the host copy engines in order of arrival (R285). Of Advanced Error Reporting (R350): whether Poisoned TLP Received stands in the
status, the severity register, and the seed of the recorded header of the first uncorrectable error. -/
structure Port where
  up : Bool
  bars : Sparse Nat
  assigned : Sparse Bool
  command : Nat
  d3 : Bool
  sizeGiB : Nat
  refclk : Bool
  chans : Sparse Chan
  copies : Sparse CopySlot
  queue : List EngineMove
  bar4 : List Bar4Wait
  aerPoisoned : Bool
  aerSeverity : Nat
  aerFirst : Option Nat
  deriving DecidableEq, Repr

/-- A link that is down with full credits.
Log entries 52 (PRESUMED); 97 (DESIGN CHOICE). -/
def Link.idle : Link :=
  { st := .down, egress := [], nextSeq := 0, unacked := [], lastRx := 4095, gap := none, rx := [], used := [],
    toReturn := [], resentAt := [], attempts := 0, lastGood := 0, peerDev := none, peerLink := none,
    reversed := false, lanes := [], pllLost := false }

/-- A device that belongs to no pool (R22, R324). -/
def Pool.alone : Pool :=
  { st := .standalone, device := 0, x := 0, y := 0, z := 0, head := false, members := 0, joined := [], broken := [],
    assignedAt := none, gotAssign := false, s8code := 0, reqs := [], waiting := [], nextTag := 0 }

/-- An idle request channel. -/
def Chan.idle : Chan := { state := 0, code := 0, tag := 0, len := 0, request := [], response := [] }

/-- An idle copy slot. -/
def CopySlot.idle : CopySlot := { state := 0, code := 0, moved := 0, host := 0, pool := 0 }

/-- The port with its link down and nothing configured (R348, R349).
Log entry 22 (PRESUMED). -/
def Port.reset : Port :=
  { up := false, bars := [], assigned := [], command := 0, d3 := false, sizeGiB := 64,
    refclk := true, chans := [], copies := [], queue := [], bar4 := [], aerPoisoned := false, aerSeverity := 0x40030, aerFirst := none }

end Sys2Proof.Machine
end

