-- ==== Sys2Proof/Machine/JobTypes.lean ====
section
/-! DEFINITION. The memory jobs of the blocks that are not cores: what a Weir engine, a link, the host port, the Sluice, the
Keeper or an instruction fetch has asked of the home slices and waits for (R19, R224, R232). -/

namespace Sys2Proof.Machine

/-- What a job is for, and so what happens when the home slices have answered it whole. -/
inductive JobFor where
  /-- Posted writes of the host: nobody waits (R340). -/
  | post
  /-- A BAR4 read: its tag, and the device-local bytes asked for (R341). -/
  | bar4 (tag addr len : Nat)
  /-- A peer's request packet (R320). -/
  | packet (p : Packet)
  /-- A move of a host copy (R345). -/
  | copy (m : CopyMove)
  /-- A page-in's bytes on their way to the page's home slices (R283). -/
  | pageIn (seq page : Nat)
  /-- A page-out's read of its page (R272). -/
  | pageOut (seq page : Nat)
  /-- An instruction line for the group in slot `g` of position `p` (R104, R510). -/
  | fetch (p g line : Nat)
  /-- The array that SEQ_LIST names, for a task slot and its use count (R36). -/
  | seqList (slot gen : Nat)
  /-- The running command of a Weir engine (R196, R200). -/
  | weir (p unit : Nat)
  /-- A page copied into a Sluice frame of a position (R279). -/
  | promote (p : Nat)
  /-- A failed block of a Sluice frame, fetched again (R205). -/
  | scrub (p off seq page : Nat)
  /-- The source of a service operation (R411, R466). -/
  | image (op : Nat)
  deriving DecidableEq, Repr

/-- A job: its requests carry `id`, start in `half` and enter a slice by `port`; `left` of them are not yet answered or
accepted, and `got` holds the answers.
Log entry 39 (DESIGN CHOICE). -/
structure Job where
  id : Nat
  half : Nat
  port : Nat
  cls : Nat
  who : JobFor
  left : Nat
  got : List Served
  deriving DecidableEq, Repr

end Sys2Proof.Machine
end

