-- ==== Sys2Proof/Machine/CisternTypes.lean ====
section
/-! DEFINITION. The state of the Cistern, the Sill and the Reservoir (chapters 8 and 9 of the manual). -/

namespace Sys2Proof.Machine

/-- The state of a sector of an ordinary line (R222). -/
inductive SecState where
  | absent | pending | clean | dirty
  deriving DecidableEq, Repr

/-- A 32-byte sector of an ordinary line: its state, its bytes, its writer tag (R456), and whether a word of it has
failed with no good copy. -/
structure Sector where
  st : SecState
  data : List Byte
  wtag : Nat
  bad : Bool
  deriving DecidableEq, Repr

/-- An ordinary line (R223): its way, its line number `a >> 7`, its four sectors, who holds it, its last
use, and the class of the fill that placed it. -/
structure Line where
  way : Nat
  tag : Nat
  sectors : List Sector
  /-- The task slots whose staging holds the line (R223, R274). -/
  held : List Nat
  use : Nat
  cls : Nat
  deriving DecidableEq, Repr

/-- A miss register (R229): its line, the waiters in intake order, and the sectors to fetch in the order first wanted. -/
structure MissReg where
  line : Nat
  waiters : List Req
  fetches : List Nat
  deriving DecidableEq, Repr

/-- An entry of a reduction queue (R234): the request, its acceptance number, and whether its sector lies in the window. -/
structure RedEntry where
  req : Req
  seq : Nat
  pinned : Bool
  deriving DecidableEq, Repr

/-- A dirty sector in a writeback buffer (R226): its address, bytes and class, and whether it carries the
uncorrectable mark (R414, R455). -/
structure WbSector where
  sector : Nat
  data : List Byte
  cls : Nat
  mark : Bool
  wtag : Nat
  deriving DecidableEq, Repr

/-- A sector fetch a slice has sent or will send to its Reservoir interface. -/
structure Fetch where
  id : Nat
  sector : Nat
  cls : Nat
  sent : Bool
  /-- Its class was at its limit at the channel when it was offered (R477). -/
  held : Bool
  /-- The Sluice has written the page's host copy over it once, and the sector has not been read again yet (R284). -/
  recovered : Bool
  /-- Bytes that came back, and whether they failed (R251). -/
  back : Option (List Byte × Bool)
  deriving DecidableEq, Repr

/-- A missed request that waits for a way (R228, R237), since when, and whether its set has forced a line. -/
structure WayWait where
  req : Req
  since : Nat
  deriving DecidableEq, Repr

/-- A request that has reached a slice and is not yet in its intake: the port that brought it, and whether its class was
at its limit when it was offered (R477). -/
structure InReq where
  port : Nat
  req : Req
  held : Bool
  /-- Counted as held by a full miss register or a full set of them (R230). -/
  full : Bool
  deriving DecidableEq, Repr

/-- A Cistern slice (R212). `sets` holds the ordinary lines of each set; `inbox` the requests that have reached the
slice and are not yet in its intake, each with the port that brought it; `victims` the last 4,096 evicted tags (R220);
`forced` the lines that R237 forces, one to a set. -/
structure Slice where
  sets : Sparse (List Line)
  inbox : List InReq
  mrs : List MissReg
  redq : List RedEntry
  nextRed : Nat
  wb : List WbSector
  fetches : List Fetch
  nextFetch : Nat
  waits : List WayWait
  forced : List Nat
  victims : List Nat
  windowRefetch : Nat
  useClock : Nat
  /-- When it last completed a request, or took one while empty (R239). -/
  lastDone : Nat
  portHalf : Bool
  /-- Both halves of the port are lost: requests are held until the slice is retired (R462). -/
  portLost : Bool
  retired : Bool
  deriving DecidableEq, Repr

/-- What crosses the Sill (R232): a request to a slice, the data or the acceptance that answers one. -/
inductive SillItem where
  | request (req : Req) (slice : Nat)
  | answer (o : Origin) (sv : Served)
  | accept (o : Origin) (sector : Nat)
  deriving DecidableEq, Repr

/-- One crossing of the Sill (R232, R233, R477): what crosses, its class, the bytes of data it carries, its failures in
succession, and whether it has been sent or is held by its class's limit. -/
structure SillXfer where
  item : SillItem
  cls : Nat
  bytes : Nat
  fails : Nat
  sent : Bool
  deriving DecidableEq, Repr

/-- A Cistern-only reset in progress (R413): its cause, the slice for a watchdog, when it was requested. -/
structure CisReset where
  cause : Nat
  unit : Nat
  since : Nat
  deriving DecidableEq, Repr

/-- The Cistern and the Sill. `win` holds the window's bytes by offset; `winTag` the writer tag of each window sector;
`winWays` the PIN_WAYS in effect in each half; `thrashStart` the beginning of the thrash window (R221); `jobs` the jobs that
wait for the slices, and `nextJob` the number of the next. -/
structure Cistern where
  slices : Sparse Slice
  win : Sparse Byte
  winTag : Sparse Nat
  /-- Window sectors with a word that has failed and not been rewritten (R458). -/
  winBad : Sparse Bool
  winWays : Sparse Nat
  sill : Sparse (List SillXfer)
  reset : Option CisReset
  thrashStart : Nat
  jobs : List Job
  nextJob : Nat
  deriving DecidableEq, Repr

/-- A sector read in a channel's read queue (R245): slice, fetch number, sector, class, when it entered, and how often its
burst has been sent again (R250). -/
structure ChRead where
  slice : Nat
  fetch : Nat
  sector : Nat
  cls : Nat
  since : Nat
  tries : Nat
  deriving DecidableEq, Repr

/-- A sector in a channel's write queue (R245, R247), with its uncorrectable mark. -/
structure ChWrite where
  sector : Nat
  data : List Byte
  cls : Nat
  mark : Bool
  deriving DecidableEq, Repr

/-- A Reservoir channel (R242, R245 to R250). `openRow` is the open row plus one of each bank, 0 when idle; `owed` the
refreshes owed to each bank; `writeTries` the resends of the present write burst. -/
structure Channel where
  reads : List ChRead
  writes : List ChWrite
  openRow : Sparse Nat
  draining : Bool
  refreshBank : Nat
  owed : Sparse Nat
  writeTries : Nat
  fails : List Nat
  retraining : Bool
  emptySince : Nat
  deriving DecidableEq, Repr

/-- The Reservoir: its bytes by device-local address, the sectors that carry the uncorrectable mark (R414), its
channels keyed by stack * 128 + channel, and the writer table of R456 by page. `west` and `east` list the working stacks
that R243 maps; `lost` those lost in service since the start (R252). -/
structure Reservoir where
  mem : Sparse Byte
  marked : Sparse Bool
  chans : Sparse Channel
  pageTag : Sparse Nat
  west : List Nat
  east : List Nat
  lost : List Nat
  deriving DecidableEq, Repr

/-- An empty slice.
Log entry 97 (DESIGN CHOICE). -/
def Slice.empty : Slice :=
  { sets := [], inbox := [], mrs := [], redq := [], nextRed := 0, wb := [], fetches := [], nextFetch := 0, waits := [],
    forced := [], victims := [], windowRefetch := 0, useClock := 0, lastDone := 0, portHalf := false, portLost := false, retired := false }

/-- The Cistern after a fill (R217, R406): no ordinary line, window zero, one pinned way a set. -/
def Cistern.clear : Cistern :=
  { slices := [], win := [], winTag := [], winBad := [], winWays := [], sill := [], reset := none, thrashStart := 0,
    jobs := [], nextJob := 0 }

/-- An idle channel.
Log entry 97 (DESIGN CHOICE). -/
def Channel.idle : Channel :=
  { reads := [], writes := [], openRow := [], draining := false, refreshBank := 0, owed := [],
    writeTries := 0, fails := [], retraining := false, emptySince := 0 }

/-- The Reservoir before S6: nothing mapped.
Log entry 96 (DESIGN CHOICE). -/
def Reservoir.unmapped : Reservoir :=
  { mem := [], marked := [], chans := [], pageTag := [], west := [], east := [], lost := [] }

end Sys2Proof.Machine
end

