-- ==== Sys2Proof/Machine/SluiceTypes.lean ====
section
/-! DEFINITION. The state of the Sluice: buffers, sequences, pages, moves (chapter 10 of the manual). -/

namespace Sys2Proof.Machine

/-- The state of an allocated sequence page (R271). -/
inductive PageState where
  | host | pagingIn | reservoir | cistern | basin | pagingOut
  deriving DecidableEq, Repr

/-- A sequence page: its state, its zone page in the sequence's half (meaningful but in HOST), its host pool page if it
is in host memory or carries a host copy, the position that holds its frame copy.
Log entry 49 (DESIGN CHOICE). -/
structure Page where
  st : PageState
  zone : Nat
  hostPage : Option Nat
  frame : Option Nat
  /-- A page-in asked by look-ahead ends in RESERVOIR (R277). -/
  ahead : Bool
  deriving DecidableEq, Repr

/-- The state of a sequence (R265). -/
inductive SeqState where
  | free | active | releasing
  deriving DecidableEq, Repr

/-- A tracked sequence (R264 to R267): its half, LENGTH and WRITE_FROM, its pages from page 0, and when it was last
staged, and how many extensions of it have retired.
Log entry 49 (DESIGN CHOICE). -/
structure Seqn where
  st : SeqState
  half : Nat
  length : Nat
  writeFrom : Nat
  pages : List Page
  lastStaged : Nat
  retired : Nat
  deriving DecidableEq, Repr

/-- An allocated buffer (R258, R261): its level, half, start page in its zone or pool, order k, whether it persists, the
slot that allocated it and the use count of that slot. -/
structure Buf where
  level : Nat
  half : Nat
  start : Nat
  k : Nat
  persist : Bool
  slot : Nat
  gen : Nat
  addr : Nat
  deriving DecidableEq, Repr

/-- A free block of 2^k pages (R258). -/
structure Block where
  start : Nat
  k : Nat
  deriving DecidableEq, Repr

/-- A deferred staging request (R276): its slot, when it was first deferred, whether it starves, and the resources that it
needs: 0 and 1 the halves' buffer zones, 2 and 3 their pools, 4 and 5 their sequence zones, 6 the table blocks. -/
structure Deferred where
  slot : Nat
  since : Nat
  needs : List Nat
  starved : Bool
  deriving DecidableEq, Repr

/-- A page that is held for a staged task (R223, R274). -/
structure Hold2 where
  slot : Nat
  seq : Nat
  page : Nat
  deriving DecidableEq, Repr

/-- A page that was moving when its sequence was freed (R286): its move completes, and then its zone page and its host
page are freed.
Log entry 51 (DEDUCED). -/
structure Orphan where
  seq : Nat
  page : Nat
  half : Nat
  zone : Nat
  hostPage : Option Nat
  into : Bool
  deriving DecidableEq, Repr

/-- What is free in one half: buffer-zone blocks, pool blocks, freed sequence-zone pages (most recently freed first), and
the next sequence-zone page never used (R258, R259, R266). `open_` to `seqPages` are the zones in force (R255). -/
structure HalfSpace where
  open_ : Nat
  bufPages : Nat
  seqPages : Nat
  bufFree : List Block
  poolFree : List Block
  poolPages : Nat
  freed : List Nat
  nextFresh : Nat
  pagingOut : Bool
  deriving DecidableEq, Repr

/-- The Sluice. `moves` lists the host moves outstanding as (sequence, page, in); `hostNext` the next host pool page
never used and `hostFreed` the freed ones; `hostCopies` the pages with host copies, oldest first (R282); `reserveLost`
is set when a reserve word is lost (R459).
Log entry 49 (DESIGN CHOICE). -/
structure Sluice where
  west : HalfSpace
  east : HalfSpace
  bufs : List Buf
  seqs : Sparse (Option Seqn)
  dirsUsed : Nat
  chainsUsed : Nat
  deferred : List Deferred
  holds : List Hold2
  moves : List (Nat × Nat × Bool)
  hostNext : Nat
  hostFreed : List Nat
  hostCopies : List (Nat × Nat)
  orphans : List Orphan
  reserveLost : Bool
  deriving DecidableEq, Repr

/-- A half with no zone yet. -/
def HalfSpace.empty : HalfSpace :=
  { open_ := 0, bufPages := 0, seqPages := 0, bufFree := [], poolFree := [], poolPages := 0, freed := [], nextFresh := 0,
    pagingOut := false }

/-- The Sluice with empty tables (R287).
Log entry 97 (DESIGN CHOICE). -/
def Sluice.clear : Sluice :=
  { west := HalfSpace.empty, east := HalfSpace.empty, bufs := [], seqs := [], dirsUsed := 0, chainsUsed := 0,
    deferred := [], holds := [], moves := [], hostNext := 0, hostFreed := [], hostCopies := [], orphans := [],
    reserveLost := false }

end Sys2Proof.Machine
end

