-- ==== Sys2Proof/Config.lean ====
section
/-! DEFINITION. The free values of the model: constants with no body, so that nothing can be proved of what they are.
Each is applied to the counter `State.free`, which every use reads and advances, or to the operands that the value may
depend on. -/

namespace Sys2Proof

/-- A free byte (the contents the manual leaves open: staging memory of a new group, R76).
Log entry 4 (DESIGN CHOICE). -/
opaque Config.freeByte : Nat → Byte

/-- A free bit: which of two allowed outcomes takes place (R154, R99).
Log entry 4 (DESIGN CHOICE). -/
opaque Config.freeBit : Nat → Bool

/-- A free number, reduced by its user to the values the manual allows.
Log entry 4 (DESIGN CHOICE). -/
opaque Config.freeNat : Nat → Nat

/-- A free 32-bit word (R76).
Log entry 4 (DESIGN CHOICE). -/
opaque Config.freeWord : Nat → Word32

/-- What a special-function unit gives for an operation and an operand, before the bounds of R80 are applied. The unit is
a fixed function of its operand (R472).
Log entry 20 (DEDUCED). -/
opaque Config.sfu : Nat → Word32 → Word32

/-- A modelled bond-plane point uses a diode channel; the model's coefficients are Opquin's (R431, R433).
Log entry 81 (DEDUCED). -/
opaque Config.pointUses : Nat → Nat → Bool

/-- The configuration registers, in double words, at which this Keeper version puts the fields of its capability structures
that the manual names (R337, R338, R340, R350): the manual leaves their offsets open.
Log entry 22 (PRESUMED). -/
opaque Config.pmcReg : Nat
opaque Config.pmcsrReg : Nat
opaque Config.devCapReg : Nat
opaque Config.rebarCapReg : Nat
opaque Config.rebarCtlReg : Nat
opaque Config.dsnLowReg : Nat
opaque Config.dsnHighReg : Nat
opaque Config.aerStatusReg : Nat
opaque Config.aerSeverityReg : Nat
opaque Config.aerHeaderReg : Nat

/-- What a configuration register that the manual does not give reads as (R336, R337).
Log entry 22 (PRESUMED). -/
opaque Config.capability : Nat → Nat

/-- The four Opquin root public keys of the boot ROM, fixed for each silicon revision (R482).
Log entry 91 (DESIGN CHOICE). -/
opaque Config.rootKeys : List (Nat × Nat)

/-- The contents of the boot ROM, which measurement 1 digests (R486).
Log entry 91 (DESIGN CHOICE). -/
opaque Config.bootRom : List Byte

/-- A byte of the shadow zones, at a device-local address: the Sluice's tables and the writer tables, in a layout that the
manual does not give, and what has been stored there against R257 (R287, R456).
Log entry 110 (DESIGN CHOICE). -/
opaque Config.shadowByte : Machine.Sluice → Machine.Reservoir → Nat → Byte

end Sys2Proof
end

