-- ==== Sys2Proof/Machine/Codes.lean ====
section
/-! DEFINITION. The fault and error codes of R471, by name, and their severities. -/

namespace Sys2Proof.Machine

/-- RECORD_INVALID (R471). -/
abbrev Code.recordInvalid : Nat := 0x010
/-- DEPENDENCY_FAULTED (R471). -/
abbrev Code.dependencyFaulted : Nat := 0x011
/-- COSCHED_UNFIT (R471). -/
abbrev Code.coschedUnfit : Nat := 0x012
/-- COSCHED_REQUIRED (R471). -/
abbrev Code.coschedRequired : Nat := 0x013
/-- TASK_TIMEOUT (R471). -/
abbrev Code.taskTimeout : Nat := 0x014
/-- FUNCTION_WITHDRAWN (R471). -/
abbrev Code.functionWithdrawn : Nat := 0x015
/-- PIN_LOST (R471). -/
abbrev Code.pinLost : Nat := 0x016
/-- INTAKE_FULL (R471). -/
abbrev Code.intakeFull : Nat := 0x018
/-- INTAKE_MALFORMED (R471). -/
abbrev Code.intakeMalformed : Nat := 0x019
/-- SLOT_BUSY (R471). -/
abbrev Code.slotBusy : Nat := 0x01A
/-- SLOT_RANGE (R471). -/
abbrev Code.slotRange : Nat := 0x01B
/-- INSTRUCTION_INVALID (R471). -/
abbrev Code.instructionInvalid : Nat := 0x020
/-- REGISTER_RANGE (R471). -/
abbrev Code.registerRange : Nat := 0x021
/-- STAGING_RANGE (R471). -/
abbrev Code.stagingRange : Nat := 0x022
/-- MISALIGNED_ACCESS (R471). -/
abbrev Code.misalignedAccess : Nat := 0x023
/-- ADDRESS_UNMAPPED (R471). -/
abbrev Code.addressUnmapped : Nat := 0x024
/-- BASIN_FOREIGN (R471). -/
abbrev Code.basinForeign : Nat := 0x025
/-- ATOMIC_TARGET (R471). -/
abbrev Code.atomicTarget : Nat := 0x026
/-- DIVERGENCE_OVERFLOW (R471). -/
abbrev Code.divergenceOverflow : Nat := 0x027
/-- BARRIER_ORPHAN (R471). -/
abbrev Code.barrierOrphan : Nat := 0x028
/-- MATRIX_DIVERGED (R471). -/
abbrev Code.matrixDiverged : Nat := 0x029
/-- CORE_DARK (R471). -/
abbrev Code.coreDark : Nat := 0x02A
/-- ARRAY_DESCRIPTOR (R471). -/
abbrev Code.arrayDescriptor : Nat := 0x030
/-- ARRAY_SOURCE (R471). -/
abbrev Code.arraySource : Nat := 0x031
/-- ARRAY_OVERLAP (R471). -/
abbrev Code.arrayOverlap : Nat := 0x032
/-- WEIR_COMMAND (R471). -/
abbrev Code.weirCommand : Nat := 0x038
/-- WEIR_SOURCE (R471). -/
abbrev Code.weirSource : Nat := 0x039
/-- CHECK_FAILED (R471). -/
abbrev Code.checkFailed : Nat := 0x040
/-- CHECK_TRANSIENT (R471). -/
abbrev Code.checkTransient : Nat := 0x041
/-- VERTICAL_ABORT (R471). -/
abbrev Code.verticalAbort : Nat := 0x042
/-- RESERVOIR_LOST (R471). -/
abbrev Code.reservoirLost : Nat := 0x043
/-- RESERVE_LOST (R471). -/
abbrev Code.reserveLost : Nat := 0x044
/-- LANE_SPARED (R471). -/
abbrev Code.laneSpared : Nat := 0x045
/-- LANE_LOST (R471). -/
abbrev Code.laneLost : Nat := 0x046
/-- SLICE_PORT_HALVED (R471). -/
abbrev Code.slicePortHalved : Nat := 0x047
/-- SHARED_BOND_DEGRADED (R471). -/
abbrev Code.sharedBondDegraded : Nat := 0x048
/-- SEQUENCE_UNKNOWN (R471). -/
abbrev Code.sequenceUnknown : Nat := 0x050
/-- SEQ_CONFLICT (R471). -/
abbrev Code.seqConflict : Nat := 0x051
/-- SEQ_TOO_LONG (R471). -/
abbrev Code.seqTooLong : Nat := 0x052
/-- SEQ_RANGE (R471). -/
abbrev Code.seqRange : Nat := 0x053
/-- SEQ_READ_ONLY (R471). -/
abbrev Code.seqReadOnly : Nat := 0x054
/-- SEQ_REF_INVALID (R471). -/
abbrev Code.seqRefInvalid : Nat := 0x055
/-- BUFFER_UNKNOWN (R471). -/
abbrev Code.bufferUnknown : Nat := 0x056
/-- BUFFER_TOO_LARGE (R471). -/
abbrev Code.bufferTooLarge : Nat := 0x057
/-- PAGE_IN_FAILED (R471). -/
abbrev Code.pageInFailed : Nat := 0x058
/-- SLUICE_STARVED (R471). -/
abbrev Code.sluiceStarved : Nat := 0x059
/-- PEER_LOST (R471). -/
abbrev Code.peerLost : Nat := 0x060
/-- LINK_LOST (R471). -/
abbrev Code.linkLost : Nat := 0x061
/-- LINK_DOWN (R471). -/
abbrev Code.linkDown : Nat := 0x062
/-- LINK_PROTOCOL (R471). -/
abbrev Code.linkProtocol : Nat := 0x063
/-- LINK_LAST (R471). -/
abbrev Code.linkLast : Nat := 0x064
/-- CABLE_MISMATCH (R471). -/
abbrev Code.cableMismatch : Nat := 0x065
/-- POOL_MISMATCH (R471). -/
abbrev Code.poolMismatch : Nat := 0x066
/-- POOL_TWO_HEADS (R471). -/
abbrev Code.poolTwoHeads : Nat := 0x067
/-- POOL_WIRING (R471). -/
abbrev Code.poolWiring : Nat := 0x068
/-- POOL_BROKEN (R471). -/
abbrev Code.poolBroken : Nat := 0x069
/-- LINK_TRAINING (R471). -/
abbrev Code.linkTraining : Nat := 0x06A
/-- HOST_LINK_UNSUPPORTED (R471). -/
abbrev Code.hostLinkUnsupported : Nat := 0x070
/-- HOST_COPY_FAILED (R471). -/
abbrev Code.hostCopyFailed : Nat := 0x071
/-- PIN_LIMIT (R471). -/
abbrev Code.pinLimit : Nat := 0x078
/-- PIN_BUSY (R471). -/
abbrev Code.pinBusy : Nat := 0x079
/-- CISTERN_THRASH (R471). -/
abbrev Code.cisternThrash : Nat := 0x07A
/-- SILL_FATAL (R471). -/
abbrev Code.sillFatal : Nat := 0x07B
/-- CISTERN_WATCHDOG (R471). -/
abbrev Code.cisternWatchdog : Nat := 0x07C
/-- CISTERN_RESET (R471). -/
abbrev Code.cisternReset : Nat := 0x07D
/-- OBJECT_UNKNOWN (R471). -/
abbrev Code.objectUnknown : Nat := 0x080
/-- ACCESS_DENIED (R471). -/
abbrev Code.accessDenied : Nat := 0x081
/-- TYPE_MISMATCH (R471). -/
abbrev Code.typeMismatch : Nat := 0x082
/-- VALUE_RANGE (R471). -/
abbrev Code.valueRange : Nat := 0x083
/-- DEVICE_BUSY (R471). -/
abbrev Code.deviceBusy : Nat := 0x084
/-- TXN_REQUIRED (R471). -/
abbrev Code.txnRequired : Nat := 0x085
/-- TXN_OPEN (R471). -/
abbrev Code.txnOpen : Nat := 0x086
/-- TXN_UNKNOWN (R471). -/
abbrev Code.txnUnknown : Nat := 0x087
/-- TXN_PREPARED (R471). -/
abbrev Code.txnPrepared : Nat := 0x088
/-- TXN_NOT_PREPARED (R471). -/
abbrev Code.txnNotPrepared : Nat := 0x089
/-- TXN_FULL (R471). -/
abbrev Code.txnFull : Nat := 0x08A
/-- OBJECT_STAGED (R471). -/
abbrev Code.objectStaged : Nat := 0x08B
/-- COMMIT_TIME (R471). -/
abbrev Code.commitTime : Nat := 0x08C
/-- TXN_TIMEOUT (R471). -/
abbrev Code.txnTimeout : Nat := 0x08D
/-- TXN_FAILED (R471). -/
abbrev Code.txnFailed : Nat := 0x08E
/-- NOT_READY (R471). -/
abbrev Code.notReady : Nat := 0x08F
/-- TARGET_UNKNOWN (R471). -/
abbrev Code.targetUnknown : Nat := 0x090
/-- MESSAGE_INVALID (R471). -/
abbrev Code.messageInvalid : Nat := 0x091
/-- FUNCTION_DRAINING (R471). -/
abbrev Code.functionDraining : Nat := 0x092
/-- SVC_BUSY (R471). -/
abbrev Code.svcBusy : Nat := 0x093
/-- SERVICE_CANCELLED (R471). -/
abbrev Code.serviceCancelled : Nat := 0x094
/-- FLASH_WRITE_FAILED (R471). -/
abbrev Code.flashWriteFailed : Nat := 0x095
/-- RESPONSE_TRUNCATED (R471). -/
abbrev Code.responseTruncated : Nat := 0x096
/-- RAIL_FAULT (R471). -/
abbrev Code.railFault : Nat := 0x0A0
/-- CLOCK_LOCK (R471). -/
abbrev Code.clockLock : Nat := 0x0A1
/-- FIRMWARE_INVALID (R471). -/
abbrev Code.firmwareInvalid : Nat := 0x0A2
/-- UNTESTED_PAIR (R471). -/
abbrev Code.untestedPair : Nat := 0x0A3
/-- SLOT_FALLBACK (R471). -/
abbrev Code.slotFallback : Nat := 0x0A4
/-- BOND_SPARES (R471). -/
abbrev Code.bondSpares : Nat := 0x0A5
/-- SHARED_BOND_FAULT (R471). -/
abbrev Code.sharedBondFault : Nat := 0x0A6
/-- SLICE_RETIRED (R471). -/
abbrev Code.sliceRetired : Nat := 0x0A7
/-- CISTERN_DEPLETED (R471). -/
abbrev Code.cisternDepleted : Nat := 0x0A8
/-- CORE_SELFTEST (R471). -/
abbrev Code.coreSelftest : Nat := 0x0A9
/-- CORE_SHORTFALL (R471). -/
abbrev Code.coreShortfall : Nat := 0x0AA
/-- RESERVOIR_TRAINING (R471). -/
abbrev Code.reservoirTraining : Nat := 0x0AB
/-- RESERVOIR_NONE (R471). -/
abbrev Code.reservoirNone : Nat := 0x0AC
/-- LICENCE_INVALID (R471). -/
abbrev Code.licenceInvalid : Nat := 0x0AD
/-- DEFECT_LIST_FULL (R471). -/
abbrev Code.defectListFull : Nat := 0x0AE
/-- CONVERTER_FAILED (R471). -/
abbrev Code.converterFailed : Nat := 0x0C0
/-- SENSE_LOST (R471). -/
abbrev Code.senseLost : Nat := 0x0C1
/-- REGULATOR_FAILED (R471). -/
abbrev Code.regulatorFailed : Nat := 0x0C2
/-- CLUSTER_DARK (R471). -/
abbrev Code.clusterDark : Nat := 0x0C3
/-- BOND_SUSPECT (R471). -/
abbrev Code.bondSuspect : Nat := 0x0C4
/-- THERMAL_WARNING (R471). -/
abbrev Code.thermalWarning : Nat := 0x0C5
/-- THERMAL_THROTTLE (R471). -/
abbrev Code.thermalThrottle : Nat := 0x0C6
/-- THERMAL_TRIP (R471). -/
abbrev Code.thermalTrip : Nat := 0x0C7
/-- SENSOR_BROKEN (R471). -/
abbrev Code.sensorBroken : Nat := 0x0C8
/-- POWER_LIMIT_UNMET (R471). -/
abbrev Code.powerLimitUnmet : Nat := 0x0C9
/-- PPS_LOST (R471). -/
abbrev Code.ppsLost : Nat := 0x0D0
/-- PPS_REJECTED (R471). -/
abbrev Code.ppsRejected : Nat := 0x0D1
/-- CORE_TEST_FAILED (R471). -/
abbrev Code.coreTestFailed : Nat := 0x0E0
/-- PACK_INVALID (R471). -/
abbrev Code.packInvalid : Nat := 0x0E1
/-- TOKEN_INVALID (R471). -/
abbrev Code.tokenInvalid : Nat := 0x0E2

/-- The numbers that the code table assigns (R471). -/
def codeNumbers : List Nat :=
  [0x010, 0x011, 0x012, 0x013, 0x014, 0x015, 0x016, 0x018, 0x019, 0x01A, 0x01B, 0x020, 0x021, 0x022] ++
  [0x023, 0x024, 0x025, 0x026, 0x027, 0x028, 0x029, 0x02A, 0x030, 0x031, 0x032, 0x038, 0x039, 0x040] ++
  [0x041, 0x042, 0x043, 0x044, 0x045, 0x046, 0x047, 0x048, 0x050, 0x051, 0x052, 0x053, 0x054, 0x055] ++
  [0x056, 0x057, 0x058, 0x059, 0x060, 0x061, 0x062, 0x063, 0x064, 0x065, 0x066, 0x067, 0x068, 0x069] ++
  [0x06A, 0x070, 0x071, 0x078, 0x079, 0x07A, 0x07B, 0x07C, 0x07D, 0x080, 0x081, 0x082, 0x083, 0x084] ++
  [0x085, 0x086, 0x087, 0x088, 0x089, 0x08A, 0x08B, 0x08C, 0x08D, 0x08E, 0x08F, 0x090, 0x091, 0x092] ++
  [0x093, 0x094, 0x095, 0x096, 0x0A0, 0x0A1, 0x0A2, 0x0A3, 0x0A4, 0x0A5, 0x0A6, 0x0A7, 0x0A8, 0x0A9] ++
  [0x0AA, 0x0AB, 0x0AC, 0x0AD, 0x0AE, 0x0C0, 0x0C1, 0x0C2, 0x0C3, 0x0C4, 0x0C5, 0x0C6, 0x0C7, 0x0C8] ++
  [0x0C9, 0x0D0, 0x0D1, 0x0E0, 0x0E1, 0x0E2]

end Sys2Proof.Machine
end

