-- ==== Sys2Proof/Machine/DictTypes.lean ====
section
/-! DEFINITION. The state of the Keeper: objects, events, transactions, withdrawals, service operations, and what the
device has sent (chapters 14 and 15 of the manual). -/

namespace Sys2Proof.Machine

/-- TXN_STATE (R373). -/
inductive TxnSt where
  | none | open_ | prepared | committing | applying
  deriving DecidableEq, Repr

/-- The device's transaction (R373 to R377). `holds` records that PREPARE's holds of R375 are in force; `reply` the COMMIT
with INSTANT 0 that waits for an answer while the writes are applied, `result` the first refusal met in applying them,
`timed` that the commit had an INSTANT. -/
structure Txn where
  st : TxnSt
  id : Nat
  staged : List (Nat × Val)
  activity : Nat
  /-- TXN_ACTIVITY, a timebase stamp. -/
  activityTb : Nat
  instant : Nat
  holds : Bool
  reply : Option (Via × CasHdr)
  result : Nat
  timed : Bool
  deriving DecidableEq, Repr

/-- An event of the ring (R371, R372): head fields and detail; `sent` when it left as a frame. -/
structure Event where
  seq : Nat
  code : Nat
  severity : Nat
  origin : Nat
  slot : Nat
  device : Nat
  tag : Nat
  stamp : Nat
  unit : Nat
  detail : List Byte
  sent : Bool
  deriving DecidableEq, Repr

/-- A response kept for a source address and TAG (R367). -/
structure Kept where
  src : Source
  tag : Nat
  at_ : Nat
  frame : List Byte
  deriving DecidableEq, Repr

/-- A request that this device relays to another member and has not answered (R370). -/
structure Relay where
  dev : Nat
  tag : Nat
  via : Via
  hdr : CasHdr
  op : Nat
  since : Nat
  frags : Sparse (List Byte)
  count : Nat
  deriving DecidableEq, Repr

/-- A drain that is running (R380): the function, and its deadline in elapsed ns and in the timebase. -/
structure Drain where
  fn : DrainFn
  deadline : Nat
  deadlineTb : Nat
  deriving DecidableEq, Repr

/-- A service operation's running part (R382, R383): its status, whether a cancel waits for the next commit point, the
arguments it began with, its phase, the units it has still to do and those it is on, and the bytes it has taken in. -/
structure Svc where
  state : Nat
  code : Nat
  progress : Nat
  cancel : Bool
  args : List Byte
  phase : Nat
  todo : List Nat
  busy : List Nat
  data : List Byte
  deriving DecidableEq, Repr

/-- What the device has sent or completed, newest first: the model's record of its outputs.
Log entries 56 (DEDUCED); 100 (DESIGN CHOICE); 104 (DESIGN CHOICE). -/
inductive Out where
  /-- An event frame to ff02::4c56 (R371). -/
  | event (frame : List Byte)
  /-- A Casaro response to a source (R366, R367). -/
  | casaro (src : Source) (frame : List Byte)
  /-- A response returned to a relaying device (R370). -/
  | relayed (dev tag : Nat) (frame : List Byte)
  /-- A completion of a host request (R40, R335, R341, R349). -/
  | completion (tag : Nat) (st : CplStatus) (data : List Byte)
  /-- A posted write to host memory; poisoned when `ep` (R345, R455). -/
  | hostWrite (addr : Nat) (data : List Byte) (ep : Bool)
  /-- A page-out's bytes on their way to the head of the pool, which writes them to host memory (R285). -/
  | headMove (addr : Nat) (data : List Byte)
  /-- A POOL message sent on a link, by kind (0 ASSIGN, 1 JOIN, 2 LOSS, 3 WITHDRAW, 4 RESET, 5 a query of the pool state,
  6 membership, 7 a JOIN refused) and its numbers (R324, R327, R330, R331, R416). -/
  | pool (link kind : Nat) (nums : List Nat)
  /-- A frame sent on a link: for each of its four lanes, the bit pairs in the order in which they leave (R302). -/
  | frame (link : Nat) (lanes : List (List Nat))
  /-- An SPDM response: its request code, its fields (R351, R486). -/
  | spdm (code : Nat) (fields : List (List Byte))
  /-- An SMBus answer; none is a NACK (R503). -/
  | smbus (data : Option (List Byte))
  /-- An AER message to the root port (R343, R350). -/
  | aer (code : Nat)
  deriving DecidableEq, Repr

/-- The Keeper. `obj` holds the numeric objects that differ from their defaults, `objB` the BYTES objects; `ring` the
last 1,024 events, newest first; `sentAt` when recent frames were sent (R372); `spotWait` since when the spot test waits for
a position, `testing` the positions that tests hold (R467). -/
structure Keeper where
  obj : Sparse Nat
  objB : Sparse (List Byte)
  ring : List Event
  eventSeq : Nat
  sentAt : List Nat
  txn : Txn
  nextTxn : Nat
  kept : List Kept
  relays : List Relay
  nextRelay : Nat
  drains : List Drain
  svcs : Sparse Svc
  cores : Sparse Nat
  classes : Sparse Nat
  spotWait : Sparse Nat
  testing : List Nat
  pack : List Byte
  frags : Sparse (List (Nat × List Byte))
  deriving DecidableEq, Repr

/-- No transaction. -/
def Txn.none : Txn :=
  { st := .none, id := 0, staged := [], activity := 0, activityTb := 0, instant := 0, holds := false,
    reply := Option.none, result := 0, timed := false }

/-- An idle service operation. -/
def Svc.idle : Svc := { state := 0, code := 0, progress := 0, cancel := false, args := [], phase := 0, todo := [], busy := [], data := [] }

/-- The Keeper at the beginning of a start: every object at its default (R358).
Log entry 97 (DESIGN CHOICE). -/
def Keeper.clear : Keeper :=
  { obj := [], objB := [], ring := [], eventSeq := 0, sentAt := [], txn := Txn.none, nextTxn := 1, kept := [],
    relays := [], nextRelay := 0, drains := [], svcs := [], cores := [], classes := [], spotWait := [],
    testing := [], pack := [], frags := [] }

end Sys2Proof.Machine
end

