-- ==== Sys2Proof/Machine/ObjTable.lean ====
section
/-! DEFINITION. The object dictionary as data: every object of R385 to R400 and of the tables of the other chapters, with
its type, access right, own range and default (R353 to R358). -/

namespace Sys2Proof.Machine

/-- The types of R354, in the order of their codes 1 to 11. -/
inductive ObjTy where
  | u8 | u16 | u32 | u64 | i32 | f32 | bool | enum | time64 | bytes | text
  deriving DecidableEq, Repr

/-- The access rights of R355, in the order of their codes 0 to 4 (R368). -/
inductive Access where
  | ro | rw | wo | rwt | rwi
  deriving DecidableEq, Repr

/-- A row of an object table: the objects `obj` to `obj + count - 1` of an area and their elements `elt` to
`elt + elts - 1`; type, access, the written values the object lists, whether it is kept in flash, default and name. -/
structure ObjRow where
  obj : Nat
  count : Nat
  elt : Nat
  elts : Nat
  ty : ObjTy
  acc : Access
  lo : Nat
  hi : Nat
  flash : Bool
  dflt : Nat
  name : String
  deriving DecidableEq, Repr

/-- Area 0x10. -/
def objArea10 : List ObjRow :=
  [ ⟨0x1, 1, 0, 1, .u64, .ro, 0, 0xffffffffffffffff, false, 0, "SERIAL"⟩,
    ⟨0x2, 1, 0, 1, .u32, .ro, 0, 0xffffffff, false, 0, "SILICON_REV"⟩,
    ⟨0x2, 1, 1, 1, .u32, .ro, 0, 0xffffffff, false, 0, "MODULE_REV"⟩,
    ⟨0x10, 1, 0, 2, .u32, .ro, 0, 0xffffffff, false, 0, "KEEPER_VERSION"⟩,
    ⟨0x10, 1, 2, 1, .enum, .ro, 0, 1, false, 0, "KEEPER_ACTIVE"⟩,
    ⟨0x11, 1, 0, 2, .u32, .ro, 0, 0xffffffff, false, 0, "FOUNTAIN_VERSION"⟩,
    ⟨0x11, 1, 2, 1, .enum, .ro, 0, 1, false, 0, "FOUNTAIN_ACTIVE"⟩,
    ⟨0x12, 1, 0, 1, .u32, .ro, 0, 0xffffffff, false, 0, "COMPAT_VERSION"⟩,
    ⟨0x12, 1, 1, 1, .bool, .ro, 0, 1, false, 0, "PAIR_LISTED"⟩,
    ⟨0x13, 1, 0, 1, .bool, .ro, 0, 1, false, 0, "UNTESTED"⟩,
    ⟨0x20, 1, 0, 1, .bytes, .ro, 0, 0, false, 0, "IDENTITY_CERT"⟩,
    ⟨0x20, 1, 1, 1, .bytes, .ro, 0, 0, false, 0, "IDENTITY_KEY"⟩ ]

/-- Area 0x14. -/
def objArea14 : List ObjRow :=
  [ ⟨0x1, 1, 0, 1, .enum, .ro, 0, 3, false, 0, "LICENCE_TIER"⟩,
    ⟨0x1, 1, 1, 1, .enum, .ro, 0, 3, false, 0, "PENDING_TIER"⟩,
    ⟨0x2, 1, 0, 1, .text, .ro, 0, 0, false, 0, "ORDERING_CODE"⟩,
    ⟨0x3, 1, 0, 3, .u32, .ro, 0, 0xffffffff, false, 0, "LICENSED_UNITS"⟩,
    ⟨0x4, 1, 0, 1, .u64, .ro, 0, 0xffffffffffffffff, false, 0, "LICENCE_SERIAL"⟩,
    ⟨0x5, 1, 0, 1, .enum, .ro, 0, 3, false, 1, "LICENCE_STATE"⟩ ]

/-- Area 0x18. -/
def objArea18 : List ObjRow :=
  [ ⟨0x1, 1, 0, 1, .u32, .ro, 0, 0xffffffff, false, 0, "CLOCK_LOCKS"⟩,
    ⟨0x2, 1, 0, 1, .enum, .rwi, 0, 2, false, 0, "ARITH_CLOCK"⟩,
    ⟨0x10, 1, 0, 1, .time64, .ro, 0, 0xffffffffffffffff, false, 0, "TIMEBASE"⟩,
    ⟨0x11, 1, 0, 1, .u64, .wo, 0, 0x44b82fa08, false, 0, "SECONDS_LOAD"⟩,
    ⟨0x12, 1, 0, 1, .enum, .ro, 0, 3, false, 0, "PPS_STATE"⟩,
    ⟨0x13, 1, 0, 1, .i32, .ro, 0, 0xffffffff, false, 0, "PPS_OFFSET"⟩,
    ⟨0x14, 1, 0, 1, .u64, .ro, 0, 0xffffffffffffffff, false, 0, "PPS_ACCEPTED"⟩,
    ⟨0x14, 1, 1, 1, .u32, .ro, 0, 0xffffffff, false, 0, "PPS_REJECTS"⟩,
    ⟨0x15, 1, 0, 1, .time64, .ro, 0, 0xffffffffffffffff, false, 0, "PPS_LAST"⟩ ]

/-- Area 0x20. -/
def objArea20 : List ObjRow :=
  [ ⟨0x1, 1, 0, 1, .u32, .ro, 0, 0xffffffff, false, 1, "DICT_VERSION"⟩,
    ⟨0x2, 1, 0, 1, .bytes, .ro, 0, 0, false, 0, "MAC_ADDRESS"⟩,
    ⟨0x3, 1, 0, 1, .u32, .ro, 0, 15, false, 0, "PLCA_NODE_ID"⟩,
    ⟨0x4, 1, 0, 1, .u32, .rw, 2, 32, true, 17, "PLCA_NODE_COUNT"⟩,
    ⟨0x5, 1, 0, 1, .u32, .rw, 1, 255, true, 32, "PLCA_TO_TIMER"⟩,
    ⟨0x7, 1, 0, 1, .u32, .rw, 1, 200, false, 50, "EVENT_RATE"⟩,
    ⟨0x8, 1, 0, 1, .u64, .ro, 0, 0xffffffffffffffff, false, 0, "FRAMES_RX"⟩,
    ⟨0x8, 1, 1, 1, .u64, .ro, 0, 0xffffffffffffffff, false, 0, "FRAMES_TX"⟩,
    ⟨0x8, 1, 2, 1, .u64, .ro, 0, 0xffffffffffffffff, false, 0, "FRAMES_BAD"⟩,
    ⟨0x9, 1, 0, 1, .u64, .ro, 0, 0xffffffffffffffff, false, 0, "CHANNEL_COLLISIONS"⟩,
    ⟨0x10, 1, 0, 1, .enum, .ro, 0, 4, false, 0, "TXN_STATE"⟩,
    ⟨0x10, 1, 1, 1, .u32, .ro, 0, 0xffffffff, false, 0, "TXN_ID"⟩,
    ⟨0x10, 1, 2, 1, .u32, .ro, 0, 1024, false, 0, "TXN_STAGED"⟩,
    ⟨0x10, 1, 3, 1, .time64, .ro, 0, 0xffffffffffffffff, false, 0, "TXN_ACTIVITY"⟩,
    ⟨0x10, 1, 4, 1, .time64, .ro, 0, 0xffffffffffffffff, false, 0, "TXN_COMMIT_AT"⟩,
    ⟨0x11, 1, 0, 1, .u32, .ro, 0, 0xffffffff, false, 0, "LAST_TXN_ID"⟩,
    ⟨0x11, 1, 1, 1, .u32, .ro, 0, 0xffffffff, false, 0, "LAST_TXN_RESULT"⟩,
    ⟨0x11, 1, 2, 1, .time64, .ro, 0, 0xffffffffffffffff, false, 0, "LAST_TXN_TIME"⟩,
    ⟨0x20, 1, 0, 1, .u32, .rw, 1, 0x2710, false, 50, "DRAIN_LIMIT"⟩,
    ⟨0x21, 1, 0, 1, .u32, .ro, 0, 0xffffffff, false, 0, "DRAINING"⟩ ] ++
  [ ⟨0x21, 1, 1, 1, .time64, .ro, 0, 0xffffffffffffffff, false, 0, "DRAIN_DEADLINE"⟩,
    ⟨0x40, 1, 0, 1, .u32, .ro, 0, 0xffffffff, false, 0, "EVENT_SEQ"⟩,
    ⟨0x41, 1, 0, 1, .u32, .rw, 0, 0xffffffff, false, 0, "EVENT_QUERY"⟩,
    ⟨0x41, 1, 1, 1, .bytes, .ro, 0, 0, false, 0, "EVENT_RECORD"⟩,
    ⟨0x42, 1, 0, 1, .u64, .ro, 0, 0xffffffffffffffff, false, 0, "EVENTS_UNSENT"⟩ ]

/-- Area 0x24. -/
def objArea24 : List ObjRow :=
  [ ⟨0x1, 7, 0, 1, .bytes, .rw, 0, 0, false, 0, "SVC_ARGS"⟩,
    ⟨0x1, 7, 1, 1, .bool, .wo, 0, 1, false, 0, "SVC_GO"⟩,
    ⟨0x1, 7, 2, 1, .bool, .wo, 0, 1, false, 0, "SVC_CANCEL"⟩,
    ⟨0x1, 7, 3, 1, .u64, .ro, 0, 0xffffffffffffffff, false, 0, "SVC_STATUS"⟩,
    ⟨0x1, 7, 4, 1, .bytes, .ro, 0, 0, false, 0, "SVC_RESULT"⟩,
    ⟨0x1, 7, 5, 1, .time64, .ro, 0, 0xffffffffffffffff, false, 0, "SVC_STARTED"⟩,
    ⟨0x1, 7, 6, 1, .time64, .ro, 0, 0xffffffffffffffff, false, 0, "SVC_ENDED"⟩ ]

/-- Area 0x28. -/
def objArea28 : List ObjRow :=
  [ ⟨0x1, 1, 0, 1, .f32, .ro, 0, 0xffffffff, false, 0, "INPUT_VOLTAGE"⟩,
    ⟨0x1, 1, 1, 1, .f32, .ro, 0, 0xffffffff, false, 0, "INPUT_CURRENT"⟩,
    ⟨0x1, 1, 2, 1, .f32, .ro, 0, 0xffffffff, false, 0, "INPUT_POWER"⟩,
    ⟨0x2, 1, 0, 1, .u32, .rw, 1000, 3600, false, 3600, "POWER_LIMIT"⟩,
    ⟨0x3, 1, 0, 1, .bool, .wo, 0, 1, false, 0, "MIN_RESET"⟩,
    ⟨0x4, 1, 0, 1, .u32, .ro, 0, 0xffffffff, false, 0, "CRACK_SUSPECTS"⟩,
    ⟨0x4, 1, 1, 1, .u32, .ro, 0, 0xffffffff, false, 0xffffffff, "CRACK_LAST_POINT"⟩,
    ⟨0x4, 1, 2, 1, .time64, .ro, 0, 0xffffffffffffffff, false, 0, "CRACK_LAST_TIME"⟩,
    ⟨0x20, 7, 0, 1, .f32, .ro, 0, 0xffffffff, false, 0, "RAIL_VOLTAGE"⟩,
    ⟨0x20, 7, 1, 1, .f32, .ro, 0, 0xffffffff, false, 0, "RAIL_MIN"⟩,
    ⟨0x20, 7, 2, 1, .time64, .ro, 0, 0xffffffffffffffff, false, 0, "RAIL_MIN_TIME"⟩,
    ⟨0x20, 7, 3, 1, .f32, .ro, 0, 0xffffffff, false, 0, "RAIL_CURRENT"⟩,
    ⟨0x100, 192, 0, 1, .enum, .ro, 0, 2, false, 0, "CLUSTER_STATE"⟩,
    ⟨0x100, 192, 1, 1, .u8, .ro, 0, 255, false, 0, "FAILED_MASK"⟩,
    ⟨0x100, 192, 2, 1, .f32, .ro, 0, 0xffffffff, false, 0, "CLUSTER_CURRENT"⟩,
    ⟨0x100, 192, 3, 1, .f32, .ro, 0, 0xffffffff, false, 0, "CLUSTER_MIN"⟩,
    ⟨0x100, 192, 4, 1, .time64, .ro, 0, 0xffffffffffffffff, false, 0, "CLUSTER_MIN_TIME"⟩,
    ⟨0x200, 34, 0, 1, .enum, .ro, 0, 2, false, 0, "REGION_STATE"⟩ ]

/-- Area 0x2C. -/
def objArea2C : List ObjRow :=
  [ ⟨0x1, 1, 0, 1, .u32, .ro, 0, 3, false, 0, "THROTTLE_STEP"⟩,
    ⟨0x1, 1, 1, 1, .enum, .ro, 0, 4, false, 0, "THROTTLE_CAUSE"⟩,
    ⟨0x1, 1, 2, 1, .u64, .ro, 0, 0xffffffffffffffff, false, 0, "THROTTLE_TIME"⟩,
    ⟨0x10, 1, 0, 1, .f32, .ro, 0, 0xffffffff, false, 0x42be0000, "TEMP_LIMITS"⟩,
    ⟨0x10, 1, 1, 1, .f32, .ro, 0, 0xffffffff, false, 0x42c80000, "TEMP_LIMITS"⟩,
    ⟨0x10, 1, 2, 1, .f32, .ro, 0, 0xffffffff, false, 0x42dc0000, "TEMP_LIMITS"⟩,
    ⟨0x11, 1, 0, 1, .f32, .ro, 0, 0xffffffff, false, 0x40c00000, "RISE_LIMITS"⟩,
    ⟨0x11, 1, 1, 1, .f32, .ro, 0, 0xffffffff, false, 0x41700000, "RISE_LIMITS"⟩,
    ⟨0x12, 1, 0, 1, .u32, .ro, 0, 0xffffffff, false, 0, "HOTTEST"⟩,
    ⟨0x1000, 1152, 0, 1, .f32, .ro, 0, 0xffffffff, false, 0, "TEMP"⟩,
    ⟨0x1000, 544, 1, 1, .enum, .ro, 0, 1, false, 0, "SENSOR_CLASS"⟩,
    ⟨0x1220, 192, 1, 1, .enum, .ro, 0, 1, false, 1, "SENSOR_CLASS"⟩,
    ⟨0x12e0, 164, 1, 1, .enum, .ro, 0, 1, false, 0, "SENSOR_CLASS"⟩,
    ⟨0x1384, 252, 1, 1, .enum, .ro, 0, 1, false, 1, "SENSOR_CLASS"⟩,
    ⟨0x1000, 1152, 2, 1, .enum, .ro, 0, 5, false, 0, "SENSOR_STATE"⟩,
    ⟨0x1000, 1152, 3, 1, .f32, .ro, 0, 0xffffffff, false, 0, "TEMP_PEAK"⟩,
    ⟨0x1000, 1152, 4, 1, .f32, .ro, 0, 0xffffffff, false, 0, "RISE_5MS"⟩,
    ⟨0x2000, 256, 0, 1, .f32, .ro, 0, 0xffffffff, false, 0, "TEMP"⟩,
    ⟨0x2000, 256, 1, 1, .enum, .ro, 0, 1, false, 1, "SENSOR_CLASS"⟩,
    ⟨0x2000, 256, 2, 1, .enum, .ro, 0, 5, false, 0, "SENSOR_STATE"⟩ ] ++
  [ ⟨0x2000, 256, 3, 1, .f32, .ro, 0, 0xffffffff, false, 0, "TEMP_PEAK"⟩,
    ⟨0x2000, 256, 4, 1, .f32, .ro, 0, 0xffffffff, false, 0, "RISE_5MS"⟩ ]

/-- Area 0x30. -/
def objArea30 : List ObjRow :=
  [ ⟨0x10, 1, 0, 1, .u32, .ro, 0, 0x4000, false, 0x4000, "INTAKE_CREDIT"⟩,
    ⟨0x11, 1, 0, 1, .u64, .ro, 0, 0xffffffffffffffff, false, 0, "INTAKE_DROPS"⟩,
    ⟨0x12, 1, 0, 1, .u32, .rw, 0, 0xffffffff, false, 0, "INTAKE_ERROR"⟩,
    ⟨0x13, 1, 0, 1, .time64, .ro, 0, 0xffffffffffffffff, false, 0, "DROP_TIME"⟩,
    ⟨0x14, 1, 0, 1, .u32, .ro, 0, 0xffffffff, false, 0, "DROP_OFFSET"⟩,
    ⟨0x20, 1, 0, 1, .u32, .rwi, 1024, 0xfc00, false, 0xc000, "HOST_SLOTS"⟩,
    ⟨0x21, 1, 0, 1, .u32, .rw, 1, 4096, false, 256, "STAGE_AHEAD"⟩,
    ⟨0x30, 1, 0, 8, .u32, .rw, 0, 0xffffffff, false, 100, "AGE_LIMIT"⟩,
    ⟨0x32, 1, 0, 8, .bool, .rwt, 0, 1, false, 1, "CLASS_ENABLE"⟩,
    ⟨0x33, 1, 0, 8, .enum, .ro, 0, 2, false, 0, "CLASS_STATE"⟩,
    ⟨0x50, 1, 0, 1, .u32, .ro, 0, 0xffffffff, false, 0x10000, "SLOTS_IN_STATE"⟩,
    ⟨0x50, 1, 1, 7, .u32, .ro, 0, 0xffffffff, false, 0, "SLOTS_IN_STATE"⟩,
    ⟨0x51, 1, 0, 1, .u32, .ro, 0, 0xffffffff, false, 0x4000, "FREE_SPAWN"⟩,
    ⟨0x60, 1, 0, 1, .u64, .ro, 0, 0xffffffffffffffff, false, 0, "TASKS_DONE"⟩,
    ⟨0x60, 1, 1, 1, .u64, .ro, 0, 0xffffffffffffffff, false, 0, "TASKS_FAULTED"⟩,
    ⟨0x60, 1, 2, 1, .u64, .ro, 0, 0xffffffffffffffff, false, 0, "TASKS_REPLAYED"⟩ ]

/-- Area 0x31. -/
def objArea31 : List ObjRow :=
  [ ⟨0x0, 32768, 0, 1, .u32, .ro, 0, 0xffffffff, false, 0, "COUNTER_VALUE"⟩,
    ⟨0x0, 32768, 1, 1, .bool, .ro, 0, 1, false, 0, "COUNTER_POISON"⟩ ]

/-- Area 0x34. -/
def objArea34 : List ObjRow :=
  [ ⟨0x1, 1, 0, 1, .bool, .wo, 0, 1, false, 0, "SNAPSHOT"⟩,
    ⟨0x1, 1, 1, 1, .time64, .rw, 0, 0xffffffffffffffff, false, 0, "SNAPSHOT_AT"⟩,
    ⟨0x1, 1, 2, 1, .time64, .ro, 0, 0xffffffffffffffff, false, 0, "SNAP_TIME"⟩,
    ⟨0x10, 1, 0, 1, .u64, .ro, 0, 0xffffffffffffffff, false, 0, "TIMING_CHOICES"⟩,
    ⟨0x10, 1, 1, 1, .u64, .ro, 0, 0xffffffffffffffff, false, 0, "ROUTE_CHOICES"⟩,
    ⟨0x10, 1, 2, 1, .u64, .ro, 0, 0xffffffffffffffff, false, 0, "REDUCE_ARBITRATIONS"⟩,
    ⟨0x10, 1, 3, 1, .u64, .ro, 0, 0xffffffffffffffff, false, 0, "SCHED_TIEBREAKS"⟩,
    ⟨0x11, 1, 0, 1, .u64, .ro, 0, 0xffffffffffffffff, false, 0, "CHOICES_SNAP"⟩,
    ⟨0x100, 8, 0, 1, .u32, .rw, 1, 512, false, 512, "OUTSTANDING_LIMIT"⟩,
    ⟨0x110, 8, 0, 1, .u32, .rw, 1, 64, false, 64, "OUTSTANDING_LIMIT"⟩,
    ⟨0x120, 8, 0, 1, .u32, .rw, 1, 4096, false, 4096, "OUTSTANDING_LIMIT"⟩,
    ⟨0x130, 8, 0, 1, .u32, .rw, 1, 256, false, 256, "OUTSTANDING_LIMIT"⟩,
    ⟨0x140, 8, 0, 1, .u32, .rw, 1, 768, false, 768, "OUTSTANDING_LIMIT"⟩,
    ⟨0x100, 8, 1, 1, .u64, .ro, 0, 0xffffffffffffffff, false, 0, "BYTES"⟩,
    ⟨0x110, 8, 1, 1, .u64, .ro, 0, 0xffffffffffffffff, false, 0, "BYTES"⟩,
    ⟨0x120, 8, 1, 1, .u64, .ro, 0, 0xffffffffffffffff, false, 0, "BYTES"⟩,
    ⟨0x130, 8, 1, 1, .u64, .ro, 0, 0xffffffffffffffff, false, 0, "BYTES"⟩,
    ⟨0x140, 8, 1, 1, .u64, .ro, 0, 0xffffffffffffffff, false, 0, "BYTES"⟩,
    ⟨0x100, 8, 2, 1, .u64, .ro, 0, 0xffffffffffffffff, false, 0, "BYTES_SNAP"⟩,
    ⟨0x110, 8, 2, 1, .u64, .ro, 0, 0xffffffffffffffff, false, 0, "BYTES_SNAP"⟩ ] ++
  [ ⟨0x120, 8, 2, 1, .u64, .ro, 0, 0xffffffffffffffff, false, 0, "BYTES_SNAP"⟩,
    ⟨0x130, 8, 2, 1, .u64, .ro, 0, 0xffffffffffffffff, false, 0, "BYTES_SNAP"⟩,
    ⟨0x140, 8, 2, 1, .u64, .ro, 0, 0xffffffffffffffff, false, 0, "BYTES_SNAP"⟩,
    ⟨0x100, 8, 3, 1, .u64, .ro, 0, 0xffffffffffffffff, false, 0, "LIMIT_HOLDS"⟩,
    ⟨0x110, 8, 3, 1, .u64, .ro, 0, 0xffffffffffffffff, false, 0, "LIMIT_HOLDS"⟩,
    ⟨0x120, 8, 3, 1, .u64, .ro, 0, 0xffffffffffffffff, false, 0, "LIMIT_HOLDS"⟩,
    ⟨0x130, 8, 3, 1, .u64, .ro, 0, 0xffffffffffffffff, false, 0, "LIMIT_HOLDS"⟩,
    ⟨0x140, 8, 3, 1, .u64, .ro, 0, 0xffffffffffffffff, false, 0, "LIMIT_HOLDS"⟩ ]

/-- Area 0x38. -/
def objArea38 : List ObjRow :=
  [ ⟨0x1, 1, 0, 1, .u64, .ro, 0, 0xffffffffffffffff, false, 0, "ERRORS"⟩,
    ⟨0x2, 1, 0, 1, .u64, .ro, 0, 0xffffffffffffffff, false, 0, "CLEAN_RECOVERIES"⟩,
    ⟨0x3, 1, 0, 1, .u64, .ro, 0, 0xffffffffffffffff, false, 0, "UNRECOVERED"⟩,
    ⟨0x4, 1, 0, 1, .u32, .ro, 0, 0xffffffff, false, 0, "SIGNATURES"⟩,
    ⟨0x1010, 7, 0, 1, .u32, .ro, 0, 0xffffffff, false, 0, "CODE_COUNT"⟩,
    ⟨0x1018, 4, 0, 1, .u32, .ro, 0, 0xffffffff, false, 0, "CODE_COUNT"⟩,
    ⟨0x1020, 11, 0, 1, .u32, .ro, 0, 0xffffffff, false, 0, "CODE_COUNT"⟩,
    ⟨0x1030, 3, 0, 1, .u32, .ro, 0, 0xffffffff, false, 0, "CODE_COUNT"⟩,
    ⟨0x1038, 2, 0, 1, .u32, .ro, 0, 0xffffffff, false, 0, "CODE_COUNT"⟩,
    ⟨0x1040, 9, 0, 1, .u32, .ro, 0, 0xffffffff, false, 0, "CODE_COUNT"⟩,
    ⟨0x1050, 10, 0, 1, .u32, .ro, 0, 0xffffffff, false, 0, "CODE_COUNT"⟩,
    ⟨0x1060, 11, 0, 1, .u32, .ro, 0, 0xffffffff, false, 0, "CODE_COUNT"⟩,
    ⟨0x1070, 2, 0, 1, .u32, .ro, 0, 0xffffffff, false, 0, "CODE_COUNT"⟩,
    ⟨0x1078, 6, 0, 1, .u32, .ro, 0, 0xffffffff, false, 0, "CODE_COUNT"⟩,
    ⟨0x1080, 23, 0, 1, .u32, .ro, 0, 0xffffffff, false, 0, "CODE_COUNT"⟩,
    ⟨0x10a0, 15, 0, 1, .u32, .ro, 0, 0xffffffff, false, 0, "CODE_COUNT"⟩,
    ⟨0x10c0, 10, 0, 1, .u32, .ro, 0, 0xffffffff, false, 0, "CODE_COUNT"⟩,
    ⟨0x10d0, 2, 0, 1, .u32, .ro, 0, 0xffffffff, false, 0, "CODE_COUNT"⟩,
    ⟨0x10e0, 3, 0, 1, .u32, .ro, 0, 0xffffffff, false, 0, "CODE_COUNT"⟩,
    ⟨0x1010, 7, 1, 1, .time64, .ro, 0, 0xffffffffffffffff, false, 0, "CODE_LAST"⟩ ] ++
  [ ⟨0x1018, 4, 1, 1, .time64, .ro, 0, 0xffffffffffffffff, false, 0, "CODE_LAST"⟩,
    ⟨0x1020, 11, 1, 1, .time64, .ro, 0, 0xffffffffffffffff, false, 0, "CODE_LAST"⟩,
    ⟨0x1030, 3, 1, 1, .time64, .ro, 0, 0xffffffffffffffff, false, 0, "CODE_LAST"⟩,
    ⟨0x1038, 2, 1, 1, .time64, .ro, 0, 0xffffffffffffffff, false, 0, "CODE_LAST"⟩,
    ⟨0x1040, 9, 1, 1, .time64, .ro, 0, 0xffffffffffffffff, false, 0, "CODE_LAST"⟩,
    ⟨0x1050, 10, 1, 1, .time64, .ro, 0, 0xffffffffffffffff, false, 0, "CODE_LAST"⟩,
    ⟨0x1060, 11, 1, 1, .time64, .ro, 0, 0xffffffffffffffff, false, 0, "CODE_LAST"⟩,
    ⟨0x1070, 2, 1, 1, .time64, .ro, 0, 0xffffffffffffffff, false, 0, "CODE_LAST"⟩,
    ⟨0x1078, 6, 1, 1, .time64, .ro, 0, 0xffffffffffffffff, false, 0, "CODE_LAST"⟩,
    ⟨0x1080, 23, 1, 1, .time64, .ro, 0, 0xffffffffffffffff, false, 0, "CODE_LAST"⟩,
    ⟨0x10a0, 15, 1, 1, .time64, .ro, 0, 0xffffffffffffffff, false, 0, "CODE_LAST"⟩,
    ⟨0x10c0, 10, 1, 1, .time64, .ro, 0, 0xffffffffffffffff, false, 0, "CODE_LAST"⟩,
    ⟨0x10d0, 2, 1, 1, .time64, .ro, 0, 0xffffffffffffffff, false, 0, "CODE_LAST"⟩,
    ⟨0x10e0, 3, 1, 1, .time64, .ro, 0, 0xffffffffffffffff, false, 0, "CODE_LAST"⟩ ]

/-- Area 0x3C. -/
def objArea3C : List ObjRow :=
  [ ⟨0x1, 1, 0, 1, .u32, .ro, 0, 0xffffffff, true, 0, "PACK_ID"⟩,
    ⟨0x1, 1, 1, 1, .time64, .ro, 0, 0xffffffffffffffff, false, 0, "PACK_TIME"⟩,
    ⟨0x2, 1, 0, 1, .u32, .ro, 0, 0xffffffff, false, 0, "LAST_TESTED"⟩,
    ⟨0x2, 1, 1, 1, .u32, .ro, 0, 0xffffffff, false, 0, "LAST_FAILED"⟩,
    ⟨0x3, 1, 0, 1, .u32, .ro, 0, 0xffffffff, false, 0, "RETIRED_BY_TEST"⟩,
    ⟨0x1000, 544, 0, 1, .enum, .ro, 0, 2, false, 0, "TEST_RESULT"⟩,
    ⟨0x1000, 544, 1, 1, .time64, .ro, 0, 0xffffffffffffffff, false, 0, "TEST_TIME"⟩ ]

/-- Area 0x40. -/
def objArea40 : List ObjRow :=
  [ ⟨0x1, 1, 0, 1, .u32, .ro, 0, 0xffffffff, false, 0, "ENABLED_CORES"⟩,
    ⟨0x1, 1, 1, 1, .u32, .ro, 0, 0xffffffff, false, 0, "RETIRED_CORES"⟩,
    ⟨0x1, 1, 2, 1, .u32, .ro, 0, 0xffffffff, false, 0, "SHORTFALL"⟩,
    ⟨0x1000, 544, 0, 1, .bool, .rwt, 0, 1, false, 1, "CORE_ENABLE"⟩,
    ⟨0x1000, 544, 1, 1, .enum, .ro, 0, 4, false, 0, "CORE_STATE"⟩,
    ⟨0x1000, 544, 2, 1, .u32, .ro, 0, 0xffffffff, false, 0xffffffff, "LOGICAL"⟩,
    ⟨0x1000, 544, 3, 1, .u32, .ro, 0, 512, false, 0, "SPARES_USED"⟩,
    ⟨0x1000, 544, 4, 1, .u64, .ro, 0, 0xffffffffffffffff, false, 0, "GROUPS_PLACED"⟩,
    ⟨0x1000, 544, 5, 1, .u64, .ro, 0, 0xffffffffffffffff, false, 0, "ISSUE_CYCLES"⟩,
    ⟨0x1000, 544, 6, 1, .u64, .ro, 0, 0xffffffffffffffff, false, 0, "ARRAY_CYCLES"⟩ ]

/-- Area 0x44. -/
def objArea44 : List ObjRow :=
  [ ⟨0x1, 1, 0, 1, .u32, .rwi, 0, 32, false, 8, "BASIN_SLUICE_FRAMES"⟩,
    ⟨0x10, 1, 0, 1, .u32, .rw, 256, 0x10000, false, 1024, "SCRUB_INTERVAL"⟩,
    ⟨0x1000, 544, 0, 1, .u32, .ro, 0, 0xffffffff, false, 0, "SCRUB_FAILS"⟩,
    ⟨0x1000, 544, 1, 1, .u64, .ro, 0, 0xffffffffffffffff, false, 0, "SCRUB_LAST_ADDR"⟩,
    ⟨0x1000, 544, 2, 1, .time64, .ro, 0, 0xffffffffffffffff, false, 0, "SCRUB_LAST_TIME"⟩,
    ⟨0x1000, 544, 3, 1, .u32, .ro, 0, 0xffffffff, false, 0, "SCRUB_TRANSIENTS"⟩,
    ⟨0x1000, 544, 4, 1, .u32, .ro, 0, 0xffffffff, false, 0, "SCRUB_PASSES"⟩,
    ⟨0x1000, 544, 5, 1, .u64, .ro, 0, 0xffffffffffffffff, false, 0, "WALK_MISSES"⟩,
    ⟨0x1000, 544, 6, 1, .u64, .ro, 0, 0xffffffffffffffff, false, 0, "LXU_BUSY"⟩,
    ⟨0x1000, 544, 7, 1, .u64, .ro, 0, 0xffffffffffffffff, false, 0, "LYT_BUSY"⟩ ]

/-- Area 0x48. -/
def objArea48 : List ObjRow :=
  [ ⟨0x1, 1, 0, 2, .u32, .rwt, 1, 16, false, 1, "PIN_WAYS"⟩,
    ⟨0x2, 1, 0, 2, .u32, .rwt, 0, 0xffffffff, false, 0, "POOL_PAGES"⟩,
    ⟨0x3, 1, 0, 2, .u64, .ro, 0, 0xffffffffffffffff, false, 0, "WINDOW_BYTES"⟩,
    ⟨0x10, 1, 0, 1, .u32, .rw, 100, 0x186a0, false, 1000, "THRASH_WINDOW"⟩,
    ⟨0x11, 1, 0, 1, .u32, .rw, 0, 0xffffffff, false, 0x40000, "THRASH_LIMIT"⟩,
    ⟨0x20, 1, 0, 1, .u32, .ro, 0, 0xffffffff, false, 0, "PIN_EPOCH"⟩,
    ⟨0x40, 1, 0, 1, .u64, .ro, 0, 0xffffffffffffffff, false, 0, "SILL_RETRIES"⟩,
    ⟨0x41, 1, 0, 2, .u64, .ro, 0, 0xffffffffffffffff, false, 0, "SILL_BYTES"⟩,
    ⟨0x1000, 128, 0, 1, .u64, .ro, 0, 0xffffffffffffffff, false, 0, "HITS"⟩,
    ⟨0x1000, 128, 1, 1, .u64, .ro, 0, 0xffffffffffffffff, false, 0, "MISSES"⟩,
    ⟨0x1000, 128, 2, 1, .u64, .ro, 0, 0xffffffffffffffff, false, 0, "MERGES"⟩,
    ⟨0x1000, 128, 3, 1, .u32, .ro, 0, 256, false, 0, "MR_IN_USE"⟩,
    ⟨0x1000, 128, 4, 1, .u32, .ro, 0, 0xffffffff, false, 0, "MR_PEAK"⟩,
    ⟨0x1000, 128, 5, 1, .u64, .ro, 0, 0xffffffffffffffff, false, 0, "MR_FULL_HOLDS"⟩,
    ⟨0x1000, 128, 6, 1, .u64, .ro, 0, 0xffffffffffffffff, false, 0, "REFETCHES"⟩,
    ⟨0x1000, 128, 7, 1, .bool, .rw, 0, 1, false, 0, "THRASH_FLAG"⟩,
    ⟨0x1000, 128, 8, 1, .u64, .ro, 0, 0xffffffffffffffff, false, 0, "FILL_WAITS"⟩,
    ⟨0x1000, 128, 9, 1, .u64, .ro, 0, 0xffffffffffffffff, false, 0, "REDUCE_FORCED"⟩,
    ⟨0x1000, 128, 10, 1, .u64, .ro, 0, 0xffffffffffffffff, false, 0, "REDUCE_ENTRIES"⟩,
    ⟨0x1000, 128, 11, 1, .u64, .ro, 0, 0xffffffffffffffff, false, 0, "WRITEBACKS"⟩ ] ++
  [ ⟨0x1000, 128, 12, 1, .u32, .ro, 0, 0xffffffff, false, 0, "CLEAN_REFETCH"⟩,
    ⟨0x1000, 128, 13, 1, .enum, .ro, 0, 2, false, 0, "PORT_STATE"⟩ ]

/-- Area 0x4C. -/
def objArea4C : List ObjRow :=
  [ ⟨0x1, 1, 0, 1, .u64, .ro, 0, 0xffffffffffffffff, false, 0, "MAPPED_TOP"⟩,
    ⟨0x2, 1, 0, 2, .u32, .ro, 0, 0xffffffff, false, 0, "HALF_STACKS"⟩,
    ⟨0x3, 1, 0, 1, .bool, .rw, 0, 1, true, 0, "FULL_TRAIN"⟩,
    ⟨0x1000, 8, 0, 1, .enum, .ro, 0, 3, false, 0, "STACK_STATE"⟩,
    ⟨0x1000, 8, 1, 1, .f32, .ro, 0, 0xffffffff, false, 0, "STACK_TEMP"⟩,
    ⟨0x1000, 8, 2, 1, .enum, .ro, 0, 1, false, 0, "REFRESH_MODE"⟩,
    ⟨0x1000, 8, 3, 1, .u64, .ro, 0, 0xffffffffffffffff, false, 0, "CORRECTED"⟩,
    ⟨0x1000, 8, 4, 1, .u64, .ro, 0, 0xffffffffffffffff, false, 0, "UNCORRECTABLE"⟩,
    ⟨0x1000, 8, 5, 1, .u64, .ro, 0, 0xffffffffffffffff, false, 0, "CHANNEL_RETRIES"⟩,
    ⟨0x1000, 8, 6, 1, .u32, .ro, 0, 0xffffffff, false, 0, "RETRAINS"⟩,
    ⟨0x1000, 8, 7, 1, .u64, .ro, 0, 0xffffffffffffffff, false, 0, "BYTES_READ"⟩,
    ⟨0x1000, 8, 8, 1, .u64, .ro, 0, 0xffffffffffffffff, false, 0, "BYTES_WRITTEN"⟩,
    ⟨0x1000, 8, 9, 1, .u64, .ro, 0, 0xffffffffffffffff, false, 0, "ROW_HITS"⟩,
    ⟨0x1000, 8, 10, 1, .u64, .ro, 0, 0xffffffffffffffff, false, 0, "REFRESH_WAITS"⟩,
    ⟨0x1000, 8, 11, 1, .u32, .ro, 0, 0xffffffff, false, 0, "TRAIN_MARGIN"⟩,
    ⟨0x1000, 8, 12, 1, .time64, .ro, 0, 0xffffffffffffffff, false, 0, "TRAIN_TIME"⟩,
    ⟨0x1000, 8, 13, 1, .u32, .ro, 0, 0xffffffff, false, 0xffffffff, "FAILED_CHANNEL"⟩ ]

/-- Area 0x50. -/
def objArea50 : List ObjRow :=
  [ ⟨0x1, 1, 0, 2, .u32, .rwi, 0, 0xffffffff, true, 0xffffffff, "OPEN_PAGES"⟩,
    ⟨0x2, 1, 0, 2, .u32, .rwi, 0, 0xffffffff, true, 0xffffffff, "BUFFER_PAGES"⟩,
    ⟨0x3, 1, 0, 2, .u32, .ro, 0, 0xffffffff, false, 0, "SEQ_ZONE_PAGES"⟩,
    ⟨0x10, 1, 0, 1, .u64, .rwi, 0, 0xffffffffffffffff, false, 0, "HOST_POOL_BASE"⟩,
    ⟨0x11, 1, 0, 1, .u32, .rwi, 0, 0x400000, false, 0, "HOST_POOL_PAGES"⟩,
    ⟨0x12, 1, 0, 1, .u32, .rw, 1, 16, false, 8, "HOST_MOVES"⟩,
    ⟨0x13, 1, 0, 1, .u32, .rw, 0, 0xffffffff, false, 0x4000, "PAGEOUT_LOW"⟩,
    ⟨0x14, 1, 0, 1, .u32, .rw, 0, 0xffffffff, false, 0x8000, "PAGEOUT_HIGH"⟩,
    ⟨0x20, 1, 0, 1, .u32, .rw, 0, 0x4000, false, 1024, "HOST_AHEAD"⟩,
    ⟨0x21, 1, 0, 2, .u32, .rw, 0, 0x4000, false, 2048, "HOLD_PAGES"⟩,
    ⟨0x22, 1, 0, 1, .u32, .rw, 0, 0xffffffff, false, 4096, "PROMOTE_SECTORS"⟩,
    ⟨0x23, 1, 0, 1, .u32, .rw, 1, 0x2710, false, 10, "STARVE_LIMIT"⟩,
    ⟨0x30, 1, 0, 1, .u32, .wo, 0, 0xffffffff, false, 0, "SEQ_RELEASE"⟩,
    ⟨0x31, 1, 0, 1, .u32, .rw, 0, 0xffffffff, false, 0, "SEQ_QUERY"⟩,
    ⟨0x31, 1, 1, 1, .enum, .ro, 0, 2, false, 0, "SEQ_STATE"⟩,
    ⟨0x31, 1, 2, 1, .u32, .ro, 0, 0xffffffff, false, 0, "SEQ_LENGTH"⟩,
    ⟨0x31, 1, 3, 1, .u32, .ro, 0, 0xffffffff, false, 0, "SEQ_WRITE_FROM"⟩,
    ⟨0x31, 1, 4, 1, .u32, .ro, 0, 0xffffffff, false, 0, "SEQ_PAGE_COUNT"⟩,
    ⟨0x31, 1, 5, 1, .u32, .ro, 0, 0xffffffff, false, 0, "SEQ_HOST_PAGES"⟩,
    ⟨0x31, 1, 6, 1, .enum, .ro, 0, 1, false, 0, "SEQ_HALF"⟩ ] ++
  [ ⟨0x40, 1, 0, 1, .u32, .ro, 0, 0xffffffff, false, 0, "SEQ_ACTIVE"⟩,
    ⟨0x41, 1, 0, 2, .u32, .ro, 0, 0xffffffff, false, 0, "FREE_SEQ_PAGES"⟩,
    ⟨0x42, 1, 0, 2, .u32, .ro, 0, 0xffffffff, false, 0, "FREE_BUFFER_PAGES"⟩,
    ⟨0x43, 1, 0, 2, .u32, .ro, 0, 0xffffffff, false, 0, "FREE_POOL_PAGES"⟩,
    ⟨0x44, 1, 0, 1, .u32, .ro, 0, 0xffffffff, false, 0x30000, "FREE_DIRECTORIES"⟩,
    ⟨0x44, 1, 1, 1, .u32, .ro, 0, 0xffffffff, false, 0x30000, "FREE_CHAIN_BLOCKS"⟩,
    ⟨0x45, 1, 0, 1, .u32, .ro, 0, 0xffffffff, false, 0, "HOST_FREE_PAGES"⟩,
    ⟨0x50, 1, 0, 1, .u64, .ro, 0, 0xffffffffffffffff, false, 0, "STAGED"⟩,
    ⟨0x50, 1, 1, 1, .u64, .ro, 0, 0xffffffffffffffff, false, 0, "DEFERRALS"⟩,
    ⟨0x50, 1, 2, 1, .u64, .ro, 0, 0xffffffffffffffff, false, 0, "REFUSALS"⟩,
    ⟨0x50, 1, 3, 1, .u64, .ro, 0, 0xffffffffffffffff, false, 0, "FREE_MISSES"⟩,
    ⟨0x51, 1, 0, 1, .u64, .ro, 0, 0xffffffffffffffff, false, 0, "FAULTS_BASIN"⟩,
    ⟨0x51, 1, 1, 1, .u64, .ro, 0, 0xffffffffffffffff, false, 0, "FAULTS_RESERVOIR"⟩,
    ⟨0x51, 1, 2, 1, .u64, .ro, 0, 0xffffffffffffffff, false, 0, "FAULTS_HOST"⟩,
    ⟨0x52, 1, 0, 1, .u64, .ro, 0, 0xffffffffffffffff, false, 0, "HOST_BYTES_IN"⟩,
    ⟨0x52, 1, 1, 1, .u64, .ro, 0, 0xffffffffffffffff, false, 0, "HOST_BYTES_OUT"⟩,
    ⟨0x53, 1, 0, 1, .u64, .ro, 0, 0xffffffffffffffff, false, 0, "PROMOTIONS"⟩,
    ⟨0x53, 1, 1, 1, .u64, .ro, 0, 0xffffffffffffffff, false, 0, "PAGEOUT_CANCELS"⟩,
    ⟨0x53, 1, 2, 1, .u64, .ro, 0, 0xffffffffffffffff, false, 0, "HOST_RECOVERIES"⟩,
    ⟨0x200, 16, 0, 1, .u32, .rwi, 1, 0x10000, false, 64, "TOKENS_PER_PAGE"⟩ ] ++
  [ ⟨0x200, 16, 1, 1, .u32, .rwi, 1, 256, false, 1, "PAGES_PER_STEP"⟩ ]

/-- Area 0x58. -/
def objArea58 : List ObjRow :=
  [ ⟨0x1, 1, 0, 1, .enum, .rwi, 0, 3, true, 0, "POOL_SHAPE"⟩,
    ⟨0x2, 1, 0, 1, .u64, .rwt, 0, 0xffffffffffffffff, false, 0, "POOL_MEMBERS"⟩,
    ⟨0x3, 1, 0, 1, .enum, .ro, 0, 4, false, 0, "POOL_STATE"⟩,
    ⟨0x4, 1, 0, 1, .u32, .ro, 0, 0xffffffff, false, 0, "DEVICE_NUMBER"⟩,
    ⟨0x5, 1, 0, 3, .u32, .ro, 0, 0xffffffff, false, 0, "COORD"⟩,
    ⟨0x6, 1, 0, 1, .bool, .ro, 0, 1, false, 0, "IS_HEAD"⟩,
    ⟨0x7, 1, 0, 1, .u32, .ro, 0, 0xffffffff, false, 0xffffffff, "BROKEN_PAIR"⟩,
    ⟨0x8, 1, 0, 1, .time64, .ro, 0, 0xffffffffffffffff, false, 0, "BROKEN_TIME"⟩,
    ⟨0x10, 1, 0, 1, .u32, .rw, 1, 0x2710, false, 10, "PEER_TIMEOUT"⟩,
    ⟨0x11, 1, 0, 1, .u32, .rw, 0, 255, false, 16, "SILL_PENALTY"⟩,
    ⟨0x12, 1, 0, 1, .u32, .rw, 0, 7, false, 7, "HOST_CLASS"⟩,
    ⟨0x13, 1, 0, 1, .u64, .ro, 0, 0xffffffffffffffff, false, 0, "PROTOCOL_ERRORS"⟩,
    ⟨0x1000, 36, 0, 1, .enum, .ro, 0, 7, false, 0, "LINK_STATE"⟩,
    ⟨0x1000, 36, 1, 1, .bool, .rwt, 0, 1, false, 1, "LINK_ENABLE"⟩,
    ⟨0x1000, 36, 2, 1, .u32, .ro, 0, 0xffffffff, false, 0xffffffff, "PEER_DEVICE"⟩,
    ⟨0x1000, 36, 3, 1, .u32, .ro, 0, 0xffffffff, false, 0xffffffff, "PEER_LINK"⟩,
    ⟨0x1000, 36, 4, 1, .u64, .ro, 0, 0xffffffffffffffff, false, 0, "FEC_CORRECTED"⟩,
    ⟨0x1000, 36, 5, 1, .u64, .ro, 0, 0xffffffffffffffff, false, 0, "FLIT_RETRIES"⟩,
    ⟨0x1000, 36, 6, 1, .u32, .ro, 0, 0xffffffff, false, 0, "RETRAINS"⟩,
    ⟨0x1000, 36, 7, 1, .u64, .ro, 0, 0xffffffffffffffff, false, 0, "BYTES_TX"⟩ ] ++
  [ ⟨0x1000, 36, 8, 1, .u64, .ro, 0, 0xffffffffffffffff, false, 0, "BYTES_RX"⟩,
    ⟨0x1000, 36, 9, 1, .u32, .ro, 0, 0xffffffff, false, 0, "EYE_MARGIN"⟩,
    ⟨0x1000, 36, 10, 1, .time64, .ro, 0, 0xffffffffffffffff, false, 0, "DOWN_TIME"⟩ ]

/-- Area 0x5C. -/
def objArea5C : List ObjRow :=
  [ ⟨0x1, 1, 0, 1, .enum, .ro, 0, 4, false, 0, "LINK_RATE"⟩,
    ⟨0x2, 1, 0, 1, .u32, .ro, 0, 0xffffffff, false, 0, "LINK_WIDTH"⟩,
    ⟨0x3, 1, 0, 1, .enum, .rwi, 1, 3, true, 3, "MAX_RATE"⟩,
    ⟨0x10, 1, 0, 1, .u64, .rw, 0, 0xffffffffffffffff, false, 0, "BAR4_BASE"⟩,
    ⟨0x11, 1, 0, 1, .u64, .ro, 0, 0xffffffffffffffff, false, 0x1000000000, "BAR4_SIZE"⟩,
    ⟨0x20, 1, 0, 1, .u32, .ro, 0, 0xffffffff, false, 0, "PORT_RESETS"⟩,
    ⟨0x21, 1, 0, 1, .u64, .ro, 0, 0xffffffffffffffff, false, 0, "UR_SENT"⟩,
    ⟨0x21, 1, 1, 1, .u64, .ro, 0, 0xffffffffffffffff, false, 0, "POISONED_RX"⟩,
    ⟨0x21, 1, 2, 1, .u64, .ro, 0, 0xffffffffffffffff, false, 0, "POISONED_TX"⟩,
    ⟨0x21, 1, 3, 1, .u64, .ro, 0, 0xffffffffffffffff, false, 0, "CORRECTABLE"⟩,
    ⟨0x21, 1, 4, 1, .u64, .ro, 0, 0xffffffffffffffff, false, 0, "UNCORRECTABLE"⟩,
    ⟨0x21, 1, 5, 1, .time64, .ro, 0, 0xffffffffffffffff, false, 0, "LAST_ERROR_TIME"⟩,
    ⟨0x30, 1, 0, 1, .u64, .ro, 0, 0xffffffffffffffff, false, 0, "BYTES_IN"⟩,
    ⟨0x30, 1, 1, 1, .u64, .ro, 0, 0xffffffffffffffff, false, 0, "BYTES_OUT"⟩,
    ⟨0x100, 16, 0, 1, .u64, .rw, 0, 0xffffffffffffffff, false, 0, "COPY_HOST_ADDR"⟩,
    ⟨0x100, 16, 1, 1, .u64, .rw, 0, 0xffffffffffffffff, false, 0, "COPY_POOL_ADDR"⟩,
    ⟨0x100, 16, 2, 1, .u64, .rw, 0, 0xffffffffffffffff, false, 0, "COPY_BYTES"⟩,
    ⟨0x100, 16, 3, 1, .enum, .rw, 0, 1, false, 0, "COPY_DIR"⟩,
    ⟨0x100, 16, 4, 1, .bool, .wo, 0, 1, false, 0, "COPY_GO"⟩,
    ⟨0x100, 16, 5, 1, .u64, .ro, 0, 0xffffffffffffffff, false, 0, "COPY_STATUS"⟩ ]

/-- Area 0x60. -/
def objArea60 : List ObjRow :=
  [ ⟨0x1, 1, 0, 1, .u32, .ro, 0, 10, false, 0, "STAGE"⟩,
    ⟨0x2, 1, 0, 1, .enum, .ro, 0, 2, false, 0, "START_KIND"⟩,
    ⟨0x2, 1, 1, 1, .u32, .ro, 0, 0xffffffff, true, 0, "START_COUNT"⟩,
    ⟨0x2, 1, 2, 1, .enum, .ro, 0, 5, false, 0, "LAST_RESET_CAUSE"⟩,
    ⟨0x3, 1, 0, 1, .bool, .wo, 0, 1, false, 0, "WARM_RESET"⟩,
    ⟨0x3, 1, 1, 1, .bool, .rw, 0, 1, true, 1, "FAST_PATH"⟩,
    ⟨0x4, 1, 0, 1, .bool, .wo, 0, 1, false, 0, "CISTERN_RESET"⟩,
    ⟨0x5, 1, 0, 1, .bool, .rw, 0, 1, true, 0, "ACCEPT_UNTESTED"⟩,
    ⟨0x10, 1, 0, 1, .u32, .ro, 0, 0xffffffff, false, 0, "DEFECT_COUNT"⟩,
    ⟨0x11, 1, 0, 1, .u32, .rw, 0, 0xffffffff, false, 0, "DEFECT_QUERY"⟩,
    ⟨0x11, 1, 1, 1, .bytes, .ro, 0, 0, false, 0, "DEFECT_ENTRY"⟩,
    ⟨0x100, 11, 0, 1, .bytes, .ro, 0, 0, false, 0, "STAGE_REPORT"⟩,
    ⟨0x100, 11, 1, 1, .u32, .ro, 0, 0xffffffff, false, 0, "STAGE_RESULT"⟩,
    ⟨0x100, 11, 2, 1, .u32, .ro, 0, 0xffffffff, false, 0, "STAGE_TIME"⟩ ]

/-- The areas of R386: number, the stage that its block must have passed, and its objects. -/
def objAreas : List (Nat × Nat × List ObjRow) :=
  [ (0x10, 2, objArea10),
    (0x14, 9, objArea14),
    (0x18, 2, objArea18),
    (0x20, 2, objArea20),
    (0x24, 2, objArea24),
    (0x28, 2, objArea28),
    (0x2C, 2, objArea2C),
    (0x30, 4, objArea30),
    (0x31, 4, objArea31),
    (0x34, 4, objArea34),
    (0x38, 2, objArea38),
    (0x3C, 5, objArea3C),
    (0x40, 5, objArea40),
    (0x44, 4, objArea44),
    (0x48, 4, objArea48),
    (0x4C, 6, objArea4C),
    (0x50, 6, objArea50),
    (0x58, 7, objArea58),
    (0x5C, 2, objArea5C),
    (0x60, 2, objArea60) ]

/-- The rows of an area. -/
def areaRows (area : Nat) : List ObjRow :=
  match objAreas.find? (fun a => a.1 == area) with
  | some (_, _, rows) => rows
  | none => []

/-- The stage that an area's block must have passed (R386). -/
def areaReady (area : Nat) : Nat :=
  match objAreas.find? (fun a => a.1 == area) with
  | some (_, r, _) => r
  | none => 0

/-- The area, object and element of a 32-bit key (R353). -/
def keyArea (k : Nat) : Nat := k / 2 ^ 24 % 2 ^ 8
def keyObj (k : Nat) : Nat := k / 2 ^ 8 % 2 ^ 16
def keyElt (k : Nat) : Nat := k % 2 ^ 8

/-- The key of an area, object and element (R353). -/
def mkKey (area obj elt : Nat) : Nat := area * 2 ^ 24 + obj * 2 ^ 8 + elt

/-- The row that names a key's object, if any (R386). -/
def objRow (k : Nat) : Option ObjRow :=
  (areaRows (keyArea k)).find? (fun r =>
    r.obj ≤ keyObj k && keyObj k < r.obj + r.count && r.elt ≤ keyElt k && keyElt k < r.elt + r.elts)

/-- An object's default (R358); 0 for a key that names none. -/
def objDefault (k : Nat) : Nat := ((objRow k).map (·.dflt)).getD 0

/-- The lowest key of a row that is at least `k`, where `k` lies in the row's area. -/
def rowNext (area : Nat) (r : ObjRow) (k : Nat) : Option Nat :=
  let o := if k < mkKey area 0 0 then 0 else keyObj k
  let e := if k < mkKey area 0 0 then 0 else keyElt k
  if o < r.obj then some (mkKey area r.obj r.elt)
  else if r.obj + r.count ≤ o then none
  else if e < r.elt then some (mkKey area o r.elt)
  else if e < r.elt + r.elts then some (mkKey area o e)
  else if o + 1 < r.obj + r.count then some (mkKey area (o + 1) r.elt)
  else none

/-- The lowest of two optional keys. -/
def minKey : Option Nat → Option Nat → Option Nat
  | none, b => b
  | a, none => a
  | some a, some b => some (min a b)

/-- The lowest key at or above `k` that names an object (LIST, R368). -/
def objNext (k : Nat) : Option Nat :=
  objAreas.foldl (fun acc a =>
    if a.1 < keyArea k then acc
    else minKey acc (a.2.2.foldl (fun m r => minKey m (rowNext a.1 r k)) none)) none

/-- The code of a type (R354). -/
def ObjTy.code : ObjTy → Nat
  | .u8 => 1 | .u16 => 2 | .u32 => 3 | .u64 => 4 | .i32 => 5 | .f32 => 6 | .bool => 7 | .enum => 8 | .time64 => 9
  | .bytes => 10 | .text => 11

/-- The bytes that carry a value of a type (R354); 0 for the types of varying length. -/
def ObjTy.width : ObjTy → Nat
  | .u8 => 1 | .u16 => 2 | .u32 => 4 | .u64 => 8 | .i32 => 4 | .f32 => 4 | .bool => 1 | .enum => 4 | .time64 => 8
  | .bytes => 0 | .text => 0

/-- The code of an access right (R368). -/
def Access.code : Access → Nat
  | .ro => 0 | .rw => 1 | .wo => 2 | .rwt => 3 | .rwi => 4

/-- `10:0001.00` SERIAL. -/
abbrev Key.serial : Nat := 0x10000100
/-- `10:0002.00` SILICON_REV. -/
abbrev Key.siliconRev : Nat := 0x10000200
/-- `10:0002.01` MODULE_REV. -/
abbrev Key.moduleRev : Nat := 0x10000201
/-- `10:0010.00` + i KEEPER_VERSION. -/
abbrev Key.keeperVersion (i : Nat) : Nat := 0x10001000 + i
/-- `10:0010.02` KEEPER_ACTIVE. -/
abbrev Key.keeperActive : Nat := 0x10001002
/-- `10:0011.00` + i FOUNTAIN_VERSION. -/
abbrev Key.fountainVersion (i : Nat) : Nat := 0x10001100 + i
/-- `10:0011.02` FOUNTAIN_ACTIVE. -/
abbrev Key.fountainActive : Nat := 0x10001102
/-- `10:0012.00` COMPAT_VERSION. -/
abbrev Key.compatVersion : Nat := 0x10001200
/-- `10:0012.01` PAIR_LISTED. -/
abbrev Key.pairListed : Nat := 0x10001201
/-- `10:0013.00` UNTESTED. -/
abbrev Key.untested : Nat := 0x10001300
/-- `10:0020.00` IDENTITY_CERT. -/
abbrev Key.identityCert : Nat := 0x10002000
/-- `10:0020.01` IDENTITY_KEY. -/
abbrev Key.identityKey : Nat := 0x10002001
/-- `14:0001.00` LICENCE_TIER. -/
abbrev Key.licenceTier : Nat := 0x14000100
/-- `14:0001.01` PENDING_TIER. -/
abbrev Key.pendingTier : Nat := 0x14000101
/-- `14:0002.00` ORDERING_CODE. -/
abbrev Key.orderingCode : Nat := 0x14000200
/-- `14:0003.00` + i LICENSED_UNITS. -/
abbrev Key.licensedUnits (i : Nat) : Nat := 0x14000300 + i
/-- `14:0004.00` LICENCE_SERIAL. -/
abbrev Key.licenceSerial : Nat := 0x14000400
/-- `14:0005.00` LICENCE_STATE. -/
abbrev Key.licenceState : Nat := 0x14000500
/-- `18:0001.00` CLOCK_LOCKS. -/
abbrev Key.clockLocks : Nat := 0x18000100
/-- `18:0002.00` ARITH_CLOCK. -/
abbrev Key.arithClock : Nat := 0x18000200
/-- `18:0010.00` TIMEBASE. -/
abbrev Key.timebase : Nat := 0x18001000
/-- `18:0011.00` SECONDS_LOAD. -/
abbrev Key.secondsLoad : Nat := 0x18001100
/-- `18:0012.00` PPS_STATE. -/
abbrev Key.ppsState : Nat := 0x18001200
/-- `18:0013.00` PPS_OFFSET. -/
abbrev Key.ppsOffset : Nat := 0x18001300
/-- `18:0014.00` PPS_ACCEPTED. -/
abbrev Key.ppsAccepted : Nat := 0x18001400
/-- `18:0014.01` PPS_REJECTS. -/
abbrev Key.ppsRejects : Nat := 0x18001401
/-- `18:0015.00` PPS_LAST. -/
abbrev Key.ppsLast : Nat := 0x18001500
/-- `20:0001.00` DICT_VERSION. -/
abbrev Key.dictVersion : Nat := 0x20000100
/-- `20:0002.00` MAC_ADDRESS. -/
abbrev Key.macAddress : Nat := 0x20000200
/-- `20:0003.00` PLCA_NODE_ID. -/
abbrev Key.plcaNodeId : Nat := 0x20000300
/-- `20:0004.00` PLCA_NODE_COUNT. -/
abbrev Key.plcaNodeCount : Nat := 0x20000400
/-- `20:0005.00` PLCA_TO_TIMER. -/
abbrev Key.plcaToTimer : Nat := 0x20000500
/-- `20:0007.00` EVENT_RATE. -/
abbrev Key.eventRate : Nat := 0x20000700
/-- `20:0008.00` FRAMES_RX. -/
abbrev Key.framesRx : Nat := 0x20000800
/-- `20:0008.01` FRAMES_TX. -/
abbrev Key.framesTx : Nat := 0x20000801
/-- `20:0008.02` FRAMES_BAD. -/
abbrev Key.framesBad : Nat := 0x20000802
/-- `20:0009.00` CHANNEL_COLLISIONS. -/
abbrev Key.channelCollisions : Nat := 0x20000900
/-- `20:0010.00` TXN_STATE. -/
abbrev Key.txnState : Nat := 0x20001000
/-- `20:0010.01` TXN_ID. -/
abbrev Key.txnId : Nat := 0x20001001
/-- `20:0010.02` TXN_STAGED. -/
abbrev Key.txnStaged : Nat := 0x20001002
/-- `20:0010.03` TXN_ACTIVITY. -/
abbrev Key.txnActivity : Nat := 0x20001003
/-- `20:0010.04` TXN_COMMIT_AT. -/
abbrev Key.txnCommitAt : Nat := 0x20001004
/-- `20:0011.00` LAST_TXN_ID. -/
abbrev Key.lastTxnId : Nat := 0x20001100
/-- `20:0011.01` LAST_TXN_RESULT. -/
abbrev Key.lastTxnResult : Nat := 0x20001101
/-- `20:0011.02` LAST_TXN_TIME. -/
abbrev Key.lastTxnTime : Nat := 0x20001102
/-- `20:0020.00` DRAIN_LIMIT. -/
abbrev Key.drainLimit : Nat := 0x20002000
/-- `20:0021.00` DRAINING. -/
abbrev Key.draining : Nat := 0x20002100
/-- `20:0021.01` DRAIN_DEADLINE. -/
abbrev Key.drainDeadline : Nat := 0x20002101
/-- `20:0040.00` EVENT_SEQ. -/
abbrev Key.eventSeq : Nat := 0x20004000
/-- `20:0041.00` EVENT_QUERY. -/
abbrev Key.eventQuery : Nat := 0x20004100
/-- `20:0041.01` EVENT_RECORD. -/
abbrev Key.eventRecord : Nat := 0x20004101
/-- `20:0042.00` EVENTS_UNSENT. -/
abbrev Key.eventsUnsent : Nat := 0x20004200
/-- `24:0001.00` SVC_ARGS, unit i. -/
abbrev Key.svcArgs (i : Nat) : Nat := 0x24000100 + i * 0x100
/-- `24:0001.01` SVC_GO, unit i. -/
abbrev Key.svcGo (i : Nat) : Nat := 0x24000101 + i * 0x100
/-- `24:0001.02` SVC_CANCEL, unit i. -/
abbrev Key.svcCancel (i : Nat) : Nat := 0x24000102 + i * 0x100
/-- `24:0001.03` SVC_STATUS, unit i. -/
abbrev Key.svcStatus (i : Nat) : Nat := 0x24000103 + i * 0x100
/-- `24:0001.04` SVC_RESULT, unit i. -/
abbrev Key.svcResult (i : Nat) : Nat := 0x24000104 + i * 0x100
/-- `24:0001.05` SVC_STARTED, unit i. -/
abbrev Key.svcStarted (i : Nat) : Nat := 0x24000105 + i * 0x100
/-- `24:0001.06` SVC_ENDED, unit i. -/
abbrev Key.svcEnded (i : Nat) : Nat := 0x24000106 + i * 0x100
/-- `28:0001.00` INPUT_VOLTAGE. -/
abbrev Key.inputVoltage : Nat := 0x28000100
/-- `28:0001.01` INPUT_CURRENT. -/
abbrev Key.inputCurrent : Nat := 0x28000101
/-- `28:0001.02` INPUT_POWER. -/
abbrev Key.inputPower : Nat := 0x28000102
/-- `28:0002.00` POWER_LIMIT. -/
abbrev Key.powerLimit : Nat := 0x28000200
/-- `28:0003.00` MIN_RESET. -/
abbrev Key.minReset : Nat := 0x28000300
/-- `28:0004.00` CRACK_SUSPECTS. -/
abbrev Key.crackSuspects : Nat := 0x28000400
/-- `28:0004.01` CRACK_LAST_POINT. -/
abbrev Key.crackLastPoint : Nat := 0x28000401
/-- `28:0004.02` CRACK_LAST_TIME. -/
abbrev Key.crackLastTime : Nat := 0x28000402
/-- `28:0020.00` RAIL_VOLTAGE, unit i. -/
abbrev Key.railVoltage (i : Nat) : Nat := 0x28002000 + i * 0x100
/-- `28:0020.01` RAIL_MIN, unit i. -/
abbrev Key.railMin (i : Nat) : Nat := 0x28002001 + i * 0x100
/-- `28:0020.02` RAIL_MIN_TIME, unit i. -/
abbrev Key.railMinTime (i : Nat) : Nat := 0x28002002 + i * 0x100
/-- `28:0020.03` RAIL_CURRENT, unit i. -/
abbrev Key.railCurrent (i : Nat) : Nat := 0x28002003 + i * 0x100
/-- `28:0100.00` CLUSTER_STATE, unit i. -/
abbrev Key.clusterState (i : Nat) : Nat := 0x28010000 + i * 0x100
/-- `28:0100.01` FAILED_MASK, unit i. -/
abbrev Key.failedMask (i : Nat) : Nat := 0x28010001 + i * 0x100
/-- `28:0100.02` CLUSTER_CURRENT, unit i. -/
abbrev Key.clusterCurrent (i : Nat) : Nat := 0x28010002 + i * 0x100
/-- `28:0100.03` CLUSTER_MIN, unit i. -/
abbrev Key.clusterMin (i : Nat) : Nat := 0x28010003 + i * 0x100
/-- `28:0100.04` CLUSTER_MIN_TIME, unit i. -/
abbrev Key.clusterMinTime (i : Nat) : Nat := 0x28010004 + i * 0x100
/-- `28:0200.00` REGION_STATE, unit i. -/
abbrev Key.regionState (i : Nat) : Nat := 0x28020000 + i * 0x100
/-- `2C:0001.00` THROTTLE_STEP. -/
abbrev Key.throttleStep : Nat := 0x2C000100
/-- `2C:0001.01` THROTTLE_CAUSE. -/
abbrev Key.throttleCause : Nat := 0x2C000101
/-- `2C:0001.02` THROTTLE_TIME. -/
abbrev Key.throttleTime : Nat := 0x2C000102
/-- `2C:0010.00` + i TEMP_LIMITS. -/
abbrev Key.tempLimits (i : Nat) : Nat := 0x2C001000 + i
/-- `2C:0011.00` + i RISE_LIMITS. -/
abbrev Key.riseLimits (i : Nat) : Nat := 0x2C001100 + i
/-- `2C:0012.00` HOTTEST. -/
abbrev Key.hottest : Nat := 0x2C001200
/-- `2C:0000.00` TEMP, unit i. -/
abbrev Key.temp (i : Nat) : Nat := 0x2C000000 + i * 0x100
/-- `2C:0000.01` SENSOR_CLASS, unit i. -/
abbrev Key.sensorClass (i : Nat) : Nat := 0x2C000001 + i * 0x100
/-- `2C:0000.02` SENSOR_STATE, unit i. -/
abbrev Key.sensorState (i : Nat) : Nat := 0x2C000002 + i * 0x100
/-- `2C:0000.03` TEMP_PEAK, unit i. -/
abbrev Key.tempPeak (i : Nat) : Nat := 0x2C000003 + i * 0x100
/-- `2C:0000.04` RISE_5MS, unit i. -/
abbrev Key.rise5ms (i : Nat) : Nat := 0x2C000004 + i * 0x100
/-- `30:0010.00` INTAKE_CREDIT. -/
abbrev Key.intakeCredit : Nat := 0x30001000
/-- `30:0011.00` INTAKE_DROPS. -/
abbrev Key.intakeDrops : Nat := 0x30001100
/-- `30:0012.00` INTAKE_ERROR. -/
abbrev Key.intakeError : Nat := 0x30001200
/-- `30:0013.00` DROP_TIME. -/
abbrev Key.dropTime : Nat := 0x30001300
/-- `30:0014.00` DROP_OFFSET. -/
abbrev Key.dropOffset : Nat := 0x30001400
/-- `30:0020.00` HOST_SLOTS. -/
abbrev Key.hostSlots : Nat := 0x30002000
/-- `30:0021.00` STAGE_AHEAD. -/
abbrev Key.stageAhead : Nat := 0x30002100
/-- `30:0030.00` + i AGE_LIMIT. -/
abbrev Key.ageLimit (i : Nat) : Nat := 0x30003000 + i
/-- `30:0032.00` + i CLASS_ENABLE. -/
abbrev Key.classEnable (i : Nat) : Nat := 0x30003200 + i
/-- `30:0033.00` + i CLASS_STATE. -/
abbrev Key.classState (i : Nat) : Nat := 0x30003300 + i
/-- `30:0050.00` + i SLOTS_IN_STATE. -/
abbrev Key.slotsInState (i : Nat) : Nat := 0x30005000 + i
/-- `30:0051.00` FREE_SPAWN. -/
abbrev Key.freeSpawn : Nat := 0x30005100
/-- `30:0060.00` TASKS_DONE. -/
abbrev Key.tasksDone : Nat := 0x30006000
/-- `30:0060.01` TASKS_FAULTED. -/
abbrev Key.tasksFaulted : Nat := 0x30006001
/-- `30:0060.02` TASKS_REPLAYED. -/
abbrev Key.tasksReplayed : Nat := 0x30006002
/-- `31:0000.00` COUNTER_VALUE, unit i. -/
abbrev Key.counterValue (i : Nat) : Nat := 0x31000000 + i * 0x100
/-- `31:0000.01` COUNTER_POISON, unit i. -/
abbrev Key.counterPoison (i : Nat) : Nat := 0x31000001 + i * 0x100
/-- `34:0001.00` SNAPSHOT. -/
abbrev Key.snapshot : Nat := 0x34000100
/-- `34:0001.01` SNAPSHOT_AT. -/
abbrev Key.snapshotAt : Nat := 0x34000101
/-- `34:0001.02` SNAP_TIME. -/
abbrev Key.snapTime : Nat := 0x34000102
/-- `34:0010.00` TIMING_CHOICES. -/
abbrev Key.timingChoices : Nat := 0x34001000
/-- `34:0010.01` ROUTE_CHOICES. -/
abbrev Key.routeChoices : Nat := 0x34001001
/-- `34:0010.02` REDUCE_ARBITRATIONS. -/
abbrev Key.reduceArbitrations : Nat := 0x34001002
/-- `34:0010.03` SCHED_TIEBREAKS. -/
abbrev Key.schedTiebreaks : Nat := 0x34001003
/-- `34:0011.00` CHOICES_SNAP. -/
abbrev Key.choicesSnap : Nat := 0x34001100
/-- `34:0100.00` OUTSTANDING_LIMIT, unit i. -/
abbrev Key.outstandingLimit (i : Nat) : Nat := 0x34010000 + i * 0x100
/-- `34:0100.01` BYTES, unit i. -/
abbrev Key.bytes (i : Nat) : Nat := 0x34010001 + i * 0x100
/-- `34:0100.02` BYTES_SNAP, unit i. -/
abbrev Key.bytesSnap (i : Nat) : Nat := 0x34010002 + i * 0x100
/-- `34:0100.03` LIMIT_HOLDS, unit i. -/
abbrev Key.limitHolds (i : Nat) : Nat := 0x34010003 + i * 0x100
/-- `38:0001.00` ERRORS. -/
abbrev Key.errors : Nat := 0x38000100
/-- `38:0002.00` CLEAN_RECOVERIES. -/
abbrev Key.cleanRecoveries : Nat := 0x38000200
/-- `38:0003.00` UNRECOVERED. -/
abbrev Key.unrecovered : Nat := 0x38000300
/-- `38:0004.00` SIGNATURES. -/
abbrev Key.signatures : Nat := 0x38000400
/-- `3C:0001.00` PACK_ID. -/
abbrev Key.packId : Nat := 0x3C000100
/-- `3C:0001.01` PACK_TIME. -/
abbrev Key.packTime : Nat := 0x3C000101
/-- `3C:0002.00` LAST_TESTED. -/
abbrev Key.lastTested : Nat := 0x3C000200
/-- `3C:0002.01` LAST_FAILED. -/
abbrev Key.lastFailed : Nat := 0x3C000201
/-- `3C:0003.00` RETIRED_BY_TEST. -/
abbrev Key.retiredByTest : Nat := 0x3C000300
/-- `3C:1000.00` TEST_RESULT, unit i. -/
abbrev Key.testResult (i : Nat) : Nat := 0x3C100000 + i * 0x100
/-- `3C:1000.01` TEST_TIME, unit i. -/
abbrev Key.testTime (i : Nat) : Nat := 0x3C100001 + i * 0x100
/-- `40:0001.00` ENABLED_CORES. -/
abbrev Key.enabledCores : Nat := 0x40000100
/-- `40:0001.01` RETIRED_CORES. -/
abbrev Key.retiredCores : Nat := 0x40000101
/-- `40:0001.02` SHORTFALL. -/
abbrev Key.shortfall : Nat := 0x40000102
/-- `40:1000.00` CORE_ENABLE, unit i. -/
abbrev Key.coreEnable (i : Nat) : Nat := 0x40100000 + i * 0x100
/-- `40:1000.01` CORE_STATE, unit i. -/
abbrev Key.coreState (i : Nat) : Nat := 0x40100001 + i * 0x100
/-- `40:1000.02` LOGICAL, unit i. -/
abbrev Key.logical (i : Nat) : Nat := 0x40100002 + i * 0x100
/-- `40:1000.03` SPARES_USED, unit i. -/
abbrev Key.sparesUsed (i : Nat) : Nat := 0x40100003 + i * 0x100
/-- `40:1000.04` GROUPS_PLACED, unit i. -/
abbrev Key.groupsPlaced (i : Nat) : Nat := 0x40100004 + i * 0x100
/-- `40:1000.05` ISSUE_CYCLES, unit i. -/
abbrev Key.issueCycles (i : Nat) : Nat := 0x40100005 + i * 0x100
/-- `40:1000.06` ARRAY_CYCLES, unit i. -/
abbrev Key.arrayCycles (i : Nat) : Nat := 0x40100006 + i * 0x100
/-- `44:0001.00` BASIN_SLUICE_FRAMES. -/
abbrev Key.basinSluiceFrames : Nat := 0x44000100
/-- `44:0010.00` SCRUB_INTERVAL. -/
abbrev Key.scrubInterval : Nat := 0x44001000
/-- `44:1000.00` SCRUB_FAILS, unit i. -/
abbrev Key.scrubFails (i : Nat) : Nat := 0x44100000 + i * 0x100
/-- `44:1000.01` SCRUB_LAST_ADDR, unit i. -/
abbrev Key.scrubLastAddr (i : Nat) : Nat := 0x44100001 + i * 0x100
/-- `44:1000.02` SCRUB_LAST_TIME, unit i. -/
abbrev Key.scrubLastTime (i : Nat) : Nat := 0x44100002 + i * 0x100
/-- `44:1000.03` SCRUB_TRANSIENTS, unit i. -/
abbrev Key.scrubTransients (i : Nat) : Nat := 0x44100003 + i * 0x100
/-- `44:1000.04` SCRUB_PASSES, unit i. -/
abbrev Key.scrubPasses (i : Nat) : Nat := 0x44100004 + i * 0x100
/-- `44:1000.05` WALK_MISSES, unit i. -/
abbrev Key.walkMisses (i : Nat) : Nat := 0x44100005 + i * 0x100
/-- `44:1000.06` LXU_BUSY, unit i. -/
abbrev Key.lxuBusy (i : Nat) : Nat := 0x44100006 + i * 0x100
/-- `44:1000.07` LYT_BUSY, unit i. -/
abbrev Key.lytBusy (i : Nat) : Nat := 0x44100007 + i * 0x100
/-- `48:0001.00` + i PIN_WAYS. -/
abbrev Key.pinWays (i : Nat) : Nat := 0x48000100 + i
/-- `48:0002.00` + i POOL_PAGES. -/
abbrev Key.poolPages (i : Nat) : Nat := 0x48000200 + i
/-- `48:0003.00` + i WINDOW_BYTES. -/
abbrev Key.windowBytes (i : Nat) : Nat := 0x48000300 + i
/-- `48:0010.00` THRASH_WINDOW. -/
abbrev Key.thrashWindow : Nat := 0x48001000
/-- `48:0011.00` THRASH_LIMIT. -/
abbrev Key.thrashLimit : Nat := 0x48001100
/-- `48:0020.00` PIN_EPOCH. -/
abbrev Key.pinEpoch : Nat := 0x48002000
/-- `48:0040.00` SILL_RETRIES. -/
abbrev Key.sillRetries : Nat := 0x48004000
/-- `48:0041.00` + i SILL_BYTES. -/
abbrev Key.sillBytes (i : Nat) : Nat := 0x48004100 + i
/-- `48:1000.00` HITS, unit i. -/
abbrev Key.hits (i : Nat) : Nat := 0x48100000 + i * 0x100
/-- `48:1000.01` MISSES, unit i. -/
abbrev Key.misses (i : Nat) : Nat := 0x48100001 + i * 0x100
/-- `48:1000.02` MERGES, unit i. -/
abbrev Key.merges (i : Nat) : Nat := 0x48100002 + i * 0x100
/-- `48:1000.03` MR_IN_USE, unit i. -/
abbrev Key.mrInUse (i : Nat) : Nat := 0x48100003 + i * 0x100
/-- `48:1000.04` MR_PEAK, unit i. -/
abbrev Key.mrPeak (i : Nat) : Nat := 0x48100004 + i * 0x100
/-- `48:1000.05` MR_FULL_HOLDS, unit i. -/
abbrev Key.mrFullHolds (i : Nat) : Nat := 0x48100005 + i * 0x100
/-- `48:1000.06` REFETCHES, unit i. -/
abbrev Key.refetches (i : Nat) : Nat := 0x48100006 + i * 0x100
/-- `48:1000.07` THRASH_FLAG, unit i. -/
abbrev Key.thrashFlag (i : Nat) : Nat := 0x48100007 + i * 0x100
/-- `48:1000.08` FILL_WAITS, unit i. -/
abbrev Key.fillWaits (i : Nat) : Nat := 0x48100008 + i * 0x100
/-- `48:1000.09` REDUCE_FORCED, unit i. -/
abbrev Key.reduceForced (i : Nat) : Nat := 0x48100009 + i * 0x100
/-- `48:1000.0A` REDUCE_ENTRIES, unit i. -/
abbrev Key.reduceEntries (i : Nat) : Nat := 0x4810000A + i * 0x100
/-- `48:1000.0B` WRITEBACKS, unit i. -/
abbrev Key.writebacks (i : Nat) : Nat := 0x4810000B + i * 0x100
/-- `48:1000.0C` CLEAN_REFETCH, unit i. -/
abbrev Key.cleanRefetch (i : Nat) : Nat := 0x4810000C + i * 0x100
/-- `48:1000.0D` PORT_STATE, unit i. -/
abbrev Key.portState (i : Nat) : Nat := 0x4810000D + i * 0x100
/-- `4C:0001.00` MAPPED_TOP. -/
abbrev Key.mappedTop : Nat := 0x4C000100
/-- `4C:0002.00` + i HALF_STACKS. -/
abbrev Key.halfStacks (i : Nat) : Nat := 0x4C000200 + i
/-- `4C:0003.00` FULL_TRAIN. -/
abbrev Key.fullTrain : Nat := 0x4C000300
/-- `4C:1000.00` STACK_STATE, unit i. -/
abbrev Key.stackState (i : Nat) : Nat := 0x4C100000 + i * 0x100
/-- `4C:1000.01` STACK_TEMP, unit i. -/
abbrev Key.stackTemp (i : Nat) : Nat := 0x4C100001 + i * 0x100
/-- `4C:1000.02` REFRESH_MODE, unit i. -/
abbrev Key.refreshMode (i : Nat) : Nat := 0x4C100002 + i * 0x100
/-- `4C:1000.03` CORRECTED, unit i. -/
abbrev Key.corrected (i : Nat) : Nat := 0x4C100003 + i * 0x100
/-- `4C:1000.04` STACK_UNCORRECTABLE, unit i. -/
abbrev Key.stackUncorrectable (i : Nat) : Nat := 0x4C100004 + i * 0x100
/-- `4C:1000.05` CHANNEL_RETRIES, unit i. -/
abbrev Key.channelRetries (i : Nat) : Nat := 0x4C100005 + i * 0x100
/-- `4C:1000.06` STACK_RETRAINS, unit i. -/
abbrev Key.stackRetrains (i : Nat) : Nat := 0x4C100006 + i * 0x100
/-- `4C:1000.07` BYTES_READ, unit i. -/
abbrev Key.bytesRead (i : Nat) : Nat := 0x4C100007 + i * 0x100
/-- `4C:1000.08` BYTES_WRITTEN, unit i. -/
abbrev Key.bytesWritten (i : Nat) : Nat := 0x4C100008 + i * 0x100
/-- `4C:1000.09` ROW_HITS, unit i. -/
abbrev Key.rowHits (i : Nat) : Nat := 0x4C100009 + i * 0x100
/-- `4C:1000.0A` REFRESH_WAITS, unit i. -/
abbrev Key.refreshWaits (i : Nat) : Nat := 0x4C10000A + i * 0x100
/-- `4C:1000.0B` TRAIN_MARGIN, unit i. -/
abbrev Key.trainMargin (i : Nat) : Nat := 0x4C10000B + i * 0x100
/-- `4C:1000.0C` TRAIN_TIME, unit i. -/
abbrev Key.trainTime (i : Nat) : Nat := 0x4C10000C + i * 0x100
/-- `4C:1000.0D` FAILED_CHANNEL, unit i. -/
abbrev Key.failedChannel (i : Nat) : Nat := 0x4C10000D + i * 0x100
/-- `50:0001.00` + i OPEN_PAGES. -/
abbrev Key.openPages (i : Nat) : Nat := 0x50000100 + i
/-- `50:0002.00` + i BUFFER_PAGES. -/
abbrev Key.bufferPages (i : Nat) : Nat := 0x50000200 + i
/-- `50:0003.00` + i SEQ_ZONE_PAGES. -/
abbrev Key.seqZonePages (i : Nat) : Nat := 0x50000300 + i
/-- `50:0010.00` HOST_POOL_BASE. -/
abbrev Key.hostPoolBase : Nat := 0x50001000
/-- `50:0011.00` HOST_POOL_PAGES. -/
abbrev Key.hostPoolPages : Nat := 0x50001100
/-- `50:0012.00` HOST_MOVES. -/
abbrev Key.hostMoves : Nat := 0x50001200
/-- `50:0013.00` PAGEOUT_LOW. -/
abbrev Key.pageoutLow : Nat := 0x50001300
/-- `50:0014.00` PAGEOUT_HIGH. -/
abbrev Key.pageoutHigh : Nat := 0x50001400
/-- `50:0020.00` HOST_AHEAD. -/
abbrev Key.hostAhead : Nat := 0x50002000
/-- `50:0021.00` + i HOLD_PAGES. -/
abbrev Key.holdPages (i : Nat) : Nat := 0x50002100 + i
/-- `50:0022.00` PROMOTE_SECTORS. -/
abbrev Key.promoteSectors : Nat := 0x50002200
/-- `50:0023.00` STARVE_LIMIT. -/
abbrev Key.starveLimit : Nat := 0x50002300
/-- `50:0030.00` SEQ_RELEASE. -/
abbrev Key.seqRelease : Nat := 0x50003000
/-- `50:0031.00` SEQ_QUERY. -/
abbrev Key.seqQuery : Nat := 0x50003100
/-- `50:0031.01` SEQ_STATE. -/
abbrev Key.seqState : Nat := 0x50003101
/-- `50:0031.02` SEQ_LENGTH. -/
abbrev Key.seqLength : Nat := 0x50003102
/-- `50:0031.03` SEQ_WRITE_FROM. -/
abbrev Key.seqWriteFrom : Nat := 0x50003103
/-- `50:0031.04` SEQ_PAGE_COUNT. -/
abbrev Key.seqPageCount : Nat := 0x50003104
/-- `50:0031.05` SEQ_HOST_PAGES. -/
abbrev Key.seqHostPages : Nat := 0x50003105
/-- `50:0031.06` SEQ_HALF. -/
abbrev Key.seqHalf : Nat := 0x50003106
/-- `50:0040.00` SEQ_ACTIVE. -/
abbrev Key.seqActive : Nat := 0x50004000
/-- `50:0041.00` + i FREE_SEQ_PAGES. -/
abbrev Key.freeSeqPages (i : Nat) : Nat := 0x50004100 + i
/-- `50:0042.00` + i FREE_BUFFER_PAGES. -/
abbrev Key.freeBufferPages (i : Nat) : Nat := 0x50004200 + i
/-- `50:0043.00` + i FREE_POOL_PAGES. -/
abbrev Key.freePoolPages (i : Nat) : Nat := 0x50004300 + i
/-- `50:0044.00` FREE_DIRECTORIES. -/
abbrev Key.freeDirectories : Nat := 0x50004400
/-- `50:0044.01` FREE_CHAIN_BLOCKS. -/
abbrev Key.freeChainBlocks : Nat := 0x50004401
/-- `50:0045.00` HOST_FREE_PAGES. -/
abbrev Key.hostFreePages : Nat := 0x50004500
/-- `50:0050.00` STAGED. -/
abbrev Key.staged : Nat := 0x50005000
/-- `50:0050.01` DEFERRALS. -/
abbrev Key.deferrals : Nat := 0x50005001
/-- `50:0050.02` REFUSALS. -/
abbrev Key.refusals : Nat := 0x50005002
/-- `50:0050.03` FREE_MISSES. -/
abbrev Key.freeMisses : Nat := 0x50005003
/-- `50:0051.00` FAULTS_BASIN. -/
abbrev Key.faultsBasin : Nat := 0x50005100
/-- `50:0051.01` FAULTS_RESERVOIR. -/
abbrev Key.faultsReservoir : Nat := 0x50005101
/-- `50:0051.02` FAULTS_HOST. -/
abbrev Key.faultsHost : Nat := 0x50005102
/-- `50:0052.00` HOST_BYTES_IN. -/
abbrev Key.hostBytesIn : Nat := 0x50005200
/-- `50:0052.01` HOST_BYTES_OUT. -/
abbrev Key.hostBytesOut : Nat := 0x50005201
/-- `50:0053.00` PROMOTIONS. -/
abbrev Key.promotions : Nat := 0x50005300
/-- `50:0053.01` PAGEOUT_CANCELS. -/
abbrev Key.pageoutCancels : Nat := 0x50005301
/-- `50:0053.02` HOST_RECOVERIES. -/
abbrev Key.hostRecoveries : Nat := 0x50005302
/-- `50:0200.00` TOKENS_PER_PAGE, unit i. -/
abbrev Key.tokensPerPage (i : Nat) : Nat := 0x50020000 + i * 0x100
/-- `50:0200.01` PAGES_PER_STEP, unit i. -/
abbrev Key.pagesPerStep (i : Nat) : Nat := 0x50020001 + i * 0x100
/-- `58:0001.00` POOL_SHAPE. -/
abbrev Key.poolShape : Nat := 0x58000100
/-- `58:0002.00` POOL_MEMBERS. -/
abbrev Key.poolMembers : Nat := 0x58000200
/-- `58:0003.00` POOL_STATE. -/
abbrev Key.poolState : Nat := 0x58000300
/-- `58:0004.00` DEVICE_NUMBER. -/
abbrev Key.deviceNumber : Nat := 0x58000400
/-- `58:0005.00` + i COORD. -/
abbrev Key.coord (i : Nat) : Nat := 0x58000500 + i
/-- `58:0006.00` IS_HEAD. -/
abbrev Key.isHead : Nat := 0x58000600
/-- `58:0007.00` BROKEN_PAIR. -/
abbrev Key.brokenPair : Nat := 0x58000700
/-- `58:0008.00` BROKEN_TIME. -/
abbrev Key.brokenTime : Nat := 0x58000800
/-- `58:0010.00` PEER_TIMEOUT. -/
abbrev Key.peerTimeout : Nat := 0x58001000
/-- `58:0011.00` SILL_PENALTY. -/
abbrev Key.sillPenalty : Nat := 0x58001100
/-- `58:0012.00` HOST_CLASS. -/
abbrev Key.hostClass : Nat := 0x58001200
/-- `58:0013.00` PROTOCOL_ERRORS. -/
abbrev Key.protocolErrors : Nat := 0x58001300
/-- `58:1000.00` LINK_STATE, unit i. -/
abbrev Key.linkState (i : Nat) : Nat := 0x58100000 + i * 0x100
/-- `58:1000.01` LINK_ENABLE, unit i. -/
abbrev Key.linkEnable (i : Nat) : Nat := 0x58100001 + i * 0x100
/-- `58:1000.02` PEER_DEVICE, unit i. -/
abbrev Key.peerDevice (i : Nat) : Nat := 0x58100002 + i * 0x100
/-- `58:1000.03` PEER_LINK, unit i. -/
abbrev Key.peerLink (i : Nat) : Nat := 0x58100003 + i * 0x100
/-- `58:1000.04` FEC_CORRECTED, unit i. -/
abbrev Key.fecCorrected (i : Nat) : Nat := 0x58100004 + i * 0x100
/-- `58:1000.05` FLIT_RETRIES, unit i. -/
abbrev Key.flitRetries (i : Nat) : Nat := 0x58100005 + i * 0x100
/-- `58:1000.06` LINK_RETRAINS, unit i. -/
abbrev Key.linkRetrains (i : Nat) : Nat := 0x58100006 + i * 0x100
/-- `58:1000.07` BYTES_TX, unit i. -/
abbrev Key.bytesTx (i : Nat) : Nat := 0x58100007 + i * 0x100
/-- `58:1000.08` BYTES_RX, unit i. -/
abbrev Key.bytesRx (i : Nat) : Nat := 0x58100008 + i * 0x100
/-- `58:1000.09` EYE_MARGIN, unit i. -/
abbrev Key.eyeMargin (i : Nat) : Nat := 0x58100009 + i * 0x100
/-- `58:1000.0A` DOWN_TIME, unit i. -/
abbrev Key.downTime (i : Nat) : Nat := 0x5810000A + i * 0x100
/-- `5C:0001.00` LINK_RATE. -/
abbrev Key.linkRate : Nat := 0x5C000100
/-- `5C:0002.00` LINK_WIDTH. -/
abbrev Key.linkWidth : Nat := 0x5C000200
/-- `5C:0003.00` MAX_RATE. -/
abbrev Key.maxRate : Nat := 0x5C000300
/-- `5C:0010.00` BAR4_BASE. -/
abbrev Key.bar4Base : Nat := 0x5C001000
/-- `5C:0011.00` BAR4_SIZE. -/
abbrev Key.bar4Size : Nat := 0x5C001100
/-- `5C:0020.00` PORT_RESETS. -/
abbrev Key.portResets : Nat := 0x5C002000
/-- `5C:0021.00` UR_SENT. -/
abbrev Key.urSent : Nat := 0x5C002100
/-- `5C:0021.01` POISONED_RX. -/
abbrev Key.poisonedRx : Nat := 0x5C002101
/-- `5C:0021.02` POISONED_TX. -/
abbrev Key.poisonedTx : Nat := 0x5C002102
/-- `5C:0021.03` CORRECTABLE. -/
abbrev Key.correctable : Nat := 0x5C002103
/-- `5C:0021.04` + i PORT_UNCORRECTABLE. -/
abbrev Key.portUncorrectable (i : Nat) : Nat := 0x5C002104 + i
/-- `5C:0021.05` LAST_ERROR_TIME. -/
abbrev Key.lastErrorTime : Nat := 0x5C002105
/-- `5C:0030.00` BYTES_IN. -/
abbrev Key.bytesIn : Nat := 0x5C003000
/-- `5C:0030.01` BYTES_OUT. -/
abbrev Key.bytesOut : Nat := 0x5C003001
/-- `5C:0100.00` COPY_HOST_ADDR, unit i. -/
abbrev Key.copyHostAddr (i : Nat) : Nat := 0x5C010000 + i * 0x100
/-- `5C:0100.01` COPY_POOL_ADDR, unit i. -/
abbrev Key.copyPoolAddr (i : Nat) : Nat := 0x5C010001 + i * 0x100
/-- `5C:0100.02` COPY_BYTES, unit i. -/
abbrev Key.copyBytes (i : Nat) : Nat := 0x5C010002 + i * 0x100
/-- `5C:0100.03` COPY_DIR, unit i. -/
abbrev Key.copyDir (i : Nat) : Nat := 0x5C010003 + i * 0x100
/-- `5C:0100.04` COPY_GO, unit i. -/
abbrev Key.copyGo (i : Nat) : Nat := 0x5C010004 + i * 0x100
/-- `5C:0100.05` COPY_STATUS, unit i. -/
abbrev Key.copyStatus (i : Nat) : Nat := 0x5C010005 + i * 0x100
/-- `60:0001.00` STAGE. -/
abbrev Key.stage : Nat := 0x60000100
/-- `60:0002.00` START_KIND. -/
abbrev Key.startKind : Nat := 0x60000200
/-- `60:0002.01` START_COUNT. -/
abbrev Key.startCount : Nat := 0x60000201
/-- `60:0002.02` LAST_RESET_CAUSE. -/
abbrev Key.lastResetCause : Nat := 0x60000202
/-- `60:0003.00` WARM_RESET. -/
abbrev Key.warmReset : Nat := 0x60000300
/-- `60:0003.01` FAST_PATH. -/
abbrev Key.fastPath : Nat := 0x60000301
/-- `60:0004.00` CISTERN_RESET. -/
abbrev Key.cisternReset : Nat := 0x60000400
/-- `60:0005.00` ACCEPT_UNTESTED. -/
abbrev Key.acceptUntested : Nat := 0x60000500
/-- `60:0010.00` DEFECT_COUNT. -/
abbrev Key.defectCount : Nat := 0x60001000
/-- `60:0011.00` DEFECT_QUERY. -/
abbrev Key.defectQuery : Nat := 0x60001100
/-- `60:0011.01` DEFECT_ENTRY. -/
abbrev Key.defectEntry : Nat := 0x60001101
/-- `60:0100.00` STAGE_REPORT, unit i. -/
abbrev Key.stageReport (i : Nat) : Nat := 0x60010000 + i * 0x100
/-- `60:0100.01` STAGE_RESULT, unit i. -/
abbrev Key.stageResult (i : Nat) : Nat := 0x60010001 + i * 0x100
/-- `60:0100.02` STAGE_TIME, unit i. -/
abbrev Key.stageTime (i : Nat) : Nat := 0x60010002 + i * 0x100
/-- `38:1xxx.00` CODE_COUNT of code x. -/
abbrev Key.codeCount (i : Nat) : Nat := 0x38100000 + i * 0x100
/-- `38:1xxx.01` CODE_LAST of code x. -/
abbrev Key.codeLast (i : Nat) : Nat := 0x38100001 + i * 0x100

end Sys2Proof.Machine
end

