-- ==== Sys2Proof/Machine/BootTypes.lean ====
section
/-! DEFINITION. What the module keeps in flash and in its boot ROM, the state of a start, and the pins (chapters 16, 21
and 22 of the manual). -/

namespace Sys2Proof.Machine

/-- A record of the defect list (R407): its 32 bytes, and whether it is in flash yet. -/
structure DefRec where
  bytes : List Byte
  stored : Bool
  deriving DecidableEq, Repr

/-- A flash store that is under way (R389, R407, R488): an object's new value, the record at an index of the list, or the
pending licence. -/
inductive FlashItem where
  | obj (key : Nat) (val : Nat)
  | defect (index : Nat)
  | licence
  deriving DecidableEq, Repr

/-- A failure signature (R469): the position it names, its bytes, and its sequence number. -/
structure Signature where
  position : Nat
  bytes : List Byte
  seq : Nat
  deriving DecidableEq, Repr

/-- The device's last formation (R416). -/
structure Formation where
  device : Nat
  x : Nat
  y : Nat
  z : Nat
  deriving DecidableEq, Repr

/-- Module flash. Images, licences and the test pack are whole signed envelopes, empty for an erased place. -/
structure Flash where
  obj : Sparse Nat
  stores : List FlashItem
  defects : List DefRec
  keeperA : List Byte
  keeperB : List Byte
  fountainA : List Byte
  fountainB : List Byte
  /-- The preferred slots of R409: true is B. -/
  prefKeeper : Bool
  prefFountain : Bool
  prefTorn : Bool
  compat : List Byte
  compatSpare : List Byte
  /-- The identity record of R484: private scalar, public point, and whether each copy is torn. -/
  idScalar : Nat
  idPoint : List Byte
  idTornOne : Bool
  idTornTwo : Bool
  cert : List Byte
  certRoot : List Byte
  certIssuer : List Byte
  licence : List Byte
  /-- The pending licence of R488, and whether its record is torn. -/
  pending : List Byte
  pendingTorn : Bool
  pack : List Byte
  signatures : List Signature
  nextSignature : Nat
  formation : Option Formation
  /-- Stacks whose saved training values exist (R253). -/
  trained : Sparse Bool
  startCount : Nat
  moduleRev : Nat
  /-- The per-module set points of R419, in mV: at 4.0, 2.667 and 2.0 GHz. -/
  setPoints : Sparse Nat
  deriving DecidableEq, Repr

/-- Why the compute and SRAM rails are off in a device that has power (R419, R440, R447, R462). -/
inductive Dark where
  | none
  | railTrip
  | thermalTrip
  | clockLoss
  | depleted
  deriving DecidableEq, Repr

/-- The state of a start (R401 to R405), the boot ROM, and the pins of J1 and J9. -/
structure Boot where
  /-- The 44 V inlet is in and PRESENT_N is mated. -/
  powered : Bool
  present : Bool
  /-- The inlet was lost under R439 and has not been restored. -/
  inletOut : Bool
  resetLow : Bool
  stage : Nat
  /-- The stage last finished, plus one; 0 before S0 has finished. -/
  done : Nat
  stopped : Bool
  dark : Dark
  kind : Nat
  cause : Nat
  reachedS10 : Bool
  /-- A KIND 15 record was appended since the last start (R491). -/
  cleared : Bool
  /-- When the stage in progress began: in elapsed ns and in the timebase. -/
  began : Nat
  beganTb : Nat
  /-- When S0 began, and the boot ROM's count at which the timebase started (R451). -/
  romBase : Nat
  tbBase : Nat
  newEntries : Nat
  straps : Nat
  faultLow : Bool
  alertLow : Bool
  keeperSlot : Bool
  fountainSlot : Bool
  keeperRuns : Bool
  pairListed : Bool
  untested : Bool
  torn : Nat
  shortfall : Nat
  /-- The tier that this start runs at: 0 none, 1 to 3 (R391, R489). -/
  tier : Nat
  /-- The POOL_SHAPE that this start read at S2 (R333). -/
  shape : Nat
  retired : Nat
  /-- Positions that this start found bad or dark; the defect list names them too unless it is full (R408, R426). -/
  bad : List Nat
  /-- Shared signals that run on one of their two bonds (R463). -/
  shared : List Nat
  logical : Sparse Nat
  /-- Reports of S0 and S1 not yet sent. -/
  held : List Nat
  measures : Sparse (List Byte)
  siliconRev : Nat
  romBytes : List Byte
  rootKeys : List (Nat × Nat)
  warmWanted : Option Nat
  /-- Positions that a licence load with REDUCE_NOW has withdrawn (R488). -/
  reduced : List Nat
  deriving DecidableEq, Repr

/-- Flash as a module leaves the factory with nothing of a user's in it.
Log entries 94 (DEDUCED); 95 (DESIGN CHOICE). -/
def Flash.blank : Flash :=
  { obj := [], stores := [], defects := [], keeperA := [], keeperB := [], fountainA := [], fountainB := [],
    prefKeeper := false, prefFountain := false, prefTorn := false, compat := [], compatSpare := [], idScalar := 0,
    idPoint := [], idTornOne := false, idTornTwo := false, cert := [], certRoot := [], certIssuer := [], licence := [],
    pending := [], pendingTorn := false, pack := [], signatures := [], nextSignature := 0, formation := none,
    trained := [], startCount := 0, moduleRev := 0, setPoints := [(0, 750), (1, 680), (2, 620)] }

/-- The start that 44 V begins: cause 0, kind 0, stage 0, nothing done (R401, R403).
Log entry 94 (DEDUCED). -/
def Boot.powerOn : Boot :=
  { powered := true, present := true, inletOut := false, resetLow := false, stage := 0, done := 0, stopped := false,
    dark := .none, kind := 0, cause := 0, reachedS10 := false, cleared := false, began := 0, beganTb := 0, romBase := 0, tbBase := 0, newEntries := 0, straps := 0,
    faultLow := false, alertLow := false, keeperSlot := false, fountainSlot := false, keeperRuns := false,
    pairListed := false, untested := false, torn := 0, shortfall := 0, tier := 0, shape := 0, retired := 0, bad := [],
    shared := [], logical := [], held := [], measures := [], siliconRev := 0x10, romBytes := Config.bootRom, rootKeys := Config.rootKeys, warmWanted := none, reduced := [] }

end Sys2Proof.Machine
end

