-- ==== Sys2Proof/Machine/FountainTypes.lean ====
section
/-! DEFINITION. The state of the Fountain: intake, task slots, dependency counters (chapter 2 of the manual). -/

namespace Sys2Proof.Machine

/-- A record in the intake: its 32 words of 64 bits and the BAR2 offset it was written at (R39). -/
structure Landed where
  words : List Word64
  offset : Nat
  deriving DecidableEq, Repr

/-- A dependency counter: value and poison flag (R46). -/
structure Counter where
  value : Nat
  poison : Bool
  deriving DecidableEq, Repr

/-- Why a slot in state 7 does not yet run (R50, R70, R457). -/
inductive ReplayWait where
  /-- Its groups are still being ended (R66). -/
  | settling
  /-- It waits for these producers to reach state 5 again, each named by its slot and the slot's use count. -/
  | onProducers (ps : List (Nat × Nat))
  /-- It must stage again, and waits for the staging window. -/
  | window
  deriving DecidableEq, Repr

/-- How the Sluice stands to a task's staging request (R51, R273). -/
inductive Staging where
  | none
  /-- The array that SEQ_LIST names is being read (R36). -/
  | listing
  /-- Accepted; moves under way. -/
  | moving
  | deferred
  | staged
  deriving DecidableEq, Repr

/-- What ends a task that is being settled (R66, R70): its first code, and the state it goes to. -/
structure Ending where
  code : Nat
  /-- Go to state 7 and run again, once these producers (slot, use count) are in state 5 again (R70, R71). -/
  replay : Option (List (Nat × Nat))
  deriving DecidableEq, Repr

/-- A task slot (R28, R62) with what the Fountain keeps about its task. Times are in the model's own elapsed ns. -/
structure Slot where
  /-- The record's 32 words, reserved fields zero (R8); word 0 is the status word's place and is computed (R62). -/
  words : List Word64
  state : Nat
  code : Nat
  flushed : Bool
  replayed : Bool
  progress : Nat
  spawned : Bool
  /-- Posted by a peer (R328). -/
  posted : Bool
  replays : Nat
  /-- When its waits became satisfied, or its re-run began (R50). -/
  satisfied : Option Nat
  /-- When it became dispatchable, with a sequence number for equal instants (R52). -/
  dispatchable : Option Nat
  staging : Staging
  home : Nat
  nextGroup : Nat
  exited : Nat
  /-- Core chosen and reserved for each remaining group of a COSCHED task (R55). -/
  reserved : List Nat
  /-- When it last entered state 3 (R67). -/
  runStart : Nat
  ending : Option Ending
  faults : Nat
  replayWait : Option ReplayWait
  /-- A re-run of a producer, which does not carry out its signal entries (R70). -/
  silent : Bool
  /-- Its signal entries have been carried out, and it waits for peers to acknowledge them (R57, R320). -/
  signalled : Bool
  /-- Groups that have arrived at the task-level barrier (R89). -/
  tbar : List Nat
  /-- Devices that accepted a write of the task since it entered state 3 (R331). -/
  peersWritten : List Nat
  /-- It has issued a peer request since entering state 3 (R328). -/
  peerUser : Bool
  /-- It has accessed the Cistern window since entering state 3 (R414). -/
  windowUser : Bool
  /-- LENGTH of the sequences it extends, as they were when it was staged: (sequence, old, new) (R266). -/
  extends_ : List (Nat × Nat × Nat)
  /-- The sequences whose extension has retired with this task, each with its number of retired extensions then (R268). -/
  retired : List (Nat × Nat)
  /-- The pages that its staging request asked for (R273). -/
  asked : List (Nat × Nat)
  /-- The persistent buffers that its FREE entries named at staging: the slot and use count that allocated each, and its
  address (R262). -/
  freeing : List (Nat × Nat × Nat)
  /-- The entries read from SEQ_LIST when it left state 1 (R36). -/
  seqList : List Word64
  deriving DecidableEq, Repr

/-- The Fountain. `uses` counts how often a record entered each slot (R456). -/
structure Fountain where
  intake : List Landed
  slots : Sparse (Option Slot)
  uses : Sparse Nat
  counters : Sparse Counter
  /-- Sequence number of dispatchability, which orders equal instants of R52 key 3 (R50). -/
  order : Nat
  lastTake : Option Nat
  deriving DecidableEq, Repr

/-- The Fountain after S4's fill (R406): every slot free, every counter 0 and unpoisoned. -/
def Fountain.clear : Fountain :=
  { intake := [], slots := [], uses := [], counters := [], order := 0, lastTake := none }

end Sys2Proof.Machine
end

