-- ==== Sys2Proof/Machine/PowerTypes.lean ====
section
/-! DEFINITION. The state of power, temperature and clocks (chapters 17 and 18 of the manual). -/

namespace Sys2Proof.Machine

/-- A minimum record (R429): the lowest voltage in µV and its stamp. -/
structure MinRec where
  micro : Nat
  stamp : Nat
  deriving DecidableEq, Repr

/-- Power and temperature. Voltages are in µV, currents in mA, power in mW, temperatures in thousandths of a degree.
`temp` is keyed by the object number of R387: 0x1000 + channel, 0x2000 + point. -/
structure Power where
  failedPhases : List Nat
  senseLost : List Nat
  /-- Regulators off, by cluster: bit i for regulator i. -/
  regOff : Sparse Nat
  /-- FAILED_MASK and CLUSTER_STATE as the last round set them. -/
  failedMask : Sparse Nat
  clusterState : Sparse Nat
  /-- Clusters whose patch went dark since the last round. -/
  darkened : List Nat
  /-- When a round found a patch dark before the end of S6, for the record that waits for it. -/
  darkAt : Sparse Nat
  regionState : Sparse Nat
  temp : Sparse Int
  history : Sparse (List Int)
  peak : Sparse Int
  rise : Sparse Int
  sensor : Sparse Nat
  broken : Sparse Bool
  apart : Sparse Nat
  stackTemps : Sparse Int
  inletMicro : Nat
  inletMilliAmp : Nat
  powers : List Nat
  railVolt : Sparse Nat
  railAmp : Sparse Nat
  clusterAmp : Sparse Nat
  railMin : Sparse (Option MinRec)
  clusterMin : Sparse (Option MinRec)
  /-- The averages and current references of the last twelve rounds of each point, newest first (R430). -/
  averages : Sparse (List (Nat × Nat))
  suspects : Sparse Bool
  step : Nat
  throttleCause : Nat
  throttleNs : Nat
  stepSince : Nat
  calm : Nat
  unmetRounds : Nat
  unmetSent : Bool
  trips : List Nat
  coolSince : Option Nat
  measured : Bool
  deriving DecidableEq, Repr

/-- Clocks and time (R443 to R452). `ns` is the model's own elapsed time in ns since power was applied; `frac` the
part of a timebase ns, in 10⁻⁹, that the rate trim has accumulated; `cycle` counts core cycles, with `cycFrac` thirds
of one left over (R128, R445). -/
structure Time where
  ns : Nat
  tb : Nat
  frac : Int
  runs : Bool
  trim : Int
  cycle : Nat
  cycFrac : Nat
  locks : Nat
  pps : Nat
  offset : Int
  accepted : Nat
  rejects : Nat
  last : Nat
  load : Option Nat
  lastEdge : Option Nat
  lastObeyed : Option Nat
  inWindow : Nat
  deriving DecidableEq, Repr

/-- Power as a start finds it, with nothing measured.
Log entry 97 (DESIGN CHOICE). -/
def Power.clear : Power :=
  { failedPhases := [], senseLost := [], regOff := [], failedMask := [], clusterState := [], darkened := [], darkAt := [],
    regionState := [], temp := [], history := [], peak := [], rise := [], sensor := [], broken := [], apart := [],
    stackTemps := [], inletMicro := 0, inletMilliAmp := 0, powers := [], railVolt := [], railAmp := [], clusterAmp := [],
    railMin := [], clusterMin := [], averages := [], suspects := [], step := 0, throttleCause := 0, throttleNs := 0,
    stepSince := 0, calm := 0, unmetRounds := 0, unmetSent := false, trips := [], coolSince := none, measured := false }

/-- Time at the beginning of a start: the timebase reads 0 and does not count (R448).
Log entry 97 (DESIGN CHOICE). -/
def Time.clear : Time :=
  { ns := 0, tb := 0, frac := 0, runs := false, trim := 0, cycle := 0, cycFrac := 0, locks := 0, pps := 0, offset := 0, accepted := 0,
    rejects := 0, last := 0, load := none, lastEdge := none, lastObeyed := none, inWindow := 0 }

end Sys2Proof.Machine
end

