-- ==== Sys2Proof/Machine/State.lean ====
section
/-! DEFINITION. The state of the LV640 as the model holds it: every block of the manual, the queue of waiting commands,
and the model's own counter of free values; the two ways a command can fail to have an effect; and the state at reset. -/

namespace Sys2Proof.Machine

/-- The whole device. `pending` is the queue of commands, first in, first out; `free` the counter that each free value
reads and advances (the model's own field); `out` what the device has sent, newest first. `cores` is keyed by core
position (R13), `links` by link number (R19).
Log entry 1 (DESIGN CHOICE). -/
structure State where
  pending : List Instr
  free : Nat
  out : List Out
  time : Time
  boot : Boot
  flash : Flash
  power : Power
  keeper : Keeper
  fountain : Fountain
  cores : Sparse Pos
  cistern : Cistern
  reservoir : Reservoir
  sluice : Sluice
  links : Sparse Link
  pool : Pool
  port : Port
  deriving DecidableEq, Repr

/-- Why the block would stop with a fault: never. Every fault of the manual is a code that the device records in its own
state and goes on from (R62, R464), so no command of the block stops the model, and the type has no constructor.
Log entry 105 (DESIGN CHOICE). -/
inductive Fault where
  deriving DecidableEq, Repr

/-- Why a command has no meaning.
Log entry 105 (DESIGN CHOICE). -/
inductive Refusal where
  /-- Raised by an arm of `exec` whose command this model does not give a meaning yet. Safe: the model stops where the
  hardware goes on. -/
  | notModelled (mnemonic : String)
  deriving DecidableEq, Repr

/-- The device just after 44 V is applied, at the beginning of S0 of a cold start (R401): STAGE 0, every object at its
default, every memory as the fills leave it, no command waiting.
Log entries 95 (DESIGN CHOICE); 97 (DESIGN CHOICE). -/
def State.reset : State :=
  { pending := [], free := 0, out := [], time := Time.clear, boot := Boot.powerOn,
    flash := { Flash.blank with startCount := 1 }, power := Power.clear, keeper := Keeper.clear,
    fountain := Fountain.clear, cores := [], cistern := Cistern.clear, reservoir := Reservoir.unmapped,
    sluice := Sluice.clear, links := [], pool := Pool.alone, port := Port.reset }

end Sys2Proof.Machine
end

