-- ==== Sys2Proof/Machine/Crypto.lean ====
section
/-! DEFINITION. The digests and signatures that the device computes (R480 to R486): SHA-256 of FIPS 180-4, ECDSA on curve
P-256 of FIPS 186-4, the signed envelope, and the identity. -/

namespace Sys2Proof.Machine

/-! ### SHA-256 -/

/-- The round constants of SHA-256. -/
def shaK : List Nat :=
  [0x428a2f98, 0x71374491, 0xb5c0fbcf, 0xe9b5dba5, 0x3956c25b, 0x59f111f1, 0x923f82a4, 0xab1c5ed5] ++
  [0xd807aa98, 0x12835b01, 0x243185be, 0x550c7dc3, 0x72be5d74, 0x80deb1fe, 0x9bdc06a7, 0xc19bf174] ++
  [0xe49b69c1, 0xefbe4786, 0x0fc19dc6, 0x240ca1cc, 0x2de92c6f, 0x4a7484aa, 0x5cb0a9dc, 0x76f988da] ++
  [0x983e5152, 0xa831c66d, 0xb00327c8, 0xbf597fc7, 0xc6e00bf3, 0xd5a79147, 0x06ca6351, 0x14292967] ++
  [0x27b70a85, 0x2e1b2138, 0x4d2c6dfc, 0x53380d13, 0x650a7354, 0x766a0abb, 0x81c2c92e, 0x92722c85] ++
  [0xa2bfe8a1, 0xa81a664b, 0xc24b8b70, 0xc76c51a3, 0xd192e819, 0xd6990624, 0xf40e3585, 0x106aa070] ++
  [0x19a4c116, 0x1e376c08, 0x2748774c, 0x34b0bcb5, 0x391c0cb3, 0x4ed8aa4a, 0x5b9cca4f, 0x682e6ff3] ++
  [0x748f82ee, 0x78a5636f, 0x84c87814, 0x8cc70208, 0x90befffa, 0xa4506ceb, 0xbef9a3f7, 0xc67178f2]

/-- The initial hash value. -/
def shaInit : List (BitVec 32) :=
  [0x6a09e667#32, 0xbb67ae85#32, 0x3c6ef372#32, 0xa54ff53a#32, 0x510e527f#32, 0x9b05688c#32, 0x1f83d9ab#32, 0x5be0cd19#32]

def shaRotr (x : BitVec 32) (n : Nat) : BitVec 32 := (x >>> n) ||| (x <<< (32 - n))
def shaS0 (x : BitVec 32) : BitVec 32 := shaRotr x 7 ^^^ shaRotr x 18 ^^^ (x >>> 3)
def shaS1 (x : BitVec 32) : BitVec 32 := shaRotr x 17 ^^^ shaRotr x 19 ^^^ (x >>> 10)
def shaB0 (x : BitVec 32) : BitVec 32 := shaRotr x 2 ^^^ shaRotr x 13 ^^^ shaRotr x 22
def shaB1 (x : BitVec 32) : BitVec 32 := shaRotr x 6 ^^^ shaRotr x 11 ^^^ shaRotr x 25

/-- The message, the bit 1, zeros, and its length in bits, in whole blocks of 64 bytes. -/
def shaPad (bs : List Byte) : List Byte :=
  let n := bs.length
  bs ++ [0x80#8] ++ List.replicate ((119 - n % 64) % 64) 0#8 ++ beBytes 8 (8 * n)

/-- The message schedule, latest word first: `n` more words. -/
def shaSchedule : Nat → List (BitVec 32) → List (BitVec 32)
  | 0, ws => ws
  | n + 1, ws =>
    let g (i : Nat) : BitVec 32 := ws.getD i 0#32
    shaSchedule n ((shaS1 (g 1) + g 6 + shaS0 (g 14) + g 15) :: ws)

/-- One round, on the eight working variables a to h. -/
def shaRound (v : List (BitVec 32)) (kw : Nat × BitVec 32) : List (BitVec 32) :=
  let g (i : Nat) : BitVec 32 := v.getD i 0#32
  let ch := (g 4 &&& g 5) ^^^ (~~~(g 4) &&& g 6)
  let maj := (g 0 &&& g 1) ^^^ (g 0 &&& g 2) ^^^ (g 1 &&& g 2)
  let t1 := g 7 + shaB1 (g 4) + ch + BitVec.ofNat 32 kw.1 + kw.2
  let t2 := shaB0 (g 0) + maj
  [t1 + t2, g 0, g 1, g 2, g 3 + t1, g 4, g 5, g 6]

/-- One block of 64 bytes taken into the hash value. -/
def shaBlock (h : List (BitVec 32)) (blk : List Byte) : List (BitVec 32) :=
  let ws := (List.range 16).map (fun i => BitVec.ofNat 32 (beNat (slice blk (4 * i) 4)))
  let all := (shaSchedule 48 ws.reverse).reverse
  let v := (shaK.zip all).foldl shaRound h
  (h.zip v).map (fun e => e.1 + e.2)

/-- SHA-256 of a byte string. -/
def sha256 (bs : List Byte) : List Byte :=
  let p := shaPad bs
  let h := (List.range (p.length / 64)).foldl (fun st i => shaBlock st (slice p (64 * i) 64)) shaInit
  h.flatMap (fun x => beBytes 4 x.toNat)

/-! ### P-256 -/

/-- The field's prime. -/
def ecP : Nat := 0xffffffff00000001000000000000000000000000ffffffffffffffffffffffff
/-- The order of the base point. -/
def ecN : Nat := 0xffffffff00000000ffffffffffffffffbce6faada7179e84f3b9cac2fc632551
/-- The curve's constant b; its a is −3. -/
def ecB : Nat := 0x5ac635d8aa3a93e7b3ebbd55769886bc651d06b0cc53b0f63bce3c3e27d2604b
/-- The base point. -/
def ecG : Nat × Nat :=
  (0x6b17d1f2e12c4247f8bce6e563a440f277037d812deb33a0f4a13945d898c296,
   0x4fe342e2fe1a7f9b8ee7eb4a7c0f9e162bce33576b315ececbb6406837bf51f5)

/-- x to the power e modulo m, by `fuel` squarings. -/
def powMod (m : Nat) : Nat → Nat → Nat → Nat
  | 0, _, _ => 1 % m
  | fuel + 1, x, e => if e = 0 then 1 % m else
      let r := powMod m fuel (x * x % m) (e / 2)
      if e % 2 = 1 then r * x % m else r

/-- The inverse modulo a prime of 256 bits. -/
def invMod (m x : Nat) : Nat := powMod m 256 x (m - 2)

/-- The sum of two points; none is the point at infinity. -/
def ecAdd : Option (Nat × Nat) → Option (Nat × Nat) → Option (Nat × Nat)
  | none, q => q
  | p, none => p
  | some (x1, y1), some (x2, y2) =>
    if x1 = x2 ∧ (y1 + y2) % ecP = 0 then none
    else
      let l := if x1 = x2 then (3 * x1 * x1 + (ecP - 3)) * invMod ecP (2 * y1 % ecP) % ecP
        else (y2 + ecP - y1) * invMod ecP ((x2 + ecP - x1) % ecP) % ecP
      let x3 := (l * l + 2 * ecP - x1 - x2) % ecP
      some (x3, (l * (x1 + ecP - x3) + ecP - y1) % ecP)

/-- k times a point, by `fuel` doublings. -/
def ecMul : Nat → Nat → Option (Nat × Nat) → Option (Nat × Nat)
  | 0, _, _ => none
  | fuel + 1, k, p =>
    if k = 0 then none else
      let r := ecMul fuel (k / 2) (ecAdd p p)
      if k % 2 = 1 then ecAdd r p else r

/-- A point of the curve. -/
def ecOn (p : Nat × Nat) : Bool :=
  decide (p.1 < ecP ∧ p.2 < ecP) && p.2 * p.2 % ecP == (p.1 * p.1 % ecP * p.1 + (ecP - 3) * p.1 + ecB) % ecP

/-- (r, s) is a valid signature of a digest by a public key.
Log entry 91 (DESIGN CHOICE). -/
def ecdsaOk (key : Nat × Nat) (digest : List Byte) (r s : Nat) : Bool :=
  if r = 0 ∨ ecN ≤ r ∨ s = 0 ∨ ecN ≤ s ∨ ecOn key = false then false
  else
    let e := beNat (digest.take 32)
    let w := invMod ecN s
    match ecAdd (ecMul 256 (e * w % ecN) (some ecG)) (ecMul 256 (r * w % ecN) (some key)) with
    | none => false
    | some (x, _) => x % ecN == r

/-- The 65-byte uncompressed form of the public point of a scalar. -/
def ecPublic (d : Nat) : List Byte :=
  match ecMul 256 d (some ecG) with
  | some (x, y) => 0x04#8 :: (beBytes 32 x ++ beBytes 32 y)
  | none => []

/-! ### Identity (R484) -/

/-- The identity digest: SHA-256 of the public point. -/
def identityDigest (s : State) : List Byte := sha256 s.flash.idPoint

/-- The identity serial: bytes 24 to 31 of the digest, most significant first; 0 while there is no identity. -/
def identitySerial (s : State) : Nat := if s.flash.idPoint = [] then 0 else beNat (slice (identityDigest s) 24 8)

/-! ### The signed envelope (R480, R481) -/

def envBodyLen (e : List Byte) : Nat := leAt e 12 4
def envVersion (e : List Byte) : Nat := leAt e 8 4
def envBody (e : List Byte) : List Byte := slice e 48 (envBodyLen e)
def envBound (e : List Byte) : List Byte := slice e 16 32

/-- The reserved bytes of a BODY are zero (R481): those of a table, a licence and a token (R483, R487, R490).
Log entry 89 (DEDUCED). -/
def envReserved (kind : Nat) (e : List Byte) : Bool :=
  if kind = 3 then leAt e 52 4 == 0 else if kind = 5 then leAt e 49 7 == 0 else if kind = 6 then leAt e 50 6 == 0 else true

/-- The whole object is present: MAGIC, FORMAT, KIND, zeros, and a length that agrees. -/
def envShape (kind : Nat) (e : List Byte) : Bool :=
  leAt e 0 4 == 0x4F515347 && leAt e 4 1 == 1 && leAt e 5 1 == kind && decide (leAt e 6 1 ≤ 3) && leAt e 7 1 == 0 &&
    decide (112 ≤ e.length) && e.length == 112 + envBodyLen e && envReserved kind e

/-- The signature of an object is valid under its root key. -/
def envSigned (keys : List (Nat × Nat)) (e : List Byte) : Bool :=
  let n := 48 + envBodyLen e
  match keys[leAt e 6 1]? with
  | none => false
  | some k => ecdsaOk k (sha256 (e.take n)) (beNat (slice e n 32)) (beNat (slice e (n + 32) 32))

/-- BOUND_TO is as R481 asks for the kind. -/
def envBoundOk (s : State) (kind : Nat) (e : List Byte) : Bool :=
  if kind ≤ 4 then envBound e == List.replicate 32 0#8 else envBound e == identityDigest s

/-- An object of a kind is valid (R481).
Log entry 91 (DESIGN CHOICE). -/
def envValid (s : State) (kind : Nat) (e : List Byte) : Bool :=
  envShape kind e && envSigned s.boot.rootKeys e && envBoundOk s kind e

/-- The version of an image slot: 0 where it holds no valid image (R390, R512). -/
def slotVersion (s : State) (kind : Nat) (e : List Byte) : Nat := if envValid s kind e then envVersion e else 0

/-- A pair of versions is in a table's BODY (R483). -/
def pairInTable (table : List Byte) (keeper fountain : Nat) : Bool :=
  let b := envBody table
  (List.range (min (leAt b 0 4) 4096)).any (fun i =>
    leAt b (8 + 8 * i) 4 == keeper && leAt b (12 + 8 * i) 4 == fountain && decide (8 * i + 16 ≤ b.length))

end Sys2Proof.Machine
end

