-- ==== Sys2Proof/Machine/Ops.lean ====
section
/-! DEFINITION. The shared operations: reading and writing each part of the state, numeric objects, free values, event
frames and error records (R371, R372, R464, R465). -/

namespace Sys2Proof.Machine

/-- A free value's seed: the counter, and the state with the counter advanced.
Log entry 4 (DESIGN CHOICE). -/
def takeFree (s : State) : Nat × State := (s.free, { s with free := s.free + 1 })

/-- Record an output of the device.
Log entry 100 (DESIGN CHOICE). -/
def emit (s : State) (o : Out) : State := { s with out := o :: s.out }

/-! ### Numeric objects held by the Keeper -/

/-- The value of a numeric object that the Keeper holds (R358). -/
def getObj (s : State) (k : Nat) : Nat := mapGet (objDefault k) s.keeper.obj k

/-- Set a numeric object. -/
def setObj (s : State) (k v : Nat) : State :=
  { s with keeper := { s.keeper with obj := mapSet (objDefault k) s.keeper.obj k v } }

/-- The width of an object's value in bits, which its counters wrap at (R387). -/
def objBits (k : Nat) : Nat := ((objRow k).map (fun r => 8 * r.ty.width)).getD 64

/-- Add to a counter object, which wraps (R387). -/
def bump (s : State) (k n : Nat) : State := setObj s k ((getObj s k + n) % 2 ^ objBits k)

/-- A BYTES object that the Keeper holds. -/
def getBytes (s : State) (k : Nat) : List Byte := mapGet [] s.keeper.objB k

/-- Set a BYTES object. -/
def setBytes (s : State) (k : Nat) (v : List Byte) : State :=
  { s with keeper := { s.keeper with objB := mapSet [] s.keeper.objB k v } }

/-! ### Time -/

/-- The timebase now: 0 until S1 starts it (R448). -/
def stamp (s : State) : Nat := s.time.tb

/-- Elapsed ns, the model's own clock for intervals. -/
def now (s : State) : Nat := s.time.ns

/-! ### Frames as bytes (R7, R366, R371) -/

/-- A number of `n` bytes. -/
def mbBytes (be : Bool) (n v : Nat) : List Byte := if be then beBytes n v else leBytes n v

/-- The 32 bytes of a Casaro header (R366). -/
def headerBytes (be : Bool) (h : CasHdr) (op : Nat) : List Byte :=
  mbBytes be 2 h.magic ++ leBytes 1 h.version ++ leBytes 1 h.kind ++ mbBytes be 2 h.tag ++ leBytes 1 h.target ++ leBytes 1 op ++
    mbBytes be 2 h.code ++ mbBytes be 2 h.length ++ mbBytes be 4 h.txn ++ mbBytes be 8 h.sourceId ++ mbBytes be 8 h.timebase

/-- The 32-byte head of an event; `multi` writes a number of several bytes in the byte order wanted. -/
def eventHead (multi : Nat → Nat → List Byte) (e : Event) : List Byte :=
  multi 4 e.seq ++ multi 2 (e.code % 4096) ++ leBytes 1 e.severity ++ leBytes 1 e.origin ++ multi 2 e.slot ++
    leBytes 1 e.device ++ leBytes 1 0 ++ multi 4 e.tag ++ multi 8 e.stamp ++ multi 4 e.unit ++ leBytes 4 0

/-- The event frame of an event as it is built now, in network byte order; the detail is laid out as its own tables say (R7,
R366, R371).
Log entry 64 (DEDUCED). -/
def eventFrame (s : State) (e : Event) : List Byte :=
  headerBytes true { magic := 0x4341, version := 1, kind := 2, tag := 0, target := 0xFF, code := 0, length := 32 + e.detail.length, txn := 0,
                     sourceId := identitySerial s, timebase := stamp s } 0x30 ++ eventHead beBytes e ++ e.detail

/-! ### The private channel (R18, R183) -/

/-- Requests in a position's channel queue: one leaves it in each fabric cycle, two a ns (R181).
Log entry 111 (DESIGN CHOICE). -/
def chanQueued (s : State) (c : Pos) : Nat := c.chan - 2 * (now s - c.chanAt)

/-- The queue holds its 256 requests: groups that issue to the channel are not ready, and the engines stall (R183). -/
def chanFull (s : State) (c : Pos) : Bool := decide (256 ≤ chanQueued s c)

/-- `n` requests enter the queue, behind what it holds (R18). -/
def chanAdd (s : State) (n : Nat) (c : Pos) : Pos := { c with chan := chanQueued s c + n, chanAt := now s }

/-! ### Events -/

/-- The field network is up: the Keeper runs, from S2 on or when start-up has stopped (R360, R404). -/
def netUp (s : State) : Bool := s.boot.powered && (s.boot.keeperRuns || s.boot.stopped)

/-- The frames sent in the last second (R372). -/
def recentFrames (s : State) : List Nat := s.keeper.sentAt.filter (fun t => decide (now s < t + 1000000000))

/-- Put an event into the ring and send its frame under R372. `always`: a stage report or severity 3.
Log entry 74 (DEDUCED). -/
def pushEvent (s : State) (e : Event) (always : Bool) : State :=
  let seq := (s.keeper.eventSeq + 1) % 2 ^ 32
  let recent := recentFrames s
  let room := decide (recent.length < getObj s Key.eventRate)
  let send := netUp s && (always || room)
  let e' := { e with seq := seq, sent := send }
  let s1 := { s with keeper := { s.keeper with
    eventSeq := seq, ring := (e' :: s.keeper.ring).take 1024,
    sentAt := if send && !always then now s :: recent else recent } }
  if send then bump (emit s1 (.event (eventFrame s1 e'))) Key.framesTx 1
  else if netUp s then bump s1 Key.eventsUnsent 1 else s1

/-- The block that an event comes from (ORIGIN of R371). -/
inductive EvOrigin where
  | keeper | fountain | sluice | core | weir | cistern | reservoir | link | hostPort | power
  deriving DecidableEq, Repr

/-- ORIGIN's number (R371). -/
def EvOrigin.code : EvOrigin → Nat
  | .keeper => 0 | .fountain => 1 | .sluice => 2 | .core => 3 | .weir => 4 | .cistern => 5 | .reservoir => 6 | .link => 7
  | .hostPort => 8 | .power => 9

/-- Count an occurrence of a code (R397, R465). -/
def countCode (s : State) (code : Nat) : State :=
  setObj (bump s (Key.codeCount code) 1) (Key.codeLast code) (stamp s)

/-- What an error record says (R464), less what the device fills in itself. -/
structure ErrRec where
  code : Nat
  sev : Nat
  origin : EvOrigin
  slot : Nat := 0xFFFF
  tag : Nat := 0
  unit : Nat := 0xFFFFFFFF
  addr : Nat := 0
  group : Nat := 0xFFFFFFFF
  pc : Nat := 0xFFFFFFFF
  order : Nat := 1
  replays : Nat := 0
  writer : Nat := 0
  extra : List Byte := []
  deriving DecidableEq, Repr

/-- The detail bytes of an error record (R464). -/
def errDetail (r : ErrRec) : List Byte :=
  leBytes 8 r.addr ++ leBytes 4 r.group ++ leBytes 4 r.pc ++ leBytes 1 r.order ++ leBytes 1 r.replays ++
  leBytes 2 r.extra.length ++ leBytes 4 r.writer ++ r.extra

/-- Raise an error record: an event frame with R464's detail, counted in ERRORS, CODE_COUNT and CODE_LAST (R465).
Log entry 74 (DEDUCED). -/
def raise (s : State) (r : ErrRec) : State :=
  let s1 := countCode (bump s Key.errors 1) r.code
  pushEvent s1
    { seq := 0, code := r.code, severity := r.sev, origin := r.origin.code, slot := r.slot, device := s.pool.device,
      tag := r.tag, stamp := stamp s, unit := r.unit, detail := errDetail r, sent := false } (r.sev == 3)

/-- An event that concerns one unit and carries at most a few numbers (EXTRA, 4 bytes each).
Log entry 74 (DEDUCED). -/
def raiseUnit (s : State) (code sev : Nat) (origin : EvOrigin) (unit : Nat) (nums : List Nat) : State :=
  raise s { code := code, sev := sev, origin := origin, unit := unit, extra := nums.flatMap (leBytes 4) }

/-! ### Parts of the state by number -/

/-- The core position `p` (R13). -/
def getPos (s : State) (p : Nat) : Pos := mapGet Pos.idle s.cores p

def setPos (s : State) (p : Nat) (c : Pos) : State := { s with cores := mapSet Pos.idle s.cores p c }

/-- The group in slot `g` of position `p` (R73). -/
def getGroup (s : State) (p g : Nat) : Option Group := mapGet none (getPos s p).groups g

def setGroup (s : State) (p g : Nat) (x : Option Group) : State :=
  let c := getPos s p
  setPos s p { c with groups := mapSet none c.groups g x }

/-- Change a resident group. -/
def modGroup (s : State) (p g : Nat) (f : Group → Group) : State := setGroup s p g ((getGroup s p g).map f)

/-- Task slot `n`; none in state 0 (R28). -/
def getSlot (s : State) (n : Nat) : Option Slot := mapGet none s.fountain.slots n

def setSlot (s : State) (n : Nat) (x : Option Slot) : State :=
  { s with fountain := { s.fountain with slots := mapSet none s.fountain.slots n x } }

/-- Dependency counter `c` (R46). -/
def getCounter (s : State) (c : Nat) : Counter := mapGet ⟨0, false⟩ s.fountain.counters c

def setCounter (s : State) (c : Nat) (x : Counter) : State :=
  { s with fountain := { s.fountain with counters := mapSet ⟨0, false⟩ s.fountain.counters c x } }

/-- Global slice `g` (R212). -/
def getSlice (s : State) (g : Nat) : Slice := mapGet Slice.empty s.cistern.slices g

def setSlice (s : State) (g : Nat) (x : Slice) : State :=
  { s with cistern := { s.cistern with slices := mapSet Slice.empty s.cistern.slices g x } }

/-- Reservoir channel `ch` of stack `st` (R242). -/
def getChan (s : State) (st ch : Nat) : Channel := mapGet Channel.idle s.reservoir.chans (st * 128 + ch)

def setChan (s : State) (st ch : Nat) (x : Channel) : State :=
  { s with reservoir := { s.reservoir with chans := mapSet Channel.idle s.reservoir.chans (st * 128 + ch) x } }

/-- Rill link `l` (R19). -/
def getLink (s : State) (l : Nat) : Link := mapGet Link.idle s.links l

def setLink (s : State) (l : Nat) (x : Link) : State := { s with links := mapSet Link.idle s.links l x }

/-- Sequence `n` (R264). -/
def getSeq (s : State) (n : Nat) : Option Seqn := mapGet none s.sluice.seqs n

def setSeq (s : State) (n : Nat) (x : Option Seqn) : State :=
  { s with sluice := { s.sluice with seqs := mapSet none s.sluice.seqs n x } }

/-- The Sluice's space in half `h`: 0 west, 1 east. -/
def getHalf (s : State) (h : Nat) : HalfSpace := if h = 0 then s.sluice.west else s.sluice.east

def setHalf (s : State) (h : Nat) (x : HalfSpace) : State :=
  if h = 0 then { s with sluice := { s.sluice with west := x } } else { s with sluice := { s.sluice with east := x } }

/-- The state CORE_STATE shows for a position (R385): 0 not enabled, 1 enabled, 2 draining, 3 withdrawn, 4 retired. -/
def coreState (s : State) (p : Nat) : Nat := mapGet 0 s.keeper.cores p

def setCoreState (s : State) (p v : Nat) : State :=
  { s with keeper := { s.keeper with cores := mapSet 0 s.keeper.cores p v } }

/-- CLASS_STATE (R385): 0 enabled, 1 draining, 2 withdrawn. -/
def classState (s : State) (c : Nat) : Nat := mapGet 0 s.keeper.classes c

def setClassState (s : State) (c v : Nat) : State :=
  { s with keeper := { s.keeper with classes := mapSet 0 s.keeper.classes c v } }

/-- Every position, rising (R13): the west half's 272, then the east half's. -/
def positions : List Nat := List.range 544

/-- The positions at which some state differs from idle, rising. -/
def busyPositions (s : State) : List Nat := mapKeys s.cores

/-- Apply `f` for each element of a list in turn.
Log entry 102 (DESIGN CHOICE). -/
def forEach {α : Type} (xs : List α) (s : State) (f : State → α → State) : State := xs.foldl f s

/-- Replace the first element that satisfies `p`. -/
def replaceFirst {α : Type} (p : α → Bool) (f : α → α) : List α → List α
  | [] => []
  | x :: xs => if p x then f x :: xs else x :: replaceFirst p f xs

/-- The device serves work: S10 has ended, it has power and its rails are on (R403, R419). -/
def inService (s : State) : Bool := s.boot.powered && decide (s.boot.stage = 10) && decide (s.boot.done = 11) && decide (s.boot.dark = .none)

/-- A Cistern-only reset is between its first and last step (R413). -/
def inCisReset (s : State) : Bool := s.cistern.reset.isSome

/-! ### Flash (R389, R407) -/

/-- A write of an object kept in flash is put in the list of stores under way. -/
def storeObj (s : State) (k v : Nat) : State :=
  { s with flash := { s.flash with stores := s.flash.stores ++ [.obj k v] } }

/-- START_COUNT (R400). -/
def startCount (s : State) : Nat := s.flash.startCount

/-- The 28 bytes of a defect record before its check (R407). -/
def defectBody (kind source unit detail code stampTb startCt : Nat) : List Byte :=
  leBytes 2 0x4445 ++ leBytes 1 kind ++ leBytes 1 source ++ leBytes 4 unit ++ leBytes 4 detail ++ leBytes 2 code ++
  leBytes 2 0 ++ leBytes 8 stampTb ++ leBytes 4 startCt

/-- A whole defect record (R407). -/
def defectRecord (kind source unit detail code stampTb startCt : Nat) : List Byte :=
  let b := defectBody kind source unit detail code stampTb startCt
  b ++ leBytes 4 (crc32c b)

/-- A record's fields (R407). -/
def recKind (b : List Byte) : Nat := leAt b 2 1
def recUnit (b : List Byte) : Nat := leAt b 4 4
def recDetail (b : List Byte) : Nat := leAt b 8 4
def recCheck (b : List Byte) : Nat := leAt b 28 4

/-- A record whose MAGIC or CHECK is wrong is torn (R407). -/
def recTorn (b : List Byte) : Bool := leAt b 0 2 != 0x4445 || recCheck b != crc32c (b.take 28)

/-- A whole KIND 15 record of the list names this index (R408). -/
def recCancelled (s : State) (i : Nat) : Bool :=
  s.flash.defects.any (fun d => !recTorn d.bytes && recKind d.bytes == 15 && recUnit d.bytes == i)

/-- The uncancelled, whole records of a kind, oldest first. -/
def liveRecords (s : State) (kind : Nat) : List (List Byte) :=
  (s.flash.defects.zipIdx.filter (fun e => !recTorn e.1.bytes && recKind e.1.bytes == kind && !recCancelled s e.2)).map
    (fun e => e.1.bytes)

/-- An uncancelled record names this unit under this kind (and detail, for KIND 6 and 9, whose units hold several). -/
def isDefect (s : State) (kind unit : Nat) : Bool := (liveRecords s kind).any (fun b => recUnit b == unit)

/-- The record to append would name again what an uncancelled record names (R407).
Log entry 75 (DEDUCED). -/
def isNamed (s : State) (kind unit detail : Nat) : Bool :=
  (liveRecords s kind).any (fun b => recUnit b == unit && (recDetail b == detail || !(kind == 6 || kind == 9)))

/-- Append a defect record of what was found at the timebase stamp `at_`, unless it is named already; at 4,096 records the
defect is not recorded and DEFECT_LIST_FULL is sent (R407, R408).
Log entry 75 (DEDUCED). -/
def appendFound (s : State) (kind source unit detail code at_ : Nat) : State :=
  if kind != 15 && isNamed s kind unit detail then s
  else if s.flash.defects.length ≥ 4096 then
    raiseUnit s Code.defectListFull 1 .keeper unit []
  else
    let rec_ := defectRecord kind source unit detail code at_ (startCount s)
    { s with
      flash := { s.flash with defects := s.flash.defects ++ [⟨rec_, false⟩],
                              stores := s.flash.stores ++ [.defect s.flash.defects.length] },
      boot := { s.boot with newEntries := s.boot.newEntries + 1 } }

/-- Append a defect record of what is found now.
Log entry 75 (DEDUCED). -/
def appendDefect (s : State) (kind source unit detail code : Nat) : State := appendFound s kind source unit detail code (stamp s)

/-! ### Regulator clusters (R422) -/

/-- The positions that a cluster feeds. -/
def patchOf (k : Nat) : List Nat :=
  let j := k % 96
  let qs := if j < 80 then [3 * j, 3 * j + 1, 3 * j + 2] else [240 + 2 * (j - 80), 241 + 2 * (j - 80)]
  qs.map (· + 272 * (k / 96))

/-- The cluster that feeds a position. -/
def clusterOf (p : Nat) : Nat :=
  let q := p % 272
  p / 272 * 96 + (if q < 240 then q / 3 else 80 + (q - 240) / 2)

/-- The position's cluster is in the defect list, and so is the position (R14, R424). -/
def darkPosition (s : State) (p : Nat) : Bool := isDefect s 7 (clusterOf p)

end Sys2Proof.Machine
end

