-- ==== Sys2Proof/Machine/Task.lean ====
section
/-! DEFINITION. Task records and slots: the fields of a record (R30 to R36), the record check (R38), the status word
(R62, R63), and the resources that a task's groups take on a core (R53, R73 to R75). -/

namespace Sys2Proof.Machine

/-! ### The record's fields -/

/-- Word `i` of a record (R30). -/
def recWord (ws : List Word64) (i : Nat) : Nat := (ws.getD i 0#64).toNat

def recSlot (ws : List Word64) : Nat := bits (recWord ws 1) 63 48
def recVersion (ws : List Word64) : Nat := bits (recWord ws 1) 47 40
def recClass (ws : List Word64) : Nat := bits (recWord ws 1) 39 37
def recFlush (ws : List Word64) : Bool := bit (recWord ws 1) 36
def recTaskKind (ws : List Word64) : Nat := bits (recWord ws 1) 35 34
def recCosched (ws : List Word64) : Bool := bit (recWord ws 1) 33
def recReplay (ws : List Word64) : Bool := bit (recWord ws 1) 32
def recTag (ws : List Word64) : Nat := bits (recWord ws 1) 31 0
def recEntry (ws : List Word64) : Nat := recWord ws 2
def recGroups (ws : List Word64) : Nat := bits (recWord ws 3) 23 0
def recRegs (ws : List Word64) : Nat := bits (recWord ws 3) 31 24
def recStaging (ws : List Word64) : Nat := bits (recWord ws 3) 47 36
def recMaxPerCore (ws : List Word64) : Nat := bits (recWord ws 3) 55 48
def recWaits (ws : List Word64) : List Nat := (List.range 4).map (fun i => recWord ws (4 + i))
def recSignals (ws : List Word64) : List Nat := (List.range 4).map (fun i => recWord ws (8 + i))
def recBufs (ws : List Word64) : List Nat := (List.range 4).map (fun i => recWord ws (12 + i))
def recSeqs (ws : List Word64) : List Nat := (List.range 4).map (fun i => recWord ws (16 + i))
def recSeqList (ws : List Word64) : Nat := recWord ws 20
def recSeqCount (ws : List Word64) : Nat := bits (recWord ws 21) 63 52
def recTimeout (ws : List Word64) : Nat := bits (recWord ws 21) 31 0
def recArg (ws : List Word64) (k : Nat) : Nat := recWord ws (22 + k)

/-- VALID, bit 63 of every entry (R34 to R36). -/
def entValid (e : Nat) : Bool := bit e 63

/-- Wait and signal entries (R34). -/
def waitCounter (e : Nat) : Nat := bits e 46 32
def waitThreshold (e : Nat) : Nat := bits e 31 0
def sigSet (e : Nat) : Bool := bit e 62
def sigDevice (e : Nat) : Nat := bits e 61 56
def sigCounter (e : Nat) : Nat := bits e 46 32
def sigValue (e : Nat) : Nat := bits e 31 0

/-- Buffer entries (R35). -/
def bufLevel (e : Nat) : Nat := bits e 62 61
def bufPersist (e : Nat) : Bool := bit e 60
def bufFree (e : Nat) : Bool := bit e 59
def bufArg (e : Nat) : Nat := bits e 51 48
def bufPages (e : Nat) : Nat := bits e 31 0

/-- Sequence entries (R36). -/
def seqExtend (e : Nat) : Bool := bit e 62
def seqTokens (e : Nat) : Nat := bits e 55 40
def seqFirst (e : Nat) : Nat := bits e 39 20
def seqNumber (e : Nat) : Nat := bits e 16 0

/-- An entry that allocates a buffer. -/
def bufAllocates (e : Nat) : Bool := entValid e && !bufFree e

/-- Two valid allocating buffer entries name the same ARG (R38). -/
def argsClash (bs : List Nat) : Bool :=
  let as := (bs.filter bufAllocates).map bufArg
  decide (¬ as.Nodup)

/-- The record fails the check of R38. -/
def recordFails (ws : List Word64) : Bool :=
  recVersion ws != 1 || recTaskKind ws == 2 || recTaskKind ws == 3 ||
  (recTaskKind ws == 0 &&
    (recGroups ws == 0 || recRegs ws == 0 || decide (recStaging ws > 1024) || decide (recMaxPerCore ws > 64) ||
      recEntry ws % 8 != 0)) ||
  (recBufs ws).any (fun e => entValid e &&
    (decide (bufLevel e ≥ 2) || decide (bufArg e > 9) || (!bufFree e && bufPages e == 0))) ||
  argsClash (recBufs ws) ||
  (recSeqCount ws != 0 && recSeqList ws % 8 != 0)

/-- The bits of word `i` of a record that are not reserved (R30 to R36). -/
def recMask (i : Nat) : Nat :=
  if i = 3 then 0x00FFFFF0FFFFFFFF
  else if 4 ≤ i ∧ i < 8 then 0x80007FFFFFFFFFFF
  else if 8 ≤ i ∧ i < 12 then 0xFF007FFFFFFFFFFF
  else if 12 ≤ i ∧ i < 16 then 0xF80F0000FFFFFFFF
  else if 16 ≤ i ∧ i < 20 then 0xC0FFFFFFFFF1FFFF
  else if i = 21 then 0xFFF00000FFFFFFFF
  else 0xFFFFFFFFFFFFFFFF

/-- A record as a slot holds it: what was written to a reserved field is ignored and reads zero (R8, R30). -/
def maskRecord (ws : List Word64) : List Word64 := ws.zipIdx.map (fun e => e.1 &&& BitVec.ofNat 64 (recMask e.2))

/-- The words of a 256-byte record. -/
def wordsOf : Nat → List Byte → List Word64
  | 0, _ => []
  | n + 1, bs => BitVec.ofNat 64 (leAt bs 0 8) :: wordsOf n (bs.drop 8)

/-! ### Slots -/

/-- A slot just filled with a record: state 1 (R64). -/
def newSlot (ws : List Word64) (spawned posted : Bool) : Slot :=
  { words := maskRecord ws, state := 1, code := 0, flushed := false, replayed := false, progress := 0, spawned := spawned,
    posted := posted, replays := 0, satisfied := none, dispatchable := none, staging := .none, home := 0,
    nextGroup := 0, exited := 0, reserved := [], runStart := 0, ending := none, faults := 0, replayWait := none,
    silent := false, signalled := false, tbar := [], peersWritten := [], peerUser := false, windowUser := false, extends_ := [], retired := [], asked := [], freeing := [], seqList := [] }

/-- The state of slot `n` (R62): 0 where it holds no record. -/
def slotState (s : State) (n : Nat) : Nat := ((getSlot s n).map (·.state)).getD 0

/-- CODE as R63 gives it for each state. -/
def shownCode (sl : Slot) : Nat :=
  if sl.state ≤ 3 then 0 else if sl.state = 4 then Code.functionWithdrawn else sl.code

/-- The status word (R62). -/
def statusWord (untested : Bool) (sl : Slot) : Nat :=
  sl.state * 2 ^ 60 + shownCode sl * 2 ^ 48 + (if sl.flushed then 2 ^ 47 else 0) + (if untested then 2 ^ 46 else 0) +
    (if sl.replayed then 2 ^ 45 else 0) + sl.progress % 2 ^ 44

/-- The 256 bytes of a slot as any reader sees them (R28): zero in state 0 (R57). -/
def slotBytes (s : State) (n : Nat) : List Byte :=
  match getSlot s n with
  | none => List.replicate 256 0#8
  | some sl =>
    leBytes 8 (statusWord s.boot.untested sl) ++
      ((List.range 31).flatMap (fun i => leBytes 8 (recWord sl.words (i + 1))))

/-- Slots that hold a record, with their contents, rising. -/
def liveSlots (s : State) : List (Nat × Slot) := s.fountain.slots.filterMap (fun e => e.2.map (fun sl => (e.1, sl)))

/-- The number of slots in a state (30:0050). -/
def slotsIn (s : State) (st : Nat) : Nat :=
  let live := liveSlots s
  if st = 0 then 65536 - live.length else (live.filter (fun e => e.2.state == st)).length

/-- HOST_SLOTS, H (R29). -/
def hostSlots (s : State) : Nat := getObj s Key.hostSlots

/-- The number of free spawn slots (30:0051). -/
def freeSpawn (s : State) : Nat :=
  (65536 - hostSlots s) - ((liveSlots s).filter (fun e => decide (hostSlots s ≤ e.1))).length

/-- The lowest-numbered free spawn slot (R58). A host slot in state 5 or 6 that a lowered HOST_SLOTS has turned into a spawn
slot holds its record still and is not free.
Log entry 106 (DESIGN CHOICE). -/
def freeSpawnSlot (s : State) : Option Nat :=
  let used := ((liveSlots s).map (·.1)).filter (fun n => decide (hostSlots s ≤ n))
  let gap := (used.zipIdx.find? (fun e => e.1 != hostSlots s + e.2)).map (fun e => hostSlots s + e.2)
  match gap with
  | some n => some n
  | none => if hostSlots s + used.length < 65536 then some (hostSlots s + used.length) else none

/-- Change a slot that holds a record. -/
def modSlot (s : State) (n : Nat) (f : Slot → Slot) : State :=
  match getSlot s n with
  | none => s
  | some sl => setSlot s n (some (f sl))

/-- Set FLUSHED in a task's status word (R174). -/
def noteFlush (s : State) (n : Nat) (flushed : Bool) : State :=
  if flushed then modSlot s n (fun sl => { sl with flushed := true }) else s

/-- REPLAY as treated: 0 for a spawned task (R61). -/
def replayBit (sl : Slot) : Bool := recReplay sl.words && !sl.spawned

/-- A record enters slot `n`: the slot's contents are replaced and its use count rises (R44, R456). -/
def placeRecord (s : State) (n : Nat) (sl : Slot) : State :=
  let s1 := setSlot s n (some sl)
  { s1 with fountain := { s1.fountain with uses := mapMod 0 s1.fountain.uses n (· + 1) } }

/-- The writer tag of the task in slot `n` (R456). -/
def taskTag (s : State) (n : Nat) : Nat :=
  s.pool.device * 2 ^ 26 + (mapGet 0 s.fountain.uses n % 256) * 2 ^ 16 + n

/-- The writer tag of the host (R456). -/
def hostTag (s : State) : Nat := s.pool.device * 2 ^ 26 + 2 ^ 24

/-- The writer tag of a device agent (R456).
Log entry 57 (DEDUCED). -/
def agentTag (s : State) : Nat := s.pool.device * 2 ^ 26 + 2 * 2 ^ 24

/-- A unit's tag after a write by `w` (R456): 0 means no tag. -/
def mergeTag (fresh : Bool) (old w : Nat) : Nat :=
  if fresh || old = 0 then w else if old = w then old else old / 2 ^ 26 * 2 ^ 26 + 3 * 2 ^ 24 + old % 2 ^ 24

/-! ### Groups and cores -/

/-- The resident groups of a task: (position, slot). -/
def groupsOfTask (s : State) (n : Nat) : List (Nat × Nat) :=
  s.cores.flatMap (fun c => c.2.groups.filterMap (fun e =>
    match e.2 with
    | some g => if g.slot = n then some (c.1, e.1) else none
    | none => none))

/-- The resident groups of a core, by slot. -/
def coreGroups (c : Pos) : List (Nat × Group) := c.groups.filterMap (fun e => e.2.map (fun g => (e.1, g)))

/-- The groups reserved on position `p` by COSCHED tasks: their records, once for each group (R55). -/
def reservedOn (s : State) (p : Nat) : List (List Word64) :=
  (liveSlots s).flatMap (fun e => (e.2.reserved.filter (· == p)).map (fun _ => e.2.words))

/-- What a core has taken, in groups, register rows and staging units, with the reservations `rs`. -/
def coreUsed (c : Pos) (rs : List (List Word64)) : Nat × Nat × Nat :=
  let gs := coreGroups c
  (gs.length + rs.length, (gs.map (fun e => e.2.regs)).sum + (rs.map recRegs).sum,
    (gs.map (fun e => e.2.staging)).sum + (rs.map recStaging).sum)

/-- A group of the record fits a core that has taken `used` and holds `own` groups of the task (R53, R72). -/
def fitsUsed (ws : List Word64) (used : Nat × Nat × Nat) (own : Nat) : Bool :=
  decide (used.1 < 64) && decide (used.2.1 + recRegs ws ≤ 2048) && decide (used.2.2 + recStaging ws ≤ 1024) &&
    (recMaxPerCore ws == 0 || decide (own < recMaxPerCore ws))

/-- A core takes new groups: enabled, and not waiting to be tested or retired (R68, R461, R467). -/
def takesGroups (s : State) (p : Nat) : Bool :=
  coreState s p == 1 && !(s.keeper.testing.contains p) && !(s.boot.bad.contains p)

/-- The positions that take groups, rising. -/
def openCores (s : State) : List Nat := (mapKeys s.keeper.cores).filter (takesGroups s)

/-- The half of a position: 0 west, 1 east (R13). -/
def posHalf (p : Nat) : Nat := p / 272

/-- The logical number of a position, if it has one (R15). -/
def logicalOf (s : State) (p : Nat) : Nat := mapGet 0xFFFFFFFF s.boot.logical p

/-- The better of two cores for a group (R53): the half that holds most staged pages, fewest residents, lowest number. -/
def betterCore (s : State) (home : Nat) (resident : Nat → Nat) (a b : Nat) : Bool :=
  let ka := if posHalf a = home then 0 else 1
  let kb := if posHalf b = home then 0 else 1
  if ka ≠ kb then decide (ka < kb)
  else if resident a ≠ resident b then decide (resident a < resident b)
  else decide (logicalOf s a < logicalOf s b)

/-- The best of a list of cores. -/
def bestCore (s : State) (home : Nat) (resident : Nat → Nat) (ps : List Nat) : Option Nat :=
  ps.foldl (fun acc p => match acc with
    | none => some p
    | some q => if betterCore s home resident p q then some p else some q) none

/-- How many groups of the task in slot `n` a core holds or has reserved. -/
def ownOn (s : State) (n p : Nat) : Nat :=
  ((coreGroups (getPos s p)).filter (fun e => e.2.slot == n)).length +
    ((getSlot s n).map (fun sl => (sl.reserved.filter (· == p)).length)).getD 0

/-- The core that the next group of slot `n` goes to, if it fits any (R53). -/
def chooseCore (s : State) (n : Nat) (sl : Slot) : Option Nat :=
  let resident (p : Nat) : Nat := (coreGroups (getPos s p)).length
  bestCore s sl.home resident
    ((openCores s).filter (fun p => fitsUsed sl.words (coreUsed (getPos s p) (reservedOn s p)) (ownOn s n p)))

/-- Choose a core for each of `k` groups in turn against what is free, or none if some group fits nowhere (R55).
`extra` lists the cores already chosen; `idle` judges against empty cores. -/
def chooseAll (s : State) (n : Nat) (sl : Slot) (idle : Bool) : Nat → List Nat → Option (List Nat)
  | 0, acc => some acc.reverse
  | k + 1, acc =>
    let mine (p : Nat) : Nat := (acc.filter (· == p)).length
    let used (p : Nat) : Nat × Nat × Nat :=
      let u := if idle then (0, 0, 0) else coreUsed (getPos s p) (reservedOn s p)
      (u.1 + mine p, u.2.1 + mine p * recRegs sl.words, u.2.2 + mine p * recStaging sl.words)
    let own (p : Nat) : Nat := mine p + (if idle then 0 else ownOn s n p)
    let resident (p : Nat) : Nat := mine p + (if idle then 0 else (coreGroups (getPos s p)).length)
    match bestCore s sl.home resident ((openCores s).filter (fun p => fitsUsed sl.words (used p) (own p))) with
    | none => none
    | some p => chooseAll s n sl idle k (p :: acc)

/-- How many groups of a record one idle core holds (R72). -/
def perIdleCore (ws : List Word64) : Nat :=
  let r := if recRegs ws = 0 then 64 else 2048 / recRegs ws
  let t := if recStaging ws = 0 then 64 else 1024 / recStaging ws
  let m := if recMaxPerCore ws = 0 then 64 else recMaxPerCore ws
  min (min 64 r) (min t m)

/-- The enabled cores of R55's test: those in CORE_STATE 1. -/
def enabledCores (s : State) : List Nat := (mapKeys s.keeper.cores).filter (fun p => coreState s p == 1)

/-- A COSCHED record could not fit even on idle cores (R55). -/
def unfit (s : State) (ws : List Word64) : Bool :=
  recCosched ws && recTaskKind ws == 0 && decide (perIdleCore ws * (enabledCores s).length < recGroups ws)

/-! ### Errors of a task -/

/-- Raise an error record about the task in slot `n` (R464). -/
def raiseTask (s : State) (n : Nat) (r : ErrRec) : State :=
  match getSlot s n with
  | none => raise s { r with slot := n }
  | some sl => raise s { r with slot := n, tag := recTag sl.words, order := min (sl.faults + 1) 255, replays := sl.replays }

/-- End every resident group of a task at its next issue (R66). -/
def endGroups (s : State) (n : Nat) : State :=
  { s with cores := s.cores.map (fun c => (c.1, { c.2 with groups := c.2.groups.map (fun e =>
      (e.1, e.2.map (fun g => if g.slot = n then { g with ended := true } else g))) })) }

/-- A fault of a task that has groups (R66): the first fault gives CODE; every one sends its record (R465).
Log entry 27 (DESIGN CHOICE). -/
def faultTask (s : State) (n : Nat) (r : ErrRec) : State :=
  let s1 := raiseTask s n r
  let s2 := modSlot s1 n (fun sl =>
    { sl with faults := sl.faults + 1,
              ending := match sl.ending with
                | none => some { code := r.code, replay := none }
                | some e => some e })
  endGroups s2 n

end Sys2Proof.Machine
end

