-- ==== Sys2Proof/Machine/Rill.lean ====
section
/-! DEFINITION. The Rill links: frames and their correction (R302), flits (R304 to R307), pool geometry and routing
(R313 to R317), credits, replay and sending (R308, R310), and requests to peers (R307, R319). -/

namespace Sys2Proof.Machine

/-! ### GF(2⁸) and RS(136,130) (R302) -/

/-- Multiplication by α = 0x02 modulo 0x11D. -/
def gfDouble (a : Nat) : Nat := if a * 2 < 256 then a * 2 else (a * 2) ^^^ 0x11D

/-- The product of two field elements: `n` bits of `b` from the lowest. -/
def gfMulBits : Nat → Nat → Nat → Nat
  | 0, _, _ => 0
  | n + 1, a, b => (if b % 2 = 1 then a else 0) ^^^ gfMulBits n (gfDouble a) (b / 2)

def gfMul (a b : Nat) : Nat := gfMulBits 8 a b

/-- a·αⁿ. -/
def gfDoubles : Nat → Nat → Nat
  | 0, a => a
  | n + 1, a => gfDoubles n (gfDouble a)

def gfPow (a : Nat) : Nat → Nat
  | 0 => 1
  | n + 1 => gfMul a (gfPow a n)

/-- The product of a², a⁴, and so on, for `n` squares. -/
def gfSquares : Nat → Nat → Nat
  | 0, _ => 1
  | n + 1, a => gfMul (gfMul a a) (gfSquares n (gfMul a a))

/-- The inverse of a nonzero element: a²⁵⁴. -/
def gfInv (a : Nat) : Nat := gfSquares 7 a

/-- The syndrome at α^j: a codeword's value there, its first byte the highest coefficient. -/
def rsSyndrome (cw : List Nat) (j : Nat) : Nat := cw.foldl (fun acc b => gfDoubles j acc ^^^ b) 0

def gfDet2 (a b c d : Nat) : Nat := gfMul a d ^^^ gfMul b c

def gfDet3 (m : Nat → Nat → Nat) : Nat :=
  gfMul (m 0 0) (gfDet2 (m 1 1) (m 1 2) (m 2 1) (m 2 2)) ^^^
  gfMul (m 0 1) (gfDet2 (m 1 0) (m 1 2) (m 2 0) (m 2 2)) ^^^
  gfMul (m 0 2) (gfDet2 (m 1 0) (m 1 1) (m 2 0) (m 2 1))

/-- The solution of a 3 × 3 system by Cramer's rule, where the determinant `d` is not zero. -/
def gfSolve3 (m : Nat → Nat → Nat) (v : Nat → Nat) (d : Nat) : List Nat :=
  (List.range 3).map (fun k =>
    gfMul (gfDet3 (fun i j => if j = k then v i else m i j)) (gfInv d))

def gfSolve2 (m : Nat → Nat → Nat) (v : Nat → Nat) (d : Nat) : List Nat :=
  [gfMul (gfDet2 (v 0) (m 0 1) (v 1) (m 1 1)) (gfInv d), gfMul (gfDet2 (m 0 0) (v 0) (m 1 0) (v 1)) (gfInv d)]

/-- The error locator's coefficients from Λ1 on, for the largest number of errors up to 3 that the syndromes allow. -/
def rsLocator (s : Nat → Nat) : List Nat :=
  let m (i j : Nat) : Nat := s (i + j)
  let d3 := gfDet3 m
  if d3 ≠ 0 then (gfSolve3 m (fun i => s (3 + i)) d3).reverse
  else
    let d2 := gfDet2 (s 0) (s 1) (s 1) (s 2)
    if d2 ≠ 0 then (gfSolve2 m (fun i => s (2 + i)) d2).reverse
    else if s 0 ≠ 0 then [gfMul (s 1) (gfInv (s 0))] else []

/-- The locators X = α^p of the errors, for coefficient positions p below 136. -/
def rsRoots (lam : List Nat) : List Nat :=
  (List.range 136).filter (fun p =>
    let xi := gfDoubles (255 - p) 1
    ((lam.zipIdx.map (fun e => gfMul e.1 (gfPow xi (e.2 + 1)))).foldl (· ^^^ ·) 1) == 0)

/-- The error values at the positions found. -/
def rsValues (s : Nat → Nat) (ps : List Nat) : List Nat :=
  let x (k : Nat) : Nat := gfDoubles (ps.getD k 0) 1
  match ps.length with
  | 1 => [s 0]
  | 2 =>
    let m (i j : Nat) : Nat := gfPow (x j) i
    gfSolve2 m s (gfDet2 (m 0 0) (m 0 1) (m 1 0) (m 1 1))
  | 3 =>
    let m (i j : Nat) : Nat := gfPow (x j) i
    gfSolve3 m s (gfDet3 m)
  | _ => []

/-- A codeword with up to 3 bytes corrected, and how many were; none when it cannot be corrected.
Log entry 52 (PRESUMED). -/
def rsDecode (cw : List Nat) : Option (List Nat × Nat) :=
  let syn := (List.range 6).map (rsSyndrome cw)
  if syn.all (· == 0) then some (cw, 0)
  else
    let s (j : Nat) : Nat := syn.getD j 0
    let lam := rsLocator s
    let ps := rsRoots lam
    if lam.length = 0 ∨ ps.length ≠ lam.length then none
    else
      let vs := rsValues s ps
      let fixed := (ps.zip vs).foldl (fun w e => w.set (135 - e.1) (w.getD (135 - e.1) 0 ^^^ e.2)) cw
      if ((List.range 6).map (rsSyndrome fixed)).all (· == 0) then some (fixed, ps.length) else none

/-- The two codewords of a 272-byte frame (R302, steps 1 and 3). -/
def frameWord (fr : List Byte) (c : Nat) : List Nat :=
  (List.range 130).map (fun i => (fr.getD (2 * i + c) 0#8).toNat) ++
    (List.range 6).map (fun k => (fr.getD (260 + 2 * k + c) 0#8).toNat)

/-- The generator polynomial's coefficients below its leading 1, highest first: its roots are α⁰ to α⁵ (R302, step 2). -/
def rsGenerator : List Nat :=
  ((List.range 6).foldl (fun (p : List Nat) i => ((p ++ [0]).zip (0 :: p)).map (fun (e : Nat × Nat) => e.1 ^^^ gfDoubles i e.2)) [1]).drop 1

/-- The six parity bytes of 130 data bytes: the remainder of the division by the generator polynomial. -/
def rsParity (data : List Nat) : List Nat :=
  data.foldl (fun (r : List Nat) b => ((r.drop 1 ++ [0]).zip rsGenerator).map (fun (e : Nat × Nat) => e.1 ^^^ gfMul (b ^^^ r.headD 0) e.2)) (List.replicate 6 0)

/-- The 272 bytes of a flit's frame (R302, steps 1 to 3). -/
def wireFrame (flit : List Byte) : List Byte :=
  let block := flit ++ leBytes 4 (crc32c flit)
  let parity (c : Nat) : List Nat := rsParity ((List.range 130).map (fun i => (block.getD (2 * i + c) 0#8).toNat))
  let a := parity 0
  let b := parity 1
  block ++ (List.range 6).flatMap (fun k => [BitVec.ofNat 8 (a.getD k 0), BitVec.ofNat 8 (b.getD k 0)])

/-- The four lanes of a frame: byte n goes on lane n mod 4, its least significant bit pair first (R302, step 4). -/
def frameLanes (frame : List Byte) : List (List Nat) :=
  (List.range 4).map (fun l => (List.range 68).flatMap (fun i => (List.range 4).map (fun j => (frame.getD (4 * i + l) 0#8).toNat / 4 ^ j % 4)))

/-- A received frame: its 256 flit bytes and whether bytes were corrected, or none when it is to be discarded (R302).
Log entry 52 (PRESUMED). -/
def decodeFrame (fr : List Byte) : Option (List Byte × Bool) :=
  if fr.length ≠ 272 then none
  else
    match rsDecode (frameWord fr 0), rsDecode (frameWord fr 1) with
    | some (a, na), some (b, nb) =>
      let block := (List.range 260).map (fun i => BitVec.ofNat 8 ((if i % 2 = 0 then a else b).getD (i / 2) 0))
      if crc32c (block.take 256) = leAt block 256 4 then some (block.take 256, decide (na + nb > 0)) else none
    | _, _ => none

/-! ### Flits (R304 to R306) -/

/-- VC and TYPE of a packet type (R305). -/
def pktCode : PktType → Nat × Nat
  | .read => (0, 0) | .write => (0, 1) | .writeMasked => (0, 2) | .atom => (0, 3) | .postA => (0, 4) | .postB => (0, 5)
  | .signal => (0, 6) | .readData => (1, 0) | .writeAck => (1, 1) | .atomData => (1, 2) | .postResult => (1, 3)
  | .refused => (1, 4) | .red => (2, 0) | .redMasked => (2, 1) | .dict => (3, 0) | .pool => (3, 1) | .retryReq => (3, 14)
  | .null => (3, 15)

/-- Every packet type. -/
def pktTypes : List PktType :=
  [.read, .write, .writeMasked, .atom, .postA, .postB, .signal, .readData, .writeAck, .atomData, .postResult, .refused,
   .red, .redMasked, .dict, .pool, .retryReq, .null]

/-- The packet type of a VC and TYPE; any other combination is invalid (R305). -/
def pktOf (vc ty : Nat) : Option PktType := pktTypes.find? (fun t => pktCode t == (vc, ty))

/-- The virtual channel of a packet. -/
def Packet.vc (p : Packet) : Nat := (pktCode p.ty).1

/-- A flit's header (R304): SEQ, ACK, the credits returned, and the packet's own fields. -/
def flitHeader (seq ack crVc crHop crCount : Nat) (p : Packet) : Nat :=
  seq * 2 ^ 116 + ack * 2 ^ 104 + p.vc * 2 ^ 102 + (pktCode p.ty).2 * 2 ^ 98 + crVc * 2 ^ 96 + crHop * 2 ^ 94 +
  crCount * 2 ^ 90 + p.src * 2 ^ 84 + p.dst * 2 ^ 78 + p.cls * 2 ^ 75 + p.hops * 2 ^ 73 + p.sectors * 2 ^ 70 +
  p.tag * 2 ^ 58 + p.addr

/-- The 256 bytes of a flit. -/
def flitBytes (seq ack crVc crHop crCount : Nat) (p : Packet) : List Byte :=
  leBytes 16 (flitHeader seq ack crVc crHop crCount p) ++ slice p.payload 0 240

/-- A packet with no payload to name. -/
def bareFlit (ty : PktType) : Packet :=
  { ty := ty, src := 0, dst := 0, cls := 0, hops := 0, sectors := 0, tag := 0, addr := 0, payload := [] }

/-! ### The pool's geometry (R313 to R315) -/

/-- The extent of z in a pool shape: 1, 2 or 4 (R313). -/
def shapeDepth (shape : Nat) : Nat := if shape = 3 then 4 else if shape = 2 then 2 else 1

/-- A device's coordinates (R22). -/
def devX (d : Nat) : Nat := d % 4
def devY (d : Nat) : Nat := d / 4 % 4
def devZ (d : Nat) : Nat := d / 16

/-- The device number of coordinates (R22). -/
def devAt (x y z : Nat) : Nat := x + 4 * y + 16 * z

/-- A device's peers by slot (R314). -/
def peersOf (shape d : Nat) : List Nat :=
  ((List.range 4).filter (· != devX d)).map (fun x => devAt x (devY d) (devZ d)) ++
  ((List.range 4).filter (· != devY d)).map (fun y => devAt (devX d) y (devZ d)) ++
  ((List.range (shapeDepth shape)).filter (· != devZ d)).map (fun z => devAt (devX d) (devY d) z)

/-- Every device number of a shape (R313). -/
def shapeDevices (shape : Nat) : List Nat := List.range (16 * shapeDepth shape)

/-- How many links a tier enables in each half (R19). -/
def tierLinks (tier : Nat) : Nat := match tier with | 3 => 18 | 2 => 12 | 1 => 8 | _ => 0

/-- The links that a tier enables: west, then east, ascending (R19). -/
def tierLinkList (tier : Nat) : List Nat :=
  List.range (tierLinks tier) ++ (List.range (tierLinks tier)).map (· + 18)

/-- The peer slot of each enabled link, in the order of R315; a slot takes no more than its L links. -/
def linkSlots (shape tier : Nat) : List (Nat × Nat) :=
  let p := (peersOf shape 0).length
  let n := tierLinks tier
  let want := (List.range n).map (fun i => (i, i % p)) ++ (List.range n).map (fun i => (18 + i, p - 1 - i % p))
  let most := 2 * n / p
  want.foldl (fun acc e => if (acc.filter (fun a => a.2 == e.2)).length < most then acc ++ [e] else acc) []

/-- The peer slot of a link, none when the link is unused (R315). -/
def linkSlot (shape tier l : Nat) : Option Nat := ((linkSlots shape tier).find? (fun e => e.1 == l)).map (·.2)

/-- The links of a slot, ascending. -/
def slotLinks (shape tier slot : Nat) : List Nat := ((linkSlots shape tier).filter (fun e => e.2 == slot)).map (·.1)

/-- The device and link that a link of device `d` must be cabled to (R315). -/
def cabledTo (shape tier d l : Nat) : Option (Nat × Nat) :=
  match linkSlot shape tier l with
  | none => none
  | some sl =>
    match (peersOf shape d)[sl]? with
    | none => none
    | some peer =>
      let j := (slotLinks shape tier sl).idxOf l
      let back := (peersOf shape peer).idxOf d
      ((slotLinks shape tier back)[j]?).map (fun fl => (peer, fl))

/-- POOL_SHAPE in force (R333). -/
def poolShape (s : State) : Nat := s.boot.shape

/-- The device is in a pool that has formed. -/
def inPool (s : State) : Bool := s.pool.st = .formed || s.pool.st = .broken

/-- A device number is a member: this device itself, or one of the membership of a formed pool (R22, R27). -/
def isMember (s : State) (d : Nat) : Bool := d == s.pool.device || (inPool s && bit s.pool.members d)

/-- The half of a link (R19). -/
def linkHalf (l : Nat) : Nat := l / 18

/-- A link is working: UP, enabled, and joining two members (R316). -/
def linkWorking (s : State) (l : Nat) : Bool :=
  let k := getLink s l
  k.st = .up && getObj s (Key.linkEnable l) == 1 && !k.pllLost &&
    (match k.peerDev with | some d => isMember s d && isMember s s.pool.device | none => false)

/-- The link's peer has DST's coordinate in a dimension where this device and DST differ (R316). -/
def isCandidate (s : State) (dst l : Nat) : Bool :=
  linkWorking s l &&
  (match (getLink s l).peerDev with
   | none => false
   | some q =>
     let d := s.pool.device
     (devX d != devX dst && q == devAt (devX dst) (devY d) (devZ d)) ||
     (devY d != devY dst && q == devAt (devX d) (devY dst) (devZ d)) ||
     (devZ d != devZ dst && q == devAt (devX d) (devY d) (devZ dst)))

/-- The peer in the first differing dimension, in the order x, y, z (R317). -/
def firstPeer (s : State) (dst : Nat) : Nat :=
  let d := s.pool.device
  if devX d != devX dst then devAt (devX dst) (devY d) (devZ d)
  else if devY d != devY dst then devAt (devX d) (devY dst) (devZ d)
  else devAt (devX d) (devY d) (devZ dst)

/-- The working links to a peer in a half, ascending. -/
def linksTo (s : State) (peer half : Nat) : List Nat :=
  (List.range 36).filter (fun l => linkHalf l == half && linkWorking s l && (getLink s l).peerDev == some peer)

/-- The default link (R317). -/
def defaultLink (s : State) (dst addr half : Nat) : Option Nat :=
  let peer := firstPeer s dst
  let here := linksTo s peer half
  let ls := if here.isEmpty then linksTo s peer (1 - half) else here
  if ls.isEmpty then none else ls[bits addr 12 7 % ls.length]?

/-- A candidate's score (R317): flits waiting on the packet's VC, and SILL_PENALTY across the Sill.
Log entry 55 (DEDUCED). -/
def linkScore (s : State) (vc half l : Nat) : Nat :=
  ((getLink s l).egress.flatten.filter (fun p => p.vc == vc)).length +
    (if linkHalf l = half then 0 else getObj s Key.sillPenalty)

/-- How tied links are ordered (R317): first the peer of the first differing dimension, then the current half, then the
lowest number.
Log entry 55 (DEDUCED). -/
def tieRank (s : State) (dst half l : Nat) : Nat :=
  (if (getLink s l).peerDev = some (firstPeer s dst) then 0 else 1000) + (if linkHalf l = half then 0 else 100) + l

/-- The link a packet leaves on, and whether it is another than the default (R316, R317).
Log entry 55 (DEDUCED). -/
def chooseLink (s : State) (dst addr vc half : Nat) : Option (Nat × Bool) :=
  let cands := (List.range 36).filter (isCandidate s dst)
  let dflt := defaultLink s dst addr half
  let best := (cands.map (linkScore s vc half)).min?.getD 0
  let tied := cands.filter (fun l => linkScore s vc half l == best)
  match dflt with
  | some d => if tied.contains d then some (d, false) else
      (tied.foldl (fun acc l => match acc with
        | none => some l
        | some a => if tieRank s dst half l < tieRank s dst half a then some l else some a) none).map (fun l => (l, true))
  | none =>
      (tied.foldl (fun acc l => match acc with
        | none => some l
        | some a => if tieRank s dst half l < tieRank s dst half a then some l else some a) none).map (fun l => (l, true))

/-! ### Training (R303) -/

/-- A link trains: its lanes come in order or reversed, its frames align, and no lane has an error ratio above 10⁻⁵. -/
def trainOk (t : LinkTrain) : Bool :=
  (t.order == [0, 1, 2, 3] || t.order == [3, 2, 1, 0]) && t.aligned && t.lanes.length == 4 && t.lanes.all (fun x => decide (x.errors ≤ 10000))

/-- What a training that has succeeded leaves on its link; the link starts with full credits (R303, R308). -/
def trained (s : State) (t : LinkTrain) (k : Link) : Link :=
  { k with st := .up, attempts := 0, lastGood := now s, peerDev := some t.peerDevice, peerLink := some t.peerLink, pllLost := false,
           reversed := t.order == [3, 2, 1, 0], lanes := t.lanes, used := [], toReturn := [] }

/-! ### Sending (R308, R310) -/

/-- A flit leaves on a link, as a frame (R302). -/
def sendWire (s : State) (l : Nat) (flit : List Byte) : State := emit s (.frame l (frameLanes (wireFrame flit)))

/-- The flit buffers of a VC and hop class (R308). -/
def creditLimit (vc : Nat) : Nat := if vc = 3 then 8 else 64

/-- The credit pool of a packet: VC and hop class. -/
def creditKey (p : Packet) : Nat := p.vc * 4 + p.hops

/-- The credit return that the next flit carries: VC, hop class and count, 3 for none; and what remains (R304). -/
def takeCredit (k : Link) : (Nat × Nat × Nat) × Link :=
  match k.toReturn with
  | [] => ((0, 3, 0), k)
  | (key, n) :: rest =>
    let m := min n 15
    ((key / 4, key % 4, m), { k with toReturn := if n - m = 0 then rest else (key, n - m) :: rest })

/-- Owe the sender a credit for a flit that has left the receive buffer (R308). -/
def oweCredit (k : Link) (key : Nat) : Link :=
  if k.toReturn.any (fun e => e.1 == key) then
    { k with toReturn := k.toReturn.map (fun e => if e.1 = key then (e.1, e.2 + 1) else e) }
  else { k with toReturn := k.toReturn ++ [(key, 1)] }

/-- Send one sequenced flit on link `l`.
Log entry 52 (PRESUMED). -/
def sendFlit (s : State) (l : Nat) (p : Packet) : State :=
  let k := getLink s l
  let (cr, k1) := takeCredit k
  let k2 := { k1 with
    nextSeq := (k.nextSeq + 1) % 4096,
    unacked := k.unacked ++ [{ seq := k.nextSeq, pkt := p, sentAt := now s, resends := 0 }],
    used := mapMod 0 k1.used (creditKey p) (· + 1) }
  let s1 := setLink s l k2
  let s2 := bump (bump s1 (Key.bytesTx l) 240) (Key.bytes (3 * 16 + p.cls)) 240
  sendWire s2 l (flitBytes k.nextSeq k.lastRx cr.1 cr.2.1 cr.2.2 p)

/-- Send a NULL or RETRY_REQ: it carries the SEQ of the last sequenced flit and takes no credit (R304, R309). -/
def sendBare (s : State) (l : Nat) (ty : PktType) : State :=
  let k := getLink s l
  let (cr, k1) := takeCredit k
  sendWire (setLink s l k1) l (flitBytes ((k.nextSeq + 4095) % 4096) k.lastRx cr.1 cr.2.1 cr.2.2 (bareFlit ty))

/-- Sequenced flits of a class outstanding at a link's egress: those not acknowledged, and those of `queued` (R475, point 3). -/
def egressCount (k : Link) (queued : List (List Packet)) (cls : Nat) : Nat :=
  (k.unacked.filter (fun u => u.pkt.cls == cls)).length + (queued.flatten.filter (fun q => q.cls == cls)).length

/-- A packet's class is at its limit at the link's egress; responses and management flits are never held (R476, R477).
Log entry 44 (DEDUCED). -/
def egressHeld (s : State) (l : Nat) (p : Packet) (queued : List (List Packet)) : Bool :=
  (p.vc == 0 || p.vc == 2) &&
    decide (getObj s (Key.outstandingLimit (3 * 16 + p.cls)) ≤ egressCount (getLink s l) queued p.cls)

/-- A link may send `n` more flits of the packet's credit pool, with `kept` waiting before it; what a RETRY_REQ that has come asks
for goes ahead of new flits (R308, R310, R477).
Log entry 44 (DEDUCED). -/
def canSend (s : State) (l : Nat) (p : Packet) (n : Nat) (kept : List (List Packet)) : Bool :=
  let k := getLink s l
  (k.st = .up || k.st = .withdrawn) && !k.pllLost && k.rx.all (fun q => q.ty != .retryReq) && decide (k.unacked.length + n ≤ 256) &&
    decide (mapGet 0 k.used (creditKey p) + n ≤ creditLimit p.vc) && !(egressHeld s l p kept)

/-- Send what can be sent of the packets waiting; the rest stay waiting, in order. -/
def pumpList (l : Nat) : List (List Packet) → State → List (List Packet) → State × List (List Packet)
  | [], s, kept => (s, kept.reverse)
  | ps :: rest, s, kept =>
    match ps with
    | [] => pumpList l rest s kept
    | p :: _ =>
      if canSend s l p ps.length kept then pumpList l rest (ps.foldl (fun st q => sendFlit st l q) s) kept
      else pumpList l rest s (ps :: kept)

/-- Send what link `l` can send, and return the credits it owes with NULL flits when nothing else carries them. -/
def pumpLink (s : State) (l : Nat) : State :=
  let k := getLink s l
  let (s1, kept) := pumpList l k.egress s []
  let s2 := setLink s1 l { getLink s1 l with egress := kept }
  if (getLink s2 l).st = .up ∨ (getLink s2 l).st = .withdrawn then
    ((getLink s2 l).toReturn).foldl (fun st _ => sendBare st l .null) s2
  else s2

/-- Route a packet whose DST is another member, and put it (two flits for a task record) at the end of the chosen link's
egress. `half` is the packet's current half. A packet with no candidate link is lost with the pool (R327).
Log entry 54 (DEDUCED). -/
def sendPacket (s : State) (half : Nat) (pkts : List Packet) : State :=
  match pkts with
  | [] => s
  | p :: _ =>
    match chooseLink s p.dst p.addr p.vc half with
    | none => s
    | some (l, other) =>
      let s0 := if other then bump s Key.routeChoices 1 else s
      let s1 := if egressHeld s0 l p (getLink s0 l).egress then bump s0 (Key.limitHolds (3 * 16 + p.cls)) 1 else s0
      let k := getLink s1 l
      pumpLink (setLink s1 l { k with egress := k.egress ++ [pkts] }) l

/-! ### Requests to peers (R307, R319) -/

/-- A request of the same agent to a line of the same peer comes before this one (R319). -/
def heldBehind (r : PeerReq) (earlier : List PeerReq) : Bool :=
  earlier.any (fun q => q.dev == r.dev && q.agent == r.agent && decide (q.firstLine ≤ r.lastLine) &&
    decide (r.firstLine ≤ q.lastLine))

/-- The lowest tag from `k` on that no outstanding request to the peer uses. -/
def freeTag (used : List Nat) (k : Nat) : Nat :=
  (((List.range 4096).map (fun i => (k + i) % 4096)).find? (fun t => !(used.contains t))).getD 0

/-- Give a request its tag and send it. -/
def launchReq (s : State) (r : PeerReq) : State :=
  let used := (s.pool.reqs.filter (fun q => q.dev == r.dev)).map (·.tag)
  let t := freeTag used s.pool.nextTag
  let r' := { r with tag := t, since := now s, pkts := r.pkts.map (fun p => { p with tag := t }) }
  let s1 := { s with pool := { s.pool with reqs := s.pool.reqs ++ [r'], nextTag := (t + 1) % 4096 } }
  sendPacket s1 r.half r'.pkts

/-- The request may be sent now: within both limits of R307, and behind no earlier request of R319. -/
def canLaunch (s : State) (r : PeerReq) (earlier : List PeerReq) : Bool :=
  decide ((s.pool.reqs.filter (fun q => q.dev == r.dev)).length < 4096) && decide (s.pool.reqs.length < 16384) &&
    !(heldBehind r (s.pool.reqs ++ earlier))

/-- Both limits of R307 allow the request. -/
def withinLimits (s : State) (r : PeerReq) : Bool :=
  decide ((s.pool.reqs.filter (fun q => q.dev == r.dev)).length < 4096) && decide (s.pool.reqs.length < 16384)

/-- A request of a group waits for a limit of R307: the group is not ready. -/
def limitWaits (s : State) (p g : Nat) : Bool :=
  s.pool.waiting.any (fun r => !(withinLimits s r) && (match r.user with
    | .core q h _ => q == p && h == g
    | .spawn q h _ => q == p && h == g
    | _ => false))

/-- Send the waiting requests that may go, oldest first; the rest keep their order.
Log entry 102 (DESIGN CHOICE). -/
def pumpReqs : List PeerReq → State → List PeerReq → State × List PeerReq
  | [], s, kept => (s, kept.reverse)
  | r :: rest, s, kept =>
    if canLaunch s r kept then pumpReqs rest (launchReq s r) kept else pumpReqs rest s (r :: kept)

/-- Send what may be sent of the requests held at this device. -/
def pumpPeers (s : State) : State :=
  let (s1, kept) := pumpReqs s.pool.waiting { s with pool := { s.pool with waiting := [] } } []
  { s1 with pool := { s1.pool with waiting := kept } }

/-- Issue requests to peers, in order. -/
def peerRequests (s : State) (rs : List PeerReq) : State :=
  pumpPeers { s with pool := { s.pool with waiting := s.pool.waiting ++ rs } }

/-- A request packet of this device. -/
def mkPacket (s : State) (ty : PktType) (dst cls sectors addr : Nat) (payload : List Byte) : Packet :=
  { ty := ty, src := s.pool.device, dst := dst, cls := cls, hops := 0, sectors := sectors, tag := 0, addr := addr,
    payload := payload }

/-- The agent numbers of the device's own units (R317, R319). -/
abbrev agentFountain : Nat := 1000
abbrev agentHost : Nat := 1001
abbrev agentCopy : Nat := 1002
abbrev agentKeeper : Nat := 1003

/-- A request of one packet.
Log entry 104 (DESIGN CHOICE). -/
def mkReq (dev : Nat) (user : PeerUser) (slot : Option Nat) (agent half : Nat) (p : Packet) : PeerReq :=
  { dev := dev, tag := 0, user := user, since := 0, slot := slot, agent := agent, firstLine := p.addr / 128,
    lastLine := (p.addr + 32 * p.sectors) / 128, half := half, pkts := [p] }

/-- Send a SIGNAL to a peer (R48, R306): the entry at bytes 16 to 23, POISON in bit 0 of byte 24. -/
def sendSignal (s : State) (slot entry : Nat) (poison : Bool) (cls : Nat) : State :=
  let p := mkPacket s .signal (sigDevice entry) cls 0 0 (leBytes 8 entry ++ leBytes 1 (if poison then 1 else 0))
  -- signals name no line: their order is that of R48 alone
  let r := { mkReq (sigDevice entry) (.signal slot) (some slot) agentFountain 0 p with firstLine := 1, lastLine := 0 }
  peerRequests s [r]

end Sys2Proof.Machine
end

