-- ==== Sys2Proof/Machine/Signal.lean ====
section
/-! DEFINITION. Dependency counters, signals, poison, and the tasks that wait on them (R46 to R49, R511). -/

namespace Sys2Proof.Machine

/-- Apply a signal to a local counter (R48). -/
def applySignal (s : State) (c : Nat) (set : Bool) (v : Nat) : State :=
  let k := getCounter s c
  setCounter s c (if set then ⟨v, false⟩ else { k with value := (k.value + v) % 2 ^ 32 })

/-- Poison a local counter. -/
def poisonCounter (s : State) (c : Nat) : State := setCounter s c { getCounter s c with poison := true }

/-- The valid signal entries of a record, SIGNAL0 first. -/
def validSignals (ws : List Word64) : List Nat := (recSignals ws).filter entValid

/-- Poison the counters that a task's valid signal entries name, here or on peers; a record whose VERSION is not 0x01
poisons nothing, and a device that is not a member gets nothing (R511). A pool that is BROKEN has its members still. -/
def poisonSignals (s : State) (n : Nat) (sl : Slot) : State :=
  if recVersion sl.words ≠ 1 then s
  else (validSignals sl.words).foldl (fun st e =>
    if sigDevice e = st.pool.device then poisonCounter st (sigCounter e)
    else if isMember st (sigDevice e) then sendSignal st n e true (recClass sl.words)
    else st) s

/-- Write state 6 with a code into a slot, count it, and release a spawn slot (R57, R62). -/
def writeFaulted (s : State) (n code : Nat) : State :=
  match getSlot s n with
  | none => s
  | some sl =>
    let s1 := bump s Key.tasksFaulted 1
    if sl.spawned then setSlot s1 n none
    else setSlot s1 n (some { sl with state := 6, code := code, satisfied := none, dispatchable := none, staging := .none,
                                      ending := none, reserved := [], replayWait := none })

/-- A task that has no groups goes to state 6 at once, and its signal counters are poisoned (R511); the tasks that wait
on them are looked at by the caller. -/
def failCore (s : State) (n : Nat) (r : ErrRec) : State :=
  match getSlot s n with
  | none => s
  | some sl => writeFaulted (poisonSignals (raiseTask s n r) n sl) n r.code

/-- A valid wait of the record names a poisoned counter (R49). -/
def waitsPoisoned (s : State) (ws : List Word64) : Bool :=
  (recWaits ws).any (fun e => entValid e && (getCounter s (waitCounter e)).poison)

/-- Every valid wait of the record is satisfied (R47). -/
def waitsMet (s : State) (ws : List Word64) : Bool :=
  (recWaits ws).all (fun e => !entValid e ||
    (!(getCounter s (waitCounter e)).poison && decide (waitThreshold e ≤ (getCounter s (waitCounter e)).value)))

/-- Fail, one after the other, the tasks in state 1 that wait on a poisoned counter, satisfied or not (R49): each failure may
poison more. A control task that has begun to signal is past its waits. -/
def spreadPoison : Nat → State → State
  | 0, s => s
  | k + 1, s =>
    match (liveSlots s).find? (fun e => e.2.state == 1 && !e.2.signalled && waitsPoisoned s e.2.words) with
    | none => s
    | some (n, _) =>
      spreadPoison k (failCore s n { code := Code.dependencyFaulted, sev := 2, origin := .fountain })

/-- Evaluate the waits of every waiting task (R47, R49).
Log entry 28 (DEDUCED). -/
def evalWaits (s : State) : State :=
  let s1 := spreadPoison (liveSlots s).length s
  (liveSlots s1).foldl (fun st e =>
    if e.2.state == 1 && e.2.satisfied.isNone && waitsMet s1 e.2.words then
      modSlot st e.1 (fun sl => { sl with satisfied := some (now st) }) else st) s1

/-- A task that has no groups fails (R511). -/
def failNow (s : State) (n : Nat) (r : ErrRec) : State := evalWaits (failCore s n r)

/-- A signal reaches a local counter, and the waits on it are evaluated again (R47, R48).
Log entry 116 (DESIGN CHOICE). -/
def signalLocal (s : State) (c : Nat) (set : Bool) (v : Nat) : State := evalWaits (applySignal s c set v)

/-- The record would span the pool: a valid signal entry names another device (R328). -/
def namesPeers (s : State) (ws : List Word64) : Bool :=
  (validSignals ws).any (fun e => sigDevice e != s.pool.device)

/-- The class of the record is withdrawn or being withdrawn (R68). -/
def classShut (s : State) (ws : List Word64) : Bool := classState s (recClass ws) != 0

/-- The code with which a record goes straight to state 6, if any (R38, R55, R68, R328). -/
def recordCode (s : State) (ws : List Word64) (posted : Bool) : Option Nat :=
  if recordFails ws then some Code.recordInvalid
  else if classShut s ws then some Code.functionWithdrawn
  else if s.pool.st = .broken ∧ (posted ∨ namesPeers s ws = true) then some Code.peerLost
  else if unfit s ws then some Code.coschedUnfit
  else none

/-- A record enters slot `n`: state 1, or state 6 with the code that turns it away (R44, R64). -/
def enterRecord (s : State) (n : Nat) (ws : List Word64) (spawned posted : Bool) : State :=
  let s1 := placeRecord s n (newSlot ws spawned posted)
  match recordCode s ws posted with
  | some c => failNow s1 n { code := c, sev := 2, origin := .fountain }
  | none => evalWaits s1

/-- The result of a spawn (R58).
Log entry 31 (DEDUCED). -/
def spawnResult (s : State) (slot : Nat) : Nat := s.pool.device * 2 ^ 16 + slot

/-- The result of a spawn that finds no slot free (R58).
Log entry 31 (DEDUCED). -/
def spawnRefused (s : State) : Nat := 2 ^ 31 + s.pool.device * 2 ^ 16

/-- Take a spawned or posted record (R58, R59): the result for the spawner, and the state. A record that fails R38 is
refused and sends an error record. -/
def takeSpawn (s : State) (ws : List Word64) (posted : Bool) : Nat × State :=
  if recordFails ws then
    (spawnRefused s, raise s { code := Code.recordInvalid, sev := 2, origin := .fountain, tag := recTag ws })
  else
    match freeSpawnSlot s with
    | none => (spawnRefused s, s)
    | some n => (spawnResult s n, enterRecord s n ws true posted)

/-- PREPARE's holds are in force over a staged RWI object, PIN_WAYS or POOL_PAGES (R375), or a defect sweep runs, which
holds in the same way (R412): the Fountain takes no record and stages no task. -/
def fountainHeld (s : State) : Bool := s.keeper.txn.holds || (mapGet Svc.idle s.keeper.svcs 1).state == 3

end Sys2Proof.Machine
end

