-- ==== Sys2Proof/Machine/Check.lean ====
section
/-! DEFINITION. What a failed word does to the task that read it (R69, R70, R455 to R457, R464), and transfers that end
with VERTICAL_ABORT (R71). -/

namespace Sys2Proof.Machine

/-- What tells one buffer from another: the slot and use count that allocated it, and its address (R261, R262). -/
def bufId (b : Buf) : Nat × Nat × Nat := (b.slot, b.gen, b.addr)

/-- Every persistent buffer that the record of slot `n` names is allocated still: those that its task allocated, and those
that its FREE entries named when it was staged (R69). -/
def buffersKept (s : State) (n : Nat) (sl : Slot) : Bool :=
  (recBufs sl.words).all (fun e => !(bufAllocates e && bufPersist e) ||
    s.sluice.bufs.any (fun b => b.persist && bufId b == (n, mapGet 0 s.fountain.uses n, recArg sl.words (bufArg e)))) &&
  sl.freeing.all (fun i => s.sluice.bufs.any (fun b => b.persist && bufId b == i))

/-- A sequence is tracked: it is not FREE (R265). -/
def seqTracked (s : State) (n : Nat) : Bool :=
  match getSeq s n with
  | some q => q.st != .free
  | none => false

/-- The valid sequence entries of a task, those of SEQ_LIST after those of the record (R36). -/
def taskSeqs (sl : Slot) : List Nat :=
  ((recSeqs sl.words) ++ sl.seqList.map (·.toNat)).filter entValid

/-- No later extension of a sequence that the task extends has retired (R268): while the task has not itself retired, none
can have (R266). -/
def extensionLast (s : State) (sl : Slot) : Bool :=
  sl.retired.all (fun e => match getSeq s e.1 with
    | some q => q.retired == e.2
    | none => false)

/-- The task in slot `n` is eligible for replay (R69, R268). -/
def eligible (s : State) (n : Nat) (sl : Slot) : Bool :=
  replayBit sl && decide (sl.replays < 2) && buffersKept s n sl &&
    (taskSeqs sl).all (fun e => seqTracked s (seqNumber e)) && extensionLast s sl

/-- End the groups of a running task so that it runs again, once its accesses have settled and its producers are done again
(R70). One that is being ended so already waits for these producers too.
Log entry 27 (DESIGN CHOICE). -/
def endForReplay (s : State) (n code : Nat) (producers : List (Nat × Nat)) : State :=
  endGroups (modSlot s n (fun sl => { sl with ending := match sl.ending with
    | none => some { code := code, replay := some producers }
    | some e => some { e with replay := e.replay.map (fun ps => ps ++ producers.filter (fun p => !(ps.contains p))) } })) n

/-- A finished producer goes from state 5 to state 7 and runs again from its first group, without its signals (R70). -/
def replayProducer (s : State) (n : Nat) : State :=
  modSlot (bump s Key.tasksReplayed 1) n (fun sl =>
    { sl with state := 7, code := Code.checkFailed, replayed := true, replays := sl.replays + 1, silent := true,
              satisfied := some (now s), dispatchable := none, staging := .none, nextGroup := 0,
              exited := 0, reserved := [], ending := none, tbar := [], peersWritten := [], peerUser := false,
              windowUser := false, signalled := false, replayWait := some .window })

/-- The fields of a writer tag (R456). -/
def tagDevice (t : Nat) : Nat := bits t 31 26
def tagKind (t : Nat) : Nat := bits t 25 24
def tagGen (t : Nat) : Nat := bits t 23 16
def tagSlot (t : Nat) : Nat := bits t 15 0

/-- The tag names a task of this device whose record is still in its slot (R457). -/
def tagHolds (s : State) (t : Nat) : Bool :=
  t != 0 && tagKind t == 0 && tagDevice t == s.pool.device &&
    tagGen t == mapGet 0 s.fountain.uses (tagSlot t) % 256 && (getSlot s (tagSlot t)).isSome

/-- What R457 decides for a consumer in slot `n` and the task that a tag names: none for a fault, else whether the
producer's run must begin again, and the producers that the consumer waits for. -/
def replayPlan (s : State) (n t : Nat) : Option (Bool × List (Nat × Nat)) :=
  match tagHolds s t, getSlot s n, getSlot s (tagSlot t) with
  | true, some c, some p =>
    let named := [(tagSlot t, mapGet 0 s.fountain.uses (tagSlot t))]
    if !(eligible s n c) then none
    else if tagSlot t = n then (if p.state = 3 ∨ p.state = 4 ∨ p.state = 7 then some (false, []) else none)
    else if p.state = 5 then (if eligible s (tagSlot t) p then some (true, named) else none)
    else if p.state = 7 then some (false, named)
    else none
  | _, _, _ => none

/-- A failed word, as an error record names it (R464): its place in R454, its address, the unit's writer tag, the
register, and its 16 bytes as read. -/
structure BadWord where
  place : Nat
  addr : Nat
  tag : Nat
  reg : Nat
  word : List Byte
  deriving DecidableEq, Repr

/-- EXTRA of a CHECK_FAILED record. The stored check is a free value: it is what the failing word held. -/
def badExtra (s : State) (b : BadWord) : List Byte × State :=
  let (k, s1) := takeFree s
  (leBytes 1 b.place ++ leBytes 1 0 ++ leBytes 2 b.reg ++ leBytes 2 (Config.freeNat k) ++
    leBytes 2 (ripple (slice b.word 0 16)) ++ slice b.word 0 16, s1)

/-- A task has read a word that has no good copy below and no valid value (R455, R457): replay, or CHECK_FAILED. `r`
gives the group and the program counter.
Log entry 7 (DESIGN CHOICE). -/
def dirtyFail (s : State) (n : Nat) (r : ErrRec) (b : BadWord) : State :=
  let (ex, s0) := badExtra s b
  let rec_ : ErrRec := { r with code := Code.checkFailed, addr := b.addr, writer := b.tag, extra := ex }
  match replayPlan s0 n b.tag with
  | none => bump (faultTask s0 n { rec_ with sev := 2 }) Key.unrecovered 1
  | some (again, producers) =>
    let s1 := raiseTask s0 n { rec_ with sev := 1 }
    let s2 := endForReplay s1 n Code.checkFailed producers
    if again then replayProducer s2 (tagSlot b.tag) else s2

/-- A transfer of the task in slot `n` ends with VERTICAL_ABORT (R71): it runs again where it is eligible, else faults. -/
def verticalAbort (s : State) (n : Nat) : State :=
  match getSlot s n with
  | none => s
  | some sl =>
    let r : ErrRec := { code := Code.verticalAbort, sev := 2, origin := .fountain }
    if eligible s n sl then endForReplay (raiseTask s n r) n Code.verticalAbort []
    else faultTask s n r

/-- A unit's transient: counted, and not otherwise reported (R454).
Log entry 7 (DESIGN CHOICE). -/
def noteTransient (s : State) (chk : Chk) : State :=
  if chk = .transient then countCode s Code.checkTransient else s

end Sys2Proof.Machine
end

