-- ==== Sys2Proof/Machine/Home.lean ====
section
/-! DEFINITION. The device-local address map (R22 to R27), the homes of lines (R214, R215), where an address lies in the
Reservoir (R243), and the Reservoir's own bytes behind its write queues (R247). -/

namespace Sys2Proof.Machine

/-! ### Pool addresses (R22, R23) -/

/-- The device number and the device-local address of a pool address (R22). -/
def addrDevice (a : Nat) : Nat := bits a 63 58
def addrLocal (a : Nat) : Nat := a % 2 ^ 58

abbrev stackBytes : Nat := 48 * 2 ^ 30
abbrev winBase : Nat := 0x10000000000
abbrev basinBase : Nat := 0x20000000000
abbrev aliasStaging : Nat := 0x30000000000
abbrev aliasBasin : Nat := 0x30000200000
abbrev slotBase : Nat := 0x40000000000
abbrev hostBase : Nat := 0x100000000000

/-- The working stacks of a half that R243 maps. -/
def halfStacks (s : State) (h : Nat) : List Nat := if h = 0 then s.reservoir.west else s.reservoir.east

/-- One past the last mapped Reservoir address (R24, R243). -/
def resTop (s : State) : Nat := (s.reservoir.west.length + s.reservoir.east.length) * stackBytes

/-- PIN_WAYS in effect in a half (R216). -/
def pinWays (s : State) (h : Nat) : Nat := mapGet 1 s.cistern.winWays h

/-- The half of a window address, and the window way index j of R215. -/
def winHalf (a : Nat) : Nat := bits (a - winBase) 31 31
def winWay (a : Nat) : Nat := bits (a - winBase) 30 27

/-- A window address inside a pinned reservation (R26, R215). -/
def winMapped (s : State) (a : Nat) : Bool :=
  decide (winBase ≤ a) && decide (a < winBase + 2 ^ 32) && decide (winWay a + 1 < pinWays s (winHalf a))

def resMapped (s : State) (a : Nat) : Bool := decide (a < resTop s)

/-- An address that has a home slice: mapped Reservoir or mapped window. -/
def hasHome (s : State) (a : Nat) : Bool := resMapped s a || winMapped s a

/-- The Basin block of the address in the global window: position and offset (R25). -/
def basinAt (a : Nat) : Option (Nat × Nat) :=
  if basinBase ≤ a ∧ a < basinBase + 544 * 0x400000 then some ((a - basinBase) / 0x400000, (a - basinBase) % 0x400000)
  else none

/-- The offset in the slot table, if the address lies there (R28). -/
def slotTableAt (a : Nat) : Option Nat :=
  if slotBase ≤ a ∧ a < slotBase + 2 ^ 24 then some (a - slotBase) else none

/-! ### Where an address lies in the Reservoir (R243) -/

/-- A sector's place in the Reservoir. -/
structure ResLoc where
  half : Nat
  stack : Nat
  ch : Nat
  bank : Nat
  row : Nat
  col : Nat
  deriving DecidableEq, Repr

/-- Steps 1 to 6 of R243. -/
def resLoc (s : State) (a : Nat) : ResLoc :=
  let part := s.reservoir.west.length * stackBytes
  let half := if a < part then 0 else 1
  let h := if a < part then a else a - part
  let ws := halfStacks s half
  let q := h / 2 ^ 16
  let g := q / ws.length
  let k := bits h 15 5
  { half := half, stack := ws.getD (q % ws.length) 0, ch := bits k 6 0 ^^^ bits g 6 0, bank := bits g 5 1 ^^^ bits g 10 6,
    row := g / 64, col := bits g 0 0 * 512 + bits k 10 7 * 32 }

/-- The address of page `q` of a half's part of the Reservoir range (R243, R255). -/
def partPage (s : State) (half q : Nat) : Nat :=
  (if half = 0 then 0 else s.reservoir.west.length * stackBytes) + q * 2 ^ 16

/-- The pages of a half's part. -/
def partPages (s : State) (half : Nat) : Nat := (halfStacks s half).length * (stackBytes / 2 ^ 16)

/-- A stack lost in service holds the address (R252).
Log entry 34 (DEDUCED). -/
def onLostStack (s : State) (a : Nat) : Bool := resMapped s a && s.reservoir.lost.contains (resLoc s a).stack

/-- Why an access to `n` bytes at home is refused: no home (R27), or a stack lost in service (R252).
Log entry 34 (DEDUCED). -/
def homeRefusal (s : State) (a n : Nat) : Option Nat :=
  if hasHome s a = false ∨ hasHome s (a + n - 1) = false then some Code.addressUnmapped
  else if onLostStack s a = true ∨ onLostStack s (a + n - 1) = true then some Code.reservoirLost
  else none

/-! ### Homes (R214, R215) -/

/-- The fold of a line number into a slice of its half. -/
def foldSlice (n : Nat) : Nat :=
  bits n 5 0 ^^^ bits n 11 6 ^^^ bits n 17 12 ^^^ bits n 23 18 ^^^ bits n 29 24 ^^^ bits n 31 30

/-- The global slice that homes an address, before retirement. -/
def rawSlice (s : State) (a : Nat) : Nat :=
  if winBase ≤ a then
    let l := bits (a - winBase) 30 7
    winHalf a * 64 + (bits l 5 0 ^^^ bits l 11 6 ^^^ bits l 17 12 ^^^ bits l 19 18)
  else (resLoc s a).half * 64 + foldSlice (a / 128)

/-- The slice that serves an address: the partner of a retired one (R462). -/
def homeSlice (s : State) (a : Nat) : Nat :=
  let g := rawSlice s a
  if (getSlice s g).retired then g ^^^ 1 else g

/-- The set of an address (R214, R215). -/
def homeSet (a : Nat) : Nat := if winBase ≤ a then bits (a - winBase) 26 13 else bits (a / 128) 19 6

/-! ### The Reservoir's bytes (R247) -/

/-- The write that a channel's queue holds for a sector. -/
def queuedWrite (s : State) (sector : Nat) : Option ChWrite :=
  let l := resLoc s (sector * 32)
  (getChan s l.stack l.ch).writes.find? (fun w => w.sector == sector)

/-- The address lies in the shadow zone of its half: the last 2,048 pages of the half's part (R255). -/
def inShadow (s : State) (a : Nat) : Bool :=
  resMapped s a &&
    (let half := if a < s.reservoir.west.length * stackBytes then 0 else 1
     decide (partPages s half ≤ (a - partPage s half 0) / 2 ^ 16 + 2048))

/-- The bytes of the array for a sector: those last written, zero since the fill (R253), and in the shadow zones the Sluice's
tables (R287).
Log entry 110 (DESIGN CHOICE). -/
def arrayBytes (s : State) (sector : Nat) : List Byte :=
  if inShadow s (sector * 32) then (List.range 32).map (fun i => Config.shadowByte s.sluice s.reservoir (sector * 32 + i))
  else mapGetList 0#8 s.reservoir.mem (sector * 32) 32

/-- A sector as the Reservoir interface reads it: its newest bytes, and whether they carry the uncorrectable mark (R247).
Log entry 96 (DESIGN CHOICE). -/
def resRead (s : State) (sector : Nat) : List Byte × Bool :=
  match queuedWrite s sector with
  | some w => (w.data, w.mark)
  | none => (arrayBytes s sector, mapGet false s.reservoir.marked sector)

/-- A sector written into the array. -/
def resWrite (s : State) (sector : Nat) (data : List Byte) (mark : Bool) : State :=
  { s with reservoir := { s.reservoir with
      mem := mapSetList 0#8 s.reservoir.mem (sector * 32) (slice data 0 32),
      marked := mapSet false s.reservoir.marked sector mark } }

/-- The writer tag of a Reservoir page (R456). -/
def pageTag (s : State) (sector : Nat) : Nat := mapGet 0 s.reservoir.pageTag (sector / 2048)

/-- A writeback updates the writer table of its page (R456). -/
def notePageWriter (s : State) (sector wtag : Nat) : State :=
  { s with reservoir := { s.reservoir with
      pageTag := mapMod 0 s.reservoir.pageTag (sector / 2048) (fun old => mergeTag false old wtag) } }

/-- Bytes counted for a class at a regulation point (R475). -/
def countBytes (s : State) (point cls n : Nat) : State := bump s (Key.bytes (point * 16 + cls)) n

/-- Payload bytes that the port receives for the device's own reads (R352, R475). Only a device whose port is up has such
traffic. -/
def portRead (s : State) (n : Nat) : State :=
  if s.port.up then countBytes (bump s Key.bytesIn n) 4 (getObj s Key.hostClass) n else s

/-- Payload bytes that the port sends, in completions and posted writes (R352, R475). -/
def portSend (s : State) (n : Nat) : State :=
  if s.port.up then countBytes (bump s Key.bytesOut n) 4 (getObj s Key.hostClass) n else s

/-- OUTSTANDING_LIMIT of a point and class (R396). -/
def classLimit (s : State) (point cls : Nat) : Nat := getObj s (Key.outstandingLimit (point * 16 + cls))

/-- A transaction found its class at the limit (R477). -/
def countHold (s : State) (point cls : Nat) : State := bump s (Key.limitHolds (point * 16 + cls)) 1


end Sys2Proof.Machine
end

