-- ==== Sys2Proof/Machine/Report.lean ====
section
/-! DEFINITION. Stage reports, the end of a stage and the stop of a start (R403 to R405, R502). -/

namespace Sys2Proof.Machine

/-- STAGE as it reads: 10 only from the end of S10 (R403). -/
def shownStage (s : State) : Nat := if s.boot.stage = 10 ∧ s.boot.done < 11 then 9 else s.boot.stage

/-- The boot ROM's count of ns from the beginning of S0 (R451). -/
def romCount (s : State) : Nat := now s - s.boot.romBase

/-- What a stage has found: units examined, units failed, the first that failed, and the stage's own detail (R405). -/
structure StageOut where
  tested : Nat
  failed : Nat
  first : Nat
  detail : List Byte
  deriving DecidableEq, Repr

/-- A stage that examines nothing. -/
def StageOut.none : StageOut := { tested := 0, failed := 0, first := 0xFFFFFFFF, detail := [] }

/-- A stage that examined `tested` units and found these bad.
Log entry 99 (DESIGN CHOICE). -/
def StageOut.of (tested : Nat) (bad : List Nat) (detail : List Byte) : StageOut :=
  { tested := tested, failed := bad.length, first := bad.headD 0xFFFFFFFF, detail := detail }

/-- A report's bytes (R405): OUTCOME is 0 passed, 1 with warnings, 2 stopped, 3 skipped. -/
def reportBytes (s : State) (n outcome code from_ till : Nat) (o : StageOut) : List Byte :=
  leBytes 1 n ++ leBytes 1 outcome ++ leBytes 2 code ++ leBytes 4 s.flash.startCount ++ leBytes 8 from_ ++ leBytes 8 till ++
  leBytes 4 o.tested ++ leBytes 4 o.failed ++ leBytes 4 o.first ++ leBytes 2 s.boot.newEntries ++
  leBytes 2 o.detail.length ++ o.detail

/-- The severity of a report's frame (R405). -/
def reportSeverity (n outcome : Nat) : Nat :=
  if outcome = 1 then 1 else if outcome = 2 then (if n ≤ 1 then 3 else 2) else 0

/-- Send the stored report of stage `n` as an event frame.
Log entry 74 (DEDUCED). -/
def sendReport (s : State) (n : Nat) : State :=
  let b := getBytes s (Key.stageReport n)
  let code := leAt b 2 2
  let s1 := if code = 0 then s else countCode s code
  pushEvent s1 { seq := 0, code := code, severity := reportSeverity n (leAt b 1 1), origin := EvOrigin.keeper.code,
                 slot := 0xFFFF, device := s.pool.device, tag := 0, stamp := stamp s, unit := 0xFFFFFFFF, detail := b,
                 sent := false } true

/-- Store the report of stage `n`. -/
def storeReport (s : State) (n outcome code from_ till micros : Nat) (o : StageOut) : State :=
  setObj (setObj (setBytes s (Key.stageReport n) (reportBytes s n outcome code from_ till o)) (Key.stageResult n) code)
    (Key.stageTime n) micros

/-- Send the reports that the boot ROM holds (R405). -/
def sendHeld (s : State) : State :=
  { s.boot.held.foldl sendReport s with boot := { s.boot with held := [] } }

/-- FAULT_N and SMB_ALERT_N are driven low (R502, R503).
Log entry 78 (DEDUCED). -/
def driveFault (s : State) : State := { s with boot := { s.boot with faultLow := true, alertLow := true } }

/-- The report of the stage in progress, `n`, is stored; it is sent once the field network is up. -/
def closeStage (s : State) (n outcome code : Nat) (o : StageOut) : State :=
  let from_ := if n ≤ 1 then s.boot.began - s.boot.romBase else s.boot.beganTb
  let till := if n ≤ 1 then romCount s else stamp s
  let s1 := storeReport s n outcome code from_ till ((now s - s.boot.began) / 1000) o
  if netUp s1 then sendReport (sendHeld s1) n else { s1 with boot := { s1.boot with held := s1.boot.held ++ [n] } }

/-- Stage `n` ends, and the next one begins (R403). -/
def endStage (s : State) (n code : Nat) (o : StageOut) : State :=
  let s1 := closeStage s n (if code = 0 then 0 else 1) code o
  { s1 with boot := { s1.boot with done := n + 1, stage := min (n + 1) 10, began := now s, beganTb := stamp s, newEntries := 0 } }

/-- Start-up stops in the stage in progress. At S0 and S1 the boot ROM still starts the Keeper, whose reports can then be
read (R404). -/
def stopStage (s : State) (n code : Nat) (o : StageOut) : State :=
  let s1 := { s with boot := { s.boot with stopped := true, keeperRuns := s.boot.keeperRuns || decide (n ≤ 1) } }
  driveFault (closeStage s1 n 2 code o)

/-- A stage that the start skips: its report is stored and sent as the start passes it (R405). -/
def skipStage (s : State) (n : Nat) : State :=
  sendReport (storeReport { s with boot := { s.boot with newEntries := 0 } } n 3 0 (stamp s) (stamp s) 0 StageOut.none) n

/-- A Sill-fatal event or a watchdog trip before S10 stops start-up at the stage in progress (R404). -/
def starting (s : State) : Bool := s.boot.powered && decide (s.boot.done < 11)

end Sys2Proof.Machine
end

