-- ==== Sys2Proof/Machine/Cistern.lean ====
section
/-! DEFINITION. The Cistern (chapter 8 of the manual): slices, lines, misses, stores, in-cache reductions, evictions, the
Sill, the monitors, and the pinned ways. -/

namespace Sys2Proof.Machine

/-! ### Lines of a slice (R222, R223, R226) -/

/-- A sector with no data. -/
def Sector.absent : Sector := { st := .absent, data := [], wtag := 0, bad := false }

/-- The line number and the sector within it of a sector number. -/
def lineOf (sector : Nat) : Nat := sector / 4
def secIndex (sector : Nat) : Nat := sector % 4

/-- The sector lies in the window (R215). -/
def isWin (sector : Nat) : Bool := decide (winBase ≤ sector * 32)

/-- The line of a slice with this line number. -/
def findLine (sl : Slice) (line : Nat) : Option Line :=
  (mapGet [] sl.sets (homeSet (line * 128))).find? (fun l => l.tag == line)

/-- A line put into its set, in order of ways. -/
def putLine (sl : Slice) (l : Line) : Slice :=
  { sl with sets := mapMod [] sl.sets (homeSet (l.tag * 128)) (fun ls =>
      let others := ls.filter (fun m => m.tag != l.tag)
      others.filter (fun m => decide (m.way < l.way)) ++ l :: others.filter (fun m => decide (l.way ≤ m.way))) }

/-- A line removed from its set. -/
def dropLine (sl : Slice) (line : Nat) : Slice :=
  { sl with sets := mapMod [] sl.sets (homeSet (line * 128)) (fun ls => ls.filter (fun m => m.tag != line)) }

/-- The line's miss register. -/
def mrOf (sl : Slice) (line : Nat) : Option MissReg := sl.mrs.find? (fun m => m.line == line)

/-- The reduction queue holds an entry for the line (R236). -/
def lockedReduce (sl : Slice) (line : Nat) : Bool := sl.redq.any (fun e => lineOf e.req.sector == line)

/-- The sector has data. -/
def secPresent (x : Sector) : Bool := x.st == .clean || x.st == .dirty

/-- The line may be chosen as a victim: no miss register, no reduction entry, not held (R223). -/
def mayEvict (sl : Slice) (l : Line) : Bool :=
  (mrOf sl l.tag).isNone && !(lockedReduce sl l.tag) && l.held.isEmpty

/-- The line is INVALID: every sector ABSENT, and nothing attached (R223). -/
def lineInvalid (sl : Slice) (l : Line) : Bool := mayEvict sl l && l.sectors.all (fun x => x.st == .absent)

/-- The number of lines in the writeback buffers (R212). -/
def wbLines (sl : Slice) : Nat := ((sl.wb.map (fun w => lineOf w.sector)).dedup).length

/-- The lowest INVALID ordinary way, `ways` of them being ordinary (R226).
Log entry 103 (DESIGN CHOICE). -/
def invalidWay (sl : Slice) (set ways : Nat) : Option Nat :=
  let ls := mapGet [] sl.sets set
  (List.range ways).find? (fun w => ls.all (fun l => l.way != w || lineInvalid sl l))

/-- The least recently used VALID ordinary line that may be chosen (R226).
Log entry 103 (DESIGN CHOICE). -/
def lruLine (sl : Slice) (set ways : Nat) : Option Line :=
  ((mapGet [] sl.sets set).filter (fun l => decide (l.way < ways) && mayEvict sl l)).foldl (fun acc l => match acc with
    | none => some l
    | some b => if l.use < b.use then some l else some b) none

/-- A line leaves its way: its DIRTY sectors go to a writeback buffer with the class of the fill, its tag is remembered
(R220, R226, R475). -/
def evictLine (sl : Slice) (l : Line) (cls : Nat) : Slice :=
  let dirty := (l.sectors.zipIdx.filter (fun e => e.1.st == .dirty)).map (fun e =>
    ({ sector := l.tag * 4 + e.2, data := e.1.data, cls := cls, mark := e.1.bad, wtag := e.1.wtag } : WbSector))
  { dropLine sl l.tag with wb := sl.wb ++ dirty, victims := (l.tag :: sl.victims).take 4096 }

/-- A way for a missed line, and the slice with the way freed; none where the line must wait (R226, R228). -/
def takeWay (sl : Slice) (line ways cls : Nat) : Option (Slice × Nat) :=
  let set := homeSet (line * 128)
  match invalidWay sl set ways with
  | some w =>
    let sl1 := match (mapGet [] sl.sets set).find? (fun l => l.way == w) with
      | some l => dropLine sl l.tag
      | none => sl
    some (sl1, w)
  | none =>
    if wbLines sl ≥ 64 then none
    else (lruLine sl set ways).map (fun l => (evictLine sl l cls, l.way))

/-- The line with a way: as it is, or newly placed with every sector ABSENT. -/
def placeLine (sl : Slice) (line ways cls : Nat) : Option Slice :=
  match findLine sl line with
  | some _ => some sl
  | none =>
    (takeWay sl line ways cls).map (fun e =>
      putLine e.1 { way := e.2, tag := line, sectors := List.replicate 4 Sector.absent, held := [], use := e.1.useClock,
                    cls := cls })

/-- A use of a line (R226).
Log entry 103 (DESIGN CHOICE). -/
def touchLine (sl : Slice) (line : Nat) : Slice :=
  match findLine sl line with
  | none => sl
  | some l => { putLine sl { l with use := sl.useClock + 1 } with useClock := sl.useClock + 1 }

/-- Change one sector of a line. -/
def modSector (sl : Slice) (sector : Nat) (f : Sector → Sector) : Slice :=
  match findLine sl (lineOf sector) with
  | none => sl
  | some l => putLine sl { l with sectors := (List.range 4).map (fun i =>
      let x := l.sectors.getD i Sector.absent
      if i = secIndex sector then f x else x) }

/-- The sector as an ordinary line of the slice holds it. -/
def getSector (sl : Slice) (sector : Nat) : Sector :=
  match findLine sl (lineOf sector) with
  | none => Sector.absent
  | some l => l.sectors.getD (secIndex sector) Sector.absent

/-! ### Sectors wherever they are: window or ordinary -/

/-- The sector is there to be read or changed now. -/
def isPresent (s : State) (g sector : Nat) : Bool := isWin sector || secPresent (getSector (getSlice s g) sector)

/-- The sector's bytes, writer tag and failure flag, where it is present. -/
def sectorNow (s : State) (g sector : Nat) : Sector :=
  if isWin sector then
    { st := .dirty, data := mapGetList 0#8 s.cistern.win (sector * 32 - winBase) 32,
      wtag := mapGet 0 s.cistern.winTag (sector - winBase / 32),
      bad := mapGet false s.cistern.winBad (sector - winBase / 32) }
  else getSector (getSlice s g) sector

/-- A sector's new bytes, tag and failure flag; it is DIRTY (R225). -/
def setSectorNow (s : State) (g sector : Nat) (data : List Byte) (wtag : Nat) (bad : Bool) : State :=
  if isWin sector then
    { s with cistern := { s.cistern with
        win := mapSetList 0#8 s.cistern.win (sector * 32 - winBase) (slice data 0 32),
        winTag := mapSet 0 s.cistern.winTag (sector - winBase / 32) wtag,
        winBad := mapSet false s.cistern.winBad (sector - winBase / 32) bad } }
  else
    setSlice s g (touchLine (modSector (getSlice s g) sector (fun _ =>
      { st := .dirty, data := slice data 0 32, wtag := wtag, bad := bad })) (lineOf sector))

/-- The bytes of `old` with those of `new` whose mask bit is set. -/
def mergeBytes (mask : Nat) (old new : List Byte) : List Byte :=
  (List.range 32).map (fun i => if bit mask i then new.getD i 0#8 else old.getD i 0#8)

abbrev fullMask : Nat := 0xFFFFFFFF

/-- The tag that a write by `w` gives a unit (R456). -/
def writtenTag (x : Sector) (w : Nat) : Nat := mergeTag (x.st != .dirty) x.wtag w

/-! ### In-cache reduction (R120, R235) -/

/-- Bytes of an operation's operand. -/
def RedOp.size : RedOp → Nat
  | .addBF16 => 2
  | _ => 4

/-- The exact sum of two BF16 values rounded once (R235). -/
def bf16Add (a b : Nat) : Nat := fEncode fmtBF16 false (FVal.add (fDecode fmtBF16 a) (fDecode fmtBF16 b))

/-- The new value of one lane's operation (R235). -/
def redCompute (op : RedOp) (old opnd swap : Nat) : Nat :=
  match op with
  | .addI32 => (old + opnd) % 2 ^ 32
  | .addF32 => f32Add old opnd
  | .addBF16 => bf16Add old opnd
  | .minS32 => if signed 32 opnd < signed 32 old then opnd else old
  | .maxS32 => if signed 32 old < signed 32 opnd then opnd else old
  | .minU32 => if opnd < old then opnd else old
  | .maxU32 => if old < opnd then opnd else old
  | .and => old &&& opnd
  | .or => old ||| opnd
  | .xor => old ^^^ opnd
  | .exch => opnd
  | .cas => if old = opnd then swap else old
  | .maxF32 => f32MinMax true old opnd
  | .minF32 => f32MinMax false old opnd

/-- Apply lanes in ascending order: the sector's bytes after, and each lane's old value (R97, R235). -/
def applyLanes (op : RedOp) : List RedLane → List Byte → List Byte → List Byte × List Byte
  | [], data, olds => (data, olds)
  | l :: ls, data, olds =>
    let off := l.addr % 32
    let old := leAt data off op.size
    let new := redCompute op old l.opnd l.swap
    applyLanes op ls (splice data off (leBytes op.size new)) (olds ++ leBytes 4 old)

/-- An answer that a slice has for a request. -/
structure Ans where
  o : Origin
  cls : Nat
  sv : Served
  deriving DecidableEq, Repr

/-- The task that wrote a request has read a failed word in writing part of a sector or in reducing into it (R453).
Log entry 35 (DEDUCED). -/
def failWriter (s : State) (r : Req) (x : Sector) : State :=
  if tagHolds s r.wtag then
    dirtyFail s (tagSlot r.wtag) { code := 0, sev := 2, origin := .cistern }
      { place := 13, addr := r.sector * 32, tag := x.wtag, reg := 0, word := x.data }
  else s

/-- Apply one entry to its sector, which is present. A sector with a failed word is not changed: the task of an atomic or a
reduction has read that word (R453, R458). -/
def applyEntry (s : State) (g : Nat) (e : RedEntry) : State × List Ans :=
  match e.req.op with
  | .reduce op returns lanes =>
    let x := sectorNow s g e.req.sector
    let s1 := if x.bad then s else setSectorNow s g e.req.sector (applyLanes op lanes x.data []).1 (writtenTag x e.req.wtag) false
    let sl := getSlice s1 g
    let s2 := setSlice s1 g { sl with redq := sl.redq.filter (· != e), lastDone := now s }
    let s3 := if x.bad then s2 else bump s2 (Key.reduceEntries g) 1
    let data := if x.bad then x.data else (applyLanes op lanes x.data []).2
    if returns then (s3, [⟨e.req.origin, e.req.cls, ⟨e.req.sector, data, x.bad, if x.bad then x.wtag else 0, 0⟩⟩])
    else (if x.bad then failWriter s3 e.req x else s3, [])
  | _ =>
    let sl := getSlice s g
    (setSlice s g { sl with redq := sl.redq.filter (· != e) }, [])

/-- Apply entries in turn. -/
def applyEntries (g : Nat) : List RedEntry → State → List Ans → State × List Ans
  | [], s, acc => (s, acc)
  | e :: es, s, acc =>
    let r := applyEntry s g e
    applyEntries g es r.1 (acc ++ r.2)

/-- Apply every queued entry of a sector that is present, in the order of acceptance.
Log entry 35 (DEDUCED). -/
def applySector (s : State) (g sector : Nat) : State × List Ans :=
  if isPresent s g sector then
    applyEntries g ((getSlice s g).redq.filter (fun e => e.req.sector == sector)) s []
  else (s, [])

/-! ### Accepting requests (R21, R224, R225, R229, R230) -/

/-- The bytes that a request moves, for the class counters (R475). -/
def reqBytes (r : Req) : Nat := match r.op with | .read => 32 | .line => 128 | .write _ _ => 32 | .reduce _ _ _ => 32

/-- Requests of a class that a slice has taken and not completed (R475, point 0). -/
def intakeCount (sl : Slice) (cls : Nat) : Nat :=
  ((sl.mrs.flatMap (·.waiters)).filter (fun r => r.cls == cls && (match r.op with | .reduce _ _ _ => false | _ => true))).length +
    (sl.redq.filter (fun e => e.req.cls == cls)).length + (sl.waits.filter (fun w => w.req.cls == cls)).length

/-- A request is an atomic or a reduction. -/
def isReduce (r : Req) : Bool := match r.op with | .reduce _ _ _ => true | _ => false

/-- Put a reduction into the queue (R234). -/
def enqueueRed (sl : Slice) (r : Req) : Slice :=
  { sl with redq := sl.redq ++ [{ req := r, seq := sl.nextRed, pinned := isWin r.sector }], nextRed := sl.nextRed + 1 }

/-- A word of a DIRTY or window sector has failed: it fails again until it is rewritten (R458).
Log entry 35 (DEDUCED). -/
def markBad (s : State) (g sector : Nat) : State :=
  if isWin sector then
    { s with cistern := { s.cistern with winBad := mapSet false s.cistern.winBad (sector - winBase / 32) true } }
  else setSlice s g (modSector (getSlice s g) sector (fun x => { x with bad := true }))

/-- A failed CLEAN sector goes back to the Reservoir copy (R238). -/
def forgetClean (s : State) (g sector : Nat) : State :=
  bump (bump (setSlice s g (modSector (getSlice s g) sector (fun _ => Sector.absent))) (Key.cleanRefetch g) 1)
    Key.cleanRecoveries 1

/-- A read of a present sector: every earlier entry of the sector is applied first. A failed check of a CLEAN sector sends
it back to PENDING; any other failure is answered as a failure (R238, R454). -/
def readPresent (s : State) (g : Nat) (r : Req) (chk : Chk) : State × List Ans × Bool :=
  let a := applySector s g r.sector
  let x := sectorNow a.1 g r.sector
  if chk = .failed ∧ x.st = .clean then (a.1, a.2, true)
  else
    let s1 := bump (noteTransient a.1 chk) (Key.hits g) 1
    let sl := getSlice s1 g
    let s2 := setSlice s1 g { touchLine sl (lineOf r.sector) with lastDone := now s }
    let s3 := if chk = .failed then markBad s2 g r.sector else s2
    (s3, a.2 ++ [⟨r.origin, r.cls, ⟨r.sector, x.data, x.bad || chk == .failed, x.wtag, 0⟩⟩], false)

/-- A store to a present sector, after the entries queued for it.
Log entry 35 (DEDUCED). -/
def writePresent (s : State) (g : Nat) (r : Req) (mask : Nat) (data : List Byte) : State × List Ans :=
  let a := applySector s g r.sector
  let x := sectorNow a.1 g r.sector
  let s1 := setSectorNow a.1 g r.sector (mergeBytes mask x.data data) (writtenTag x r.wtag)
    (x.bad && mask != fullMask)
  let sl := getSlice s1 g
  (setSlice s1 g { sl with lastDone := now s }, a.2)

/-- Ask the Reservoir for a sector, unless the register asks already (R229). -/
def wantSector (s : State) (g : Nat) (sl : Slice) (sector cls : Nat) : State :=
  let k := getSector sl sector
  if k.st = .pending then setSlice s g sl
  else
    let sl1 := modSector sl sector (fun x => { x with st := .pending })
    let sl2 := { sl1 with
      fetches := sl1.fetches ++ [{ id := sl1.nextFetch, sector := sector, cls := cls, sent := false, held := false, recovered := false, back := none }],
      nextFetch := sl1.nextFetch + 1,
      mrs := sl1.mrs.map (fun m => if m.line = lineOf sector then { m with fetches := m.fetches ++ [secIndex sector] } else m) }
    bump (setSlice s g sl2) (Key.misses g) 1

/-- A request becomes a waiter of its line's register, which is allocated where there is none (R229). -/
def joinRegister (s : State) (g : Nat) (r : Req) : State :=
  let sl := touchLine (getSlice s g) (lineOf r.sector)
  match mrOf sl (lineOf r.sector) with
  | some _ =>
    setSlice (bump s (Key.merges g) 1) g
      { sl with mrs := sl.mrs.map (fun m => if m.line = lineOf r.sector then { m with waiters := m.waiters ++ [r] } else m) }
  | none =>
    let sl1 := { sl with mrs := sl.mrs ++ [{ line := lineOf r.sector, waiters := [r], fetches := [] }] }
    let s1 := if getObj s (Key.mrPeak g) < sl1.mrs.length then setObj s (Key.mrPeak g) sl1.mrs.length else s
    setSlice s1 g sl1

/-- A miss: the request joins the line's register, and its sector is asked for; the line has its way (R229). -/
def joinMiss (s : State) (g : Nat) (r : Req) : State :=
  let s1 := joinRegister s g r
  wantSector s1 g (getSlice s1 g) r.sector r.cls

/-- The sectors of a line. -/
def lineSectors (line : Nat) : List Nat := [0, 1, 2, 3].map (line * 4 + ·)

/-- A Sluice read of a whole line, which has its way: it is one waiter for every sector that is not present (R229, R273). -/
def serveLine (s : State) (g : Nat) (r : Req) : State :=
  let secs := lineSectors (lineOf r.sector)
  let missing := secs.filter (fun n => !(isPresent s g n))
  let s1 := if missing.length < 4 then bump s (Key.hits g) (4 - missing.length) else s
  if missing.isEmpty then setSlice s1 g (touchLine (getSlice s1 g) (lineOf r.sector))
  else missing.foldl (fun st n => wantSector st g (getSlice st g) n r.cls) (joinRegister s1 g r)

/-- The ways of a set that are ordinary in the slice's half; while a greater PIN_WAYS is being applied, those that stay
ordinary (R216, R219). -/
def ordinaryWays (s : State) (g : Nat) : Nat := 16 - max (pinWays s (g / 64)) (getObj s (Key.pinWays (g / 64)))

/-- Every sector that the request needs is there. -/
def reqPresent (s : State) (g : Nat) (r : Req) : Bool := match r.op with
  | .line => (lineSectors (lineOf r.sector)).all (isPresent s g)
  | _ => isPresent s g r.sector

/-- A store of a whole sector that no slice holds and none fetches: it needs no register (R225). -/
def freshStore (sl : Slice) (r : Req) : Bool := match r.op with
  | .write mask _ => mask == fullMask && (getSector sl r.sector).st == .absent
  | _ => false

/-- The line's register has room for a waiter, or a register is free (R229, R230). -/
def registerRoom (sl : Slice) (line : Nat) : Bool := match mrOf sl line with
  | some m => decide (m.waiters.length < 32)
  | none => decide (sl.mrs.length < 256)

/-- Carry out a request that has entered the intake, so far as it can be carried out now (R224, R225, R229). -/
def serveReq (s : State) (g : Nat) (r : Req) (chk : Chk) : State × List Ans :=
  if isPresent s g r.sector then
    match r.op with
    | .read =>
      let a := readPresent s g r chk
      if a.2.2 then (joinMiss (forgetClean a.1 g r.sector) g r, a.2.1) else (a.1, a.2.1)
    | .write mask data =>
      let x := sectorNow s g r.sector
      if (chk = .failed ∨ x.bad = true) ∧ mask ≠ fullMask then
        if x.st = .clean then (joinMiss (forgetClean s g r.sector) g r, [])
        else (failWriter (markBad s g r.sector) r x, [])
      else
        let a := writePresent (noteTransient s chk) g r mask data
        (bump a.1 (Key.hits g) 1, a.2)
    | .reduce _ _ _ => (bump (setSlice s g (touchLine (enqueueRed (getSlice s g) r) (lineOf r.sector))) (Key.hits g) 1, [])
    | .line => (serveLine s g r, [])
  else
    match placeLine (getSlice s g) (lineOf r.sector) (ordinaryWays s g) r.cls with
    | none =>
      let sl := getSlice s g
      (bump (setSlice s g { sl with waits := sl.waits ++ [⟨r, now s⟩] }) (Key.fillWaits g) 1, [])
    | some sl =>
      let s1 := setSlice s g sl
      match r.op with
      | .write mask data =>
        if mask = fullMask ∧ (getSector sl r.sector).st = .absent then
          let s2 := setSectorNow s1 g r.sector data r.wtag false
          let sl2 := getSlice s2 g
          (bump (setSlice s2 g { sl2 with lastDone := now s }) (Key.hits g) 1, [])
        else (joinMiss s1 g r, [])
      | .reduce _ _ _ => (joinMiss (setSlice s1 g (enqueueRed sl r)) g r, [])
      | .read => (joinMiss s1 g r, [])
      | .line => (serveLine s1 g r, [])

/-- A request to this line waits for a way already, so that a later one to the line waits behind it (R224). -/
def lineWaits (sl : Slice) (line : Nat) : Bool := sl.waits.any (fun w => lineOf w.req.sector == line)

/-- A page that the Sluice holds for staged tasks has its line held once the Sluice's read has placed it (R223, R274). -/
def markHeld (s : State) (g : Nat) (r : Req) : State :=
  match r.origin with
  | .sluice seq page =>
    let who := (s.sluice.holds.filter (fun h => h.seq == seq && h.page == page)).map (·.slot)
    let sl := getSlice s g
    match who, findLine sl (lineOf r.sector) with
    | w :: ws, some l => setSlice s g (putLine sl { l with held := w :: ws })
    | _, _ => s
  | _ => s

/-- A request enters the intake (R224). -/
def enterIntake (s : State) (g : Nat) (r : Req) (chk : Chk) : State × List Ans :=
  let sl := getSlice s g
  let s0 := countBytes (if sl.mrs.isEmpty && sl.redq.isEmpty && sl.waits.isEmpty then
    setSlice s g { sl with lastDone := now s } else s) 0 r.cls (reqBytes r)
  if lineWaits sl (lineOf r.sector) then
    let sl0 := getSlice s0 g
    (setSlice s0 g { sl0 with waits := sl0.waits ++ [⟨r, now s⟩] }, [])
  else
    let a := serveReq s0 g r chk
    (markHeld a.1 g r, a.2)

/-- Try again the requests that wait for a way, in order. -/
def retryList (g : Nat) : List WayWait → State → List Ans → State × List Ans
  | [], s, acc => (s, acc)
  | w :: ws, s, acc =>
    let sl := getSlice s g
    let ready := reqPresent s g w.req ||
      ((placeLine sl (lineOf w.req.sector) (ordinaryWays s g) w.req.cls).isSome &&
        (freshStore sl w.req || registerRoom sl (lineOf w.req.sector)))
    if lineWaits sl (lineOf w.req.sector) || !ready then
      retryList g ws (setSlice s g { sl with waits := sl.waits ++ [w] }) acc
    else
      let a := serveReq s g w.req .ok
      retryList g ws (markHeld a.1 g w.req) (acc ++ a.2)

/-- A force goes on while its line is locked, or is there still and a miss of its set waits for a way (R237). -/
def forceLasts (sl : Slice) (line : Nat) : Bool :=
  lockedReduce sl line || ((findLine sl line).isSome &&
    sl.waits.any (fun w => homeSet (w.req.sector * 32) == homeSet (line * 128)))

/-- Requests that wait for a way take one where one has come free; a force ends when its line has been unlocked and the
miss has its way (R228, R237).
Log entry 102 (DESIGN CHOICE). -/
def retryWaits (s : State) (g : Nat) : State × List Ans :=
  let sl := getSlice s g
  let a := retryList g sl.waits (setSlice s g { sl with waits := [] }) []
  let sl1 := getSlice a.1 g
  (setSlice a.1 g { sl1 with forced := sl1.forced.filter (forceLasts sl1) }, a.2)

/-! ### Fills (R225, R229, R251) -/

/-- What a waiter needs has come: its sector, or, for a read of the whole line, every sector that was asked for (R229). -/
def waiterReady (sl : Slice) (r : Req) : Bool := match r.op with
  | .line => (lineSectors (lineOf r.sector)).all (fun n => (getSector sl n).st != .pending)
  | _ => secPresent (getSector sl r.sector)

/-- Serve the waiters of a line whose sectors have come, in intake order; those that still wait are kept. -/
def serveWaiters (g : Nat) : List Req → State → List Req → List Ans → State × List Req × List Ans
  | [], s, kept, acc => (s, kept.reverse, acc)
  | r :: rs, s, kept, acc =>
    if waiterReady (getSlice s g) r then
      match r.op with
      | .line => serveWaiters g rs s kept acc
      | .read =>
        let x := getSector (getSlice s g) r.sector
        serveWaiters g rs s kept (acc ++ [⟨r.origin, r.cls, ⟨r.sector, x.data, x.bad, x.wtag, 0⟩⟩])
      | .write mask data =>
        let a := writePresent s g r mask data
        serveWaiters g rs a.1 kept (acc ++ a.2)
      | .reduce _ _ _ =>
        match (getSlice s g).redq.find? (fun e => e.req == r) with
        | some e =>
          let a := applyEntry s g e
          serveWaiters g rs a.1 kept (acc ++ a.2)
        | none => serveWaiters g rs s kept acc
    else serveWaiters g rs s (r :: kept) acc

/-- A sector that came without good bytes (R251): its readers are answered with a failure, and the tasks behind its
waiting stores and reductions have read a failed word (R453, R455). -/
def failSector (s : State) (g sector : Nat) (data : List Byte) : State × List Ans :=
  let sl := getSlice s g
  let ws := ((mrOf sl (lineOf sector)).map (·.waiters)).getD []
  let mine := ws.filter (fun r => r.sector == sector && r.op != .line)
  let tag := pageTag s sector
  let sl1 := modSector { sl with
      mrs := sl.mrs.map (fun m => if m.line = lineOf sector then { m with waiters := m.waiters.filter (fun r => r.sector != sector || r.op == .line) } else m),
      redq := sl.redq.filter (fun e => e.req.sector != sector) } sector (fun _ => Sector.absent)
  let s1 := setSlice s g sl1
  let answers := mine.filterMap (fun r => match r.op with
    | .read => some (⟨r.origin, r.cls, ⟨sector, data, true, tag, 0⟩⟩ : Ans)
    | .line => none
    | .write _ _ => none
    | .reduce _ returns _ => if returns then some ⟨r.origin, r.cls, ⟨sector, data, true, tag, 0⟩⟩ else none)
  let writers := (mine.filter (fun r => match r.op with
    | .read => false
    | .line => false
    | .write _ _ => true
    | .reduce _ returns _ => !returns)).map (·.wtag)
  (writers.dedup.foldl (fun st w =>
    failWriter st { origin := .sluice 0 0, cls := 0, sector := sector, wtag := w, op := .read }
      { st := .absent, data := data, wtag := tag, bad := true }) s1, answers)

/-- A fetched sector reaches its slice (R220, R225, R229). -/
def fillSector (s : State) (g sector : Nat) (data : List Byte) (failed : Bool) : State × List Ans :=
  let line := lineOf sector
  let sl := getSlice s g
  let sl0 := { sl with fetches := sl.fetches.filter (fun f => f.sector != sector), lastDone := now s,
                       windowRefetch := sl.windowRefetch + (if sl.victims.contains line then 1 else 0),
                       mrs := sl.mrs.map (fun m => if m.line = line then { m with fetches := m.fetches.filter (· != secIndex sector) } else m) }
  let s0 := setSlice (if sl.victims.contains line then bump s (Key.refetches g) 1 else s) g sl0
  let a := if failed then
      let f := failSector s0 g sector data
      let slf := getSlice f.1 g
      (setSlice f.1 g { slf with mrs := slf.mrs.map (fun m =>
        { m with waiters := m.waiters.filter (fun r => !(r.op == .line && m.line == line && waiterReady slf r)) }) }, f.2)
    else
      let s1 := setSlice s0 g (modSector (getSlice s0 g) sector (fun _ => { st := .clean, data := data, wtag := 0, bad := false }))
      let ws := ((mrOf (getSlice s1 g) line).map (·.waiters)).getD []
      let r := serveWaiters g ws s1 [] []
      let sl2 := getSlice r.1 g
      (setSlice r.1 g { sl2 with mrs := sl2.mrs.map (fun m => if m.line = line then { m with waiters := r.2.1 } else m) }, r.2.2)
  let sl3 := getSlice a.1 g
  let s3 := setSlice a.1 g { sl3 with mrs := sl3.mrs.filter (fun m => m.line != line || !m.waiters.isEmpty || !m.fetches.isEmpty) }
  let b := retryWaits s3 g
  (b.1, a.2 ++ b.2)

/-! ### Answers (R98, R232) -/

/-- Change an outstanding memory instruction of a position, of a resident group or of one that has exited. -/
def modMem (s : State) (p id : Nat) (f : MemOp → MemOp) : State :=
  let c := getPos s p
  let upd (m : MemOp) : MemOp := if m.id = id then f m else m
  setPos s p { c with
    groups := c.groups.map (fun e => (e.1, e.2.map (fun g => { g with mem := g.mem.map upd }))),
    late := c.late.map (fun e => (e.1, upd e.2)) }

/-- Data comes back to a core. -/
def deliverData (s : State) (p id : Nat) (sv : Served) : State := modMem s p id (fun m => { m with got := m.got ++ [sv] })

/-- A sector of a store, atomic or reduction has been accepted. -/
def deliverAccept (s : State) (p id sector : Nat) : State :=
  modMem s p id (fun m => { m with accepted := m.accepted ++ [sector] })

/-- The memory instruction behind a core's request: its group's index, its counter, the group's task. -/
def memBehind (s : State) (p id : Nat) : Option MemOp :=
  let c := getPos s p
  match ((coreGroups c).flatMap (fun e => e.2.mem)).find? (fun m => m.id == id) with
  | some m => some m
  | none => (c.late.map (fun (e : Nat × MemOp) => e.2)).find? (fun m => m.id == id)

/-- The first packet of an instruction that no peer has acknowledged is acknowledged. -/
def acceptNext (s : State) (p id : Nat) : State :=
  match memBehind s p id with
  | none => s
  | some m =>
    match m.need.find? (fun k => decide (2 ^ 61 ≤ k) && !(m.accepted.contains k)) with
    | none => s
    | some k => deliverAccept s p id k

/-- Change a job. -/
def modJob (s : State) (id : Nat) (f : Job → Job) : State :=
  { s with cistern := { s.cistern with jobs := s.cistern.jobs.map (fun j => if j.id = id then f j else j) } }

/-- A request of a job is answered. -/
def jobAnswer (s : State) (id : Nat) (sv : Served) : State := modJob s id (fun j => { j with left := j.left - 1, got := j.got ++ [sv] })

/-- A store or reduction of a job is accepted. -/
def jobAccept (s : State) (id : Nat) : State := modJob s id (fun j => { j with left := j.left - 1 })

/-- Sent and unreceived transfers of a class in a direction of the Sill (R475, point 2). -/
def sillCount (s : State) (dir cls : Nat) : Nat :=
  ((mapGet [] s.cistern.sill dir).filter (fun x => x.cls == cls && x.sent)).length

/-- Put a transfer on the Sill: direction 0 west to east, 1 east to west. An answer is never held (R476, R477). -/
def sillSend (s : State) (dir : Nat) (item : SillItem) (cls bytes : Nat) : State :=
  let free := match item with
    | .request _ _ => decide (sillCount s dir cls < classLimit s 2 cls) &&
        (mapGet [] s.cistern.sill dir).all (fun x => x.cls != cls || x.sent)
    | _ => true
  let s1 := { s with cistern := { s.cistern with
    sill := mapMod [] s.cistern.sill dir (· ++ [{ item := item, cls := cls, bytes := bytes, fails := 0, sent := free }]) } }
  if free then countBytes s1 2 cls bytes else countHold s1 2 cls

/-- A job of this half meets the slice without crossing the Sill: one at the Sill reaches both (R19). -/
def reachesHalf (half g : Nat) : Bool := half == 2 || half == g / 64

/-- Send an answer of slice `g` to whoever waits for it. -/
def deliverAns (s : State) (g : Nat) (a : Ans) : State :=
  match a.o with
  | .core p _ id =>
    if posHalf p = g / 64 then deliverData s p id a.sv
    else sillSend s (g / 64) (.answer a.o a.sv) a.cls 32
  | .job half _ id =>
    if reachesHalf half g then jobAnswer s id a.sv
    else sillSend s (g / 64) (.answer a.o a.sv) a.cls 32
  | .sluice _ _ => s

def deliverAll (s : State) (g : Nat) (as : List Ans) : State := as.foldl (fun st a => deliverAns st g a) s

/-- Tell the sender that its store, atomic or reduction has been accepted. A job's atomic has its answer for that. -/
def acceptReq (s : State) (g : Nat) (r : Req) : State :=
  match r.op, r.origin with
  | .read, _ => s
  | .line, _ => s
  | _, .core p _ id =>
    if posHalf p = g / 64 then deliverAccept s p id r.sector
    else sillSend s (g / 64) (.accept r.origin r.sector) r.cls 0
  | .reduce _ true _, .job _ _ _ => s
  | _, .job half _ id =>
    if reachesHalf half g then jobAccept s id
    else sillSend s (g / 64) (.accept r.origin r.sector) r.cls 0
  | _, .sluice _ _ => s

/-! ### Reaching a slice -/

/-- The ports of a slice beside the cores', which are their positions: the links from 1,000, the Sluice, the PCIe port and
copy engines, the Keeper, and the Sill's receiver. -/
abbrev portLink : Nat := 1000
abbrev portSluice : Nat := 2000
abbrev portHost : Nat := 2001
abbrev portKeeper : Nat := 2002
abbrev portSill : Nat := 3000

/-- The input port of a request at its slice. -/
def originPort : Origin → Nat
  | .core p _ _ => p
  | .sluice _ _ => portSluice
  | .job _ port _ => port

/-- The half a request comes from; the Sluice reaches both directly (R19). -/
def originHalf (g : Nat) : Origin → Nat
  | .core p _ _ => posHalf p
  | .sluice _ _ => g / 64
  | .job half _ _ => if half = 2 then g / 64 else half

/-- Send a request towards its home slice: to the slice's ports, or across the Sill (R232). -/
def sendReq (s : State) (r : Req) : State :=
  let g := homeSlice s (r.sector * 32)
  let h := originHalf g r.origin
  if h = g / 64 then
    let sl := getSlice s g
    setSlice s g { sl with inbox := sl.inbox ++ [⟨originPort r.origin, r, false, false⟩] }
  else sillSend s h (.request r g) r.cls (match r.op with | .read => 0 | .line => 0 | _ => 32)

/-! ### Jobs (R19, R224) -/

/-- A job begins: each of its requests goes to its home slice. `pre` are bytes that need no slice. -/
def startJob (s : State) (half port cls wtag : Nat) (who : JobFor) (pre : List Served) (ops : List (Nat × ReqOp)) : State :=
  let id := s.cistern.nextJob
  let j : Job := { id := id, half := half, port := port, cls := cls, who := who, left := ops.length, got := pre }
  ops.foldl (fun st x => sendReq st { origin := .job half port id, cls := cls, sector := x.1, wtag := wtag, op := x.2 })
    { s with cistern := { s.cistern with jobs := s.cistern.jobs ++ [j], nextJob := id + 1 } }

/-- The job of this purpose. -/
def jobOf (s : State) (who : JobFor) : Option Job := s.cistern.jobs.find? (fun j => j.who == who)

/-- A job is over. -/
def dropJob (s : State) (id : Nat) : State :=
  { s with cistern := { s.cistern with jobs := s.cistern.jobs.filter (fun j => j.id != id) } }

/-- Jobs of this purpose are given up: their answers find nobody. -/
def dropJobsFor (s : State) (who : JobFor → Bool) : State :=
  { s with cistern := { s.cistern with jobs := s.cistern.jobs.filter (fun j => !(who j.who)) } }

/-- What a position's own units wait for: its engines, its walker and its groups' instruction lines. -/
def ofCore (p : Nat) : JobFor → Bool
  | .weir q _ => q == p
  | .promote q => q == p
  | .fetch q _ _ => q == p
  | _ => false

/-- The reads of `len` bytes at an address. -/
def readOps (addr len : Nat) : List (Nat × ReqOp) :=
  let n := if len = 0 then 0 else (addr + len - 1) / 32 - addr / 32 + 1
  (List.range n).map (fun i => (addr / 32 + i, .read))

/-- Bytes stored at an address, sector by sector (R225). -/
def storeOps : Nat → Nat → List Byte → List (Nat × ReqOp)
  | 0, _, _ => []
  | n + 1, addr, bs =>
    if bs.isEmpty then []
    else
      let off := addr % 32
      let k := min (32 - off) bs.length
      let data := slice (List.replicate off 0#8 ++ bs.take k) 0 32
      (addr / 32, .write (maskOf ((List.range k).map (· + off))) data) :: storeOps n (addr + k) (bs.drop k)

/-- Bytes with byte enables stored to one line, sector by sector (R306). -/
def maskedOps (line mask : Nat) (bs : List Byte) : List (Nat × ReqOp) :=
  [0, 1, 2, 3].filterMap (fun k =>
    let m := bits mask (32 * k + 31) (32 * k)
    if m = 0 then none else some (line * 4 + k, .write m (slice bs (32 * k) 32)))

/-- The answer for a sector. -/
def gotSector (got : List Served) (n : Nat) : Option Served := got.find? (fun v => v.sector == n)

/-- `len` bytes at an address, out of a job's answers. -/
def gotBytes (got : List Served) (addr len : Nat) : List Byte :=
  slice ((readOps addr len).flatMap (fun x => slice (((gotSector got x.1).map (·.data)).getD []) 0 32)) (addr % 32) len

/-- The first answer that failed its check. -/
def gotFailed (got : List Served) : Option Served := got.find? (·.failed)

/-! ### The intake -/

/-- Why a request may not enter the intake now: its line is forced, its register or all registers are full, or the
reduction queue is full (R230, R234, R237). -/
inductive Held where
  | none | forced | register | reduction
  deriving DecidableEq, Repr

def heldBy (s : State) (g : Nat) (r : Req) : Held :=
  let sl := getSlice s g
  if sl.forced.contains (lineOf r.sector) then .forced
  else if isReduce r && decide (sl.redq.length + (sl.waits.filter (fun w => isReduce w.req)).length ≥ 512) then .reduction
  else if reqPresent s g r || freshStore sl r || registerRoom sl (lineOf r.sector) then .none
  else .register

/-- Take a request of the inbox, at place `i`, into the intake. A reduction of another source to the same line that
still waits may have been offered in the same cycle: that is a matter of timing, so the count is free (R473). -/
def takeInbox (s : State) (g i : Nat) (q : InReq) (chk : Chk) : State :=
  let sl := getSlice s g
  let rest := sl.inbox.eraseIdx i
  let rival := isReduce q.req && rest.any (fun x => isReduce x.req && lineOf x.req.sector == lineOf q.req.sector &&
    originPort x.req.origin != originPort q.req.origin)
  let s1 := setSlice s g { sl with inbox := rest }
  let s2 := if rival then
      let (k, st) := takeFree s1
      if Config.freeBit k then bump st Key.reduceArbitrations 1 else st
    else s1
  let a := enterIntake s2 g q.req chk
  acceptReq (deliverAll a.1 g a.2) g q.req

/-- Mark an inbox entry. -/
def markInbox (s : State) (g i : Nat) (f : InReq → InReq) : State :=
  let sl := getSlice s g
  setSlice s g { sl with inbox := sl.inbox.modify i f }

/-- A request that may not be taken now: its class was at the limit, or R230, R234 or R237 holds it. -/
def blocked (s : State) (g : Nat) (q : InReq) : Bool := q.held || heldBy s g q.req != .none

/-- An earlier request that is blocked holds a later one: behind the Sill's receiver always, elsewhere the requests to its
line (R224) and, where its class is at the limit, those of its class (R477). -/
def holdsBack (port : Nat) (f e : InReq) : Bool :=
  port == portSill || lineOf f.req.sector == lineOf e.req.sector || (f.held && f.req.cls == e.req.cls)

/-- The first request of a port that may be taken, with its place in the inbox. -/
def firstOffered (s : State) (g port : Nat) : Option (InReq × Nat) :=
  let mine := (getSlice s g).inbox.zipIdx.filter (fun e => e.1.port == port)
  mine.find? (fun e => !(blocked s g e.1) &&
    mine.all (fun f => decide (e.2 ≤ f.2) || !(blocked s g f.1 && holdsBack port f.1 e.1)))

/-- Count a request that a full register, or a full set of registers, holds for the first time (R230). -/
def noteFull (s : State) (g port : Nat) : State :=
  match (getSlice s g).inbox.zipIdx.find? (fun e => e.1.port == port && !e.1.full && heldBy s g e.1.req == .register) with
  | none => s
  | some (_, i) => bump (markInbox s g i (fun x => { x with full := true })) (Key.mrFullHolds g) 1

/-- The requests of a slice that wait for a way are tried again, and what they are answered is delivered (R228). -/
def settleWaits (s : State) (g : Nat) : State :=
  if (getSlice s g).waits.isEmpty then s
  else
    let a := retryWaits s g
    deliverAll a.1 g a.2

/-- A request enters a slice's intake (R224, R477); the requests that wait for a way come before it. -/
def sliceIntake (g port : Nat) (chk : Chk) (s : State) : State :=
  let s1 := noteFull (settleWaits s g) g port
  match if (getSlice s1 g).portLost then none else firstOffered s1 g port with
  | none => s1
  | some (q, i) =>
    if intakeCount (getSlice s1 g) q.req.cls ≥ classLimit s1 0 q.req.cls then
      countHold (markInbox s1 g i (fun x => { x with held := true })) 0 q.req.cls
    else takeInbox s1 g i q chk

/-- A fetched sector arrives at its slice and serves its waiters (R229).
Log entry 3 (DESIGN CHOICE). -/
def sectorFill (g line sector : Nat) (s : State) : State :=
  let n := line * 4 + sector
  match ((getSlice s g).fetches.find? (fun f => f.sector == n && f.back.isSome)).bind (·.back) with
  | none => s
  | some (data, failed) =>
    let a := fillSector s g n data failed
    deliverAll a.1 g a.2

/-- The sector whose oldest entry an ALU may apply next: a forced line's entries come ahead (R237). -/
def nextReduction (s : State) (g : Nat) : Option Nat :=
  let sl := getSlice s g
  let ready := sl.redq.filter (fun e => isPresent s g e.req.sector)
  let first := ready.filter (fun e => sl.forced.contains (lineOf e.req.sector))
  ((first ++ ready).map (fun e => e.req.sector)).head?

/-- The entries of a CLEAN sector whose word has failed wait for the Reservoir copy (R238). -/
def refetchEntries (s : State) (g sector : Nat) : State :=
  ((getSlice s g).redq.filter (fun e => e.req.sector == sector)).foldl (fun st e => joinMiss st g e.req) (forgetClean s g sector)

/-- A reduction ALU applies the entries for one sector (R235). `chk` is how the words that it reads come
out (R454).
Log entry 35 (DEDUCED). -/
def reductionApply (g : Nat) (chk : Chk) (s : State) : State :=
  match nextReduction s g with
  | none => s
  | some sector =>
    if chk = .failed ∧ (sectorNow s g sector).st = .clean then refetchEntries s g sector
    else
      let s1 := if chk = .failed then markBad s g sector else noteTransient s chk
      let a := applySector s1 g sector
      let b := retryWaits a.1 g
      deliverAll b.1 g (a.2 ++ b.2)

/-- The oldest locked line of a set: the one whose earliest entry was accepted first (R237). -/
def oldestLocked (sl : Slice) (set : Nat) : Option Nat :=
  ((sl.redq.filter (fun e => !e.pinned && homeSet (e.req.sector * 32) == set &&
    (findLine sl (lineOf e.req.sector)).isSome)).map (fun e => lineOf e.req.sector)).head?

/-- A miss that has waited 256 fabric cycles (128 ns) on a set with a locked line forces the oldest (R237). -/
def reduceForce (g set : Nat) (s : State) : State :=
  let sl := getSlice s g
  let waiting := sl.waits.any (fun w => homeSet (w.req.sector * 32) == set && decide (w.since + 128 ≤ now s))
  match waiting, oldestLocked sl set with
  | true, some line =>
    if sl.forced.any (fun l => homeSet (l * 128) == set) then s
    else
      let s1 := bump (setSlice s g { sl with forced := sl.forced ++ [line] }) (Key.reduceForced g) 1
      let a := (lineSectors line).foldl (fun (st : State × List Ans) n =>
        let r := applySector st.1 g n
        (r.1, st.2 ++ r.2)) (s1, [])
      let b := retryWaits a.1 g
      deliverAll b.1 g (a.2 ++ b.2)
  | _, _ => s

/-! ### The monitors (R221, R233, R239) -/

/-- One slice at the end of a thrash window (R221). -/
def thrashSlice (s : State) (g : Nat) : State :=
  let sl := getSlice s g
  let exceeds := decide (getObj s Key.thrashLimit < sl.windowRefetch)
  let s1 := setSlice s g { sl with windowRefetch := 0 }
  if exceeds && getObj s (Key.thrashFlag g) == 0 then
    raiseUnit (setObj s1 (Key.thrashFlag g) 1) Code.cisternThrash 1 .cistern g [sl.windowRefetch]
  else s1

/-- THRASH_WINDOW_END: when THRASH_WINDOW microseconds have passed, each slice compares its refetches of the window with
THRASH_LIMIT, and the next window begins (R221).
Log entry 107 (DESIGN CHOICE). -/
def execThrashWindowEnd (s : State) : Host.Outcome State Fault Refusal :=
  if s.cistern.thrashStart + getObj s Key.thrashWindow * 1000 ≤ now s then
    .next ((List.range 128).foldl thrashSlice { s with cistern := { s.cistern with thrashStart := now s } })
  else .next s

/-- EXTRA of a CISTERN_RESET frame (R413, R464). -/
def cisResetExtra (s : State) (cause : Nat) : List Byte :=
  leBytes 1 cause ++ leBytes 3 0 ++ leBytes 4 (getObj s Key.pinEpoch)

/-- A CISTERN_RESET frame of a severity. -/
def cisResetEvent (s : State) (sev cause unit : Nat) : State :=
  raise s { code := Code.cisternReset, sev := sev, origin := .cistern, unit := if cause = 2 then unit else 0xFFFFFFFF,
            extra := cisResetExtra s cause }

/-- The severity that R471 gives a code with which a service operation ends, where it gives one.
Log entry 74 (DEDUCED). -/
def svcSeverity (code : Nat) : Option Nat :=
  if code = Code.serviceCancelled then some 0
  else if code = Code.packInvalid ∨ code = Code.tokenInvalid ∨ code = Code.defectListFull then some 1
  else if code = Code.firmwareInvalid ∨ code = Code.licenceInvalid ∨ code = Code.addressUnmapped ∨ code = Code.verticalAbort ∨
    code = Code.sillFatal ∨ code = Code.cisternWatchdog then some 2
  else none

/-- The event frame of a change of a service operation's STATE (R383): its code is the operation's, a free value where
that is 0, and its severity R471's for the code, a free value where it gives none.
Log entry 74 (DEDUCED). -/
def svcEvent (s : State) (code : Nat) : State :=
  let (k, s1) := takeFree s
  let sev := match svcSeverity code with
    | some v => v
    | none => Config.freeNat k % 4
  pushEvent s1 { seq := 0, code := if code = 0 then Config.freeNat k % 4096 else code, severity := sev,
                 origin := EvOrigin.keeper.code, slot := 0xFFFF, device := s.pool.device, tag := 0, stamp := stamp s,
                 unit := 0xFFFFFFFF, detail := [], sent := false } false

/-- Service operation `op` as it stands. -/
def getSvc (s : State) (op : Nat) : Svc := mapGet Svc.idle s.keeper.svcs op

def setSvc (s : State) (op : Nat) (v : Svc) : State :=
  { s with keeper := { s.keeper with svcs := mapSet Svc.idle s.keeper.svcs op v } }

/-- The positions that the spot test and the test-pack run hold (R467). -/
def syncTesting (s : State) : State :=
  { s with keeper := { s.keeper with testing := (getSvc s 2).busy ++ (getSvc s 3).busy } }

/-- End a running service operation with a code (R383, R415). -/
def endSvc (s : State) (op state code : Nat) : State :=
  let v := getSvc s op
  let off := syncTesting (setSvc s op { v with state := state, code := code, cancel := false, todo := [], busy := [], data := [] })
  dropJobsFor (svcEvent (setObj off (Key.svcEnded (op - 1)) (stamp s)) code) (· == .image op)

/-- A licence load that withdraws units ends once no core that it withdraws is draining any more (R488). -/
def settleLicence (s : State) : State :=
  let v := getSvc s 5
  if v.state = 3 ∧ v.todo.all (fun p => coreState s p != 2) = true then endSvc s 5 5 0 else s

/-- A Cistern-only reset is requested: the first frame is sent and the drain begins (R413). A request during a reset is
merged into it; a Sill-fatal or watchdog request ends a defect sweep, whose Basins are filled (R412, R415), and before S10 it stops start-up (R404). -/
def requestCisReset (s : State) (cause unit code : Nat) : State :=
  if inCisReset s then s
  else if starting s then (if s.boot.stopped then s else stopStage s s.boot.stage code StageOut.none)
  else
    let s1 := if (getSvc s 1).state == 3 then
        endSvc { s with cores := mapEach Pos.idle (fun c => { c with basin := [], basinTag := [] }) s.cores } 1 6 code
      else s
    let s2 := { s1 with cistern := { s1.cistern with reset := some ⟨cause, unit, now s⟩ } }
    cisResetEvent s2 1 cause unit

/-- A slice that holds a request and completes none for 1 ms (R239). -/
def cisternWatchdog (g : Nat) (s : State) : State :=
  let sl := getSlice s g
  let holds := !sl.mrs.isEmpty || !sl.redq.isEmpty || !sl.waits.isEmpty
  if holds && decide (sl.lastDone + 1000000 ≤ now s) then
    let s1 := raiseUnit s Code.cisternWatchdog 2 .cistern g []
    requestCisReset s1 2 g Code.cisternWatchdog
  else s

/-- What a received transfer does. -/
def sillReceive (s : State) (x : SillXfer) : State :=
  match x.item with
  | .request r g =>
    let sl := getSlice s g
    setSlice s g { sl with inbox := sl.inbox ++ [⟨portSill, r, false, false⟩] }
  | .answer (.core p _ id) sv => deliverData s p id sv
  | .answer (.job _ _ id) sv => jobAnswer s id sv
  | .accept (.core p _ id) sector => deliverAccept s p id sector
  | .accept (.job _ _ id) _ => jobAccept s id
  | .answer _ _ => s
  | .accept _ _ => s

/-- The oldest transfer sent in a direction is received and checked; one that fails is sent again, and the
eighth failure in succession is Sill-fatal (R233). -/
def sillTransfer (dir : Nat) (ok : Bool) (s : State) : State :=
  let xs := mapGet [] s.cistern.sill dir
  match xs.zipIdx.find? (fun e => e.1.sent) with
  | none => s
  | some (x, i) =>
    let put (st : State) (ys : List SillXfer) : State :=
      { st with cistern := { st.cistern with sill := mapSet [] st.cistern.sill dir ys } }
    if ok then sillReceive (bump (put s (xs.eraseIdx i)) (Key.sillBytes dir) x.bytes) x
    else
      let s1 := bump (put s (xs.set i { x with fails := x.fails + 1 })) Key.sillRetries 1
      if x.fails + 1 ≥ 8 then
        requestCisReset (raiseUnit s1 Code.sillFatal 2 .cistern 0xFFFFFFFF []) 1 0xFFFFFFFF Code.sillFatal
      else s1

/-! ### Pinned ways and pools (R216 to R219) -/

/-- The lines of a slice that lie in ways from `w` up. -/
def linesFrom (sl : Slice) (w : Nat) : List Line := (sl.sets.flatMap (·.2)).filter (fun l => decide (w ≤ l.way))

/-- A line in a way that becomes pinned leaves it, its DIRTY sectors written back, as soon as nothing is attached to it and a
writeback buffer is free (R219, R226). -/
def writeBackLine (s : State) (g : Nat) (l : Line) : State :=
  let sl := getSlice s g
  if mayEvict sl l && decide (wbLines sl < 64) then setSlice s g { evictLine sl l 0 with victims := sl.victims } else s

/-- The window bytes of a half with way index at least `j` are dropped. -/
def dropWindow (s : State) (half j : Nat) : State :=
  let keep (o : Nat) : Bool := !(bits o 31 31 == half && decide (j ≤ bits o 30 27))
  { s with cistern := { s.cistern with win := mapKeep keep s.cistern.win,
                                       winTag := mapKeep (fun t => keep (t * 32)) s.cistern.winTag,
                                       winBad := mapKeep (fun t => keep (t * 32)) s.cistern.winBad } }

/-- The slices of a half. -/
def halfSlices (half : Nat) : List Nat := (List.range 64).map (half * 64 + ·)

/-- A committed PIN_WAYS of a half is applied to every set: the lines of the ways that become pinned are written back as room
for them allows, and the change is in effect when none is left (R219).
Log entry 107 (DESIGN CHOICE). -/
def pinWaysApply (half : Nat) (s : State) : State :=
  let new := getObj s (Key.pinWays half)
  let old := pinWays s half
  if new = old ∨ 2 ≤ half ∨ new = 0 ∨ 12 < new then s
  else
    let s1 := if old < new then
        (halfSlices half).foldl (fun st g => (linesFrom (getSlice st g) (16 - new)).foldl (fun u l => writeBackLine u g l) st) s
      else s
    if (halfSlices half).any (fun g => !(linesFrom (getSlice s1 g) (16 - new)).isEmpty) then s1
    else
      let s2 := dropWindow s1 half (min old new - 1)
      { s2 with cistern := { s2.cistern with winWays := mapSet 1 s2.cistern.winWays half new } }

/-- The largest aligned power-of-two blocks that `n` pages divide into, from the start (R259). -/
def carve : Nat → Nat → Nat → List Block
  | 0, _, _ => []
  | k + 1, n, start =>
    if 2 ^ k ≤ n then ⟨start, k⟩ :: carve k (n - 2 ^ k) (start + 2 ^ k) else carve k n start

/-- A committed POOL_PAGES redefines the half's LEVEL 1 pool (R218, R259). -/
def poolPagesApply (half : Nat) (s : State) : State :=
  let n := getObj s (Key.poolPages half)
  let h := getHalf s half
  if n = h.poolPages ∨ 2 ≤ half ∨ s.sluice.bufs.any (fun b => b.level == 1 && b.half == half) then s
  else setHalf s half { h with poolPages := n, poolFree := carve 20 n 0 }

end Sys2Proof.Machine
end

