-- ==== Sys2Proof/Machine/Reservoir.lean ====
section
/-! DEFINITION. The Reservoir (chapter 9 of the manual): channel queues, choice of reads, draining, refresh, retraining,
and lost stacks. -/

namespace Sys2Proof.Machine

/-- STACK_STATE of a stack (R254). -/
def stackState (s : State) (k : Nat) : Nat := getObj s (Key.stackState k)

/-- Transactions of a class at a channel: its queued reads and writes (R475, point 1). -/
def chanCount (c : Channel) (cls : Nat) : Nat :=
  (c.reads.filter (fun r => r.cls == cls)).length + (c.writes.filter (fun w => w.cls == cls)).length

/-- Change one fetch of a slice. -/
def modFetch (s : State) (g id : Nat) (f : Fetch → Fetch) : State :=
  let sl := getSlice s g
  setSlice s g { sl with fetches := sl.fetches.map (fun x => if x.id = id then f x else x) }

/-- A fetch may leave its slice: it has not been sent, it is the line's oldest unsent one (R229) but for those of other classes
that their limits hold (R477), and the slice has sent every writeback of the line (R247). -/
def mayFetch (sl : Slice) (f : Fetch) : Bool :=
  !f.sent && f.back.isNone &&
    sl.fetches.all (fun x => lineOf x.sector != lineOf f.sector || x.sent || x.back.isSome || decide (f.id ≤ x.id) ||
      (x.held && x.cls != f.cls)) &&
    sl.wb.all (fun w => lineOf w.sector != lineOf f.sector)

/-- A channel drains no longer than R246 has it: until 16 or fewer writes are left, or a read is queued with fewer than 48; at
48 it drains. -/
def settleDrain (c : Channel) : Channel :=
  if c.writes.length ≥ 48 then { c with draining := true }
  else if c.writes.length ≤ 16 ∨ c.reads.isEmpty = false then { c with draining := false }
  else c

/-- A fetch enters its channel's read queue (R245), or comes back at once as failed where the stack is lost (R252). -/
def sendFetch (s : State) (g : Nat) (f : Fetch) : State :=
  if onLostStack s (f.sector * 32) then
    modFetch s g f.id (fun x => { x with sent := true, held := false, back := some ((resRead s f.sector).1, true) })
  else
    let l := resLoc s (f.sector * 32)
    let c := getChan s l.stack l.ch
    let s1 := setChan s l.stack l.ch (settleDrain { c with
      reads := c.reads ++ [{ slice := g, fetch := f.id, sector := f.sector, cls := f.cls, since := now s, tries := 0 }] })
    countBytes (modFetch s1 g f.id (fun x => { x with sent := true, held := false })) 1 f.cls 32

/-- RESERVOIR_READ_REQUEST: a slice's fetch enters its channel's read queue, within its class's limit (R245, R477). -/
def execReservoirReadRequest (g id : Nat) (s : State) : Host.Outcome State Fault Refusal :=
  let sl := getSlice s g
  match sl.fetches.find? (fun f => f.id == id) with
  | none => .next s
  | some f =>
    if !(mayFetch sl f) || f.held then .next s
    else if onLostStack s (f.sector * 32) then .next (sendFetch s g f)
    else
      let l := resLoc s (f.sector * 32)
      let c := getChan s l.stack l.ch
      if c.reads.length ≥ 64 then .next s
      else if chanCount c f.cls ≥ classLimit s 1 f.cls then
        .next (countHold (modFetch s g id (fun x => { x with held := true })) 1 f.cls)
      else .next (sendFetch s g f)

/-- The open row's key of a sector: its bank and row. -/
def rowOpen (s : State) (c : Channel) (sector : Nat) : Bool :=
  let l := resLoc s (sector * 32)
  mapGet 0 c.openRow l.bank == l.row + 1

/-- The next read of a channel (R246): among those that have waited 2 µs, if there are any, one to an open row, and then the
first to enter. -/
def nextRead (s : State) (c : Channel) : Option ChRead :=
  let old := c.reads.filter (fun r => decide (r.since + 2000 ≤ now s))
  let rs := if old.isEmpty then c.reads else old
  match rs.find? (fun r => rowOpen s c r.sector) with
  | some r => some r
  | none => rs.head?

/-- A page of a sequence that has a host copy holds the sector (R284).
Log entry 42 (DEDUCED). -/
def hasHostCopy (s : State) (sector : Nat) : Bool :=
  s.sluice.seqs.any (fun e => match e.2 with
    | none => false
    | some q => q.pages.any (fun p => p.hostPage.isSome && p.st != .host && p.st != .pagingOut &&
        partPage s q.half p.zone == sector * 32 / 2 ^ 16 * 2 ^ 16))

/-- The Sluice writes the host copy over the page that holds a sector: the page's sectors lose their marks (R284).
Log entry 42 (DEDUCED). -/
def recoverPage (s : State) (sector : Nat) : State :=
  { s with reservoir := { s.reservoir with marked := mapKeep (fun n => n / 2048 != sector / 2048) s.reservoir.marked } }

/-- The Sluice has restored the page and the sector has been read again with success (R284). -/
def noteRecovered (s : State) : State := bump (bump s Key.hostRecoveries 1) Key.cleanRecoveries 1

/-- A read has its last outcome: its sector goes back to the slice, failed or not (R251). -/
def endRead (s : State) (stack ch : Nat) (r : ChRead) (data : List Byte) (failed : Bool) : State :=
  let c := getChan s stack ch
  let rest := c.reads.filter (fun x => x != r)
  let s1 := setChan s stack ch { c with reads := rest, emptySince := if rest.isEmpty then now s else c.emptySince }
  let before := ((getSlice s r.slice).fetches.find? (fun f => f.id == r.fetch)).any (·.recovered)
  if failed && hasHostCopy s r.sector && !before then
    -- the slice reads the sector again after the Sluice has restored the page (R284)
    modFetch (recoverPage s1 r.sector) r.slice r.fetch (fun f => { f with sent := false, recovered := true })
  else
    let s2 := modFetch s1 r.slice r.fetch (fun f => { f with back := some (data, failed) })
    if before && !failed then noteRecovered s2 else s2

/-- A burst from the array ends a read: it opens the row, and its bytes are counted. -/
def finishRead (s : State) (stack ch : Nat) (r : ChRead) (failed : Bool) : State :=
  let c := getChan s stack ch
  let l := resLoc s (r.sector * 32)
  let s1 := bump (if rowOpen s c r.sector then bump s (Key.rowHits stack) 1 else s) (Key.bytesRead stack) 32
  endRead (setChan s1 stack ch { c with openRow := mapSet 0 c.openRow l.bank (l.row + 1) }) stack ch r (resRead s r.sector).1 failed

/-- A failure of a channel's transfer, among those of the last millisecond (R250). -/
def noteFail (s : State) (stack ch : Nat) : State :=
  let c := getChan s stack ch
  setChan s stack ch { c with fails := now s :: c.fails.filter (fun t => decide (now s < t + 1000000)) }

/-- A queued read whose sector the write queue holds: it is answered from there (R247). -/
def answeredFromWrites (c : Channel) : Option (ChRead × ChWrite) :=
  c.reads.findSome? (fun r => (c.writes.find? (fun w => w.sector == r.sector)).map (fun w => (r, w)))

/-- RESERVOIR_READ_RETURN: a queued read is answered from the write queue, or a read burst completes and is tested; a failed one
is read again up to three times, and an uncorrectable sector has no good copy (R247, R250, R251). `ecc` is what the stack's own
code made of it: none where it is uncorrectable, else the number of errors corrected (R250).
Log entry 43 (DEDUCED). -/
def execReservoirReadReturn (stack ch : Nat) (ok : Bool) (ecc : Option Nat) (s : State) : Host.Outcome State Fault Refusal :=
  let c := getChan s stack ch
  match c.retraining, answeredFromWrites c with
  | true, _ => .next s
  | false, some (r, w) => .next (endRead s stack ch r w.data w.mark)
  | false, none =>
    match c.draining, nextRead s c with
    | false, some r =>
      let s1 := bump s (Key.corrected stack) (ecc.getD 0)
      if ecc.isNone || (resRead s r.sector).2 then
        .next (finishRead (bump s1 (Key.stackUncorrectable stack) 1) stack ch r true)
      else if ok then .next (finishRead s1 stack ch r false)
      else
        let s2 := noteFail s1 stack ch
        if r.tries ≥ 3 then .next (finishRead s2 stack ch r true)
        else
          let c2 := getChan s2 stack ch
          .next (bump (setChan s2 stack ch { c2 with reads := replaceFirst (· == r) (fun x => { x with tries := r.tries + 1 }) c2.reads })
            (Key.channelRetries stack) 1)
    | _, _ => .next s

/-- A sector enters a channel's write queue, merging with a queued write of the same sector (R247). -/
def queueWrite (s : State) (w : WbSector) : State :=
  let l := resLoc s (w.sector * 32)
  let c := getChan s l.stack l.ch
  let new : ChWrite := { sector := w.sector, data := w.data, cls := w.cls, mark := w.mark }
  let ws := if c.writes.any (fun x => x.sector == w.sector) then
      c.writes.map (fun x => if x.sector = w.sector then new else x)
    else c.writes ++ [new]
  let s1 := if onLostStack s (w.sector * 32) then s else setChan s l.stack l.ch (settleDrain { c with writes := ws })
  notePageWriter (countBytes s1 1 w.cls 32) w.sector w.wtag

/-- The channel can take the write: room in its queue, or a queued write to merge with. -/
def writeRoom (s : State) (sector : Nat) : Bool :=
  let l := resLoc s (sector * 32)
  let c := getChan s l.stack l.ch
  decide (c.writes.length < 64) || c.writes.any (fun x => x.sector == sector) || onLostStack s (sector * 32)

/-- The oldest sector of a slice's writeback buffers enters its channel's write queue (R226,
R247, R476: a writeback is never held by its class). -/
def writeRequest (g : Nat) (s : State) : State :=
  let sl := getSlice s g
  match sl.wb with
  | [] => s
  | w :: rest =>
    if writeRoom s w.sector then
      let s1 := bump (queueWrite (setSlice s g { sl with wb := rest }) w) (Key.writebacks g) 1
      let a := retryWaits s1 g
      deliverAll a.1 g a.2
    else s

/-- RESERVOIR_WRITE_DRAIN: a channel whose read queue has been empty for 64 fabric cycles turns to draining its writes, as it
does at 48 of them; or it turns back to reading (R246).
Log entry 43 (DEDUCED). -/
def execReservoirWriteDrain (stack ch : Nat) (s : State) : Host.Outcome State Fault Refusal :=
  let c := getChan s stack ch
  let idle := c.reads.isEmpty && decide (c.emptySince + 32 ≤ now s)
  .next (setChan s stack ch (settleDrain (if idle then { c with draining := true } else c)))

/-- End everything queued for a lost stack: reads come back failed, writes are dropped (R252).
Log entry 34 (DEDUCED). -/
def dropStack (s : State) (stack : Nat) : State :=
  (List.range 128).foldl (fun st ch =>
    let c := getChan st stack ch
    let s1 := c.reads.foldl (fun u r => modFetch u r.slice r.fetch (fun f =>
      { f with back := some ((resRead u r.sector).1, true) })) st
    setChan s1 stack ch { Channel.idle with refreshBank := c.refreshBank }) s

/-- A stack is lost in service (R252). -/
def stackLost (s : State) (stack ch : Nat) : State :=
  if s.reservoir.lost.contains stack then s
  else
    let s1 := dropStack { s with reservoir := { s.reservoir with lost := s.reservoir.lost ++ [stack] } } stack
    let s2 := setObj (setObj s1 (Key.stackState stack) 3) (Key.failedChannel stack) ch
    raiseUnit (appendDefect s2 4 0x20 stack ch Code.reservoirLost) Code.reservoirLost 2 .reservoir stack [ch]

/-- RESERVOIR_WRITE_BURST_COMPLETE: the oldest queued write's burst completes and is tested by the stack; after three
resends that fail, the stack is lost (R250, R251). -/
def execReservoirWriteBurstComplete (stack ch : Nat) (ok : Bool) (s : State) : Host.Outcome State Fault Refusal :=
  let c := getChan s stack ch
  match c.retraining || !c.draining, c.writes with
  | false, w :: rest =>
    if ok then
      let l := resLoc s (w.sector * 32)
      let s1 := setChan s stack ch (settleDrain { c with writes := rest, writeTries := 0, openRow := mapSet 0 c.openRow l.bank (l.row + 1) })
      .next (bump (resWrite s1 w.sector w.data w.mark) (Key.bytesWritten stack) 32)
    else if c.writeTries ≥ 3 then .next (stackLost s stack ch)
    else
      let s1 := noteFail s stack ch
      .next (bump (setChan s1 stack ch { getChan s1 stack ch with writeTries := c.writeTries + 1 }) (Key.channelRetries stack) 1)
  | _, _ => .next s

/-- Requests that a channel holds for a bank.
Log entry 43 (DEDUCED). -/
def bankRequests (s : State) (c : Channel) (bank : Nat) : Nat :=
  (c.reads.filter (fun r => (resLoc s (r.sector * 32)).bank == bank)).length +
    (c.writes.filter (fun w => (resLoc s (w.sector * 32)).bank == bank)).length

/-- REFRESH: the next bank of a channel falls due. With requests queued for it the refresh may be owed, up to four; then
it is issued, closing the bank's row (R248).
Log entries 5 (DESIGN CHOICE); 43 (DEDUCED). -/
def execRefresh (stack ch : Nat) (s : State) : Host.Outcome State Fault Refusal :=
  let c := getChan s stack ch
  let bank := c.refreshBank
  let queued := bankRequests s c bank
  let owed := mapGet 0 c.owed bank + 1
  let c1 := { c with refreshBank := (bank + 1) % 32 }
  if queued > 0 ∧ owed < 4 then .next (setChan s stack ch { c1 with owed := mapSet 0 c.owed bank owed })
  else
    let c2 := { c1 with owed := mapSet 0 c.owed bank (if queued > 0 then owed - 1 else 0),
                        openRow := mapSet 0 c.openRow bank 0 }
    .next (bump (setChan s stack ch c2) (Key.refreshWaits stack) queued)

/-- CHANNEL_RETRAIN: a channel with sixteen failed transfers within 1 ms is retrained (R250). -/
def execChannelRetrain (stack ch : Nat) (s : State) : Host.Outcome State Fault Refusal :=
  let c := getChan s stack ch
  let recent := c.fails.filter (fun t => decide (now s < t + 1000000))
  if recent.length ≥ 16 ∧ c.retraining = false then
    .next (bump (setChan s stack ch { c with retraining := true, fails := [] }) (Key.stackRetrains stack) 1)
  else .next s

/-- CHANNEL_RETRAIN_COMPLETE: the channel's requests resume, or a channel that fails retraining loses its stack (R250,
R252). -/
def execChannelRetrainComplete (stack ch : Nat) (ok : Bool) (s : State) : Host.Outcome State Fault Refusal :=
  let c := getChan s stack ch
  if c.retraining = false then .next s
  else if ok then .next (setChan s stack ch { c with retraining := false })
  else .next (stackLost (setChan s stack ch { c with retraining := false }) stack ch)

end Sys2Proof.Machine
end

