-- ==== Sys2Proof/Machine/Sluice.lean ====
section
/-! DEFINITION. The Sluice (chapter 10 of the manual): buffers, sequences, staging, host moves, page-out. -/

namespace Sys2Proof.Machine

/-! ### Ranking (R50, R52) -/

/-- The effective class of a task that has waited since `since`: 7 once that is longer than the age limit of its class (R50,
R52).
Log entry 30 (DEDUCED). -/
def effClass (s : State) (sl : Slot) (since : Option Nat) : Nat :=
  let limit := getObj s (Key.ageLimit (recClass sl.words))
  match since with
  | some t => if limit ≠ 0 ∧ t + limit * 1000000 < now s then 7 else recClass sl.words
  | none => recClass sl.words

/-- A task that the window ranks: satisfied in state 1, in state 2, or in state 7 with a re-run that must stage (R50). -/
def inRanking (sl : Slot) : Bool :=
  recTaskKind sl.words == 0 && sl.ending.isNone &&
  ((sl.state == 1 && sl.satisfied.isSome) || (sl.state == 2 && sl.nextGroup == 0) ||
   (sl.state == 7 && (sl.replayWait == some .window || sl.staging != .none) && sl.nextGroup == 0))

/-- The order of the window (R50): effective class, its age limit running from the moment the waits became satisfied; that
moment; slot number. -/
def rankBefore (s : State) (a b : Nat × Slot) : Bool :=
  let cls (e : Nat × Slot) : Nat := effClass s e.2 e.2.satisfied
  if cls a ≠ cls b then decide (cls b < cls a)
  else if a.2.satisfied ≠ b.2.satisfied then decide (a.2.satisfied.getD 0 < b.2.satisfied.getD 0)
  else decide (a.1 ≤ b.1)

/-- The ranked tasks. -/
def ranking (s : State) : List (Nat × Slot) :=
  ((liveSlots s).filter (fun e => inRanking e.2)).insertionSort (fun a b => rankBefore s a b = true)

/-! ### Buddy allocation (R258) -/

/-- A block put among the free ones, by start. -/
def insertBlock (b : Block) : List Block → List Block
  | [] => [b]
  | x :: xs => if b.start < x.start then b :: x :: xs else x :: insertBlock b xs

/-- Halve a block of 2^k pages at `start` until the sub-block of 2^j pages at `target` is left: the free halves. -/
def splitBlock (start j target : Nat) : Nat → List Block
  | 0 => []
  | k + 1 =>
    if k + 1 ≤ j then []
    else if target < start + 2 ^ k then ⟨start + 2 ^ k, k⟩ :: splitBlock start j target k
    else ⟨start, k⟩ :: splitBlock (start + 2 ^ k) j target k

/-- The lowest sub-block of 2^j pages of a free block that the predicate allows. -/
def subBlock (ok : Nat → Bool) (j : Nat) (b : Block) : Option Nat :=
  ((List.range (2 ^ (b.k - j))).map (fun i => b.start + i * 2 ^ j)).find? ok

/-- Take a block of 2^j pages: the lowest free block of that size, else the lowest larger one, halved (R258). -/
def takeBlock (ok : Nat → Bool) (free : List Block) (j : Nat) : Option (Nat × List Block) :=
  let same := free.find? (fun b => b.k == j && ok b.start)
  let pick := match same with
    | some b => some b
    | none => free.find? (fun b => decide (j < b.k) && (subBlock ok j b).isSome)
  match pick with
  | none => none
  | some b =>
    match subBlock ok j b with
    | none => none
    | some t => some (t, (splitBlock b.start j t b.k).foldl (fun acc x => insertBlock x acc) (free.filter (· != b)))

/-- Free a block: it merges with its free partner as long as one exists, up to blocks of 2^most pages (R258). -/
def giveBlock (most : Nat) : Nat → Block → List Block → List Block
  | 0, b, free => insertBlock b free
  | n + 1, b, free =>
    let partner : Block := ⟨b.start ^^^ 2 ^ b.k, b.k⟩
    if b.k < most ∧ free.contains partner = true then
      giveBlock most n ⟨min b.start partner.start, b.k + 1⟩ (free.filter (· != partner))
    else insertBlock b free

/-- The smallest k for which 2^k is at least `n` (R258). -/
def orderOf (n : Nat) : Nat := if n ≤ 1 then 0 else Nat.log2 (n - 1) + 1

/-- Free pages of a list of blocks. -/
def blockPages (bs : List Block) : Nat := (bs.map (fun b => 2 ^ b.k)).sum

/-! ### Zones and pages (R255, R264, R266, R267, R269) -/

/-- A page of a half's part lies in a stack lost in service, and is not allocated again (R286).
Log entry 34 (DEDUCED). -/
def pageLost (s : State) (half q : Nat) : Bool := onLostStack s (partPage s half q)

/-- A block of the buffer zone has no page in a lost stack: eight consecutive pages reach every stack of a half. -/
def blockWhole (s : State) (half k start : Nat) : Bool :=
  s.reservoir.lost.isEmpty ||
    (List.range (min (2 ^ k) 8)).all (fun i => !(pageLost s half ((getHalf s half).open_ + start + i)))

/-- The first page of a half's sequence zone. -/
def seqZone (h : HalfSpace) : Nat := h.open_ + h.bufPages

/-- Free pages of a half's sequence zone. -/
def freeSeqPages (h : HalfSpace) : Nat := h.freed.length + (h.seqPages - h.nextFresh)

/-- The next page of the zone never used that lies in no lost stack.
Log entry 50 (DEDUCED). -/
def freshPage (s : State) (half : Nat) (h : HalfSpace) : Option (Nat × HalfSpace) :=
  let skip := ((List.range 8).find? (fun i => !(pageLost s half (seqZone h + h.nextFresh + i)))).getD 0
  if h.nextFresh + skip < h.seqPages then
    some (seqZone h + h.nextFresh + skip, { h with nextFresh := h.nextFresh + skip + 1 })
  else none

/-- An access translated to the page earlier is still under way: a memory instruction, or a Weir command (R203). -/
def pageInUse (s : State) (half q : Nat) : Bool :=
  let base := partPage s half q
  let inPage (k : Nat) : Bool := decide (base / 32 ≤ k ∧ k < base / 32 + 2048)
  let uses (m : MemOp) : Bool := m.need.any (fun k => inPage k && !(m.accepted.contains k) && !(m.got.any (fun v => v.sector == k)))
  let runs (e : Engine) : Bool := (e.running.bind (·.page)) == some base
  s.cores.any (fun e => ((coreGroups e.2).flatMap (fun g => g.2.mem) ++ e.2.late.map (·.2)).any uses || runs e.2.lxu || runs e.2.lyt)

/-- Take a zone page: the most recently freed first, once no access translated earlier is under way in it (R203, R266).
Log entry 50 (DEDUCED). -/
def takeZonePage (s : State) (half : Nat) : Option (Nat × State) :=
  let h := getHalf s half
  match h.freed.find? (fun q => !(pageLost s half q) && !(pageInUse s half q)) with
  | some q => some (q, setHalf s half { h with freed := h.freed.erase q })
  | none => (freshPage s half h).map (fun e => (e.1, setHalf s half e.2))

/-- Give a zone page back.
Log entry 50 (DEDUCED). -/
def giveZonePage (s : State) (half q : Nat) : State :=
  let h := getHalf s half
  setHalf s half { h with freed := q :: h.freed }

/-- TPP and PPS of a sequence's profile (R264). -/
def seqTpp (s : State) (n : Nat) : Nat := getObj s (Key.tokensPerPage (bits n 16 13))
def seqPps (s : State) (n : Nat) : Nat := getObj s (Key.pagesPerStep (bits n 16 13))

/-- The pages that a length in tokens needs (R266). -/
def pagesFor (s : State) (n len : Nat) : Nat :=
  let tpp := seqTpp s n
  (if tpp = 0 then 0 else (len + tpp - 1) / tpp) * seqPps s n

/-- The directory blocks of a sequence of `p` pages (R269).
Log entry 49 (DESIGN CHOICE). -/
def dirsFor (p : Nat) : Nat := (p + 4095) / 4096

/-- The chain blocks of a sequence of `p` pages (R269).
Log entry 49 (DESIGN CHOICE). -/
def chainsFor (p : Nat) : Nat := (p + 63) / 64

/-- A page of a sequence is writable: its group holds a token at or above WRITE_FROM (R267). -/
def pageWritable (s : State) (n page : Nat) (q : Seqn) : Bool :=
  let pps := seqPps s n
  let g := if pps = 0 then 0 else page / pps
  decide (q.writeFrom < (g + 1) * seqTpp s n)

/-- Page `page` of sequence `n`. -/
def getPage (s : State) (n page : Nat) : Option Page := (getSeq s n).bind (fun q => q.pages[page]?)

/-- Change a page. -/
def modPage (s : State) (n page : Nat) (f : Page → Page) : State :=
  match getSeq s n with
  | none => s
  | some q => setSeq s n (some { q with pages := q.pages.modify page f })

/-- The Reservoir address of a page. -/
def pageAddr (s : State) (n page : Nat) : Nat :=
  match getSeq s n with
  | none => 0
  | some q => partPage s q.half (((q.pages[page]?).map (·.zone)).getD 0)

/-- Invalidate a page's walker entries everywhere (R203). -/
def invalidatePage (s : State) (n page : Nat) : State :=
  { s with cores := s.cores.map (fun c => (c.1, { c.2 with walker := c.2.walker.filter (fun w => !(w.seq == n && w.page == page)) })) }

/-- Drop a page's frame copy, if it has one (R280). -/
def dropFrame (s : State) (n page : Nat) : State :=
  match getPage s n page with
  | none => s
  | some pg =>
    match pg.frame with
    | none => s
    | some p =>
      let s1 := invalidatePage s n page
      let c := getPos s1 p
      let s2 := setPos s1 p { c with frames := c.frames.filter (fun e => e.2 != some (n, page)) }
      modPage s2 n page (fun x => { x with frame := none, st := if x.st = .basin then .cistern else x.st })

/-! ### Host pool pages (R281, R282) -/

/-- Take a host pool page, if one is free. -/
def takeHostPage (s : State) : Option (Nat × State) :=
  match s.sluice.hostFreed with
  | h :: rest => some (h, { s with sluice := { s.sluice with hostFreed := rest } })
  | [] =>
    if s.sluice.hostNext < getObj s Key.hostPoolPages then
      some (s.sluice.hostNext, { s with sluice := { s.sluice with hostNext := s.sluice.hostNext + 1 } })
    else none

/-- Give a host pool page back. -/
def giveHostPage (s : State) (h : Option Nat) : State :=
  match h with
  | none => s
  | some h => { s with sluice := { s.sluice with hostFreed := h :: s.sluice.hostFreed } }

/-- Free a page's host copy. -/
def dropHostCopy (s : State) (n page : Nat) : State :=
  match getPage s n page with
  | none => s
  | some pg =>
    let s1 := giveHostPage s pg.hostPage
    let s2 := modPage s1 n page (fun x => { x with hostPage := none })
    { s2 with sluice := { s2.sluice with hostCopies := s2.sluice.hostCopies.filter (· != (n, page)) } }

/-- Free the oldest host copy of a page in state RESERVOIR or CISTERN (R282). -/
def reclaimHostPage (s : State) : Option (Nat × State) :=
  match s.sluice.hostCopies.find? (fun e => match getPage s e.1 e.2 with
      | some pg => pg.st == .reservoir || pg.st == .cistern
      | none => false) with
  | none => none
  | some (n, page) => takeHostPage (dropHostCopy s n page)

/-- A host pool page, freeing a host copy where none is free. -/
def someHostPage (s : State) : Option (Nat × State) :=
  match takeHostPage s with
  | some r => some r
  | none => reclaimHostPage s

/-! ### Users and frees (R265, R272) -/

/-- The sequences that a task's record names (R265). -/
def seqNames (sl : Slot) : List Nat := (taskSeqs sl).map seqNumber

/-- The task is in state 2, 3, 4 or 7. -/
def activeTask (sl : Slot) : Bool := sl.state == 2 || sl.state == 3 || sl.state == 4 || sl.state == 7

/-- The sequence has a user (R265). -/
def seqUsed (s : State) (n : Nat) : Bool := (liveSlots s).any (fun e => activeTask e.2 && (seqNames e.2).contains n)

/-- Free one page of a sequence that becomes FREE; a moving page is freed when its move completes (R265, R286).
Log entry 51 (DEDUCED). -/
def freePage (s : State) (n page : Nat) (half : Nat) (pg : Page) : State :=
  let s1 := dropFrame (invalidatePage s n page) n page
  let s2 := { s1 with sluice := { s1.sluice with hostCopies := s1.sluice.hostCopies.filter (· != (n, page)) } }
  match pg.st with
  | .host => giveHostPage s2 pg.hostPage
  | .pagingIn | .pagingOut =>
    { s2 with sluice := { s2.sluice with orphans := s2.sluice.orphans ++ [⟨n, page, half, pg.zone, pg.hostPage, pg.st == .pagingIn⟩] } }
  | _ => giveHostPage (giveZonePage s2 half pg.zone) pg.hostPage

/-- A sequence becomes FREE (R265).
Log entry 50 (DEDUCED). -/
def freeSeq (s : State) (n : Nat) : State :=
  match getSeq s n with
  | none => s
  | some q =>
    let s1 := q.pages.zipIdx.foldl (fun st e => freePage st n e.2 q.half e.1) s
    let s2 := { s1 with sluice := { s1.sluice with dirsUsed := s1.sluice.dirsUsed - dirsFor q.pages.length,
                                                   chainsUsed := s1.sluice.chainsUsed - chainsFor q.pages.length } }
    setSeq s2 n none

/-- A sequence's last user has left: its pages go down to RESERVOIR, and a RELEASING sequence becomes FREE (R265, R272). -/
def loseUsers (s : State) (n : Nat) : State :=
  match getSeq s n with
  | none => s
  | some q =>
    if seqUsed s n then s
    else if q.st = .releasing then freeSeq s n
    else
      let s1 := (List.range q.pages.length).foldl (fun st i => dropFrame st n i) s
      (List.range q.pages.length).foldl (fun st i => match getPage st n i with
        | some pg => if pg.st = .cistern then
            modPage (invalidatePage st n i) n i (fun x => { x with st := .reservoir }) else st
        | none => st) s1

/-- A task has left states 2, 3, 4 and 7: the sequences it named may have lost their last user. -/
def dropUsers (s : State) (ns : List Nat) : State := ns.dedup.foldl loseUsers s

/-- SEQ_RELEASE of a sequence (R265). -/
def releaseSeq (s : State) (n : Nat) : State :=
  match getSeq s n with
  | none => s
  | some q => if q.st = .active then
      (if seqUsed s n then setSeq s n (some { q with st := .releasing }) else freeSeq s n) else s

/-! ### Buffers (R258 to R263) -/

/-- The largest order that an empty zone or pool of either half can hold (R260). -/
def largestOrder (s : State) (level : Nat) : Option Nat :=
  let most (h : HalfSpace) : Nat := if level = 0 then h.bufPages else h.poolPages
  let n := max (most s.sluice.west) (most s.sluice.east)
  if n = 0 then none else some (if level = 0 then min 16 (Nat.log2 n) else Nat.log2 n)

/-- A buffer's device-local base address. -/
def bufBase (s : State) (level half start : Nat) : Nat :=
  if level = 0 then partPage s half ((getHalf s half).open_ + start) else winBase + half * 2 ^ 31 + start * 2 ^ 16

/-- Take a block of a level in a half. -/
def takeFrom (s : State) (level half k : Nat) : Option (Nat × State) :=
  let h := getHalf s half
  if level = 0 then
    (takeBlock (blockWhole s half k) h.bufFree k).map (fun e => (e.1, setHalf s half { h with bufFree := e.2 }))
  else (takeBlock (fun _ => true) h.poolFree k).map (fun e => (e.1, setHalf s half { h with poolFree := e.2 }))

/-- Free a buffer. -/
def freeBuf (s : State) (b : Buf) : State :=
  let h := getHalf s b.half
  let s1 := if b.level = 0 then setHalf s b.half { h with bufFree := giveBlock 16 16 ⟨b.start, b.k⟩ h.bufFree }
    else setHalf s b.half { h with poolFree := giveBlock 32 32 ⟨b.start, b.k⟩ h.poolFree }
  { s1 with sluice := { s1.sluice with bufs := s1.sluice.bufs.filter (· != b) } }

/-- Write an argument word of a slot (R261). -/
def setArg (s : State) (n k v : Nat) : State :=
  modSlot s n (fun sl => { sl with words := sl.words.set (22 + k) (BitVec.ofNat 64 v) })

/-- Allocate the buffer of entry `e` for slot `n`, in the home half or else the other (R260). -/
def allocBuf (s : State) (n home e : Nat) : Option State :=
  let k := orderOf (bufPages e)
  let put (half start : Nat) (st : State) : State :=
    let a := bufBase st (bufLevel e) half start
    let b : Buf := { level := bufLevel e, half := half, start := start, k := k, persist := bufPersist e, slot := n,
                     gen := mapGet 0 st.fountain.uses n, addr := a }
    setArg { st with sluice := { st.sluice with bufs := st.sluice.bufs ++ [b] } } n (bufArg e) a
  match takeFrom s (bufLevel e) home k with
  | some r => some (put home r.1 r.2)
  | none => (takeFrom s (bufLevel e) (1 - home) k).map (fun r => put (1 - home) r.1 r.2)

/-- Free a task's task-scoped buffers (R262). -/
def freeScoped (s : State) (n : Nat) : State :=
  (s.sluice.bufs.filter (fun b => b.slot == n && !b.persist && b.gen == mapGet 0 s.fountain.uses n)).foldl freeBuf s

/-- The persistent buffer that a FREE entry of a task frees at its retirement: the one that staging found at the entry's
address; for a control task, which is not staged, the one that stands there now (R37, R262). -/
def freeTarget (s : State) (sl : Slot) (e : Nat) : Option Buf :=
  s.sluice.bufs.find? (fun b => b.persist && b.addr == recArg sl.words (bufArg e) &&
    (recTaskKind sl.words == 1 || sl.freeing.contains (bufId b)))

/-- Carry out a task's FREE entries; one that finds its buffer gone is counted (R262). -/
def carryFrees (s : State) (n : Nat) : State :=
  match getSlot s n with
  | none => s
  | some sl =>
    ((recBufs sl.words).filter (fun e => entValid e && bufFree e)).foldl (fun st e =>
      match freeTarget st sl e with
      | some b => freeBuf st b
      | none => bump st Key.freeMisses 1) s

/-- The buffers that a request's FREE entries name, as staging finds them (R262). -/
def freesFound (s : State) (sl : Slot) : List (Nat × Nat × Nat) :=
  ((recBufs sl.words).filter (fun e => entValid e && bufFree e)).filterMap (fun e =>
    (s.sluice.bufs.find? (fun b => b.persist && b.addr == recArg sl.words (bufArg e))).map bufId)

/-! ### Host moves (R277, R281 to R285) -/

/-- The pages that an entry stages: FIRST_PAGE and every PPS-th page after it (R273). -/
def entryPages (s : State) (e : Nat) : List (Nat × Nat) :=
  let n := seqNumber e
  match getSeq s n with
  | none => []
  | some q =>
    let pps := max 1 (seqPps s n)
    let len := q.pages.length
    let cnt := if seqFirst e < len then (len - seqFirst e + pps - 1) / pps else 0
    (List.range cnt).map (fun i => (n, seqFirst e + i * pps))

/-- The pages that a task stages. -/
def taskPages (s : State) (sl : Slot) : List (Nat × Nat) := ((taskSeqs sl).flatMap (entryPages s)).dedup

/-- The tasks that look-ahead serves (R277). -/
def aheadTasks (s : State) : List (Nat × Slot) := (ranking s).take (getObj s Key.hostAhead)

/-- The class of the staging task that a page moves for, the first by slot; 0 for none (chapter 20). -/
def moveClass (s : State) (e : Nat × Nat) : Nat :=
  (((liveSlots s).find? (fun x => (taskPages s x.2).contains e)).map (fun x => recClass x.2.words)).getD 0

/-- This device's own engines serve its moves: it is the pool's head, or in no pool (R285, R344).
Log entry 59 (DEDUCED). -/
def servesCopies (s : State) : Bool := s.pool.head || s.pool.st == .standalone

/-- The page moves now outstanding: the first HOST_MOVES of those begun (R285). -/
def outstandingMoves (s : State) : List (Nat × Nat × Bool) := s.sluice.moves.take (getObj s Key.hostMoves)

/-- A move of the engines is a page's. -/
def isPageMove : EngineMove → Bool
  | .page _ _ _ => true
  | .copy _ => false

/-- The moves that the sixteen engines carry out now: the first in order of arrival (R285). -/
def inEngines (s : State) : List EngineMove := s.port.queue.take 16

/-- An outstanding page move that engines carry out: this device's, or, in a pool, the head's (R285).
Log entry 108 (DESIGN CHOICE). -/
def moveServed (s : State) (m : Nat × Nat × Bool) : Bool :=
  (outstandingMoves s).contains m && (!(servesCopies s) || (inEngines s).contains (.page m.1 m.2.1 m.2.2))

/-- An engine in the west half reads the page of a page-out at its home slices (R19, R282). -/
def readPageOut (s : State) (m : Nat × Nat × Bool) : State :=
  if m.2.2 || !(moveServed s m) || (jobOf s (.pageOut m.1 m.2.1)).isSome then s
  else startJob s 0 portHost 0 0 (.pageOut m.1 m.2.1) [] (readOps (pageAddr s m.1 m.2.1) 65536)

/-- Page moves that become outstanding arrive at the engines, and the page-outs whose turn has come are read (R285). -/
def feedEngines (s : State) : State :=
  let fed := (s.port.queue.filter isPageMove).length
  let new := if servesCopies s then (outstandingMoves s).drop fed else []
  let s1 := { s with port := { s.port with queue := s.port.queue ++ new.map (fun m => .page m.1 m.2.1 m.2.2) } }
  (outstandingMoves s1).foldl readPageOut s1

/-- A page move begins. -/
def addMove (s : State) (m : Nat × Nat × Bool) : State :=
  feedEngines { s with sluice := { s.sluice with moves := s.sluice.moves ++ [m] } }

/-- A page move is over. -/
def endMove (s : State) (m : Nat × Nat × Bool) : State :=
  feedEngines { s with sluice := { s.sluice with moves := s.sluice.moves.erase m },
                       port := { s.port with queue := s.port.queue.erase (.page m.1 m.2.1 m.2.2) } }

/-- The sequences of a half that page-out may take from, the least recently staged first (R277, R282). -/
def pageoutSeqs (s : State) (half : Nat) : List (Nat × Seqn) :=
  let guarded := (aheadTasks s).flatMap (fun e => seqNames e.2)
  ((s.sluice.seqs.filterMap (fun e => e.2.map (fun q => (e.1, q)))).filter (fun e =>
    e.2.half == half && !(seqUsed s e.1) && !(guarded.contains e.1))).insertionSort (fun a b => a.2.lastStaged ≤ b.2.lastStaged)

/-- Page-out candidates of a half, in order: within a sequence from the highest page down (R282). -/
def pageoutCandidates (s : State) (half : Nat) : List (Nat × Nat) :=
  (pageoutSeqs s half).flatMap (fun e =>
    (e.2.pages.zipIdx.reverse.filter (fun p => p.1.st == .reservoir)).map (fun p => (e.1, p.2)))

/-- Pages of a half being paged out. -/
def pagingOut (s : State) (half : Nat) : Nat :=
  (s.sluice.moves.filter (fun m => !m.2.2 && ((getSeq s m.1).map (·.half)).getD 2 == half)).length

/-- Page out one candidate (R272, R282): with a host copy it goes to HOST at once, otherwise its copy begins. -/
def pageOut (s : State) (half : Nat) (e : Nat × Nat) : State :=
  match getPage s e.1 e.2 with
  | none => s
  | some pg =>
    if pg.hostPage.isSome then
      let s1 := modPage (giveZonePage (invalidatePage s e.1 e.2) half pg.zone) e.1 e.2 (fun x => { x with st := .host })
      { s1 with sluice := { s1.sluice with hostCopies := s1.sluice.hostCopies.filter (· != e) } }
    else if s.sluice.moves.length ≥ getObj s Key.hostMoves then s
    else
      match someHostPage s with
      | none => s
      | some (h, s1) =>
        addMove (modPage (invalidatePage s1 e.1 e.2) e.1 e.2 (fun x => { x with st := .pagingOut, hostPage := some h })) (e.1, e.2, false)

/-- Go on with a half's page-out until PAGEOUT_HIGH pages are free or will be; it ends when they are free, or when no candidate
remains and none is being paged out (R282).
Log entry 108 (DESIGN CHOICE). -/
def continuePageout (s : State) (half : Nat) : State :=
  if !(getHalf s half).pagingOut then s
  else
    let high := getObj s Key.pageoutHigh
    let s1 := (pageoutCandidates s half).foldl (fun st e =>
      if freeSeqPages (getHalf st half) + pagingOut st half ≥ high then st else pageOut st half e) s
    if freeSeqPages (getHalf s1 half) ≥ high ∨ (pageoutCandidates s1 half = [] ∧ pagingOut s1 half = 0) then
      setHalf s1 half { getHalf s1 half with pagingOut := false }
    else s1

/-- A move has ended: the page-out of either half may go on. -/
def goOnPaging (s : State) : State := continuePageout (continuePageout s 0) 1

/-- Cancel the page-out of a page: it is CISTERN again, and the host page is freed (R272, R286). -/
def cancelPageOut (s : State) (e : Nat × Nat) : State :=
  match getPage s e.1 e.2 with
  | none => s
  | some pg =>
    if pg.st ≠ .pagingOut then s
    else
      let s1 := giveHostPage (invalidatePage s e.1 e.2) pg.hostPage
      let s2 := modPage s1 e.1 e.2 (fun x => { x with st := .cistern, hostPage := none })
      let s3 := dropJobsFor s2 (· == .pageOut e.1 e.2)
      goOnPaging (bump (endMove s3 (e.1, e.2, false)) Key.pageoutCancels 1)

/-! ### Staging (R273 to R276) -/

/-- A staging request's extensions that are still to be made: a re-run makes none (R268). -/
def extensions (sl : Slot) : List (Nat × Nat) :=
  if sl.extends_.isEmpty then ((taskSeqs sl).filter seqExtend).map (fun e => (seqNumber e, seqTokens e)) else []

/-- LENGTH of a sequence: 0 when FREE. -/
def seqLen (s : State) (n : Nat) : Nat := ((getSeq s n).map (·.length)).getD 0

/-- Allocated pages of a sequence. -/
def seqPageCount (s : State) (n : Nat) : Nat := ((getSeq s n).map (·.pages.length)).getD 0

/-- The pages a sequence will have after the request's extensions. -/
def pagesAfter (s : State) (exts : List (Nat × Nat)) (n : Nat) : Nat :=
  match exts.find? (fun x => x.1 == n) with
  | none => seqPageCount s n
  | some x => max (seqPageCount s n) (pagesFor s n (seqLen s n + x.2))

/-- The first refusal that applies to a staging request, in R273's order. -/
def stagingRefusal (s : State) (sl : Slot) : Option Nat :=
  let es := taskSeqs sl
  let exts := extensions sl
  let extNames := (es.filter seqExtend).map seqNumber
  let unknown (e : Nat) : Bool := match getSeq s (seqNumber e) with
    | none => !(extNames.contains (seqNumber e))
    | some q => q.st == .releasing || (q.st == .free && !(extNames.contains (seqNumber e)))
  let bufs := (recBufs sl.words).filter entValid
  if es.any unknown then some Code.sequenceUnknown
  else if ¬ extNames.Nodup then some Code.seqConflict
  else if exts.any (fun x => decide (pagesFor s x.1 (seqLen s x.1 + x.2) > 32768)) then some Code.seqTooLong
  else if bufs.any (fun e => bufFree e &&
      !(s.sluice.bufs.any (fun b => b.persist && b.addr == recArg sl.words (bufArg e)))) then some Code.bufferUnknown
  else if bufs.any (fun e => !(bufFree e) && (match largestOrder s (bufLevel e) with
      | none => true
      | some k => decide (k < orderOf (bufPages e)))) then some Code.bufferTooLarge
  else if es.any (fun e => seqFirst e != 0 && decide (pagesAfter s exts (seqNumber e) ≤ seqFirst e)) then some Code.seqRange
  else none

/-- Another task in state 2, 3, 4 or 7 holds the extension of a sequence that this request extends (R266, R273). -/
def extensionHeld (s : State) (n : Nat) (exts : List (Nat × Nat)) : Bool :=
  (liveSlots s).any (fun e => e.1 != n && activeTask e.2 && e.2.extends_.any (fun x => exts.any (fun y => y.1 == x.1)))

/-- The half that a sequence becoming ACTIVE is given (R265). -/
def newSeqHalf (s : State) : Nat := if freeSeqPages s.sluice.east > freeSeqPages s.sluice.west then 1 else 0

/-- The buffers that a request must allocate: a re-run keeps its persistent ones (R70). -/
def wantedBufs (sl : Slot) : List Nat :=
  (recBufs sl.words).filter (fun e => bufAllocates e && !(bufPersist e && decide (sl.replays > 0)))

/-- The home half (R275). -/
def homeHalf (s : State) (sl : Slot) : Nat :=
  let hs := (taskPages s sl).map (fun e => ((getSeq s e.1).map (·.half)).getD 0)
  let w := (hs.filter (· == 0)).length
  let e := (hs.filter (· == 1)).length
  if w ≠ e then (if w < e then 1 else 0)
  else
    match (recBufs sl.words).find? bufAllocates with
    | none => 0
    | some b =>
      let free (h : HalfSpace) : Nat := if bufLevel b = 0 then blockPages h.bufFree else blockPages h.poolFree
      if free s.sluice.west < free s.sluice.east then 1 else 0

/-- Allocate the pages of a sequence up to a count, from its half's zone (R266).
Log entry 41 (DEDUCED). -/
def growSeq (n half : Nat) : Nat → State → Option State
  | 0, s => some s
  | k + 1, s =>
    match takeZonePage s half with
    | none => none
    | some (z, s1) =>
      growSeq n half k (match getSeq s1 n with
        | none => s1
        | some q => setSeq s1 n (some { q with pages := q.pages ++
            [{ st := .reservoir, zone := z, hostPage := none, frame := none, ahead := false }] }))

/-- Carry out one extension (R265, R266): the sequence becomes ACTIVE, its pages and table blocks are allocated.
Log entry 41 (DEDUCED). -/
def extendSeq (s : State) (x : Nat × Nat) : Option State :=
  let q := (getSeq s x.1).getD { st := .active, half := newSeqHalf s, length := 0, writeFrom := 0, pages := [], lastStaged := 0, retired := 0 }
  let p := q.pages.length
  let p' := max p (pagesFor s x.1 (q.length + x.2))
  let dirs := s.sluice.dirsUsed + (dirsFor p' - dirsFor p)
  let chains := s.sluice.chainsUsed + (chainsFor p' - chainsFor p)
  if dirs > 196608 ∨ chains > 196608 then none
  else
    let s1 := setSeq { s with sluice := { s.sluice with dirsUsed := dirs, chainsUsed := chains } } x.1 (some { q with st := .active })
    growSeq x.1 q.half (p' - p) s1

/-- Do each of a list of reservations, or none. -/
def reserveAll {α : Type} (f : State → α → Option State) : List α → State → Option State
  | [], s => some s
  | x :: xs, s => (f s x).bind (reserveAll f xs)

/-- Begin the page-in of a HOST page: it takes a zone page of the sequence's half (R283). -/
def beginPageIn (ahead : Bool) (s : State) (e : Nat × Nat) : Option State :=
  match getSeq s e.1, getPage s e.1 e.2 with
  | some q, some pg =>
    if pg.st ≠ .host then some s
    else (takeZonePage s q.half).map (fun r =>
      addMove (modPage r.2 e.1 e.2 (fun x => { x with st := .pagingIn, zone := r.1, ahead := ahead })) (e.1, e.2, true))
  | _, _ => some s

/-- Ask the home slices for every line of a page (R229, R273). -/
def fetchPage (s : State) (cls : Nat) (e : Nat × Nat) : State :=
  let base := pageAddr s e.1 e.2 / 32
  (List.range 512).foldl (fun st i =>
    sendReq st { origin := .sluice e.1 e.2, cls := cls, sector := base + 4 * i, wtag := 0, op := .line }) s

/-- The held pages of a half. -/
def heldPages (s : State) (half : Nat) : List (Nat × Nat) :=
  ((s.sluice.holds.map (fun h => (h.seq, h.page))).dedup).filter (fun e => ((getSeq s e.1).map (·.half)).getD 2 == half)

/-- The sets of a slice that a page's lines fall in are those of every page equal to it modulo 2,048 (R214). -/
def setClass (s : State) (e : Nat × Nat) : Nat := pageAddr s e.1 e.2 / 2 ^ 16 % 2048

/-- Ways of a set that one page takes: one, or two in a slice that serves for its retired partner too (R214, R462). -/
def waysOfPage (s : State) (half : Nat) : Nat :=
  if (halfSlices half).any (fun g => (getSlice s g).retired) then 2 else 1

/-- Holding this page would make a third held way in a set (R227). -/
def thirdWay (s : State) (half : Nat) (e : Nat × Nat) : Bool :=
  decide (2 < waysOfPage s half * (((heldPages s half).filter (fun h => h != e && setClass s h == setClass s e)).length + 1))

/-- Hold a RESERVOIR page for slot `n`, within HOLD_PAGES (R274). None where it would make a third held way, unless
`lenient` (R287). -/
def holdPage (n : Nat) (lenient : Bool) (s : State) (e : Nat × Nat) : Option State :=
  match getSeq s e.1, getPage s e.1 e.2 with
  | some q, some pg =>
    if pg.st ≠ .reservoir then some s
    else
      let held := heldPages s q.half
      let put : State := { s with sluice := { s.sluice with holds := s.sluice.holds ++ [⟨n, e.1, e.2⟩] } }
      if held.contains e then some put
      else if held.length ≥ getObj s (Key.holdPages q.half) then some s
      else if thirdWay s q.half e then (if lenient then some s else none)
      else some put
  | _, _ => some s

/-- Bring one page up (R273, step 4): the page-in of a HOST page has been begun. -/
def bringUp (cls : Nat) (s : State) (e : Nat × Nat) : State :=
  match getPage s e.1 e.2 with
  | none => s
  | some pg =>
    match pg.st with
    | .reservoir => fetchPage (modPage (invalidatePage s e.1 e.2) e.1 e.2 (fun x => { x with st := .cistern })) cls e
    | .pagingOut => cancelPageOut s e
    | .pagingIn => modPage s e.1 e.2 (fun x => { x with ahead := false })
    | _ => s

/-- The resources that a request needs (R276). -/
def neededResources (s : State) (sl : Slot) : List Nat :=
  let halfOf (n d : Nat) : Nat := ((getSeq s n).map (fun q => q.half)).getD d
  let hosted (e : Nat × Nat) : Bool := match getPage s e.1 e.2 with
    | some p => p.st == .host
    | none => false
  let fromBufs := (wantedBufs sl).flatMap (fun e => if bufLevel e = 0 then [0, 1] else [2, 3])
  let fromExts := (extensions sl).flatMap (fun (x : Nat × Nat) =>
    let p := seqPageCount s x.1
    let p' := pagesAfter s [x] x.1
    (if p < p' then [4 + halfOf x.1 (newSeqHalf s)] else []) ++
      (if dirsFor p < dirsFor p' ∨ chainsFor p < chainsFor p' then [6] else []))
  let fromPages := ((taskPages s sl).filter hosted).map (fun (e : Nat × Nat) => 4 + halfOf e.1 0)
  (fromBufs ++ fromExts ++ fromPages).dedup

/-- An earlier request that starves needs one of the same resources (R276). -/
def starvedOut (s : State) (n : Nat) (needs : List Nat) : Bool :=
  (s.sluice.deferred.takeWhile (fun d => d.slot != n)).any (fun d => d.starved && d.needs.any needs.contains)

/-- Steps 2 to 4 of R273 for a request that is not refused: none where it is deferred. -/
def reserveStaging (s : State) (n : Nat) (sl : Slot) : Option State :=
  let exts := extensions sl
  if extensionHeld s n exts || starvedOut s n (neededResources s sl) then none
  else
    (reserveAll extendSeq exts s).bind (fun s1 =>
    let home := homeHalf s1 sl
    (reserveAll (fun st e => allocBuf st n home e) (wantedBufs sl) s1).bind (fun s2 =>
    let pages := taskPages s2 sl
    (reserveAll (beginPageIn false) pages s2).bind (fun s3 =>
    (reserveAll (holdPage n false) pages s3).map (fun s4 =>
      let s5 := pages.foldl (bringUp (recClass sl.words)) s4
      let s6 := (seqNames sl).dedup.foldl (fun st q => match getSeq st q with
        | some x => setSeq st q (some { x with lastStaged := now st })
        | none => st) s5
      let made := exts.map (fun (x : Nat × Nat) => (x.1, seqLen s x.1, seqLen s x.1 + x.2))
      modSlot s6 n (fun t =>
        { t with staging := .moving, home := home, asked := pages, freeing := freesFound s sl,
                 extends_ := if t.extends_.isEmpty then made else t.extends_ })))))

/-- Drop a task's holds (R274, R286). -/
def releaseHold (s : State) (n : Nat) : State :=
  let s1 := { s with sluice := { s.sluice with holds := s.sluice.holds.filter (fun h => h.slot != n) } }
  { s1 with cistern := { s1.cistern with slices := s1.cistern.slices.map (fun e =>
    (e.1, { e.2 with sets := e.2.sets.map (fun l => (l.1, l.2.map (fun x => { x with held := x.held.filter (· != n) }))) })) } }

/-- A task that ends has nothing held and nothing deferred. -/
def endStaging (s : State) (n : Nat) : State :=
  releaseHold { s with sluice := { s.sluice with deferred := s.sluice.deferred.filter (fun d => d.slot != n) } } n

/-- A task without groups goes to state 6 after it may have entered the Sluice: its reservations and holds are released, its
task-scoped buffers freed, and its sequences may lose their last user (R286, R511). -/
def leaveFaulted (s : State) (n : Nat) (r : ErrRec) : State :=
  match getSlot s n with
  | none => s
  | some sl => dropUsers (failCore (endStaging (freeScoped s n) n) n r) (seqNames sl)

/-- A producer, named by its slot and the slot's use count, that cannot reach state 5 again (R457, R458). -/
def producerGone (s : State) (p : Nat × Nat) : Bool :=
  mapGet 0 s.fountain.uses p.1 != p.2 || !([3, 4, 5, 7].contains (slotState s p.1))

/-- The task waits in state 7 on a producer that cannot be rebuilt. -/
def waitsOnGone (s : State) (sl : Slot) : Bool :=
  sl.state == 7 && (match sl.replayWait with
    | some (.onProducers ps) => ps.any (producerGone s)
    | _ => false)

/-- Every consumer that waits on a producer that cannot be rebuilt goes to state 6 with CHECK_FAILED (R458), and so do those
that wait on it. -/
def failConsumers : Nat → State → State
  | 0, s => s
  | k + 1, s =>
    match (liveSlots s).find? (fun e => waitsOnGone s e.2) with
    | none => s
    | some e => failConsumers k (leaveFaulted s e.1 { code := Code.checkFailed, sev := 2, origin := .fountain })

/-- A task without groups fails, and with it the consumers that wait on it (R286, R458, R511). -/
def failStaged (s : State) (n : Nat) (r : ErrRec) : State := failConsumers (liveSlots s).length (leaveFaulted s n r)

/-- The Sluice refuses a staging request (R51, R64). -/
def refuseStaging (s : State) (n code : Nat) : State :=
  failStaged (bump s Key.refusals 1) n { code := code, sev := 2, origin := .sluice }

/-- Consider a staging request (R273): refused, deferred, or its moves begun.
Log entry 102 (DESIGN CHOICE). -/
def considerStaging (s : State) (n : Nat) : State :=
  match getSlot s n with
  | none => s
  | some sl =>
    match stagingRefusal s sl with
    | some c => refuseStaging s n c
    | none =>
      match reserveStaging s n sl with
      | some s1 => { s1 with sluice := { s1.sluice with deferred := s1.sluice.deferred.filter (fun d => d.slot != n) } }
      | none =>
        if s.sluice.deferred.any (fun d => d.slot == n) then s
        else
          let s1 := modSlot (bump s Key.deferrals 1) n (fun t => { t with staging := .deferred })
          { s1 with sluice := { s1.sluice with deferred := s1.sluice.deferred ++
              [{ slot := n, since := now s, needs := neededResources s sl, starved := false }] } }

/-- Retry the deferred requests, in the order in which they were first deferred (R276). -/
def retryDeferred (s : State) : State := (s.sluice.deferred.map (·.slot)).foldl considerStaging s

/-- The Sluice, which reaches both halves, stands in neither (R19). -/
abbrev atSill : Nat := 2

/-- The entries of a request are known: the deferred requests are tried first, then this one is considered (R276). -/
def withList (s : State) (n : Nat) (list : List Word64) : State :=
  considerStaging (retryDeferred (modSlot s n (fun t => { t with seqList := list }))) n

/-- The Fountain sends the Sluice one staging request for slot `n`; the array that SEQ_LIST names is read first (R36, R50).
Log entry 40 (DEDUCED). -/
def requestStaging (s : State) (n : Nat) : State :=
  match getSlot s n with
  | none => s
  | some sl =>
    let k := recSeqCount sl.words
    let a := addrLocal (recSeqList sl.words)
    if k = 0 then withList s n []
    else
      match homeRefusal s a (8 * k) with
      | some c => refuseStaging s n c
      | none => startJob (modSlot s n (fun t => { t with staging := .listing })) atSill portSluice (recClass sl.words) 0
          (.seqList n (mapGet 0 s.fountain.uses n)) [] (readOps a (8 * k))

/-- The array that SEQ_LIST names has been read; a word of it that has failed refuses the request.
Log entry 40 (DEDUCED). -/
def takeSeqList (s : State) (n gen : Nat) (got : List Served) : State :=
  match getSlot s n with
  | none => s
  | some sl =>
    if sl.staging ≠ .listing ∨ mapGet 0 s.fountain.uses n ≠ gen then s
    else if (gotFailed got).isSome then refuseStaging s n Code.checkFailed
    else
      let k := recSeqCount sl.words
      withList s n (wordsOf k (gotBytes got (addrLocal (recSeqList sl.words)) (8 * k)))

/-- A page has sector reads of the Sluice under way. -/
def pageReading (s : State) (e : Nat × Nat) : Bool :=
  let is (o : Origin) : Bool := o == .sluice e.1 e.2
  s.cistern.slices.any (fun g => g.2.inbox.any (fun q => is q.req.origin) || g.2.mrs.any (fun m => m.waiters.any (fun r => is r.origin)) ||
    g.2.waits.any (fun w => is w.req.origin))

/-- Every move of the request has completed (R273). -/
def movesDone (s : State) (sl : Slot) : Bool :=
  sl.asked.all (fun e => !(pageReading s e) && (match getPage s e.1 e.2 with
    | some pg => pg.st == .cistern || pg.st == .basin
    | none => true))

/-- STAGING_ANSWER: the moves have completed, and the Sluice answers Staged (R51, R273). -/
def execStagingAnswer (slot : Nat) (s : State) : Host.Outcome State Fault Refusal :=
  match getSlot s slot with
  | none => .next s
  | some sl =>
    if sl.staging = .moving ∧ movesDone s sl = true then
      .next (bump (setSlot s slot (some { sl with staging := .staged, dispatchable := some (now s) })) Key.staged 1)
    else .next s

/-- DEFERRED_RETRY: capacity has been freed (R276). -/
def execDeferredRetry (s : State) : Host.Outcome State Fault Refusal :=
  if inService s && !(inCisReset s) then .next (evalWaits (retryDeferred s)) else .next s

/-- SLUICE_STARVED: a request has stayed deferred beyond STARVE_LIMIT (R276). -/
def execSluiceStarved (slot : Nat) (s : State) : Host.Outcome State Fault Refusal :=
  match s.sluice.deferred.find? (fun d => d.slot == slot) with
  | none => .next s
  | some d =>
    if d.starved = false ∧ d.since + getObj s Key.starveLimit * 1000000 < now s then
      let marked := replaceFirst (fun (x : Deferred) => x.slot == slot) (fun x => { x with starved := true }) s.sluice.deferred
      let s1 := { s with sluice := { s.sluice with deferred := marked } }
      .next (raiseTask s1 slot { code := Code.sluiceStarved, sev := 1, origin := .sluice })
    else .next s

/-! ### Retirement and its opposite (R266, R267) -/

/-- Walker entries of the pages that cease to be writable are invalidated (R267). -/
def closePages (s : State) (n old new : Nat) : State :=
  let tpp := seqTpp s n
  let pps := seqPps s n
  let last := if tpp = 0 then 0 else new / tpp * pps
  let first := if tpp = 0 then 0 else old / tpp * pps
  (List.range (last - first)).foldl (fun st i => invalidatePage st n (first + i)) s

/-- One extension retires: WRITE_FROM takes the old LENGTH and LENGTH the target (R266). -/
def retireExtension (s : State) (n : Nat) (x : Nat × Nat × Nat) : State :=
  match getSeq s x.1 with
  | none => s
  | some q =>
    modSlot (closePages (setSeq s x.1 (some { q with writeFrom := x.2.1, length := x.2.2, retired := q.retired + 1 })) x.1
      q.writeFrom x.2.1) n (fun sl => { sl with retired := sl.retired ++ [(x.1, q.retired + 1)] })

/-- An extending task retires; a re-run of one that has retired before changes nothing (R266, R268).
Log entry 41 (DEDUCED). -/
def retireSequences (s : State) (n : Nat) : State :=
  match getSlot s n with
  | none => s
  | some sl => if sl.retired.isEmpty then sl.extends_.foldl (fun st x => retireExtension st n x) s else s

/-! ### Look-ahead, and the ends of moves (R272, R277, R281 to R286) -/

/-- HOST_LOOKAHEAD: the HOST pages that those tasks' entries would stage are paged in (R277). -/
def execHostLookahead (s : State) : Host.Outcome State Fault Refusal :=
  if !(inService s) || inCisReset s then .next s
  else
    let pages := ((aheadTasks s).flatMap (fun e => taskPages s e.2)).dedup
    .next (pages.foldl (fun st e => (beginPageIn true st e).getD st) s)

/-- The move under way of a page whose sequence has been freed (R286). -/
def orphanOf (s : State) (seq page : Nat) (into : Bool) : Option Orphan :=
  s.sluice.orphans.find? (fun o => o.seq == seq && o.page == page && o.into == into)

/-- Such a move is over: its pages are freed (R286).
Log entry 51 (DEDUCED). -/
def endOrphan (s : State) (o : Orphan) : State :=
  let s1 := { s with sluice := { s.sluice with orphans := s.sluice.orphans.erase o } }
  giveHostPage (giveZonePage s1 o.half o.zone) o.hostPage

/-- Where the bytes of a moving page lie. -/
def movingAddr (s : State) (seq page : Nat) (into : Bool) : Nat :=
  match orphanOf s seq page into with
  | some o => partPage s o.half o.zone
  | none => pageAddr s seq page

/-- Staging requests that needed a page whose page-in failed are refused (R283). -/
def refuseFor (s : State) (e : Nat × Nat) : State :=
  ((liveSlots s).filter (fun x => x.2.staging == .moving && x.2.asked.contains e)).foldl
    (fun st x => refuseStaging st x.1 Code.pageInFailed) s

/-- The walks that wait for a page find that its page-in has failed (R283). -/
def failWalks (s : State) (e : Nat × Nat) : State :=
  let waits (w : Walk) : Bool := w.seq == e.1 && w.page == e.2 && (match w.st with
    | .waiting _ => true
    | _ => false)
  { s with cores := s.cores.map (fun c => (c.1, { c.2 with walks := c.2.walks.map (fun w => if waits w then { w with st := .failed } else w) })) }

/-- A host move has failed (R283, R288). -/
def noteMoveFailed (s : State) (seq page : Nat) : State := raiseUnit s Code.pageInFailed 2 .sluice seq [page]

/-- A page-in ends: its bytes have been accepted at the page's home slices, or it has failed (R272, R277, R283, R286).
Log entry 51 (DEDUCED). -/
def landPage (seq page : Nat) (good : Bool) (s : State) : State :=
  let s1 := endMove s (seq, page, true)
  goOnPaging (match orphanOf s1 seq page true with
    | some o => endOrphan s1 o
    | none =>
      match getSeq s1 seq, getPage s1 seq page with
      | some q, some pg =>
        if good then
          let s2 := invalidatePage s1 seq page
          let st : PageState := if pg.ahead then .reservoir else .cistern
          if pageWritable s seq page q then
            modPage (giveHostPage s2 pg.hostPage) seq page (fun x => { x with st := st, hostPage := none, ahead := false })
          else
            let s3 := modPage s2 seq page (fun x => { x with st := st, ahead := false })
            { s3 with sluice := { s3.sluice with hostCopies := s3.sluice.hostCopies ++ [(seq, page)] } }
        else
          let s2 := modPage (giveZonePage s1 q.half pg.zone) seq page (fun x => { x with st := .host, ahead := false })
          evalWaits (refuseFor (failWalks s2 (seq, page)) (seq, page))
      | _, _ => s1)

/-- The bytes of a page-in go to the page's home slices as whole-sector stores, or the move has failed (R283). -/
def finishPageIn (seq page : Nat) (data : Option (List Byte)) (s : State) : State :=
  if !(moveServed s (seq, page, true)) || (jobOf s (.pageIn seq page)).isSome then s
  else
    match data with
    | some bs =>
      let s1 := portRead (bump s Key.hostBytesIn 65536) 65536
      startJob s1 0 portHost (moveClass s (seq, page)) (agentTag s) (.pageIn seq page) []
        (storeOps 2048 (movingAddr s seq page true) (slice bs 0 65536))
    | none => landPage seq page false (noteMoveFailed s seq page)

/-- PAGE_IN_COMPLETE: an engine has the bytes of a page-in, or the move has failed.
Log entry 99 (DESIGN CHOICE). -/
def execPageInComplete (seq page : Nat) (data : Option (List Byte)) (s : State) : Host.Outcome State Fault Refusal :=
  .next (finishPageIn seq page data s)

/-- PAGEOUT_START: a half's free sequence-zone pages have fallen below PAGEOUT_LOW (R282). -/
def execPageoutStart (half : Nat) (s : State) : Host.Outcome State Fault Refusal :=
  let h := getHalf s half
  if half ≥ 2 || !(inService s) || inCisReset s || getObj s Key.hostPoolPages == 0 ||
      (!h.pagingOut && decide (getObj s Key.pageoutLow ≤ freeSeqPages h)) then .next s
  else .next (continuePageout (setHalf s half { h with pagingOut := true }) half)

/-- The bytes of a page-out are sent: by this device's port, or over the links to the head's (R285).
Log entry 108 (DESIGN CHOICE). -/
def sendPage (s : State) (hostPage : Nat) (data : List Byte) : State :=
  let addr := getObj s Key.hostPoolBase + hostPage * 2 ^ 16
  let s1 := bump s Key.hostBytesOut 65536
  if servesCopies s then emit (portSend s1 65536) (.hostWrite addr data false) else emit s1 (.headMove addr data)

/-- A page-out ends: its page has been read whole and its bytes are sent, the page is HOST and its Reservoir page free (R272). A
page with a word that has no good value, or a move that fails, is cancelled (R455). -/
def finishPageOut (seq page : Nat) (ok : Bool) (s : State) : State :=
  match moveServed s (seq, page, false), jobOf s (.pageOut seq page) with
  | true, some j =>
    if ok && j.left != 0 then s
    else
      let good := ok && (gotFailed j.got).isNone
      let data := gotBytes j.got (movingAddr s seq page false) 65536
      let s0 := dropJob (if ok then s else noteMoveFailed s seq page) j.id
      match orphanOf s0 seq page false with
      | some o =>
        let s1 := if good then sendPage s0 (o.hostPage.getD 0) data else s0
        goOnPaging (endOrphan (endMove s1 (seq, page, false)) o)
      | none =>
        match getSeq s0 seq, getPage s0 seq page with
        | some q, some pg =>
          if good then
            let s1 := endMove (sendPage s0 (pg.hostPage.getD 0) data) (seq, page, false)
            goOnPaging (modPage (giveZonePage (invalidatePage s1 seq page) q.half pg.zone) seq page (fun x => { x with st := .host }))
          else cancelPageOut s0 (seq, page)
        | _, _ => endMove s0 (seq, page, false)
  | _, _ => s

/-- PAGEOUT_COMPLETE: a page-out ends. -/
def execPageoutComplete (seq page : Nat) (ok : Bool) (s : State) : Host.Outcome State Fault Refusal :=
  .next (finishPageOut seq page ok s)

end Sys2Proof.Machine
end

