-- ==== Sys2Proof/Machine/PortOps.lean ====
section
/-! DEFINITION. What the host port does with a request before its BAR is looked at (R335, R338, R339, R343, R349), and
the retirement of a core (R461). -/

namespace Sys2Proof.Machine

/-! ### The host port -/

/-- The port answers configuration requests in full, and BARs may decode: S10 has ended (R349). -/
def portServes (s : State) : Bool := s.port.up && s.boot.powered && !s.boot.resetLow && decide (s.boot.stage = 10) && decide (s.boot.done = 11)

/-- The function decodes memory requests to a BAR: rate supported (R335), D0 (R338), Memory Space Enable set and both
Base Address registers of the BAR assigned (R349). -/
def barOpen (s : State) (bar : Nat) : Bool :=
  portServes s && decide (getObj s Key.linkRate ≠ 4) && !s.port.d3 && bit s.port.command 1 &&
    mapGet false s.port.assigned bar && mapGet false s.port.assigned (bar + 1)

/-- A memory request that the function does not take: counted in UR_SENT (R352). With the link down there is no request.
Log entry 62 (DEDUCED). -/
def portUr (s : State) : State := if s.port.up then bump s Key.urSent 1 else s

/-- Complete a read with Unsupported Request status (R40, R341). -/
def completeUr (s : State) (tag : Nat) : State :=
  if s.port.up then emit (bump s Key.urSent 1) (.completion tag .unsupported []) else s

/-- An uncorrectable error at the port: counted and stamped, reported to the root port, and one event frame, whose code
the manual does not give: a free value (R350).
Log entry 62 (DEDUCED). -/
def portUncorrectableError (s : State) (aerBit : Nat) : State :=
  let (k, s00) := takeFree s
  let s0 := { s00 with port := { s00.port with aerFirst := s00.port.aerFirst.or (some k) } }
  let s1 := setObj (bump s0 (Key.portUncorrectable 0) 1) Key.lastErrorTime (stamp s)
  pushEvent (emit s1 (.aer aerBit))
    { seq := 0, code := Config.freeNat k % 4096, severity := 1, origin := EvOrigin.hostPort.code, slot := 0xFFFF,
      device := s.pool.device, tag := 0, stamp := stamp s, unit := 0xFFFFFFFF, detail := [], sent := false } false

/-- A poisoned posted write to any BAR: discarded, counted, and reported as Poisoned TLP Received (R343).
Log entry 101 (DEDUCED). -/
def portPoisonedRx (s : State) : State :=
  if s.port.up then
    let s1 := portUncorrectableError (bump s Key.poisonedRx 1) 12
    { s1 with port := { s1.port with aerPoisoned := true } }
  else s

/-! ### Retiring a core (R280, R461, R468) -/

/-- Drop every frame copy that a position holds (R280). -/
def dropFramesOf (s : State) (p : Nat) : State :=
  ((getPos s p).frames.filterMap (fun e => e.2)).foldl (fun st e => dropFrame st e.1 e.2) s

/-- The header region of a position: its row of its half (R427). -/
def regionOf (p : Nat) : Nat := p / 272 * 17 + p % 272 / 16

/-- A region in which no position is enabled any more is switched off (R428). -/
def darkRegion (s : State) (r : Nat) : State :=
  if (List.range 16).all (fun c => let v := coreState s (r * 16 + c); v == 0 || v == 4) then
    { s with power := { s.power with regionState := mapSet 0 s.power.regionState r 2 } }
  else s

/-- A position is retired in service: CORE_STATE 4, its logical number vacant (R425, R461, R468). -/
def leaveService (s : State) (p : Nat) : State :=
  let counts := inService s && decide (1 ≤ coreState s p ∧ coreState s p ≤ 3)
  let s0 := dropFramesOf (setCoreState s p 4) p
  let c := getPos s0 p
  -- nothing of the position is reached again (R187)
  let s1 := dropJobsFor (setPos s0 p { c with walker := [], walks := [], promote := none }) (fun w => w == .promote p)
  let s2 := { s1 with
    boot := { s1.boot with logical := mapErase s1.boot.logical p, retired := s1.boot.retired + (if counts then 1 else 0) },
    keeper := { s1.keeper with drains := s1.keeper.drains.filter (fun d => d.fn != .core p) } }
  settleLicence (if inService s2 then darkRegion s2 (regionOf p) else s2)

/-- Retire a core that holds no group, with a KIND 1 record; its frame copies are dropped. -/
def retireCore (s : State) (p source code : Nat) : State :=
  leaveService (appendDefect s 1 source p 0 code) p

/-- A path of the position has lost a bond with no spare left (R461). -/
def laneLost (c : Pos) : Bool := c.lanes.any (fun e => e.2.half || e.2.lost)

/-- A core whose path has lost a bond is retired once its groups have gone (R461). -/
def retireIfEmpty (s : State) (p : Nat) : State :=
  let c := getPos s p
  if laneLost c && (coreGroups c).isEmpty && coreState s p != 4 then
    retireCore s p 0x20 Code.laneLost
  else s

end Sys2Proof.Machine
end

