-- ==== Sys2Proof/Machine/Fountain.lean ====
section
/-! DEFINITION. The Fountain (chapter 2 of the manual): the intake, the staging window, placing groups, retirement,
faults and replay. -/

namespace Sys2Proof.Machine

/-! ### The intake (R39 to R45) -/

/-- Set a sticky bit of INTAKE_ERROR and note the dropped record (R43). -/
def noteDrop (s : State) (flag offset : Nat) : State :=
  let e := getObj s Key.intakeError
  let s1 := setObj s Key.intakeError (if bit e flag then e else e + 2 ^ flag)
  setObj (setObj (bump s1 Key.intakeDrops 1) Key.dropTime (stamp s)) Key.dropOffset offset

/-- Drop a record with a code: counted, flagged, and reported with its BAR2 offset (R40, R42, R44, R464). -/
def dropRecord (s : State) (code flag offset slot tag : Nat) : State :=
  raise (noteDrop s flag offset)
    { code := code, sev := 1, origin := .fountain, slot := slot, tag := tag, extra := leBytes 4 offset }

/-- A posted write to BAR2 (R39, R40, R42, R343).
Log entry 101 (DEDUCED). -/
def execBar2RecordWrite (offset : Nat) (data : List Byte) (ep : Bool) (s : State) : Host.Outcome State Fault Refusal :=
  if barOpen s 2 = false then .next (portUr s)
  else if ep then .next (bump (portPoisonedRx s) Key.intakeDrops 1)
  else
    let s1 := bump s Key.bytesIn data.length
    if data.length ≠ 256 ∨ offset % 256 ≠ 0 then .next (dropRecord s1 Code.intakeMalformed 2 offset 0xFFFF 0)
    else if s.fountain.intake.length ≥ 16384 then
      .next (dropRecord s1 Code.intakeFull 0 offset 0xFFFF (recTag (wordsOf 32 data)))
    else .next { s1 with fountain := { s1.fountain with
        intake := s1.fountain.intake ++ [⟨wordsOf 32 data, offset⟩] } }

/-- A read of BAR2 is completed with Unsupported Request status (R40). -/
def execBar2Read (rd : MemRd) (s : State) : Host.Outcome State Fault Refusal :=
  .next (completeUr s rd.tag)

/-- The Fountain takes records now: from the end of S10, not under a hold, at most once every 4 ns (R41, R375, R403).
Log entry 5 (DESIGN CHOICE). -/
def mayTake (s : State) : Bool :=
  inService s && !(fountainHeld s) &&
    (match s.fountain.lastTake with | none => true | some t => decide (t + 4 ≤ now s))

/-- The Fountain takes the oldest record out of the intake (R38, R44, R454). -/
def execIntakeTake (chk : Chk) (s : State) : Host.Outcome State Fault Refusal :=
  match mayTake s, s.fountain.intake with
  | true, r :: rest =>
    let s1 := { s with fountain := { s.fountain with intake := rest, lastTake := some (now s) } }
    let s2 := if chk = .transient then countCode s1 Code.checkTransient else s1
    let n := recSlot r.words
    if chk = .failed then .next (dropRecord s2 Code.intakeMalformed 2 r.offset 0xFFFF 0)
    else if n ≥ hostSlots s then .next (dropRecord s2 Code.slotRange 3 r.offset n (recTag r.words))
    else if slotState s n = 0 ∨ slotState s n = 5 ∨ slotState s n = 6 then .next (enterRecord s2 n r.words false false)
    else .next (dropRecord s2 Code.slotBusy 1 r.offset n (recTag r.words))
  | _, _ => .next s

/-! ### The staging window (R50, R51) -/

/-- The task has entered the window. -/
def entered (sl : Slot) : Bool := sl.state == 2 || (sl.state == 7 && sl.replayWait.isNone)

/-- The first ranked task among the first STAGE_AHEAD that has not entered the window. -/
def nextForWindow (s : State) : Option Nat :=
  (((ranking s).take (getObj s Key.stageAhead)).find? (fun e => !(entered e.2))).map (·.1)

/-- AGE_LIMIT_EXPIRY: a dispatchable or waiting task passes the age limit of its class (R50, R52). The effective class is
computed from the times and the limit wherever it is looked at (`effClass`), so the event itself stores nothing.
Log entry 30 (DEDUCED). -/
def execAgeLimitExpiry (_slot : Nat) (s : State) : Host.Outcome State Fault Refusal := .next s

/-! ### Placing groups (R52 to R56, R73 to R76) -/

/-- A task that has groups to place. -/
def isDispatchable (sl : Slot) : Bool :=
  sl.staging == .staged && sl.ending.isNone && decide (sl.nextGroup < recGroups sl.words) &&
    (sl.state == 2 || sl.state == 3 || sl.state == 4 || sl.state == 7)

/-- Keys 1 to 3 of R52, as "comes before" with ties. -/
def dispatchKeys (s : State) (a b : Slot) : Ordering :=
  (compare (effClass s b b.dispatchable) (effClass s a a.dispatchable)).then
    ((compare (if b.nextGroup > 0 then 1 else 0) (if a.nextGroup > 0 then 1 else 0)).then
      (compare (a.dispatchable.getD 0) (b.dispatchable.getD 0)))

/-- Dispatch order (R52). -/
def dispatchBefore (s : State) (a b : Nat × Slot) : Bool :=
  match dispatchKeys s a.2 b.2 with
  | .lt => true
  | .gt => false
  | .eq => decide (a.1 ≤ b.1)

/-- The dispatchable tasks in order. -/
def dispatchOrder (s : State) : List (Nat × Slot) :=
  ((liveSlots s).filter (fun e => isDispatchable e.2)).insertionSort (fun a b => dispatchBefore s a b = true)

/-- The core that the next group of a task goes to, with the task as it then stands: a COSCHED task goes to its reservation,
and has none before it was judged first in order (R53, R55). -/
def nextPlace (s : State) (n : Nat) (sl : Slot) : Option (Nat × Slot × Nat) :=
  if recCosched sl.words then sl.reserved.head?.map (fun p => (n, sl, p))
  else (chooseCore s n sl).map (fun p => (n, sl, p))

/-- The first task in order whose next group fits, with the core. The first of all, where it is COSCHED and not yet judged, is
judged now: it reserves a core for every group, or nothing is placed, for every other task is of equal or lower effective
class (R54, R55). -/
def firstFitting (s : State) : List (Nat × Slot) → Option (Nat × Slot × Nat)
  | [] => none
  | (n, sl) :: rest =>
    if recCosched sl.words && sl.reserved.isEmpty then
      match chooseAll s n sl false (recGroups sl.words - sl.nextGroup) [] with
      | some (p :: ps) => some (n, { sl with reserved := p :: ps }, p)
      | _ => none
    else ((n, sl) :: rest).findSome? (fun e => nextPlace s e.1 e.2)

/-- The pipeline with the fewest groups, the lowest on a tie, and its lowest free slot (R73). -/
def chooseGroupSlot (c : Pos) : Nat :=
  let used := (coreGroups c).map (·.1)
  let load (q : Nat) : Nat := (used.filter (fun g => g % 4 == q)).length
  let q := [1, 2, 3].foldl (fun best q => if load q < load best then q else best) 0
  ((((List.range 16).map (fun i => 4 * i + q)).find? (fun g => !(used.contains g))).getD q)

/-- The staging units of a position that no group holds (R72, R75). -/
def freeUnits (c : Pos) : List Nat :=
  let used := (coreGroups c).flatMap (fun e => e.2.units)
  (List.range 1024).filter (fun u => !(used.contains u))

/-- `n` of these units. Which ones, and in which order, the manual leaves open (R75): it is a free choice.
Log entry 15 (DESIGN CHOICE). -/
def pickUnits (seed : Nat) : Nat → List Nat → List Nat
  | 0, _ => []
  | n + 1, us =>
    match us with
    | [] => []
    | u :: _ =>
      let x := us.getD (Config.freeNat (seed * 1024 + n) % us.length) u
      x :: pickUnits seed n (us.erase x)

/-- The view that a group has of its units: what their last user left there (R75, R76). -/
def stgView (mem : Sparse Byte) (units : List Nat) : Sparse Byte :=
  mem.foldl (fun m e => match units.idxOf? (e.1 / 256) with
    | some i => mapSet 0#8 m (i * 256 + e.1 % 256) e.2
    | none => m) []

/-- A group's units go back with what they hold. -/
def stgLeave (mem : Sparse Byte) (units : List Nat) (stg : Sparse Byte) : Sparse Byte :=
  stg.foldl (fun m e => mapSet 0#8 m (units.getD (e.1 / 256) 1024 * 256 + e.1 % 256) e.2)
    (mem.filter (fun e => !(units.contains (e.1 / 256))))

/-- A group as it is when it is placed (R76).
Log entries 15 (DESIGN CHOICE); 98 (DESIGN CHOICE). -/
def newGroup (n index : Nat) (ws : List Word64) (units : List Nat) (stg : Sparse Byte) : Group :=
  { slot := n, index := index, regs := recRegs ws, staging := recStaging ws, units := units, stg := stg, gpr := [],
    preds := [], live := 0xFFFFFFFF#32,
    paths := [{ pc := 0, lanes := 0xFFFFFFFF#32, split := 0, rank := 0, st := .runnable }], splits := [],
    nextSplit := 1, nextRank := 1, counters := [], mem := [], hold := .none, spawns := [], pubs := [], tbTimebase := [],
    tbCycle := [], fetched := none, ended := false }

/-- Place the next group of slot `n` on core `p` (R53, R56, R76). -/
def placeGroup (s : State) (n : Nat) (sl : Slot) (p : Nat) : State :=
  let (seed, s0) := takeFree s
  let c := getPos s0 p
  let g := chooseGroupSlot c
  let units := pickUnits seed (recStaging sl.words) (freeUnits c)
  let s1 := setGroup s0 p g (some (newGroup n sl.nextGroup sl.words units (stgView c.stgMem units)))
  let first := sl.nextGroup == 0
  let sl1 := { sl with nextGroup := sl.nextGroup + 1, reserved := sl.reserved.drop 1 }
  let sl2 := if first then
      { sl1 with state := if coreState s p = 1 && !(classShut s sl.words) then 3 else sl.state, runStart := now s,
                 peersWritten := [], peerUser := false, windowUser := false } else sl1
  let s2 := bump (setSlot s1 n (some sl2)) (Key.groupsPlaced p) 1
  if first then releaseHold s2 n else s2

/-- The Fountain places the next group of the first fitting task, where the chosen core lies in this half (R53). Two choices
of the model's own: a placement counts as one decision that reached key 4 when another dispatchable task ties with the placed
one on keys 1 to 3 (R52); and a COSCHED task whose reserved core no longer takes groups faults with COSCHED_UNFIT when that
group would be placed (R55).
Log entry 106 (DESIGN CHOICE).
Log entries 3 (DESIGN CHOICE); 106 (DESIGN CHOICE). -/
def execGroupPlace (half : Nat) (s : State) : Host.Outcome State Fault Refusal :=
  if !(inService s) || inCisReset s then .next s
  else
    match dispatchOrder s with
    | [] => .next s
    | (n, sl) :: rest =>
      if unfit s sl.words && sl.reserved.isEmpty && sl.nextGroup == 0 then
        .next (evalWaits (failStaged s n { code := Code.coschedUnfit, sev := 2, origin := .fountain }))
      else
        match firstFitting s ((n, sl) :: rest) with
        | none => .next s
        | some (m, tl, p) =>
          if recCosched tl.words && coreState s p != 1 then
            .next (faultTask s m { code := Code.coschedUnfit, sev := 2, origin := .fountain })
          else if posHalf p ≠ half then .next s
          else
            -- a decision that reached key 4 is a timing-dependent choice (R52, R473)
            let tie := (dispatchOrder s).any (fun e => e.1 != m && dispatchKeys s e.2 tl == .eq)
            let s1 := if tie then bump s Key.schedTiebreaks 1 else s
            .next (placeGroup s1 m tl p)

/-! ### Exit (R77, R89, R101, R461) -/

/-- An area that begins in the staging alias. -/
def inStaging (e : Nat × Nat) : Bool := decide (aliasStaging ≤ e.1) && decide (e.1 < aliasStaging + 0x40000)

/-- An array operation, or a command of a Weir engine, reads or writes staging memory (R77). -/
def opStaging (o : ArrayOp) : Bool := (descriptorAreas o.words).any inStaging
def cmdStaging (unit : Nat) (o : WeirCmd) : Bool := (weirSources unit o.words ++ weirDest unit o.words).any inStaging

/-- A group of this slot has an operation that uses its staging memory in an array, or a fragment, which uses its registers
(R77, R126). -/
def arrayBusy (c : Pos) (g : Nat) : Bool :=
  c.arrays.any (fun e => e.2.queue.any (fun o => o.g == g && opStaging o) || e.2.frags.any (fun f => f.g == g) ||
    e.2.started.any (fun r => r.op.g == g && opStaging r.op) || e.2.windowed.any (fun f => f.g == g))

/-- A group of this slot has a command in a Weir engine that uses its staging memory (R77). -/
def engineBusy (c : Pos) (g : Nat) : Bool :=
  [(0, c.lxu), (1, c.lyt)].any (fun u => u.2.queue.any (fun o => o.g == g && cmdStaging u.1 o) ||
    u.2.running.any (fun r => r.cmd.g == g && cmdStaging u.1 r.cmd))

/-- The running (not queued) work of an ended group that its staging memory or its registers wait for (R66, R77). -/
def endedBusy (c : Pos) (g : Nat) : Bool :=
  c.arrays.any (fun e => e.2.started.any (fun r => r.op.g == g && opStaging r.op) || e.2.windowed.any (fun f => f.g == g)) ||
  [(0, c.lxu), (1, c.lyt)].any (fun u => u.2.running.any (fun r => r.cmd.g == g && cmdStaging u.1 r.cmd))

/-- The running (not queued) asynchronous work of the task placed in slot `n` at a position (R158, R209). -/
def runningWork (c : Pos) (n use : Nat) : Bool :=
  c.arrays.any (fun e => e.2.started.any (fun r => r.op.slot == n && r.op.use == use) || e.2.windowed.any (fun f => f.slot == n)) ||
  [c.lxu, c.lyt].any (fun u => u.running.any (fun r => r.cmd.slot == n && r.cmd.use == use))

/-- A memory instruction that returns data. -/
def returnsData (m : MemOp) : Bool := m.kind == .load || m.kind == .atom

/-- Drop what a position's queues hold for the task in slot `n`: operations not started, fragments not begun (R158, R209). -/
def dropQueued (n use : Nat) (c : Pos) : Pos :=
  let clean (u : ArrayUnit) : ArrayUnit :=
    { u with queue := u.queue.filter (fun o => o.slot != n || o.use != use), frags := u.frags.filter (fun f => f.slot != n) }
  let q (u : Engine) : Engine := { u with queue := u.queue.filter (fun o => o.slot != n || o.use != use) }
  { c with arrays := mapEach ArrayUnit.idle clean c.arrays, lxu := q c.lxu, lyt := q c.lyt }

/-- The group in slot `g` has left: its fragments go, and what else it has in the queues goes on without it (R77). -/
def leaveQueues (c : Pos) (g : Nat) : Pos :=
  let op (o : ArrayOp) : ArrayOp := if o.g = g then { o with g := goneSlot } else o
  let cmd (o : WeirCmd) : WeirCmd := if o.g = g then { o with g := goneSlot } else o
  let run (r : RunningOp) : RunningOp := { r with op := op r.op }
  let unit (u : ArrayUnit) : ArrayUnit :=
    { u with queue := u.queue.map op, running := u.running.map run, draining := u.draining.map run, frags := u.frags.filter (fun f => f.g != g) }
  let eng (u : Engine) : Engine := { u with queue := u.queue.map cmd, running := u.running.map (fun r => { r with cmd := cmd r.cmd }) }
  { c with arrays := mapEach ArrayUnit.idle unit c.arrays, lxu := eng c.lxu, lyt := eng c.lyt }

/-- Remove a group from its core: its unaccepted stores, and what it has yet to publish, become the task's late ones (R21, R65),
its staging units go back with what they hold (R76), and the task's read-only lines go when it was the task's last group here
(R101). -/
def removeGroup (s : State) (p gs : Nat) (g : Group) : State :=
  let c := getPos s p
  let late := g.mem.filter (fun m => !(returnsData m))
  let c1 := { leaveQueues c gs with
    groups := mapSet none c.groups gs none, stgMem := stgLeave c.stgMem g.units g.stg,
    late := c.late ++ late.map (fun m => (g.slot, m)), latePubs := c.latePubs ++ g.pubs.map (fun u => (g.slot, u)), walks := c.walks.filter (fun w => match w.who with
      | .group h _ => h != gs
      | .engine _ => true) }
  let last := (coreGroups c1).all (fun e => e.2.slot != g.slot)
  setPos s p (if last then { c1 with ro := c1.ro.filter (fun l => l.task != g.slot) } else c1)

/-- The groups of a task that have arrived at its task-level barrier or exited (R89). -/
def barrierFull (sl : Slot) : Bool :=
  decide (sl.tbar ≠ []) && decide (sl.tbar.length + sl.exited = recGroups sl.words)

/-- A function being withdrawn holds a group of the task (R64, R68). -/
def onWithdrawn (s : State) (n : Nat) (sl : Slot) : Bool :=
  classShut s sl.words || (groupsOfTask s n).any (fun e => coreState s e.1 != 1 && !(s.keeper.testing.contains e.1))

/-- A task leaves state 4 when none of its groups is on a withdrawn function (R64).
Log entry 93 (DEDUCED). -/
def settleDraining (s : State) (n : Nat) : State :=
  match getSlot s n with
  | none => s
  | some sl => if sl.state = 4 ∧ onWithdrawn s n sl = false ∧ sl.ending = none then
      setSlot s n (some { sl with state := 3 }) else s

/-- A group returns its resources: every thread has exited or been ended, its loads have returned, and its asynchronous
operations that read or write its staging memory, and its fragments, have completed (R77, R126). -/
def execGroupExit (p g : Nat) (s : State) : Host.Outcome State Fault Refusal :=
  match getGroup s p g with
  | none => .next s
  | some gr =>
    let c := getPos s p
    let done := gr.live == 0#32 || gr.ended
    let busy := gr.mem.any returnsData || (if gr.ended then endedBusy c g else arrayBusy c g || engineBusy c g)
    if !done || busy then .next s
    else
      let s1 := removeGroup s p g gr
      let s2 := modSlot s1 gr.slot (fun sl => { sl with exited := sl.exited + 1, tbar := sl.tbar.filter (· != gr.index) })
      .next (retireIfEmpty (settleDraining s2 gr.slot) p)

/-! ### Retirement (R57, R60) -/

/-- A command of the task that stores into a sequence is not over at a position. -/
def ingesting (c : Pos) (n use : Nat) : Bool :=
  let mine (o : WeirCmd) : Bool := o.slot == n && o.use == use && yDstSeq o.words
  c.lyt.queue.any mine || c.lyt.running.any (fun r => mine r.cmd)

/-- Every store, atomic and reduction of the task has been accepted, an INGEST's to the Cistern among them, and every value
published (R21, R65).
Log entry 14 (DEDUCED). -/
def storesAccepted (s : State) (n : Nat) : Bool :=
  s.cores.all (fun c => c.2.late.all (fun e => e.1 != n) && c.2.latePubs.all (fun e => e.1 != n) &&
    !(ingesting c.2 n (mapGet 0 s.fountain.uses n))) &&
  (s.pool.reqs ++ s.pool.waiting).all (fun r => r.slot != some n ||
    (match r.user with | .signal _ => true | _ => false))

/-- A signal of the task still awaits a peer's answer. -/
def signalsOut (s : State) (n : Nat) : Bool :=
  (s.pool.reqs ++ s.pool.waiting).any (fun r => r.slot == some n && (match r.user with | .signal _ => true | _ => false))

/-- A signal can be delivered to its device: this one, or a member of a pool that is not broken (R60, R328). -/
def signalReaches (s : State) (e : Nat) : Bool :=
  sigDevice e == s.pool.device || (isMember s (sigDevice e) && s.pool.st == .formed)

/-- Carry out the signal entries, SIGNAL0 first (R57).
Log entry 29 (DEDUCED). -/
def doSignals (s : State) (n : Nat) (ws : List Word64) : State :=
  (validSignals ws).foldl (fun st e =>
    if sigDevice e = st.pool.device then signalLocal st (sigCounter e) (sigSet e) (sigValue e)
    else if signalReaches st e then sendSignal st n e false (recClass ws)
    else st) s

/-- A task may retire: its last group has exited, or it is a control task whose waits are satisfied (R37, R57).
Log entry 29 (DEDUCED). -/
def mayRetire (s : State) (n : Nat) (sl : Slot) : Bool :=
  sl.ending.isNone &&
  ((recTaskKind sl.words == 1 && sl.state == 1 && sl.satisfied.isSome) ||
   ((sl.state == 3 || sl.state == 4) && recTaskKind sl.words == 0 && sl.exited == recGroups sl.words &&
     (groupsOfTask s n).isEmpty && storesAccepted s n))

/-- Consumers that waited in state 7 on this producer wait for it no more, and stage again once they wait for none (R70,
R457). -/
def wakeConsumers (s : State) (n : Nat) : State :=
  (liveSlots s).foldl (fun st e => match e.2.replayWait with
    | some (.onProducers ps) =>
      let left := ps.filter (· != (n, mapGet 0 st.fountain.uses n))
      if left = ps then st
      else modSlot st e.1 (fun sl => if left.isEmpty then { sl with replayWait := some .window, satisfied := some (now st) }
        else { sl with replayWait := some (.onProducers left) })
    | _ => st) s

/-- The steps after the signals: buffers freed, then state 5, or state 6 with PEER_LOST where a signal could not be
delivered (R57, R60). -/
def finishTask (s : State) (n : Nat) (sl : Slot) : State :=
  let lost := !sl.silent && (validSignals sl.words).any (fun e => !(signalReaches s e))
  let names := seqNames sl
  let s0 := carryFrees (freeScoped s n) n
  if lost then
    dropUsers (writeFaulted (raiseTask s0 n { code := Code.peerLost, sev := 2, origin := .fountain }) n Code.peerLost) names
  else
    let s2 := bump (retireSequences s0 n) Key.tasksDone 1
    let s3 := if sl.spawned then setSlot s2 n none
      else modSlot s2 n (fun t => { t with state := 5, code := 0, satisfied := none, dispatchable := none,
                                           staging := .none, reserved := [], signalled := false })
    wakeConsumers (dropUsers s3 names) n

/-- A task retires (R57). The signals to peers are sent first; the task is done once they have been answered.
Log entry 29 (DEDUCED). -/
def execTaskRetire (slot : Nat) (s : State) : Host.Outcome State Fault Refusal :=
  match getSlot s slot with
  | none => .next s
  | some sl =>
    if !(mayRetire s slot sl) then .next s
    else
      let s1 := if sl.signalled || sl.silent then s
        else modSlot (doSignals s slot sl.words) slot (fun t => { t with signalled := true })
      if signalsOut s1 slot then .next s1
      else
        match getSlot s1 slot with
        | none => .next s1
        | some sl1 => .next (evalWaits (finishTask s1 slot sl1))

/-! ### Faults, timeouts and withdrawals (R66 to R68, R380) -/

/-- Nothing of the task can change memory any more: its stores have been accepted and none of its array operations or
Weir commands runs (R66). -/
def quiet (s : State) (n : Nat) : Bool :=
  s.cores.all (fun c => c.2.late.all (fun e => e.1 != n) && !(runningWork c.2 n (mapGet 0 s.fountain.uses n)) &&
    (coreGroups c.2).all (fun e => e.2.slot != n || e.2.mem.all returnsData)) &&
  (s.pool.reqs ++ s.pool.waiting).all (fun r => r.slot != some n ||
    (match r.user with | .signal _ => true | _ => false))

/-- What a position's groups have yet to publish for the task in slot `n` is dropped. -/
def dropPubs (n : Nat) (c : Pos) : Pos :=
  { c with groups := c.groups.map (fun e => (e.1, e.2.map (fun g => if g.slot = n then { g with pubs := [] } else g))),
           latePubs := c.latePubs.filter (fun e => e.1 != n) }

/-- Remove every group of a task, discarding its loads, its queued operations and what it has yet to publish (R66). -/
def removeGroups (s : State) (n : Nat) : State :=
  let s1 := { s with cores := mapEach Pos.idle (fun c => dropPubs n (dropQueued n (mapGet 0 s.fountain.uses n) c)) s.cores }
  (groupsOfTask s1 n).foldl (fun st e => match getGroup st e.1 e.2 with
    | none => st
    | some g => retireIfEmpty (removeGroup st e.1 e.2 g) e.1) s1

/-- A task whose end was due to a replay enters state 7 (R70, R71): it will run from its first group again, once the
producers that it waits for are in state 5 again. A producer that cannot get there fails it (R458). The manual does not say
whether PROGRESS begins again at 0: it keeps its count.
Log entry 106 (DESIGN CHOICE). -/
def enterReplay (s : State) (n code : Nat) (producers : List (Nat × Nat)) : State :=
  let s1 := endStaging (freeScoped s n) n
  let again (w : ReplayWait) : State := modSlot (bump s1 Key.tasksReplayed 1) n (fun sl =>
    { sl with state := 7, code := code, replayed := true, replays := sl.replays + 1, satisfied := some (now s),
              dispatchable := none, staging := .none, nextGroup := 0, exited := 0, reserved := [],
              ending := none, tbar := [], peersWritten := [], peerUser := false, windowUser := false,
              signalled := false, replayWait := some w })
  let left := producers.filter (fun p => slotState s p.1 != 5)
  if producers.any (producerGone s) then failStaged s1 n { code := Code.checkFailed, sev := 2, origin := .fountain }
  else if left.isEmpty then again .window
  else again (.onProducers left)

/-! ### Held transactions of an ended task (R478) -/

/-- The memory instructions of a task at a position, by number. -/
def taskMems (c : Pos) (n : Nat) : List Nat :=
  (coreGroups c).flatMap (fun e => if e.2.slot = n then e.2.mem.map (·.id) else []) ++
    c.late.filterMap (fun e => if e.1 = n then some e.2.id else none)

/-- The request comes from a memory instruction or a Weir command of the task in slot `n`. -/
def reqOfTask (s : State) (n : Nat) : Origin → Bool
  | .core p _ id => (taskMems (getPos s p) n).contains id
  | .sluice _ _ => false
  | .job _ _ id =>
    match (s.cistern.jobs.find? (fun j => j.id == id)).map (·.who) with
    | some (JobFor.weir p u) => ((if u = 0 then (getPos s p).lxu else (getPos s p).lyt).running).any (fun r =>
        r.cmd.slot == n && r.cmd.use == mapGet 0 s.fountain.uses n)
    | _ => false

/-- Nobody waits for the request any more. -/
def forgetReq (s : State) (r : Req) : State := match r.origin with
  | .core p _ id => modMem s p id (fun m => { m with need := m.need.filter (· != r.sector) })
  | .sluice _ _ => s
  | .job _ _ id => modJob s id (fun j => { j with left := j.left - 1 })

/-- Discard the task's requests that a slice's limit holds. -/
def discardIntake (n : Nat) (s : State) (g : Nat) : State :=
  let sl := getSlice s g
  let gone (x : InReq) : Bool := x.held && reqOfTask s n x.req.origin
  (sl.inbox.filter gone).foldl (fun st x => forgetReq st x.req) (setSlice s g { sl with inbox := sl.inbox.filter (fun x => !(gone x)) })

/-- Discard the task's requests that the Sill's limit holds in a direction. -/
def discardSill (n : Nat) (s : State) (dir : Nat) : State :=
  let xs := mapGet [] s.cistern.sill dir
  let heldReq (x : SillXfer) : Option Req := match x.item with
    | .request r _ => if !x.sent && reqOfTask s n r.origin then some r else none
    | _ => none
  (xs.filterMap heldReq).foldl forgetReq
    { s with cistern := { s.cistern with sill := mapSet [] s.cistern.sill dir (xs.filter (fun x => (heldReq x).isNone)) } }

/-- The request to a peer whose packet waits at an egress, where it is one of the task's own accesses or spawns. -/
def egressReq (s : State) (n : Nat) (p : Packet) : Option PeerReq :=
  s.pool.reqs.find? (fun r => p.src == s.pool.device && r.dev == p.dst && r.tag == p.tag && r.slot == some n && (match r.user with
    | .core _ _ _ => true
    | .spawn _ _ _ => true
    | _ => false))

/-- The request is given up: its instruction no longer waits for this packet. -/
def forgetPeer (s : State) (r : PeerReq) : State :=
  let s1 := { s with pool := { s.pool with reqs := s.pool.reqs.erase r } }
  match r.user with
  | .core p _ id => acceptNext s1 p id
  | _ => s1

/-- Discard the task's packets that a link's limit holds at its egress. -/
def discardEgress (n : Nat) (s : State) (l : Nat) : State :=
  let step (acc : List (List Packet) × State) (ps : List Packet) : List (List Packet) × State :=
    match ps.head?.bind (fun p => if egressHeld s l p acc.1 then egressReq acc.2 n p else none) with
    | some r => (acc.1, forgetPeer acc.2 r)
    | none => (acc.1 ++ [ps], acc.2)
  let out := (getLink s l).egress.foldl step ([], s)
  setLink out.2 l { getLink out.2 l with egress := out.1 }

/-- Transactions of an ended task that a class's limit still holds are discarded (R478). -/
def discardHeld (s : State) (n : Nat) : State :=
  let s1 := (mapKeys s.cistern.slices).foldl (discardIntake n) s
  (mapKeys s.links).foldl (discardEgress n) ([0, 1].foldl (discardSill n) s1)

/-- A faulted task settles: what a limit holds of it is discarded (R478), its counters are poisoned, its buffers freed and its
final state written (R66, R70, R511).
Log entry 27 (DESIGN CHOICE). -/
def execTaskFaultSettle (slot : Nat) (s : State) : Host.Outcome State Fault Refusal :=
  match getSlot s slot with
  | none => .next s
  | some sl =>
    match sl.ending with
    | none => .next s
    | some e =>
      let s0 := discardHeld s slot
      if !(quiet s0 slot) then .next s0
      else
        let s1 := removeGroups s0 slot
        match e.replay with
        | some producers => .next (enterReplay s1 slot e.code producers)
        | none =>
          let s2 := endStaging (freeScoped (poisonSignals s1 slot sl) slot) slot
          let s3 := dropUsers (writeFaulted s2 slot e.code) (seqNames sl)
          .next (evalWaits (failConsumers (liveSlots s3).length s3))

/-- A task's TIMEOUT expires (R67). -/
def execTaskTimeout (slot : Nat) (s : State) : Host.Outcome State Fault Refusal :=
  match getSlot s slot with
  | none => .next s
  | some sl =>
    let t := recTimeout sl.words
    if (sl.state = 3 ∨ sl.state = 4) ∧ sl.ending = none ∧ t ≠ 0 ∧ sl.runStart + t * 1000 ≤ now s then
      .next (faultTask s slot { code := Code.taskTimeout, sev := 2, origin := .fountain })
    else .next s

/-- End a task with a code, whatever its state: at once where it has no groups, else under R66. -/
def endTask (s : State) (n : Nat) (r : ErrRec) : State :=
  match getSlot s n with
  | none => s
  | some sl =>
    if sl.state = 1 ∨ sl.state = 2 ∨ (sl.state = 7 ∧ sl.ending = none) then
      failStaged s n r
    else if sl.state = 3 ∨ sl.state = 4 then faultTask s n r
    else s

/-- The drain deadline of a withdrawal (R380): what remains ends with FUNCTION_WITHDRAWN.
Log entry 93 (DEDUCED). -/
def execDrainDeadline (fn : DrainFn) (s : State) : Host.Outcome State Fault Refusal :=
  match s.keeper.drains.find? (fun d => d.fn == fn && decide (d.deadline ≤ now s)) with
  | none => .next s
  | some _ =>
    let s1 := { s with keeper := { s.keeper with drains := s.keeper.drains.filter (fun d => d.fn != fn) } }
    let r : ErrRec := { code := Code.functionWithdrawn, sev := 2, origin := .fountain }
    match fn with
    | .core p =>
      let ns := ((coreGroups (getPos s p)).map (fun e => e.2.slot)).dedup
      let s2 := ns.foldl (fun st n => faultTask st n r) s1
      .next (settleLicence (if coreState s p = 2 then setCoreState s2 p 3 else s2))
    | .cls c =>
      let ns := (liveSlots s).filter (fun e => recClass e.2.words == c && (e.2.state == 3 || e.2.state == 4))
      .next (setClassState (ns.foldl (fun st e => faultTask st e.1 r) s1) c 2)

end Sys2Proof.Machine
end

