-- ==== Sys2Proof/Machine/Operands.lean ====
section
/-! DEFINITION. How a group issues an instruction (R78, R104 to R107), every operand form of the formats A, I, M, B, K, Q
and S (R108 to R114), registers and predicates (R106), and paths, splits and their merging (R81 to R90). -/

namespace Sys2Proof.Machine

/-! ### Registers and predicates (R106) -/

/-- A general register of one lane; 255 reads 0.
Log entries 98 (DESIGN CHOICE); 116 (DESIGN CHOICE). -/
def getReg (gr : Group) (r l : Nat) : Nat := if r = 255 then 0 else (mapGet 0#32 gr.gpr (r * 32 + l)).toNat

/-- Write a general register of one lane; a write to 255 is discarded. -/
def setReg (gr : Group) (r l v : Nat) : Group :=
  if r = 255 then gr else { gr with gpr := mapSet 0#32 gr.gpr (r * 32 + l) (BitVec.ofNat 32 v) }

/-- A predicate register of one lane; 7 reads true.
Log entry 98 (DESIGN CHOICE). -/
def getPred (gr : Group) (k l : Nat) : Bool := if k = 7 then true else mapGet false gr.preds (k * 32 + l)

/-- Write a predicate register of one lane; a write to 7 is discarded (R116). -/
def setPred (gr : Group) (k l : Nat) (v : Bool) : Group :=
  if k = 7 then gr else { gr with preds := mapSet false gr.preds (k * 32 + l) v }

/-- The lanes of a mask, ascending. -/
def lanesOf (m : LaneMask) : List Nat := (List.range 32).filter (fun l => m.getLsbD l)

/-- The mask of the lanes that satisfy `p`. -/
def maskWhere (p : Nat → Bool) : LaneMask := BitVec.ofNat 32 (maskOf ((List.range 32).filter p))

/-- The lowest lane of a mask, 0 where it is empty. -/
def lowestLane (m : LaneMask) : Nat := (lanesOf m).headD 0

/-! ### Fields (R105, R108 to R114) -/

def fPneg (w : InstrBits) : Bool := w.getLsbD 55
def fPred (w : InstrBits) : Nat := fld w 54 52
def fMod (w : InstrBits) : Nat := fld w 51 48
def fDst (w : InstrBits) : Nat := fld w 47 40
def fSrcA (w : InstrBits) : Nat := fld w 39 32
def fSrcB (w : InstrBits) : Nat := fld w 31 24
def fSrcC (w : InstrBits) : Nat := fld w 23 16
def fImm (w : InstrBits) : Nat := fld w 31 0
def fSize (w : InstrBits) : Nat := fld w 23 21
def fOffset (w : InstrBits) : Int := signed 21 (fld w 20 0)
def fTarget (w : InstrBits) : Int := signed 24 (fld w 47 24)
def fReconv (w : InstrBits) : Int := signed 24 (fld w 23 0)
def fImm8 (w : InstrBits) : Nat := fld w 31 24
def fUnit (w : InstrBits) : Nat := fld w 15 12
def fCounter (w : InstrBits) : Nat := fld w 11 8
def fSreg (w : InstrBits) : Nat := fld w 31 16

/-- What an instruction word's fields ask: whether the word is valid (R107), and the general registers that it reads and
writes, as runs of (first register, count). -/
structure Form where
  valid : Bool
  reads : List (Nat × Nat)
  writes : List (Nat × Nat)
  deriving DecidableEq, Repr

/-- One register where a form uses it. -/
def oneReg (used : Bool) (r : Nat) : List (Nat × Nat) := if used then [(r, 1)] else []

/-- Format A: which of DST, SRCA, SRCB and SRCC name general registers; a field that does not is given by `ok`. -/
def formA (w : InstrBits) (ok d a b c : Bool) : Form :=
  { valid := ok && (d || fDst w == 0) && (a || fSrcA w == 0) && (b || fSrcB w == 0) && (c || fSrcC w == 0) && fld w 15 0 == 0,
    reads := oneReg a (fSrcA w) ++ oneReg b (fSrcB w) ++ oneReg c (fSrcC w), writes := oneReg d (fDst w) }

/-- Format A with a destination predicate in DST[42:40] (R116). -/
def formAPred (w : InstrBits) (ok : Bool) : Form :=
  { valid := ok && fld w 47 43 == 0 && fSrcC w == 0 && fld w 15 0 == 0, reads := [(fSrcA w, 1), (fSrcB w, 1)], writes := [] }

/-- Format I with a destination register (R109). -/
def formI (w : InstrBits) (ok : Bool) : Form := { valid := ok, reads := [(fSrcA w, 1)], writes := [(fDst w, 1)] }

/-- Format I with a destination predicate. -/
def formIPred (w : InstrBits) (ok : Bool) : Form := { valid := ok && fld w 47 43 == 0, reads := [(fSrcA w, 1)], writes := [] }

/-- A run of registers lies below REGS; 255 names the zero register where a field names one register (R106). -/
def runOk (gr : Group) (r : Nat × Nat) : Bool := (r.2 == 1 && r.1 == 255) || decide (r.1 + r.2 ≤ gr.regs)

/-- Two runs of registers meet. -/
def runsMeet (a b : Nat × Nat) : Bool := decide (a.1 < b.1 + b.2) && decide (b.1 < a.1 + a.2)

/-- The registers that a memory instruction will write. -/
def memDst (m : MemOp) : Option (Nat × Nat) :=
  if m.kind == .load || m.kind == .atom then some (m.dst, max 1 (m.size / 4)) else none

/-- Registers with a write pending: loads and atomics, and the results of SPAWNs that wait for their answers (R78, R79). -/
def pendingRuns (gr : Group) : List (Nat × Nat) :=
  gr.mem.filterMap memDst ++ gr.spawns.map (fun x => (x.dst, 1))

/-- A source register has a pending write. -/
def readsPending (gr : Group) (f : Form) : Bool :=
  f.reads.any (fun r => r.1 != 255 && (pendingRuns gr).any (runsMeet r))

/-! ### Paths and splits (R81 to R84, R86) -/

/-- The runnable path pushed most recently (R82). -/
def currentPath (gr : Group) : Option Path :=
  (gr.paths.filter (fun q => q.st == .runnable)).foldl (fun acc q => match acc with
    | none => some q
    | some b => if b.rank < q.rank then some q else some b) none

/-- The group with one path replaced by others. -/
def swapPath (gr : Group) (q : Path) (qs : List Path) : Group := { gr with paths := gr.paths.filter (· != q) ++ qs }

/-- The reconvergence point of a path's split. -/
def reconvOf (gr : Group) (q : Path) : Option Nat := (gr.splits.find? (fun x => x.id == q.split)).map (·.reconv)

/-- A runnable path at its reconvergence point waits there (R82). -/
def joinPaths (gr : Group) : Group :=
  { gr with paths := (gr.paths.filter (fun q => q.lanes != 0#32)).map (fun q =>
      if q.st == .runnable && reconvOf gr q == some q.pc then { q with st := .joined } else q) }

/-- The split has no unfinished path: all are at the reconvergence point, and no split lies within it. -/
def splitDone (gr : Group) (x : Split) : Bool :=
  (gr.paths.filter (fun q => q.split == x.id)).all (fun q => q.st == .joined) && gr.splits.all (fun y => y.outer != x.id)

/-- Release a split: its paths merge into one with the union of their lanes (R82). -/
def mergeSplit (gr : Group) (x : Split) : Group :=
  let lanes := (gr.paths.filter (fun q => q.split == x.id)).foldl (fun m q => m ||| q.lanes) 0#32
  { gr with
    splits := gr.splits.filter (fun y => y.id != x.id),
    paths := gr.paths.filter (fun q => q.split != x.id) ++
      (if lanes = 0#32 then [] else [{ pc := x.reconv, lanes := lanes, split := x.outer, rank := x.rank, st := .runnable }]) }

/-- Join and merge until nothing more merges. -/
def settlePaths : Nat → Group → Group
  | 0, gr => joinPaths gr
  | n + 1, gr =>
    let g1 := joinPaths gr
    match g1.splits.find? (splitDone g1) with
    | none => g1
    | some x => settlePaths n (mergeSplit g1 x)

/-- Join and merge the paths of a group. -/
def settleGroup (gr : Group) : Group := settlePaths gr.splits.length gr

/-- Stack entries in use (R83). -/
def stackUsed (gr : Group) : Nat := (gr.splits.map (·.entries)).sum

/-- Put a target's lanes in the list of targets, ordered by lowest lane as lanes come in ascending order. -/
def addTarget (pc l : Nat) : List (Nat × List Nat) → List (Nat × List Nat)
  | [] => [(pc, [l])]
  | (q, ls) :: ts => if q = pc then (q, ls ++ [l]) :: ts else (q, ls) :: addTarget pc l ts

/-- The distinct targets of a path's lanes, the one with the lowest lane first (R81). -/
def targetsOf (lanes : LaneMask) (target : Nat → Nat) : List (Nat × List Nat) :=
  (lanesOf lanes).foldl (fun ts l => addTarget (target l) l ts) []

/-- Split a path into its targets: none when the stack has too few entries (R81, R83). The target with the lowest lane is
pushed last, so that it runs first. -/
def splitPath (gr : Group) (q : Path) (ts : List (Nat × List Nat)) (reconv : Nat) : Option Group :=
  if stackUsed gr + (ts.length - 1) > 32 then none
  else
    let kids := ts.reverse.zipIdx.map (fun e =>
      { pc := e.1.1, lanes := BitVec.ofNat 32 (maskOf e.1.2), split := gr.nextSplit, rank := gr.nextRank + e.2, st := .runnable })
    let g1 := swapPath gr q kids
    some { g1 with
      splits := g1.splits ++ [{ id := gr.nextSplit, reconv := reconv, outer := q.split, rank := q.rank, entries := ts.length - 1 }],
      nextSplit := gr.nextSplit + 1, nextRank := gr.nextRank + ts.length }

/-! ### Barriers and orphans (R85 to R90) -/

/-- The lanes parked at a place. -/
def parkedAt (gr : Group) (st : PathState) : LaneMask :=
  (gr.paths.filter (fun q => q.st == st)).foldl (fun m q => m ||| q.lanes) 0#32

/-- Every live thread has arrived (R85, R89). -/
def allAt (gr : Group) (st : PathState) : Bool := gr.live != 0#32 && parkedAt gr st == gr.live

/-- No path is runnable, and no barrier meets its release condition (R86, R90).
Log entry 26 (DEDUCED). -/
def orphaned (gr : Group) : Bool :=
  gr.live != 0#32 && gr.paths.all (fun q => q.st != .runnable) && !(allAt gr .taskBarrier) &&
    (List.range 16).all (fun b => !(allAt gr (.barrier b)))

/-- The word that says what a blocked path waits for (R87). -/
def waitWord (gr : Group) (q : Path) : Nat :=
  match q.st with
  | .barrier b => b * 256 + 1
  | .taskBarrier => 2
  | _ => (reconvOf gr q).getD 0

/-- EXTRA of BARRIER_ORPHAN: of more than four blocked paths the first four of the model's list of paths, which follows the order
in which they came to be (R87, R464).
Log entry 26 (DEDUCED). -/
def orphanExtra (gr : Group) : List Byte :=
  (gr.paths.take 4).flatMap (fun q => leBytes 4 q.pc ++ leBytes 4 q.lanes.toNat ++ leBytes 4 (waitWord gr q))

/-- Put a group back after its paths have changed: paths join and merge, a whole group arrives at the task-level barrier,
and a group with no runnable path faults its task. -/
def putGroup (s : State) (p g : Nat) (gr0 : Group) : State :=
  let gr := settleGroup gr0
  let s1 := setGroup s p g (some gr)
  if allAt gr .taskBarrier then
    modSlot s1 gr.slot (fun sl => if sl.tbar.contains gr.index then sl else { sl with tbar := sl.tbar ++ [gr.index] })
  else if orphaned gr && !gr.ended then
    faultTask s1 gr.slot { code := Code.barrierOrphan, sev := 2, origin := .core, unit := p, group := gr.index, extra := orphanExtra gr }
  else s1

/-! ### Issue (R78, R104, R105, R107) -/

/-- A group about to execute its next instruction: where it is, its task's slot, the current path, the lanes active in it
and those of them whose predicate is true. -/
structure Ctx where
  p : Nat
  g : Nat
  gr : Group
  path : Path
  sl : Slot
  w : InstrBits
  ex : LaneMask
  /-- The device's number (R22). -/
  dev : Nat
  deriving DecidableEq, Repr

/-- The opcodes that the opcode table lists (R109, R115).
Log entry 92 (DESIGN CHOICE). -/
def opcodes : List Nat :=
  List.range 0x0F ++ [0x10, 0x11, 0x12, 0x13, 0x14, 0x15, 0x16] ++ [0x20, 0x21, 0x22, 0x23, 0x24, 0x25, 0x26] ++
  [0x28, 0x29, 0x2A, 0x2B] ++ [0x30, 0x31, 0x32, 0x33] ++ [0x38, 0x39, 0x3A, 0x3B, 0x3C, 0x3D, 0x3E] ++
  [0x41, 0x42, 0x43, 0x46, 0x47, 0x48, 0x49, 0x4A, 0x4B, 0x4C, 0x50, 0x55] ++ [0x60, 0x61, 0x63, 0x64, 0x65] ++
  [0x80, 0x81, 0x82, 0x83, 0x84, 0x88]

/-- The word at a program offset, where the fetch buffer holds its line (R104, R510).
Log entry 92 (DESIGN CHOICE). -/
def fetchedWord (entry pc : Nat) (gr : Group) : Option Nat :=
  match gr.fetched with
  | none => none
  | some (line, ws) =>
    let a := addrLocal entry + pc
    if a / 128 = line then (ws[a % 128 / 8]?).map (·.toNat) else none

/-- A store, atomic or reduction has been accepted at every destination (R98): an atomic stays outstanding until its data
returns. -/
def memAccepted (m : MemOp) : Bool := m.kind == .load || (m.kind == .atom && m.walk.isNone && m.need.all m.accepted.contains)

/-- What an instruction writes on this device has been accepted (R88, R121). -/
def homeAccepted (m : MemOp) : Bool := m.walk.isNone && m.need.all (fun k => decide (2 ^ 60 ≤ k) || m.accepted.contains k)

/-- The memory instructions of a group that are not accepted yet. -/
def unaccepted (gr : Group) : List MemOp := gr.mem.filter (fun m => !(memAccepted m))

/-- The wait that holds the current path has ended (R121, R124). -/
def holdOver (gr : Group) : Bool :=
  match gr.hold with
  | .none => true
  | .counter c t => decide (mapGet 0 gr.counters c ≤ t)
  | .fence far ids => ids.all (fun i => (unaccepted gr).all (fun m => m.id != i || (!far && homeAccepted m)))

/-- The fault that an instruction raises (R66, R464). -/
def faultAt (s : State) (c : Ctx) (code addr : Nat) : State :=
  faultTask s c.gr.slot { code := code, sev := 2, origin := .core, unit := c.p, group := c.gr.index, pc := c.path.pc, addr := addr }

/-- The group can issue: it is resident, not ended, its wait is over, it has a runnable path, and no request of it to a peer waits
for a limit (R78, R86, R307).
Log entry 92 (DESIGN CHOICE). -/
def readyGroup (s : State) (p g : Nat) (w : InstrBits) : Option Ctx :=
  match inService s, getGroup s p g with
  | true, some gr =>
    match currentPath gr, getSlot s gr.slot with
    | some q, some sl =>
      if gr.ended || !(holdOver gr) || limitWaits s p g then none
      else some { p := p, g := g, gr := { gr with hold := .none }, path := q, sl := sl, w := w,
                  ex := q.lanes &&& maskWhere (fun l => getPred gr (fPred w) l != fPneg w), dev := s.pool.device }
    | _, _ => none
  | _, _ => none

/-- A group issues the instruction of opcode `op` whose other bits are `w`, where that is the group's next instruction.
Nothing happens where the group is not ready or another instruction is next. A word that R107 names faults with
INSTRUCTION_INVALID, then a register at or above REGS with REGISTER_RANGE (R74).
Log entries 3 (DESIGN CHOICE); 16 (DEDUCED); 92 (DESIGN CHOICE). -/
def issue (p g op : Nat) (w : InstrBits) (f : Form) (run : Ctx → State → State) (s : State) : State :=
  match readyGroup s p g w with
  | none => s
  | some c =>
    match fetchedWord (recEntry c.sl.words) c.path.pc c.gr with
    | none => s
    | some x =>
      if !(opcodes.contains (x / 2 ^ 56)) then faultAt s c Code.instructionInvalid 0
      else if x ≠ op * 2 ^ 56 + w.toNat then s
      else if !f.valid then faultAt s c Code.instructionInvalid 0
      else if !((f.reads ++ f.writes).all (runOk c.gr)) then faultAt s c Code.registerRange 0
      else if readsPending c.gr f then s
      else run c s

/-- The program offset of the instruction `k` instructions away (R104, R122). -/
def pcPlus (pc : Nat) (k : Int) : Nat := unsigned 32 ((pc : Int) + 8 * k)

/-- The group with its current path at the next instruction. -/
def nextPc (c : Ctx) (gr : Group) : Group := swapPath gr c.path [{ c.path with pc := pcPlus c.path.pc 1 }]

/-- Put the group back at its next instruction. -/
def finishAt (c : Ctx) (gr : Group) (s : State) : State := putGroup s c.p c.g (nextPc c gr)

/-! ### Lane operations -/

/-- The source values of a lane. -/
def laneA (c : Ctx) (l : Nat) : Nat := getReg c.gr (fSrcA c.w) l
def laneB (c : Ctx) (l : Nat) : Nat := getReg c.gr (fSrcB c.w) l
def laneC (c : Ctx) (l : Nat) : Nat := getReg c.gr (fSrcC c.w) l
/-- IMM32 in place of SRCB (R109). -/
def laneImm (c : Ctx) (_ : Nat) : Nat := fImm c.w

/-- The lowest-numbered active lane, which gives the operands of a single issuer, whatever its predicate (R93).
Log entry 19 (DEDUCED). -/
def issuer (c : Ctx) : Nat := lowestLane c.path.lanes

/-- FLUSH of the task (R31). -/
def ctxFlush (c : Ctx) : Bool := recFlush c.sl.words

/-- Write a register in each executing lane from the values before the instruction. -/
def writeLanes (c : Ctx) (r : Nat) (f : Nat → Nat) : Group := (lanesOf c.ex).foldl (fun gr l => setReg gr r l (f l)) c.gr

/-- Write a predicate in each executing lane. -/
def writePreds (c : Ctx) (k : Nat) (f : Nat → Bool) : Group := (lanesOf c.ex).foldl (fun gr l => setPred gr k l (f l)) c.gr

/-- An instruction that writes DST in each lane and goes on. -/
def runReg (f : Ctx → Nat → Nat) (c : Ctx) (s : State) : State := finishAt c (writeLanes c (fDst c.w) (f c)) s

/-- An instruction that writes the destination predicate in each lane and goes on. -/
def runPred (f : Ctx → Nat → Bool) (c : Ctx) (s : State) : State := finishAt c (writePreds c (fDst c.w) (f c)) s

/-- A floating-point instruction, which may set FLUSHED (R174). -/
def runFloat (f : Ctx → Nat → Flushed) (c : Ctx) (s : State) : State :=
  let s1 := noteFlush s c.gr.slot ((lanesOf c.ex).any (fun l => (f c l).2))
  finishAt c (writeLanes c (fDst c.w) (fun l => (f c l).1)) s1

/-- A floating-point comparison, which may set FLUSHED. -/
def runFloatPred (f : Ctx → Nat → Bool × Bool) (c : Ctx) (s : State) : State :=
  let s1 := noteFlush s c.gr.slot ((lanesOf c.ex).any (fun l => (f c l).2))
  finishAt c (writePreds c (fDst c.w) (fun l => (f c l).1)) s1

end Sys2Proof.Machine
end

