-- ==== Sys2Proof/Machine/Memory.lean ====
section
/-! DEFINITION. Memory instructions (R95 to R98, R119, R120), the read-only cache and instruction fetch (R99 to R103,
R510), and what travels to peers for them (R305 to R307, R319). -/

namespace Sys2Proof.Machine

/-! ### Where an address lies (R23, R25, R27, R75, R185) -/

/-- Where one lane's access goes, or the code that refuses it. -/
inductive Where where
  | staging (off : Nat)
  | basin (off : Nat)
  | slot (off : Nat)
  | home
  | peer (dev : Nat)
  | bad (code : Nat)
  deriving DecidableEq, Repr

/-- BASIN_SLUICE_FRAMES (R185). -/
def sluiceFrames (s : State) : Nat := getObj s Key.basinSluiceFrames

/-- One past the task region's last offset in a position's Basin block (R185, R186). -/
def taskRegionEnd (s : State) : Nat := 64 * 65536 - sluiceFrames s * 65536

/-- An offset in the own Basins: Sluice frames are not open by address (R185). -/
def basinPlace (s : State) (off : Nat) : Where := if off < taskRegionEnd s then .basin off else .bad Code.addressUnmapped

/-- Where the core's access to a pool address goes; `write` for stores, atomics and reductions.
Log entry 18 (DEDUCED). -/
def whereIs (s : State) (p : Nat) (gr : Group) (write : Bool) (a : Nat) : Where :=
  let l := addrLocal a
  if addrDevice a ≠ s.pool.device then
    (if isMember s (addrDevice a) = false then .bad Code.addressUnmapped
     else if s.pool.st = .broken then .bad Code.peerLost else .peer (addrDevice a))
  else if hasHome s l then (if onLostStack s l then .bad Code.reservoirLost else .home)
  else if aliasStaging ≤ l ∧ l < aliasStaging + 0x40000 then
    (if l - aliasStaging < gr.staging * 256 then .staging (l - aliasStaging) else .bad Code.stagingRange)
  else if aliasBasin ≤ l ∧ l < aliasBasin + 0x400000 then basinPlace s (l - aliasBasin)
  else
    match slotTableAt l, basinAt l with
    | some off, _ => if write then .bad Code.addressUnmapped else .slot off
    | none, some (q, off) =>
      if q = p then basinPlace s off
      else if coreState s q = 0 ∨ coreState s q = 4 then .bad Code.addressUnmapped
      else .bad Code.basinForeign
    | none, none => .bad Code.addressUnmapped

/-- The key of an access's sector among a memory instruction's `need`: the sector number at home, a number above every
one of those for a peer's sector. -/
def peerKey (a : Nat) : Nat := 2 ^ 60 + a / 32
def sectorKey (s : State) (a : Nat) : Nat := if addrDevice a = s.pool.device then addrLocal a / 32 else peerKey a

/-! ### Staging memory and the own Basins -/

/-- A byte of a group's staging memory. -/
def stgByte (stg : Sparse Byte) (off : Nat) : Byte := mapGet 0#8 stg off

/-- `n` bytes of staging memory. -/
def stgBytes (stg : Sparse Byte) (off n : Nat) : List Byte := (List.range n).map (fun i => stgByte stg (off + i))

/-- Write bytes into staging memory. -/
def stgWrite (stg : Sparse Byte) (off : Nat) (bs : List Byte) : Sparse Byte := mapSetList 0#8 stg off bs

/-- A write is noted with every operation and command of the core that runs meanwhile: for staging memory, those of the group in
slot `g` (R154, R190). -/
def logWrite (c : Pos) (g : Nat) (w : Written) : Pos :=
  let op (r : RunningOp) : RunningOp := if w.basin || r.op.g == g then { r with log := r.log ++ [w] } else r
  let cmd (r : RunningCmd) : RunningCmd := if w.basin || r.cmd.g == g then { r with log := r.log ++ [w] } else r
  { c with
    arrays := mapEach ArrayUnit.idle (fun u => { u with running := u.running.map op, draining := u.draining.map op }) c.arrays,
    lxu := { c.lxu with running := c.lxu.running.map cmd }, lyt := { c.lyt with running := c.lyt.running.map cmd } }

/-- Write bytes into a position's Basins, with the writer's tag on each 256-byte block touched (R456). -/
def basinWrite (c : Pos) (off wtag : Nat) (bs : List Byte) : Pos :=
  if bs.isEmpty then c
  else
    let first := off / 256
    let last := (off + bs.length - 1) / 256
    { logWrite c goneSlot { basin := true, off := off, data := bs } with
             basin := mapSetList 0#8 c.basin off bs,
             basinTag := (List.range (last - first + 1)).foldl (fun m i => mapMod 0 m (first + i) (fun t => mergeTag false t wtag)) c.basinTag }

/-! ### The read-only cache (R99 to R103) -/

/-- The tag of instruction lines, which no task has (R101). -/
abbrev instrTag : Nat := 65536

/-- The line of a task in the cache, by pool address. -/
def roFind (c : Pos) (line task : Nat) : Option RoLine := c.ro.find? (fun x => x.line == line && x.task == task)

/-- A sector that hits.
Log entry 25 (DEDUCED). -/
def roHit (c : Pos) (task a : Nat) : Option (List Byte) :=
  (roFind c (a / 128) task).bind (fun x => (x.sectors[a % 128 / 32]?).join)

/-- A use of a line. -/
def roTouch (c : Pos) (line task : Nat) : Pos :=
  { c with roUse := c.roUse + 1, ro := c.ro.map (fun x => if x.line = line ∧ x.task = task then { x with use := c.roUse + 1 } else x) }

/-- Room for a line in its set of eight ways: the least recently used line goes (R99).
Log entry 24 (DEDUCED). -/
def roRoom (c : Pos) (line : Nat) : List RoLine :=
  let set := c.ro.filter (fun x => x.line % 128 == line % 128)
  if set.length < 8 then c.ro
  else
    match set.foldl (fun acc x => match acc with
      | none => some x
      | some y => if x.use < y.use then some x else some y) none with
    | none => c.ro
    | some v => c.ro.filter (· != v)

/-- Fill one sector (R99).
Log entry 24 (DEDUCED). -/
def roFill (c : Pos) (task a : Nat) (data : List Byte) : Pos :=
  let line := a / 128
  let k := a % 128 / 32
  let blank : RoLine := { line := line, task := task, sectors := [none, none, none, none], use := 0 }
  let c1 := if (roFind c line task).isSome then c else { c with ro := roRoom c line ++ [blank] }
  let put (x : RoLine) : RoLine := if x.line = line ∧ x.task = task then { x with sectors := x.sectors.set k (some data) } else x
  roTouch { c1 with ro := c1.ro.map put } line task

/-- A store of this core invalidates the sectors it touches (R102). -/
def roInvalidate (c : Pos) (a : Nat) : Pos :=
  let mark (m : MemOp) : MemOp := if m.ro then { m with noFill := a / 32 :: m.noFill } else m
  { c with ro := c.ro.map (fun x => if x.line = a / 128 then { x with sectors := x.sectors.set (a % 128 / 32) none } else x),
           groups := c.groups.map (fun e => (e.1, e.2.map (fun g => { g with mem := g.mem.map mark }))) }

/-- A line whose check has failed is invalidated (R103). -/
def roDrop (c : Pos) (a task : Nat) : Pos := { c with ro := c.ro.filter (fun x => !(x.line == a / 128 && x.task == task)) }

/-! ### Outstanding memory instructions (R98) -/

/-- Find an outstanding memory instruction of a group. -/
def findMem (s : State) (p g id : Nat) : Option (Group × MemOp) :=
  (getGroup s p g).bind (fun gr => (gr.mem.find? (fun m => m.id == id)).map (fun m => (gr, m)))

/-- Take a memory instruction off its group's list. -/
def dropMem (s : State) (p g id : Nat) : State :=
  match getGroup s p g with
  | none => s
  | some gr => setGroup s p g (some { gr with mem := gr.mem.filter (fun m => m.id != id) })

/-- Fault the task of a group for a memory instruction that is refused.
Log entry 18 (DEDUCED). -/
def faultMem (s : State) (p : Nat) (gr : Group) (m : MemOp) (code addr : Nat) : State :=
  faultTask s gr.slot { code := code, sev := 2, origin := .core, unit := p, group := gr.index, pc := m.pc, addr := addr }

/-- A value to publish waits for none of these memory instructions. -/
def pubReady (ms : List MemOp) (u : Publish) : Bool := u.ids.all (fun i => ms.all (fun m => m.id != i))

/-- PROGRESS of a task takes a sum (R65). -/
def addProgress (s : State) (n sum : Nat) : State :=
  if sum = 0 then s else modSlot s n (fun sl => { sl with progress := (sl.progress + sum) % 2 ^ 44 })

/-- Values whose stores have all been accepted are added to PROGRESS (R65). -/
def runPubs (s : State) (p g : Nat) : State :=
  match getGroup s p g with
  | none => s
  | some gr =>
    let ready := pubReady (unaccepted gr)
    let sum := ((gr.pubs.filter ready).map (·.value)).sum
    addProgress (setGroup s p g (some { gr with pubs := gr.pubs.filter (fun u => !(ready u)) })) gr.slot sum

/-- The same for the values of groups that have left their core. -/
def runLatePubs (s : State) (p : Nat) : State :=
  let c := getPos s p
  let ready (e : Nat × Publish) : Bool := pubReady (c.late.map (·.2)) e.2
  (c.latePubs.filter ready).foldl (fun st e => addProgress st e.1 e.2.value)
    (setPos s p { c with latePubs := c.latePubs.filter (fun e => !(ready e)) })

/-- The sectors that a memory instruction still waits for on the down port: a packet to a peer counts for those it carries. -/
def memSectors (m : MemOp) : Nat :=
  (m.need.map (fun k =>
    if (if m.kind == .load then m.got.any (fun v => v.sector == k) else m.accepted.contains k) then 0
    else if 2 ^ 61 ≤ k then m.sizes.getD (k - 2 ^ 61) 1 else 1)).sum

/-- Sector requests of a position that are outstanding on its down port: of its groups, of the stores of groups that have
exited, of instruction fetches and of its Weir engines (R72, R98). -/
def downOutstanding (s : State) (p : Nat) : Nat :=
  let c := getPos s p
  (((coreGroups c).flatMap (fun e => e.2.mem) ++ c.late.map (·.2)).map memSectors).sum +
    ((s.cistern.jobs.filter (fun j => j.port == p)).map (·.left)).sum

/-! ### Sectors and packets -/

/-- The distinct sectors of a list of addresses, ascending. -/
def sectorsOf (as : List Nat) : List Nat := ((as.map (· / 32)).dedup).insertionSort (· ≤ ·)

/-- Runs of consecutive sectors, at most seven, within one 64 KiB page (R307). -/
def sectorRuns : List Nat → List (Nat × Nat) → List (Nat × Nat)
  | [], acc => acc.reverse
  | k :: ks, [] => sectorRuns ks [(k, 1)]
  | k :: ks, (a, n) :: acc =>
    if a + n = k ∧ n < 7 ∧ k % 2048 ≠ 0 then sectorRuns ks ((a, n + 1) :: acc) else sectorRuns ks ((k, 1) :: (a, n) :: acc)

/-- The byte writes of a store that fall into one block of `size` bytes: its byte mask and bytes, later writes over
earlier ones. -/
def blockWrite (size block : Nat) (ws : List (Nat × List Byte)) : Nat × List Byte :=
  let cells := ws.flatMap (fun w => if w.1 / size = block then w.2.zipIdx.map (fun e => (w.1 % size + e.2, e.1)) else [])
  (maskOf (cells.map (·.1)), cells.foldl (fun bs e => bs.set e.1 e.2) (List.replicate size 0#8))

/-- Every byte of a sector. -/
abbrev wholeMask : Nat := 2 ^ 32 - 1

/-- The packets of a store to a peer: whole sectors as WRITE, the rest as one WRITE_MASKED a line (R306, R307). -/
def writePackets (s : State) (dev cls : Nat) (ws : List (Nat × List Byte)) : List Packet :=
  let secs := sectorsOf (ws.map (·.1))
  let whole := secs.filter (fun k => (blockWrite 32 k ws).1 == wholeMask)
  let part := ws.filter (fun w => !(whole.contains (w.1 / 32)))
  let lines := ((part.map (fun w => w.1 / 128)).dedup).insertionSort (· ≤ ·)
  (sectorRuns whole []).map (fun r => mkPacket s .write dev cls (r.2 - 1) (r.1 * 32)
      ((List.range r.2).flatMap (fun i => (blockWrite 32 (r.1 + i) ws).2))) ++
  lines.map (fun l =>
    let b := blockWrite 128 l part
    mkPacket s .writeMasked dev cls 3 (l * 128) (leBytes 16 b.1 ++ b.2))

/-- The lanes whose address no earlier lane of the list names, and the others (R319). -/
def firstNamed : List RedLane → List Nat → List RedLane × List RedLane
  | [], _ => ([], [])
  | x :: xs, seen =>
    let r := firstNamed xs (x.addr :: seen)
    if seen.contains x.addr then (r.1, x :: r.2) else (x :: r.1, r.2)

/-- Lanes in rounds: in each round every address is named once, in ascending lane order (R319). -/
def redRounds : Nat → List RedLane → List (List RedLane)
  | 0, _ => []
  | n + 1, ls => if ls.isEmpty then [] else (firstNamed ls []).1 :: redRounds n (firstNamed ls []).2

/-- The operation word of R306. -/
def opWord (variant size half : Nat) : List Byte := leBytes 8 (variant + 16 * size + 128 * half)

/-- The packets of an ATOM or RED to a peer, with the lanes of each: one a line and round, two for a CAS that touches both
halves of a line, and RED for the whole sectors of a round (R306, R307). -/
def redPackets (s : State) (dev cls variant size bytes : Nat) (returns cas : Bool) (lanes : List RedLane) :
    List (Packet × List RedLane) :=
  (redRounds 32 lanes).flatMap (fun round =>
    let ws := round.map (fun l => (l.addr, leBytes bytes l.opnd))
    let whole := if returns then [] else (sectorsOf (ws.map (·.1))).filter (fun k => (blockWrite 32 k ws).1 == wholeMask)
    let reds := (sectorRuns whole []).map (fun r =>
      (mkPacket s .red dev cls (r.2 - 1) (r.1 * 32)
        (opWord variant size 0 ++ (List.range r.2).flatMap (fun i => (blockWrite 32 (r.1 + i) ws).2)),
       round.filter (fun l => decide (r.1 ≤ l.addr / 32) && decide (l.addr / 32 < r.1 + r.2))))
    let rest := round.filter (fun l => !(whole.contains (l.addr / 32)))
    let lines := ((rest.map (fun l => l.addr / 128)).dedup).insertionSort (· ≤ ·)
    reds ++ lines.flatMap (fun ln =>
      let mine := rest.filter (fun l => l.addr / 128 == ln)
      if cas then
        [0, 1].filterMap (fun h =>
          let hs := mine.filter (fun l => l.addr % 128 / 64 == h)
          if hs.isEmpty then none
          else
            let cmp := blockWrite 64 (2 * ln + h) (hs.map (fun l => (l.addr, leBytes bytes l.opnd)))
            let swp := blockWrite 64 (2 * ln + h) (hs.map (fun l => (l.addr, leBytes bytes l.swap)))
            some (mkPacket s .atom dev cls 3 (ln * 128) (opWord variant size h ++ leBytes 16 (cmp.1 * 2 ^ (64 * h)) ++ cmp.2 ++ swp.2), hs))
      else
        let b := blockWrite 128 ln (mine.map (fun l => (l.addr, leBytes bytes l.opnd)))
        [(mkPacket s (if returns then .atom else .redMasked) dev cls 3 (ln * 128) (opWord variant size 0 ++ leBytes 16 b.1 ++ b.2), mine)]))

/-- A request of a core to a peer for each packet.
Log entries 39 (DESIGN CHOICE); 102 (DESIGN CHOICE). -/
def coreReqs (p g id slot : Nat) (dev : Nat) (ps : List Packet) : List PeerReq :=
  ps.map (fun k => mkReq dev (.core p g id) (some slot) p (posHalf p) k)

/-- Keys that stand for the packets of an instruction that a peer acknowledges. -/
def packetKeys (n k : Nat) : List Nat := (List.range k).map (fun i => 2 ^ 61 + n + i)

/-- The peers that a list of addresses names. -/
def peersNamed (s : State) (as : List Nat) : List Nat := ((as.map addrDevice).filter (· != s.pool.device)).dedup

/-! ### Carrying out a memory instruction -/

/-- Change an instruction on its group's list. -/
def putMem (s : State) (p g : Nat) (m : MemOp) : State :=
  match getGroup s p g with
  | none => s
  | some gr => setGroup s p g (some { gr with mem := gr.mem.map (fun x => if x.id = m.id then m else x) })

/-- The task has reached peers or the window (R328, R414). -/
def noteReach (s : State) (n : Nat) (as : List Nat) (ws : List Where) : State :=
  let peer := ws.any (fun w => match w with | .peer _ => true | _ => false)
  let win := (as.zip ws).any (fun e => e.2 == .home && decide (winBase ≤ addrLocal e.1))
  if peer || win then modSlot s n (fun sl => { sl with peerUser := sl.peerUser || peer, windowUser := sl.windowUser || win }) else s

/-- The bytes that a lane's access finds at once, if it needs no slice: staging memory, the own Basins, the slot table, or
a hit in the read-only cache. -/
def localAt (s : State) (p : Nat) (gr : Group) (ro : Bool) (size a : Nat) (w : Where) : Option (List Byte) :=
  let c := getPos s p
  match w with
  | .staging off => some (stgBytes gr.stg off size)
  | .basin off => some (mapGetList 0#8 c.basin off size)
  | .slot off => some (slice (slotBytes s (off / 256)) (off % 256) size)
  | .home => if ro then (roHit c gr.slot a).map (fun d => slice d (a % 32) size) else none
  | .peer _ => if ro then (roHit c gr.slot a).map (fun d => slice d (a % 32) size) else none
  | .bad _ => none

/-- The sectors of a load that lie outside the core are asked for: at home, or of the peers (R95, R307). -/
def askFar (s : State) (p g : Nat) (gr : Group) (id cls : Nat) (far : List Nat) : State :=
  let home := sectorsOf ((far.filter (fun a => addrDevice a == s.pool.device)).map addrLocal)
  let s1 := home.foldl (fun st k =>
    sendReq st { origin := .core p g id, cls := cls, sector := k, wtag := taskTag s gr.slot, op := .read }) s
  let reqs := (peersNamed s far).flatMap (fun d =>
    let secs := sectorsOf ((far.filter (fun a => addrDevice a == d)).map addrLocal)
    coreReqs p g id gr.slot d ((sectorRuns secs []).map (fun r => mkPacket s .read d cls (r.2 - 1) (r.1 * 32) [])))
  if reqs.isEmpty then s1 else peerRequests s1 reqs

/-- Requests that the lanes of an access put on the private channel: one for each aligned 256-byte block of the Basins (R181). -/
def chanBlocks (ws : List Where) : Nat := ((ws.filterMap (fun w => match w with
  | .basin off => some (off / 256)
  | _ => none)).dedup).length

/-- A load whose addresses are known: what lies in the core is read now, in the channel's and the ports' order; the other
sectors are asked for (R95, R100).
Log entry 25 (DEDUCED). -/
def startLoad (s : State) (p g : Nat) (gr : Group) (m : MemOp) (cls : Nat) : State :=
  let c := getPos s p
  let found := m.lanes.map (fun l => (l.addr, localAt s p gr m.ro m.size l.addr (whereIs s p gr false l.addr)))
  let localBytes := found.foldl (fun t e => match e.2 with
    | some bs => mapSetList 0#8 t e.1 bs
    | none => t) m.localBytes
  let far := (found.filter (fun e => e.2.isNone)).map (·.1)
  let m1 := { m with localBytes := localBytes, need := (far.map (sectorKey s)).dedup }
  let c := chanAdd s (chanBlocks (m.lanes.map (fun l => whereIs s p gr false l.addr))) c
  let used := if m.ro then ((found.filter (fun e => e.2.isSome)).map (fun e => e.1 / 128)).dedup else []
  askFar (putMem (setPos s p (used.foldl (fun x l => roTouch x l gr.slot) c)) p g m1) p g gr m.id cls far

/-- The operand bytes of a lane, kept at issue. -/
def keptBytes (m : MemOp) (lane n : Nat) : List Byte := mapGetList 0#8 m.localBytes (lane * 16) n

/-- Lanes of one store in the order in which they are applied: any order, where lanes name one address (R97).
Log entry 17 (DESIGN CHOICE). -/
def storeOrder (seed : Nat) (ls : List LaneAddr) : List LaneAddr :=
  if (ls.map (·.addr)).Nodup then ls
  else ls.insertionSort (fun a b => Config.freeNat (seed * 32 + a.lane) ≤ Config.freeNat (seed * 32 + b.lane))

/-- A store whose addresses are known (R95, R225). -/
def startStore (s : State) (p g : Nat) (gr : Group) (m : MemOp) (cls : Nat) : State :=
  let (seed, s0) := takeFree s
  let tag := taskTag s gr.slot
  let ws := (storeOrder seed m.lanes).map (fun l => (l.addr, keptBytes m l.lane m.size))
  let c := chanAdd s (chanBlocks (ws.map (fun w => whereIs s p gr true w.1))) ((ws.map (·.1)).foldl roInvalidate (getPos s0 p))
  let c1 := ws.foldl (fun x w => match whereIs s p gr true w.1 with
    | .basin off => basinWrite x off tag w.2
    | .staging off => logWrite x g { basin := false, off := off, data := w.2 }
    | _ => x) c
  let stg := ws.foldl (fun t w => match whereIs s p gr true w.1 with
    | .staging off => stgWrite t off w.2
    | _ => t) gr.stg
  let homeWs := (ws.filter (fun w => whereIs s p gr true w.1 == .home)).map (fun w => (addrLocal w.1, w.2))
  let homeSecs := sectorsOf (homeWs.map (·.1))
  let peers := peersNamed s (ws.map (·.1))
  let pkts := peers.map (fun d => (d, writePackets s d cls ((ws.filter (fun w => addrDevice w.1 == d)).map (fun w => (addrLocal w.1, w.2)))))
  let sizes := (pkts.flatMap (·.2)).map (fun q => q.sectors + 1)
  let m1 := { m with need := homeSecs ++ packetKeys 0 sizes.length, sizes := sizes }
  let s1 := putMem (modGroup (setPos s0 p c1) p g (fun x => { x with stg := stg })) p g m1
  let s2 := homeSecs.foldl (fun st k =>
    let b := blockWrite 32 k homeWs
    sendReq st { origin := .core p g m.id, cls := cls, sector := k, wtag := tag, op := .write b.1 b.2 }) s1
  let reqs := pkts.flatMap (fun e => coreReqs p g m.id gr.slot e.1 e.2)
  if reqs.isEmpty then s2 else peerRequests s2 reqs

/-- The lanes of an atomic or reduction with their operands. -/
def redLanes (m : MemOp) : List RedLane :=
  m.lanes.map (fun l => { lane := l.lane, addr := addrLocal l.addr, opnd := leNat (keptBytes m l.lane 4),
                          swap := leNat (mapGetList 0#8 m.localBytes (l.lane * 16 + 4) 4) })

/-- An atomic or reduction whose addresses are known (R120, R234). -/
def startRed (op : RedOp) (variant : Nat) (s : State) (p g : Nat) (gr : Group) (m : MemOp) (cls : Nat) : State :=
  let tag := taskTag s gr.slot
  let returns := m.kind == .atom
  let ls := redLanes m
  let devs := m.lanes.map (fun l => addrDevice l.addr)
  let at_ (d : Nat) : List RedLane := ((ls.zip devs).filter (fun e => e.2 == d)).map (·.1)
  let mine := at_ s.pool.device
  let secs := sectorsOf (mine.map (·.addr))
  let peers := peersNamed s (m.lanes.map (·.addr))
  let pkts := peers.map (fun d => (d, (redPackets s d cls variant (if m.size = 2 then 1 else 2) m.size returns (op == .cas) (at_ d)).map (·.1)))
  let sizes := (pkts.flatMap (·.2)).map (fun q => q.sectors + 1)
  let c := (m.lanes.map (·.addr)).foldl roInvalidate (getPos s p)
  let m1 := { m with need := secs ++ packetKeys 0 sizes.length, sizes := sizes }
  let s1 := putMem (setPos s p c) p g m1
  let s2 := secs.foldl (fun st k =>
    sendReq st { origin := .core p g m.id, cls := cls, sector := k, wtag := tag,
                 op := .reduce op returns (mine.filter (fun l => l.addr / 32 == k)) }) s1
  let reqs := pkts.flatMap (fun e => coreReqs p g m.id gr.slot e.1 e.2)
  if reqs.isEmpty then s2 else peerRequests s2 reqs

/-! ### Translation (R202, R270, R271) -/

/-- The parts of a sequence reference (R270). -/
def refSeq (r : Nat) : Nat := bits r 47 31
def refPage (r : Nat) : Nat := bits r 30 16
def refByte (r : Nat) : Nat := r % 65536

/-- The walker's entry for a page. -/
def walkerFind (c : Pos) (seq page : Nat) : Option WalkEntry := c.walker.find? (fun w => w.seq == seq && w.page == page)

/-- A use of a walker entry, and of the Sluice frame it names, that reads `n` sectors (R279). -/
def walkerUse (c : Pos) (seq page n : Nat) : Pos :=
  let top := (c.walker.map (·.use)).foldl max 0 + 1
  let frame := (walkerFind c seq page).bind (fun w => match w.loc with
    | .frame f _ => some f
    | .memory _ => none)
  { c with
    walker := c.walker.map (fun w => if w.seq = seq ∧ w.page = page then { w with use := top, count := w.count + n } else w),
    frameUse := match frame with
      | some f => mapSet 0 c.frameUse f top
      | none => c.frameUse }

/-- Put a translation in, the least recently used of 512 going (R202).
Log entry 103 (DESIGN CHOICE). -/
def walkerPut (c : Pos) (seq page : Nat) (loc : PageLoc) : Pos :=
  let top := (c.walker.map (·.use)).foldl max 0 + 1
  let kept := c.walker.filter (fun w => !(w.seq == seq && w.page == page))
  let kept1 := if kept.length < 512 then kept
    else
      match kept.foldl (fun acc w => match acc with
        | none => some w
        | some v => if w.use < v.use then some w else some v) none with
      | none => kept
      | some v => kept.filter (· != v)
  { c with walker := kept1 ++ [{ seq := seq, page := page, loc := loc, count := 0, use := top }] }

/-- A page that is in no position's frame, or the own one's: the address that a translated access of this position uses.
A frame is read through the Basin's own offset; writes go to the Reservoir address (R271). -/
def translated (s : State) (p : Nat) (write : Bool) (loc : PageLoc) (byte : Nat) : Nat :=
  match loc with
  | .memory base => s.pool.device * 2 ^ 58 + base + byte
  | .frame f base => if write then s.pool.device * 2 ^ 58 + base + byte
      else s.pool.device * 2 ^ 58 + basinBase + p * 0x400000 + f * 65536 + byte

/-- A walk begins, at most 16 outstanding (R202). -/
def beginWalk (s : State) (p seq page : Nat) (write : Bool) (who : Walker) : Nat × State :=
  let c := getPos s p
  (c.nextWalk, bump (setPos s p { c with
    walks := c.walks ++ [{ id := c.nextWalk, seq := seq, page := page, write := write, who := who, st := .walking }],
    nextWalk := c.nextWalk + 1 }) (Key.walkMisses p) 1)

/-- The bytes of a lane that a frame of this position holds. -/
def frameBytes (s : State) (p a n : Nat) : List Byte :=
  mapGetList 0#8 (getPos s p).basin (addrLocal a - basinBase - p * 0x400000) n

/-- A translated load: lanes in a frame are read from it now, the others as an ordinary load. -/
def startSeqLoad (s : State) (p g : Nat) (gr : Group) (m : MemOp) (cls : Nat) : State :=
  let inFrame (l : LaneAddr) : Bool := !(hasHome s (addrLocal l.addr))
  let localBytes := m.lanes.foldl (fun t l => if inFrame l then mapSetList 0#8 t l.addr (frameBytes s p l.addr m.size) else t) m.localBytes
  let far := (m.lanes.filter (fun l => !(inFrame l))).map (·.addr)
  let secs := sectorsOf (far.map addrLocal)
  let m1 := { m with localBytes := localBytes, need := secs }
  let blocks := ((m.lanes.filter inFrame).map (fun l => l.addr / 256)).dedup
  secs.foldl (fun st k =>
    sendReq st { origin := .core p g m.id, cls := cls, sector := k, wtag := taskTag s gr.slot, op := .read })
    (putMem (setPos s p (chanAdd s blocks.length (getPos s p))) p g m1)

/-- A sequence-relative access: each page is translated, the first that misses begins a walk; when all are known the access
goes on. A store to a page that is not writable faults (R278). -/
def translateMem (s : State) (p g id : Nat) : State :=
  match findMem s p g id with
  | none => s
  | some (gr, m) =>
    let write := m.kind != .load
    let cls := ((getSlot s gr.slot).map (fun sl => recClass sl.words)).getD 0
    let pages := (m.lanes.map (fun l => (refSeq l.addr, refPage l.addr))).dedup
    let c := getPos s p
    match pages.find? (fun e => (walkerFind c e.1 e.2).isNone) with
    | some e =>
      let (w, s1) := beginWalk s p e.1 e.2 write (.group g id)
      putMem s1 p g { m with walk := some w }
    | none =>
      let bad := write && pages.any (fun e => match getSeq s e.1 with
        | some q => !(pageWritable s e.1 e.2 q)
        | none => true)
      if bad then faultMem (dropMem s p g id) p gr m Code.seqReadOnly 0
      else
        let lanes := m.lanes.map (fun l => match walkerFind c (refSeq l.addr) (refPage l.addr) with
          | some w => { l with addr := translated s p write w.loc (refByte l.addr) }
          | none => l)
        let sectors (e : Nat × Nat) : Nat :=
          (((m.lanes.filter (fun l => refSeq l.addr == e.1 && refPage l.addr == e.2)).map (fun l => l.addr / 32)).dedup).length
        let c1 := pages.foldl (fun x e => walkerUse x e.1 e.2 (if write then 0 else sectors e)) c
        let m1 := { m with walk := none, lanes := lanes }
        let s1 := putMem (setPos s p c1) p g m1
        if lanes.any (fun l => onLostStack s (addrLocal l.addr)) then faultMem (dropMem s p g id) p gr m Code.reservoirLost 0
        else
          match getGroup s1 p g with
          | none => s1
          | some gr1 => if write then startStore s1 p g gr1 m1 cls else startSeqLoad s1 p g gr1 m1 cls

/-! ### The instructions -/

/-- A lane's address (R119). -/
def laneAddr (c : Ctx) (l : Nat) : Nat :=
  let r := fld c.w 39 32
  let base : Nat := if r = 255 then c.dev * 2 ^ 58 + aliasStaging else getReg c.gr r l + 2 ^ 32 * getReg c.gr (r + 1) l
  unsigned 64 ((base : Int) + fOffset c.w)

/-- Bytes per lane (R110). -/
def sizeBytes (w : InstrBits) : Nat := 2 ^ fSize w

/-- The registers of the base address. -/
def addrRegs (w : InstrBits) : List (Nat × Nat) := if fld w 39 32 = 255 then [] else [(fld w 39 32, 2)]

/-- The registers of a datum of the instruction's size. -/
def dataRegs (w : InstrBits) : Nat × Nat := (fDst w, max 1 (sizeBytes w / 4))

/-- A memory instruction as it begins, before its addresses are looked at. -/
def newMem (c : Ctx) (id : Nat) (kind : MemKind) (dst size : Nat) (sext ro : Bool) (kept : Sparse Byte) : MemOp :=
  { id := id, kind := kind, dst := dst, size := size, sext := sext, ro := ro,
    lanes := (lanesOf c.ex).map (fun l => ⟨l, laneAddr c l⟩), need := [], got := [], accepted := [], sizes := [], noFill := [], localBytes := kept,
    walk := none, pc := c.path.pc }

/-- Put a memory instruction on its group's list, the group at its next instruction. -/
def enterMem (c : Ctx) (s : State) (m : MemOp) : State :=
  let s1 := finishAt c { c.gr with mem := c.gr.mem ++ [m] } s
  let x := getPos s1 c.p
  setPos s1 c.p { x with nextMem := m.id + 1 }

/-- A memory instruction has completed, in R98's sense: its data has come, or it has been accepted. -/
def memDone (m : MemOp) : Bool :=
  m.walk.isNone && (if m.kind == .load then m.need.all (fun k => m.got.any (fun v => v.sector == k)) else m.need.all m.accepted.contains)

/-- The group must wait: it has 32 memory instructions outstanding, or the access needs `far` sectors over the down port while
that has no room for them or a Cistern-only reset drains it (R98, R413). -/
def memHeld (s : State) (c : Ctx) (far : Nat) : Bool :=
  decide (32 ≤ (c.gr.mem.filter (fun m => !(memDone m))).length) ||
    (decide (0 < far) && (inCisReset s || decide (1024 < downOutstanding s c.p + far)))

/-- The addresses of an access that the down port carries: those at home and at peers, but for read-only hits (R99). -/
def farAddrs (s : State) (c : Ctx) (write ro : Bool) (as : List Nat) : List Nat :=
  as.filter (fun a => match whereIs s c.p c.gr write a with
    | .home => write || !ro || (roHit (getPos s c.p) c.gr.slot a).isNone
    | .peer _ => write || !ro || (roHit (getPos s c.p) c.gr.slot a).isNone
    | _ => false)

/-- A memory instruction with ordinary addresses: alignment first, then every lane's place (R27, R95). -/
def runMem (kind : MemKind) (size : Nat) (sext ro : Bool) (kept : Ctx → Sparse Byte) (refuse : State → Nat → Where → Option Nat)
    (start : State → Nat → Nat → Group → MemOp → Nat → State) (c : Ctx) (s : State) : State :=
  let as := (lanesOf c.ex).map (laneAddr c)
  if as.isEmpty then finishAt c c.gr s
  else
    let write := kind != .load
    let ws := as.map (whereIs s c.p c.gr write)
    if memHeld s c (((farAddrs s c write ro as).map (· / 32)).dedup).length || (decide (0 < chanBlocks ws) && chanFull s (getPos s c.p)) then s
    else
      match as.find? (fun a => a % size != 0) with
      | some a => faultAt s c Code.misalignedAccess a
      | none =>
        match (as.zip ws).findSome? (fun e => (refuse s e.1 e.2).map (fun k => (k, e.1))) with
        | some (k, a) => faultAt s c k a
        | none =>
          let m := newMem c (getPos s c.p).nextMem kind (fDst c.w) size sext ro (kept c)
          let s1 := noteReach (enterMem c s m) c.gr.slot as ws
          match getGroup s1 c.p c.g with
          | none => s1
          | some gr => start s1 c.p c.g gr m (recClass c.sl.words)

/-- A miss of the walker must wait, and its group with it: sixteen walks are outstanding (R202), or an earlier access of the
group waits for a walk of the same page (R97). -/
def walkHeld (s : State) (c : Ctx) (refs : List Nat) : Bool :=
  let pages := (refs.map (fun r => (refSeq r, refPage r))).dedup
  (decide (16 ≤ (getPos s c.p).walks.length) && pages.any (fun e => (walkerFind (getPos s c.p) e.1 e.2).isNone)) ||
    c.gr.mem.any (fun m => m.walk.isSome && m.lanes.any (fun l => pages.contains (refSeq l.addr, refPage l.addr)))

/-- A reference names a page that the walker knows to be in a frame. -/
def frameNamed (s : State) (p : Nat) (refs : List Nat) : Bool :=
  refs.any (fun r => match (walkerFind (getPos s p) (refSeq r) (refPage r)).map (·.loc) with
    | some (PageLoc.frame _ _) => true
    | _ => false)

/-- A memory instruction with sequence references (R119, R270). -/
def runSeq (kind : MemKind) (size : Nat) (sext : Bool) (kept : Ctx → Sparse Byte) (c : Ctx) (s : State) : State :=
  let as := (lanesOf c.ex).map (laneAddr c)
  if as.isEmpty then finishAt c c.gr s
  else if memHeld s c ((as.map (· / 32)).dedup).length || walkHeld s c as || (frameNamed s c.p as && chanFull s (getPos s c.p)) then s
  else
    match as.find? (fun a => a % size != 0), as.find? (fun a => a / 2 ^ 48 != 0) with
    | some a, _ => faultAt s c Code.misalignedAccess a
    | none, some a => faultAt s c Code.seqRefInvalid a
    | none, none =>
      let m := newMem c (getPos s c.p).nextMem kind (fDst c.w) size sext false (kept c)
      translateMem (enterMem c s m) c.p c.g m.id

/-- What refuses a load or a store. -/
def refuseBad (_ : State) (_ : Nat) : Where → Option Nat
  | .bad k => some k
  | _ => none

/-- The address lies in staging memory or in a Basin, open to the access or not. -/
def inCore (s : State) (a : Nat) : Bool :=
  let l := addrLocal a
  addrDevice a == s.pool.device && ((basinAt l).isSome || decide (aliasStaging ≤ l ∧ l < aliasStaging + 0x40000) ||
    decide (aliasBasin ≤ l ∧ l < aliasBasin + 0x400000))

/-- What refuses an atomic or a reduction: any address in staging memory or in a Basin comes first (R120).
Log entries 18 (DEDUCED); 32 (DEDUCED). -/
def refuseAtom (s : State) (a : Nat) (w : Where) : Option Nat :=
  if inCore s a then some Code.atomicTarget
  else match w with
    | .bad k => some k
    | _ => none

/-- The bytes that each lane stores, by lane * 16 (R119). -/
def keptStore (size : Nat) (c : Ctx) : Sparse Byte :=
  (lanesOf c.ex).foldl (fun t l =>
    mapSetList 0#8 t (l * 16) (leBytes size (((List.range (max 1 (size / 4))).map (fun i => getReg c.gr (fDst c.w + i) l * 2 ^ (32 * i))).sum))) []

/-- The operand and the swap value of each lane (R120). -/
def keptRed (cas : Bool) (c : Ctx) : Sparse Byte :=
  (lanesOf c.ex).foldl (fun t l =>
    mapSetList 0#8 t (l * 16) (leBytes 4 (getReg c.gr (fSrcB c.w) l) ++ leBytes 4 (if cas then getReg c.gr (fSrcB c.w + 1) l else 0))) []

/-- ST (R119). -/
def execSt (p g : Nat) (w : InstrBits) (s : State) : Host.Outcome State Fault Refusal :=
  let v := fMod w
  .next (issue p g 0x31 w
    { valid := (v == 0 || v == 4) && decide (fSize w ≤ 4) && fSrcB w == 0, reads := dataRegs w :: addrRegs w, writes := [] }
    (fun c st => if v = 4 then runSeq .store (sizeBytes w) false (keptStore (sizeBytes w)) c st
      else runMem .store (sizeBytes w) false false (keptStore (sizeBytes w)) refuseBad startStore c st) s)

/-- ATOM's operation by VARIANT (R120). -/
def atomOp (v : Nat) : RedOp :=
  [RedOp.addI32, .addF32, .minS32, .maxS32, .minU32, .maxU32, .and, .or, .xor, .exch, .cas].getD v .addI32

/-- RED's operation by VARIANT (R120). -/
def redOp (v : Nat) : RedOp := [RedOp.addF32, .addBF16, .addI32, .maxF32, .minF32, .maxS32, .minS32].getD v .addF32

/-- ATOM (R120). -/
def execAtom (p g : Nat) (w : InstrBits) (s : State) : Host.Outcome State Fault Refusal :=
  let v := fMod w
  let cas := v == 10
  .next (issue p g 0x32 w
    { valid := decide (v ≤ 10) && fSize w == 2,
      reads := (if cas then (fSrcB w, 2) else (fSrcB w, 1)) :: addrRegs w, writes := [(fDst w, 1)] }
    (runMem .atom 4 cas false (keptRed cas) refuseAtom (startRed (atomOp v) v)) s)

/-- RED (R120). -/
def execRed (p g : Nat) (w : InstrBits) (s : State) : Host.Outcome State Fault Refusal :=
  let v := fMod w
  .next (issue p g 0x33 w
    { valid := decide (v ≤ 6) && fSize w == (if v = 1 then 1 else 2) && fDst w == 0, reads := (fSrcB w, 1) :: addrRegs w, writes := [] }
    (runMem .red (if v = 1 then 2 else 4) false false (keptRed false) refuseAtom (startRed (redOp v) v)) s)

/-! ### Completion (R98) -/

/-- The bytes that a load's lane receives. -/
def loadedBytes (s : State) (m : MemOp) (a : Nat) : List Byte :=
  match m.got.find? (fun v => v.sector == sectorKey s a) with
  | some v => slice v.data (a % 32) m.size
  | none => mapGetList 0#8 m.localBytes a m.size

/-- Write a lane's datum to its registers, zero or sign extended (R119). -/
def writeLoaded (m : MemOp) (gr : Group) (l : Nat) (bs : List Byte) : Group :=
  if m.size ≤ 4 then setReg gr m.dst l (if m.sext then sext32 (8 * m.size) (leNat bs) else leNat bs)
  else (List.range (m.size / 4)).foldl (fun x i => setReg x (m.dst + i) l (leAt bs (4 * i) 4)) gr

/-- A peer's ATOM packets with their lanes, in the order in which their keys were given. -/
def atomPeerLanes (s : State) (variant : Nat) (m : MemOp) : List (List RedLane) :=
  let ls := redLanes m
  let devs := m.lanes.map (fun l => addrDevice l.addr)
  (peersNamed s (m.lanes.map (·.addr))).flatMap (fun d =>
    (redPackets s d 0 variant 2 4 true (variant == 10) (((ls.zip devs).filter (fun e => e.2 == d)).map (·.1))).map (·.2))

/-- The old value that an atomic's lane receives (R120). -/
def oldValue (s : State) (m : MemOp) (l : LaneAddr) : Nat :=
  if addrDevice l.addr = s.pool.device then
    let k := addrLocal l.addr / 32
    let mine := (m.lanes.filter (fun x => addrDevice x.addr == s.pool.device && addrLocal x.addr / 32 == k)).map (·.lane)
    match m.got.find? (fun v => v.sector == k) with
    | some v => leAt v.data (4 * mine.idxOf l.lane) 4
    | none => 0
  else
    -- whether the operation is a CAS shows only in how lines are cut into packets; both cuts give a lane its own answer
    let i := (atomPeerLanes s (if m.sext then 10 else 0) m).findIdx (fun ls => ls.any (fun x => x.lane == l.lane))
    match m.got.find? (fun v => v.sector == 2 ^ 61 + i) with
    | some v => leAt v.data (addrLocal l.addr % 128) 4
    | none => 0

/-- Every answer that the instruction waits for has come. -/
def memComplete (m : MemOp) : Bool := m.walk.isNone && m.need.all (fun k => m.got.any (fun v => v.sector == k))

/-- The place of R454 that a failing word of the load's first lane lies in, with its address and tag: staging memory, a
task region, or somewhere that recovers by itself.
Log entry 7 (DESIGN CHOICE). -/
def localFailure (s : State) (p : Nat) (gr : Group) (m : MemOp) : Option BadWord :=
  match m.lanes with
  | [] => none
  | l :: _ =>
    match whereIs s p gr false l.addr with
    | .staging off => some { place := 2, addr := l.addr, tag := taskTag s gr.slot, reg := 0,
                             word := stgBytes gr.stg (off / 16 * 16) 16 }
    | .basin off => some { place := 6, addr := l.addr, tag := mapGet 0 (getPos s p).basinTag (off / 256), reg := 0,
                           word := mapGetList 0#8 (getPos s p).basin (off / 16 * 16) 16 }
    | _ => none

/-- The first lane's sector came from the read-only cache (R103). -/
def roServed (s : State) (p : Nat) (gr : Group) (m : MemOp) : Option Nat :=
  match m.lanes with
  | [] => none
  | l :: _ =>
    match m.ro && !(m.got.any (fun v => v.sector == sectorKey s l.addr)), whereIs s p gr false l.addr with
    | true, .home => some l.addr
    | true, .peer _ => some l.addr
    | _, _ => none

/-- A word from the read-only cache has failed: its line is invalidated, and the load's sector is fetched again (R103). -/
def roRefetch (s : State) (p g : Nat) (gr : Group) (m : MemOp) (a : Nat) : State :=
  let cls := ((getSlot s gr.slot).map (fun sl => recClass sl.words)).getD 0
  let s1 := putMem (bump s Key.cleanRecoveries 1) p g { m with need := m.need ++ [sectorKey s a] }
  askFar (setPos s1 p (roDrop (getPos s1 p) a gr.slot)) p g gr m.id cls [a]

/-- The slot that a load's first lane reads, with the lane's address, where it reads the slot table.
Log entry 115 (DEDUCED). -/
def slotLane (s : State) (p : Nat) (gr : Group) (m : MemOp) : Option (Nat × Nat) :=
  match m.lanes with
  | [] => none
  | l :: _ =>
    match whereIs s p gr false l.addr with
    | .slot off => some (off / 256, l.addr)
    | _ => none

/-- A load's word of the slot table fails its check: the slot's task ends with CHECK_FAILED, and so does the reader's
(R454, R455).
Log entry 115 (DEDUCED). -/
def slotFailed (s : State) (p g : Nat) (gr : Group) (m : MemOp) (x : Nat × Nat) : State :=
  let s1 := evalWaits (endTask (dropMem s p g m.id) x.1 { code := Code.checkFailed, sev := 2, origin := .fountain })
  bump (faultMem s1 p gr m Code.checkFailed x.2) Key.unrecovered 1

/-- LOAD_DATA_RETURN: a load's or an atomic's data returns to its group (R98). `chk` is the check of the words read in the
core: a failure in staging memory or a task region is dirty, one in the read-only cache or a Sluice frame is fetched again, one
in the slot table faults (R454, R455). -/
def execLoadDataReturn (p g id : Nat) (chk : Chk) (s : State) : Host.Outcome State Fault Refusal :=
  match findMem s p g id with
  | none => .next s
  | some (gr, m) =>
    if !(m.kind == .load || m.kind == .atom) || !(memComplete m) then .next s
    else if chk = .failed ∧ (roServed s p gr m).isSome then .next (roRefetch s p g gr m ((roServed s p gr m).getD 0))
    else if chk = .failed ∧ (slotLane s p gr m).isSome then .next (slotFailed s p g gr m ((slotLane s p gr m).getD (0, 0)))
    else
      let s1 := dropMem (noteTransient s chk) p g id
      let r : ErrRec := { code := Code.checkFailed, sev := 2, origin := .core, unit := p, group := gr.index, pc := m.pc }
      match m.got.find? (·.failed), (if chk = .failed ∧ m.kind = .load then localFailure s p gr m else none) with
      | some v, _ =>
        if v.code ≠ 0 ∧ v.code ≠ Code.checkFailed then .next (faultMem s1 p gr m v.code (v.sector * 32))
        else .next (dirtyFail s1 gr.slot r { place := if v.wtag = 0 then 13 else 10, addr := v.sector * 32, tag := v.wtag, reg := 0, word := v.data })
      | none, some b => .next (dirtyFail s1 gr.slot r b)
      | none, none =>
        let s2 := if chk = .failed ∧ m.localBytes ≠ [] then bump s1 Key.cleanRecoveries 1 else s1
        match getGroup s2 p g with
        | none => .next s2
        | some gr1 =>
          let gr2 := m.lanes.foldl (fun x l =>
            if m.kind = .load then writeLoaded m x l.lane (loadedBytes s m l.addr) else setReg x m.dst l.lane (oldValue s m l)) gr1
          let s3 := setGroup s2 p g (some gr2)
          let c := getPos s3 p
          let fill (x : Pos) (l : LaneAddr) : Pos := match m.got.find? (fun v => v.sector == sectorKey s l.addr) with
            | some v => if (roHit x gr.slot l.addr).isSome || m.noFill.contains (l.addr / 32) then x else roFill x gr.slot l.addr v.data
            | none => x
          let s4 := if m.ro then setPos s3 p (m.lanes.foldl fill c) else s3
          .next (runPubs s4 p g)

/-- WRITE_ACCEPTANCE: a store or reduction has been accepted at its destination, which completes it and lets what waited on
it go on (R98, R121). -/
def execWriteAcceptance (p g id : Nat) (s : State) : Host.Outcome State Fault Refusal :=
  let done (m : MemOp) : Bool := m.id == id && (m.kind == .store || m.kind == .red) && m.walk.isNone && m.need.all m.accepted.contains
  match findMem s p g id with
  | some (_, m) => if done m then .next (runPubs (dropMem s p g id) p g) else .next s
  | none =>
    let c := getPos s p
    .next (runLatePubs (setPos s p { c with late := c.late.filter (fun e => !(done e.2)) }) p)

/-! ### Instruction fetch (R104, R510) -/

/-- The line that holds a group's next instruction. -/
def nextLine (sl : Slot) (gr : Group) : Option Nat := (currentPath gr).map (fun q => (addrLocal (recEntry sl.words) + q.pc) / 128)

/-- The eight-byte words of a line. -/
def lineWords (bs : List Byte) : List Word64 := wordsOf 16 bs

/-- The pool address of a sector of an instruction line of this device. -/
def fetchAddr (s : State) (line k : Nat) : Nat := s.pool.device * 2 ^ 58 + line * 128 + 32 * k

/-- The sectors of an instruction line that the read-only cache of a position does not hold. -/
def fetchMissing (s : State) (p line : Nat) : List Nat :=
  [0, 1, 2, 3].filter (fun k => (roHit (getPos s p) instrTag (fetchAddr s line k)).isNone)

/-- Ask the home slice for what is missing of an instruction line, through the down port, unless that is under way (R99). -/
def fetchLine (s : State) (p g cls line : Nat) : State :=
  let missing := fetchMissing s p line
  if missing.isEmpty || inCisReset s || (homeRefusal s (line * 128) 128).isSome || (jobOf s (.fetch p g line)).isSome ||
      decide (1024 < downOutstanding s p + missing.length) then s
  else startJob s (posHalf p) p cls 0 (.fetch p g line) [] (missing.map (fun k => (line * 4 + k, .read)))

/-- An instruction line's sectors have come: they fill the read-only cache. A failed sector of the line that the group waits
for is a failed read of its task (R104, R455). -/
def takeFetch (s : State) (p g line : Nat) (got : List Served) : State :=
  let c := (got.filter (fun v => !v.failed)).foldl (fun x v =>
    roFill x instrTag (s.pool.device * 2 ^ 58 + v.sector * 32) v.data) (getPos s p)
  let s1 := setPos s p c
  match gotFailed got, getGroup s p g with
  | some v, some gr =>
    if ((getSlot s gr.slot).bind (fun sl => nextLine sl gr)) = some line ∧ gr.ended = false then
      dirtyFail s1 gr.slot { code := Code.checkFailed, sev := 2, origin := .core, unit := p, group := gr.index,
                             pc := ((currentPath gr).map (·.pc)).getD 0, addr := line * 128 }
        { place := if v.wtag = 0 then 13 else 10, addr := v.sector * 32, tag := v.wtag, reg := 0, word := v.data }
    else s1
  | _, _ => s1

/-- FETCH_LINE_RETURN: the line of a group's next instruction arrives in its fetch buffer from the read-only cache, and the next
sequential line is fetched into that cache; what the cache misses is asked of the home slice first (R99, R104, R510). `chk`
failing is a failure in that cache: the line is invalidated and fetched again (R103).
Log entry 109 (DEDUCED). -/
def execFetchLineReturn (p g : Nat) (chk : Chk) (s : State) : Host.Outcome State Fault Refusal :=
  match inService s, getGroup s p g with
  | true, some gr =>
    match (getSlot s gr.slot).bind (fun sl => (nextLine sl gr).map (fun l => (sl, l))) with
    | none => .next s
    | some (sl, line) =>
      let cls := recClass sl.words
      let have_ : Bool := match gr.fetched with
        | some f => f.1 == line
        | none => false
      if gr.ended || have_ then .next s
      else
        match homeRefusal s (line * 128) 128 with
        | some code => .next (faultTask s gr.slot { code := code, sev := 2, origin := .core, unit := p, group := gr.index,
                                                     pc := ((currentPath gr).map (·.pc)).getD 0, addr := line * 128 })
        | none =>
          let c := getPos s p
          let hits := [0, 1, 2, 3].filterMap (fun k => roHit c instrTag (fetchAddr s line k))
          if hits.length < 4 then .next (fetchLine s p g cls line)
          else if chk = .failed then
            .next (fetchLine (setPos (bump s Key.cleanRecoveries 1) p (roDrop c (fetchAddr s line 0) instrTag)) p g cls line)
          else
            let s1 := setGroup (setPos s p (roTouch c (fetchAddr s line 0 / 128) instrTag)) p g
              (some { gr with fetched := some (line, lineWords hits.flatten) })
            .next (fetchLine s1 p g cls (line + 1))
  | _, _ => .next s

end Sys2Proof.Machine
end

