-- ==== Sys2Proof/Machine/Control.lean ====
section
/-! DEFINITION. Branches, barriers, waits and exit (R81 to R91, R121 to R124), SPAWN and PUB (R127), and the special
registers (R128, R129). -/

namespace Sys2Proof.Machine

/-! ### Branches (R81 to R83, R122) -/

/-- The current path goes to its lanes' targets: in one step where they agree, by a split otherwise. A branch that splits
with RECONV 0 faults with INSTRUCTION_INVALID. -/
def branchTo (c : Ctx) (gr : Group) (target : Nat → Nat) (s : State) : State :=
  match targetsOf c.path.lanes target with
  | [] => finishAt c gr s
  | [t] => putGroup s c.p c.g (swapPath gr c.path [{ c.path with pc := t.1 }])
  | ts =>
    if fReconv c.w = 0 then faultAt s c Code.instructionInvalid 0
    else
      match splitPath gr c.path ts (pcPlus c.path.pc (fReconv c.w)) with
      | none => faultAt s c Code.divergenceOverflow 0
      | some gr1 => putGroup s c.p c.g gr1

/-- BRA (R122). -/
def execBra (p g : Nat) (w : InstrBits) (s : State) : Host.Outcome State Fault Refusal :=
  .next (issue p g 0x38 w { valid := fMod w == 0, reads := [], writes := [] }
    (fun c st => branchTo c c.gr
      (fun l => if c.ex.getLsbD l then pcPlus c.path.pc (fTarget c.w) else pcPlus c.path.pc 1) st) s)

/-- BRX, with an optional link. The link is written first, but the targets are the values that SRCA held before, also where DST
is SRCA (R122).
Log entry 112 (DEDUCED). -/
def execBrx (p g : Nat) (w : InstrBits) (s : State) : Host.Outcome State Fault Refusal :=
  let link := fMod w == 1
  .next (issue p g 0x39 w
    { valid := decide (fMod w ≤ 1) && (link || fDst w == 0) && fImm8 w == 0, reads := [(fSrcA w, 1)], writes := oneReg link (fDst w) }
    (fun c st =>
      if (lanesOf c.ex).any (fun l => laneA c l % 8 != 0) then faultAt st c Code.instructionInvalid 0
      else
        let gr := if link then writeLanes c (fDst c.w) (fun _ => pcPlus c.path.pc 1) else c.gr
        branchTo c gr (fun l => if c.ex.getLsbD l then laneA c l else pcPlus c.path.pc 1) st) s)

/-! ### Barriers and exit (R84, R85, R89, R123) -/

/-- The executing lanes park at a barrier: the whole path, or, when only some of its lanes execute, a path split off for
them (R123). -/
def parkAt (st : PathState) (c : Ctx) (s : State) : State :=
  let next := pcPlus c.path.pc 1
  if c.ex = 0#32 then finishAt c c.gr s
  else if c.ex = c.path.lanes then putGroup s c.p c.g (swapPath c.gr c.path [{ c.path with pc := next, st := st }])
  else
    let inn := lanesOf c.ex
    let out := lanesOf (c.path.lanes &&& ~~~c.ex)
    let ts := if inn.headD 0 < out.headD 0 then [(next, inn), (next, out)] else [(next, out), (next, inn)]
    match splitPath c.gr c.path ts next with
    | none => faultAt s c Code.divergenceOverflow 0
    | some gr => putGroup s c.p c.g { gr with paths := gr.paths.map (fun q =>
        if q.lanes = c.ex ∧ q.split = c.gr.nextSplit then { q with st := st } else q) }

/-- The fields that BAR, TBAR and EXIT do not use (R123). -/
def barrierForm (w : InstrBits) (ok : Bool) : Form :=
  { valid := ok && fMod w == 0 && fDst w == 0 && fSrcA w == 0 && fld w 23 0 == 0, reads := [], writes := [] }

/-- BAR (R85, R123). -/
def execBar (p g : Nat) (w : InstrBits) (s : State) : Host.Outcome State Fault Refusal :=
  .next (issue p g 0x3A w (barrierForm w (decide (fImm8 w ≤ 15))) (fun c st => parkAt (.barrier (fImm8 c.w)) c st) s)

/-- TBAR: in a task without COSCHED it faults (R89, R123). -/
def execTbar (p g : Nat) (w : InstrBits) (s : State) : Host.Outcome State Fault Refusal :=
  .next (issue p g 0x3B w (barrierForm w (fImm8 w == 0))
    (fun c st =>
      if c.ex != 0#32 && !(recCosched c.sl.words) then faultAt st c Code.coschedRequired 0 else parkAt .taskBarrier c st) s)

/-- EXIT: the executing threads leave the live mask and every path (R84). -/
def execExit (p g : Nat) (w : InstrBits) (s : State) : Host.Outcome State Fault Refusal :=
  .next (issue p g 0x3C w (barrierForm w (fImm8 w == 0))
    (fun c st =>
      let gr := nextPc c c.gr
      putGroup st c.p c.g { gr with live := gr.live &&& ~~~c.ex, paths := gr.paths.map (fun q => { q with lanes := q.lanes &&& ~~~c.ex }) }) s)

/-- Every store, atomic and reduction of a group to this device has been accepted (R88). -/
def groupAccepted (gr : Group) : Bool := (unaccepted gr).all homeAccepted

/-- Paths parked at a place go on.
Log entry 26 (DEDUCED). -/
def releaseAt (gr : Group) (st : PathState) : Group :=
  { gr with paths := gr.paths.map (fun q => if q.st = st then { q with st := .runnable } else q) }

/-- BARRIER_RELEASE: barrier `b` of a group releases once every live thread has arrived and earlier writes have been
accepted (R85, R88). -/
def execBarrierRelease (p g b : Nat) (s : State) : Host.Outcome State Fault Refusal :=
  match getGroup s p g with
  | none => .next s
  | some gr =>
    if b < 16 ∧ allAt gr (.barrier b) = true ∧ groupAccepted gr = true ∧ gr.ended = false then
      .next (putGroup s p g (releaseAt gr (.barrier b)))
    else .next s

/-- TASK_BARRIER_RELEASE: the task-level barrier releases after every group of the task has arrived or exited and the
stores of the task have been accepted (R89). -/
def execTaskBarrierRelease (slot : Nat) (s : State) : Host.Outcome State Fault Refusal :=
  match getSlot s slot with
  | none => .next s
  | some sl =>
    let gs := groupsOfTask s slot
    let accepted := gs.all (fun e => match getGroup s e.1 e.2 with
      | some gr => groupAccepted gr
      | none => true) && s.cores.all (fun c => c.2.late.all (fun e => e.1 != slot || homeAccepted e.2))
    if barrierFull sl && accepted && sl.ending.isNone then
      let s1 := setSlot s slot (some { sl with tbar := [] })
      .next (gs.foldl (fun st e => match getGroup st e.1 e.2 with
        | some gr => putGroup st e.1 e.2 (releaseAt gr .taskBarrier)
        | none => st) s1)
    else .next s

/-! ### Waits (R121, R124) -/

/-- CWAIT: the path waits until a completion counter is at or below a threshold (R124). -/
def execCwait (p g : Nat) (w : InstrBits) (s : State) : Host.Outcome State Fault Refusal :=
  .next (issue p g 0x3D w { valid := fDst w == 0 && fSrcA w == 0 && fld w 23 0 == 0, reads := [], writes := [] }
    (fun c st => finishAt c (if c.ex = 0#32 then c.gr else { c.gr with hold := .counter (fMod c.w) (fImm8 c.w) }) st) s)

/-- FENCE: the path waits until earlier writes have been accepted: on this device (MOD 0), or anywhere (MOD 1) (R121). Of a write
with lanes here and at a peer, MOD 0 waits for what goes to slices of this device. -/
def execFence (p g : Nat) (w : InstrBits) (s : State) : Host.Outcome State Fault Refusal :=
  .next (issue p g 0x3E w { valid := decide (fMod w ≤ 1) && fld w 47 0 == 0, reads := [], writes := [] }
    (fun c st =>
      finishAt c (if c.ex = 0#32 then c.gr else { c.gr with hold := .fence (fMod c.w == 1) ((unaccepted c.gr).map (·.id)) }) st) s)

/-! ### SPAWN and PUB (R58, R65, R127) -/

/-- Packets that carry a record to a peer (R306). -/
def postPackets (s : State) (dev cls : Nat) (bs : List Byte) : List Packet :=
  [mkPacket s .postA dev cls 3 0 (bs.take 128), mkPacket s .postB dev cls 3 0 (bs.drop 128)]

/-- A record goes to a device: taken or refused here, or sent to a member, whose answer the result register waits for (R58, R59,
R79).
Log entry 19 (DEDUCED). -/
def spawnTo (c : Ctx) (dev : Nat) (bs : List Byte) (s : State) : State :=
  let dst := fDst c.w
  if dev = s.pool.device then
    let r := takeSpawn s (wordsOf 32 bs) false
    finishAt c (writeLanes c dst (fun _ => r.1)) r.2
  else if s.pool.st ≠ .broken ∧ dev < 64 ∧ isMember s dev = true then
    let id := (getPos s c.p).nextMem
    let s0 := setPos s c.p { getPos s c.p with nextMem := id + 1 }
    let s1 := modSlot (finishAt c { c.gr with spawns := c.gr.spawns ++ [{ id := id, dst := dst, lanes := c.ex }] } s0) c.gr.slot
      (fun sl => { sl with peerUser := true })
    peerRequests s1 [{ mkReq dev (.spawn c.p c.g id) (some c.gr.slot) agentFountain (posHalf c.p) (mkPacket s .postA dev (recClass c.sl.words) 3 0 [])
      with pkts := postPackets s dev (recClass c.sl.words) bs, firstLine := 1, lastLine := 0 }]
  else finishAt c (writeLanes c dst (fun _ => 2 ^ 31 + dev % 64 * 2 ^ 16)) s

/-- SPAWN: submits the 256-byte record at a staging offset; a single issuer gives the offset and the device (R93, R127). -/
def execSpawn (p g : Nat) (w : InstrBits) (s : State) : Host.Outcome State Fault Refusal :=
  .next (issue p g 0x83 w
    { valid := fMod w == 0 && fSrcC w == 0 && fld w 15 0 == 0, reads := [(fSrcA w, 1), (fSrcB w, 1)], writes := [(fDst w, 1)] }
    (fun c st =>
      if c.ex = 0#32 then finishAt c c.gr st
      else if fountainHeld st then st
      else
        let off := laneA c (issuer c)
        if off % 8 ≠ 0 then faultAt st c Code.misalignedAccess (aliasStaging + off)
        else if c.gr.staging * 256 < off + 256 then faultAt st c Code.stagingRange (aliasStaging + off)
        else spawnTo c (laneB c (issuer c)) (stgBytes c.gr.stg off 256) st) s)

/-- PUB: adds a value to PROGRESS once the group's earlier stores have been accepted (R65, R127).
Log entry 19 (DEDUCED). -/
def execPub (p g : Nat) (w : InstrBits) (s : State) : Host.Outcome State Fault Refusal :=
  .next (issue p g 0x84 w
    { valid := fMod w == 0 && fDst w == 0 && fSrcB w == 0 && fSrcC w == 0 && fld w 15 0 == 0, reads := [(fSrcA w, 1)], writes := [] }
    (fun c st =>
      if c.ex = 0#32 then finishAt c c.gr st
      else
        let u : Publish := { value := laneA c (issuer c), ids := (unaccepted c.gr).map (·.id) }
        runPubs (finishAt c { c.gr with pubs := c.gr.pubs ++ [u] } st) c.p c.g) s)

/-! ### Special registers (R128, R129) -/

/-- The special-register numbers of R128. -/
def sregs : List Nat := List.range 0x14 ++ (List.range 20).map (· + 0x20) ++ (List.range 16).map (· + 0x40)

/-- TASK_FLAGS (R128). -/
def taskFlags (sl : Slot) : Nat :=
  (if recFlush sl.words then 1 else 0) + (if replayBit sl then 2 else 0) + 4 * recClass sl.words

/-- The value of a special register in a lane. -/
def sregValue (s : State) (c : Ctx) (l : Nat) : Nat :=
  let n := fSreg c.w
  match n with
  | 0x00 => l
  | 0x01 => c.gr.index
  | 0x02 => recGroups c.sl.words
  | 0x03 => c.g
  | 0x04 => c.g % 4
  | 0x05 => logicalOf s c.p
  | 0x06 => c.p
  | 0x07 => s.pool.device
  | 0x08 => c.gr.slot
  | 0x09 => recTag c.sl.words
  | 0x0A => taskFlags c.sl
  | 0x0B => c.path.lanes.toNat
  | 0x0C => c.gr.live.toNat
  | 0x0D => c.gr.staging * 256
  | 0x0E => c.gr.regs
  | 0x0F => c.sl.replays
  | 0x10 => stamp s % 2 ^ 32
  | 0x11 => mapGet 0 c.gr.tbTimebase l / 2 ^ 32
  | 0x12 => s.time.cycle % 2 ^ 32
  | 0x13 => mapGet 0 c.gr.tbCycle l / 2 ^ 32
  | _ =>
    if 0x40 ≤ n then mapGet 0 c.gr.counters (n - 0x40)
    else
      let a := recArg c.sl.words ((n - 0x20) / 2)
      if n % 2 = 0 then a % 2 ^ 32 else a / 2 ^ 32

/-- What a read captures for its lanes (R129). -/
def sregCapture (s : State) (c : Ctx) (gr : Group) : Group :=
  let n := fSreg c.w
  if n = 0x10 then { gr with tbTimebase := (lanesOf c.ex).foldl (fun m l => mapSet 0 m l (stamp s)) gr.tbTimebase }
  else if n = 0x12 then { gr with tbCycle := (lanesOf c.ex).foldl (fun m l => mapSet 0 m l s.time.cycle) gr.tbCycle }
  else gr

/-- SRD (R128). -/
def execSrd (p g : Nat) (w : InstrBits) (s : State) : Host.Outcome State Fault Refusal :=
  .next (issue p g 0x88 w
    { valid := fMod w == 0 && fSrcA w == 0 && fld w 15 0 == 0 && sregs.contains (fSreg w), reads := [], writes := [(fDst w, 1)] }
    (fun c st => finishAt c (sregCapture st c (writeLanes c (fDst c.w) (sregValue st c))) st) s)

end Sys2Proof.Machine
end

