-- ==== Sys2Proof/Machine/Arrays.lean ====
section
/-! DEFINITION. The matrix arrays (chapter 5): the descriptor and its checks, queues, operations and fragments. -/

namespace Sys2Proof.Machine

/-! ### Areas (R135, R141, R157, R189) -/

/-- Where a device-local address lies for an engine of the core: staging alias, own Basins, another position's Basins, or
elsewhere. -/
inductive Place where
  | staging (off : Nat)
  | basin (off : Nat)
  | foreign
  | other
  deriving DecidableEq, Repr

/-- The place of an address, seen by the core at position `p`. -/
def placeOf (p a : Nat) : Place :=
  if aliasStaging ≤ a ∧ a < aliasStaging + 0x40000 then .staging (a - aliasStaging)
  else if aliasBasin ≤ a ∧ a < aliasBasin + 0x400000 then .basin (a - aliasBasin)
  else
    match basinAt a with
    | some (q, off) => if q = p then .basin off else .foreign
    | none => .other

/-- An area of a descriptor or a command: in the Basins or in staging memory, at an offset, with its length. -/
structure Area where
  basin : Bool
  off : Nat
  len : Nat
  deriving DecidableEq, Repr

/-- `[a, a + n)` and `[b, b + m)` share a byte. -/
def rangesMeet (a n b m : Nat) : Bool := decide (max a b < min (a + n) (b + m))

/-- Part of the bytes at `a` lies in the staging alias past the allocation; in another position's Basin block; in the own Sluice
frames, seen through the alias or through the own block (R25, R75, R185). -/
def pastStaging (staging a n : Nat) : Bool := rangesMeet a n (aliasStaging + staging * 256) (0x40000 - staging * 256)
def inForeign (p a n : Nat) : Bool :=
  rangesMeet a n basinBase (p * 0x400000) || rangesMeet a n (basinBase + (p + 1) * 0x400000) ((543 - p) * 0x400000)
def inFrames (s : State) (p a n : Nat) : Bool :=
  [aliasBasin, basinBase + p * 0x400000].any (fun b => rangesMeet a n (b + taskRegionEnd s) (0x400000 - taskRegionEnd s))

/-- The area at an address, or the first code that refuses it, in the order of R157 and R208: `outside` is ARRAY_SOURCE or
WEIR_SOURCE. An area that begins in staging memory, goes past the allocation and ends in the Basins breaks two rules, and the
first in that order, STAGING_RANGE, is taken (R135, R157).
Log entry 33 (DEDUCED). -/
def areaAt (s : State) (p staging outside a len : Nat) : Except Nat Area :=
  if pastStaging staging a len then .error Code.stagingRange
  else if inForeign p a len then .error Code.basinForeign
  else if inFrames s p a len then .error Code.addressUnmapped
  else
    match placeOf p a with
    | .staging off => if off + len ≤ staging * 256 then .ok ⟨false, off, len⟩ else .error outside
    | .basin off => if off + len ≤ taskRegionEnd s then .ok ⟨true, off, len⟩ else .error outside
    | _ => .error outside

/-- Two areas share a byte. -/
def areasMeet (a b : Area) : Bool := a.basin == b.basin && decide (a.off < b.off + b.len) && decide (b.off < a.off + a.len)

/-! ### The descriptor (R137 to R142) -/

/-- The valid format combinations (R140). -/
def formatsOk (a b d c : Nat) : Bool :=
  let weight := decide (8 ≤ b) && decide (b ≤ 12)
  if a ≤ 1 then (decide (b ≤ 1) || weight) && [0, 1, 4].contains d && [0, 1, 2, 5].contains c
  else if a = 2 then b == 2 && d == 3 && (c == 0 || c == 4)
  else if a = 3 then (b == 3 || weight) && (d == 0 || d == 1) && [0, 1, 2].contains c
  else if a = 4 then b == 4 && (d == 0 || d == 2) && [0, 1, 3].contains c
  else false

/-- ARRAY_DESCRIPTOR's checks (R137 to R140). -/
def descriptorBad (ws : List Nat) : Bool :=
  let ce := chunkElems (dAfmt ws)
  let k := dK ws
  let weight := decide (8 ≤ dBfmt ws)
  decide (dMode ws > 2) || (dOrder ws && dMode ws != 0) || dWord ws 0 % 2 ^ 42 != 0 || bits (dWord ws 1) 31 17 != 0 ||
  [3, 5, 7, 9, 11, 12].any (fun i => decide (dWord ws i ≥ 2 ^ 32)) || [13, 14, 15].any (fun i => dWord ws i != 0) ||
  (dCfmt ws == 0 && (dWord ws 6 != 0 || dWord ws 7 != 0)) ||
  (!weight && (dWord ws 10 != 0 || dWord ws 11 != 0)) || (dBfmt ws == 8 && dWord ws 11 != 0) ||
  (!(dScaleEn ws) && dWord ws 12 != 0) ||
  dM ws == 0 || dN ws == 0 || k == 0 || k % ce != 0 || (dMode ws == 0 && decide (k > 65536)) ||
  (dMode ws != 0 && decide (k > 8 * ce)) || !(formatsOk (dAfmt ws) (dBfmt ws) (dDfmt ws) (dCfmt ws)) ||
  (dScaleEn ws && (decide (3 ≤ dDfmt ws) || bits (dWord ws 12) 30 23 == 255))

/-- MISALIGNED_ACCESS's checks (R141). -/
def descriptorMisaligned (ws : List Nat) : Bool :=
  [2, 4, 6, 8].any (fun i => dWord ws i % 64 != 0) || [3, 5, 7, 9].any (fun i => dStride ws i % 64 != 0) ||
  decide (dStride ws 3 < rowBytesA ws) || decide (dStride ws 5 < rowBytesB (dBfmt ws) (dK ws)) ||
  decide (dStride ws 7 < lineBytesC ws) || decide (dStride ws 9 < lineBytesD ws) || dWord ws 10 % 16 != 0 || dStride ws 11 % 16 != 0

/-- Every area, or the first code that refuses one. -/
def allAreas (s : State) (p staging outside : Nat) : List (Nat × Nat) → Except Nat (List Area)
  | [] => .ok []
  | (a, n) :: rest =>
    match areaAt s p staging outside a n with
    | .error k => .error k
    | .ok x =>
      match allAreas s p staging outside rest with
      | .error k => .error k
      | .ok xs => .ok (x :: xs)

/-- C_IN coincides exactly with D (R142). -/
def cIsD (ws : List Nat) : Bool := dWord ws 6 == dWord ws 8 && dWord ws 7 == dWord ws 9 && dCfmt ws == dDfmt ws + 1

/-- D, the last area, shares a byte with another one; C_IN, the third where there is one, may coincide with it (R142). -/
def overlapBad (ws : List Nat) (areas : List Area) : Bool :=
  match areas.reverse with
  | [] => false
  | d :: _ => areas.dropLast.zipIdx.any (fun x => areasMeet x.1 d && !(cIsD ws && dCfmt ws != 0 && x.2 == 2))

/-- The first code of R157 that a descriptor breaks at the copy. -/
def descriptorCode (s : State) (p staging : Nat) (ws : List Nat) : Option Nat :=
  if descriptorBad ws then some Code.arrayDescriptor
  else if descriptorMisaligned ws then some Code.misalignedAccess
  else
    match allAreas s p staging Code.arraySource (descriptorAreas ws) with
    | .error k => some k
    | .ok areas => if overlapBad ws areas then some Code.arrayOverlap else none

/-! ### Queues (R151) -/

/-- Array `a` of a position. -/
def getArray (c : Pos) (a : Nat) : ArrayUnit := mapGet ArrayUnit.idle c.arrays a

def setArray (s : State) (p a : Nat) (u : ArrayUnit) : State :=
  let c := getPos s p
  setPos s p { c with arrays := mapSet ArrayUnit.idle c.arrays a u }

/-- The array has room: four wait behind the one running. -/
def arrayRoom (u : ArrayUnit) : Bool := decide (u.queue.length + (if u.running.isSome then 1 else 0) < 5)

/-- The array that UNIT names (R125). -/
def pickArray (c : Pos) (unit : Nat) : Option Nat :=
  if unit < 4 then (if arrayRoom (getArray c unit) then some unit else none)
  else [0, 1, 2, 3].find? (fun a => arrayRoom (getArray c a))

/-- A completion counter of a group. -/
def getCount (gr : Group) (k : Nat) : Nat := mapGet 0 gr.counters k
def addCount (gr : Group) (k : Nat) : Group := { gr with counters := mapSet 0 gr.counters k (getCount gr k + 1) }

/-- An operation's completion subtracts one from its counter, unless its group has been ended or has left (R124, R158). -/
def fallCount (s : State) (p g slot k : Nat) : State :=
  match getGroup s p g with
  | none => s
  | some gr =>
    if gr.slot = slot ∧ gr.ended = false then setGroup s p g (some { gr with counters := mapSet 0 gr.counters k (getCount gr k - 1) }) else s

/-- The eight-byte words of a block in staging memory. -/
def blockWords (gr : Group) (off n : Nat) : List Nat :=
  (List.range n).map (fun i => leNat (stgBytes gr.stg (off + 8 * i) 8))

/-- MMA (R93, R125, R136): checks at issue, then at the copy; a descriptor that passes enters the array's queue.
Log entries 19 (DEDUCED); 38 (DEDUCED). -/
def execMma (p g : Nat) (w : InstrBits) (s : State) : Host.Outcome State Fault Refusal :=
  .next (issue p g 0x80 w
    { valid := fMod w == 0 && fDst w == 0 && fSrcB w == 0 && fSrcC w == 0 && fld w 7 0 == 0 && decide (fUnit w ≤ 4),
      reads := [(fSrcA w, 1)], writes := [] }
    (fun c st =>
      if c.ex = 0#32 then finishAt c c.gr st
      else
        match pickArray (getPos st c.p) (fUnit c.w) with
        | none => st
        | some a =>
          if getCount c.gr (fCounter c.w) ≥ 255 then st
          else
            let off := laneA c (issuer c)
            if off % 64 ≠ 0 then faultAt st c Code.misalignedAccess (aliasStaging + off)
            else if c.gr.staging * 256 < off + 128 then faultAt st c Code.stagingRange (aliasStaging + off)
            else
              let ws := blockWords c.gr off 16
              match descriptorCode st c.p c.gr.staging ws with
              | some k => faultAt st c k (aliasStaging + off)
              | none =>
                let u := getArray (getPos st c.p) a
                let o : ArrayOp := { words := ws, g := c.g, slot := c.gr.slot, use := mapGet 0 st.fountain.uses c.gr.slot, counter := fCounter c.w, flush := ctxFlush c }
                finishAt c (addCount c.gr (fCounter c.w)) (setArray st c.p a { u with queue := u.queue ++ [o] })) s)

/-! ### What an operation reads, and what it does (R146 to R148, R151, R152, R154) -/

/-- A byte, or another that stands there already for some readers: freely for each aligned 64-byte block and each reader (R153,
R154).
Log entry 9 (DESIGN CHOICE). -/
def raceByte (seed block : Nat) (old new : Byte) : Byte := if old = new then old else if Config.freeBit (seed * 2 ^ 18 + block) then new else old

/-- A byte as read `k`-th by an operation: what the memory held at its start, with each later store seen or missed, freely for
each aligned 64-byte block (R154).
Log entry 9 (DESIGN CHOICE). -/
def seenByte (seed k : Nat) (log : List Written) (basin : Bool) (off : Nat) (old : Byte) : Byte :=
  log.zipIdx.foldl (fun b e =>
    if e.1.basin = basin ∧ e.1.off ≤ off ∧ off < e.1.off + e.1.data.length ∧
        Config.freeBit (((seed * 2 ^ 40 + k) * 2 ^ 40 + e.2) * 2 ^ 18 + off / 64 + (if basin then 2 ^ 17 else 0)) = true
    then e.1.data.getD (off - e.1.off) b else b) old

/-- A byte of a group's staging memory or of the core's Basins. -/
def memByte (stg : Sparse Byte) (basin : Sparse Byte) (inBasin : Bool) (off : Nat) : Byte :=
  if inBasin then mapGet 0#8 basin off else stgByte stg off

/-- The memory that an operation's `k`-th read of a place sees; the feeders read nothing once the last chunk has streamed (R151).
Log entry 9 (DESIGN CHOICE). -/
def opView (r : RunningOp) (k : Nat) (basin : Bool) (off : Nat) : Byte :=
  seenByte r.seed k (r.log.take (r.cut.getD r.log.length)) basin off (memByte r.stg r.basin basin off)

/-- The memory that the result port reads C_IN from. -/
def portView (r : RunningOp) (basin : Bool) (off : Nat) : Byte :=
  seenByte r.seed 0 r.log basin off (memByte r.stg r.basin basin off)

/-- The bytes of an area address, by its offset from `a`. -/
def reader (rd : Bool → Nat → Byte) (p a : Nat) (off : Nat) : Byte :=
  match placeOf p (a + off) with
  | .staging o => rd false o
  | .basin o => rd true o
  | _ => 0#8

/-- One step of an array (R146 to R148). -/
inductive ArrayStep where
  /-- The stationary feeder loads chunk `c` of rows `row` on into slot `slot` of units 0 to `n` − 1. -/
  | load (slot row n c k : Nat)
  /-- The broadcast feeder streams chunk `c` of row `row`: each of `n` units adds to accumulator `acc` of bank `bank`, from zero
  at chunk 0. -/
  | stream (slot bank acc row n c k : Nat)
  /-- The result port writes `n` elements from element `elem` of line `line`, from accumulator `acc` of bank `bank`. -/
  | drain (bank acc line elem n : Nat)
  deriving DecidableEq, Repr

/-- The tiles of output-stationary mode, as their first row and column, in the order of the walk (R146). -/
def dTiles (ws : List Nat) : List (Nat × Nat) :=
  let firsts (n : Nat) : List Nat := (List.range ((n + 31) / 32)).map (· * 32)
  if dOrder ws then (firsts (dN ws)).flatMap (fun n0 => (firsts (dM ws)).map (fun m0 => (m0, n0)))
  else (firsts (dM ws)).flatMap (fun m0 => (firsts (dN ws)).map (fun n0 => (m0, n0)))

/-- KC: the chunks of a row (R132). -/
def dChunks (ws : List Nat) : Nat := dK ws / chunkElems (dAfmt ws)

/-- Tile `t` of output-stationary mode (R146). `k` numbers the chunk steps: each re-read of an operand has its own. -/
def tileSteps (ws : List Nat) (t m0 n0 : Nat) : List ArrayStep :=
  let rows := List.range (min 32 (dM ws - m0))
  let n := min 32 (dN ws - n0)
  ((List.range (dChunks ws)).flatMap (fun c =>
    .load (c % 2) n0 n c (t * dChunks ws + c) :: rows.map (fun i => .stream (c % 2) (t % 2) i (m0 + i) n c (t * dChunks ws + c)))) ++
  rows.map (fun i => .drain (t % 2) i (m0 + i) n0 n)

/-- Block `b` of weight-stationary or input-stationary mode: `held` rows of the held operand, `streamed` of the other (R147,
R148). -/
def blockSteps (ws : List Nat) (held streamed b : Nat) : List ArrayStep :=
  let n0 := 32 * b
  let n := min 32 (held - n0)
  let slot (c : Nat) : Nat := 8 * (b % 2) + c
  (List.range (dChunks ws)).map (fun c => .load (slot c) n0 n c b) ++
  (List.range streamed).flatMap (fun m =>
    (List.range (dChunks ws)).map (fun c => .stream (slot c) (m % 2) 0 m n c b) ++ [.drain (m % 2) 0 m n0 n])

/-- The steps of an operation (R146 to R148). -/
def opSteps (ws : List Nat) : List ArrayStep :=
  if dMode ws = 0 then (dTiles ws).zipIdx.flatMap (fun e => tileSteps ws e.2 e.1.1 e.1.2)
  else
    let held := if dMode ws = 1 then dN ws else dM ws
    let streamed := if dMode ws = 1 then dM ws else dN ws
    (List.range ((held + 31) / 32)).flatMap (blockSteps ws held streamed)

/-- Array cycles in which these steps stream: one for each chunk of a row (R130, R399). -/
def streamCycles (steps : List ArrayStep) : Nat :=
  (steps.filter (fun t => match t with
    | .stream _ _ _ _ _ _ _ => true
    | _ => false)).length

/-- An array in the course of an operation: its stores, whether a value has been flushed, and the results written, as addresses
and bytes. -/
structure ArrayRun where
  slots : Sparse (List Byte)
  accs : Sparse Acc
  flushed : Bool
  out : List (Nat × List Byte)
  deriving DecidableEq, Repr

/-- The elements of chunk `c` of a row of A, and of B, expanded where B is weight-only, as the feeders deliver them. -/
def chunkA (rd : Bool → Nat → Byte) (p : Nat) (o : ArrayOp) (row c : Nat) : List Flushed :=
  let ws := o.words
  let ce := chunkElems (dAfmt ws)
  (List.range ce).map (fun j => elemA o.flush (dAfmt ws) (reader rd p (dWord ws 2 + row * dStride ws 3)) (c * ce + j))
def chunkB (rd : Bool → Nat → Byte) (p : Nat) (o : ArrayOp) (row c : Nat) : List Flushed :=
  let ws := o.words
  let ce := chunkElems (dAfmt ws)
  (List.range ce).map (fun j => elemB o.flush (dAfmt ws) (dBfmt ws) (reader rd p (dWord ws 4 + row * dStride ws 5))
    (reader rd p (dWord ws 10 + row * dStride ws 11)) (c * ce + j))

/-- A slot's 64 bytes from its elements, and back. -/
def packSlot (es : List Nat) : List Byte := es.flatMap (leBytes (64 / es.length))
def unpackSlot (ce : Nat) (bs : List Byte) : List Nat := (List.range ce).map (fun j => leNat (slice bs (j * (64 / ce)) (64 / ce)))

/-- One result element (R144): C_IN element `e` of line `line` is read as it is formed. -/
def portElem (cv : Bool → Nat → Byte) (p : Nat) (o : ArrayOp) (a : Acc) (line e : Nat) : Flushed :=
  let ws := o.words
  let cin := readNat (reader cv p (dWord ws 6 + line * dStride ws 7 + e * cBytes ws)) 0 (cBytes ws)
  portOut o.flush a (dCfmt ws) (dDfmt ws) cin (if dScaleEn ws then some (dWord ws 12) else none)

/-- One step: `rd` gives what the feeders read, by the number of the chunk step, `cv` what the result port reads. -/
def runStep (rd : Nat → Bool → Nat → Byte) (cv : Bool → Nat → Byte) (p : Nat) (o : ArrayOp) (x : ArrayRun) (st : ArrayStep) : ArrayRun :=
  let ws := o.words
  let ce := chunkElems (dAfmt ws)
  match st with
  | .load slot row n c k =>
    let held (u : Nat) : List Flushed := if dMode ws = 2 then chunkA (rd k) p o (row + u) c else chunkB (rd k) p o (row + u) c
    (List.range n).foldl (fun y u =>
      { y with slots := mapSet Slot64.zero y.slots (u * 16 + slot) (packSlot ((held u).map (·.1))),
               flushed := y.flushed || (held u).any (·.2) }) x
  | .stream slot bank acc row n c k =>
    let es := if dMode ws = 2 then chunkB (rd k) p o row c else chunkA (rd k) p o row c
    (List.range n).foldl (fun y u =>
      let key := u * 64 + bank * 32 + acc
      let hs := unpackSlot ce (mapGet Slot64.zero y.slots (u * 16 + slot))
      let a := if c = 0 then accZero (dAfmt ws) else mapGet Acc.zero y.accs key
      let ab := if dMode ws = 2 then (hs, es.map (·.1)) else (es.map (·.1), hs)
      let r := accChunk o.flush (dAfmt ws) (fmtOfB (dAfmt ws) (dBfmt ws)) (a, false) ab.1 ab.2
      { y with accs := mapSet Acc.zero y.accs key r.1, flushed := y.flushed || r.2 }) { x with flushed := x.flushed || es.any (·.2) }
  | .drain bank acc line elem n =>
    let rs := (List.range n).map (fun u => portElem cv p o (mapGet Acc.zero x.accs (u * 64 + bank * 32 + acc)) line (elem + u))
    let b := resBytes (dDfmt ws)
    { x with flushed := x.flushed || rs.any (·.2),
             out := x.out ++ [(dWord ws 8 + line * dStride ws 9 + elem * b, rs.flatMap (fun r => leBytes b r.1))] }

/-- The first `n` steps of an operation on an array's stores. -/
def runSteps (rd : Nat → Bool → Nat → Byte) (cv : Bool → Nat → Byte) (p : Nat) (o : ArrayOp) (u : ArrayUnit) (n : Nat) : ArrayRun :=
  ((opSteps o.words).take n).foldl (runStep rd cv p o) { slots := u.slots, accs := u.accs, flushed := false, out := [] }

/-- All of them. -/
def runOp (rd : Nat → Bool → Nat → Byte) (cv : Bool → Nat → Byte) (p : Nat) (o : ArrayOp) (u : ArrayUnit) : ArrayRun :=
  runSteps rd cv p o u (opSteps o.words).length

/-- Two areas, as address and length with the slot of the group that names them, share a byte. -/
def opAreasMeet (p : Nat) (g h : Nat) (a b : Nat × Nat) : Bool :=
  match placeOf p a.1, placeOf p b.1 with
  | .staging x, .staging y => g == h && rangesMeet x a.2 y b.2
  | .basin x, .basin y => rangesMeet x a.2 y b.2
  | _, _ => false

/-- The new operation reads what the earlier one writes, or writes what it reads or writes (R152). -/
def opHeldBy (p : Nat) (new old : ArrayOp) : Bool :=
  let meet := opAreasMeet p new.g old.g
  let d (o : ArrayOp) : List (Nat × Nat) := (descriptorAreas o.words).drop ((descriptorAreas o.words).length - 1)
  (descriptorAreas new.words).any (fun a => (d old).any (meet a)) || (d new).any (fun a => (descriptorAreas old.words).any (meet a))

/-- The task that issued an operation or a command has been ended (R158, R209). -/
def opEnded (s : State) (p g slot use : Nat) : Bool :=
  match getGroup s p g with
  | some gr => gr.ended
  | none => mapGet 0 s.fountain.uses slot == use && (getSlot s slot).any (fun sl => sl.ending.isSome)

/-- The staging memory of the group that issued it; none once it has left. -/
def opStg (s : State) (p g : Nat) : Sparse Byte := ((getGroup s p g).map (·.stg)).getD []

/-- ARRAY_OP_START: an array starts the oldest operation of its queue: when it has none under way, or when the one before has
streamed its last chunk and writes its last results, and no area that they share holds the new one (R136, R151, R152). An operation
whose task has been ended is discarded instead (R158).
Log entries 9 (DESIGN CHOICE); 14 (DEDUCED). -/
def execArrayOpStart (p a : Nat) (s : State) : Host.Outcome State Fault Refusal :=
  let c := getPos s p
  let u := getArray c a
  match u.queue with
  | [] => .next s
  | o :: rest =>
    if opEnded s p o.g o.slot o.use then .next (setArray s p a { u with queue := rest })
    else if (u.running.isSome && u.draining.isSome) || u.started.any (fun r => opHeldBy p o r.op) || chanFull s c then .next s
    else
      let (seed, s1) := takeFree s
      let r : RunningOp := { op := o, stg := opStg s p o.g, basin := c.basin, log := [], cut := none, seed := seed }
      let before := u.running.map (fun x => { x with cut := some x.log.length })
      .next (setArray s1 p a { u with queue := rest, running := some r, draining := before })

/-- Write bytes at a staging or Basin address of a group. -/
def writeAt (s : State) (p g a wtag : Nat) (bs : List Byte) : State :=
  match placeOf p a with
  | .staging off =>
    (match getGroup s p g with
     | none => s
     | some gr =>
       let s1 := setPos s p (logWrite (getPos s p) g { basin := false, off := off, data := bs })
       setGroup s1 p g (some { gr with stg := stgWrite gr.stg off bs }))
  | .basin off => setPos s p (basinWrite (getPos s p) off wtag bs)
  | _ => s

/-- The writer tag of the task that issued an operation, placed `use` times in its slot (R456). -/
def workTag (s : State) (slot use : Nat) : Nat := s.pool.device * 2 ^ 26 + use % 256 * 2 ^ 16 + slot

/-- The task that issued an operation is still the one in its slot, and runs. -/
def taskThere (s : State) (slot use : Nat) : Bool :=
  mapGet 0 s.fountain.uses slot == use && (getSlot s slot).any (fun sl => sl.state == 3 || sl.state == 4)

/-- FLUSHED of the task that issued an operation (R174). -/
def noteWorkFlush (s : State) (slot use : Nat) (flushed : Bool) : State :=
  noteFlush s slot (flushed && mapGet 0 s.fountain.uses slot == use)

/-- A word without a valid value that an operation has read: its task fails, or, where it has retired, only the record is left
(R454, R464). -/
def workFail (s : State) (slot use : Nat) (r : ErrRec) (b : BadWord) : State :=
  if taskThere s slot use then dirtyFail s slot r b
  else
    let (ex, s1) := badExtra s b
    bump (raise s1 { r with code := Code.checkFailed, sev := 2, slot := slot, addr := b.addr, writer := b.tag, extra := ex }) Key.unrecovered 1

/-- `n` bytes that the manual leaves undefined.
Log entry 13 (DESIGN CHOICE). -/
def freeBytes (seed n : Nat) : List Byte := (List.range n).map (fun i => Config.freeByte (seed * 2 ^ 18 + i))

/-- The operand rows of an operation: the address of the first row, how many, the stride and the bytes of one (R141, R150). -/
def operandRows (ws : List Nat) : List (Nat × Nat × Nat × Nat) :=
  [(dWord ws 2, dM ws, dStride ws 3, rowBytesA ws), (dWord ws 4, dN ws, dStride ws 5, rowBytesB (dBfmt ws) (dK ws))] ++
  (if dCfmt ws = 0 then [] else [(dWord ws 6, dLines ws, dStride ws 7, lineBytesC ws)]) ++
  (if dBfmt ws < 8 then [] else [(dWord ws 10, if dBfmt ws = 8 then 1 else dN ws, dStride ws 11, scaleBytes ws)])

/-- The source of the stationary store: A in mode 2, else B with its scales or table (R149). -/
def heldRows (ws : List Nat) : List (Nat × Nat × Nat × Nat) :=
  if dMode ws = 2 then (operandRows ws).take 1
  else ((operandRows ws).drop 1).take 1 ++ (if dBfmt ws < 8 then [] else (operandRows ws).drop ((operandRows ws).length - 1))

/-- A 16-byte word of some rows: which one has failed the manual leaves open, a free choice. Its address.
Log entry 10 (DEDUCED). -/
def someWord (k : Nat) (rows : List (Nat × Nat × Nat × Nat)) : Nat :=
  match rows[Config.freeNat k % rows.length]? with
  | none => 0
  | some x => x.1 + Config.freeNat (k + 1) % x.2.1 * x.2.2.1 + Config.freeNat (k + 2) % ((x.2.2.2 + 15) / 16) * 16

/-- A write in the list reaches an area of rows. -/
def rowsWritten (p : Nat) (log : List Written) (rows : List (Nat × Nat × Nat × Nat)) : Bool :=
  rows.any (fun x => (List.range x.2.1).any (fun i => log.any (fun w =>
    match placeOf p (x.1 + i * x.2.2.1) with
    | .staging off => !w.basin && rangesMeet off x.2.2.2 w.off w.data.length
    | .basin off => w.basin && rangesMeet off x.2.2.2 w.off w.data.length
    | _ => false)))

/-- A failed word of a stationary store or a latent buffer whose source has been written: CHECK_FAILED, with no replay
(R159, R210, R455).
Log entry 8 (DEDUCED). -/
def storedFail (s : State) (n use : Nat) (r : ErrRec) (addr : Nat) (word : List Byte) : State :=
  let (ex, s1) := badExtra s { place := 3, addr := addr, tag := 0, reg := 0, word := word }
  let rec_ : ErrRec := { r with code := Code.checkFailed, sev := 2, addr := addr, extra := ex }
  bump (if taskThere s n use then faultTask s1 n rec_ else raise s1 { rec_ with slot := n }) Key.unrecovered 1

/-! ### Fragments (R126, R155) -/

/-- AFMT and BFMT of a fragment's MOD (R126). -/
def fragFmts (mod : Nat) : Nat × Nat := [(0, 0), (1, 1), (0, 1), (1, 0), (2, 2), (3, 3), (4, 4)].getD mod (0, 0)

/-- A run of registers in every lane, by register * 32 + lane. -/
def regBlock (gr : Group) (r n : Nat) : List Nat := (List.range n).flatMap (fun i => (List.range 32).map (fun l => getReg gr (r + i) l))

/-- MFRAG: reads its operands at issue and enters the fragment queue of its pipeline's array (R92, R126, R155).
Log entries 10 (DEDUCED); 11 (DEDUCED); 38 (DEDUCED). -/
def execMfrag (p g : Nat) (w : InstrBits) (s : State) : Host.Outcome State Fault Refusal :=
  let cRegs := if fSrcC w = 255 then [] else [(fSrcC w, 8)]
  .next (issue p g 0x81 w
    { valid := decide (fMod w ≤ 6) && fUnit w == 0 && fld w 7 0 == 0, reads := [(fSrcA w, 4), (fSrcB w, 4)] ++ cRegs, writes := [(fDst w, 8)] }
    (fun c st =>
      let a := c.g % 4
      let u := getArray (getPos st c.p) a
      if c.ex ≠ 0xFFFFFFFF#32 then faultAt st c Code.matrixDiverged 0
      else if u.frags.length ≥ 4 ∨ getCount c.gr (fCounter c.w) ≥ 255 then st
      else
        let f : Fragment := { fmt := fMod c.w, a := regBlock c.gr (fSrcA c.w) 4, b := regBlock c.gr (fSrcB c.w) 4,
                              c := if fSrcC c.w = 255 then none else some (regBlock c.gr (fSrcC c.w) 8), dst := fDst c.w,
                              g := c.g, slot := c.gr.slot, counter := fCounter c.w, flush := ctxFlush c }
        finishAt c (addCount c.gr (fCounter c.w)) (setArray st c.p a { u with frags := u.frags ++ [f] })) s)

/-- MFRAG_WINDOW_START: a window of 4 cycles runs a fragment when one waits and the previous window ran none or no operation
is streaming (R155). The results of earlier windows may still be unwritten: within the 8 cycles they have, those of two. -/
def execMfragWindowStart (p a : Nat) (s : State) : Host.Outcome State Fault Refusal :=
  let u := getArray (getPos s p) a
  match u.frags with
  | [] => .next (setArray s p a { u with lastFrag := false })
  | f :: rest =>
    if u.lastFrag && u.running.isSome then .next (setArray s p a { u with lastFrag := false })
    else if 3 ≤ u.windowed.length then .next s
    else .next (setArray s p a { u with windowed := u.windowed ++ [f], frags := rest, lastFrag := true })

/-- The fragments that may complete next: the first of each group, for a group's complete in their order of issue (R126). -/
def firstOfGroups : List Fragment → List Fragment
  | [] => []
  | f :: fs => f :: (firstOfGroups fs).filter (fun x => x.g != f.g)

/-- The fragment that completes next. Of two groups' the manual leaves the order open (R155): a free choice.
Log entry 10 (DEDUCED). -/
def nextFragment (s : State) (fs : List Fragment) : Option Fragment :=
  let xs := firstOfGroups fs
  if xs.length ≤ 1 then xs.head? else xs[Config.freeNat s.free % xs.length]?

/-- Element `k` of line `i` of a fragment's A, or of column `i` of its B (R126). -/
def fragElem (wide : Bool) (block : List Nat) (i k : Nat) : Nat :=
  let half := if wide then 8 else 16
  let per := if wide then 2 else 4
  let lane := i + 16 * (k / half)
  let x := block.getD ((k % half / per) * 32 + lane) 0
  if wide then x / 2 ^ (16 * (k % per)) % 65536 else x / 2 ^ (8 * (k % per)) % 256

/-- Element (r, col) of a fragment's D (R126, R167, R169, R171).
Log entry 11 (DEDUCED). -/
def fragResult (f : Fragment) (r col : Nat) : Flushed :=
  let fm := fragFmts f.fmt
  let wide := decide (5 ≤ f.fmt)
  let k := if wide then 16 else 32
  let as := (List.range k).map (fun j => feedElem f.flush fm.1 (fragElem wide f.a r j))
  let bs := (List.range k).map (fun j => feedElem f.flush fm.2 (fragElem wide f.b col j))
  let cv := match f.c with
    | none => 0
    | some b => b.getD ((col % 8) * 32 + (2 * r + col / 8)) 0
  let av := as.map (·.1)
  let bv := bs.map (·.1)
  let fl := (as ++ bs).any (·.2)
  if wide then
    let x := f16Chunk f.flush (opFmt fm.1) (opFmt fm.2) cv av bv
    (x.1, x.2 || fl)
  else if f.fmt = 4 then (int8Chunk cv av bv, false)
  else
    let x := portFp8 f.flush (fp8Chunk (opFmt fm.1) (opFmt fm.2) (.fin 0) av bv) (if f.c.isSome then 1 else 0) 0 cv none
    (x.1, x.2 || fl)

/-- MFRAG_COMPLETE: a fragment writes all its D registers and its counter falls (R155). `chk` failing is an operand
register with no valid value: dirty, produced by the group's own task (R454).
Log entry 10 (DEDUCED). -/
def execMfragComplete (p a : Nat) (chk : Chk) (s : State) : Host.Outcome State Fault Refusal :=
  let u := getArray (getPos s p) a
  match nextFragment s u.windowed with
  | none => .next s
  | some f =>
    let s1 := setArray { noteTransient s chk with free := s.free + 1 } p a { u with windowed := u.windowed.erase f }
    match getGroup s1 p f.g with
    | none => .next s1
    | some gr =>
      if gr.ended || gr.slot != f.slot then .next s1
      else if chk = .failed then
        .next (dirtyFail s1 f.slot { code := Code.checkFailed, sev := 2, origin := .core, unit := p, group := gr.index }
          { place := 1, addr := 0, tag := taskTag s f.slot, reg := f.dst, word := [] })
      else
        let cells := (List.range 32).flatMap (fun l => (List.range 8).map (fun i => (i, l, fragResult f (l / 2) (8 * (l % 2) + i))))
        let gr1 := cells.foldl (fun x e => setReg x (f.dst + e.1) e.2.1 e.2.2.1) gr
        let s2 := noteFlush (setGroup s1 p f.g (some gr1)) f.slot (cells.any (fun e => e.2.2.2))
        .next (fallCount s2 p f.g f.slot f.counter)

end Sys2Proof.Machine
end

