-- ==== Sys2Proof/Machine/Drain.lean ====
section
/-! DEFINITION. Withdrawing cores and classes (R68, R379 to R381), the loss of a word of the device reserve (R459), and the
entry of a task into the staging window (R50). -/

namespace Sys2Proof.Machine

/-- A drain begins: its deadline uses the DRAIN_LIMIT in force now (R380).
Log entry 93 (DEDUCED). -/
def beginDrain (s : State) (fn : DrainFn) : State :=
  let ns := getObj s Key.drainLimit * 1000000
  { s with keeper := { s.keeper with drains := s.keeper.drains ++ [⟨fn, now s + ns, stamp s + ns⟩] } }

/-- A task in state 3 that holds groups on a function being withdrawn goes to state 4 (R64). -/
def beginDraining (s : State) (n : Nat) : State :=
  modSlot s n (fun sl => if sl.state = 3 ∧ sl.ending = none then { sl with state := 4 } else sl)

/-- A core is withdrawn (R68, R380).
Log entry 93 (DEDUCED). -/
def withdrawCore (s : State) (p : Nat) : State :=
  if coreState s p ≠ 1 then s
  else
    let s1 := beginDrain (setCoreState s p 2) (.core p)
    (((coreGroups (getPos s p)).map (fun e => e.2.slot)).dedup).foldl beginDraining s1

/-- What the withdrawal of class `c` does to one of its tasks (R68, R381). -/
def withdrawTask (s : State) (n : Nat) : State :=
  match getSlot s n with
  | none => s
  | some sl => if sl.state = 3 then beginDraining s n
    else if sl.state = 1 ∨ sl.state = 2 ∨ sl.state = 7 then
      endTask s n { code := Code.functionWithdrawn, sev := 2, origin := .fountain }
    else s

/-- A class is withdrawn (R68, R380). -/
def withdrawClass (s : State) (c : Nat) : State :=
  if classState s c ≠ 0 then s
  else
    let s1 := beginDrain (setClassState s c 1) (.cls c)
    evalWaits (((liveSlots s).filter (fun e => recClass e.2.words == c)).foldl (fun st e => withdrawTask st e.1) s1)

/-- A word of the device reserve has failed its reread: it is reloaded from the shadow, or what it held is lost (R459). -/
def reserveFail (s : State) : ReserveChk → State
  | .ok => s
  | .reloaded => bump s Key.cleanRecoveries 1
  | .lost (some n) =>
    let s1 := raiseUnit s Code.reserveLost 2 .sluice n []
    let users := (liveSlots s).filter (fun e => activeTask e.2 && (seqNames e.2).contains n)
    evalWaits (freeSeq (users.foldl (fun st e => endTask st e.1 { code := Code.reserveLost, sev := 2, origin := .sluice }) s1) n)
  | .lost none =>
    let s1 := raiseUnit s Code.reserveLost 3 .sluice 0xFFFFFFFF []
    (List.range 8).foldl withdrawClass { s1 with sluice := { s1.sluice with reserveLost := true } }

/-- A satisfied task enters the staging window and one staging request goes to the Sluice (R50, R273). -/
def execStagingWindowEntry (rs : ReserveChk) (s : State) : Host.Outcome State Fault Refusal :=
  if !(inService s) || fountainHeld s || inCisReset s || s.sluice.reserveLost then .next s
  else
    match nextForWindow s with
    | none => .next s
    | some n =>
      let s1 := modSlot s n (fun sl => if sl.state = 7 then { sl with replayWait := none } else { sl with state := 2 })
      let s2 := reserveFail s1 rs
      if slotState s2 n = slotState s1 n ∧ s2.sluice.reserveLost = false then .next (evalWaits (requestStaging s2 n))
      else .next s2

end Sys2Proof.Machine
end

