-- ==== Sys2Proof/Machine/Weir.lean ====
section
/-! DEFINITION. The Weir engines (chapter 7): command blocks and their checks, the latent expansion unit, the layout
transformer. -/

namespace Sys2Proof.Machine

/-! ### Command blocks (R192, R193, R197) -/

/-- A nonzero word beyond 32 bits at a place whose upper half is reserved. -/
def upperSet (ws : List Nat) (is : List Nat) : Bool := is.any (fun i => decide (dWord ws i ≥ 2 ^ 32))

/-- The field checks of an expansion command (R193, R195). `keepOk`: the unit's previous command came from the same group
and completed.
Log entry 36 (DEDUCED). -/
def expandBad (ws : List Nat) (keepOk : Bool) : Bool :=
  decide (xOrder ws > 1) || decide (xOfmt ws > 1) || bits (dWord ws 0) 57 48 != 0 || bits (dWord ws 0) 23 12 != 0 ||
  decide (xRank ws < 64) || decide (1024 < xRank ws) || xRank ws % 64 != 0 || xRows ws == 0 || decide (4096 < xRows ws) ||
  upperSet ws [3, 5, 6] || dWord ws 7 != 0 || decide (xTokens ws < xFirst ws + xCount ws) || (xKeep ws && !keepOk) ||
  decide (dStride ws 3 < xRank ws) || decide (dStride ws 5 < xLineBytes ws)

/-- The field checks of a layout command (R197, R200).
Log entry 36 (DEDUCED). -/
def layoutBad (ws : List Nat) : Bool :=
  decide (yOp ws > 1) || yEsize ws == 3 || bits (dWord ws 0) 56 45 != 0 || bits (dWord ws 0) 31 29 != 0 ||
  bits (dWord ws 0) 15 6 != 0 || yRows ws == 0 || decide (4096 < yRows ws) || yCols ws == 0 || decide (4096 < yCols ws) ||
  upperSet ws [2, 4] || [5, 6, 7].any (fun i => dWord ws i != 0) ||
  (yOp ws == 0 && (yDstSeq ws || yCol0 ws != 0)) ||
  (yOp ws == 1 && (decide (64 < yCol0 ws + yRows ws) || decide (1024 / yElem ws < yCols ws) || dStride ws 4 != 0))

/-- The words of a command that hold addresses and strides (R189). -/
def weirAligned (unit : Nat) (ws : List Nat) : List Nat :=
  if unit = 0 then (if xSrcSeq ws || xKeep ws then [] else [dWord ws 1]) ++ [dWord ws 2, dStride ws 3, dWord ws 4, dStride ws 5]
  else [dWord ws 1, dStride ws 2] ++ (if yDstSeq ws then [] else [dWord ws 3]) ++ [dStride ws 4]

/-- The first code of R208 that a command breaks at the copy. -/
def weirCode (s : State) (p staging unit : Nat) (ws : List Nat) (keepOk : Bool) : Option Nat :=
  if (if unit = 0 then expandBad ws keepOk else layoutBad ws) then some Code.weirCommand
  else if (weirAligned unit ws).any (fun a => a % 64 != 0) then some Code.misalignedAccess
  else
    match allAreas s p staging Code.weirSource (weirSources unit ws), allAreas s p staging Code.weirSource (weirDest unit ws) with
    | .error k, _ => some k
    | .ok _, .error k => some k
    | .ok src, .ok dst => if dst.any (fun d => src.any (areasMeet d)) then some Code.weirCommand else none

/-! ### Queues (R188, R193) -/

/-- Engine 0 or 1 of a position (R127). -/
def getEngine (c : Pos) (unit : Nat) : Engine := if unit = 0 then c.lxu else c.lyt

def setEngine (s : State) (p unit : Nat) (e : Engine) : State :=
  let c := getPos s p
  setPos s p (if unit = 0 then { c with lxu := e } else { c with lyt := e })

/-- The engine has room: four wait behind the one running. -/
def engineRoom (e : Engine) : Bool := decide (e.queue.length + (if e.running.isSome then 1 else 0) < 5)

/-- A group's identity for KEEP: its task's placing in a slot, and its index. -/
def groupIdent (s : State) (slot index : Nat) : Nat × Nat := (mapGet 0 s.fountain.uses slot * 65536 + slot, index)

/-- KEEP may be used: nothing waits or runs in the unit, and its last command came from this group and completed (R193).
Log entry 37 (DEDUCED). -/
def mayKeep (s : State) (e : Engine) (gr : Group) : Bool :=
  e.queue.isEmpty && e.running.isNone && e.lastGroup == some (groupIdent s gr.slot gr.index)

/-- WEIR (R127, R188): checks at issue, then at the copy; a command that passes enters the engine's queue.
Log entries 19 (DEDUCED); 38 (DEDUCED). -/
def execWeir (p g : Nat) (w : InstrBits) (s : State) : Host.Outcome State Fault Refusal :=
  .next (issue p g 0x82 w
    { valid := fMod w == 0 && fDst w == 0 && fSrcB w == 0 && fSrcC w == 0 && fld w 7 0 == 0 && decide (fUnit w ≤ 1),
      reads := [(fSrcA w, 1)], writes := [] }
    (fun c st =>
      let unit := fUnit c.w
      let e := getEngine (getPos st c.p) unit
      if c.ex = 0#32 then finishAt c c.gr st
      else if !(engineRoom e) ∨ getCount c.gr (fCounter c.w) ≥ 255 then st
      else
        let off := laneA c (issuer c)
        if off % 64 ≠ 0 then faultAt st c Code.misalignedAccess (aliasStaging + off)
        else if c.gr.staging * 256 < off + 64 then faultAt st c Code.stagingRange (aliasStaging + off)
        else
          let ws := blockWords c.gr off 8
          match weirCode st c.p c.gr.staging unit ws (mayKeep st e c.gr) with
          | some k => faultAt st c k (aliasStaging + off)
          | none =>
            let o : WeirCmd := { words := ws, g := c.g, slot := c.gr.slot, use := mapGet 0 st.fountain.uses c.gr.slot, counter := fCounter c.w, flush := ctxFlush c }
            finishAt c (addCount c.gr (fCounter c.w)) (setEngine st c.p unit { e with queue := e.queue ++ [o] })) s)

/-! ### Starting a command (R196, R202, R278) -/

/-- The reference that a command translates. -/
def cmdRef (unit : Nat) (ws : List Nat) : Option Nat :=
  if unit = 0 then (if xSrcSeq ws && !(xKeep ws) then some (dWord ws 1) else none)
  else (if yDstSeq ws then some (dWord ws 3) else none)

/-- Fabric cycles that a running command has taken (R207). -/
def runCycles (s : State) (e : Engine) : Nat := match e.running with
  | some r => 2 * (now s - r.since)
  | none => 0

/-- The engine of a position stops running its command, and its busy counter takes the command's cycles (R207). -/
def endRun (s : State) (p unit : Nat) : State :=
  let e := getEngine (getPos s p) unit
  bump (setEngine s p unit { e with running := none, lastGroup := none }) (if unit = 0 then Key.lxuBusy p else Key.lytBusy p) (runCycles s e)

/-- The Sluice faults the task of an engine's command. Where that task has retired, the command ends. -/
def faultCmd (s : State) (p unit : Nat) (o : WeirCmd) (code : Nat) : State :=
  let r : ErrRec := { code := code, sev := 2, origin := .weir, unit := p, group := ((getGroup s p o.g).map (·.index)).getD 0xFFFFFFFF }
  if taskThere s o.slot o.use then faultTask s o.slot r else endRun (raise s { r with slot := o.slot }) p unit

/-- The parts of a latent page that a command loads: its tokens' scales, then its tokens' rows. -/
def xParts (ws : List Nat) : List (Nat × Nat) := [(0xFF00 + 4 * xFirst ws, 4 * xCount ws), (xFirst ws * xRank ws, xCount ws * xRank ws)]

/-- The sectors that loading a page's parts reads. -/
def xSectors (ws : List Nat) : Nat := ((xParts ws).map (fun e => (e.1 + e.2 - 1) / 32 - e.1 / 32 + 1)).sum

/-- The class of the task behind a command. -/
def cmdClass (s : State) (o : WeirCmd) : Nat := ((getSlot s o.slot).map (fun sl => recClass sl.words)).getD 0

/-- The address that a reference of a running command comes to mean. An expansion reads a page that lies in the Cistern through
the down port (R196). -/
def resolveCmd (s : State) (p unit a : Nat) : State :=
  let e := getEngine (getPos s p) unit
  match e.running with
  | none => s
  | some r =>
    let s1 := setEngine s p unit { e with running := some { r with page := some a } }
    if unit = 0 ∧ hasHome s a = true then
      startJob s1 (posHalf p) p (cmdClass s r.cmd) (workTag s r.cmd.slot r.cmd.use) (.weir p 0) []
        ((xParts r.cmd.words).flatMap (fun x => readOps (a + x.1) x.2))
    else s1

/-- A store to a page that is not writable. -/
def readOnlyPage (s : State) (seq page : Nat) : Bool :=
  match getSeq s seq with
  | some q => !(pageWritable s seq page q)
  | none => true

/-- Translate a running command's reference: a hit answers at once, a miss begins a walk.
Log entry 37 (DEDUCED). -/
def translateCmd (s : State) (p unit : Nat) (o : WeirCmd) (ref : Nat) : State :=
  let seq := refSeq ref
  let page := refPage ref
  let write := unit == 1
  if ref / 2 ^ 48 ≠ 0 ∨ refByte ref ≠ 0 then faultCmd s p unit o Code.seqRefInvalid
  else
    match walkerFind (getPos s p) seq page with
    | some w =>
      if write && readOnlyPage s seq page then faultCmd s p unit o Code.seqReadOnly
      else
        let a := addrLocal (translated s p write w.loc 0)
        if onLostStack s a then faultCmd s p unit o Code.reservoirLost
        else resolveCmd (setPos s p (walkerUse (getPos s p) seq page (if unit = 0 then xSectors o.words else 0))) p unit a
    | none => (beginWalk s p seq page write (.engine unit)).2

/-- A command's reference must wait: its page misses in the walker while sixteen walks are outstanding (R202), or it needs a
walk or the Cistern while a Cistern-only reset runs (R211). -/
def refHeld (s : State) (p : Nat) (ref : Nat) : Bool :=
  let c := getPos s p
  match walkerFind c (refSeq ref) (refPage ref) with
  | none => decide (16 ≤ c.walks.length) || inCisReset s
  | some w => inCisReset s && (match w.loc with
    | .memory _ => true
    | .frame _ _ => false)

/-- Start the command at the front of an engine's queue, if it is of the kind that `want` allows; one whose task has been
ended is discarded instead (R209).
Log entries 9 (DESIGN CHOICE); 14 (DEDUCED). -/
def startCmd (s : State) (p unit : Nat) (want : List Nat → Bool) : State :=
  let c := getPos s p
  let e := getEngine c unit
  match e.running, e.queue with
  | none, o :: rest =>
    let ref := cmdRef unit o.words
    if opEnded s p o.g o.slot o.use then setEngine s p unit { e with queue := rest }
    else if !(want o.words) || ref.any (refHeld s p) || chanFull s c then s
    else
      let (seed, s1) := takeFree s
      let r : RunningCmd := { cmd := o, stg := opStg s p o.g, basin := c.basin, log := [], seed := seed, page := none, stored := false,
                              since := now s }
      let s2 := setEngine s1 p unit { e with queue := rest, running := some r }
      match ref with
      | none => s2
      | some x => translateCmd s2 p unit o x
  | _, _ => s

/-- LXU_EXPAND: the latent expansion unit starts a command (R196). -/
def execLxuExpand (p : Nat) (s : State) : Host.Outcome State Fault Refusal := .next (startCmd s p 0 (fun _ => true))

/-- LYT_TRANSPOSE: the layout transformer starts a TRANSPOSE (R198). -/
def execLytTranspose (p : Nat) (s : State) : Host.Outcome State Fault Refusal := .next (startCmd s p 1 (fun ws => yOp ws == 0))

/-- LYT_INGEST: the layout transformer starts an INGEST (R200). -/
def execLytIngest (p : Nat) (s : State) : Host.Outcome State Fault Refusal := .next (startCmd s p 1 (fun ws => yOp ws == 1))

/-! ### Expansion (R191, R194 to R196) -/

/-- The latent buffer with bytes put in. -/
def latentPut (m : Sparse (Option Byte)) (off : Nat) (bs : List Byte) : Sparse (Option Byte) := mapSetList none m off (bs.map some)

/-- A byte of the latent buffer; what no load put there is a free value.
Log entry 15 (DESIGN CHOICE). -/
def latentByte (m : Sparse (Option Byte)) (seed off : Nat) : Byte :=
  match mapGet none m off with
  | some b => b
  | none => Config.freeByte (seed * 2 ^ 18 + 2 ^ 17 + off)

/-- What the home slices have answered a running command. -/
def cmdGot (s : State) (p unit : Nat) : List Served := ((jobOf s (.weir p unit)).map (·.got)).getD []

/-- A running command waits for home slices. -/
def cmdWaits (s : State) (p unit : Nat) : Bool := (jobOf s (.weir p unit)).any (fun j => j.left != 0)

/-- The memory that a running command reads: `k` tells its read of the latent page (1) from its read of rows or of a source (0).
Log entry 9 (DESIGN CHOICE). -/
def cmdView (r : RunningCmd) (k : Nat) (basin : Bool) (off : Nat) : Byte :=
  seenByte r.seed k r.log basin off (memByte r.stg r.basin basin off)

/-- The latent buffer of a command: kept, or loaded from the page in the Cistern, in a frame, or at an address of the core's
own. -/
def loadLatent (p : Nat) (got : List Served) (rd : Bool → Nat → Byte) (e : Engine) (r : RunningCmd) : Sparse (Option Byte) :=
  let ws := r.cmd.words
  let put (f : Nat × Nat → List Byte) : Sparse (Option Byte) := (xParts ws).foldl (fun m x => latentPut m x.1 (f x)) []
  if xKeep ws then e.latent
  else
    match cmdRef 0 ws, r.page with
    | some _, some a =>
      (match basinAt a with
       | some (_, off) => put (fun x => (List.range x.2).map (fun i => rd true (off + x.1 + i)))
       | none => put (fun x => gotBytes got (a + x.1) x.2))
    | _, _ => put (fun x => (List.range x.2).map (fun i => reader rd p (dWord ws 1) (x.1 + i)))

/-- Result (t, r) of an expansion, from the latent buffer and the row's bytes (R194). -/
def expandElem (flush : Bool) (ws : List Nat) (lat row : Nat → Byte) (t : Nat) : Flushed :=
  let n := xRank ws
  let cs := (List.range n).map (fun k => feedElem flush 0 (lat (t * n + k)).toNat)
  let rs := (List.range n).map (fun k => feedElem flush 0 (row k).toNat)
  let acc := accChunks flush 0 fmtE4M3 64 (n / 64) (rs.map (·.1)) (cs.map (·.1)) (.win (.fin 0), false)
  let sum : FVal := match acc.1 with
    | .win w => Win.plus w (.fin false 0 0)
    | _ => .nan
  let scale := FVal.mul (fDecode fmtF32 (dWord ws 6 % 2 ^ 32)) (fDecode fmtF32 (readNat lat (0xFF00 + 4 * t) 4))
  let v : FVal := match scale with
    | .fin _ _ _ => scaled sum scale
    | _ => .nan
  let f := if xOfmt ws = 0 then fmtE4M3 else fmtBF16
  let out := fFlush f flush (fEncode f (xOfmt ws == 0) v)
  (out.1, out.2 || (cs ++ rs).any (·.2))

/-- Where result (t, r) lies (R195). -/
def expandAddr (ws : List Nat) (t r : Nat) : Nat :=
  if xOrder ws = 0 then dWord ws 4 + (t - xFirst ws) * dStride ws 5 + r * xElem ws
  else dWord ws 4 + r * dStride ws 5 + t * xElem ws

/-- The results of the first `rows` rows of an expansion with their addresses. -/
def expandRows (rd : Bool → Nat → Byte) (p : Nat) (o : WeirCmd) (lat : Nat → Byte) (rows : Nat) : List (Nat × Flushed) :=
  (List.range rows).flatMap (fun r =>
    let row := reader rd p (dWord o.words 2 + r * dStride o.words 3)
    (List.range (xCount o.words)).map (fun i =>
      (expandAddr o.words (xFirst o.words + i) r, expandElem o.flush o.words lat row (xFirst o.words + i))))

/-- The stationary store after the first `rows` rows of W: block `b` of 32 rows fills one half of its slots, chunk by chunk
(R196). -/
def expandSlots (rd : Bool → Nat → Byte) (p : Nat) (o : WeirCmd) (slots : Sparse (List Byte)) (rows : Nat) : Sparse (List Byte) :=
  (List.range rows).foldl (fun m r => (List.range (xRank o.words / 64)).foldl (fun m c =>
    mapSet Slot64.zero m (r % 32 * 32 + r / 32 % 2 * 16 + c)
      ((List.range 64).map (fun k => BitVec.ofNat 8 (feedElem o.flush 0 (reader rd p (dWord o.words 2 + r * dStride o.words 3) (c * 64 + k)).toNat).1))) m)
    slots

/-! ### Layout (R198 to R201) -/

/-- The moves of a layout command in the order of the source lines: source address, and destination address or offset in the value
page. Where destination lines overlap, the later move's bytes stay.
Log entry 36 (DEDUCED). -/
def layoutMoves (ws : List Nat) : List (Nat × Nat) :=
  let e := yElem ws
  (List.range (yRows ws)).flatMap (fun i => (List.range (yCols ws)).map (fun j =>
    (dWord ws 1 + i * dStride ws 2 + j * e,
     if yOp ws = 0 then dWord ws 3 + j * dStride ws 4 + i * e else (j * 64 + yCol0 ws + i) * e)))

/-- The bytes of a page that an INGEST writes, by line: mask and bytes. -/
def ingestLines (rd : Bool → Nat → Byte) (p : Nat) (ws : List Nat) : List (Nat × Nat × List Byte) :=
  let e := yElem ws
  let cells := (layoutMoves ws).map (fun m => (m.2, (List.range e).map (reader rd p m.1)))
  ((cells.map (fun c => c.1 / 128)).dedup).map (fun ln => (ln, blockWrite 128 ln cells))

/-! ### Completion (R190, R209) -/

/-- The elements that a command writes at addresses of the core's own, as addresses and lengths. -/
def destCells (unit : Nat) (ws : List Nat) : List (Nat × Nat) :=
  if unit = 0 then
    (List.range (xRows ws)).flatMap (fun r => (List.range (xCount ws)).map (fun i => (expandAddr ws (xFirst ws + i) r, xElem ws)))
  else if yDstSeq ws then []
  else (layoutMoves ws).map (fun m => ((if yOp ws = 0 then m.2 else dWord ws 3 + m.2), yElem ws))

/-- The stores of an INGEST's lines to a page at `a`. -/
def ingestOps (rd : Bool → Nat → Byte) (p a : Nat) (ws : List Nat) : List (Nat × ReqOp) :=
  (ingestLines rd p ws).flatMap (fun x => maskedOps ((a + x.1 * 128) / 128) x.2.1 x.2.2)

/-- A command that stops leaves its destination undefined; of an INGEST's sectors, those already sent complete (R209). Its walk
ends with it, and what it has asked of the slices finds nobody. An expansion (`lat` its latent buffer) has run a free number of its
blocks, and what they flushed is noted (R173, R174).
Log entry 13 (DESIGN CHOICE). -/
def stopCmd (s : State) (p unit : Nat) (rd : Bool → Nat → Byte) (o : WeirCmd) (lat : Nat → Byte) (page : Option Nat) : State :=
  let (k, s0) := takeFree s
  let rows := min (xRows o.words) (Config.freeNat k % (xRows o.words / 32 + 2) * 32)
  let e := getEngine (getPos s0 p) unit
  let s1 := if unit = 0 then
      noteWorkFlush (setEngine s0 p 0 { e with slots := expandSlots rd p o e.slots rows }) o.slot o.use ((expandRows rd p o lat rows).any (fun x => x.2.2))
    else s0
  let tag := workTag s o.slot o.use
  let s2 := (destCells unit o.words).zipIdx.foldl (fun st e => writeAt st p o.g e.1.1 tag (freeBytes (k * 2 ^ 24 + e.2) e.1.2)) s1
  let c := getPos s2 p
  let s3 := dropJobsFor (setPos s2 p { c with walks := c.walks.filter (fun w => w.who != .engine unit) }) (· == .weir p unit)
  match page with
  | some a =>
    if unit = 1 then
      startJob s3 (posHalf p) p (cmdClass s o) tag .post []
        ((ingestOps rd p a o.words).filter (fun x => Config.freeBit (k * 2 ^ 18 + x.1 % 2048)))
    else s3
  | none => s3

/-- The command is over: the counter falls and the unit remembers the group (R124, R193). -/
def endCmd (s : State) (p unit : Nat) (o : WeirCmd) : State :=
  match getGroup s p o.g with
  | none => s
  | some gr =>
    let e := getEngine (getPos s p) unit
    fallCount (setEngine s p unit { e with lastGroup := some (groupIdent s gr.slot gr.index) }) p o.g o.slot o.counter

/-- The rows of a command's operands at addresses of the core's own: the latent page's parts, and W; or a layout's source. -/
def latentRows (ws : List Nat) : List (Nat × Nat × Nat × Nat) := (xParts ws).map (fun x => (dWord ws 1 + x.1, 1, 0, x.2))
def rowsOfW (ws : List Nat) : List (Nat × Nat × Nat × Nat) := [(dWord ws 2, xRows ws, dStride ws 3, xRank ws)]
def cmdRows (unit : Nat) (ws : List Nat) : List (Nat × Nat × Nat × Nat) :=
  if unit = 0 then (if xSrcSeq ws || xKeep ws then [] else latentRows ws) ++ rowsOfW ws
  else [(dWord ws 1, yRows ws, dStride ws 2, yCols ws * yElem ws)]

/-- An operand word that has no valid value, by the memory that holds it (R464). -/
def wordAt (s : State) (p : Nat) (rd : Bool → Nat → Byte) (slot use a : Nat) : BadWord :=
  let word := (List.range 16).map (reader rd p a)
  match placeOf p a with
  | .basin off => { place := 6, addr := a, tag := mapGet 0 (getPos s p).basinTag (off / 256), reg := 0, word := word }
  | _ => { place := 2, addr := a, tag := workTag s slot use, reg := 0, word := word }

/-- An expansion's results written, and the command ended. -/
def finishExpand (s : State) (p : Nat) (rd : Bool → Nat → Byte) (r : RunningCmd) (lat : Sparse (Option Byte)) : State :=
  let out := expandRows rd p r.cmd (latentByte lat r.seed) (xRows r.cmd.words)
  let tag := workTag s r.cmd.slot r.cmd.use
  let s1 := out.foldl (fun st e => writeAt st p r.cmd.g e.1 tag (leBytes (xElem r.cmd.words) e.2.1)) s
  let s2 := noteWorkFlush s1 r.cmd.slot r.cmd.use (out.any (fun e => e.2.2))
  let u := getEngine (getPos s2 p) 0
  endCmd (setEngine s2 p 0 { u with latent := lat, slots := expandSlots rd p r.cmd u.slots (xRows r.cmd.words) }) p 0 r.cmd

/-- A layout command's writes: a TRANSPOSE's, or an INGEST's that names its page by address, end the command; an INGEST sends
its sectors to the page's home slices, and ends when all are accepted (R190, R200).
Log entry 13 (DESIGN CHOICE). -/
def finishLayout (s : State) (p : Nat) (rd : Bool → Nat → Byte) (e : Engine) (r : RunningCmd) : State :=
  let ws := r.cmd.words
  let tag := workTag s r.cmd.slot r.cmd.use
  match r.page with
  | some a =>
    if r.stored then endCmd (dropJobsFor s (· == .weir p 1)) p 1 r.cmd
    else startJob (setEngine s p 1 { e with running := some { r with stored := true, since := now s } }) (posHalf p) p (cmdClass s r.cmd) tag
      (.weir p 1) [] (ingestOps rd p a ws)
  | none =>
    endCmd ((layoutMoves ws).foldl (fun st m =>
      writeAt st p r.cmd.g (if yOp ws = 0 then m.2 else dWord ws 3 + m.2) tag ((List.range (yElem ws)).map (reader rd p m.1))) s) p 1 r.cmd

/-- The newest bytes of a sector, wherever they are: in its home slice, in a writeback buffer, or below (R247). -/
def newestSector (s : State) (n : Nat) : List Byte :=
  let g := homeSlice s (n * 32)
  if isPresent s g n then (sectorNow s g n).data
  else match (getSlice s g).wb.reverse.find? (fun w => w.sector == n) with
    | some w => w.data
    | none => (resRead s n).1

/-- A source that has been written while the command runs was written after its load, freely: the model does not say when the load
took place (R210).
Log entry 8 (DEDUCED). -/
def afterLoad (seed : Nat) : Bool := Config.freeBit (seed * 2 ^ 18 + 2 ^ 18 - 1)

/-- The source of the latent buffer has been written since the buffer was loaded (R210). Rows kept from an earlier command leave
it open here.
Log entry 8 (DEDUCED). -/
def latentStale (s : State) (r : RunningCmd) (p : Nat) : Bool :=
  let ws := r.cmd.words
  if xKeep ws then afterLoad r.seed
  else if xSrcSeq ws then (cmdGot s p 0).any (fun v => v.data != newestSector s v.sector)
  else rowsWritten p r.log (latentRows ws) && afterLoad r.seed

/-- The source of the stationary store, the rows of W, has been written since the store was loaded (R210).
Log entry 8 (DEDUCED). -/
def rowsStale (r : RunningCmd) (p : Nat) : Bool := rowsWritten p r.log (rowsOfW r.cmd.words) && afterLoad r.seed

/-- The failed word lies in the latent buffer, else in the stationary store.
Log entry 8 (DEDUCED). -/
def latentFailed (r : RunningCmd) : Bool := Config.freeBit (r.seed * 2 ^ 18 + 2 ^ 18 - 2)

end Sys2Proof.Machine
end

