-- ==== Sys2Proof/Machine/Walk.lean ====
section
/-! DEFINITION. The page walker, demand faults, Sluice frames and the scrubber (R202 to R205, R278 to R280). -/

namespace Sys2Proof.Machine

/-- Find a walk of a position. -/
def findWalk (s : State) (p id : Nat) : Option Walk := (getPos s p).walks.find? (fun w => w.id == id)

/-- Take a walk off the walker. -/
def endWalk (s : State) (p id : Nat) : State :=
  let c := getPos s p
  setPos s p { c with walks := c.walks.filter (fun w => w.id != id) }

/-- Set how far a walk has come. -/
def markWalk (s : State) (p id : Nat) (st : WalkState) : State :=
  let c := getPos s p
  setPos s p { c with walks := c.walks.map (fun w => if w.id = id then { w with st := st } else w) }

/-- The access that waited for a walk goes on, its page translated.
Log entry 47 (DEDUCED). -/
def resumeWalk (s : State) (p : Nat) (w : Walk) : State :=
  match w.who with
  | .group g id =>
    (match findMem s p g id with
     | none => s
     | some (_, m) => translateMem (putMem s p g { m with walk := none }) p g id)
  | .engine unit =>
    (match (getEngine (getPos s p) unit).running with
     | none => s
     | some r => (match cmdRef unit r.cmd.words with
         | none => s
         | some ref => translateCmd s p unit r.cmd ref))

/-- A walk answered with a translation. -/
def answerWalk (s : State) (p : Nat) (w : Walk) (loc : PageLoc) : State :=
  let s1 := endWalk s p w.id
  resumeWalk (setPos s1 p (walkerPut (getPos s1 p) w.seq w.page loc)) p w

/-- A walk answered with a fault of the task whose access waited for it. -/
def faultWalk (s : State) (p : Nat) (w : Walk) (code : Nat) : State :=
  let s1 := endWalk s p w.id
  match w.who with
  | .group g id =>
    (match findMem s1 p g id with
     | none => s1
     | some (gr, m) => faultMem (dropMem s1 p g id) p gr m code 0)
  | .engine unit =>
    (match (getEngine (getPos s1 p) unit).running with
     | none => s1
     | some r => faultCmd s1 p unit r.cmd code)

/-- PAGE_WALK: a walk has read the sequence table (R202, R271): a CISTERN page, and a BASIN page whose copy this position
holds, give a translation; every other outcome is handed to the Sluice. -/
def execPageWalk (p id : Nat) (rs : ReserveChk) (s0 : State) : Host.Outcome State Fault Refusal :=
  let s := if (findWalk s0 p id).any (fun w => w.st == .walking) && !(inCisReset s0) then reserveFail s0 rs else s0
  match findWalk s p id with
  | none => .next s
  | some w =>
    if w.st ≠ .walking ∨ inCisReset s = true then .next s
    else
      let active : Bool := match getSeq s w.seq with
        | some q => q.st == .active
        | none => false
      match active, getPage s w.seq w.page with
      | true, some pg =>
        let base := pageAddr s w.seq w.page
        if pg.st = .cistern then .next (answerWalk s p w (.memory base))
        else if pg.st = .basin ∧ pg.frame = some p then
          (match (getPos s p).frames.find? (fun e => e.2 == some (w.seq, w.page)) with
           | some e => .next (answerWalk s p w (.frame e.1 base))
           | none => .next (answerWalk s p w (.memory base)))
        else .next (markWalk s p id .handed)
      | _, _ => .next (markWalk s p id .handed)

/-- The class of the task behind a walk. -/
def walkClass (s : State) (p : Nat) (w : Walk) : Nat :=
  let slot : Option Nat := match w.who with
    | .group g _ => (getGroup s p g).map (fun (x : Group) => x.slot)
    | .engine unit => ((getEngine (getPos s p) unit).running).map (fun (r : RunningCmd) => r.cmd.slot)
  ((slot.bind (getSlot s)).map (fun sl => recClass sl.words)).getD 0

/-- A page that lies in a stack lost in service. -/
def pageOnLost (s : State) (w : Walk) (pg : Page) : Bool :=
  pg.st != .host && pg.st != .pagingIn && onLostStack s (pageAddr s w.seq w.page)

/-- DEMAND_FAULT: the Sluice answers a walk handed to it, by the state of the page (R278). A walk that waits for a page-in
is answered when the move has completed, or faults when it has failed. -/
def execDemandFault (p id : Nat) (s : State) : Host.Outcome State Fault Refusal :=
  match findWalk s p id with
  | none => .next s
  | some w =>
    if w.st = .walking ∨ inCisReset s = true then .next s
    else
      match getSeq s w.seq with
      | none => .next (faultWalk s p w Code.sequenceUnknown)
      | some q =>
        match q.pages[w.page]? with
        | none => .next (faultWalk s p w (if q.st = .active then Code.seqRange else Code.sequenceUnknown))
        | some pg =>
          let e := (w.seq, w.page)
          let base := pageAddr s w.seq w.page
          let waited := match w.st with
            | .waiting h => some h
            | _ => none
          if w.st = .failed then .next (faultWalk s p w Code.pageInFailed)
          else if q.st ≠ .active then .next (faultWalk s p w Code.sequenceUnknown)
          else if w.write && !(pageWritable s w.seq w.page q) then .next (faultWalk s p w Code.seqReadOnly)
          else if pageOnLost s w pg then .next (faultWalk s p w Code.reservoirLost)
          else
            match pg.st with
            | .basin =>
              let s1 := if waited.isSome then s else bump s Key.faultsBasin 1
              .next (answerWalk s1 p w (.memory base))
            | .cistern => .next (answerWalk (if waited = some true then bump s Key.faultsHost 1 else s) p w (.memory base))
            | .reservoir =>
              let s1 := if waited = some true then bump s Key.faultsHost 1
                else if waited.isSome then s else bump s Key.faultsReservoir 1
              let s2 := modPage (invalidatePage s1 w.seq w.page) w.seq w.page (fun x => { x with st := .cistern })
              .next (answerWalk (fetchPage s2 (walkClass s p w) e) p w (.memory base))
            | .pagingOut => .next (answerWalk (cancelPageOut s e) p w (.memory base))
            | .pagingIn =>
              -- a page-in that look-ahead began ends in CISTERN for its user
              if waited.isSome then .next s
              else .next (markWalk (modPage s w.seq w.page (fun x => { x with ahead := false })) p id (.waiting false))
            | .host =>
              match beginPageIn false s e with
              | none => .next s
              | some s1 => .next (markWalk s1 p id (.waiting true))

/-- WALKER_INVALIDATE: a page's entry is invalidated in every walker that holds it (R203). -/
def execWalkerInvalidate (seq page : Nat) (s : State) : Host.Outcome State Fault Refusal := .next (invalidatePage s seq page)

/-! ### Sluice frames (R279, R280) -/

/-- The position's Sluice frames: the top frames of its block (R185). -/
def framesOf (s : State) : List Nat := (List.range (sluiceFrames s)).map (fun i => 64 - sluiceFrames s + i)

/-- The least recently used Sluice frame.
Log entry 103 (DESIGN CHOICE). -/
def lruFrame (s : State) (p : Nat) : Option Nat :=
  let use_ (f : Nat) : Nat := mapGet 0 (getPos s p).frameUse f
  (framesOf s).foldl (fun acc f => match acc with
    | none => some f
    | some b => if use_ f < use_ b then some f else some b) none

/-- The page may be promoted: still CISTERN and not writable.
Log entry 47 (DEDUCED). -/
def mayPromote (s : State) (seq page : Nat) : Bool :=
  match getSeq s seq, getPage s seq page with
  | some q, some pg => pg.st == .cistern && !(pageWritable s seq page q)
  | _, _ => false

/-- Another position is copying the page into a frame already (R286). -/
def beingPromoted (s : State) (seq page : Nat) : Bool :=
  s.cores.any (fun e => match e.2.promote with
    | some (n, k, _) => n == seq && k == page
    | none => false)

/-- A running expansion still reads the frame (R203). -/
def frameRead (s : State) (p f : Nat) : Bool :=
  ((getEngine (getPos s p) 0).running.bind (·.page)).any (fun a => basinAt a == some (p, f * 65536))

/-- The position is in service: it has not been retired. -/
def positionServes (s : State) (p : Nat) : Bool := coreState s p != 0 && coreState s p != 4

/-- PROMOTE_REQUEST: a walker entry for a CISTERN page has counted PROMOTE_SECTORS (R279). The frame's old copy is
dropped, and the page is read at its home slices. The request waits while accesses through the old copy's entry are under way
(R203); a second position's request for one page is ignored (R286). -/
def execPromoteRequest (p seq page : Nat) (s : State) : Host.Outcome State Fault Refusal :=
  let c := getPos s p
  let need := getObj s Key.promoteSectors
  match walkerFind c seq page, lruFrame s p with
  | some w, some f =>
    if need = 0 ∨ w.count < need ∨ c.promote.isSome ∨ beingPromoted s seq page = true ∨ mayPromote s seq page = false ∨
        positionServes s p = false ∨ frameRead s p f = true ∨ inCisReset s = true then .next s
    else
      let s1 := match mapGet none c.frames f with
        | some old => dropFrame s old.1 old.2
        | none => s
      let c1 := getPos s1 p
      .next (startJob (setPos s1 p { c1 with promote := some (seq, page, f) }) (posHalf p) p 0 0 (.promote p) []
        (readOps (pageAddr s1 seq page) 65536))
  | _, _ => .next s

/-- PROMOTION_COPY_COMPLETE: the copy is in the frame, and the page is BASIN (R279). A page that has stopped being
CISTERN or read-only, or that holds a word with no good value, is not promoted.
Log entry 47 (DEDUCED). -/
def execPromotionCopyComplete (p : Nat) (s : State) : Host.Outcome State Fault Refusal :=
  let c := getPos s p
  match c.promote with
  | none => .next s
  | some (seq, page, f) =>
    match jobOf s (.promote p) with
    | none => .next (setPos s p { c with promote := none })
    | some j =>
      if j.left ≠ 0 ∨ chanFull s c = true then .next s
      else
        let s1 := dropJob (setPos s p { c with promote := none }) j.id
        if !(mayPromote s seq page) || !((framesOf s).contains f) || (gotFailed j.got).isSome || !(positionServes s p) then .next s1
        else
          let c2 := basinWrite { getPos s1 p with
            frames := mapSet none c.frames f (some (seq, page)),
            walker := c.walker.filter (fun w => !(w.seq == seq && w.page == page)) } (f * 65536) (agentTag s)
            (gotBytes j.got (pageAddr s seq page) 65536)
          .next (modPage (bump (setPos s1 p (chanAdd s 256 c2)) Key.promotions 1) seq page (fun x => { x with st := .basin, frame := some p }))

/-! ### The scrubber (R204, R205) -/

/-- The device-local address of a position's Basin block at an offset. -/
def basinAddr (p off : Nat) : Nat := basinBase + p * 0x400000 + off

/-- The error record of a block that no copy below restores (R205). -/
def scrubReport (s : State) (p off : Nat) : State :=
  raise s { code := Code.checkFailed, sev := 1, origin := .weir, unit := p, addr := basinAddr p off,
            writer := mapGet 0 (getPos s p).basinTag (off / 256) }

/-- A block of a frame has come again from the page below, unless the frame holds another page by now (R205). -/
def takeScrub (s : State) (p off seq page : Nat) (got : List Served) : State :=
  let c := getPos s p
  if mapGet none c.frames (off / 65536) ≠ some (seq, page) then s
  else if (gotFailed got).isSome then scrubReport s p off
  else bump (setPos s p { c with basin := mapSetList 0#8 c.basin off (gotBytes got (pageAddr s seq page + off % 65536) 256) })
    Key.cleanRecoveries 1

/-- A block has failed twice: a frame's is fetched again from the page below, any other is reported (R205).
Log entry 48 (DEDUCED). -/
def scrubFailed (s : State) (p off : Nat) : State :=
  let s1 := setObj (setObj (bump s (Key.scrubFails p) 1) (Key.scrubLastAddr p) (basinAddr p off)) (Key.scrubLastTime p) (stamp s)
  match mapGet none (getPos s p).frames (off / 65536), decide (taskRegionEnd s ≤ off) with
  | some (seq, page), true =>
    if inCisReset s then s1
    else startJob s1 (posHalf p) p 0 0 (.scrub p off seq page) [] (readOps (pageAddr s seq page + off % 65536) 256)
  | _, _ => scrubReport s1 p off

/-- SCRUB_READ: a position's scrubber reads the next aligned 256-byte block of its Basins (R204, R205).
Log entry 48 (DEDUCED). -/
def execScrubRead (p : Nat) (chk : Chk) (s : State) : Host.Outcome State Fault Refusal :=
  if p ≥ 544 ∨ isDefect s 1 p = true ∨ darkPosition s p = true ∨ inService s = false ∨ chanFull s (getPos s p) = true then .next s
  else
    let n := (getPos s p).scrub
    let s1 := match chk with
      | .ok => s
      | .transient => bump s (Key.scrubTransients p) 1
      | .failed => scrubFailed s p (n * 256)
      | .stored => s
    let c := getPos s1 p
    let s2 := setPos s1 p { chanAdd s 1 c with scrub := (n + 1) % 16384 }
    .next (if n + 1 = 16384 then bump s2 (Key.scrubPasses p) 1 else s2)

end Sys2Proof.Machine
end

