-- ==== Sys2Proof/Machine/Packets.lean ====
section
/-! DEFINITION. Packets of the Rill links at a device: forwarding (R316 to R318), requests of peers at their home (R320,
R322), the answers that come back (R307, R320), and requests that end without one. -/

namespace Sys2Proof.Machine

/-! ### Receive buffers (R308, R319) -/

/-- An earlier flit of the receive buffer that this one stays behind: the same VC and hop class (R319). -/
def sameStream (a b : Packet) : Bool := a.vc == b.vc && a.hops == b.hops

/-- The first flit of the types on a link that no earlier flit of its stream is before, with its place.
Log entry 58 (DESIGN CHOICE). -/
def frontPacket (k : Link) (tys : List PktType) : Option (Packet × Nat) :=
  k.rx.zipIdx.find? (fun e => tys.contains e.1.ty && (k.rx.take e.2).all (fun q => !(sameStream q e.1)))

/-- Take a flit out of the receive buffer: its credit is owed to the sender (R308). NULL and RETRY_REQ take no credit. -/
def takeRx (s : State) (l i : Nat) : State :=
  let k := getLink s l
  match k.rx[i]? with
  | none => s
  | some p =>
    let k1 := { k with rx := k.rx.eraseIdx i }
    setLink s l (if p.ty = .null ∨ p.ty = .retryReq then k1 else oweCredit k1 (creditKey p))

/-- An invalid flit (R305).
Log entry 53 (DEDUCED). -/
def linkProtocol (s : State) (l : Nat) : State := raiseUnit (bump s Key.protocolErrors 1) Code.linkProtocol 1 .link l []

/-- Send packets on toward their destination (R316). A packet that has crossed three links, or whose destination is no
member, goes no further.
Log entry 52 (PRESUMED). -/
def forward (s : State) (l : Nat) (ps : List Packet) : State :=
  match ps with
  | [] => s
  | p :: _ => if p.hops ≥ 2 ∨ isMember s p.dst = false then linkProtocol s l
    else sendPacket s (linkHalf l) (ps.map (fun q => { q with hops := q.hops + 1 }))

/-- Requests to this device wait while a Cistern-only reset runs, their credits withheld (R331).
Log entries 46 (DESIGN CHOICE); 58 (DESIGN CHOICE). -/
def packetHeld (s : State) (p : Packet) : Bool := inCisReset s && p.dst == s.pool.device && (p.vc == 0 || p.vc == 2)

/-- Handle the front flit of a type on a link: forwarded where it is another device's, else `run` on it. -/
def onPacket (tys : List PktType) (l : Nat) (run : Packet → State → State) (s : State) : State :=
  match frontPacket (getLink s l) tys with
  | none => s
  | some (p, i) =>
    if packetHeld s p then s
    else
      let s1 := takeRx s l i
      pumpLink (if p.dst = s.pool.device then run p s1 else forward s1 l [p]) l

/-! ### Answering a peer -/

/-- The answer to a request: its SRC becomes DST; TAG, ADDR and CLASS are copied (R307). -/
def respond (s : State) (p : Packet) (ty : PktType) (sectors half : Nat) (payload : List Byte) : State :=
  sendPacket s half [{ ty := ty, src := s.pool.device, dst := p.src, cls := p.cls, hops := 0, sectors := sectors, tag := p.tag,
                       addr := p.addr, payload := payload }]

/-- REFUSED with a code (R306).
Log entry 54 (DEDUCED). -/
def refusePeer (s : State) (p : Packet) (code : Nat) : State := respond s p .refused 0 0 (leBytes 2 code)

/-- The half of an address's home slice. -/
def homeHalfOf (s : State) (a : Nat) : Nat := if hasHome s a then homeSlice s a / 64 else 0

/-- A peer or the host may read the address: mapped Reservoir or window, or the slot table (R23). -/
def farReadable (s : State) (a : Nat) : Bool := hasHome s a || (slotTableAt a).isSome

/-- Why a peer's read of `n` bytes is refused (R27, R252). -/
def farRefusal (s : State) (a n : Nat) : Option Nat :=
  if (slotTableAt a).isSome && (slotTableAt (a + n - 1)).isSome then none
  else homeRefusal s a n

/-- Bytes of the slot table, which no slice holds (R23). -/
def tableBytes (s : State) (off n : Nat) : List Byte :=
  (List.range n).map (fun i => (slotBytes s ((off + i) / 256)).getD ((off + i) % 256) 0#8)

/-- The writer tag of a peer's store: a task of that device, which no packet names (R456).
Log entry 57 (DEDUCED). -/
def peerTag (p : Packet) : Nat := p.src * 2 ^ 26 + 3 * 2 ^ 24

/-- The bytes that a packet's request covers. -/
def packetSpan (p : Packet) : Nat := if p.ty = .writeMasked ∨ p.ty = .atom ∨ p.ty = .redMasked then 128 else 32 * (p.sectors + 1)

/-- The operation word of an ATOM or reduce packet (R306). -/
def pktVariant (p : Packet) : Nat := bits (leAt p.payload 0 8) 3 0
def pktSize (p : Packet) : Nat := 2 ^ bits (leAt p.payload 0 8) 6 4
def pktHalf (p : Packet) : Nat := bits (leAt p.payload 0 8) 7 7

/-- The elements that a line packet's mask selects, as byte offsets in the line. -/
def maskElems (size mask : Nat) : List Nat := ((List.range (128 / size)).map (· * size)).filter (fun o => bit mask o)

/-- The lanes of an ATOM or RED_MASKED packet, one for each selected element. -/
def pktLanes (p : Packet) (cas : Bool) : List RedLane :=
  let size := pktSize p
  (maskElems size (leAt p.payload 8 16)).map (fun o =>
    if cas then { lane := o / size, addr := p.addr + o, opnd := leAt p.payload (24 + o % 64) size, swap := leAt p.payload (88 + o % 64) size }
    else { lane := o / size, addr := p.addr + o, opnd := leAt p.payload (24 + o) size, swap := 0 })

/-- The lanes of a RED packet: every element of its sectors. -/
def wholeLanes (p : Packet) : List RedLane :=
  let size := pktSize p
  (List.range (32 * (p.sectors + 1) / size)).map (fun i =>
    { lane := i, addr := p.addr + i * size, opnd := leAt p.payload (8 + i * size) size, swap := 0 })

/-- The lanes of an ATOM packet. -/
def atomLanes (p : Packet) : List RedLane := pktLanes p (pktVariant p == 10)

/-- Lanes as requests to their home slices, one for each sector (R234, R322). -/
def laneOps (op : RedOp) (returns : Bool) (lanes : List RedLane) : List (Nat × ReqOp) :=
  ((lanes.map (fun l => l.addr / 32)).dedup).map (fun k => (k, .reduce op returns (lanes.filter (fun l => l.addr / 32 == k))))

/-- What a peer's request asks of its home slices (R320, R322). -/
def packetOps (p : Packet) : List (Nat × ReqOp) :=
  match p.ty with
  | .read => readOps p.addr (packetSpan p)
  | .write => storeOps 8 p.addr (slice p.payload 0 (packetSpan p))
  | .writeMasked => maskedOps (p.addr / 128) (leAt p.payload 0 16) (slice p.payload 16 128)
  | .atom => laneOps (atomOp (pktVariant p)) true (atomLanes p)
  | .red => laneOps (redOp (pktVariant p)) false (wholeLanes p)
  | .redMasked => laneOps (redOp (pktVariant p)) false (pktLanes p false)
  | _ => []

/-- The line of old values of an ATOM, out of its sectors' answers (R320). -/
def atomLine (p : Packet) (got : List Served) : List Byte :=
  let old (l : RedLane) : List Byte :=
    match gotSector got (l.addr / 32) with
    | none => []
    | some v => slice v.data (4 * ((atomLanes p).filter (fun x => x.addr / 32 == l.addr / 32)).idxOf l) 4
  (atomLanes p).foldl (fun bs l => splice bs (l.addr % 128) (old l)) (List.replicate 128 0#8)

/-- The answer to a request whose home slices have all answered or accepted it (R320, R455). -/
def answerPacket (s : State) (p : Packet) (got : List Served) : State :=
  let half := homeHalfOf s p.addr
  match gotFailed got with
  | some v => refusePeer s p (if v.code = 0 then Code.checkFailed else v.code)
  | none =>
    match p.ty with
    | .read => respond s p .readData p.sectors half (gotBytes got p.addr (packetSpan p))
    | .atom => respond s p .atomData 3 half (leBytes 16 (leAt p.payload 8 16) ++ atomLine p got)
    | _ => respond s p .writeAck 0 half []

/-- A word of slot `n` is read from the Fountain's memory: a transient is counted, and a word that fails ends the slot's task
with CHECK_FAILED (R454).
Log entries 7 (DESIGN CHOICE); 115 (DEDUCED). -/
def readSlot (s : State) (n : Nat) (chk : Chk) : State :=
  if chk = .failed then evalWaits (endTask s n { code := Code.checkFailed, sev := 2, origin := .fountain }) else noteTransient s chk

/-- A request at its destination: refused, or sent from the link's half to its home slices (R19, R27, R320). The slot table
is read at once; where its words fail their check, `chk`, the request is refused (R454, R455).
Log entry 115 (DEDUCED). -/
def serveMemory (l : Nat) (chk : Chk) (p : Packet) (s : State) : State :=
  match if p.ty = .read then farRefusal s p.addr (packetSpan p) else homeRefusal s p.addr (packetSpan p), slotTableAt p.addr with
  | some k, _ => refusePeer s p k
  | none, some off =>
    if chk = .failed then refusePeer (readSlot s (off / 256) chk) p Code.checkFailed
    else respond (readSlot s (off / 256) chk) p .readData p.sectors 0 (tableBytes s off (packetSpan p))
  | none, none =>
    if (packetOps p).isEmpty then answerPacket s p []
    else startJob s (linkHalf l) (portLink + l) p.cls (peerTag p) (.packet p) [] (packetOps p)

/-- A Cistern-only reset begins: every peer request taken and not yet answered is answered with VERTICAL_ABORT (R331).
Log entry 46 (DESIGN CHOICE). -/
def refuseTaken (s : State) : State :=
  let taken := s.cistern.jobs.filterMap (fun j => match j.who with
    | .packet p => some p
    | _ => none)
  let s1 := dropJobsFor s (fun w => match w with
    | .packet _ => true
    | _ => false)
  taken.foldl (fun st p => refusePeer st p Code.verticalAbort) s1

/-- A SIGNAL at its destination: applied to the counter, or poison (R48, R306, R511). -/
def serveSignal (p : Packet) (s : State) : State :=
  let e := leAt p.payload 0 8
  let s1 := if bit (leAt p.payload 8 1) 0 then evalWaits (poisonCounter s (sigCounter e)) else signalLocal s (sigCounter e) (sigSet e) (sigValue e)
  respond s1 p .writeAck 0 0 []

/-- A task record posted by a peer: taken into a spawn slot or refused (R58, R59).
Log entry 53 (DEDUCED). -/
def servePost (p : Packet) (bs : List Byte) (s : State) : State :=
  let r := takeSpawn s (wordsOf 32 bs) true
  respond r.2 p .postResult 0 0 (leBytes 4 r.1)

/-- READ_PACKET; `chk` is the check of the slot table's words, where it reads those. -/
def execReadPacket (link : Nat) (chk : Chk) (s : State) : Host.Outcome State Fault Refusal :=
  .next (onPacket [.read] link (serveMemory link chk) s)

/-- WRITE_PACKET. -/
def execWritePacket (link : Nat) (s : State) : Host.Outcome State Fault Refusal := .next (onPacket [.write] link (serveMemory link .ok) s)

/-- WRITE_MASKED_PACKET. -/
def execWriteMaskedPacket (link : Nat) (s : State) : Host.Outcome State Fault Refusal :=
  .next (onPacket [.writeMasked] link (serveMemory link .ok) s)

/-- ATOM_PACKET. -/
def execAtomPacket (link : Nat) (s : State) : Host.Outcome State Fault Refusal := .next (onPacket [.atom] link (serveMemory link .ok) s)

/-- Reductions that a slice has queued or that wait before its queue. -/
def queuedReds (sl : Slice) : Nat :=
  sl.redq.length + (sl.waits.filter (fun w => isReduce w.req)).length + (sl.inbox.filter (fun q => isReduce q.req)).length

/-- The slices of a reduce packet have room in their queues (R234, R322).
Log entry 58 (DESIGN CHOICE). -/
def redRoom (s : State) (p : Packet) : Bool :=
  (List.range (p.sectors + 1)).all (fun i => let a := p.addr + 32 * i
    !(hasHome s a) || decide (queuedReds (getSlice s (homeSlice s a)) < 512))

/-- A reduce packet for this device stalls while a slice's queue is full (R322). -/
def onReduce (ty : PktType) (l : Nat) (s : State) : State :=
  match frontPacket (getLink s l) [ty] with
  | none => s
  | some (p, _) => if p.dst = s.pool.device ∧ redRoom s p = false then s else onPacket [ty] l (serveMemory l .ok) s

/-- RED_PACKET. -/
def execRedPacket (link : Nat) (s : State) : Host.Outcome State Fault Refusal := .next (onReduce .red link s)

/-- RED_MASKED_PACKET. -/
def execRedMaskedPacket (link : Nat) (s : State) : Host.Outcome State Fault Refusal := .next (onReduce .redMasked link s)

/-- SIGNAL_PACKET. -/
def execSignalPacket (link : Nat) (s : State) : Host.Outcome State Fault Refusal := .next (onPacket [.signal] link serveSignal s)

/-- POST_PACKET: the two flits of a task record, adjacent and of one tag, are handled as one packet (R305, R307). -/
def execPostPacket (link : Nat) (s : State) : Host.Outcome State Fault Refusal :=
  let k := getLink s link
  match frontPacket k [.postA] with
  | none => .next s
  | some (a, i) =>
    match (k.rx.drop (i + 1)).zipIdx.find? (fun e => sameStream e.1 a) with
    | none => .next s
    | some (b, j) =>
      if b.ty ≠ .postB ∨ b.tag ≠ a.tag ∨ b.src ≠ a.src then .next (linkProtocol (takeRx s link i) link)
      else if packetHeld s a || (a.dst == s.pool.device && fountainHeld s) then .next s
      else
        let s1 := takeRx (takeRx s link (i + 1 + j)) link i
        .next (pumpLink (if a.dst = s.pool.device then servePost a (slice a.payload 0 128 ++ slice b.payload 0 128) s1
          else forward s1 link [a, b]) link)

/-! ### Ends of requests (R307, R320, R328, R341, R346) -/

/-- Take a request off the list of those outstanding, and let waiting ones go. -/
def dropReq (s : State) (dev tag : Nat) : State :=
  pumpPeers { s with pool := { s.pool with reqs := s.pool.reqs.filter (fun r => !(r.dev == dev && r.tag == tag)) } }

/-- A device has accepted a write of a task (R331). -/
def noteWritten (s : State) (slot : Option Nat) (dev : Nat) : State :=
  match slot with
  | none => s
  | some n => modSlot s n (fun sl => if sl.peersWritten.contains dev then sl else { sl with peersWritten := sl.peersWritten ++ [dev] })

/-- The result of a spawn to a peer reaches the spawner (R58, R79). -/
def endSpawn (s : State) (p g id v : Nat) : State :=
  match getGroup s p g with
  | none => s
  | some gr =>
    match gr.spawns.find? (fun x => x.id == id) with
    | none => s
    | some x =>
      setGroup s p g (some { (lanesOf x.lanes).foldl (fun y l => setReg y x.dst l v) gr with
        spawns := gr.spawns.filter (fun y => y.id != id) })

/-- A BAR4 read has its bytes, or some of them failed their check: it completes, poisoned in the latter case (R341). -/
def completeBar4 (s : State) (tag : Nat) (data : List Byte) (bad : Bool) : State :=
  let s1 := portSend (emit s (.completion tag (if bad then .poisoned else .success) data)) data.length
  if bad then bump s1 Key.poisonedTx 1 else s1

/-- A BAR4 read's part has come: the read completes when none is missing (R341, R342). -/
def bar4Part (s : State) (tag : Nat) (put : Bar4Wait → Bar4Wait) : State :=
  match s.port.bar4.find? (fun w => w.tag == tag) with
  | none => s
  | some w0 =>
    let w := { put w0 with left := w0.left - 1 }
    if w.left = 0 then
      let s1 := { s with port := { s.port with bar4 := s.port.bar4.filter (fun x => x.tag != tag) } }
      if w.failed then completeUr s1 tag else completeBar4 s1 tag (mapGetList 0#8 w.got w.addr w.len) false
    else { s with port := { s.port with bar4 := s.port.bar4.map (fun x => if x.tag = tag then w else x) } }

/-- Copy slot `cc` (R344). -/
def getCopy (s : State) (cc : Nat) : CopySlot := mapGet CopySlot.idle s.port.copies cc

def setCopy (s : State) (cc : Nat) (x : CopySlot) : State :=
  { s with port := { s.port with copies := mapSet CopySlot.idle s.port.copies cc x } }

/-- The engines' move belongs to copy slot `cc`. -/
def isCopyOf (cc : Nat) : EngineMove → Bool
  | .copy m => m.cc == cc
  | .page _ _ _ => false

/-- The job carries a move of copy slot `cc`. -/
def isCopyJob (cc : Nat) : JobFor → Bool
  | .copy m => m.cc == cc
  | _ => false

/-- The peer request carries a move of copy slot `cc`. -/
def isCopyUser (cc : Nat) : PeerUser → Bool
  | .copy m => m.cc == cc
  | _ => false

/-- The copy still has a move queued or in an engine. -/
def copyBusy (s : State) (cc : Nat) : Bool := s.port.queue.any (isCopyOf cc)

/-- A packet of the move is unanswered. -/
def moveAtPeer (s : State) (m : CopyMove) : Bool := (s.pool.reqs ++ s.pool.waiting).any (fun r => r.user == .copy m)

/-- The move is over, and its engine takes the next (R285, R345). -/
def freeEngine (s : State) (m : CopyMove) : State := feedEngines { s with port := { s.port with queue := s.port.queue.erase (.copy m) } }

/-- Bytes of a copy have been accepted at their destination; with nothing left the copy is done (R344, R345). -/
def advanceCopy (s : State) (cc n : Nat) : State :=
  let c := getCopy s cc
  if c.state ≠ 3 then s
  else setCopy s cc { c with moved := c.moved + n, state := if copyBusy s cc then 3 else 5 }

/-- A peer has answered `n` bytes of a move; with the last of them the move is over (R345). -/
def advanceMove (s : State) (m : CopyMove) (n : Nat) : State :=
  advanceCopy (if moveAtPeer s m then s else freeEngine s m) m.cc n

/-- A copy ends in state 6 (R346).
Log entry 59 (DEDUCED). -/
def failCopy (s : State) (cc code : Nat) : State :=
  let c := getCopy s cc
  if c.state ≠ 3 then s
  else
    let s1 := dropJobsFor (setCopy s cc { c with state := 6, code := code }) (isCopyJob cc)
    feedEngines { s1 with
      port := { s1.port with queue := s1.port.queue.filter (fun m => !(isCopyOf cc m)) },
      pool := { s1.pool with reqs := s1.pool.reqs.filter (fun r => !(isCopyUser cc r.user)),
                             waiting := s1.pool.waiting.filter (fun r => !(isCopyUser cc r.user)) } }

/-- Copies whose pool range lies on this device end as its Cistern-only reset begins (R346, R415). -/
def cutCopies (s : State) : State :=
  (mapKeys s.port.copies).foldl (fun st cc =>
    if addrDevice (getCopy st cc).pool = st.pool.device then failCopy st cc Code.verticalAbort else st) s

/-- The READ packets of a range of a peer (R307). -/
def readPackets (s : State) (dev cls a len : Nat) : List Packet :=
  let first := a / 32
  let secs := (List.range ((a + len - 1) / 32 - first + 1)).map (· + first)
  (sectorRuns secs []).map (fun r => mkPacket s .read dev cls (r.2 - 1) (r.1 * 32) [])

/-- A packet's sectors of the source of a service operation have come (R411). -/
def imagePart (s : State) (op : Nat) (p : Packet) : State :=
  match jobOf s (.image op) with
  | none => s
  | some j => modJob s j.id (fun x => { x with
      left := x.left - 1,
      got := x.got ++ (List.range (p.sectors + 1)).map (fun i =>
        { sector := p.addr / 32 + i, data := slice p.payload (32 * i) 32, failed := false, wtag := 0, code := 0 }) })

/-- Run `f`; where it begins a Cistern-only reset, peers' requests are answered and copies end (R331, R346). -/
def withReset (f : State → State) (s : State) : State :=
  let t := f s
  if inCisReset t && !(inCisReset s) then cutCopies (refuseTaken t) else t

/-- A task's request is refused: VERTICAL_ABORT lets it run again, any other code faults it (R71, R320, R331). A task whose signal
to a peer ends so in flight is faulted in the same way, and poisons its counters as a task that ran (R66, R511).
Log entry 114 (DEDUCED). -/
def endTaskReq (s : State) (slot code : Nat) (r : ErrRec) : State :=
  if code = Code.verticalAbort then verticalAbort s slot else faultTask s slot { r with code := code }

/-- A request ends without success: its task or user gets the code (R312, R320, R323, R346).
Log entry 54 (DEDUCED). -/
def failReq (s : State) (r : PeerReq) (code : Nat) : State :=
  let rec_ : ErrRec := { code := code, sev := 2, origin := .link }
  match r.user with
  | .core p _ id =>
    (match memBehind s p id, r.slot with
     | some m, some n =>
       let s1 := acceptNext s p id
       endTaskReq s1 n code { rec_ with unit := p, pc := m.pc, addr := r.dev * 2 ^ 58 + ((r.pkts.head?).map (fun (q : Packet) => q.addr)).getD 0 }
     | _, _ => s)
  | .spawn p g _ =>
    (match getGroup s p g, r.slot with
     | some gr, some n => if gr.slot = n then endTaskReq s n code { rec_ with unit := p, group := gr.index } else s
     | _, _ => s)
  | .signal n => if (getSlot s n).any (fun sl => sl.signalled) then endTaskReq s n code rec_ else s
  | .bar4 tag write => if write then portUr s else bar4Part s tag (fun w => { w with failed := true })
  | .copy m => failCopy s m.cc code
  | .image op => if (jobOf s (.image op)).isSome then endSvc s op 6 code else s

/-- Find an outstanding request. -/
def findReq (s : State) (dev tag : Nat) : Option PeerReq := s.pool.reqs.find? (fun r => r.dev == dev && r.tag == tag)

/-- Handle an answer to a request of this device; one that answers nothing outstanding has no effect. -/
def onAnswer (ty : PktType) (run : PeerReq → Packet → State → State) (l : Nat) (s : State) : State :=
  onPacket [ty] l (fun p st => match findReq st p.src p.tag with
    | none => st
    | some r => run r p (dropReq st p.src p.tag)) s

/-- The host address that a pool address of a copy goes to or comes from. -/
def copyHostAddr (s : State) (cc pool : Nat) : Nat := (getCopy s cc).host + (pool - (getCopy s cc).pool)

/-- READ_DATA at the requester. -/
def takeReadData (r : PeerReq) (p : Packet) (s : State) : State :=
  let n := p.sectors + 1
  match r.user with
  | .core pos _ id =>
    (List.range n).foldl (fun st i =>
      deliverData st pos id { sector := peerKey (p.src * 2 ^ 58 + p.addr + 32 * i), data := slice p.payload (32 * i) 32, failed := false, wtag := 0, code := 0 }) s
  | .bar4 tag false =>
    bar4Part s tag (fun w => { w with got := mapSetList 0#8 w.got (p.src * 2 ^ 58 + p.addr) (slice p.payload 0 (32 * n)) })
  | .copy m =>
    let s1 := emit (portSend s (32 * n)) (.hostWrite (copyHostAddr s m.cc (p.src * 2 ^ 58 + p.addr)) (slice p.payload 0 (32 * n)) false)
    advanceMove s1 m (32 * n)
  | .image op => imagePart s op p
  | _ => s

/-- READ_DATA_PACKET (R305). -/
def execReadDataPacket (link : Nat) (s : State) : Host.Outcome State Fault Refusal := .next (onAnswer .readData takeReadData link s)

/-- WRITE_ACK at the requester: the request has been accepted (R320). -/
def takeWriteAck (r : PeerReq) (p : Packet) (s : State) : State :=
  match r.user with
  | .core pos _ id => noteWritten (acceptNext s pos id) r.slot p.src
  | .copy m => advanceMove s m (32 * ((r.pkts.head?).map (fun (q : Packet) => q.sectors + 1)).getD 1)
  | _ => s

/-- WRITE_ACK_PACKET (R320). -/
def execWriteAckPacket (link : Nat) (s : State) : Host.Outcome State Fault Refusal := .next (onAnswer .writeAck takeWriteAck link s)

/-- The place of a request's packet among those of its instruction: the first of the same peer, address and operands. -/
def atomIndex (s : State) (m : MemOp) (q : Packet) : Option Nat :=
  let cas := m.sext
  let ls := redLanes m
  let devs := m.lanes.map (fun l => addrDevice l.addr)
  let v := bits (leAt q.payload 0 8) 3 0
  let all := (peersNamed s (m.lanes.map (·.addr))).flatMap (fun d =>
    (redPackets s d q.cls v 2 4 true cas (((ls.zip devs).filter (fun e => e.2 == d)).map (·.1))).map (·.1))
  ((all.zipIdx.find? (fun e => e.1.dst == q.dst && e.1.addr == q.addr && e.1.payload == q.payload &&
    m.got.all (fun g => g.sector != 2 ^ 61 + e.2)))).map (fun (e : Packet × Nat) => e.2)

/-- ATOM_DATA at the requester: accepted, and the old values come back (R320). -/
def takeAtomData (r : PeerReq) (p : Packet) (s : State) : State :=
  match r.user with
  | .core pos _ id =>
    (match memBehind s pos id, r.pkts.head? with
     | some m, some q =>
       (match atomIndex s m q with
        | none => s
        | some i =>
          let k := 2 ^ 61 + i
          noteWritten (deliverAccept (deliverData s pos id { sector := k, data := slice p.payload 16 128, failed := false, wtag := 0, code := 0 }) pos id k)
            r.slot p.src)
     | _, _ => s)
  | _ => s

/-- ATOM_DATA_PACKET (R320). -/
def execAtomDataPacket (link : Nat) (s : State) : Host.Outcome State Fault Refusal := .next (onAnswer .atomData takeAtomData link s)

/-- POST_RESULT at the requester (R58). -/
def takePostResult (r : PeerReq) (p : Packet) (s : State) : State :=
  match r.user with
  | .spawn pos g id => endSpawn s pos g id (leAt p.payload 0 4)
  | _ => s

/-- POST_RESULT_PACKET (R305). -/
def execPostResultPacket (link : Nat) (s : State) : Host.Outcome State Fault Refusal := .next (onAnswer .postResult takePostResult link s)

/-- REFUSED_PACKET (R305, R306, R320). -/
def execRefusedPacket (link : Nat) (s : State) : Host.Outcome State Fault Refusal :=
  .next (onAnswer .refused (fun r p st => failReq st r (leAt p.payload 0 2 % 4096)) link s)

/-- PEER_TIMEOUT: a request has had no answer within PEER_TIMEOUT, and ends with PEER_LOST (R320). -/
def execPeerTimeout (peer tag : Nat) (s : State) : Host.Outcome State Fault Refusal :=
  match findReq s peer tag with
  | none => .next s
  | some r =>
    if r.since + getObj s Key.peerTimeout * 1000000 ≤ now s then .next (failReq (dropReq s peer tag) r Code.peerLost) else .next s

end Sys2Proof.Machine
end

