-- ==== Sys2Proof/Machine/Links.lean ====
section
/-! DEFINITION. Links and the pool (R303 to R331, R416): receiving flits, replay, retraining, links that go down, forming a
pool, members missing. -/

namespace Sys2Proof.Machine

/-! ### Receiving (R302, R304, R305, R307, R309, R310) -/

/-- The mask of a line packet selects whole elements of `size` bytes. -/
def maskWhole (size mask : Nat) : Bool :=
  (List.range (128 / size)).all (fun i => let m := bits mask (i * size + size - 1) (i * size)
    m == 0 || m == 2 ^ size - 1)

/-- The operation word of an ATOM or reduce packet is one that R306 allows. -/
def opWordOk (p : Packet) : Bool :=
  let w := leAt p.payload 0 8
  let v := bits w 3 0
  let size := bits w 6 4
  let half := bits w 7 7
  let mask := leAt p.payload 8 16
  w / 256 == 0 && (match p.ty with
    | .atom => decide (v ≤ 10) && size == 2 && maskWhole 4 mask &&
        (if v = 10 then (if half = 0 then mask / 2 ^ 64 == 0 else mask % 2 ^ 64 == 0) else half == 0)
    | .redMasked => decide (v ≤ 6) && size == (if v = 1 then 1 else 2) && half == 0 && maskWhole (2 ^ size) mask
    | _ => decide (v ≤ 6) && size == (if v = 1 then 1 else 2) && half == 0)

/-- A packet that obeys R305 and R307.
Log entry 53 (DEDUCED). -/
def packetOk (p : Packet) : Bool :=
  let inPage := p.addr % 32 == 0 && decide (p.addr % 65536 + 32 * (p.sectors + 1) ≤ 65536)
  let line := p.addr % 128 == 0 && p.sectors == 3
  decide (p.hops ≤ 2) && decide (p.sectors ≤ 6) && (match p.ty with
    | .read => inPage
    | .write => inPage
    | .readData => inPage
    | .writeMasked => line
    | .atom => line && opWordOk p
    | .redMasked => line && opWordOk p
    | .red => inPage && opWordOk p
    | _ => true)

/-- The packet that a flit's bytes hold; none for a VC and TYPE that R305 does not list. -/
def packetOf (f : List Byte) : Option Packet :=
  let h := leAt f 0 16
  (pktOf (bits h 103 102) (bits h 101 98)).map (fun ty =>
    { ty := ty, src := bits h 89 84, dst := bits h 83 78, cls := bits h 77 75, hops := bits h 74 73, sectors := bits h 72 70,
      tag := bits h 69 58, addr := bits h 57 0, payload := slice f 16 240 })

/-- Forget the flits that an ACK covers (R310). -/
def dropAcked (us : List Unacked) (ack : Nat) : List Unacked :=
  match us.findIdx? (fun u => u.seq == ack) with
  | some i => us.drop (i + 1)
  | none => us

/-- A good flit's ACK and its credit return take effect. -/
def takeHeader (s : State) (l h : Nat) : State :=
  let k := getLink s l
  let hop := bits h 95 94
  let key := bits h 97 96 * 4 + hop
  setLink s l { k with unacked := dropAcked k.unacked (bits h 115 104), lastGood := now s,
                       used := if hop = 3 then k.used else mapMod 0 k.used key (fun n => n - bits h 93 90) }

/-- A flit that is not the next one: a RETRY_REQ once a gap, and again every 1 µs (R310).
Log entry 52 (PRESUMED). -/
def noteGap (s : State) (l : Nat) : State :=
  let k := getLink s l
  let due : Bool := match k.gap with
    | none => true
    | some t => decide (t + 1000 ≤ now s)
  if due then sendBare (setLink s l { k with gap := some (now s) }) l .retryReq else s

/-- A flit that is the next of its link: accepted, and put in the receive buffers where it is valid (R305, R310). A POOL message is
handed on at once, and takes effect by its own row.
Log entry 56 (DEDUCED). -/
def acceptFlit (s : State) (l : Nat) (p : Option Packet) (seq key : Nat) : State :=
  let k := getLink s l
  let s1 := bump (setLink s l { k with lastRx := seq, gap := none }) (Key.bytesRx l) 240
  let k1 := getLink s1 l
  match p with
  | some q => if packetOk q then setLink s1 l (if q.ty = .pool then oweCredit k1 key else { k1 with rx := k1.rx ++ [q] })
      else linkProtocol (setLink s1 l (oweCredit k1 key)) l
  | none => linkProtocol (setLink s1 l (oweCredit k1 key)) l

/-- A 256-byte flit that has passed its check.
Log entry 52 (PRESUMED). -/
def takeFlit (s : State) (l : Nat) (f : List Byte) : State :=
  let h := leAt f 0 16
  let s1 := takeHeader s l h
  let k := getLink s1 l
  let seq := bits h 127 116
  match packetOf f with
  | some p =>
    if p.ty = .null ∨ p.ty = .retryReq then
      let s2 := if packetOk p then setLink s1 l { k with rx := k.rx ++ [p] } else linkProtocol s1 l
      if seq = k.lastRx then s2 else noteGap s2 l
    else if seq = (k.lastRx + 1) % 4096 then acceptFlit s1 l (some p) seq (creditKey p)
    else noteGap s1 l
  | none =>
    if seq = (k.lastRx + 1) % 4096 then acceptFlit s1 l none seq (bits h 103 102 * 4 + bits h 74 73) else noteGap s1 l

/-- A link that receives: UP or WITHDRAWN, with power and its PLL in lock. -/
def receives (s : State) (l : Nat) : Bool :=
  let k := getLink s l
  (k.st == .up || k.st == .withdrawn) && !k.pllLost && s.boot.powered

/-- FLIT_RECEIVE: a frame of 272 bytes arrives on a link (R302, R310). -/
def execFlitReceive (link : Nat) (frame : List Byte) (s : State) : Host.Outcome State Fault Refusal :=
  if !(receives s link) then .next s
  else
    match decodeFrame frame with
    | none => .next (noteGap s link)
    | some (f, fixed) => .next (pumpLink (takeFlit (if fixed then bump s (Key.fecCorrected link) 1 else s) link f) link)

/-! ### Replay and retraining (R310, R311) -/

/-- Resend a link's unacknowledged flits from the oldest. -/
def resendAll (s : State) (l : Nat) : State :=
  let k := getLink s l
  let n := k.unacked.length
  let s1 := k.unacked.foldl (fun st u => sendWire st l (flitBytes u.seq k.lastRx 0 3 0 u.pkt)) s
  bump (setLink s1 l { k with
    unacked := k.unacked.map (fun u => { u with resends := u.resends + 1, sentAt := now s }),
    resentAt := k.resentAt.filter (fun t => decide (now s < t + 1000000)) ++ List.replicate n (now s) }) (Key.flitRetries l) n

/-- RETRY_REQ_PACKET: the other end asks for the flits after its ACK again (R310). -/
def execRetryReqPacket (link : Nat) (s : State) : Host.Outcome State Fault Refusal :=
  match (getLink s link).rx.findIdx? (fun p => p.ty == .retryReq) with
  | none => .next s
  | some i =>
    let s1 := takeRx s link i
    .next (if receives s1 link then pumpLink (resendAll s1 link) link else s1)

/-- NULL_PACKET: only its acknowledgement and credits, which took effect as it came (R305). -/
def execNullPacket (link : Nat) (s : State) : Host.Outcome State Fault Refusal :=
  match (getLink s link).rx.findIdx? (fun p => p.ty == .null) with
  | none => .next s
  | some i => .next (pumpLink (takeRx s link i) link)

/-- REPLAY_TIMEOUT: the oldest unacknowledged flit has waited 2 µs (R310). -/
def execReplayTimeout (link : Nat) (s : State) : Host.Outcome State Fault Refusal :=
  match (getLink s link).unacked with
  | u :: _ => if receives s link && decide (u.sentAt + 2000 ≤ now s) then .next (resendAll s link) else .next s
  | [] => .next s

/-- An event frame whose code the manual does not give: the code is a free value.
Log entry 62 (DEDUCED). -/
def openEvent (s : State) (sev : Nat) (origin : EvOrigin) (unit : Nat) : State :=
  let (k, s1) := takeFree s
  pushEvent s1 { seq := 0, code := Config.freeNat k % 4096, severity := sev, origin := origin.code, slot := 0xFFFF,
                 device := s.pool.device, tag := 0, stamp := stamp s, unit := unit, detail := [], sent := false } false

/-- Each link that has nothing else to send sends a NULL (R309).
Log entry 113 (DESIGN CHOICE). -/
def sendIdle (s : State) : State :=
  ((List.range 36).filter (fun l => receives s l && (getLink s l).egress.isEmpty)).foldl (fun st l => sendBare st l .null) s

/-- LINK_RETRAIN: one flit has been resent 8 times in succession, or 64 flits within 1 ms; or the other end retrains, and this one
sees its training patterns (R309, R311).
Log entry 62 (DEDUCED). -/
def execLinkRetrain (cause : RetrainCause) (s : State) : Host.Outcome State Fault Refusal :=
  let link := cause.link
  let k := getLink s link
  let many := decide (64 ≤ (k.resentAt.filter (fun t => decide (now s < t + 1000000))).length)
  if k.st = .up && (k.unacked.any (fun u => decide (8 ≤ u.resends)) || many || cause == .patterns link) then
    let calmed := k.unacked.map (fun (u : Unacked) => { u with resends := 0 })
    let k1 : Link := { k with st := .retraining, attempts := 0, resentAt := [], unacked := calmed }
    .next (openEvent (bump (setLink s link k1) (Key.linkRetrains link) 1) 1 .link link)
  else .next s

/-! ### A member missing (R327, R328) -/

/-- The task spans the pool (R328). -/
def spansPool (s : State) (sl : Slot) : Bool := namesPeers s sl.words || sl.posted || sl.peerUser

/-- End the tasks that satisfy a condition, in states 1 to 4 and 7, with PEER_LOST. -/
def endTasksWhere (s : State) (p : Slot → Bool) : State :=
  evalWaits (((liveSlots s).filter (fun e => p e.2 && (decide (1 ≤ e.2.state ∧ e.2.state ≤ 4) || e.2.state == 7))).foldl
    (fun st e => endTask st e.1 { code := Code.peerLost, sev := 2, origin := .fountain }) s)

/-- End every request to peers with a code. -/
def endAllReqs (s : State) (code : Nat) : State :=
  (s.pool.reqs ++ s.pool.waiting).foldl (fun st r => failReq st r code) { s with pool := { s.pool with reqs := [], waiting := [] } }

/-- Running host copies of other members' memory, of those that `gone` picks, end with PEER_LOST (R346). -/
def endFarCopies (s : State) (gone : Nat → Bool) : State :=
  (mapKeys s.port.copies).foldl (fun st cc =>
    let d := addrDevice (getCopy st cc).pool
    if d ≠ st.pool.device ∧ gone d = true then failCopy st cc Code.peerLost else st) s

/-- Links that are trained: the two ends know each other. -/
def trainedLinks (s : State) : List Nat := (List.range 36).filter (fun l => (getLink s l).st == .up)

/-- Send a POOL message on every working link.
Log entry 104 (DESIGN CHOICE). -/
def floodPool (s : State) (kind : Nat) (nums : List Nat) : State :=
  ((List.range 36).filter (linkWorking s)).foldl (fun st l => emit st (.pool l kind nums)) s

/-- A pair named in one order.
Log entry 56 (DEDUCED). -/
def pairOf (a b : Nat) : Nat × Nat := (min a b, max a b)

/-- A device that is absent: every pair of it with a member is broken (R327). -/
def absentDevice (s : State) (d : Nat) : Bool :=
  let ps := (peersOf (poolShape s) d).filter (fun q => bit s.pool.members q)
  !ps.isEmpty && ps.all (fun q => s.pool.broken.contains (pairOf d q))

/-- The pair of members `a` and `b` has no link left: the pool is BROKEN (R327, R328). -/
def breakPool (s : State) (a b : Nat) : State :=
  if !(inPool s) || !(isMember s a) || !(isMember s b) || s.pool.broken.contains (pairOf a b) then s
  else
    let s1 := { s with pool := { s.pool with broken := s.pool.broken ++ [pairOf a b], st := .broken } }
    let away := absentDevice s1 a || absentDevice s1 b
    let s2 := setObj (setObj s1 Key.brokenPair ((pairOf a b).1 * 256 + (pairOf a b).2 + (if away then 2 ^ 31 else 0))) Key.brokenTime (stamp s)
    let s3 := raiseUnit s2 Code.poolBroken 2 .link ((pairOf a b).1 * 256 + (pairOf a b).2) []
    endFarCopies (endAllReqs (endTasksWhere (floodPool s3 2 [a, b]) (spansPool s3)) Code.peerLost) (fun _ => true)

/-- POOL_LOSS: a message names a broken pair (R327).
Log entry 56 (DEDUCED). -/
def execPoolLoss (a b : Nat) (s : State) : Host.Outcome State Fault Refusal := .next (breakPool s a b)

/-! ### Links that go down (R309, R311, R312) -/

/-- A flit that was unacknowledged when its link went DOWN: the requester is told (R312). -/
def lostFlit (s : State) (half : Nat) (p : Packet) : State :=
  if p.ty = .postB ∨ p.vc = 3 then s
  else if p.vc = 1 then
    sendPacket s half [{ p with ty := .refused, src := p.src, dst := p.dst, hops := 0, sectors := 0, payload := leBytes 2 Code.linkLost }]
  else if p.src = s.pool.device then
    (match findReq s p.dst p.tag with
     | none => s
     | some r => failReq (dropReq s p.dst p.tag) r Code.linkLost)
  else
    sendPacket s half [{ p with ty := .refused, src := p.dst, dst := p.src, hops := 0, sectors := 0, payload := leBytes 2 Code.linkLost }]

/-- A link goes DOWN. -/
def linkGoesDown (s : State) (l : Nat) : State :=
  let k := getLink s l
  let s1 := setLink s l { Link.idle with st := .down, peerDev := k.peerDev, peerLink := k.peerLink, rx := k.rx, pllLost := k.pllLost }
  let s2 := raiseUnit (setObj s1 (Key.downTime l) (stamp s)) Code.linkDown 1 .link l []
  let s3 := k.unacked.foldl (fun st u => lostFlit st (linkHalf l) u.pkt) s2
  let s4 := k.egress.foldl (fun st ps => sendPacket st (linkHalf l) ps) s3
  match k.peerDev with
  | none => s4
  | some q =>
    if (List.range 36).any (fun j => let x := getLink s4 j
        x.peerDev == some q && (x.st == .up || x.st == .retraining)) then s4
    else breakPool s4 s.pool.device q

/-- LINK_DOWN_TIMEOUT: no good flit for 8 µs (R309). -/
def execLinkDownTimeout (link : Nat) (s : State) : Host.Outcome State Fault Refusal :=
  let k := getLink s link
  if (k.st = .up ∨ k.st = .withdrawn) ∧ k.lastGood + 8000 ≤ now s then .next (linkGoesDown s link) else .next s

/-- CLOCK_LOCKS bit 4 is set again once every link PLL is in lock (R392, R447).
Log entry 63 (DEDUCED). -/
def relockLink (s : State) : State :=
  if s.links.all (fun e => !e.2.pllLost) && s.time.runs && !(bit s.time.locks 4) then
    { s with time := { s.time with locks := s.time.locks + 16 } }
  else s

/-- LINK_RETRAIN_COMPLETE: a retrain succeeds and the unacknowledged flits are resent, or it fails; a third failure puts the
link DOWN (R303, R311, R330). -/
def execLinkRetrainComplete (train : LinkTrain) (s : State) : Host.Outcome State Fault Refusal :=
  let l := train.link
  let k := getLink s l
  if k.st ≠ .retraining ∧ k.st ≠ .training then .next s
  else if trainOk train then
    let s1 := setObj s (Key.eyeMargin l) train.eye
    .next (pumpLink (resendAll (relockLink (setLink s1 l (trained s train k))) l) l)
  else if k.attempts + 1 ≥ 3 then .next (linkGoesDown s l)
  else .next (setLink s l { k with attempts := k.attempts + 1 })

/-! ### Withdrawing a link (R330) -/

/-- A link goes to WITHDRAWN: routing stops choosing it, and what was never sent on it is routed again.
Log entry 55 (DEDUCED). -/
def withdrawLink (s : State) (l : Nat) : State :=
  let k := getLink s l
  if k.st ≠ .up then s
  else k.egress.foldl (fun st ps => sendPacket st (linkHalf l) ps) (setLink s l { k with st := .withdrawn, egress := [] })

/-- POOL_WITHDRAW: the other end withdraws the link, and this one answers (R330). -/
def execPoolWithdraw (link : Nat) (s : State) : Host.Outcome State Fault Refusal :=
  .next (if (getLink s link).st = .up then withdrawLink (emit s (.pool link 3 [])) link else s)

/-- LINK_ENABLE takes effect: false withdraws the link, true retrains it (R330). -/
def applyLinkEnable (s : State) (l v : Nat) : State :=
  let k := getLink s l
  let s1 := setObj s (Key.linkEnable l) v
  if v = 0 then (if k.st = .up then withdrawLink (emit s1 (.pool l 3 [])) l else s1)
  else if k.st = .withdrawn then setLink s1 l { k with st := .training, attempts := 0 }
  else s1

/-- Withdrawing link `l` would leave two joined members without a working link (R330). -/
def lastLink (s : State) (l : Nat) : Bool :=
  inPool s && linkWorking s l &&
    (match (getLink s l).peerDev with
     | none => false
     | some q => (List.range 36).all (fun j => j == l || !(linkWorking s j) || (getLink s j).peerDev != some q))

/-! ### Membership (R324 to R326, R416) -/

/-- A pair of members that R315 joins has a working link, as far as this device knows. -/
def pairUp (s : State) (a b : Nat) : Bool :=
  if a = s.pool.device ∨ b = s.pool.device then
    let q := if a = s.pool.device then b else a
    (List.range 36).any (fun l => let k := getLink s l
      k.peerDev == some q && k.st == .up && getObj s (Key.linkEnable l) == 1)
  else !(s.pool.broken.contains (pairOf a b))

/-- The next devices of the minimal routes from `a` to `b` (R316). -/
def nextHops (a b : Nat) : List Nat :=
  (if devX a ≠ devX b then [devAt (devX b) (devY a) (devZ a)] else []) ++
  (if devY a ≠ devY b then [devAt (devX a) (devY b) (devZ a)] else []) ++
  (if devZ a ≠ devZ b then [devAt (devX a) (devY a) (devZ b)] else [])

/-- A minimal route of at most `n` hops over members. -/
def routeWithin (s : State) (ms : List Nat) (b : Nat) : Nat → Nat → Bool
  | 0, a => a == b
  | n + 1, a => a == b || (nextHops a b).any (fun c => ms.contains c && pairUp s a c && routeWithin s ms b n c)

/-- R325: every two members have a minimal route over members whose every link works.
Log entry 55 (DEDUCED). -/
def membersValid (s : State) (m : Nat) : Bool :=
  let ms := bitsOf 64 m
  ms.all (fun a => ms.all (fun b => routeWithin s ms b 3 a))

/-- The device's formation is kept in flash each time it reaches FORMED (R416). -/
def noteFormation (s : State) : State :=
  { s with flash := { s.flash with formation := some ⟨s.pool.device, s.pool.x, s.pool.y, s.pool.z⟩ } }

/-- A membership takes effect: tasks and requests end with PEER_LOST, and the device is FORMED or WAITING (R326).
Log entry 68 (DESIGN CHOICE). -/
def applyMembers (s : State) (m : Nat) : State :=
  let named := bit s.pool.members s.pool.device || bit m s.pool.device
  let s1 := endFarCopies (if named then endAllReqs (endTasksWhere s (fun _ => true)) Code.peerLost else s) (fun d => !(bit m d))
  let s2 := { s1 with pool := { s1.pool with members := m, broken := [], st := if bit m s.pool.device then .formed else .waiting } }
  if bit m s.pool.device then noteFormation s2 else s2

/-- POOL_MEMBERS: a committed membership reaches its instant on this device (R324, R326). -/
def execPoolMembers (members : Nat) (s : State) : Host.Outcome State Fault Refusal :=
  if poolShape s = 0 ∨ s.boot.stage < 8 ∨ s.pool.st = .standalone then .next s
  else .next (applyMembers s (members % 2 ^ 64))

/-- A warning of S8: the first one goes into the report. -/
def noteS8 (s : State) (code : Nat) : State := if s.pool.s8code = 0 then { s with pool := { s.pool with s8code := code } } else s

/-- Check the peer of every trained link against R315 (R324, step 3). -/
def checkCables (s : State) : State :=
  (trainedLinks s).foldl (fun st l =>
    let k := getLink st l
    if cabledTo (poolShape st) st.boot.tier st.pool.device l == (match k.peerDev, k.peerLink with
        | some d, some j => some (d, j)
        | _, _ => none) then st
    else noteS8 (raiseUnit (setLink st l { k with st := .miscabled }) Code.cableMismatch 1 .link l []) Code.cableMismatch) s

/-- Take coordinates and the device number they give (R22). -/
def takeCoords (s : State) (x y z : Nat) : State :=
  { s with pool := { s.pool with device := devAt x y z, x := x, y := y, z := z } }

/-- Send ASSIGN on the trained links, but for one, with the coordinates of each link's peer (R324). -/
def sendAssigns (s : State) (skip : Option Nat) : State :=
  (trainedLinks s).foldl (fun st l =>
    match cabledTo (poolShape st) st.boot.tier st.pool.device l with
    | some (q, _) => if skip = some l then st else emit st (.pool l 0 [devX q, devY q, devZ q])
    | none => st) s

/-- POOL_STATE_QUERY: at S8 the peers' pool states have come: a pool that exists is joined later as WAITING; otherwise the
head begins to assign, and other devices wait for it (R324, R416). -/
def execPoolStateQuery (answers : List (Nat × Nat)) (s : State) : Host.Outcome State Fault Refusal :=
  let asked := (trainedLinks s).foldl (fun st l => emit st (.pool l 5 [])) s
  if poolShape s = 0 ∨ s.boot.stage ≠ 8 ∨ s.boot.stopped = true ∨ s.pool.st ≠ .standalone then .next s
  else if answers.any (fun a => decide (2 ≤ a.2 ∧ a.2 ≤ 4)) then
    match s.flash.formation with
    | some f => .next { asked with pool := { s.pool with device := f.device, x := f.x, y := f.y, z := f.z, st := .waiting } }
    | none => .next { asked with pool := { s.pool with st := .waiting } }
  else if s.port.up then
    let s1 := takeCoords { asked with pool := { s.pool with head := true, st := .forming, assignedAt := some (now s) } } 0 0 0
    .next (sendAssigns (checkCables s1) none)
  else .next { asked with pool := { s.pool with st := .forming } }

/-- The versions that run: those of the slots that the start chose (R390). -/
def runningKeeper (s : State) : Nat := getObj s (Key.keeperVersion (if s.boot.keeperSlot then 1 else 0))
def runningFountain (s : State) : Nat := getObj s (Key.fountainVersion (if s.boot.fountainSlot then 1 else 0))

/-- POOL_ASSIGN: a device learns its coordinates from a neighbour (R324, steps 3 and 4); a head that hears it has met another
head.
Log entry 56 (DEDUCED). -/
def execPoolAssign (link x y z : Nat) (s : State) : Host.Outcome State Fault Refusal :=
  if s.pool.st ≠ .forming ∨ (getLink s link).st ≠ .up then .next s
  else if s.pool.head then .next (noteS8 { s with pool := { s.pool with st := .waiting } } Code.poolTwoHeads)
  else if s.pool.gotAssign then .next s
  else
    let s1 := checkCables (takeCoords { s with pool := { s.pool with gotAssign := true } } x y z)
    let join := [s1.pool.device, s1.boot.tier, poolShape s1, runningKeeper s1, runningFountain s1]
    .next (emit (sendAssigns s1 (some link)) (.pool link 1 join))

/-- POOL_JOIN: the head takes a device that has joined, or refuses one of another tier or shape; on the device that has sent it, a
JOIN that comes back is refused, and the device waits (R324, step 4).
Log entry 56 (DEDUCED). -/
def execPoolJoin (device tier shape keeper fountain : Nat) (s : State) : Host.Outcome State Fault Refusal :=
  if s.pool.st ≠ .forming ∨ 64 ≤ device then .next s
  else if s.pool.head = false then
    .next (if s.pool.gotAssign = true ∧ device = s.pool.device then
      noteS8 { s with pool := { s.pool with st := .waiting } } Code.poolMismatch else s)
  else if tier ≠ s.boot.tier ∨ shape ≠ poolShape s then
    .next (noteS8 ((trainedLinks s).foldl (fun st l => emit st (.pool l 7 [device])) s) Code.poolMismatch)
  else if s.pool.joined.any (fun j => j.device == device) then .next s
  else .next { s with pool := { s.pool with joined := s.pool.joined ++ [⟨device, keeper, fountain⟩] } }

/-- POOL_FORMATION_DEADLINE: two seconds after the head began to assign; where the members are not valid, a membership of none
sends them to WAITING (R324, step 5).
Log entry 56 (DEDUCED). -/
def execPoolFormationDeadline (s : State) : Host.Outcome State Fault Refusal :=
  match s.pool.head && s.pool.st == .forming, s.pool.assignedAt with
  | true, some t =>
    if now s < t + 2000000000 then .next s
    else
      let m := maskOf (0 :: s.pool.joined.map (·.device))
      if membersValid s m then
        .next (applyMembers ((trainedLinks s).foldl (fun st l => emit st (.pool l 6 [m])) s) m)
      else
        let s1 := (trainedLinks s).foldl (fun st l => emit st (.pool l 6 [0])) s
        .next (noteS8 { s1 with pool := { s1.pool with st := .waiting } } Code.poolWiring)
  | _, _ => .next s

/-- POOL_RESET: a member has been through a Cistern-only reset: the tasks whose writes it had accepted end with
VERTICAL_ABORT (R331).
Log entry 56 (DEDUCED). -/
def execPoolReset (device : Nat) (s : State) : Host.Outcome State Fault Refusal :=
  .next (((liveSlots s).filter (fun e => e.2.peersWritten.contains device && (e.2.state == 3 || e.2.state == 4 || e.2.state == 7))).foldl
    (fun st e => verticalAbort st e.1) s)

end Sys2Proof.Machine
end

