-- ==== Sys2Proof/Machine/Time.lean ====
section
/-! DEFINITION. The timebase, its pulse input, and snapshots (R443 to R452, R479). -/

namespace Sys2Proof.Machine

/-- The arithmetic clock that runs: the slower of ARITH_CLOCK and the throttling step's clock, numbered as ARITH_CLOCK is
(R435, R445). -/
def runningClock (s : State) : Nat := max (getObj s Key.arithClock) (min s.power.step 2)

/-- Thirds of a core cycle in one ns, at 4.0, 2.667 and 2.0 GHz (R443).
Log entry 6 (DESIGN CHOICE). -/
def cycleThirds (clock : Nat) : Nat := if clock = 0 then 12 else if clock = 1 then 8 else 6

/-- The cores are clocked and S10 has been reached: the device has power, its rails are on, and the core PLL is in lock (R128).
Log entry 6 (DESIGN CHOICE). -/
def coresRun (s : State) : Bool := s.boot.reachedS10 && s.boot.powered && decide (s.boot.dark = .none) && bit s.time.locks 1

/-- The timebase one ns of its 1 GHz clock later: a ns multiplied by the rate trim, whose fraction accumulates (R448).
Log entry 2 (DESIGN CHOICE). -/
def advanceTb (t : Time) : Time :=
  if t.runs then
    let f := t.frac + t.trim
    if f ≥ 1000000000 then { t with tb := (t.tb + 2) % 2 ^ 64, frac := f - 1000000000 }
    else if f < 0 then { t with frac := f + 1000000000 }
    else { t with tb := (t.tb + 1) % 2 ^ 64, frac := f }
  else t

/-- One ns passes.
Log entries 2 (DESIGN CHOICE); 5 (DESIGN CHOICE). -/
def tick (s : State) : State :=
  let c := if coresRun s then s.time.cycFrac + cycleThirds (runningClock s) else s.time.cycFrac
  let t := advanceTb s.time
  { s with time := { t with ns := t.ns + 1, cycle := (t.cycle + c / 3) % 2 ^ 64, cycFrac := c % 3 } }

/-! ### Pulses (R448, R449) -/

abbrev second : Nat := 1000000000

/-- The multiple of 10⁹ nearest a reading, the earlier on an exact tie (R448).
Log entry 80 (DEDUCED). -/
def expectedInstant (tb : Nat) : Nat := (tb + second / 2 - 1) / second * second

/-- Within ±2 µs of the expected instant. -/
def inPulseWindow (tb : Nat) : Bool :=
  decide (((tb : Int) - expectedInstant tb).natAbs ≤ 2000)

/-- The rate trim, in 10⁻⁹, that makes the interval between two pulses a whole number of seconds, within ±100 ppm; with
less than half a second between them the manual gives none, and `free` supplies one.
Log entry 80 (DEDUCED). -/
def trimOf (interval : Nat) (free : Nat) : Int :=
  let n := expectedInstant interval / second
  if n = 0 then (Config.freeNat free % 200001 : Nat) - 100000
  else max (-100000) (min 100000 (((n * second : Nat) - (interval : Int)) / (n : Int)))

/-- A pulse is obeyed (R449).
Log entry 80 (DEDUCED). -/
def obeyPulse (s : State) (state window : Nat) : State :=
  let tb := s.time.tb
  let e := expectedInstant tb
  let f := takeFree s
  let t := f.2.time
  let trim := match t.lastEdge with
    | none => t.trim
    | some k => trimOf (t.ns - k) f.1
  { f.2 with time := { t with
      tb := match t.load with
        | some x => x * second
        | none => e
      load := none
      frac := 0
      trim := trim
      pps := state
      inWindow := window
      offset := (tb : Int) - e
      last := tb
      accepted := (t.accepted + 1) % 2 ^ 64
      lastEdge := some t.ns
      lastObeyed := some t.ns } }

/-- A pulse is not obeyed (R449).
Log entry 80 (DEDUCED). -/
def refusePulse (s : State) : State :=
  let tb := s.time.tb
  let s1 := { s with time := { s.time with
    offset := (tb : Int) - expectedInstant tb, rejects := (s.time.rejects + 1) % 2 ^ 32, lastEdge := some s.time.ns } }
  if s.time.pps = 3 then s1
  else raiseUnit { s1 with time := { s1.time with pps := 3 } } Code.ppsRejected 1 .keeper 0xFFFFFFFF []

/-- PPS_PULSE: an edge is captured (R449). -/
def execPpsPulse (s : State) : Host.Outcome State Fault Refusal :=
  let ok := inPulseWindow s.time.tb
  .next (
    if !s.time.runs then s
    else if s.time.lastObeyed.any (fun k => decide (s.time.ns < k + 100000000)) then
      { s with time := { s.time with rejects := (s.time.rejects + 1) % 2 ^ 32 } }
    else if s.time.pps = 0 then
      (if !ok then obeyPulse s 0 0 else if s.time.inWindow = 0 then obeyPulse s 0 1 else obeyPulse s 1 0)
    else if ok then obeyPulse s 1 0
    else refusePulse s)

/-- No edge has been captured since half a second before the last whole second, and 2 µs of the second have gone.
Log entry 80 (DEDUCED). -/
def pulseMissing (s : State) : Bool :=
  let r := s.time.tb % second
  s.time.runs && decide (2000 ≤ r ∧ r < second / 2) &&
    s.time.lastEdge.all (fun k => decide (k + r + second / 2 < s.time.ns))

/-- PPS_MISSING: a pulse is missing; the state aligned becomes holdover (R449). -/
def execPpsMissing (s : State) : Host.Outcome State Fault Refusal :=
  .next (
    if !pulseMissing s then s
    else
      let s1 := { s with time := { s.time with inWindow := 0 } }
      if s.time.pps = 1 then
        raiseUnit { s1 with time := { s1.time with pps := 2 } } Code.ppsLost 1 .keeper 0xFFFFFFFF []
      else s1)

/-! ### Snapshots (R452, R479) -/

/-- TIMING_CHOICES (R396, R473). -/
def timingChoices (s : State) : Nat :=
  (getObj s Key.routeChoices + getObj s Key.reduceArbitrations + getObj s Key.schedTiebreaks) % 2 ^ 64

/-- A snapshot of every byte counter and of the timing choices (R479). -/
def snapshot (s : State) : State :=
  let s1 := forEach ((List.range 5).flatMap (fun p => (List.range 8).map (fun c => p * 16 + c))) s (fun st i =>
    setObj st (Key.bytesSnap i) (getObj st (Key.bytes i)))
  setObj (setObj s1 Key.choicesSnap (timingChoices s)) Key.snapTime (stamp s)

/-- SNAPSHOT_AT: the timebase has reached it; the object then reads 0 (R479). -/
def execSnapshotAt (s : State) : Host.Outcome State Fault Refusal :=
  .next (
    if getObj s Key.snapshotAt = 0 ∨ stamp s < getObj s Key.snapshotAt then s
    else setObj (snapshot s) Key.snapshotAt 0)

end Sys2Proof.Machine
end

