-- ==== Sys2Proof/Machine/Dict.lean ====
section
/-! DEFINITION. The dictionary as it is read (R353 to R360, R386 to R400): the value of every object, and which area may
be read. A value that another part of the state holds is computed from there. -/

namespace Sys2Proof.Machine

/-- 1 for true (R354). -/
def boolNum (b : Bool) : Nat := if b then 1 else 0

/-! ### Idleness and readiness (R356, R360, R386, R387) -/

/-- The device is idle (R356). -/
def deviceIdle (s : State) : Bool :=
  (liveSlots s).all (fun e => e.2.state == 5 || e.2.state == 6) && s.fountain.intake.isEmpty &&
    s.port.copies.all (fun e => e.2.state != 3) && s.keeper.svcs.all (fun e => e.2.state != 3)

/-- The boot ROM answers in the Keeper's place: both Keeper slots have failed (R409).
Log entry 73 (DEDUCED). -/
def reducedResponder (s : State) : Bool := s.boot.stopped && !s.boot.keeperRuns && decide (s.boot.stage = 2)

/-- The objects of an area may be read and written now; those kept in flash from S2 on. -/
def areaOpen (s : State) (area : Nat) (flash : Bool) : Bool :=
  if reducedResponder s then area == 0x10 || area == 0x60
  else netUp s && (flash || decide (areaReady area ≤ 2) || decide (areaReady area + 1 ≤ s.boot.done))

/-! ### Licences and tiers (R2, R391) -/

def tierCores (t : Nat) : Nat := if t = 3 then 512 else if t = 2 then 384 else if t = 1 then 256 else 0
def tierStacks (t : Nat) : Nat := if t = 3 then 8 else if t = 2 then 6 else if t = 1 then 4 else 0

/-- The links that a tier enables (R19). -/
def tierHasLink (t l : Nat) : Bool := decide (l % 18 < tierLinks t ∧ l < 36)

/-- The stacks that a tier enables (R19). -/
def tierHasStack (t k : Nat) : Bool := decide (k % 4 < tierStacks t / 2 ∧ k < 8)

/-- Ordering codes (R2). -/
def orderingCode (t : Nat) : List Byte :=
  let digits : List Nat := if t = 3 then [0x36, 0x34, 0x30] else if t = 2 then [0x34, 0x38, 0x30] else [0x33, 0x32, 0x30]
  if t = 0 then [] else
    ([0x4F, 0x51, 0x2D, 0x4C, 0x56, 0x36, 0x34, 0x30, 0x2D, 0x4D, 0x2D, 0x54] ++ digits).map (BitVec.ofNat 8)

/-! ### Events as bytes (R371) -/

/-- An event of the ring by number (R372). -/
def findEvent (s : State) (seq : Nat) : Option Event := s.keeper.ring.find? (fun e => e.seq == seq)

/-! ### Status words outside the Fountain (R344, R382) -/

/-- STATE, CODE and a count in the layout of R62. -/
def statusOf (state code count : Nat) : Nat := state * 2 ^ 60 + code % 4096 * 2 ^ 48 + count % 2 ^ 44

/-- COPY_STATUS (R344). -/
def copyStatus (s : State) (cc : Nat) : Nat :=
  let c := mapGet CopySlot.idle s.port.copies cc
  statusOf c.state c.code c.moved

/-- SVC_STATUS (R382). -/
def svcStatus (s : State) (op : Nat) : Nat :=
  let v := getSvc s op
  statusOf v.state v.code v.progress

/-! ### Numeric views, by area -/

/-- LINK_STATE's numbers (R333). -/
def LinkSt.code : LinkSt → Nat
  | .down => 0 | .training => 1 | .up => 2 | .retraining => 3 | .withdrawn => 4 | .notLicensed => 5 | .unused => 6
  | .miscabled => 7

/-- POOL_STATE's numbers (R333). -/
def PoolState.code : PoolState → Nat
  | .standalone => 0 | .forming => 1 | .formed => 2 | .broken => 3 | .waiting => 4

/-- TXN_STATE's numbers (R385). -/
def TxnSt.code : TxnSt → Nat
  | .none => 0 | .open_ => 1 | .prepared => 2 | .committing => 3 | .applying => 4

/-- Area 0x10 (R390). -/
def view10 (s : State) (obj elt : Nat) : Option Nat :=
  match obj, elt with
  | 0x1, 0 => some (identitySerial s)
  | 0x2, 0 => some s.boot.siliconRev
  | 0x2, 1 => some s.flash.moduleRev
  | 0x10, 2 => some (boolNum s.boot.keeperSlot)
  | 0x11, 2 => some (boolNum s.boot.fountainSlot)
  | 0x12, 1 => some (boolNum s.boot.pairListed)
  | 0x13, 0 => some (boolNum s.boot.untested)
  | _, _ => none

/-- The tier in force: none where LICENCE_STATE is not 0. -/
def tierInForce (s : State) : Nat := if getObj s Key.licenceState = 0 then s.boot.tier else 0

/-- Area 0x14 (R391). -/
def view14 (s : State) (obj elt : Nat) : Option Nat :=
  match obj, elt with
  | 0x1, 0 => some (tierInForce s)
  | 0x3, 0 => some (tierCores (tierInForce s))
  | 0x3, 1 => some (2 * tierLinks (tierInForce s))
  | 0x3, 2 => some (tierStacks (tierInForce s))
  | _, _ => none

/-- Area 0x18 (R392). -/
def view18 (s : State) (obj elt : Nat) : Option Nat :=
  match obj, elt with
  | 0x1, 0 => some s.time.locks
  | 0x10, 0 => some s.time.tb
  | 0x12, 0 => some s.time.pps
  | 0x13, 0 => some (unsigned 32 s.time.offset)
  | 0x14, 0 => some s.time.accepted
  | 0x14, 1 => some s.time.rejects
  | 0x15, 0 => some s.time.last
  | _, _ => none

/-- The earliest deadline of the running drains, 0 with none (R385). -/
def drainDeadline (s : State) : Nat :=
  match (s.keeper.drains.map (·.deadlineTb)).min? with
  | some t => t
  | none => 0

/-- Area 0x20 (R385). -/
def view20 (s : State) (obj elt : Nat) : Option Nat :=
  match obj, elt with
  | 0x3, 0 => some (s.boot.straps % 16)
  | 0x10, 0 => some s.keeper.txn.st.code
  | 0x10, 1 => some s.keeper.txn.id
  | 0x10, 2 => some s.keeper.txn.staged.length
  | 0x10, 3 => some s.keeper.txn.activityTb
  | 0x10, 4 => some s.keeper.txn.instant
  | 0x21, 0 => some s.keeper.drains.length
  | 0x21, 1 => some (drainDeadline s)
  | 0x40, 0 => some s.keeper.eventSeq
  | _, _ => none

/-- Area 0x24 (R382). -/
def view24 (s : State) (obj elt : Nat) : Option Nat := if elt = 3 then some (svcStatus s obj) else none

/-- Volts of a number of µV, amperes of mA, watts of mW (R393). -/
def f32Micro (n : Nat) : Nat := if n = 0 then 0 else f32OfRatio n 1000000
def f32Milli (n : Int) : Nat := if n = 0 then 0 else f32OfRatio n 1000

/-- A minimum record's voltage and stamp; 0 while it holds none. -/
def minMicro (m : Option MinRec) : Nat := (m.map (·.micro)).getD 0
def minStamp (m : Option MinRec) : Nat := (m.map (·.stamp)).getD 0

/-- Area 0x28 (R393). -/
def view28 (s : State) (obj elt : Nat) : Option Nat :=
  let r := obj - 0x20
  let k := obj - 0x100
  if obj = 1 then
    (match elt with
     | 0 => some (f32Micro s.power.inletMicro)
     | 1 => some (f32Milli s.power.inletMilliAmp)
     | _ => some (f32Milli (s.power.powers.headD 0)))
  else if 0x20 ≤ obj ∧ obj < 0x27 then
    (match elt with
     | 0 => some (f32Micro (mapGet 0 s.power.railVolt r))
     | 1 => some (f32Micro (minMicro (mapGet none s.power.railMin r)))
     | 2 => some (minStamp (mapGet none s.power.railMin r))
     | _ => some (f32Milli (mapGet 0 s.power.railAmp r : Nat)))
  else if 0x100 ≤ obj ∧ obj < 0x1C0 then
    (match elt with
     | 0 => some (mapGet 0 s.power.clusterState k)
     | 1 => some (mapGet 0 s.power.failedMask k)
     | 2 => some (f32Milli (mapGet 0 s.power.clusterAmp k : Nat))
     | 3 => some (f32Micro (minMicro (mapGet none s.power.clusterMin k)))
     | _ => some (minStamp (mapGet none s.power.clusterMin k)))
  else if 0x200 ≤ obj then some (mapGet 0 s.power.regionState (obj - 0x200))
  else none

/-- The object numbers of the diode channels and modelled points (R394). -/
def sensorObjs : List Nat := (List.range 1152).map (· + 0x1000) ++ (List.range 256).map (· + 0x2000)

/-- HOTTEST: the object number of the highest reading, 0 before any round (R394). -/
def hottest (s : State) : Nat :=
  if s.power.measured then
    ((s.power.temp.foldl (fun (acc : Option (Nat × Int)) e => match acc with
      | none => some e
      | some b => if b.2 < e.2 then some e else acc) none).map (·.1)).getD 0
  else 0

/-- Area 0x2C (R394). -/
def view2C (s : State) (obj elt : Nat) : Option Nat :=
  if obj = 1 then
    (match elt with
     | 0 => some s.power.step
     | 1 => some s.power.throttleCause
     | _ => some (s.power.throttleNs + (if 0 < s.power.step then now s - s.power.stepSince else 0)))
  else if obj = 0x12 then some (hottest s)
  else if 0x1000 ≤ obj then
    (match elt with
     | 0 => some (f32Milli (mapGet 0 s.power.temp obj))
     | 2 => some (mapGet 0 s.power.sensor obj)
     | 3 => some (f32Milli (mapGet 0 s.power.peak obj))
     | 4 => some (f32Milli (mapGet 0 s.power.rise obj))
     | _ => none)
  else none

/-- Area 0x30 (R385, R395). -/
def view30 (s : State) (obj elt : Nat) : Option Nat :=
  match obj with
  | 0x10 => some (16384 - s.fountain.intake.length)
  | 0x33 => some (classState s elt)
  | 0x50 => some (slotsIn s elt)
  | 0x51 => some (freeSpawn s)
  | _ => none

/-- Area 0x31 (R395). -/
def view31 (s : State) (obj elt : Nat) : Option Nat :=
  if elt = 0 then some (getCounter s obj).value else some (boolNum (getCounter s obj).poison)

/-- Area 0x34 (R396). -/
def view34 (s : State) (obj elt : Nat) : Option Nat := if obj = 0x10 ∧ elt = 0 then some (timingChoices s) else none

/-- Area 0x38 (R397). -/
def view38 (s : State) (obj : Nat) : Option Nat := if obj = 4 then some s.flash.signatures.length else none

/-- The identity of the installed pack; 0 with none (R398, R481). -/
def packId (s : State) : Nat := if s.flash.pack = [] then 0 else envVersion s.flash.pack

/-- Area 0x3C (R398). -/
def view3C (s : State) (obj elt : Nat) : Option Nat := if obj = 1 ∧ elt = 0 then some (packId s) else none

/-- Area 0x40 (R385, R399). -/
def view40 (s : State) (obj elt : Nat) : Option Nat :=
  let p := obj - 0x1000
  if obj = 1 then
    (match elt with
     | 0 => some ((mapKeys s.keeper.cores).filter (fun q => coreState s q == 1 || coreState s q == 2)).length
     | 1 => some s.boot.retired
     | _ => some s.boot.shortfall)
  else
    (match elt with
     | 1 => some (coreState s p)
     | 2 => some (logicalOf s p)
     | _ => none)

/-- Area 0x48 (R241). -/
def view48 (s : State) (obj elt : Nat) : Option Nat :=
  if obj = 3 then some ((pinWays s elt - 1) * 2 ^ 27)
  else if 0x1000 ≤ obj then
    let sl := getSlice s (obj - 0x1000)
    (match elt with
     | 3 => some sl.mrs.length
     | 13 => some (if sl.retired then 2 else boolNum sl.portHalf)
     | _ => none)
  else none

/-- Area 0x4C (R254). -/
def view4C (s : State) (obj elt : Nat) : Option Nat :=
  if obj = 1 then some (resTop s - 1)
  else if obj = 2 then some (halfStacks s elt).length
  else if 0x1000 ≤ obj ∧ elt = 1 then some (f32Milli (mapGet 0 s.power.stackTemps (obj - 0x1000)))
  else none

/-- The zone size in pages that a stored OPEN_PAGES or BUFFER_PAGES of a half stands for: a quarter of the half's part
until a write (R256). -/
def zonePages (s : State) (k half : Nat) : Nat :=
  if getObj s k = 0xFFFFFFFF then partPages s half / 4 else getObj s k

/-- The sequence that SEQ_QUERY names (R289). -/
def queriedSeq (s : State) : Option Seqn := getSeq s (getObj s Key.seqQuery)

/-- SEQ_STATE's numbers (R289). -/
def SeqState.code : SeqState → Nat
  | .free => 0 | .active => 1 | .releasing => 2

/-- The elements that SEQ_QUERY selects (R289). -/
def viewSeq (s : State) (elt : Nat) : Option Nat :=
  match elt, queriedSeq s with
  | 0, _ => none
  | _, none => some 0
  | 1, some q => some q.st.code
  | 2, some q => some q.length
  | 3, some q => some q.writeFrom
  | 4, some q => some q.pages.length
  | 5, some q => some (q.pages.filter (fun p => p.st == .host)).length
  | _, some q => some q.half

/-- Area 0x50 (R289). -/
def view50 (s : State) (obj elt : Nat) : Option Nat :=
  let h := getHalf s elt
  match obj with
  | 0x1 => some (zonePages s (Key.openPages elt) elt)
  | 0x2 => some (zonePages s (Key.bufferPages elt) elt)
  | 0x3 => some h.seqPages
  | 0x31 => viewSeq s elt
  | 0x40 => some (s.sluice.seqs.filter (fun e => match e.2 with
      | some q => q.st != .free
      | none => false)).length
  | 0x41 => some (freeSeqPages h)
  | 0x42 => some (blockPages h.bufFree)
  | 0x43 => some (blockPages h.poolFree)
  | 0x44 => some (196608 - (if elt = 0 then s.sluice.dirsUsed else s.sluice.chainsUsed))
  | 0x45 => some (getObj s Key.hostPoolPages - s.sluice.hostNext + s.sluice.hostFreed.length)
  | _ => none

/-- Area 0x58 (R333). -/
def view58 (s : State) (obj elt : Nat) : Option Nat :=
  let k := getLink s (obj - 0x1000)
  if 0x1000 ≤ obj then
    (match elt with
     | 0 => some k.st.code
     | 2 => some (k.peerDev.getD 0xFFFFFFFF)
     | 3 => some (k.peerLink.getD 0xFFFFFFFF)
     | _ => none)
  else
    match obj, elt with
    | 0x2, _ => some s.pool.members
    | 0x3, _ => some s.pool.st.code
    | 0x4, _ => some s.pool.device
    | 0x5, 0 => some s.pool.x
    | 0x5, 1 => some s.pool.y
    | 0x5, _ => some s.pool.z
    | 0x6, _ => some (boolNum s.pool.head)
    | _, _ => none

/-- Area 0x5C (R344, R352). -/
def view5C (s : State) (obj elt : Nat) : Option Nat :=
  if obj = 0x11 then some (s.port.sizeGiB * 2 ^ 30)
  else if 0x100 ≤ obj ∧ elt = 5 then some (copyStatus s (obj - 0x100))
  else none

/-- DEFECT_COUNT: the list's records up to the last one that is in flash (R400, R407, R425).
Log entry 75 (DEDUCED). -/
def defectCount (s : State) : Nat := ((s.flash.defects.zipIdx.filter (fun e => e.1.stored)).map (fun e => e.2 + 1)).foldl max 0

/-- Area 0x60 (R400). -/
def view60 (s : State) (obj elt : Nat) : Option Nat :=
  match obj, elt with
  | 0x1, _ => some (shownStage s)
  | 0x2, 0 => some s.boot.kind
  | 0x2, 1 => some s.flash.startCount
  | 0x2, _ => some s.boot.cause
  | 0x10, _ => some (defectCount s)
  | _, _ => none

/-- The value that a part of the state other than the Keeper's tables holds for an object. -/
def viewOf (s : State) (k : Nat) : Option Nat :=
  let obj := keyObj k
  let elt := keyElt k
  match keyArea k with
  | 0x10 => view10 s obj elt
  | 0x14 => view14 s obj elt
  | 0x18 => view18 s obj elt
  | 0x20 => view20 s obj elt
  | 0x24 => view24 s obj elt
  | 0x28 => view28 s obj elt
  | 0x2C => view2C s obj elt
  | 0x30 => view30 s obj elt
  | 0x31 => view31 s obj elt
  | 0x34 => view34 s obj elt
  | 0x38 => view38 s obj
  | 0x3C => view3C s obj elt
  | 0x40 => view40 s obj elt
  | 0x44 => if 0x1000 ≤ obj ∧ (elt = 6 ∨ elt = 7) then
      some (getObj s k + runCycles s (getEngine (getPos s (obj - 0x1000)) (elt - 6))) else none
  | 0x48 => view48 s obj elt
  | 0x4C => view4C s obj elt
  | 0x50 => view50 s obj elt
  | 0x58 => view58 s obj elt
  | 0x5C => view5C s obj elt
  | 0x60 => view60 s obj elt
  | _ => none

/-- A numeric object's value now. -/
def readNum (s : State) (k : Nat) : Nat := (viewOf s k).getD (getObj s k)

/-- A BYTES or TEXT object's value now. -/
def readBytes (s : State) (k : Nat) : List Byte :=
  if k = Key.identityCert then s.flash.cert
  else if k = Key.identityKey then s.flash.idPoint
  else if k = Key.orderingCode then orderingCode (tierInForce s)
  else if k = Key.macAddress then (if s.flash.idPoint = [] then [] else 0x02#8 :: beBytes 5 (identitySerial s))
  else if k = Key.eventRecord then
    (match findEvent s (getObj s Key.eventQuery) with
     | some e => eventHead leBytes e ++ e.detail
     | none => [])
  else if k = Key.defectEntry then
    (match (s.flash.defects.take (defectCount s))[getObj s Key.defectQuery]? with
     | some d => d.bytes
     | none => [])
  else getBytes s k

/-- An object whose value the manual leaves to time that the model does not keep: the cycles in which a core issued, once a
group has been placed on it, and the cycles that the operations under way in its arrays have streamed (R399).
Log entry 6 (DESIGN CHOICE). -/
def openObj (s : State) (k : Nat) : Bool :=
  let p := keyObj k - 0x1000
  keyArea k == 0x40 && decide (0x1000 ≤ keyObj k) &&
    ((keyElt k == 5 && decide (0 < getObj s (Key.groupsPlaced p))) || (keyElt k == 6 && (getPos s p).arrays.any (fun u => !u.2.started.isEmpty)))

/-- The cycles that the operations under way in the arrays of a position have streamed: any number that they can have. -/
def cyclesUnderWay (s : State) (p k : Nat) : Nat :=
  (((getPos s p).arrays.flatMap (fun u => u.2.started.map (fun r => (u.1, r)))).zipIdx.map (fun e =>
    Config.freeNat (k * 16 + e.2) % (streamCycles (opSteps e.1.2.op.words) + 1))).sum

/-- An open object as it reads, with `k` for what is open in it. -/
def readOpen (s : State) (key k : Nat) : Nat :=
  if keyElt key = 6 then getObj s key + cyclesUnderWay s (keyObj key - 0x1000) k else Config.freeNat k

/-- Read an object that a row names: its value, and the state with the free values that this took. -/
def readRow (s : State) (r : ObjRow) (k : Nat) : Val × State :=
  match r.ty with
  | .bytes => (.bytes (readBytes s k), s)
  | .text => (.bytes (readBytes s k), s)
  | _ =>
    if openObj s k then
      let (n, s1) := takeFree s
      (.num (readOpen s k n % 2 ^ objBits k), s1)
    else (.num (readNum s k % 2 ^ objBits k), s)

/-- Read an object: its value or the code that refuses it (R355, R360, R384).
Log entry 6 (DESIGN CHOICE). -/
def readObj (s : State) (k : Nat) : (Nat ⊕ Val) × State :=
  match objRow k with
  | none => (.inl (if reducedResponder s then Code.notReady else Code.objectUnknown), s)
  | some r =>
    if !(areaOpen s (keyArea k) r.flash) then (.inl Code.notReady, s)
    else if r.acc = .wo then (.inl Code.accessDenied, s)
    else
      let v := readRow s r k
      (.inr v.1, v.2)

end Sys2Proof.Machine
end

