-- ==== Sys2Proof/Machine/Down.lean ====
section
/-! DEFINITION. Losing power, resetting the port, and beginning a start (R283, R329, R346, R348, R389, R401, R402, R407,
R419, R424, R425, R439, R440, R447, R502). -/

namespace Sys2Proof.Machine

/-! ### The port alone (R348) -/

/-- The port resets: running copies end, moves that are cut off fail, BAR requests not yet answered are discarded, and the
configuration space, the BARs and the BAR4 size return to their reset values. -/
def resetPort (s : State) : State :=
  let s1 := (mapKeys s.port.copies).foldl (fun st c => failCopy st c Code.hostCopyFailed) s
  let cut := (outstandingMoves s1).filter (moveServed s1)
  let s2 := cut.foldl (fun st m => if m.2.2 then finishPageIn m.1 m.2.1 none st else finishPageOut m.1 m.2.1 false st) s1
  let s3 := dropJobsFor s2 (fun w => match w with
    | .bar4 _ _ _ => true
    | _ => false)
  setObj (setObj { s3 with port := { Port.reset with refclk := s3.port.refclk, copies := s3.port.copies, chans := s3.port.chans,
                                                     queue := s3.port.queue } } Key.linkRate 0) Key.linkWidth 0

/-! ### The rails off (R329, R419, R440, R447, R462) -/

/-- The device is absent to its pool: every pair of it with a member is broken (R327, R329). -/
def leavePool (s : State) : State :=
  (peersOf (poolShape s) s.pool.device).foldl (fun st q => breakPool st st.pool.device q) s

/-- The compute and SRAM rails go off, and with them everything that the cores, the Fountain, the Cistern and the Sluice
hold; the transmitters are off and the PCIe lanes idle. The Keeper goes on. A service operation is cut off as by a reset
(R441).
Log entry 79 (DEDUCED). -/
def railsOff (s : State) (why : Dark) : State :=
  let s1 := resetPort { s with
    sluice := Sluice.clear, cores := [], fountain := Fountain.clear, cistern := Cistern.clear,
    reservoir := Reservoir.unmapped, links := [], pool := { s.pool with reqs := [], waiting := [] } }
  let s2 := { s1 with
    power := { s1.power with regionState := [] },
    keeper := { s1.keeper with drains := [], testing := [], spotWait := [], svcs := s1.keeper.svcs.filter (fun e => e.2.state != 3) },
    boot := { s1.boot with dark := why } }
  driveFault (leavePool s2)

/-! ### Beginning a start (R401, R402) -/

/-- What flash holds once power or a reset has cut off the stores under way (R389, R407): objects keep their earlier values;
of the records not yet stored, the one being written may be whole, torn or absent; a pending licence not yet stored is whole
or torn (R492).
Log entry 75 (DEDUCED). -/
def settleFlash (s : State) : State :=
  let first := s.flash.stores.findSome? (fun i => match i with
    | .defect n => some n
    | _ => none)
  let (k, s1) := takeFree s
  let torn : List Byte := 0#8 :: (List.range 31).map (fun i => Config.freeByte (k * 64 + i))
  let kept := s1.flash.defects.zipIdx.filterMap (fun e =>
    if e.1.stored then some e.1
    else if some e.2 = first then
      (match Config.freeNat k % 3 with
       | 0 => none
       | 1 => some ⟨torn, true⟩
       | _ => some ⟨e.1.bytes, true⟩)
    else none)
  let half := s1.flash.stores.contains .licence && Config.freeBit k
  { s1 with flash := { s1.flash with stores := [], defects := kept, pendingTorn := s1.flash.pendingTorn || half } }

/-- Bits of the regulators that the defect list names as failed in a cluster (R424). -/
def listedRegulators (s : State) (k : Nat) : Nat :=
  maskOf (((liveRecords s 6).filter (fun b => recUnit b == k)).map recDetail)

/-- Power as a start finds it: failed regulators, dark clusters and broken channels are those of the defect list (R424, R425,
R434).
Log entry 78 (DEDUCED). -/
def startPower (s : State) (trips : List Nat) : Power :=
  let ks := ((liveRecords s 6).map recUnit).dedup
  let dark := ((liveRecords s 7).map recUnit).dedup
  let regs := ks.foldl (fun m k => mapSet 0 m k (listedRegulators s k)) ([] : Sparse Nat)
  let st1 := ks.foldl (fun m k => mapSet 0 m k 1) ([] : Sparse Nat)
  { Power.clear with
    trips := trips, regOff := regs, failedMask := regs, clusterState := dark.foldl (fun m k => mapSet 0 m k 2) st1,
    broken := ((liveRecords s 8).map recUnit).foldl (fun m n => mapSet false m (0x1000 + n) true) [] }

/-- Everything that is not in flash is gone, and the device is at the beginning of S0 (R402). -/
def clearAll (s : State) (trips : List Nat) : State :=
  let s1 := settleFlash s
  let b := s1.boot
  { s1 with
    time := { Time.clear with ns := now s }
    boot := { Boot.powerOn with
      powered := b.powered, present := b.present, inletOut := b.inletOut, resetLow := b.resetLow, kind := b.kind,
      cause := b.cause, reachedS10 := b.reachedS10, cleared := b.cleared, began := now s, romBase := now s,
      straps := b.straps, faultLow := b.faultLow, alertLow := b.alertLow, untested := b.untested,
      shared := ((liveRecords s1 9).map recUnit).filterMap (fun u => if u ≥ 2 ^ 31 then some (u - 2 ^ 31) else none),
      siliconRev := b.siliconRev, romBytes := b.romBytes, rootKeys := b.rootKeys }
    power := startPower s1 trips
    keeper := { Keeper.clear with obj := s1.flash.obj }
    fountain := Fountain.clear
    cores := []
    cistern := Cistern.clear
    reservoir := Reservoir.unmapped
    sluice := Sluice.clear
    links := []
    pool := Pool.alone
    port := { Port.reset with refclk := s1.port.refclk } }

/-- FAST_PATH as flash holds it.
Log entry 76 (DEDUCED). -/
def fastPathSet (s : State) : Bool := mapGet (objDefault Key.fastPath) s.flash.obj Key.fastPath != 0

/-- A warm start takes the fast path (R401, R408, R491).
Log entry 76 (DEDUCED). -/
def takesFastPath (s : State) (cause : Nat) : Bool :=
  (cause == 1 || cause == 2) && fastPathSet s && s.boot.reachedS10 && !s.boot.cleared &&
    decide (s.flash.defects.length < 4096)

/-- A start begins with the given cause: cause 0 is power on, every other is a warm start (R401).
Log entry 78 (DEDUCED). -/
def restart (s : State) (cause : Nat) : State :=
  let s1 := clearAll s (if cause = 0 then [] else s.power.trips)
  let kind := if cause = 0 then 0 else if takesFastPath s1 cause then 2 else 1
  let b := s1.boot
  { s1 with
    flash := { s1.flash with startCount := s1.flash.startCount + 1 }
    boot := { b with
      powered := true, present := true, inletOut := false, resetLow := false, kind := kind, cause := cause,
      reachedS10 := false, cleared := false,
      faultLow := if cause ≤ 2 then false else b.faultLow
      alertLow := if cause = 0 then false else b.alertLow } }

/-- Power goes: the module converters stop (R439, R494). -/
def powerOff (s : State) : State :=
  let s1 := clearAll s []
  { s1 with boot := { s1.boot with powered := false, inletOut := true, reachedS10 := false, faultLow := false, alertLow := false } }

/-- COLD_START: 44 V is applied (R401). -/
def execColdStart (s : State) : Host.Outcome State Fault Refusal := .next (restart s 0)

/-- INLET_FAULT: the inlet is out of range, and the device behaves as if its power had been removed (R439). -/
def execInletFault (s : State) : Host.Outcome State Fault Refusal :=
  .next (if s.boot.powered then powerOff s else { s with boot := { s.boot with inletOut := true } })

/-- INLET_RESTORED: the inlet has been in range for 1 s (R439). -/
def execInletRestored (s : State) : Host.Outcome State Fault Refusal :=
  .next (if s.boot.inletOut && s.boot.present then restart s 0 else s)

/-- PRESENT_N_RELEASE: the converters stop, and the module starts cold when it is mated again (R494, R506). -/
def execPresentNRelease (s : State) : Host.Outcome State Fault Refusal :=
  let s1 := if s.boot.powered then powerOff s else s
  .next { s1 with boot := { s1.boot with present := false } }

/-- RESET_N: low, the rails are off and the module absent, with FAULT_N released; its rising edge begins a warm start (R401,
R502, R506). -/
def execResetN (level : Bool) (s : State) : Host.Outcome State Fault Refusal :=
  .next (
    if !s.boot.powered then s
    else if level then (if s.boot.resetLow then restart s 1 else s)
    else if s.boot.resetLow then s
    else
      let s1 := clearAll s s.power.trips
      { s1 with boot := { s1.boot with resetLow := true, faultLow := false } })

/-- After a rail trip or the loss of a clock the module waits for RESET_N, WARM_RESET or the inlet (R419, R447). -/
def waitsForReset (s : State) : Bool := s.boot.dark == .railTrip || s.boot.dark == .clockLoss

/-- KEEPER_WATCHDOG: a full warm start (R401). -/
def execKeeperWatchdog (s : State) : Host.Outcome State Fault Refusal :=
  .next (if s.boot.powered && s.boot.keeperRuns && !s.boot.resetLow && !(waitsForReset s) then restart s 5 else s)

/-- Three trips within 3,600 s (R440). -/
def threeTrips (s : State) : Bool :=
  match s.power.trips[0]?, s.power.trips[2]? with
  | some a, some b => decide (a ≤ b + 3600 * second)
  | _, _ => false

/-- THERMAL_RESTART: every channel has read below 80 °C for 10 s after a trip (R440). -/
def execThermalRestart (s : State) : Host.Outcome State Fault Refusal :=
  .next (
    if s.boot.powered && decide (s.boot.dark = .thermalTrip) && !(threeTrips s) &&
        s.power.coolSince.any (fun t => decide (t + 10 * second ≤ now s)) then restart s 4
    else s)

/-- FLASH_STORE: the oldest store under way completes or fails (R389, R407). -/
def execFlashStore (ok : Bool) (s : State) : Host.Outcome State Fault Refusal :=
  match s.flash.stores with
  | [] => .next s
  | item :: rest =>
    let s1 := { s with flash := { s.flash with stores := rest } }
    if !(s.boot.powered) then .next s
    else
      match item, ok with
      | .obj k v, true => .next { s1 with flash := { s1.flash with obj := mapSet (objDefault k) s1.flash.obj k v } }
      | .defect i, true =>
        .next { s1 with flash := { s1.flash with defects := s1.flash.defects.zipIdx.map (fun e =>
          if e.2 = i then { e.1 with stored := true } else e.1) } }
      | .licence, true => .next s1
      | .licence, false =>
        .next (raiseUnit { s1 with flash := { s1.flash with pendingTorn := true } } Code.flashWriteFailed 1 .keeper 0xFFFFFFFF [])
      | .obj k _, false => .next (raiseUnit s1 Code.flashWriteFailed 1 .keeper 0xFFFFFFFF [k])
      | .defect i, false => .next (raiseUnit s1 Code.flashWriteFailed 1 .keeper i [])

end Sys2Proof.Machine
end

