-- ==== Sys2Proof/Machine/Power.lean ====
section
/-! DEFINITION. Rails, converters, regulator clusters, sensors, throttling and the housekeeping round (chapter 17 of the
manual). -/

namespace Sys2Proof.Machine

/-- The Keeper runs. -/
def keeperUp (s : State) : Bool := s.boot.powered && s.boot.keeperRuns && !s.boot.resetLow

/-- The rails of a device with power are up. -/
def railsUp (s : State) : Bool := s.boot.powered && !s.boot.resetLow && decide (s.boot.dark = .none)

/-- SOURCE of a defect record found now: the stage, or service (R407). -/
def sourceNow (s : State) : Nat := if s.boot.done < 11 then s.boot.stage else 0x20

/-! ### Converters and rails (R418 to R421) -/

/-- CONVERTER_FAILED: a phase stops and is shut off (R420). -/
def execConverterFailed (phase : Nat) (s : State) : Host.Outcome State Fault Refusal :=
  .next (
    if !s.boot.powered || s.power.failedPhases.contains phase then s
    else raiseUnit { s with power := { s.power with failedPhases := s.power.failedPhases ++ [phase] } }
      Code.converterFailed 1 .power phase [])

/-- SENSE_LOST: a phase's sense line fails (R421). -/
def execSenseLost (phase : Nat) (s : State) : Host.Outcome State Fault Refusal :=
  .next (
    if !s.boot.powered || s.power.senseLost.contains phase then s
    else raiseUnit { s with power := { s.power with senseLost := s.power.senseLost ++ [phase] } } Code.senseLost 1 .power phase [])

/-- A rail has passed its trip value: the Keeper records it, and the compute and SRAM rails go off. During S0 the start
stops there (R403, R419).
Log entry 79 (DEDUCED). -/
def tripRail (s : State) (rail : Nat) : State :=
  if s.boot.done = 0 then railsOff (stopStage s 0 Code.railFault StageOut.none) .railTrip
  else railsOff (raiseUnit s Code.railFault 3 .power rail []) .railTrip

/-- RAIL_FAULT: a rail has been beyond its trip value for 10 µs (R418, R419). A trip of the housekeeping rail stops the
Keeper itself.
Log entry 79 (DEDUCED). -/
def execRailFault (rail : Nat) (s : State) : Host.Outcome State Fault Refusal :=
  .next (
    if !s.boot.powered || s.boot.resetLow then s
    else if rail = 3 then
      (let s1 := powerOff s
       { s1 with boot := { s1.boot with inletOut := false } })
    else if decide (s.boot.dark = .none) || decide (s.boot.dark = .thermalTrip) then tripRail s rail
    else s)

/-- The power limit in force, in mW (R420). -/
def powerLimit (s : State) : Nat :=
  let p := getObj s Key.powerLimit
  let n := s.power.failedPhases.length
  1000 * (if n > 2 then min p (3600 - 225 * (n - 2)) else p)

/-- The compute rail's set point for the clock that runs, in mV (R419, R435). -/
def computeSetPoint (s : State) : Nat := mapGet 0 s.flash.setPoints (runningClock s)

/-! ### Regulator clusters (R423 to R426) -/

/-- A position is clamped: what its arrays, engines, walker and caches hold is gone, and its groups end with CORE_DARK. -/
def clampCore (s : State) (p : Nat) : State :=
  let c := getPos s p
  let kept := c.groups.map (fun e => (e.1, e.2.map (fun g => { g with mem := g.mem.filter (fun m => m.walk.isNone) })))
  let s1 := dropJobsFor (setPos s p { c with groups := kept, arrays := [], lxu := Engine.idle, lyt := Engine.idle, walker := [],
                                             walks := [], promote := none, ro := [] }) (ofCore p)
  let s2 := { s1 with boot := { s1.boot with bad := (s1.boot.bad.filter (· != p)) ++ [p] } }
  (((coreGroups c).map (fun e => e.2.slot)).dedup).foldl (fun st n =>
    faultTask st n { code := Code.coreDark, sev := 2, origin := .power, unit := p }) s2

/-- A patch goes dark (R425). -/
def darkenPatch (s : State) (k : Nat) : State :=
  if s.power.darkened.contains k || mapGet 0 s.power.clusterState k == 2 then s
  else (patchOf k).foldl clampCore { s with power := { s.power with darkened := s.power.darkened ++ [k] } }

/-- The number of regulators of a cluster that are off. -/
def regulatorsOff (s : State) (k : Nat) : Nat := (bitsOf 8 (mapGet 0 s.power.regOff k)).length

/-- REGULATOR_FAILED: a regulator turns itself off; with a second one of its cluster the patch goes dark (R423, R425). -/
def execRegulatorFailed (cluster reg : Nat) (s : State) : Host.Outcome State Fault Refusal :=
  let m := mapGet 0 s.power.regOff cluster
  .next (
    if !(railsUp s) || bit m reg || s.power.darkened.contains cluster || mapGet 0 s.power.clusterState cluster == 2 then s
    else
      let s1 := { s with power := { s.power with regOff := mapSet 0 s.power.regOff cluster (m + 2 ^ reg) } }
      if regulatorsOff s1 cluster ≥ 2 then darkenPatch s1 cluster else s1)

/-- The round finds a patch dark (R425). Before the end of S6 the record waits for it (R426). -/
def settleDark (s : State) (k : Nat) : State :=
  let s1 := { s with power := { s.power with clusterState := mapSet 0 s.power.clusterState k 2 } }
  let s2 := raiseUnit ((patchOf k).foldl leaveService s1) Code.clusterDark 2 .power k []
  if s.boot.done < 7 then { s2 with power := { s2.power with darkAt := mapSet 0 s2.power.darkAt k (stamp s) } } else appendDefect s2 7 (sourceNow s) k 0 Code.clusterDark

/-- The round finds the first failed regulator of a cluster (R424). -/
def settleRegulator (s : State) (k : Nat) : State :=
  let reg := (bitsOf 8 (mapGet 0 s.power.regOff k)).headD 0
  let s1 := { s with power := { s.power with clusterState := mapSet 0 s.power.clusterState k 1 } }
  appendDefect (raiseUnit s1 Code.regulatorFailed 1 .power k [reg]) 6 (sourceNow s) k reg Code.regulatorFailed

/-- The regulators part of a round: FAILED_MASK and CLUSTER_STATE follow what has failed since the last. -/
def roundClusters (s : State) : State :=
  let dark := s.power.darkened
  let fresh := (mapKeys s.power.regOff).filter (fun k =>
    mapGet 0 s.power.failedMask k == 0 && !(dark.contains k) && mapGet 0 s.power.clusterState k == 0)
  let s1 := { s with power := { s.power with failedMask := s.power.regOff, darkened := [] } }
  fresh.foldl settleRegulator (dark.foldl settleDark s1)

/-! ### Sensors (R394, R432 to R434) -/

/-- A sensor is of the safety class (R394). -/
def isSafety (obj : Nat) : Bool := decide (0x2000 ≤ obj ∨ (0x1220 ≤ obj ∧ obj < 0x12E0) ∨ 0x1384 ≤ obj)

/-- The cluster whose channel an object is. -/
def sensorCluster (obj : Nat) : Option Nat := if 0x1220 ≤ obj ∧ obj < 0x12E0 then some (obj - 0x1220) else none

/-- A line's neighbours of place `i` among `n`; a missing one is replaced by the next place inward (R433). -/
def lineNeighbours (i n : Nat) : List Nat :=
  if i = 0 then [1, 2] else if i + 1 = n then [n - 2, n - 3] else [i - 1, i + 1]

/-- The neighbours of unit `i` of `n`, counted cyclically (R433). -/
def ringNeighbours (i n : Nat) : List Nat := [(i + n - 2) % n, (i + n - 1) % n, (i + 1) % n, (i + 2) % n]

/-- The four neighbours of a channel, as object numbers; none for the channels that have no neighbours (R433). -/
def neighboursOf (obj : Nat) : List Nat :=
  let n := obj - 0x1000
  if obj < 0x1000 ∨ 0x2000 ≤ obj then []
  else if n < 544 then
    let h := n / 272
    let q := n % 272
    ((lineNeighbours (q / 16) 17).map (fun r => 0x1000 + h * 272 + r * 16 + q % 16)) ++
      ((lineNeighbours (q % 16) 16).map (fun c => 0x1000 + h * 272 + q / 16 * 16 + c))
  else if 736 ≤ n ∧ n < 864 then
    (ringNeighbours ((n - 736) % 64) 64).map (fun u => 0x1000 + 736 + (n - 736) / 64 * 64 + u)
  else if 864 ≤ n ∧ n < 900 then
    (ringNeighbours ((n - 864) % 18) 18).map (fun u => 0x1000 + 864 + (n - 864) / 18 * 18 + u)
  else []

/-- The readings of a round by object number, with those of the round before for the others.
Log entry 81 (DEDUCED). -/
def roundTemps (s : State) (r : Round) : Sparse Int :=
  let put (m : Sparse Int) (e : Nat × Int) : Sparse Int := if mapGet false s.power.broken e.1 then m else mapSet 0 m e.1 e.2
  (r.points.map (fun e => (0x2000 + e.1, e.2))).foldl put
    ((r.diodes.map (fun d => (0x1000 + d.channel, d.milli))).foldl put s.power.temp)

/-- The median of a channel's neighbours. -/
def neighbourMedian (temps : Sparse Int) (obj : Nat) : Int := median ((neighboursOf obj).map (mapGet 0 temps))

/-- The sensors read by this round or an earlier one, and the broken ones, rising. -/
def sensorsRead (s : State) (r : Round) : List Nat :=
  ((mapKeys s.power.history ++ mapKeys s.power.broken ++ r.diodes.map (fun (d : DiodeReading) => 0x1000 + d.channel) ++
    r.points.map (fun (e : Nat × Int) => 0x2000 + e.1)).dedup).insertionSort (· ≤ ·)

/-- Consecutive rounds in which a channel has differed from its neighbours' median by more than 30 °C (R433). -/
def apartNow (s : State) (temps : Sparse Int) (obj : Nat) : Nat :=
  if neighboursOf obj = [] then 0
  else if (mapGet 0 temps obj - neighbourMedian temps obj).natAbs > 30000 then mapGet 0 s.power.apart obj + 1 else 0

/-- A channel of this round is broken (R433). -/
def breaksNow (r : Round) (temps : Sparse Int) (apart : Nat) (obj : Nat) : Bool :=
  decide (obj < 0x2000) &&
    (r.diodes.any (fun d => d.channel + 0x1000 == obj && d.openOrShort) || decide (mapGet 0 temps obj < -20000) ||
      decide (150000 < mapGet 0 temps obj) || decide (100 ≤ apart))

/-- A sensor is broken: SENSOR_BROKEN, a KIND 8 record for a channel, and a dark patch for a cluster's channel (R434).
Log entry 81 (DEDUCED). -/
def breakSensor (s : State) (obj : Nat) : State :=
  let s1 := raiseUnit { s with power := { s.power with broken := mapSet false s.power.broken obj true } } Code.sensorBroken 1
    .power (if obj < 0x2000 then obj - 0x1000 else obj) []
  let s2 := if obj < 0x2000 then appendDefect s1 8 (sourceNow s) (obj - 0x1000) 0 Code.sensorBroken else s1
  match sensorCluster obj with
  | some k => darkenPatch s2 k
  | none => s2

/-- The channels and modelled points that break in this round (R433). -/
def roundBreaks (s : State) (r : Round) (temps : Sparse Int) : State :=
  let live := (sensorsRead s r).filter (fun o => !(mapGet false s.power.broken o))
  let aparts := live.foldl (fun m o => mapSet 0 m o (apartNow s temps o)) s.power.apart
  let s1 := { s with power := { s.power with apart := aparts } }
  let s2 := (live.filter (fun o => breaksNow r temps (mapGet 0 aparts o) o)).foldl breakSensor s1
  let lost := (mapKeys s2.power.broken).filter (fun o => decide (o < 0x2000))
  let points := (List.range 256).filter (fun i =>
    !(mapGet false s2.power.broken (0x2000 + i)) && lost.any (fun o => Config.pointUses i (o - 0x1000)))
  (points.map (0x2000 + ·)).foldl breakSensor s2

/-- The reading that a sensor is taken to give (R434). -/
def takenReading (s : State) (temps : Sparse Int) (obj : Nat) : Int :=
  if !(mapGet false s.power.broken obj) then mapGet 0 temps obj
  else if !(isSafety obj) then neighbourMedian temps obj
  else if (sensorCluster obj).isSome then mapGet 0 temps obj
  else 100000

/-- What a sensor demands: the step for its reading, the step for its rise, and whether it trips (R432). -/
structure Demand where
  abs : Nat
  rise : Nat
  trip : Bool
  deriving DecidableEq, Repr

/-- The demands of R432; a broken safety channel is only taken to read 100 °C.
Log entry 81 (DEDUCED). -/
def demandOf (safety broken : Bool) (t rise : Int) : Demand :=
  let a := if t ≥ 106000 then 3 else if t ≥ 103000 then 2 else if t ≥ 100000 then 1 else 0
  let r := if broken && safety then 0 else if rise ≥ 15000 then 3 else if rise ≥ 10000 then 2 else if rise ≥ 6000 then 1 else 0
  ⟨a, r, safety && !broken && (decide (t ≥ 110000) || decide (rise ≥ 15000))⟩

/-- SENSOR_STATE (R394, R432, R434).
Log entry 81 (DEDUCED). -/
def sensorCode (safety broken : Bool) (t : Int) (d : Demand) : Nat :=
  if broken then (if safety then 4 else 5)
  else if d.trip then 3 else if 0 < max d.abs d.rise then 2 else if t ≥ 95000 then 1 else 0

/-- One sensor's part of a round: reading, peak, rise, state and warning; and its demand. -/
def roundSensor (temps : Sparse Int) (acc : State × List (Nat × Demand)) (obj : Nat) : State × List (Nat × Demand) :=
  let s := acc.1
  let broken := mapGet false s.power.broken obj
  let safety := isSafety obj
  let t := takenReading s temps obj
  let past := mapGet [] s.power.history obj
  let rise : Int := match past.min? with
    | some m => t - m
    | none => 0
  let d0 := demandOf safety broken t rise
  let d := if broken && (sensorCluster obj).isSome then ⟨0, 0, false⟩ else d0
  let s1 := { s with power := { s.power with
    temp := mapSet 0 s.power.temp obj t, history := mapSet [] s.power.history obj ((t :: past).take 5),
    peak := mapSet 0 s.power.peak obj (if past = [] then t else max t (mapGet 0 s.power.peak obj)),
    rise := mapSet 0 s.power.rise obj rise, sensor := mapSet 0 s.power.sensor obj (sensorCode safety broken t d) } }
  let warns := !broken && decide (t ≥ 95000) && past.head?.all (fun x => decide (x < 95000))
  let s2 := if warns then raiseUnit s1 Code.thermalWarning 1 .power (if obj < 0x2000 then obj - 0x1000 else obj) [] else s1
  (s2, acc.2 ++ [(obj, d)])

/-! ### Voltages and cracked connections (R429, R430) -/

/-- The rail that a sense point watches (R429). -/
def pointRail (p : Nat) : Nat :=
  if p < 192 then 1 else if p < 320 then 2 else if p < 338 then 0 else p - 338 + 3

/-- The lower of two minimum records, the earlier one on a tie. -/
def lowerMin (a : Option MinRec) (b : MinRec) : Option MinRec :=
  match a with
  | none => some b
  | some x => if b.micro < x.micro then some b else some x

/-- A sense reading enters the minimum records (R429) and the point's averages (R430). -/
def roundSense (s : State) (x : SenseReading) : State :=
  let r := pointRail x.point
  let m : MinRec := ⟨x.minMicro, x.minStamp⟩
  let p := s.power
  let ref := if x.point < 192 then mapGet 0 p.clusterAmp x.point else mapGet 0 p.railAmp 2
  let p1 := { p with railMin := mapSet none p.railMin r (lowerMin (mapGet none p.railMin r) m) }
  let p2 := if x.point < 192 then { p1 with clusterMin := mapSet none p1.clusterMin x.point (lowerMin (mapGet none p1.clusterMin x.point) m) } else p1
  let p3 := if x.point < 320 then
    { p2 with averages := mapSet [] p2.averages x.point (((x.avgMicro, ref) :: mapGet [] p2.averages x.point).take 12) } else p2
  { s with power := p3 }

/-- The sense points next to a point of 0 to 319 in its half (R430). -/
def pointNeighbours (p : Nat) : List Nat :=
  let n := if p < 192 then 96 else 64
  let base := if p < 192 then p / 96 * 96 else 192 + (p - 192) / 64 * 64
  (if p = base then [] else [p - 1]) ++ (if p + 1 = base + n then [] else [p + 1])

/-- The sum of the last eight of twelve entries: eight times the average before a drop. -/
def sumBefore (xs : List Nat) : Nat := ((xs.drop 4).take 8).sum

/-- A point shows a crack pattern: for the last four rounds its average lies 10 mV below that of the eight before, with no
change in its current, and its neighbours have not moved (R430). -/
def crackPattern (s : State) (p : Nat) : Bool :=
  let xs := mapGet [] s.power.averages p
  let v := sumBefore (xs.map (·.1))
  let c := sumBefore (xs.map (·.2))
  let near := (pointNeighbours p).map (fun q => (mapGet [] s.power.averages q).map (·.1))
  let base : Int := median (near.map (fun ys => (sumBefore ys : Int)))
  decide (xs.length = 12) && near.all (fun ys => decide (ys.length = 12)) &&
    (List.range 4).all (fun i =>
      let e := xs.getD i (0, 0)
      let m : Int := median (near.map (fun ys => (8 * ys.getD i 0 : Int)))
      decide (8 * (e.1 + 10000) ≤ v) && decide ((8 * (e.2 : Int) - c).natAbs * 100 < 3 * c) && decide ((m - base).natAbs < 16000))

/-- BOND_SUSPECT: a point is counted once until MIN_RESET (R430). -/
def roundCrack (s : State) (p : Nat) : State :=
  if mapGet false s.power.suspects p || !(crackPattern s p) then s
  else
    let s1 := setObj (setObj (bump s Key.crackSuspects 1) Key.crackLastPoint p) Key.crackLastTime (stamp s)
    raiseUnit { s1 with power := { s1.power with suspects := mapSet false s1.power.suspects p true } } Code.bondSuspect 1 .power p []

/-- The electrical part of a round (R429 to R431). -/
def roundVolts (s : State) (r : Round) : State :=
  let p := s.power
  let put (m : Sparse Nat) (es : List (Nat × Nat)) : Sparse Nat := es.foldl (fun m e => mapSet 0 m e.1 e.2) m
  let p1 := { p with
    inletMicro := r.inletMicro, inletMilliAmp := r.inletMilliAmp,
    powers := (r.inletMicro * r.inletMilliAmp / 1000000 :: p.powers).take 10,
    railVolt := put p.railVolt r.railMicro, railAmp := put p.railAmp r.railAmp, clusterAmp := put p.clusterAmp r.clusterAmp,
    stackTemps := r.stackTemps.foldl (fun m e => mapSet 0 m e.1 e.2) p.stackTemps, measured := true }
  let s1 := r.sense.foldl roundSense { s with power := p1 }
  ((r.sense.map (·.point)).filter (fun q => decide (q < 320))).foldl roundCrack s1

/-- The refresh rate follows each stack's own reading, with hysteresis (R249).
Log entry 81 (DEDUCED). -/
def roundRefresh (s : State) (e : Nat × Int) : State :=
  if e.2 > 85000 then setObj s (Key.refreshMode e.1) 1 else if e.2 < 80000 then setObj s (Key.refreshMode e.1) 0 else s

/-! ### Throttling (R435 to R438) -/

/-- The demands of a round, each with its cause: 1 temperature, 2 rise, 3 power, 4 input voltage (R394, R436). -/
def roundDemands (s : State) (ds : List (Nat × Demand)) : List (Nat × Nat) :=
  let most (f : Demand → Nat) : Nat := (ds.map (fun e => f e.2)).foldl max 0
  let ps := s.power.powers
  let exceeds := decide (powerLimit s * ps.length < ps.sum)
  [(most (·.abs), 1), (most (·.rise), 2), (if exceeds then min 3 (s.power.step + 1) else 0, 3),
    (if s.power.inletMicro < 40000000 then 2 else 0, 4)]

/-- Every diode channel reads at least 3 °C below 100 °C (R436). -/
def allCool (s : State) (below : Int) : Bool := s.power.temp.all (fun e => decide (0x2000 ≤ e.1 ∨ e.2 ≤ below))

/-- A change of the throttling step (R436). -/
def setStep (s : State) (step : Nat) : State :=
  let old := s.power.step
  if step = old then s
  else
    let p := s.power
    let spent := if old = 0 then p.throttleNs else p.throttleNs + (now s - p.stepSince)
    raiseUnit { s with power := { p with step := step, throttleNs := spent, stepSince := now s, calm := 0 } }
      Code.thermalThrottle 1 .power 0xFFFFFFFF [old, step]

/-- The step, its cause and POWER_LIMIT_UNMET (R436, R438).
Log entry 81 (DEDUCED). -/
def roundThrottle (s : State) (ds : List (Nat × Demand)) : State :=
  let es := roundDemands s ds
  let most := (es.map (·.1)).foldl max 0
  let cause := ((es.find? (fun e => e.1 == most)).map (·.2)).getD 0
  let calm := decide (most < s.power.step) && allCool s 97000
  let s1 :=
    if s.power.step < most then setStep s most
    else if calm && decide (49 ≤ s.power.calm) then setStep s (s.power.step - 1)
    else { s with power := { s.power with calm := if calm then s.power.calm + 1 else 0 } }
  let shown := if 0 < most then cause else if s1.power.step = 0 then 0 else s1.power.throttleCause
  let unmet := decide (s1.power.step = 3) && decide (powerLimit s1 < s1.power.powers.headD 0)
  let n := if unmet then s1.power.unmetRounds + 1 else 0
  let s2 := { s1 with power := { s1.power with throttleCause := shown, unmetRounds := n, unmetSent := s1.power.unmetSent && decide (powerLimit s1 < s1.power.powers.headD 0) } }
  if 100 ≤ n ∧ s2.power.unmetSent = false then
    raiseUnit { s2 with power := { s2.power with unmetSent := true } } Code.powerLimitUnmet 1 .power 0xFFFFFFFF []
  else s2

/-- A thermal trip of the first sensor that asks for it (R440); a device whose rails are off already has none (R441). -/
def roundTrip (s : State) (ds : List (Nat × Demand)) : State :=
  match ds.find? (fun e => e.2.trip) with
  | none => s
  | some e =>
    if !(railsUp s) then s
    else
      let s1 := raiseUnit s Code.thermalTrip 3 .power (if e.1 < 0x2000 then e.1 - 0x1000 else e.1) [f32OfRatio (mapGet 0 s.power.temp e.1) 1000]
      railsOff { s1 with power := { s1.power with trips := (now s :: s1.power.trips).take 3, coolSince := none } } .thermalTrip

/-- Since when every channel has read below 80 °C after a trip (R440). -/
def roundCool (s : State) : State :=
  if s.boot.dark = .thermalTrip then
    let since := if allCool s 79999 then some (s.power.coolSince.getD (now s)) else none
    { s with power := { s.power with coolSince := since } }
  else s

/-- HOUSEKEEPING_ROUND: the Keeper reads every sensor, voltage and current, and acts on them within the round (R431). -/
def execHousekeepingRound (r : Round) (s : State) : Host.Outcome State Fault Refusal :=
  .next (
    if !(keeperUp s) then s
    else
      let temps := roundTemps s r
      let s1 := roundClusters (roundBreaks (roundVolts s r) r temps)
      let (s2, ds) := (sensorsRead s1 r).foldl (roundSensor temps) (s1, [])
      roundCool (roundTrip (roundThrottle (r.stackTemps.foldl roundRefresh s2) ds) ds))

end Sys2Proof.Machine
end

