-- ==== Sys2Proof/Machine/Integrity.lean ====
section
/-! DEFINITION. Failure signatures, vertical lanes and the retirement of slices (R460 to R463, R469). -/

namespace Sys2Proof.Machine

/-! ### Failure signatures (R469) -/

/-- The head of a CBOR item: its major type and its argument in the shortest form. -/
def cborHead (major n : Nat) : List Byte :=
  if n < 24 then beBytes 1 (major * 32 + n)
  else if n < 256 then beBytes 1 (major * 32 + 24) ++ beBytes 1 n
  else if n < 65536 then beBytes 1 (major * 32 + 25) ++ beBytes 2 n
  else if n < 2 ^ 32 then beBytes 1 (major * 32 + 26) ++ beBytes 4 n
  else beBytes 1 (major * 32 + 27) ++ beBytes 8 n

/-- A CBOR unsigned integer. -/
def cborUint (n : Nat) : List Byte := cborHead 0 n

/-- A CBOR byte string. -/
def cborBytes (bs : List Byte) : List Byte := cborHead 2 bs.length ++ bs

/-- A CBOR float of single precision. -/
def cborFloat (w : Nat) : List Byte := 0xFA#8 :: beBytes 4 w

/-- A CBOR array of these items. -/
def cborArray (items : List (List Byte)) : List Byte := cborHead 4 items.length ++ items.flatten

/-- A CBOR map with these entries, in the order of their keys. -/
def cborMap (entries : List (Nat × List Byte)) : List Byte :=
  cborHead 5 entries.length ++ entries.flatMap (fun e => cborUint e.1 ++ e.2)

/-- The unit that a signature names (R469). -/
inductive SigUnit where
  | core (p : Nat)
  | slice (g : Nat)
  | path (p : Nat)
  deriving DecidableEq, Repr

def SigUnit.kind : SigUnit → Nat
  | .core _ => 1 | .slice _ => 2 | .path _ => 3

def SigUnit.number : SigUnit → Nat
  | .core p => p | .slice g => g | .path p => p

/-- The object number of the unit's diode channel. -/
def SigUnit.sensor : SigUnit → Nat
  | .core p => 0x1000 + p | .slice g => 0x12E0 + g | .path p => 0x1000 + p

/-- The compute-rail voltage at the unit's cluster as the last round read it, in µV; a slice has no cluster, so that its
voltage is a free value.
Log entry 83 (DEDUCED). -/
def sigVolts (s : State) (free : Nat) : SigUnit → Nat
  | .core p => ((mapGet [] s.power.averages (clusterOf p)).map (·.1)).headD 0
  | .path p => ((mapGet [] s.power.averages (clusterOf p)).map (·.1)).headD 0
  | .slice _ => Config.freeNat free % 1000001

/-- A signature's record (R469).
Log entry 83 (DEDUCED). -/
def sigRecord (s : State) (free : Nat) (u : SigUnit) (code : Nat) (t : Option CoreTest) : List Byte :=
  let base : List (Nat × List Byte) :=
    [(1, cborUint 1), (2, cborBytes (beBytes 8 (identitySerial s))), (3, cborUint s.flash.nextSignature),
     (4, cborUint (stamp s)), (5, cborUint (startCount s)), (6, cborUint u.kind), (7, cborUint u.number), (8, cborUint code),
     (9, cborUint ((t.map (fun x => packId s * 65536 + x.test)).getD 0)), (10, cborUint (runningKeeper s)),
     (11, cborUint (runningFountain s)), (12, cborUint (getObj s Key.arithClock)), (13, cborUint s.power.step),
     (14, cborFloat (f32Micro (sigVolts s free u))), (15, cborFloat (f32Milli (mapGet 0 s.power.temp u.sensor)))]
  let test : List (Nat × List Byte) := match t with
    | none => []
    | some x => [(16, cborArray [cborUint x.runs, cborUint x.failed]), (17, cborBytes (slice x.expected 0 32)),
        (18, cborBytes (slice x.observed 0 32)),
        (19, cborArray [cborUint x.mismatchAt, cborBytes (x.expectedBytes.take 16), cborBytes (x.observedBytes.take 16)])]
  cborMap (base ++ test ++ [(20, cborUint ((t.map (·.units)).getD 0))])

/-- Store a signature: at most 256 are kept, each new one in place of the oldest (R469).
Log entry 83 (DEDUCED). -/
def storeSignature (s : State) (u : SigUnit) (code : Nat) (t : Option CoreTest) : State :=
  let (k, s1) := takeFree s
  let g : Signature := { position := u.number, bytes := sigRecord s k u code t, seq := s.flash.nextSignature }
  let all := s1.flash.signatures ++ [g]
  { s1 with flash := { s1.flash with signatures := all.drop (all.length - 256), nextSignature := s1.flash.nextSignature + 1 } }

/-! ### Vertical lanes in service (R460, R461) -/

/-- DETAIL of a KIND 9 record (R407).
Log entry 82 (DEDUCED). -/
def bondDetail (plane bond spare : Nat) : Nat := plane % 4 * 2 ^ 30 + bond % 2 ^ 14 * 2 ^ 16 + spare % 2 ^ 16

/-- Signal bonds of one position in a plane, its 128 spares among them (R16). -/
def signalBonds (plane : Nat) : Nat := if plane = 0 then 2624 else 4896

/-- A position's plane has a bond of this number. -/
def bondExists (plane bond : Nat) : Bool := decide (plane < 4 ∧ bond < signalBonds plane)

/-- UNIT of a KIND 9 record for a slice port, whose number would else be a position's (R407, R460).
Log entry 82 (DEDUCED). -/
def portUnit (g : Nat) : Nat := 2 ^ 30 + g

/-- An event about lanes, with the matching record's DETAIL (R464).
Log entry 82 (DEDUCED). -/
def laneEvent (s : State) (code sev unit detail : Nat) : State := raiseUnit s code sev .keeper unit [detail]

/-- A spare of the position and plane remains: each has 128 (R16).
Log entry 82 (DEDUCED). -/
def spareLeft (s : State) (p plane : Nat) : Bool :=
  decide (((liveRecords s 9).filter (fun b => recUnit b == p && recDetail b / 2 ^ 30 == plane)).length < 128)

/-- A spare is substituted (R460).
Log entry 82 (DEDUCED). -/
def substituteBond (s : State) (unit detail : Nat) : State :=
  laneEvent (appendDefect s 9 (sourceNow s) unit detail Code.laneSpared) Code.laneSpared 0 unit detail

/-- The resident groups of a position end at once, and their transfers with VERTICAL_ABORT (R461). -/
def abortCore (s : State) (p : Nat) : State :=
  let c := getPos s p
  let kept := c.groups.map (fun e => (e.1, e.2.map (fun g => { g with mem := g.mem.filter (fun m => m.walk.isNone) })))
  let s1 := dropJobsFor (setPos s p { c with groups := kept, arrays := [], lxu := Engine.idle, lyt := Engine.idle, walker := [],
                                             walks := [], promote := none, ro := [] }) (ofCore p)
  (((coreGroups c).map (fun e => e.2.slot)).dedup).foldl verticalAbort s1

/-- A path of a position loses a bond with no spare left (R461): half width and no new group, or at a control bond or a second
loss the end of its groups at once; then the core is retired. -/
def loseLane (s : State) (p plane bond : Nat) (control : Bool) : State :=
  let c := getPos s p
  let h := mapGet LaneHealth.good c.lanes plane
  let s1 := storeSignature (laneEvent s Code.laneLost 1 p (bondDetail plane bond 0xFFFF)) (.path p) Code.laneLost none
  if control || h.half then
    let s2 := setPos s1 p { c with lanes := mapSet LaneHealth.good c.lanes plane { h with lost := true } }
    let s3 := abortCore s2 p
    if coreState s3 p = 4 then s3 else retireCore s3 p (sourceNow s) Code.laneLost
  else
    let s2 := setPos s1 p { c with lanes := mapSet LaneHealth.good c.lanes plane { h with half := true } }
    retireIfEmpty (if coreState s2 p = 1 then setCoreState s2 p 2 else s2) p

/-! ### Slices (R462) -/

/-- The task behind a transfer: that of a core's group, or of a Weir engine's command. -/
def originTask (s : State) : Origin → Option Nat
  | .core p q _ => (getGroup s p q).map (fun x => x.slot)
  | .sluice _ _ => none
  | .job _ _ id =>
    match (s.cistern.jobs.find? (fun j => j.id == id)).map (·.who) with
    | some (JobFor.weir p u) => ((if u = 0 then (getPos s p).lxu else (getPos s p).lyt).running).map (fun r => r.cmd.slot)
    | _ => none

/-- Requests that a slice has taken and not ended, in the order of its registers and of the waits for a way. -/
def takenReqs (sl : Slice) : List Req := sl.mrs.flatMap (fun m => m.waiters) ++ sl.waits.map (fun w => w.req)

/-- The tasks behind a slice's unanswered transfers. -/
def sliceTasks (s : State) (g : Nat) : List Nat := ((takenReqs (getSlice s g)).filterMap (fun r => originTask s r.origin)).dedup

/-- A slice port loses a lane with no spare left (R462).
Log entry 82 (DEDUCED). -/
def losePort (s : State) (g : Nat) : State :=
  let sl := getSlice s g
  if sl.retired || sl.portLost then s
  else if sl.portHalf then (sliceTasks s g).foldl verticalAbort (setSlice s g { sl with portLost := true })
  else
    let s1 := appendDefect (setSlice s g { sl with portHalf := true }) 2 (sourceNow s) g 0 Code.slicePortHalved
    laneEvent s1 Code.slicePortHalved 1 g 0

/-- Slices of half `h` that are retired. -/
def retiredIn (s : State) (h : Nat) : List Nat := ((List.range 64).map (· + 64 * h)).filter (fun g => (getSlice s g).retired)

/-- Both slices of a pair, or more than four of a half, are retired: the Cistern is depleted (R403, R462). -/
def cisternDepleted (s : State) : Bool :=
  [0, 1].any (fun h => decide (4 < (retiredIn s h).length) || (retiredIn s h).any (fun g => (getSlice s (g ^^^ 1)).retired))

/-- A slice's queued reductions are applied, its lines written back and its work goes to its partner, which serves the sets of
both from then on: what it had taken waits there for a way again (R462).
Log entry 82 (DEDUCED). -/
def handOver (s : State) (g : Nat) : State :=
  let s0 := (((getSlice s g).redq.map (fun e => e.req.sector)).dedup).foldl (fun st n =>
    let a := applySector st g n
    deliverAll a.1 g a.2) s
  let sl := getSlice s0 g
  let out := (linesFrom sl 0).foldl (fun x l => evictLine x l 0) sl
  let again := (takenReqs sl).map (fun r => (⟨r, now s⟩ : WayWait))
  let pt := getSlice s0 (g ^^^ 1)
  let s2 := setSlice s0 (g ^^^ 1) { pt with wb := pt.wb ++ out.wb, inbox := pt.inbox ++ sl.inbox, waits := pt.waits ++ again }
  setSlice s2 g { Slice.empty with retired := true, portHalf := sl.portHalf, useClock := sl.useClock }

/-- SLICE_RETIRED: within 1 ms of its second loss a slice is retired; the Cistern may be depleted by it (R462). -/
def execSliceRetired (g : Nat) (s : State) : Host.Outcome State Fault Refusal :=
  .next (
    if !(railsUp s) || !((getSlice s g).portLost) then s
    else
      let s1 := appendDefect (handOver s g) 3 (sourceNow s) g 0 Code.sliceRetired
      let s2 := storeSignature (laneEvent s1 Code.sliceRetired 2 g 0) (.slice g) Code.sliceRetired none
      if cisternDepleted s2 then railsOff (raiseUnit s2 Code.cisternDepleted 3 .cistern g []) .depleted else s2)

/-! ### Shared signals (R463) -/

/-- A clock is lost: the rails go off, with the CLOCK_LOCKS bits in the event (R447).
Log entry 63 (DEDUCED). -/
def loseClock (s : State) (locks : Nat) (stops : Bool) : State :=
  let s1 := { s with time := { s.time with locks := locks, runs := s.time.runs && !stops } }
  railsOff (raiseUnit s1 Code.clockLock 3 .power 0xFFFFFFFF [locks]) .clockLoss

/-- A number with bits of a mask cleared. -/
def clearBits (x m : Nat) : Nat := maskOf ((bitsOf 32 x).filter (fun i => !(bit m i)))

/-- A position is retired at once, its groups ended with CORE_DARK (R463); its KIND 1 record names that code (R407).
Log entry 82 (DEDUCED). -/
def retireAtOnce (s : State) (p : Nat) : State :=
  if coreState s p = 4 then clampCore s p else retireCore (clampCore s p) p (sourceNow s) Code.coreDark

/-- Both bonds of a shared signal are lost (R463). -/
def loseShared (s : State) : SharedKind → State
  | .cluster k => darkenPatch s k
  | .region r => ((List.range 16).map (fun c => r * 16 + c)).foldl retireAtOnce s
  | .distribution => loseClock s (clearBits s.time.locks 2) true

/-- VERTICAL_LANE_TEST: a path held after failed transfers is tested (R460 to R463). -/
def execVerticalLaneTest (path : VPath) (finding : LaneFinding) (serves : SharedKind) (s : State) :
    Host.Outcome State Fault Refusal :=
  .next (
    if !(railsUp s) then s
    else
      match finding with
      | .clean n => (List.range n).foldl (fun st _ => countCode st Code.checkTransient) s
      | .bond plane bond control spare =>
        match path with
        | .down p =>
          if !(bondExists 0 bond) || plane ≠ 0 then s else
          (match spare with
           | some sp => if spareLeft s p 0 && decide (sp < 128) then bump (substituteBond s p (bondDetail 0 bond sp)) (Key.sparesUsed p) 1
             else loseLane s p 0 bond control
           | none => loseLane s p 0 bond control)
        | .chan p =>
          if !(bondExists plane bond) || plane = 0 then s else
          (match spare with
           | some sp => if spareLeft s p plane && decide (sp < 128) then bump (substituteBond s p (bondDetail plane bond sp)) (Key.sparesUsed p) 1
             else loseLane s p plane bond control
           | none => loseLane s p plane bond control)
        | .slicePort g =>
          (match spare with
           | some sp => substituteBond s (portUnit g) (bondDetail plane bond sp)
           | none => losePort s g)
        | .shared i =>
          if s.boot.shared.contains i then loseShared s serves
          else
            let d := bondDetail plane bond 0xFFFF
            let s1 := appendDefect { s with boot := { s.boot with shared := s.boot.shared ++ [i] } } 9 (sourceNow s) (2 ^ 31 + i) d
              Code.sharedBondDegraded
            laneEvent s1 Code.sharedBondDegraded 1 (2 ^ 31 + i) d)

end Sys2Proof.Machine
end

