-- ==== Sys2Proof/Machine/Start.lean ====
section
/-! DEFINITION. The stages of a start (R13 to R15, R253, R303, R324, R403 to R410, R416, R484, R489). -/

namespace Sys2Proof.Machine

/-- The stage `n` is in progress: every stage before it has finished, and the start has not stopped. -/
def atStage (s : State) (n : Nat) : Bool :=
  s.boot.powered && !s.boot.resetLow && !s.boot.stopped && decide (s.boot.dark = .none) && decide (s.boot.done = n) &&
    decide (s.boot.stage = n)

/-- Go on to stage `n` without a report, for stages whose reports have been stored. -/
def passTo (s : State) (n : Nat) : State :=
  { s with boot := { s.boot with done := n, stage := n, began := now s, beganTb := stamp s, newEntries := 0 } }

/-! ### S0 and S1 -/

/-- DETAIL of S0: the seven rails and the input voltage. -/
def s0Detail (obs : S0Obs) : List Byte :=
  (List.range 7).flatMap (fun i => leBytes 4 (f32Micro (obs.rails.getD i 0))) ++ leBytes 4 (f32Micro obs.inlet)

/-- Clusters whose temperature channel the defect list names as broken: their patches are dark from the start (R426, R434). -/
def brokenClusters (s : State) : List Nat :=
  (mapKeys s.power.broken).filterMap (fun o => if mapGet false s.power.broken o then sensorCluster o else none)

/-- STAGE_S0: the rails are ramped and the header regions switch on (R403, R420, R427, R498). -/
def execStageS0 (obs : S0Obs) (s : State) : Host.Outcome State Fault Refusal :=
  .next (
    if !(atStage s 0) then s
    else
      let s1 := { s with boot := { s.boot with straps := obs.straps } }
      let fresh := obs.failedPhases.dedup.filter (fun p => !(s.power.failedPhases.contains p))
      let s2 := fresh.foldl (fun st p =>
        raiseUnit { st with power := { st.power with failedPhases := st.power.failedPhases ++ [p] } } Code.converterFailed 1 .power p []) s1
      let out : StageOut := { StageOut.none with detail := s0Detail obs }
      match obs.trippedRail with
      | some 3 =>
        let s3 := powerOff s2
        { s3 with boot := { s3.boot with inletOut := false } }
      | some _ => railsOff (stopStage s2 0 Code.railFault out) .railTrip
      | none =>
        let on := (List.range 34).foldl (fun m r => mapSet 0 m r 1) s2.power.regionState
        let s3 := { s2 with power := { s2.power with regionState := on } }
        endStage ((brokenClusters s3).foldl darkenPatch s3) 0 0 out)

/-- STAGE_S1: the reference is checked, the PLLs lock, and the timebase starts from 0 (R403, R448).
Log entry 77 (DEDUCED). -/
def execStageS1 (locks : Nat) (s : State) : Host.Outcome State Fault Refusal :=
  .next (
    if !(atStage s 1) then s
    else
      let l := locks % 32
      let out : StageOut := { StageOut.none with detail := leBytes 4 l }
      let s1 := { s with time := { s.time with locks := l }, port := { s.port with refclk := bit l 3 } }
      if bit l 0 && bit l 1 && bit l 2 && bit l 4 then
        endStage { s1 with time := { s1.time with tb := 0, frac := 0, runs := true }
                           boot := { s1.boot with tbBase := romCount s1 } } 1 0 out
      else stopStage s1 1 Code.clockLock out)

/-! ### S2: firmware, identity, licence tier, the network and the port -/

/-- The image of a slot: false is A. -/
def keeperImage (s : State) (slot : Bool) : List Byte := if slot then s.flash.keeperB else s.flash.keeperA
def fountainImage (s : State) (slot : Bool) : List Byte := if slot then s.flash.fountainB else s.flash.fountainA

/-- The preferred slots; a torn record names slot A for both (R409). -/
def preferredKeeper (s : State) : Bool := s.flash.prefKeeper && !s.flash.prefTorn
def preferredFountain (s : State) : Bool := s.flash.prefFountain && !s.flash.prefTorn

/-- The slot chosen of an image: the preferred one, or else the other; none where both fail (R409). -/
def chosenSlot (s : State) (kind : Nat) (image : Bool → List Byte) (pref : Bool) : Option Bool :=
  if envValid s kind (image pref) then some pref else if envValid s kind (image (!pref)) then some (!pref) else none

/-- The compatibility table in use: empty where its signature fails (R409). -/
def tableInUse (s : State) : List Byte := if envValid s 3 s.flash.compat then s.flash.compat else []

/-- The identity record is generated where flash holds none, or both of its copies are torn (R484, R485).
Log entry 91 (DESIGN CHOICE). -/
def makeIdentity (s : State) (random : Nat) : State :=
  if s.flash.idPoint ≠ [] ∧ ¬(s.flash.idTornOne = true ∧ s.flash.idTornTwo = true) then s
  else
    let d := random % (ecN - 1) + 1
    { s with flash := { s.flash with idScalar := d, idPoint := ecPublic d, idTornOne := false, idTornTwo := false, cert := [] } }

/-- TIER and LICENCE_SERIAL of a licence's BODY (R487).
Log entry 88 (DEDUCED). -/
def licenceTierOf (e : List Byte) : Nat := leAt e 48 1
def licenceSerialOf (e : List Byte) : Nat := leAt e 56 8

/-- The BODY of a licence is 16 bytes and names one of the three tiers (R2, R487).
Log entry 88 (DEDUCED). -/
def licenceBodyOk (e : List Byte) : Bool := envBodyLen e == 16 && decide (1 ≤ licenceTierOf e ∧ licenceTierOf e ≤ 3)

/-- A licence that R481 passes, for a tier of R2. -/
def licenceValid (s : State) (e : List Byte) : Bool := envValid s 5 e && licenceBodyOk e

/-- The pending record replaces the licence in force at this start's S9 (R489). -/
def pendingTaken (s : State) : Bool := s.flash.pending != [] && !s.flash.pendingTorn && licenceValid s s.flash.pending

/-- The licence that this start runs under. -/
def startLicence (s : State) : List Byte := if pendingTaken s then s.flash.pending else s.flash.licence

/-- The tier whose units the stages before S9 bring up. Without a valid licence the manual gives none, and the start stops
at S9: until then every unit is brought up.
Log entry 77 (DEDUCED). -/
def startTier (s : State) : Nat := if licenceValid s (startLicence s) then licenceTierOf (startLicence s) else 3

/-- The PCIe link settles at a width, and at a rate no higher than MAX_RATE (R334, R335): 0 is down, and a rate, width or mode
that the port does not support reads as rate 4.
Log entry 63 (DEDUCED). -/
def settleHostLink (s : State) (rate width : Nat) (flit : Bool) : State :=
  if rate = 0 ∨ s.port.refclk = false then s
  else
    let ok := decide (rate ≤ 3) && (width == 16 || width == 8) && flit
    let settled := if ok then min rate (getObj s Key.maxRate) else 4
    let s1 := setObj (setObj { s with port := { s.port with up := true } } Key.linkRate settled) Key.linkWidth width
    if ok then s1 else raiseUnit s1 Code.hostLinkUnsupported 1 .hostPort 0xFFFFFFFF []

/-- The versions, slots and measurements of S2 (R390, R486, R512). -/
def noteFirmware (s : State) (k f : Bool) : State :=
  let s1 := setObj (setObj (setObj (setObj (setObj s (Key.keeperVersion 0) (slotVersion s 1 s.flash.keeperA))
    (Key.keeperVersion 1) (slotVersion s 1 s.flash.keeperB)) (Key.fountainVersion 0) (slotVersion s 2 s.flash.fountainA))
    (Key.fountainVersion 1) (slotVersion s 2 s.flash.fountainB)) Key.compatVersion (slotVersion s 3 s.flash.compat)
  let ms := [(2, sha256 (keeperImage s k)), (3, sha256 (fountainImage s f)), (4, sha256 (tableInUse s))]
  { s1 with boot := { s1.boot with
      keeperSlot := k, fountainSlot := f, keeperRuns := true, tier := startTier s, shape := getObj s Key.poolShape
      torn := (s.flash.defects.filter (fun d => recTorn d.bytes)).length
      measures := ms.foldl (fun m e => mapSet [] m e.1 e.2) s1.boot.measures } }

/-- DETAIL of S2 (R405). -/
def s2Detail (s : State) : List Byte :=
  leBytes 4 (getObj s (Key.keeperVersion (boolNum s.boot.keeperSlot))) ++
    leBytes 4 (getObj s (Key.fountainVersion (boolNum s.boot.fountainSlot))) ++ leBytes 4 (getObj s Key.compatVersion) ++
    leBytes 1 (boolNum s.boot.keeperSlot) ++ leBytes 1 (boolNum s.boot.fountainSlot) ++ leBytes 1 (boolNum s.boot.pairListed) ++
    leBytes 1 0 ++ leBytes 4 s.flash.defects.length ++ leBytes 4 s.boot.torn ++ leBytes 8 s.boot.tbBase

/-- SLOT_FALLBACK: an image runs from the slot that is not preferred. -/
def fellBack (s : State) : Bool :=
  s.boot.keeperSlot != preferredKeeper s || s.boot.fountainSlot != preferredFountain s

/-- S2 ends. On the fast path the reports of S3 to S5 follow, and S6 is next (R405).
Log entry 77 (DEDUCED). -/
def finishS2 (s : State) : State :=
  let code := if fellBack s then Code.slotFallback else if s.boot.untested then Code.untestedPair else 0
  let s1 := endStage s 2 code { StageOut.none with detail := s2Detail s }
  if s.boot.kind = 2 then passTo ([3, 4, 5].foldl skipStage s1) 6 else s1

/-- The pair that runs is looked up (R410). -/
def checkPair (s : State) : State :=
  let listed := pairInTable (tableInUse s) (runningKeeper s) (runningFountain s)
  let s1 := { s with boot := { s.boot with pairListed := listed, untested := !listed } }
  if listed then
    finishS2 (if getObj s1 Key.acceptUntested = 0 then s1
      else storeObj (setObj s1 Key.acceptUntested 0) Key.acceptUntested 0)
  else if getObj s1 Key.acceptUntested = 0 then stopStage s1 2 Code.untestedPair { StageOut.none with detail := s2Detail s1 }
  else finishS2 s1

/-- STAGE_S2: firmware is verified, the defect list is read, and the network and the PCIe link come up (R409, R410).
Log entry 77 (DEDUCED). -/
def execStageS2 (random linkRate linkWidth : Nat) (s : State) : Host.Outcome State Fault Refusal :=
  .next (
    if !(atStage s 2) then s
    else
      match chosenSlot s 1 (keeperImage s) (preferredKeeper s) with
      | none =>
        stopStage { settleHostLink s linkRate linkWidth true with boot := { s.boot with keeperRuns := false } } 2
          Code.firmwareInvalid { StageOut.none with detail := s2Detail s }
      | some k =>
        let s1 := makeIdentity s random
        match chosenSlot s1 2 (fountainImage s1) (preferredFountain s1) with
        | none =>
          let s2 := settleHostLink (noteFirmware s1 k (preferredFountain s1)) linkRate linkWidth true
          stopStage s2 2 Code.firmwareInvalid { StageOut.none with detail := s2Detail s2 }
        | some f => checkPair (settleHostLink (noteFirmware s1 k f) linkRate linkWidth true))

/-- ACCEPT_UNTESTED true resumes a start that has stopped with UNTESTED_PAIR, with no further start (R410). -/
def resumeUntested (s : State) : State :=
  if s.boot.stopped && decide (s.boot.done = 2) && decide (getObj s (Key.stageResult 2) = Code.untestedPair) then
    finishS2 { s with boot := { s.boot with stopped := false } }
  else s

/-! ### S3: vertical lanes -/

/-- SPARES_USED of each position as the defect list gives it. -/
def countSpares (s : State) : State :=
  ((liveRecords s 9).map recUnit).foldl (fun st u => if u < 544 then bump st (Key.sparesUsed u) 1 else st) s

/-- One failed bond of S3: a spare is substituted, or the position has exhausted its spares (R403). -/
def testBond (acc : State × List Nat) (b : Nat × Nat × Nat) : State × List Nat :=
  let s := acc.1
  let (p, plane, bond) := b
  if spareLeft s p plane then
    let (k, s1) := takeFree s
    let d := bondDetail plane bond (Config.freeNat k % 128)
    (bump (appendDefect s1 9 3 p d Code.laneSpared) (Key.sparesUsed p) 1, acc.2)
  else
    let s1 := appendDefect s 1 3 p 0 Code.bondSpares
    ({ s1 with boot := { s1.boot with bad := (s1.boot.bad.filter (· != p)) ++ [p] } }, if acc.2.contains p then acc.2 else acc.2 ++ [p])

/-- A shared signal that S3 finds with one failed bond runs on the other (R463). -/
def testShared (s : State) (i : Nat) : State :=
  let d := bondDetail 0 0 0xFFFF
  let s1 := appendDefect { s with boot := { s.boot with shared := s.boot.shared ++ [i] } } 9 3 (2 ^ 31 + i) d Code.sharedBondDegraded
  laneEvent s1 Code.sharedBondDegraded 1 (2 ^ 31 + i) d

/-- Spares substituted in all.
Log entry 77 (DEDUCED). -/
def sparesInAll (s : State) : Nat := (positions.map (fun p => getObj s (Key.sparesUsed p))).sum

/-- STAGE_S3: every vertical lane is tested, and spares are substituted (R403).
Log entry 77 (DEDUCED). -/
def execStageS3 (obs : S3Obs) (s : State) : Host.Outcome State Fault Refusal :=
  .next (
    if !(atStage s 3) then s
    else
      let (s1, gone) := (obs.failedBonds.filter (fun b => bondExists b.2.1 b.2.2)).foldl testBond (countSpares s, [])
      let both := obs.sharedBoth ++ obs.sharedOne.filter (fun i => s1.boot.shared.contains i)
      let s2 := (obs.sharedOne.dedup.filter (fun i => !(s1.boot.shared.contains i) && !(obs.sharedBoth.contains i))).foldl testShared s1
      let out := StageOut.of 544 gone (leBytes 4 (sparesInAll s2) ++ leBytes 4 gone.length)
      if both.isEmpty then endStage s2 3 (if gone.isEmpty then 0 else Code.bondSpares) out
      else stopStage s2 3 Code.sharedBondFault out)

/-! ### S4: the Cistern and the Basins -/

/-- Slices that the defect list names as retired, and ports that it names as halved. -/
def listedSlices (s : State) (kind : Nat) : List Nat := (liveRecords s kind).map recUnit

/-- The Cistern, the Fountain and the Sluice are filled and empty; retired slices are remapped and halved ports run at
half width, as the defect list and this start's tests say (R406, R407). -/
def fillCistern (s : State) (retired halved : List Nat) : State :=
  let s1 := { s with cistern := Cistern.clear, fountain := Fountain.clear, sluice := Sluice.clear }
  let s2 := halved.foldl (fun st g => setSlice st g { getSlice st g with portHalf := true }) s1
  retired.foldl (fun st g => setSlice st g { getSlice st g with retired := true }) s2

/-- A slice fails its test (R403, R469). -/
def failSlice (s : State) (g : Nat) : State :=
  storeSignature (appendDefect s 3 4 g 0 Code.sliceRetired) (.slice g) Code.sliceRetired none

/-- STAGE_S4: slices and Basins are tested and filled, and the Fountain and the Sluice come up (R403). -/
def execStageS4 (obs : S4Obs) (s : State) : Host.Outcome State Fault Refusal :=
  .next (
    if !(atStage s 4) then s
    else
      let old := listedSlices s 3
      let bad := obs.failedSlices.dedup.filter (fun g => !(old.contains g))
      let halved := obs.halvedPorts.dedup.filter (fun g => !((listedSlices s 2).contains g) && !(old.contains g) && !(bad.contains g))
      let s1 := fillCistern s (old ++ bad) (listedSlices s 2 ++ halved)
      let s2 := halved.foldl (fun st g => appendDefect st 2 4 g 0 Code.slicePortHalved) (bad.foldl failSlice s1)
      let gone := maskOf ((retiredIn s2 0) ++ (retiredIn s2 1))
      let out := StageOut.of 128 bad (leBytes 16 gone)
      if cisternDepleted s2 then stopStage s2 4 Code.cisternDepleted out
      else endStage s2 4 (if bad.isEmpty then 0 else Code.sliceRetired) out)

/-! ### S5: the cores -/

/-- Positions that R14 leaves out: those in the defect list, those of dark patches, and those that this start found bad. -/
def badPositions (s : State) : List Nat :=
  let dark := ((mapKeys s.power.clusterState).filter (fun k => mapGet 0 s.power.clusterState k == 2)).flatMap patchOf
  let listed := (liveRecords s 1).map recUnit
  positions.filter (fun p => s.boot.bad.contains p || listed.contains p || dark.contains p)

/-- The good positions of a half. -/
def goodPositions (s : State) (half : Nat) : List Nat :=
  let bad := badPositions s
  ((List.range 272).map (· + 272 * half)).filter (fun p => !(bad.contains p))

/-- Disable the enabled position of the highest column of one row, if it has one (R14, step 3). -/
def dropFromRow (half row : Nat) (on : List Nat) : List Nat :=
  match (on.filter (fun p => p / 16 == half * 17 + row)).max? with
  | none => on
  | some p => on.filter (· != p)

/-- Disable the surplus of a half, row after row, until it holds its target. -/
def dropSurplus (half : Nat) : Nat → Nat → Nat → List Nat → List Nat
  | 0, _, _, on => on
  | n + 1, row, want, on =>
    if on.length ≤ want then on else dropSurplus half n ((row + 1) % 17) want (dropFromRow half row on)

/-- The positions that R14 enables of the good ones of the two halves, for a share of each half. -/
def chooseOf (share : Nat) (west east : List Nat) : List Nat :=
  let want (own other : Nat) : Nat := if own < share then own else if other < share then min own (share + (share - other)) else share
  dropSurplus 0 9248 0 (want west.length east.length) west ++ dropSurplus 1 9248 0 (want east.length west.length) east

/-- The enabled positions are chosen (R14): a position of the defect list reads as retired, and the surplus as not
enabled.
Log entry 77 (DEDUCED). -/
def chooseEnabled (s : State) : State :=
  let share := tierCores s.boot.tier / 2
  let on := chooseOf share (goodPositions s 0) (goodPositions s 1)
  let bad := badPositions s
  let s1 := positions.foldl (fun st p => setCoreState st p (if on.contains p then 1 else if bad.contains p then 4 else 0)) s
  { s1 with boot := { s1.boot with shortfall := 2 * share - on.length } }

/-- A core fails its test (R403, R469). -/
def failSelftest (s : State) (p : Nat) : State :=
  let s1 := appendDefect s 1 5 p 0 Code.coreSelftest
  storeSignature { s1 with boot := { s1.boot with bad := (s1.boot.bad.filter (· != p)) ++ [p] } } (.core p) Code.coreSelftest none

/-- Enabled cores, as CORE_STATE 1 or 2 count them. -/
def enabledNow (s : State) : Nat := ((mapKeys s.keeper.cores).filter (fun q => coreState s q == 1 || coreState s q == 2)).length

/-- STAGE_S5: cores are tested, and the enabled positions are chosen (R14, R403). -/
def execStageS5 (failedCores : List Nat) (s : State) : Host.Outcome State Fault Refusal :=
  .next (
    if !(atStage s 5) then s
    else
      let known := badPositions s
      let bad := failedCores.dedup.filter (fun p => !(known.contains p))
      let s1 := chooseEnabled { bad.foldl failSelftest s with cores := [] }
      let code := if !bad.isEmpty then Code.coreSelftest else if 0 < s1.boot.shortfall then Code.coreShortfall else 0
      endStage s1 5 code (StageOut.of 544 bad (leBytes 4 (enabledNow s1) ++ leBytes 4 s1.boot.shortfall)))

/-! ### S6: the Reservoir -/

/-- The saved training values are used: the fast path, with FULL_TRAIN false, where they verify (R253).
Log entry 77 (DEDUCED). -/
def usesSaved (s : State) (t : StackTrain) : Bool :=
  s.boot.kind == 2 && getObj s Key.fullTrain == 0 && mapGet false s.flash.trained t.stack && t.verifies

/-- One stack is trained (R253). -/
def trainStack (s : State) (t : StackTrain) : State :=
  let s1 := setObj s (Key.trainMargin t.stack) t.margin
  if usesSaved s t then s1
  else
    match t.failedChannel with
    | some ch =>
      let s2 := setObj (setObj s (Key.stackState t.stack) 2) (Key.failedChannel t.stack) ch
      appendDefect s2 4 6 t.stack ch Code.reservoirTraining
    | none =>
      let s2 := setObj s1 (Key.trainTime t.stack) (stamp s)
      { s2 with flash := { s2.flash with trained := mapSet false s2.flash.trained t.stack true } }

/-- A stack before training: not licensed, or retired by the defect list (R254). -/
def markStack (s : State) (k : Nat) : State :=
  if !(tierHasStack s.boot.tier k) then setObj s (Key.stackState k) 1
  else
    match (liveRecords s 4).find? (fun b => recUnit b == k) with
    | some b => setObj (setObj s (Key.stackState k) 2) (Key.failedChannel k) (recDetail b)
    | none => s

/-- The zones of a half fit its part with the sequence zone and the shadow (R255, R256). -/
def zonesFit (s : State) (half : Nat) : Bool :=
  decide (zonePages s (Key.openPages half) half + zonePages s (Key.bufferPages half) half + 65536 + 2048 ≤ partPages s half)

/-- The defaults replace stored zones that no longer fit (R256). -/
def fitZones (acc : State × Bool) (half : Nat) : State × Bool :=
  let s := acc.1
  if zonesFit s half then acc
  else
    let put (st : State) (k : Nat) : State := storeObj (setObj st k 0xFFFFFFFF) k 0xFFFFFFFF
    (put (put s (Key.openPages half)) (Key.bufferPages half), true)

/-- A half's zones come into force with every page free (R255, R258). -/
def openZones (s : State) (half : Nat) : State :=
  let o := zonePages s (Key.openPages half) half
  let b := zonePages s (Key.bufferPages half) half
  setHalf s half { HalfSpace.empty with
    open_ := o, bufPages := b, seqPages := partPages s half - o - b - 2048
    bufFree := (List.range (b / 65536)).map (fun i => ⟨i * 65536, 16⟩) }

/-- Patches that went dark during the start enter the defect list at the end of S6 (R426).
Log entry 75 (DEDUCED). -/
def noteDarkPatches (s : State) : State :=
  ((mapKeys s.power.clusterState).filter (fun k => mapGet 0 s.power.clusterState k == 2)).foldl
    (fun st k => appendFound st 7 6 k 0 Code.clusterDark (mapGet 0 s.power.darkAt k)) s

/-- DETAIL of S6 (R405). -/
def s6Detail (s : State) (replaced : Bool) : List Byte :=
  (List.range 8).flatMap (fun k => leBytes 1 (stackState s k) ++ leBytes 1 0 ++ leBytes 2 (getObj s (Key.failedChannel k))) ++
    leBytes 1 (boolNum replaced)

/-- The fills of S4 and S5 that the fast path makes at the beginning of S6 (R403, R406). -/
def fastFills (s : State) : State :=
  chooseEnabled (countSpares { fillCistern s (listedSlices s 3) (listedSlices s 2) with cores := [] })

/-- STAGE_S6: the Reservoir stacks are trained and filled (R253).
Log entry 77 (DEDUCED). -/
def execStageS6 (trains : List StackTrain) (s : State) : Host.Outcome State Fault Refusal :=
  .next (
    if !(atStage s 6) then s
    else
      let s1 := (List.range 8).foldl markStack (if s.boot.kind = 2 then fastFills s else s)
      let tried := (List.range 8).filter (fun k => stackState s1 k == 0)
      let s2 := tried.foldl (fun st k => match trains.find? (fun t => t.stack == k) with
        | some t => trainStack st t
        | none => trainStack st { stack := k, verifies := false, failedChannel := some 0, margin := 0 }) s1
      let works (k : Nat) : Bool := stackState s2 k == 0
      let west := (List.range 4).filter works
      let east := ((List.range 4).map (· + 4)).filter works
      let bad := tried.filter (fun k => !(works k))
      let s3 := { s2 with reservoir := { Reservoir.unmapped with west := west, east := east } }
      let (s4, replaced) := [0, 1].foldl fitZones (s3, false)
      let s5 := noteDarkPatches ([0, 1].foldl openZones s4)
      let out := StageOut.of tried.length bad (s6Detail s5 replaced)
      if west.isEmpty || east.isEmpty then stopStage s5 6 Code.reservoirNone out
      else endStage s5 6 (if bad.isEmpty then 0 else Code.reservoirTraining) out)

/-! ### S7: the links -/

/-- The links that S7 trains: enabled, used under R315, and not in the defect list (R315, R403). -/
def linksToTrain (s : State) : List Nat :=
  let listed := (liveRecords s 5).map recUnit
  (List.range 36).filter (fun l => tierHasLink s.boot.tier l && !(listed.contains l))

/-- A link that does not train: not licensed, or unused under R315 (R333). -/
def markLink (s : State) (l : Nat) : State :=
  if !(tierHasLink s.boot.tier l) then setLink s l { Link.idle with st := .notLicensed }
  else if (linkSlot s.boot.shape s.boot.tier l).isNone then setLink s l { Link.idle with st := .unused }
  else s

/-- A link has trained (R303): it is UP, or unused under R315 (R333). -/
def trainLink (s : State) (t : LinkTrain) : State :=
  let k := trained s t Link.idle
  setObj (setLink s t.link (if (linkSlot s.boot.shape s.boot.tier t.link).isNone then { k with st := .unused } else k)) (Key.eyeMargin t.link) t.eye

/-- A link has failed to train: it stays DOWN. -/
def failTrain (s : State) (l : Nat) : State := setLink s l Link.idle

/-- STAGE_S7: the enabled links are trained, or with POOL_SHAPE 0 the stage is skipped (R303, R403).
Log entry 77 (DEDUCED). -/
def execStageS7 (trains : List LinkTrain) (s : State) : Host.Outcome State Fault Refusal :=
  .next (
    if !(atStage s 7) then s
    else if s.boot.shape = 0 then passTo (skipStage s 7) 8
    else
      let tried := linksToTrain s
      let good := tried.filterMap (fun l => trains.find? (fun t => t.link == l && trainOk t))
      let bad := tried.filter (fun l => !(good.any (fun t => t.link == l)))
      let s1 := bad.foldl failTrain (good.foldl trainLink ((List.range 36).foldl markLink s))
      let up := (List.range 36).filter (fun l => (getLink s1 l).st == .up)
      let out := StageOut.of tried.length bad (leBytes 8 (maskOf up) ++ leBytes 8 (maskOf bad))
      endStage s1 7 (if bad.isEmpty then 0 else Code.linkTraining) out)

/-! ### S8: the pool -/

/-- DETAIL of S8 (R405). -/
def s8Detail (s : State) : List Byte :=
  let joined := (if s.pool.head then [0] else []) ++ s.pool.joined.map (·.device)
  leBytes 1 s.pool.st.code ++ leBytes 1 s.pool.device ++ leBytes 2 0 ++ leBytes 8 (maskOf joined)

/-- STAGE_S8: the stage ends once the device stands alone, waits, or is a member; on the head of a pool that forms, when the
formation has ended, and on another device, once the peers have been asked (R324, R416).
Log entry 77 (DEDUCED). -/
def execStageS8 (s : State) : Host.Outcome State Fault Refusal :=
  .next (
    if !(atStage s 8) then s
    else if s.boot.shape ≠ 0 ∧ (s.pool.st = .standalone ∨ (s.pool.head = true ∧ s.pool.st = .forming)) then s
    else endStage s 8 s.pool.s8code { StageOut.none with detail := s8Detail s })

/-! ### S9: the licence -/

/-- LICENCE_STATE of a licence (R391, R488).
Log entry 88 (DEDUCED). -/
def licenceStateOf (s : State) (e : List Byte) : Nat :=
  if e = [] then 1
  else if !(envShape 5 e && licenceBodyOk e && envSigned s.boot.rootKeys e) then 2
  else if !(envBoundOk s 5 e) then 3
  else 0

/-- STAGE_S9: the pending licence is taken, and the licence in force is checked (R489).
Log entry 88 (DEDUCED). -/
def execStageS9 (s : State) : Host.Outcome State Fault Refusal :=
  .next (
    if !(atStage s 9) then s
    else
      let e := startLicence s
      let s1 := { s with flash := { s.flash with licence := e, pending := [], pendingTorn := false } }
      let st := licenceStateOf s1 e
      let tier := if st = 0 then licenceTierOf e else 0
      let digest := if st = 0 then sha256 e else List.replicate 32 0#8
      let s2 := setObj (setObj s1 Key.licenceState st) Key.licenceSerial (if st = 0 then licenceSerialOf e else 0)
      let s3 := { s2 with boot := { s2.boot with
        tier := if st = 0 then tier else s2.boot.tier
        measures := mapSet [] s2.boot.measures 5 digest } }
      let out : StageOut := { StageOut.none with detail := leBytes 1 st ++ leBytes 1 tier }
      if st = 0 then endStage s3 9 0 out else stopStage s3 9 Code.licenceInvalid out)

/-! ### S10 -/

/-- Logical core numbers in ascending order of position (R15). -/
def numberCores (s : State) : State :=
  let on := positions.filter (fun p => decide (1 ≤ coreState s p ∧ coreState s p ≤ 3))
  { s with boot := { s.boot with logical := on.zipIdx.map (fun e => (e.1, e.2)) } }

/-- STAGE_S10: the device begins to take work, and the core cycle count begins (R15, R128, R403, R428). -/
def execStageS10 (s : State) : Host.Outcome State Fault Refusal :=
  .next (
    if !(atStage s 10) then s
    else
      let s1 := (List.range 34).foldl darkRegion (numberCores s)
      endStage { s1 with boot := { s1.boot with reachedS10 := true }, time := { s1.time with cycle := 0, cycFrac := 0 } } 10 0
        StageOut.none)

end Sys2Proof.Machine
end

