-- ==== Sys2Proof/Machine/CisReset.lean ====
section
/-! DEFINITION. The Cistern-only reset from the end of its drain (R211, R240, R263, R287, R331, R413 to R415), and the
admission of held transactions (R475 to R477). -/

namespace Sys2Proof.Machine

/-! ### What is still under way (R211, R413) -/

/-- A memory instruction waits for a slice of this device. -/
def homeUnfinished (m : MemOp) : Bool :=
  m.walk.isNone && m.need.any (fun k => decide (k < 2 ^ 60) &&
    (if m.kind == .load then m.got.all (fun v => v.sector != k)
     else if m.kind == .atom then m.got.all (fun v => v.sector != k) || !(m.accepted.contains k)
     else !(m.accepted.contains k)))

/-- The instruction without what it waits for from slices of this device.
Log entry 45 (DEDUCED). -/
def cutHome (m : MemOp) : MemOp :=
  if homeUnfinished m then { m with need := m.need.filter (fun k => decide (2 ^ 60 ≤ k)) } else m

/-- The memory instruction is cut off: it waits for a slice or for a walk. -/
def memCut (m : MemOp) : Bool := homeUnfinished m || m.walk.isSome

/-- A position's engine waits for the walk of its command's page, for home slices, or to write a page of the Cistern (R211). -/
def engineCut (s : State) (p unit : Nat) : Option WeirCmd :=
  match (getEngine (getPos s p) unit).running with
  | none => none
  | some r =>
    match cmdRef unit r.cmd.words, r.page with
    | none, _ => none
    | some _, some a =>
      if cmdWaits s p unit || (hasHome s a && unit == 1 && !r.stored) then some r.cmd else none
    | some _, none => some r.cmd

/-- The tasks that have a transfer under way at a position.
Log entry 45 (DEDUCED). -/
def cutTasks (s : State) (p : Nat) (c : Pos) : List Nat :=
  (coreGroups c).filterMap (fun e => if e.2.mem.any memCut then some e.2.slot else none) ++
    c.late.filterMap (fun e => if homeUnfinished e.2 then some e.1 else none) ++
    (((engineCut s p 0).toList ++ (engineCut s p 1).toList).filter (fun o => taskThere s o.slot o.use)).map (·.slot)

/-- Every task with a transfer under way. -/
def allCut (s : State) : List Nat := (s.cores.flatMap (fun e => cutTasks s e.1 e.2)).dedup

/-- A job that the reset cuts off for good: what it was for is begun again where it is still wanted (R211, R287, R413). -/
def cutJob : JobFor → Bool
  | .fetch _ _ _ => true
  | .seqList _ _ => true
  | .scrub _ _ _ _ => true
  | .promote _ => true
  | .pageIn _ _ => true
  | _ => false

/-- The drain is over: nothing is under way between the cores, the Weir, the Sluice and the slices.
Log entry 45 (DEDUCED). -/
def drained (s : State) : Bool :=
  (allCut s).isEmpty && s.cistern.sill.all (fun e => e.2.isEmpty) &&
    s.cistern.slices.all (fun e => e.2.inbox.isEmpty && e.2.mrs.isEmpty && e.2.waits.isEmpty && e.2.fetches.isEmpty)

/-- What is under way at a position is cut off. -/
def cutPos (c : Pos) : Pos :=
  let groups := c.groups.map (fun e => (e.1, e.2.map (fun g => { g with mem := (g.mem.filter (fun m => m.walk.isNone)).map cutHome })))
  { c with groups := groups, late := c.late.map (fun e => (e.1, cutHome e.2)), walks := [], promote := none }

/-- A command that is cut off ends at once where its task has retired. -/
def endGone (s : State) : State :=
  s.cores.foldl (fun st e => [0, 1].foldl (fun x u => match engineCut s e.1 u with
    | some o => if taskThere s o.slot o.use then x else endRun x e.1 u
    | none => x) st) s

/-- Step 3: transfers not finished end with VERTICAL_ABORT.
Log entry 45 (DEDUCED). -/
def cutAll (s : State) : State :=
  let ns := allCut s
  let s1 := dropJobsFor s (fun w => match w with
    | .weir p u => (engineCut s p u).isSome
    | w => cutJob w)
  let s2 := endGone s1
  ns.foldl verticalAbort { s2 with cores := mapEach Pos.idle cutPos s2.cores }

/-! ### Writeback (R413, step 4; R414) -/

/-- The writes that a channel's queue holds are completed, and its reads are discarded (R253). -/
def finishChannel (s : State) (key : Nat) (c : Channel) : State :=
  let s1 := c.writes.foldl (fun st w => bump (resWrite st w.sector w.data w.mark) (Key.bytesWritten (key / 128)) 32) s
  { s1 with reservoir := { s1.reservoir with
      chans := mapSet Channel.idle s1.reservoir.chans key { c with reads := [], writes := [], writeTries := 0 } } }

/-- A sector written back, unless its stack is lost. -/
def putBack (s : State) (g : Nat) (w : WbSector) : State :=
  if onLostStack s (w.sector * 32) || isWin w.sector then s
  else notePageWriter (countBytes (bump (resWrite s w.sector w.data w.mark) (Key.writebacks g) 1) 1 w.cls 32) w.sector w.wtag

/-- The sector's final value cannot be formed: it takes the uncorrectable mark (R414). -/
def markSector (s : State) (sector : Nat) : State :=
  if onLostStack s (sector * 32) || isWin sector then s
  else { s with reservoir := { s.reservoir with marked := mapSet false s.reservoir.marked sector true } }

/-- An accepted store or reduction. -/
def changes (r : Req) : Bool := match r.op with
  | .read => false
  | _ => true

/-- Sectors of a slice with an accepted store or reduction whose fetch, or whose way, is still outstanding (R414). -/
def openSectors (sl : Slice) : List Nat :=
  ((((sl.mrs.flatMap (fun m => m.waiters)) ++ sl.waits.map (fun w => w.req)).filter changes).map (fun r => r.sector) ++
    (sl.redq.filter (fun e => !e.pinned && !(secPresent (getSector sl e.req.sector)))).map (fun e => e.req.sector)).dedup

/-- The dirty sectors of the lines of a slice. -/
def dirtySectors (sl : Slice) : List WbSector :=
  (linesFrom sl 0).flatMap (fun l => (l.sectors.zipIdx.filter (fun e => e.1.st == .dirty)).map (fun e =>
    { sector := l.tag * 4 + e.2, data := e.1.data, cls := l.cls, mark := e.1.bad, wtag := e.1.wtag }))

/-- Queued reductions of ordinary sectors that are present are applied; those of pinned lines are discarded. -/
def applyQueued (s : State) (g : Nat) : State :=
  let sl := getSlice s g
  let s1 := setSlice s g { sl with redq := sl.redq.filter (fun e => !e.pinned) }
  let secs := ((sl.redq.filter (fun e => !e.pinned && secPresent (getSector sl e.req.sector))).map (fun e => e.req.sector)).dedup
  secs.foldl (fun st n =>
    let a := applySector st g n
    deliverAll a.1 g a.2) s1

/-- A request of a posted write of the host (R340). -/
def isPosted (s : State) : Origin → Bool
  | .job _ _ id => s.cistern.jobs.any (fun j => j.id == id && j.who == .post)
  | _ => false

/-- Steps 4 and 5 for one slice (R240). -/
def emptySlice (s : State) (g : Nat) : State :=
  let gone := openSectors (getSlice s g)
  let s1 := applyQueued s g
  let sl := getSlice s1 g
  let s2 := gone.foldl markSector ((sl.wb ++ dirtySectors sl).foldl (fun st w => putBack st g w) s1)
  setSlice s2 g { Slice.empty with portHalf := sl.portHalf, portLost := sl.portLost, retired := sl.retired, lastDone := now s,
                                        windowRefetch := sl.windowRefetch,
                                        inbox := sl.inbox.filter (fun q => isPosted s q.req.origin) }

/-- Steps 4 and 5: every slice is emptied, and the window reads zero. Posted writes of the host that no slice has taken yet
wait. -/
def emptyCistern (s : State) : State :=
  let s1 := s.reservoir.chans.foldl (fun st e => finishChannel st e.1 e.2) s
  let s2 := (mapKeys s1.cistern.slices).foldl emptySlice s1
  let kept (x : SillXfer) : Bool := match x.item with
    | .request r _ => isPosted s r.origin
    | .accept o _ => isPosted s o
    | .answer _ _ => false
  { s2 with cistern := { s2.cistern with win := [], winTag := [], winBad := [],
                                         sill := mapEach [] (fun xs => xs.filter kept) s2.cistern.sill } }

/-! ### Rebuilding and resuming (R263, R287, R413, steps 6 and 7) -/

/-- A task is in the staging window and has no group yet. -/
def staging (sl : Slot) : Bool :=
  (sl.staging == .moving || sl.staging == .staged) && sl.nextGroup == 0 && sl.ending.isNone && (sl.state == 2 || sl.state == 7)

/-- A page of a task that is staged again: held where that can be, and fetched. -/
def restagePage (n cls : Nat) (s : State) (e : Nat × Nat) : State :=
  match getPage s e.1 e.2 with
  | none => s
  | some pg =>
    if pg.st ≠ .cistern then s
    else
      let s1 := modPage s e.1 e.2 (fun x => { x with st := .reservoir })
      bringUp cls ((holdPage n true s1 e).getD s1) e

/-- A task in the staging window is staged again from step 4 of R273.
Log entry 45 (DEDUCED). -/
def restage (s : State) (e : Nat × Slot) : State :=
  if !(staging e.2) then s
  else
    let s1 := modSlot s e.1 (fun sl => { sl with staging := .moving, dispatchable := none })
    e.2.asked.foldl (restagePage e.1 (recClass e.2.words)) s1

/-- A task whose SEQ_LIST was being read asks the Sluice again. -/
def relist (s : State) (e : Nat × Slot) : State := if e.2.staging == .listing then requestStaging s e.1 else s

/-- A persistent LEVEL 1 buffer whose task is in state 5 still: PIN_LOST (R263). -/
def pinLost (s : State) (b : Buf) : State :=
  if b.level = 1 && b.persist && slotState s b.slot == 5 && b.gen == mapGet 0 s.fountain.uses b.slot then
    modSlot s b.slot (fun sl => { sl with code := Code.pinLost })
  else s

/-- Step 6: the Sluice's tables are as the shadow holds them; page-outs that were cut off are cancelled, page-ins start
again, and staging begins again. -/
def rebuildSluice (s : State) : State :=
  let s1 := (s.sluice.moves.filter (fun m => !m.2.2)).foldl (fun st m => cancelPageOut st (m.1, m.2.1)) s
  let s2 := { s1 with sluice := { s1.sluice with holds := [] } }
  (s2.sluice.bufs).foldl pinLost ((liveSlots s2).foldl relist ((liveSlots s2).foldl restage s2))

/-- Tasks that have touched the window, or hold a task-scoped LEVEL 1 buffer (R414). -/
def windowTasks (s : State) : List Nat :=
  ((liveSlots s).filter (fun e => (e.2.state == 3 || e.2.state == 4 || e.2.state == 7) &&
    (e.2.windowUser || s.sluice.bufs.any (fun b => b.level == 1 && !b.persist && b.slot == e.1 && b.gen == mapGet 0 s.fountain.uses e.1)))).map
    (fun e => e.1)

/-- A device-local address in the window of this device. -/
def ownWindow (s : State) (a : Nat) : Bool := addrDevice a == s.pool.device && decide (winBase ≤ addrLocal a ∧ addrLocal a < basinBase)

/-- A firmware update with its image in the window of this device ends, and so does the reading of a test pack there (R411,
R415).
Log entry 45 (DEDUCED). -/
def cutUpdate (s : State) : State :=
  let lost (st : State) (op : Nat) : Bool := (getSvc st op).state == 3 && ownWindow st (leAt (getSvc st op).args 8 8)
  let s1 := if lost s 4 && decide ((getSvc s 4).phase ≤ 3) then endSvc s 4 6 Code.verticalAbort else s
  if lost s1 3 && (jobOf s1 (.image 3)).isSome then endSvc s1 3 6 Code.verticalAbort else s1

/-- A read of this device's memory that the reset has cut is begun again: one of the host, or of an operation's source. -/
def rereadJob (s : State) (j : Job) : State :=
  let again (addr len : Nat) : State :=
    let ops := (readOps addr len).filter (fun x => (slotTableAt (x.1 * 32)).isNone)
    startJob (dropJob s j.id) j.half j.port j.cls 0 j.who (j.got.filter (fun v => (slotTableAt (v.sector * 32)).isSome)) ops
  if j.left = 0 then s
  else
    match j.who with
    | .bar4 _ a n => again a n
    | .image op =>
      let args := (getSvc s op).args
      if addrDevice (leAt args 8 8) = s.pool.device then again (addrLocal (leAt args 8 8)) (leAt args 4 4) else s
    | _ => s

/-- Such reads wait until the reset is over.
Log entry 46 (DESIGN CHOICE). -/
def reread (s : State) : State := s.cistern.jobs.foldl rereadJob s

/-- Step 7: the walkers and the read-only caches are invalidated, PIN_EPOCH rises, members are told, and dispatch
resumes.
Log entry 45 (DEDUCED). -/
def resumeDevice (s : State) (r : CisReset) : State :=
  let s1 := { s with cores := mapEach Pos.idle (fun c => { c with walker := [], ro := [] }) s.cores,
                     cistern := { s.cistern with reset := none } }
  let s2 := bump s1 Key.pinEpoch 1
  cisResetEvent (if inPool s2 then floodPool s2 4 [s2.pool.device] else s2) 0 r.cause r.unit

/-- CISTERN_RESET_DRAIN_END: the drain has finished, or its 2 ms bound is reached, and the reset's other steps follow
(R413, R414). -/
def execCisternResetDrainEnd (s : State) : Host.Outcome State Fault Refusal :=
  match s.cistern.reset with
  | none => .next s
  | some r =>
    if !(drained s) && decide (now s < r.since + 2010000) then .next s
    else
      let s1 := cutUpdate (cutAll s)
      let s2 := emptyCistern ((windowTasks s1).foldl verticalAbort s1)
      .next (evalWaits (reread (resumeDevice (rebuildSluice s2) r)))

/-! ### Held transactions (R475 to R477) -/

/-- Admit the oldest request of a class that a slice's limit holds.
Log entry 44 (DEDUCED). -/
def admitIntake (s : State) (g cls : Nat) : State :=
  match (getSlice s g).inbox.zipIdx.find? (fun e => e.1.held && e.1.req.cls == cls) with
  | none => s
  | some (q, i) =>
    if intakeCount (getSlice s g) cls ≥ classLimit s 0 cls || (getSlice s g).portLost then s
    else
      let s1 := markInbox s g i (fun x => { x with held := false })
      if heldBy s1 g q.req = .none then takeInbox s1 g i { q with held := false } .ok else s1

/-- Admit the first fetch of a class that a channel's limit holds.
Log entry 44 (DEDUCED). -/
def admitFetch (s : State) (chan cls : Nat) : State :=
  let at_ (f : Fetch) : Bool :=
    let l := resLoc s (f.sector * 32)
    f.held && f.cls == cls && l.stack * 128 + l.ch == chan
  let found := s.cistern.slices.findSome? (fun e => (e.2.fetches.find? (fun f => at_ f && mayFetch e.2 f)).map (fun f => (e.1, f)))
  let c := getChan s (chan / 128) (chan % 128)
  match found with
  | none => s
  | some (g, f) => if c.reads.length ≥ 64 ∨ chanCount c cls ≥ classLimit s 1 cls then s else sendFetch s g f

/-- Admit the oldest transfer of a class that the Sill's limit holds in a direction.
Log entry 44 (DEDUCED). -/
def admitSill (s : State) (dir cls : Nat) : State :=
  let xs := mapGet [] s.cistern.sill dir
  match xs.zipIdx.find? (fun e => !e.1.sent && e.1.cls == cls) with
  | none => s
  | some (x, i) =>
    if sillCount s dir cls ≥ classLimit s 2 cls then s
    else countBytes { s with cistern := { s.cistern with sill := mapSet [] s.cistern.sill dir (xs.set i { x with sent := true }) } }
      2 cls x.bytes

/-- The class's count at an instance of a point has fallen below its limit. At a link the queue is sent
as far as limits and credits allow; at the PCIe port the engine or path that holds a transaction offers it again by
itself (R477).
Log entry 44 (DEDUCED). -/
def regulationAdmit (point inst cls : Nat) (s : State) : State :=
  if !(railsUp s) then s
  else if point = 0 then admitIntake s inst cls
  else if point = 1 then admitFetch s inst cls
  else if point = 2 then admitSill s inst cls
  else if point = 3 then pumpLink s inst
  else s

end Sys2Proof.Machine
end

