-- ==== Sys2Proof/Machine/Service.lean ====
section
/-! DEFINITION. The service operations (R382, R383): the defect sweep (R412), the spot test and test packs (R466 to R468),
the firmware update (R411), the licence load (R488), the export of failure signatures (R469) and the clearing of defect
entries (R490). What a write of SVC_GO or SVC_CANCEL asks for is written here; the checks of the write stand in the
dictionary's own file. -/

namespace Sys2Proof.Machine

/-- A result of a write that is applied: the code that refuses it, 0 for none, and the state. -/
abbrev Applied := Nat × State

/-- A refusal that changes nothing. -/
def refuse (s : State) (code : Nat) : Applied := (code, s)

/-- A refusal whose code the manual does not give: a free code other than 0.
Log entry 68 (DESIGN CHOICE). -/
def refuseFree (s : State) : Applied :=
  let (k, s1) := takeFree s
  (Config.freeNat k % 4095 + 1, s1)

/-! ### Starting and ending -/

/-- SVC_ARGS of an operation. -/
def svcArgs (s : State) (op : Nat) : List Byte := getBytes s (Key.svcArgs (op - 1))

/-- Publish SVC_RESULT. -/
def setResult (s : State) (op : Nat) (r : List Byte) : State := setBytes s (Key.svcResult (op - 1)) r

/-- An operation starts with the SVC_ARGS in force (R382). -/
def beginSvc (s : State) (op : Nat) (result : List Byte) : State :=
  let s1 := setSvc s op { Svc.idle with state := 3, args := svcArgs s op }
  svcEvent (setObj (setResult s1 op result) (Key.svcStarted (op - 1)) (stamp s)) 0

/-- PROGRESS of an operation. -/
def setProgress (s : State) (op n : Nat) : State := setSvc s op { getSvc s op with progress := n }

/-- An operation that takes no time: it starts and ends, with its PROGRESS, result, final state and code. -/
def instantSvc (s : State) (op progress : Nat) (result : List Byte) (state code : Nat) : State :=
  endSvc (setResult (setProgress (beginSvc s op []) op progress) op result) op state code

/-- The reading of an operation's source begins (R411, R466): at this device's home slices, or from a peer. None is a refusal
under R27.
Log entry 87 (DEDUCED). -/
def readSource (s : State) (op addr len : Nat) : Option State :=
  let cls := getObj s Key.hostClass
  let a := addrLocal addr
  let d := addrDevice addr
  if len = 0 then none
  else if d = s.pool.device then
    (if homeRefusal s a len = none ∧ resMapped s a = resMapped s (a + len - 1) then
       some (startJob s 0 portKeeper cls 0 (.image op) [] (readOps a len))
     else none)
  else if isMember s d && decide (s.pool.st = .formed) then
    let ps := readPackets s d cls a len
    let j : Job := { id := s.cistern.nextJob, half := 0, port := portKeeper, cls := cls, who := .image op, left := ps.length, got := [] }
    some (peerRequests { s with cistern := { s.cistern with jobs := s.cistern.jobs ++ [j], nextJob := j.id + 1 } }
      (ps.map (fun p => mkReq d (.image op) none agentKeeper 0 p)))
  else none

/-- The bytes of a source that has been read whole. -/
def sourceBytes (v : Svc) (got : List Served) : List Byte := gotBytes got (addrLocal (leAt v.args 8 8)) (leAt v.args 4 4)

/-! ### The defect sweep (R412) -/

/-- SVC_RESULT of the sweep. -/
def sweepResult (done entries first : Nat) : List Byte :=
  leBytes 2 done ++ leBytes 2 50 ++ leBytes 2 entries ++ leBytes 2 0 ++ leBytes 4 first

/-- SVC_GO of operation 0x01.
Log entry 85 (DEDUCED). -/
def goSweep (s : State) : Applied :=
  let a := svcArgs s 1
  if 1 < a.length then refuseFree s
  else if !(deviceIdle s) || !(inService s) || inCisReset s then refuse s Code.deviceBusy
  else
    let s1 := beginSvc s 1 (sweepResult 0 0 0xFFFFFFFF)
    (0, setSvc s1 1 { getSvc s1 1 with todo := List.range 50, data := sweepResult 0 0 0xFFFFFFFF })

/-- The tests that the sweep's argument asks for: bit 0 lanes, 1 slices, 2 Basins, 3 cores.
Log entry 85 (DEDUCED). -/
def sweepTests (args : List Byte) : Nat := if args = [] then 15 else leAt args 0 1

/-- A finding that block `b` can make: blocks 0 to 33 are the header regions, 34 to 49 the groups of eight slices.
Log entry 85 (DEDUCED). -/
def findingFits (tests b : Nat) (f : SweepFinding) : Bool :=
  if b < 34 then
    (f.kind == 1 || f.kind == 9) && decide (f.unit / 16 = b) && (bit tests 0 || (f.kind == 1 && (bit tests 2 || bit tests 3)))
  else (f.kind == 2 || f.kind == 3) && decide (f.unit / 8 = b - 34) && bit tests 1

/-- A record of the sweep is appended and applied at once.
Log entry 85 (DEDUCED). -/
def applyFinding (s : State) (f : SweepFinding) : State :=
  if isNamed s f.kind f.unit f.detail then s
  else
    let s1 := appendDefect s f.kind 0x21 f.unit f.detail f.code
    match f.kind with
    | 1 => leaveService (storeSignature s1 (.core f.unit) f.code none) f.unit
    | 2 => setSlice s1 f.unit { getSlice s1 f.unit with portHalf := true }
    | 3 => storeSignature (handOver s1 f.unit) (.slice f.unit) f.code none
    | _ => bump s1 (Key.sparesUsed f.unit) 1

/-- What a block's test leaves of the memories it writes over: Basins filled, and Cistern lines gone (R412). Requests of the
host and of peers that a slice has are not memory: they wait there for a way again.
Log entry 85 (DEDUCED). -/
def wipeBlock (s : State) (b : Nat) : State :=
  if b < 34 then
    (List.range 16).foldl (fun st c => setPos st (b * 16 + c) { getPos st (b * 16 + c) with basin := [], basinTag := [] }) s
  else
    (List.range 8).foldl (fun st c =>
      let g := (b - 34) * 8 + c
      let sl := getSlice st g
      let again := (takenReqs sl).map (fun r => (⟨r, now st⟩ : WayWait))
      setSlice st g { Slice.empty with portHalf := sl.portHalf, portLost := sl.portLost, retired := sl.retired, lastDone := now st,
                                       inbox := sl.inbox, waits := again, windowRefetch := sl.windowRefetch }) s

/-- The end of a sweep, or of a cancelled one: Cistern and Basins are filled, the Sluice is rebuilt from the shadow,
PIN_EPOCH rises, and PIN_LOST is set where R263 applies.
Log entry 85 (DEDUCED). -/
def closeSweep (s : State) : State :=
  let s1 := (List.range 50).foldl wipeBlock s
  let s2 := { s1 with cistern := { s1.cistern with win := [], winTag := [], winBad := [] } }
  bump (rebuildSluice s2) Key.pinEpoch 1

/-- SWEEP_BLOCK_COMMIT: a block of the sweep finishes (R412). -/
def execSweepBlockCommit (found : List SweepFinding) (s : State) : Host.Outcome State Fault Refusal :=
  .next (
    let v := getSvc s 1
    match v.todo with
    | [] => s
    | b :: rest =>
      if v.state ≠ 3 ∨ inService s = false then s
      else
        let before := s.flash.defects.length
        let s1 := (found.filter (findingFits (sweepTests v.args) b)).foldl applyFinding (wipeBlock s b)
        let added := s1.flash.defects.length - before
        let first := if leAt v.data 8 4 = 0xFFFFFFFF ∧ 0 < added then before else leAt v.data 8 4
        let data := sweepResult (b + 1) (leAt v.data 4 2 + added) first
        let s2 := setResult (setSvc s1 1 { getSvc s1 1 with todo := rest, data := data, progress := b + 1 }) 1 data
        if cisternDepleted s2 then railsOff (raiseUnit s2 Code.cisternDepleted 3 .cistern (b * 8 - 272) []) .depleted
        else if v.cancel then endSvc (closeSweep s2) 1 6 Code.serviceCancelled
        else if rest.isEmpty then endSvc (closeSweep s2) 1 5 0
        else s2)

/-! ### Testing cores (R466 to R468) -/

/-- SVC_RESULT of operations 0x02 and 0x03, followed by the model's own bitmap of tested positions. After these 214 bytes the
model keeps 12 bytes for each position that has failed: the position, and the timebase when it did. -/
def testResult (tested failed skipped first fmask smask tmask : Nat) : List Byte :=
  leBytes 2 tested ++ leBytes 2 failed ++ leBytes 2 skipped ++ leBytes 4 first ++ leBytes 68 fmask ++ leBytes 68 smask ++
    leBytes 68 tmask

/-- Nothing tested yet. -/
def testNone : List Byte := testResult 0 0 0 0xFFFFFFFF 0 0 0

/-- How a position came out. -/
inductive TestEnd where
  | passed | failed | skipped
  deriving DecidableEq, Repr

/-- A mask with bit `p` set. -/
def withBit (m p : Nat) : Nat := if bit m p then m else m + 2 ^ p

/-- The result with one more position in it, finished at the timebase stamp `at_`. -/
def noteTest (d : List Byte) (p at_ : Nat) (e : TestEnd) : List Byte :=
  let tail := d.drop 214
  match e with
  | .passed =>
    testResult (leAt d 0 2 + 1) (leAt d 2 2) (leAt d 4 2) (leAt d 6 4) (leAt d 10 68) (leAt d 78 68) (withBit (leAt d 146 68) p) ++ tail
  | .failed =>
    testResult (leAt d 0 2 + 1) (leAt d 2 2 + 1) (leAt d 4 2) (if leAt d 6 4 = 0xFFFFFFFF then p else leAt d 6 4)
      (withBit (leAt d 10 68) p) (leAt d 78 68) (withBit (leAt d 146 68) p) ++ tail ++ leBytes 4 p ++ leBytes 8 at_
  | .skipped =>
    testResult (leAt d 0 2) (leAt d 2 2) (leAt d 4 2 + 1) (leAt d 6 4) (leAt d 10 68) (withBit (leAt d 78 68) p) (leAt d 146 68) ++ tail

/-- The positions that have failed, each with its time. -/
def failuresOf (d : List Byte) : List (Nat × Nat) :=
  (List.range ((d.length - 214) / 12)).map (fun i => (leAt d (214 + 12 * i) 4, leAt d (218 + 12 * i) 8))

/-- Publish a test's result so far: PROGRESS counts the cores finished.
Log entries 75 (DEDUCED); 86 (DEDUCED). -/
def publishTest (s : State) (op : Nat) (d : List Byte) : State :=
  setResult (setSvc s op { getSvc s op with data := d, progress := leAt d 0 2 }) op (d.take 146)

/-- Cores that operation `op` tests at once: PARALLEL of a run; a spot test takes one at a time. -/
def testsAtOnce (v : Svc) (op : Nat) : Nat := if op = 3 then leAt v.args 2 2 else 1

/-- Take further positions under test, in ascending order; one that is not in CORE_STATE 1 is skipped (R467). -/
def feedTests (op : Nat) : Nat → State → State
  | 0, s => s
  | n + 1, s =>
    let v := getSvc s op
    match v.todo with
    | [] => s
    | p :: rest =>
      if v.busy.length ≥ testsAtOnce v op then s
      else
        let s1 := setSvc s op { v with todo := rest }
        if coreState s p ≠ 1 then feedTests op n (publishTest s1 op (noteTest v.data p (stamp s) .skipped))
        else
          let s2 := syncTesting (setSvc s1 op { v with todo := rest, busy := v.busy ++ [p] })
          feedTests op n { s2 with keeper := { s2.keeper with
            spotWait := if op = 2 then mapSet 0 s2.keeper.spotWait p (now s) else s2.keeper.spotWait } }

/-- The objects of R398 for one position.
Log entry 86 (DEDUCED). -/
def noteCore (d : List Byte) (s : State) (p : Nat) : State :=
  if bit (leAt d 146 68) p then
    setObj (setObj s (Key.testResult p) (if bit (leAt d 10 68) p then 2 else 1)) (Key.testTime p) (stamp s)
  else s

/-- A spot test or run ends: KIND 1 records of the cores that it retired, and the objects of R398 (R407, R468). -/
def endTests (s : State) (op state code : Nat) : State :=
  let d := (getSvc s op).data
  let s1 := (failuresOf d).foldl (fun st f => appendFound st 1 0x22 f.1 0 Code.coreTestFailed f.2) s
  let s2 := positions.foldl (noteCore d) s1
  let s3 := setObj (setObj s2 Key.lastTested (leAt d 0 2)) Key.lastFailed (leAt d 2 2)
  endSvc (if op = 3 then setObj s3 Key.packTime (stamp s) else s3) op state code

/-- After a position has finished: a cancel takes effect, the next positions are taken, or the operation ends. -/
def goOnTests (s : State) (op : Nat) : State :=
  if (getSvc s op).cancel then endTests s op 6 Code.serviceCancelled
  else
    let s1 := feedTests op ((getSvc s op).todo.length) s
    let v := getSvc s1 op
    if v.todo.isEmpty && v.busy.isEmpty then endTests s1 op 5 0 else s1

/-- Start a test of these positions; with no pack installed it ends in PACK_INVALID (R466).
Log entry 86 (DEDUCED). -/
def startTests (s : State) (op : Nat) (ps : List Nat) : State :=
  let s1 := beginSvc s op (testNone.take 146)
  if s.flash.pack = [] then endSvc s1 op 6 Code.packInvalid
  else goOnTests (setSvc s1 op { getSvc s1 op with todo := ps, data := testNone }) op

/-- SVC_GO of operation 0x02. -/
def goSpot (s : State) : Applied :=
  let a := svcArgs s 2
  if a.length ≠ 76 ∨ leAt a 70 2 = 0 ∨ leAt a 72 2 = 0 ∨ 1000 < leAt a 72 2 ∨ 10000 < leAt a 74 2 then refuseFree s
  else (0, startTests s 2 (positions.filter (fun p => bit (leAt a 0 68) p)))

/-- The operation that has a position under test: the run first. -/
def testerOf (s : State) (p : Nat) : Option Nat := [3, 2].find? (fun op => (getSvc s op).state == 3 && (getSvc s op).busy.contains p)

/-- A position leaves the test, which goes on. -/
def finishTest (s : State) (op p : Nat) (e : TestEnd) : State :=
  let v := getSvc s op
  let s1 := syncTesting (setSvc s op { v with busy := v.busy.filter (· != p) })
  let s2 := if op = 2 then { s1 with keeper := { s1.keeper with spotWait := mapErase s1.keeper.spotWait p } } else s1
  goOnTests (publishTest s2 op (noteTest v.data p (stamp s) e)) op

/-- A core that gave a wrong digest is retired at once, with an event and a failure signature (R468). -/
def failTest (s : State) (t : CoreTest) : State :=
  let s1 := storeSignature (raiseUnit s Code.coreTestFailed 2 .keeper t.position []) (.core t.position) Code.coreTestFailed (some t)
  bump (leaveService s1 t.position) Key.retiredByTest 1

/-- CORE_TEST_COMPLETE: the tests of a free core are finished (R467, R468); those that a Cistern-only reset cuts run again. A
core that has been retired meanwhile is skipped.
Log entry 86 (DEDUCED). -/
def execCoreTestComplete (t : CoreTest) (s : State) : Host.Outcome State Fault Refusal :=
  .next (
    match testerOf s t.position with
    | none => s
    | some op =>
      if !(inService s) || inCisReset s || !((coreGroups (getPos s t.position)).isEmpty) then s
      else if coreState s t.position = 4 then finishTest s op t.position .skipped
      else if t.failed = 0 then finishTest s op t.position .passed
      else finishTest (failTest s t) op t.position .failed)

/-- SPOT_TEST_WAIT_MS_EXPIRY: a core of a spot test is not free within WAIT_MS, and is skipped (R467).
Log entry 86 (DEDUCED). -/
def execSpotTestWaitMsExpiry (p : Nat) (s : State) : Host.Outcome State Fault Refusal :=
  .next (
    let v := getSvc s 2
    if v.state ≠ 3 ∨ !(v.busy.contains p) ∨ (coreGroups (getPos s p)).isEmpty ∨
        now s < mapGet 0 s.keeper.spotWait p + leAt v.args 74 2 * 1000000 then s
    else finishTest s 2 p .skipped)

/-! ### Test packs (R466) -/

/-- The largest signed pack: 4 MiB of tests in its envelope.
Log entry 87 (DEDUCED). -/
abbrev packMax : Nat := 2 ^ 22 + 112

/-- MODE 0: a chunk is put at its offset among the appended bytes, and what followed the offset is gone.
Log entry 87 (DEDUCED). -/
def appendPack (s : State) (a : List Byte) : State :=
  let off := leAt a 4 4
  let chunk := a.drop 16
  if packMax < off + chunk.length then instantSvc s 3 0 [] 6 Code.packInvalid
  else
    let s1 := { s with keeper := { s.keeper with pack := slice s.keeper.pack 0 off ++ chunk } }
    instantSvc s1 3 0 [] 5 0

/-- A pack is verified and installed, and the operation ends; one whose signature fails leaves the installed pack. -/
def closePack (s : State) (e : List Byte) : State :=
  if envValid s 4 e && decide (envBodyLen e ≤ 2 ^ 22) then endSvc { s with flash := { s.flash with pack := e } } 3 5 0
  else endSvc s 3 6 Code.packInvalid

/-- MODE 1: the appended bytes are the pack. -/
def installPack (s : State) (e : List Byte) : State := closePack (beginSvc s 3 []) e

/-- MODE 2: the pack is read from pool memory.
Log entry 87 (DEDUCED). -/
def installPoolPack (s : State) (a : List Byte) : State :=
  let s1 := beginSvc s 3 []
  match readSource s1 3 (leAt a 8 8) (leAt a 4 4) with
  | none => endSvc s1 3 6 Code.addressUnmapped
  | some s2 => s2

/-- A pack has been read from pool memory, and is verified and installed.
Log entry 87 (DEDUCED). -/
def takePack (s : State) (got : List Served) : State :=
  let v := getSvc s 3
  if v.state ≠ 3 then s else if v.cancel then endSvc s 3 6 Code.serviceCancelled else closePack s (sourceBytes v got)

/-- Every enabled core.
Log entry 86 (DEDUCED). -/
def runPositions (s : State) : List Nat := positions.filter (fun p => coreState s p == 1 || coreState s p == 2)

/-- SVC_GO of operation 0x03, by MODE. -/
def goPack (s : State) : Applied :=
  let a := svcArgs s 3
  if a.length < 16 then refuseFree s
  else
    match leAt a 0 1 with
    | 0 => (0, appendPack s a)
    | 1 => (0, installPack s s.keeper.pack)
    | 2 => if leAt a 8 8 % 64 ≠ 0 ∨ packMax < leAt a 4 4 then refuseFree s else (0, installPoolPack s a)
    | 3 => if leAt a 2 2 = 0 ∨ 64 < leAt a 2 2 then refuseFree s else (0, startTests s 3 (runPositions s))
    | _ => refuseFree s

/-! ### The firmware update (R411) -/

/-- SVC_RESULT of the update. -/
def updateResult (phase version listed : Nat) : List Byte :=
  leBytes 1 phase ++ leBytes 3 0 ++ leBytes 4 version ++ leBytes 1 listed ++ leBytes 7 0

/-- SVC_GO of operation 0x04; the boot ROM's responder takes only Keeper images (R409). -/
def goUpdate (s : State) : Applied :=
  let a := svcArgs s 4
  if a.length ≠ 16 ∨ 2 < leAt a 0 1 ∨ leAt a 4 4 = 0 ∨ 2 ^ 24 < leAt a 4 4 ∨ leAt a 8 8 % 64 ≠ 0 then
    refuseFree s
  else if reducedResponder s ∧ leAt a 0 1 ≠ 0 then refuse s Code.notReady
  else
    let s1 := beginSvc s 4 (updateResult 1 0 0)
    (0, match readSource (setSvc s1 4 { getSvc s1 4 with phase := 1 }) 4 (leAt a 8 8) (leAt a 4 4) with
      | none => endSvc s1 4 6 Code.addressUnmapped
      | some s2 => s2)

/-- What the update writes to: the slot that is not running, or the spare table (R411).
Log entry 87 (DEDUCED). -/
def putTarget (s : State) (kind : Nat) (e : List Byte) : State :=
  if kind = 0 then
    (if s.boot.keeperSlot then { s with flash := { s.flash with keeperA := e } } else { s with flash := { s.flash with keeperB := e } })
  else if kind = 1 then
    (if s.boot.fountainSlot then { s with flash := { s.flash with fountainA := e } } else { s with flash := { s.flash with fountainB := e } })
  else { s with flash := { s.flash with compatSpare := e } }

/-- The target's bytes. -/
def target (s : State) (kind : Nat) : List Byte :=
  if kind = 0 then keeperImage s (!s.boot.keeperSlot) else if kind = 1 then fountainImage s (!s.boot.fountainSlot) else s.flash.compatSpare

/-- The version that the dictionary shows of the slot being written.
Log entry 87 (DEDUCED). -/
def showVersion (s : State) (kind v : Nat) : State :=
  if kind = 0 then setObj s (Key.keeperVersion (boolNum (!s.boot.keeperSlot))) v
  else if kind = 1 then setObj s (Key.fountainVersion (boolNum (!s.boot.fountainSlot))) v
  else s

/-- NEW_PAIR_LISTED: the new image and the other running image form a listed pair. -/
def newPairListed (s : State) (kind : Nat) (e : List Byte) : Bool :=
  if kind = 0 then pairInTable (tableInUse s) (envVersion e) (runningFountain s)
  else if kind = 1 then pairInTable (tableInUse s) (runningKeeper s) (envVersion e)
  else pairInTable e (runningKeeper s) (runningFountain s)

/-- Phase 5: the preferred-slot record is rewritten, or the table pointer swapped. -/
def selectNew (s : State) (kind : Nat) : State :=
  let f := { s.flash with prefKeeper := preferredKeeper s, prefFountain := preferredFountain s, prefTorn := false }
  if kind = 0 then { s with flash := { f with prefKeeper := !s.boot.keeperSlot } }
  else if kind = 1 then { s with flash := { f with prefFountain := !s.boot.fountainSlot } }
  else setObj { s with flash := { f with compat := s.flash.compatSpare, compatSpare := s.flash.compat } } Key.compatVersion
    (slotVersion s 3 s.flash.compatSpare)

/-- The update enters a phase, a commit point: a cancel takes effect there (R383). -/
def enterPhase (s : State) (phase : Nat) : State :=
  let v := getSvc s 4
  let r := getBytes s (Key.svcResult 3)
  if v.cancel then endSvc s 4 6 Code.serviceCancelled
  else setResult (setSvc s 4 { v with phase := phase }) 4 (updateResult phase (leAt r 4 4) (leAt r 8 1))

/-- Phase 1: the image, read whole, is verified before anything is written.
Log entry 87 (DEDUCED). -/
def verifyUpdate (s : State) : State :=
  let kind := leAt (getSvc s 4).args 0 1
  match jobOf s (.image 4) with
  | none => s
  | some j =>
    let s1 := dropJob s j.id
    let e := sourceBytes (getSvc s 4) j.got
    if j.left ≠ 0 then s
    else if !(envValid s1 (kind + 1) e) then endSvc s1 4 6 Code.firmwareInvalid
    else
      let s2 := setResult (setSvc s1 4 { getSvc s1 4 with data := e }) 4
        (updateResult 1 (envVersion e) (boolNum (newPairListed s1 kind e)))
      enterPhase s2 2

/-- The next 64 KiB of the image are written.
Log entry 87 (DEDUCED). -/
def writeUpdate (s : State) (kind : Nat) : State :=
  let v := getSvc s 4
  let n := min v.data.length (v.progress + 65536)
  let s1 := setProgress (putTarget s kind (v.data.take n)) 4 n
  if n < v.data.length then (if v.cancel then endSvc s1 4 6 Code.serviceCancelled else s1) else enterPhase s1 4

/-- Phase 5, and the end: the new image runs from the next start, at once with FLAGS bit 0.
Log entry 84 (DEDUCED). -/
def selectUpdate (s : State) (kind : Nat) : State :=
  let v := getSvc s 4
  let r := getBytes s (Key.svcResult 3)
  let s1 := showVersion (selectNew s kind) kind (slotVersion s (kind + 1) (target s kind))
  let s2 := endSvc (setResult (setSvc s1 4 { v with phase := 6 }) 4 (updateResult 6 (leAt r 4 4) (leAt r 8 1))) 4 5 0
  if bit (leAt v.args 1 1) 0 then { s2 with boot := { s2.boot with warmWanted := some 3 } } else s2

/-- A warm start that was asked for begins (R401, R411).
Log entry 84 (DEDUCED). -/
def takeWarm (s : State) : State := match s.boot.warmWanted with
  | some cause => restart s cause
  | none => s

/-- FIRMWARE_UPDATE_PHASE: the update reaches its next commit point (R411). -/
def execFirmwareUpdatePhase (s : State) : Host.Outcome State Fault Refusal :=
  .next (
    let v := getSvc s 4
    let kind := leAt v.args 0 1
    if v.state ≠ 3 ∨ netUp s = false then s
    else
      match v.phase with
      | 1 => verifyUpdate s
      | 2 => enterPhase (showVersion (putTarget s kind []) kind 0) 3
      | 3 => writeUpdate s kind
      | 4 => enterPhase s 5
      | _ => takeWarm (selectUpdate s kind))

/-! ### The licence load (R488) -/

/-- SVC_RESULT of the licence load.
Log entry 88 (DEDUCED). -/
def licenceResult (state : Nat) (e : List Byte) : List Byte :=
  leBytes 1 state ++ leBytes 1 (licenceTierOf e) ++ leBytes 2 0 ++ leBytes 8 (licenceSerialOf e)

/-- The positions that a tier keeps of those enabled now (R14, steps 2 and 3). -/
def keptCores (s : State) (tier : Nat) : List Nat :=
  let on (h : Nat) := ((List.range 272).map (· + 272 * h)).filter (fun p => coreState s p == 1)
  chooseOf (tierCores tier / 2) (on 0) (on 1)

/-- A core is withdrawn as though its enable object had been written false (R379). -/
def disableCore (s : State) (p : Nat) : State := withdrawCore (setObj s (Key.coreEnable p) 0) p

/-- Step 4: the cores and links that the tier will not enable are withdrawn.
Log entry 88 (DEDUCED). -/
def reduceNow (s : State) (tier : Nat) : State :=
  let kept := keptCores s tier
  let out := positions.filter (fun p => coreState s p == 1 && !(kept.contains p))
  let s1 := out.foldl disableCore s
  let s2 := ((List.range 36).filter (fun l => tierHasLink s.boot.tier l && !(tierHasLink tier l))).foldl (fun st l => applyLinkEnable st l 0) s1
  let s3 := { s2 with boot := { s2.boot with reduced := s2.boot.reduced ++ out } }
  settleLicence (setSvc s3 5 { getSvc s3 5 with todo := out })

/-- Step 3: the licence becomes the pending one. -/
def storePending (s : State) (e : List Byte) : State :=
  setObj { s with flash := { s.flash with pending := e, pendingTorn := false, stores := s.flash.stores ++ [.licence] } }
    Key.pendingTier (licenceTierOf e)

/-- SVC_GO of operation 0x05. -/
def goLicence (s : State) : Applied :=
  let a := svcArgs s 5
  let e := a.take 128
  let reduce := bit (leAt a 128 1) 0
  if a.length ≠ 129 then refuseFree s
  else if !(envShape 5 e && envSigned s.boot.rootKeys e && licenceBodyOk e) then
    (0, instantSvc s 5 0 (licenceResult 2 e) 6 Code.licenceInvalid)
  else if !(envBoundOk s 5 e) then (0, instantSvc s 5 0 (licenceResult 3 e) 6 Code.licenceInvalid)
  else if reduce && decide (tierInForce s < licenceTierOf e) then (0, instantSvc s 5 0 (licenceResult 0 e) 6 Code.valueRange)
  else if reduce && !(s.pool.st == .standalone || s.pool.st == .waiting) then
    (0, instantSvc s 5 0 (licenceResult 0 e) 6 Code.deviceBusy)
  else
    let s1 := setResult (beginSvc (storePending s e) 5 []) 5 (licenceResult 0 e)
    (0, if reduce then reduceNow s1 (licenceTierOf e) else endSvc s1 5 5 0)

/-- A position that the pending licence excludes (R488): one that its load withdrew, or that R14 will not enable at the next
start.
Log entry 88 (DEDUCED). -/
def pendingExcludes (s : State) (p : Nat) : Bool :=
  licenceValid s s.flash.pending && !s.flash.pendingTorn &&
    (s.boot.reduced.contains p ||
      !((chooseOf (tierCores (licenceTierOf s.flash.pending) / 2) (goodPositions s 0) (goodPositions s 1)).contains p))

/-! ### Failure signatures (R469) -/

/-- Whole records that fit in the 1,000 bytes of SVC_RESULT with the head of their array.
Log entry 89 (DEDUCED). -/
def fitRecords : List (List Byte) → Nat → List (List Byte)
  | [], _ => []
  | r :: rs, room => if r.length ≤ room then r :: fitRecords rs (room - r.length) else []

/-- SVC_GO of operation 0x06.
Log entry 89 (DEDUCED). -/
def goExport (s : State) : Applied :=
  let a := svcArgs s 6
  if a.length ≠ 8 then refuseFree s
  else
    let rs := ((s.flash.signatures.filter (fun g => decide (leAt a 0 4 ≤ g.seq))).map (·.bytes)).take (leAt a 4 2)
    let out := fitRecords rs 999
    (0, instantSvc s 6 out.length (cborArray out) 5 0)

/-! ### Clearing defect entries (R490) -/

/-- An entry of a token: the index and CHECK of a record. -/
def tokenEntry (body : List Byte) (i : Nat) : Nat × Nat := (leAt body (8 + 8 * i) 4, leAt body (12 + 8 * i) 4)

/-- An entry names a whole record of another kind than 15 that carries this CHECK.
Log entry 89 (DEDUCED). -/
def entryNames (s : State) (e : Nat × Nat) : Bool := match s.flash.defects[e.1]? with
  | none => false
  | some d => !(recTorn d.bytes) && recKind d.bytes != 15 && recCheck d.bytes == e.2

/-- SVC_RESULT of the clearing.
Log entry 89 (DEDUCED). -/
def clearResult (n first : Nat) : List Byte := leBytes 2 n ++ leBytes 2 0 ++ leBytes 4 first

/-- Each entry once, at its first place: a repeated one is already done (R490). -/
def inEntryOrder (es : List (Nat × Nat)) : List (Nat × Nat) := es.reverse.dedup.reverse

/-- SVC_GO of operation 0x07.
Log entry 89 (DEDUCED). -/
def goClear (s : State) : Applied :=
  let a := svcArgs s 7
  let b := envBody a
  let n := leAt b 0 2
  let es := (List.range n).map (tokenEntry b)
  let left := es.filter (fun e => !(recCancelled s e.1))
  let todo := inEntryOrder left
  let first := s.flash.defects.length
  if !(envValid s 6 a) || n = 0 || decide (16 < n) || b.length ≠ 8 + 8 * n || !(left.all (entryNames s)) then
    (0, instantSvc s 7 0 (clearResult 0 0xFFFFFFFF) 6 Code.tokenInvalid)
  else if 4096 < first + todo.length then (0, instantSvc s 7 0 (clearResult 0 0xFFFFFFFF) 6 Code.defectListFull)
  else
    let s1 := todo.foldl (fun st e => appendDefect st 15 0x23 e.1 0 0) s
    let s2 := if left.isEmpty then s1 else { s1 with boot := { s1.boot with cleared := true } }
    (0, instantSvc s2 7 todo.length (clearResult todo.length (if left.isEmpty then 0xFFFFFFFF else first)) 5 0)

/-! ### SVC_GO and SVC_CANCEL (R382, R383) -/

/-- SVC_GO true of an operation. -/
def goSvc (s : State) (op : Nat) : Applied :=
  if (getSvc s op).state = 3 then refuse s Code.svcBusy
  else
    match op with
    | 1 => goSweep s
    | 2 => goSpot s
    | 3 => goPack s
    | 4 => goUpdate s
    | 5 => goLicence s
    | 6 => goExport s
    | _ => goClear s

/-- SVC_CANCEL true: the operation ends at its next commit point. -/
def cancelSvc (s : State) (op : Nat) : Applied :=
  let v := getSvc s op
  (0, if v.state = 3 then setSvc s op { v with cancel := true } else s)

end Sys2Proof.Machine
end

