-- ==== Sys2Proof/Machine/DictWrite.lean ====
section
/-! DEFINITION. The dictionary as it is written (R354 to R357, R373 to R381): the checks of a written value, the conditions
that the state of the device puts on it, what each object's write does, and the device's transaction. -/

namespace Sys2Proof.Machine

/-! ### Checks of a value (R354, R357) -/

/-- A binary32 word is a NaN. -/
def f32Nan (n : Nat) : Bool := bits n 30 23 == 255 && bits n 22 0 != 0

/-- Ranges that a row's bounds do not give: multiples (R29, R256, R281) and NaN (R354). -/
def ownRange (k v : Nat) : Bool :=
  if k = Key.hostSlots then v % 1024 == 0
  else if keyArea k = 0x50 ∧ (keyObj k = 1 ∨ keyObj k = 2) then v % 65536 == 0
  else if k = Key.hostPoolBase then v % 65536 == 0 && decide (v < 2 ^ 44)
  else true

/-- A written value against its type, its length and its own range: the code that refuses it, or 0. -/
def valueCode (r : ObjRow) (k : Nat) : Val → Nat
  | .bytes b =>
    match r.ty with
    | .bytes => if b.length ≤ 1000 then 0 else Code.typeMismatch
    | .text => if b.length ≤ 256 then 0 else Code.typeMismatch
    | _ => Code.typeMismatch
  | .num n =>
    if r.ty = .bytes ∨ r.ty = .text ∨ 2 ^ (8 * r.ty.width) ≤ n then Code.typeMismatch
    else if n < r.lo ∨ r.hi < n ∨ ownRange k n = false ∨ (r.ty = .f32 ∧ f32Nan n = true) then Code.valueRange
    else 0

/-- The number of a value. -/
def valNat : Val → Nat
  | .num n => n
  | .bytes _ => 0

/-- The bytes of a value. -/
def valRaw : Val → List Byte
  | .num _ => []
  | .bytes b => b

/-! ### Conditions (R357) -/

/-- The staged writes of a transaction, in ascending order of key. -/
abbrev Staged := List (Nat × Val)

/-- What a numeric object will hold once the staged writes have been applied. -/
def afterStaged (s : State) (staged : Staged) (k : Nat) : Nat :=
  match staged.find? (fun e => e.1 == k) with
  | some e => (valNat e.2)
  | none => if keyArea k = 0x50 ∧ (keyObj k = 1 ∨ keyObj k = 2) then zonePages s k (keyElt k) else getObj s k

/-- A task is in state 2, 3, 4 or 7, or a LEVEL 1 buffer of the half is allocated (R219). -/
def pinBusy (s : State) (half : Nat) : Bool :=
  (liveSlots s).any (fun e => activeTask e.2) || s.sluice.bufs.any (fun b => b.level == 1 && b.half == half)

/-- PIN_WAYS and POOL_PAGES of a half (R216, R218, R219, R377). -/
def pinCode (s : State) (staged : Staged) (half k v : Nat) : Nat :=
  let ways := afterStaged s staged (Key.pinWays half)
  let pages := afterStaged s staged (Key.poolPages half)
  if 12 < ways ∨ (ways - 1) * 2048 < pages then Code.pinLimit
  else if v = getObj s k then 0
  else if inCisReset s then Code.deviceBusy
  else if pinBusy s half then Code.pinBusy
  else 0

/-- CORE_ENABLE (R379, R381, R488). -/
def coreCode (s : State) (p v : Nat) : Nat :=
  if v = 0 then 0
  else if coreState s p = 0 ∨ coreState s p = 4 ∨ pendingExcludes s p = true then Code.valueRange
  else if coreState s p = 2 then Code.functionDraining
  else 0

/-- LINK_ENABLE false must leave every two joined members a working link (R330): the other staged withdrawals count. -/
def linkCode (s : State) (staged : Staged) (l v : Nat) : Nat :=
  let others := staged.filter (fun e => keyArea e.1 == 0x58 && keyElt e.1 == 1 && decide (0x1000 ≤ keyObj e.1) && e.1 != Key.linkEnable l)
  let s1 := others.foldl (fun st e => setObj st e.1 (valNat e.2)) s
  if v = 0 ∧ lastLink s1 l = true then Code.linkLast else 0

/-- The zones of a half leave its sequence zone at least 65,536 pages (R255, R256). -/
def zoneCode (s : State) (staged : Staged) (half : Nat) : Nat :=
  if afterStaged s staged (Key.openPages half) + afterStaged s staged (Key.bufferPages half) + 65536 + 2048 ≤ partPages s half then 0
  else Code.valueRange

/-- A page of the device is in state HOST or PAGING_OUT, or has a host copy; so is one whose sequence has been freed while it
moves (R281, R286). -/
def hostPagesHeld (s : State) : Bool :=
  !s.sluice.hostCopies.isEmpty || s.sluice.orphans.any (fun o => o.hostPage.isSome) || s.sluice.seqs.any (fun e => match e.2 with
    | some q => q.pages.any (fun p => p.hostPage.isSome)
    | none => false)

/-- The host pool (R281): the whole of it lies below 2⁴⁴.
Log entry 68 (DESIGN CHOICE). -/
def hostPoolCond (s : State) (staged : Staged) : Applied :=
  if hostPagesHeld s then refuseFree s
  else if 2 ^ 44 < afterStaged s staged Key.hostPoolBase + afterStaged s staged Key.hostPoolPages * 65536 then refuse s Code.valueRange
  else (0, s)

/-- A profile's objects change only while every sequence of it is FREE (R264). -/
def profileCode (s : State) (r : Nat) : Nat :=
  if s.sluice.seqs.any (fun e => e.1 / 8192 % 16 == r && (match e.2 with
    | some q => q.st != .free
    | none => false)) then Code.deviceBusy else 0

/-- The addresses and length of a copy slot are as R344 gives. -/
def copyFits (s : State) (cc : Nat) : Bool :=
  let h := getObj s (Key.copyHostAddr cc)
  let p := getObj s (Key.copyPoolAddr cc)
  let n := getObj s (Key.copyBytes cc)
  let a := addrLocal p
  h % 32 == 0 && decide (h < 2 ^ 44) && p % 32 == 0 && n % 32 == 0 && decide (32 ≤ n ∧ n ≤ 2 ^ 40) &&
    decide (a < 2 ^ 40 ∨ (winBase ≤ a ∧ a < winBase + 2 ^ 32)) &&
    (addrDevice p == s.pool.device || (inPool s && bit s.pool.members (addrDevice p)))

/-- COPY_GO (R344, R345, R375).
Log entry 68 (DESIGN CHOICE). -/
def copyCond (s : State) (cc v : Nat) : Applied :=
  if v = 0 then (0, s)
  else if servesCopies s = false ∨ (getCopy s cc).state = 3 ∨ copyFits s cc = false then refuseFree s
  else if fountainHeld s then refuse s Code.deviceBusy
  else (0, s)

/-- POOL_MEMBERS (R326): written on the head; the other members' votes are theirs, a free value.
Log entry 68 (DESIGN CHOICE). -/
def membersCond (s : State) (v : Nat) : Applied :=
  if s.pool.head = false ∨ s.boot.shape = 0 then refuseFree s
  else if membersValid s v = false then refuse s Code.poolWiring
  else if (bitsOf 64 v ++ bitsOf 64 s.pool.members).all (· == s.pool.device) then (0, s)
  else
    let (k, s1) := takeFree s
    if Config.freeBit k then (0, s1) else refuseFree s1

/-- CISTERN_RESET (R415). -/
def resetCode (s : State) (v : Nat) : Nat :=
  if v ≠ 0 ∧ (inService s = false ∨ (getSvc s 1).state = 3) then Code.deviceBusy else 0

/-- The condition that the state of the device and the other staged writes put on a write of an object. -/
def condOf (s : State) (staged : Staged) (k v : Nat) : Applied :=
  let obj := keyObj k
  let elt := keyElt k
  match keyArea k with
  | 0x24 => if elt = 1 ∧ v ≠ 0 ∧ (getSvc s obj).state = 3 then refuse s Code.svcBusy else (0, s)
  | 0x30 => if obj = 0x32 ∧ v ≠ 0 ∧ classState s elt = 1 then refuse s Code.functionDraining else (0, s)
  | 0x40 => (coreCode s (obj - 0x1000) v, s)
  | 0x48 => if obj = 1 ∨ obj = 2 then (pinCode s staged elt k v, s) else (0, s)
  | 0x50 =>
    if obj = 1 ∨ obj = 2 then (zoneCode s staged elt, s)
    else if obj = 0x10 ∨ obj = 0x11 then hostPoolCond s staged
    else if obj = 0x13 ∨ obj = 0x14 then
      (if afterStaged s staged Key.pageoutHigh ≤ afterStaged s staged Key.pageoutLow then Code.valueRange else 0, s)
    else if 0x200 ≤ obj then (profileCode s (obj - 0x200), s)
    else (0, s)
  | 0x58 =>
    if obj = 2 then membersCond s v
    else if 0x1000 ≤ obj then (linkCode s staged (obj - 0x1000) v, s)
    else (0, s)
  | 0x5C => if 0x100 ≤ obj ∧ elt = 4 then copyCond s (obj - 0x100) v else (0, s)
  | 0x60 => if k = Key.cisternReset then (resetCode s v, s) else (0, s)
  | _ => (0, s)

/-- The condition, with the idleness that RWI requires (R355).
Log entry 66 (DEDUCED). -/
def condFor (s : State) (staged : Staged) (r : ObjRow) (k v : Nat) : Applied :=
  if r.acc = .rwi ∧ deviceIdle s = false then refuse s Code.deviceBusy else condOf s staged k v

/-! ### What a write does -/

/-- Set an object, and begin its store where it is kept in flash (R389). -/
def setKept (s : State) (r : ObjRow) (k v : Nat) : State :=
  let s1 := setObj s k v
  if r.flash then storeObj s1 k v else s1

/-- SECONDS_LOAD: taken at the next obeyed pulse; state 3 returns to 0 (R450). -/
def loadSeconds (s : State) (v : Nat) : State :=
  let t := { s.time with load := some v }
  { s with time := if t.pps = 3 then { t with pps := 0, inWindow := 0 } else t }

/-- MIN_RESET: every minimum record restarts, and crack patterns may be counted again (R429, R430). -/
def restartMins (s : State) : State := { s with power := { s.power with railMin := [], clusterMin := [], suspects := [] } }

/-- INTAKE_ERROR: bits written as 0 are cleared (R43). -/
def clearIntake (s : State) (v : Nat) : State :=
  setObj s Key.intakeError (maskOf ((bitsOf 32 (getObj s Key.intakeError)).filter (fun i => bit v i)))

/-- CLASS_ENABLE (R379 to R381). -/
def writeClass (s : State) (c v : Nat) : State :=
  let s1 := setObj s (Key.classEnable c) v
  if v = 0 then withdrawClass s1 c
  else if classState s1 c = 2 then evalWaits (setClassState s1 c 0)
  else s1

/-- CORE_ENABLE (R379 to R381). -/
def writeCore (s : State) (p v : Nat) : State :=
  if v = 0 then disableCore s p
  else
    let s1 := setObj s (Key.coreEnable p) 1
    if coreState s1 p = 3 then setCoreState s1 p 1 else s1

/-- BASIN_SLUICE_FRAMES: a lowered value drops the copies of the frames that it gives up, before it takes effect (R280). -/
def writeFrames (s : State) (v : Nat) : State :=
  let gone (f : Nat) : Bool := decide (f < 64 - v)
  let s1 := (busyPositions s).foldl (fun st p =>
    (((getPos st p).frames.filter (fun e => gone e.1)).filterMap (fun e => e.2)).foldl (fun u e => dropFrame u e.1 e.2) st) s
  setObj s1 Key.basinSluiceFrames v

/-- The moves of a copy: at most 64 KiB each, none crossing a 64 KiB boundary of the pool address (R345). -/
def copyMoves (cc : Nat) (toPool : Bool) : Nat → Nat → Nat → Nat → List CopyMove
  | 0, _, _, _ => []
  | n + 1, host, pool, left =>
    if left = 0 then []
    else
      let k := min left (65536 - pool % 65536)
      { cc := cc, host := host, pool := pool, bytes := k, toPool := toPool } :: copyMoves cc toPool n (host + k) (pool + k) (left - k)

/-- COPY_GO true: the copy is split and its moves are queued (R345).
Log entry 59 (DEDUCED). -/
def startCopy (s : State) (cc : Nat) : State :=
  let h := getObj s (Key.copyHostAddr cc)
  let p := getObj s (Key.copyPoolAddr cc)
  let n := getObj s (Key.copyBytes cc)
  let s1 := setCopy s cc { state := 3, code := 0, moved := 0, host := h, pool := p }
  feedEngines { s1 with port := { s1.port with
      queue := s1.port.queue ++ (copyMoves cc (getObj s (Key.copyDir cc) == 0) (n / 65536 + 2) h p n).map .copy } }

/-- POOL_MEMBERS on the head: every device that the old or the new value names takes it at the same instant (R326). -/
def writeMembers (s : State) (v : Nat) : State :=
  applyMembers ((trainedLinks s).foldl (fun st l => emit st (.pool l 6 [v])) s) v

/-- ACCEPT_UNTESTED: true resumes a start that has stopped with UNTESTED_PAIR (R410). -/
def acceptUntested (s : State) (r : ObjRow) (v : Nat) : State :=
  let s1 := setKept s r Key.acceptUntested v
  if v = 1 then resumeUntested s1 else s1

/-- The host pool begins anew: none of its pages is in use (R281). -/
def freshHostPool (s : State) : State := { s with sluice := { s.sluice with hostNext := 0, hostFreed := [] } }

/-- Apply a numeric write whose checks have passed.
Log entry 70 (DEDUCED). -/
def applyNum (s : State) (r : ObjRow) (k v : Nat) : Applied :=
  let obj := keyObj k
  let elt := keyElt k
  let plain : State := setKept s r k v
  match keyArea k with
  | 0x18 => (0, if k = Key.secondsLoad then loadSeconds s v else plain)
  | 0x24 => if v = 0 then (0, s) else if elt = 1 then goSvc s obj else cancelSvc s obj
  | 0x28 => (0, if k = Key.minReset then (if v = 0 then s else restartMins s) else plain)
  | 0x30 => (0, if k = Key.intakeError then clearIntake s v else if obj = 0x32 then writeClass s elt v else plain)
  | 0x34 => (0, if k = Key.snapshot then (if v = 0 then s else setObj (snapshot s) Key.snapshotAt 0) else plain)
  | 0x40 => (0, writeCore s (obj - 0x1000) v)
  | 0x44 => (0, if k = Key.basinSluiceFrames then writeFrames s v else plain)
  | 0x48 => (0, if 0x1000 ≤ obj ∧ v ≠ 0 then s else plain)
  | 0x50 => (0, if k = Key.seqRelease then evalWaits (releaseSeq s v)
      else if k = Key.hostPoolPages ∨ k = Key.hostPoolBase then freshHostPool plain
      else if k = Key.hostMoves then feedEngines plain
      else plain)
  | 0x58 => (0, if obj = 2 then writeMembers s v else if 0x1000 ≤ obj then applyLinkEnable s (obj - 0x1000) v else plain)
  | 0x5C => (0, if 0x100 ≤ obj ∧ elt = 4 then (if v = 0 then s else startCopy s (obj - 0x100)) else plain)
  | 0x60 =>
    (0, if k = Key.warmReset then (if v = 0 then s else { s with boot := { s.boot with warmWanted := some 2 } })
      else if k = Key.cisternReset then (if v = 0 then s else withReset (fun st => requestCisReset st 0 0xFFFFFFFF Code.cisternReset) s)
      else if k = Key.acceptUntested then acceptUntested s r v
      else plain)
  | _ => (0, plain)

/-- Apply a write whose own checks have passed, if its condition holds (R357). -/
def applyWrite (s : State) (staged : Staged) (r : ObjRow) (k : Nat) (v : Val) : Applied :=
  match v with
  | .bytes b => (0, setBytes s k b)
  | .num n =>
    let c := condFor s staged r k n
    if c.1 ≠ 0 then c else applyNum c.2 r k n

/-! ### The transaction (R373 to R377) -/

/-- A message that carries the current identity is activity (R374). -/
def touchTxn (s : State) : State :=
  { s with keeper := { s.keeper with txn := { s.keeper.txn with activity := now s, activityTb := stamp s } } }

/-- The identity names the device's transaction. -/
def txnCurrent (s : State) (id : Nat) : Bool := s.keeper.txn.st != .none && s.keeper.txn.id == id

/-- The transaction ends with a result (R377). -/
def endTxn (s : State) (result : Nat) : State :=
  let s1 := setObj (setObj (setObj s Key.lastTxnId s.keeper.txn.id) Key.lastTxnResult result) Key.lastTxnTime (stamp s)
  { s1 with keeper := { s1.keeper with txn := Txn.none } }

/-- Stage a write (R374). -/
def stageWrite (s : State) (id k : Nat) (v : Val) : Applied :=
  let t := s.keeper.txn
  if !(txnCurrent s id) then refuse s Code.txnUnknown
  else if t.st ≠ .open_ then refuse s Code.txnPrepared
  else if 1024 ≤ t.staged.length ∧ t.staged.all (fun e => e.1 != k) = true then refuse s Code.txnFull
  else (0, { s with keeper := { s.keeper with txn := { t with staged := mapPut t.staged k v } } })

/-- The first staged write whose checks fail, in ascending order of key: its code and key (R375).
Log entry 71 (DEDUCED). -/
def firstFailing (s : State) (all : Staged) : Staged → (Nat × Nat) × State
  | [] => ((0, 0), s)
  | (k, v) :: rest =>
    match objRow k with
    | none => firstFailing s all rest
    | some r =>
      let c := condFor s all r k (valNat v)
      if c.1 ≠ 0 then ((c.1, k), c.2) else firstFailing c.2 all rest

/-- The checks of the whole staged set, against the device as it is.
Log entry 66 (DEDUCED). -/
def checkStaged (s : State) : (Nat × Nat) × State := firstFailing s s.keeper.txn.staged s.keeper.txn.staged

/-- The staged set holds an RWI object, PIN_WAYS or POOL_PAGES (R375). -/
def holdsDevice (staged : Staged) : Bool :=
  staged.any (fun e => (keyArea e.1 == 0x48 && (keyObj e.1 == 1 || keyObj e.1 == 2)) || (match objRow e.1 with
    | some r => r.acc == .rwi
    | none => false))

/-- Apply the staged writes in ascending order of key; the first refusal met is the result (R376).
Log entry 66 (DEDUCED). -/
def applyAll (all : Staged) : Staged → Nat → State → Applied
  | [], code, s => (code, s)
  | (k, v) :: rest, code, s =>
    match objRow k with
    | none => applyAll all rest code s
    | some r =>
      let a := applyWrite s all r k v
      applyAll all rest (if code = 0 then a.1 else code) a.2

/-- A change of PIN_WAYS or POOL_PAGES has not reached every set yet (R219).
Log entry 70 (DEDUCED). -/
def pinsPending (s : State) : Bool :=
  [0, 1].any (fun h => getObj s (Key.pinWays h) != pinWays s h || getObj s (Key.poolPages h) != (getHalf s h).poolPages)

/-- The transaction goes to APPLYING, and its writes are applied (R373, R376).
Log entry 70 (DEDUCED). -/
def beginApply (s : State) (timed : Bool) (reply : Option (Via × CasHdr)) : State :=
  let t := s.keeper.txn
  let s1 := { s with keeper := { s.keeper with txn := { t with st := .applying, timed := timed, reply := reply, instant := 0 } } }
  let a := applyAll t.staged t.staged 0 s1
  { a.2 with keeper := { a.2.keeper with txn := { a.2.keeper.txn with result := a.1, holds := pinsPending a.2 } } }

/-- The event frame of a transaction that fails without a COMMIT to answer (R376, R377).
Log entry 71 (DEDUCED). -/
def txnEvent (s : State) (code : Nat) : State :=
  raiseUnit s code (if code = Code.txnTimeout then 1 else 2) .keeper 0xFFFFFFFF []

/-- TXN_TIMEOUT: 30 s have passed without activity (R373, R377). -/
def execTxnTimeout (s : State) : Host.Outcome State Fault Refusal :=
  .next (
    let t := s.keeper.txn
    if (t.st = .open_ ∨ t.st = .prepared) ∧ t.activity + 30 * second ≤ now s ∧ netUp s = true then
      txnEvent (endTxn s Code.txnTimeout) Code.txnTimeout
    else s)

/-! ### One write (R355, R357, R360) -/

/-- The objects of service operation 0x04, which the boot ROM's responder serves too (R409).
Log entry 66 (DEDUCED). -/
def updateKey (k : Nat) : Bool := keyArea k == 0x24 && keyObj k == 4

/-- An object may be written now.
Log entry 66 (DEDUCED). -/
def writeOpen (s : State) (r : ObjRow) (k : Nat) : Bool :=
  if reducedResponder s then updateKey k else areaOpen s (keyArea k) r.flash

/-- A write of one object by a message: outside a transaction, or in the one that the message names. -/
def writeObj (s : State) (txn k : Nat) (v : Val) : Applied :=
  match objRow k with
  | none => refuse s (if reducedResponder s then Code.notReady else Code.objectUnknown)
  | some r =>
    let code := valueCode r k v
    if !(writeOpen s r k) then refuse s Code.notReady
    else if r.acc = .ro then refuse s Code.accessDenied
    else if code ≠ 0 then refuse s code
    else if txn ≠ 0 then stageWrite s txn k v
    else if r.acc = .rwt then refuse s Code.txnRequired
    else if s.keeper.txn.staged.any (fun e => e.1 == k) then refuse s Code.objectStaged
    else applyWrite s [] r k v

/-- A row that is a write of one object: the message's activity, the write, and a warm start that it asked for. -/
def runWrite (s : State) (w : ObjWrite) : State :=
  if netUp s then
    let s1 := if w.txn ≠ 0 ∧ txnCurrent s w.txn = true then touchTxn s else s
    takeWarm (writeObj s1 w.txn w.key w.val).2
  else s

/-- A row whose objects are those that `own` names.
Log entry 69 (DESIGN CHOICE). -/
def runOwn (own : Nat → Bool) (w : ObjWrite) (s : State) : Host.Outcome State Fault Refusal :=
  .next (if own w.key then runWrite s w else s)

/-- MODE of operation 0x03's arguments (R466).
Log entry 69 (DESIGN CHOICE). -/
def packMode (s : State) : Nat := leAt (svcArgs s 3) 0 1

/-- The objects that have a row of their own.
Log entry 69 (DESIGN CHOICE). -/
def ownRow (k : Nat) : Bool :=
  k == Key.seqRelease || k == Key.seqQuery || (keyArea k == 0x58 && decide (0x1000 ≤ keyObj k) && keyElt k == 1) ||
  (keyArea k == 0x5C && decide (0x100 ≤ keyObj k) && keyElt k == 4) || k == Key.intakeError || k == Key.eventQuery ||
  k == Key.defectQuery || (keyArea k == 0x40 && decide (0x1000 ≤ keyObj k) && keyElt k == 0) ||
  (keyArea k == 0x30 && keyObj k == 0x32) || k == Key.minReset || k == Key.snapshot || k == Key.secondsLoad ||
  k == Key.arithClock || k == Key.acceptUntested || k == Key.warmReset || k == Key.cisternReset ||
  (keyArea k == 0x24 && (keyElt k == 1 || keyElt k == 2))

/-- OBJECT_WRITE: a write of an object without a row of its own (R357). -/
def execObjectWrite (w : ObjWrite) (s : State) : Host.Outcome State Fault Refusal := runOwn (fun k => !(ownRow k)) w s

/-- SEQ_RELEASE (R265). -/
def execSeqRelease (w : ObjWrite) (s : State) : Host.Outcome State Fault Refusal := runOwn (· == Key.seqRelease) w s

/-- SEQ_QUERY (R289). -/
def execSeqQuery (w : ObjWrite) (s : State) : Host.Outcome State Fault Refusal := runOwn (· == Key.seqQuery) w s

/-- LINK_ENABLE (R330). -/
def execLinkEnable (w : ObjWrite) (s : State) : Host.Outcome State Fault Refusal :=
  runOwn (fun k => keyArea k == 0x58 && decide (0x1000 ≤ keyObj k) && keyElt k == 1) w s

/-- COPY_GO (R345). -/
def execCopyGo (w : ObjWrite) (s : State) : Host.Outcome State Fault Refusal :=
  runOwn (fun k => keyArea k == 0x5C && decide (0x100 ≤ keyObj k) && keyElt k == 4) w s

/-- INTAKE_ERROR (R43). -/
def execIntakeErrorWrite (w : ObjWrite) (s : State) : Host.Outcome State Fault Refusal := runOwn (· == Key.intakeError) w s

/-- EVENT_QUERY (R372). -/
def execEventQuery (w : ObjWrite) (s : State) : Host.Outcome State Fault Refusal := runOwn (· == Key.eventQuery) w s

/-- DEFECT_QUERY (R400). -/
def execDefectQuery (w : ObjWrite) (s : State) : Host.Outcome State Fault Refusal := runOwn (· == Key.defectQuery) w s

/-- CORE_ENABLE (R379). -/
def execCoreEnable (w : ObjWrite) (s : State) : Host.Outcome State Fault Refusal :=
  runOwn (fun k => keyArea k == 0x40 && decide (0x1000 ≤ keyObj k) && keyElt k == 0) w s

/-- CLASS_ENABLE (R379). -/
def execClassEnable (w : ObjWrite) (s : State) : Host.Outcome State Fault Refusal :=
  runOwn (fun k => keyArea k == 0x30 && keyObj k == 0x32) w s

/-- MIN_RESET (R393). -/
def execMinReset (w : ObjWrite) (s : State) : Host.Outcome State Fault Refusal := runOwn (· == Key.minReset) w s

/-- SNAPSHOT (R396, R479). -/
def execSnapshot (w : ObjWrite) (s : State) : Host.Outcome State Fault Refusal := runOwn (· == Key.snapshot) w s

/-- SECONDS_LOAD (R450). -/
def execSecondsLoad (w : ObjWrite) (s : State) : Host.Outcome State Fault Refusal := runOwn (· == Key.secondsLoad) w s

/-- ARITH_CLOCK (R445). -/
def execArithClock (w : ObjWrite) (s : State) : Host.Outcome State Fault Refusal := runOwn (· == Key.arithClock) w s

/-- ACCEPT_UNTESTED (R410). -/
def execAcceptUntested (w : ObjWrite) (s : State) : Host.Outcome State Fault Refusal := runOwn (· == Key.acceptUntested) w s

/-- WARM_RESET (R401).
Log entry 84 (DEDUCED). -/
def execWarmReset (w : ObjWrite) (s : State) : Host.Outcome State Fault Refusal := runOwn (· == Key.warmReset) w s

/-- CISTERN_RESET (R413). -/
def execCisternReset (w : ObjWrite) (s : State) : Host.Outcome State Fault Refusal := runOwn (· == Key.cisternReset) w s

/-- SVC_CANCEL (R383). -/
def execSvcCancel (w : ObjWrite) (s : State) : Host.Outcome State Fault Refusal :=
  runOwn (fun k => keyArea k == 0x24 && keyElt k == 2) w s

/-- DEFECT_SWEEP: SVC_GO of operation 0x01 (R412). -/
def execDefectSweep (w : ObjWrite) (s : State) : Host.Outcome State Fault Refusal := runOwn (· == Key.svcGo 0) w s

/-- SPOT_TEST: SVC_GO of operation 0x02 (R467). -/
def execSpotTest (w : ObjWrite) (s : State) : Host.Outcome State Fault Refusal := runOwn (· == Key.svcGo 1) w s

/-- TEST_PACK_APPEND: SVC_GO of operation 0x03 in MODE 0 (R466). -/
def execTestPackAppend (w : ObjWrite) (s : State) : Host.Outcome State Fault Refusal :=
  runOwn (fun k => k == Key.svcGo 2 && packMode s == 0) w s

/-- TEST_PACK_INSTALL: SVC_GO of operation 0x03 in MODE 1 (R466). -/
def execTestPackInstall (w : ObjWrite) (s : State) : Host.Outcome State Fault Refusal :=
  runOwn (fun k => k == Key.svcGo 2 && packMode s == 1) w s

/-- TEST_PACK_INSTALL_POOL: SVC_GO of operation 0x03 in MODE 2 (R466). -/
def execTestPackInstallPool (w : ObjWrite) (s : State) : Host.Outcome State Fault Refusal :=
  runOwn (fun k => k == Key.svcGo 2 && packMode s == 2) w s

/-- TEST_PACK_RUN: SVC_GO of operation 0x03 in MODE 3 (R466). -/
def execTestPackRun (w : ObjWrite) (s : State) : Host.Outcome State Fault Refusal :=
  runOwn (fun k => k == Key.svcGo 2 && packMode s == 3) w s

/-- FIRMWARE_UPDATE: SVC_GO of operation 0x04 (R411). -/
def execFirmwareUpdate (w : ObjWrite) (s : State) : Host.Outcome State Fault Refusal := runOwn (· == Key.svcGo 3) w s

/-- LICENCE_LOAD: SVC_GO of operation 0x05 (R488). -/
def execLicenceLoad (w : ObjWrite) (s : State) : Host.Outcome State Fault Refusal := runOwn (· == Key.svcGo 4) w s

/-- FAILURE_SIGNATURE_EXPORT: SVC_GO of operation 0x06 (R469). -/
def execFailureSignatureExport (w : ObjWrite) (s : State) : Host.Outcome State Fault Refusal := runOwn (· == Key.svcGo 5) w s

/-- DEFECT_ENTRY_CLEARING: SVC_GO of operation 0x07 (R490). -/
def execDefectEntryClearing (w : ObjWrite) (s : State) : Host.Outcome State Fault Refusal := runOwn (· == Key.svcGo 6) w s

end Sys2Proof.Machine
end

