-- ==== Sys2Proof/Machine/Frames.lean ====
section
/-! DEFINITION. Casaro frames as bytes (R366, R368, R369): headers, items and bodies in the byte order of their path (R7), and
the change of a frame from one order to the other when it is relayed (R370). `be` is true on the field network. -/

namespace Sys2Proof.Machine

/-- The number in the `n` bytes at an offset. -/
def mbAt (be : Bool) (b : List Byte) (off n : Nat) : Nat := if be then beNat (slice b off n) else leAt b off n

/-! ### Headers (R366) -/

/-- A header's fields, OP apart.
Log entry 64 (DEDUCED). -/
def headerOf (be : Bool) (b : List Byte) : CasHdr :=
  { magic := mbAt be b 0 2, version := leAt b 2 1, kind := leAt b 3 1, tag := mbAt be b 4 2, target := leAt b 6 1, code := mbAt be b 8 2,
    length := mbAt be b 10 2, txn := mbAt be b 12 4, sourceId := mbAt be b 16 8, timebase := mbAt be b 24 8 }

/-- A frame's OP. -/
def opOf (b : List Byte) : Nat := leAt b 7 1

/-- MAGIC, VERSION, KIND and LENGTH are those of a request (R367). -/
def headerGood (h : CasHdr) (body : List Byte) : Bool :=
  h.magic == 0x4341 && h.version == 1 && h.kind == 0 && h.length == body.length

/-! ### Items (R369) -/

/-- Zeros that bring `n` bytes to a multiple of 4. -/
def padTo4 (n : Nat) : List Byte := List.replicate ((4 - n % 4) % 4) 0#8

/-- An item. -/
def itemBytes (be : Bool) (key ty code : Nat) (value : List Byte) : List Byte :=
  mbBytes be 4 key ++ leBytes 1 ty ++ leBytes 1 0 ++ mbBytes be 2 code ++ mbBytes be 2 value.length ++ leBytes 2 0 ++ value ++
    padTo4 value.length

/-- A value as the bytes of its type (R354). -/
def valueBytes (be : Bool) (r : ObjRow) : Val → List Byte
  | .num n => mbBytes be r.ty.width n
  | .bytes b => b

/-- An item of a WRITE. -/
structure Item where
  key : Nat
  ty : Nat
  value : List Byte
  deriving DecidableEq, Repr

/-- `n` items that fill a body; none where they do not. -/
def itemsOf (be : Bool) : Nat → List Byte → Option (List Item)
  | 0, b => if b.isEmpty then some [] else none
  | n + 1, b =>
    let len := mbAt be b 8 2
    let size := 12 + len + (4 - len % 4) % 4
    if b.length < size then none
    else
      match itemsOf be n (b.drop size) with
      | none => none
      | some rest => some (⟨mbAt be b 0 4, leAt b 4 1, slice b 12 len⟩ :: rest)

/-- The items of a body that begins with COUNT. -/
def bodyItems (be : Bool) (b : List Byte) : Option (List Item) :=
  if b.length < 4 then none else itemsOf be (mbAt be b 0 2) (b.drop 4)

/-- The keys of a READ. -/
def bodyKeys (be : Bool) (b : List Byte) : Option (List Nat) :=
  let n := mbAt be b 0 2
  if b.length < 4 ∨ b.length ≠ 4 + 4 * n then none else some ((List.range n).map (fun i => mbAt be b (4 + 4 * i) 4))

/-- A body of items with their COUNT. -/
def countedBody (be : Bool) (items : List (List Byte)) : List Byte :=
  mbBytes be 2 items.length ++ leBytes 2 0 ++ items.flatten

/-- An item's value for an object: the type and length must be the object's (R357). None is TYPE_MISMATCH. -/
def itemVal (be : Bool) (r : ObjRow) (i : Item) : Option Val :=
  if i.ty ≠ r.ty.code then none
  else if r.ty = .bytes ∨ r.ty = .text then some (.bytes i.value)
  else if i.value.length ≠ r.ty.width then none
  else some (.num (mbAt be i.value 0 i.value.length))

/-! ### Descriptions (R368) -/

/-- A name of 24 bytes, padded with zero. -/
def nameBytes (n : String) : List Byte :=
  let b := (n.toList.map (fun c => BitVec.ofNat 8 c.toNat)).take 24
  b ++ List.replicate (24 - b.length) 0#8

/-- KEY, TYPE, ACCESS and FLAGS. -/
def describeHead (be : Bool) (k : Nat) (r : ObjRow) : List Byte :=
  mbBytes be 4 k ++ leBytes 1 r.ty.code ++ leBytes 1 r.acc.code ++ mbBytes be 2 (if r.flash then 1 else 0)

/-- An item of a LIST. -/
def listItem (be : Bool) (k : Nat) (r : ObjRow) : List Byte := describeHead be k r ++ nameBytes r.name

/-- At most `n` objects from a key on, in ascending order. -/
def listFrom (be : Bool) : Nat → Nat → List (List Byte)
  | 0, _ => []
  | n + 1, k =>
    match objNext k with
    | none => []
    | some j =>
      match objRow j with
      | none => []
      | some r => listItem be j r :: listFrom be n (j + 1)

/-- MIN and MAX apply to numbers. -/
def numericTy (t : ObjTy) : Bool := t != .bytes && t != .text

/-! ### Changing the byte order of a body (R370) -/

/-- Reverse each field of these sizes in turn; what follows them stays. -/
def swapFields : List Nat → List Byte → List Byte
  | [], b => b
  | n :: ns, b => (b.take n).reverse ++ swapFields ns (b.drop n)

/-- Swap `n` items. -/
def swapItems (be : Bool) : Nat → List Byte → List Byte
  | 0, b => b
  | n + 1, b =>
    let len := mbAt be b 8 2
    let ty := leAt b 4 1
    let value := slice b 12 len
    let size := 12 + len + (4 - len % 4) % 4
    if b.length < size then b
    else
      swapFields [4, 1, 1, 2, 2, 2] (b.take 12) ++ (if 1 ≤ ty ∧ ty ≤ 9 then value.reverse else value) ++ padTo4 len ++
        swapItems be n (b.drop size)

/-- A body with COUNT and items. -/
def swapCounted (be : Bool) (b : List Byte) : List Byte := swapFields [2, 2] (b.take 4) ++ swapItems be (mbAt be b 0 2) (b.drop 4)

/-- A body of an OP from one order to the other: `be` is the order that it has.
Log entry 64 (DEDUCED). -/
def swapBody (be response : Bool) (op : Nat) (b : List Byte) : List Byte :=
  if b.isEmpty then b
  else
    match op, response with
    | 0x01, false => swapFields (2 :: 2 :: List.replicate 255 4) b
    | 0x01, true => swapCounted be b
    | 0x02, _ => swapCounted be b
    | 0x03, false => swapFields [4, 2, 2] b
    | 0x03, true =>
      swapFields [2, 2] (b.take 4) ++ (List.range (mbAt be b 0 2)).flatMap (fun i => swapFields [4, 1, 1, 2] (slice b (4 + 32 * i) 32))
    | 0x04, false => swapFields [4] b
    | 0x04, true => swapFields [4, 1, 1, 2, 8, 8] (b.take 48) ++ swapItems be 1 (b.drop 48)
    | 0x11, true => swapFields [1, 1, 2, 4] b
    | 0x12, false => swapFields [8] b
    | 0x20, true => swapFields [8, 1, 1, 1, 1, 4, 4] b
    | 0x21, false => swapFields [4, 2, 2] b
    | 0x21, true => swapFields [2] b
    | _, _ => b

/-- A frame in the other order.
Log entry 64 (DEDUCED). -/
def swapFrame (be response : Bool) (f : List Byte) : List Byte :=
  headerBytes (!be) (headerOf be f) (opOf f) ++ swapBody be response (opOf f) (f.drop 32)

/-- A path's byte order: the field network is big-endian; a BAR0 channel and a relay are little-endian (R7, R362, R370).
Log entry 64 (DEDUCED). -/
def viaBe : Via → Bool
  | .net _ => true
  | .chan _ => false
  | .relay _ _ => false

end Sys2Proof.Machine
end

