-- ==== Sys2Proof/Machine/Casaro.lean ====
section
/-! DEFINITION. The Casaro protocol (R359 to R378): requests from the field network, from BAR0 channels and from other members,
their messages, relays, and the end of a transaction that a COMMIT waits for. -/

namespace Sys2Proof.Machine

/-! ### Answers (R362, R366, R367, R370) -/

/-- A BAR0 request channel (R362). -/
def getChannel (s : State) (c : Nat) : Chan := mapGet Chan.idle s.port.chans c

def setChannel (s : State) (c : Nat) (x : Chan) : State :=
  { s with port := { s.port with chans := mapSet Chan.idle s.port.chans c x } }

/-- The header of an answer.
Log entry 64 (DEDUCED). -/
def answerHeader (s : State) (h : CasHdr) (code txn len : Nat) : CasHdr :=
  { magic := 0x4341, version := 1, kind := 1, tag := h.tag, target := h.target, code := code, length := len, txn := txn,
    sourceId := identitySerial s, timebase := stamp s }

/-- The packets of a frame for another member, in fragments of at most 236 bytes (R370). -/
def dictPackets (s : State) (dev tag : Nat) (frame : List Byte) : List Packet :=
  let n := (frame.length + 235) / 236
  (List.range n).map (fun i =>
    mkPacket s .dict dev 0 0 0 (leBytes 4 (tag % 65536 * 65536 + i * 256 + n) ++ slice frame (236 * i) 236))

/-- Send a frame to another member. -/
def sendDict (s : State) (dev tag : Nat) (frame : List Byte) : State :=
  (dictPackets s dev tag frame).foldl (fun st p => sendPacket st 0 [p]) s

/-- The responses of the last second, at most 16 (R367).
Log entry 65 (DEDUCED). -/
def recentKept (s : State) : List Kept := (s.keeper.kept.filter (fun k => decide (now s < k.at_ + second))).take 16

/-- A whole answering frame goes back the way its request came. `code` and `tag` are those of the frame.
Log entry 65 (DEDUCED). -/
def sendFrame (s : State) (via : Via) (code tag : Nat) (frame : List Byte) : State :=
  match via with
  | .net src =>
    let s1 := bump (emit s (.casaro src frame)) Key.framesTx 1
    { s1 with keeper := { s1.keeper with kept := (⟨src, tag, now s, frame⟩ :: recentKept s1).take 16 } }
  | .chan c => setChannel s c { getChannel s c with state := 2, code := code, tag := tag, len := frame.length, response := frame }
  | .relay dev rtag => sendDict (emit s (.relayed dev rtag frame)) dev rtag frame

/-- Answer a request. -/
def answer (s : State) (via : Via) (h : CasHdr) (op code txn : Nat) (body : List Byte) : State :=
  let be := viaBe via
  sendFrame s via code h.tag (headerBytes be (answerHeader s h code txn body.length) op ++ body)

/-! ### Messages (R368, R369, R372 to R377) -/

/-- What a message is answered with: CODE, TXN and body; none where the answer comes later. -/
abbrev Reply := Option (Nat × Nat × List Byte)

/-- An answer that echoes the request's TXN. -/
def reply (h : CasHdr) (code : Nat) (body : List Byte) : Reply := some (code, h.txn, body)

/-- One item of a READ's answer: the value staged where there is one, or the code that refuses the key. -/
def readItem (s : State) (be : Bool) (staged : Staged) (k : Nat) : Nat × List Byte × State :=
  let x := readObj s k
  let r := objRow k
  let ty := (r.map (fun o => o.ty.code)).getD 0
  match x.1, r with
  | .inr v, some o =>
    let v1 := ((staged.find? (fun e => e.1 == k)).map (·.2)).getD v
    (0, itemBytes be k ty 0 (valueBytes be o v1), x.2)
  | .inl c, _ => (c, itemBytes be k ty c [], x.2)
  | .inr _, none => (0, itemBytes be k ty 0 [], x.2)

/-- The items of a READ, as many whole ones as fit: the first refusal's code, whether some did not fit, the items. -/
def readItems (be : Bool) (staged : Staged) : List Nat → Nat → State → Nat × Bool × List (List Byte) × State
  | [], _, s => (0, false, [], s)
  | k :: ks, room, s =>
    let i := readItem s be staged k
    if room < i.2.1.length then (0, true, [], s)
    else
      let rest := readItems be staged ks (room - i.2.1.length) i.2.2
      (if i.1 ≠ 0 then i.1 else rest.1, rest.2.1, i.2.1 :: rest.2.2.1, rest.2.2.2)

/-- READ.
Log entry 67 (DEDUCED). -/
def msgRead (s : State) (be : Bool) (h : CasHdr) (body : List Byte) : Reply × State :=
  match bodyKeys be body with
  | none => (reply h Code.messageInvalid [], s)
  | some ks =>
    if h.txn ≠ 0 ∧ txnCurrent s h.txn = false then (reply h Code.txnUnknown [], s)
    else
      let staged := if h.txn ≠ 0 then s.keeper.txn.staged else []
      let r := readItems be staged ks 1020 s
      (reply h (if r.1 ≠ 0 then r.1 else if r.2.1 then Code.responseTruncated else 0) (countedBody be r.2.2.1), r.2.2.2)

/-- One item of a WRITE.
Log entry 66 (DEDUCED). -/
def writeItem (s : State) (be : Bool) (txn : Nat) (i : Item) : Applied :=
  match objRow i.key with
  | none => writeObj s txn i.key (.num 0)
  | some r =>
    match itemVal be r i with
    | none => if writeOpen s r i.key = false then refuse s Code.notReady
      else if r.acc = .ro then refuse s Code.accessDenied
      else refuse s Code.typeMismatch
    | some v => writeObj s txn i.key v

/-- The items of a WRITE in turn: a refused one does not stop the others. -/
def writeItems (be : Bool) (txn : Nat) : List Item → State → Nat × List (List Byte) × State
  | [], s => (0, [], s)
  | i :: rest, s =>
    let a := writeItem s be txn i
    let r := writeItems be txn rest a.2
    (if a.1 ≠ 0 then a.1 else r.1, itemBytes be i.key i.ty a.1 [] :: r.2.1, r.2.2)

/-- WRITE.
Log entry 67 (DEDUCED). -/
def msgWrite (s : State) (be : Bool) (h : CasHdr) (body : List Byte) : Reply × State :=
  match bodyItems be body with
  | none => (reply h Code.messageInvalid [], s)
  | some is =>
    if h.txn ≠ 0 ∧ txnCurrent s h.txn = false then (reply h Code.txnUnknown [], s)
    else
      let r := writeItems be h.txn is s
      (reply h r.1 (countedBody be r.2.1), r.2.2)

/-- LIST.
Log entry 67 (DEDUCED). -/
def msgList (s : State) (be : Bool) (h : CasHdr) (body : List Byte) : Reply × State :=
  if body.length ≠ 8 then (reply h Code.messageInvalid [], s)
  else (reply h 0 (countedBody be (listFrom be (min 31 (mbAt be body 4 2)) (mbAt be body 0 4))), s)

/-- The default of an object as it reads (R256, R358).
Log entry 67 (DEDUCED). -/
def shownDefault (s : State) (k : Nat) (r : ObjRow) : Val :=
  if numericTy r.ty then
    .num (if keyArea k = 0x50 ∧ (keyObj k = 1 ∨ keyObj k = 2) then partPages s (keyElt k) / 4 else r.dflt)
  else .bytes []

/-- DESCRIBE. -/
def msgDescribe (s : State) (be : Bool) (h : CasHdr) (body : List Byte) : Reply × State :=
  if body.length ≠ 4 then (reply h Code.messageInvalid [], s)
  else
    let k := mbAt be body 0 4
    match objRow k with
    | none => (reply h Code.objectUnknown [], s)
    | some r =>
      let lo := if numericTy r.ty then r.lo else 0
      let hi := if numericTy r.ty then r.hi else 0
      (reply h 0 (describeHead be k r ++ mbBytes be 8 lo ++ mbBytes be 8 hi ++ nameBytes r.name ++
        itemBytes be k r.ty.code 0 (valueBytes be r (shownDefault s k r))), s)

/-- BEGIN (R373, R374). -/
def msgBegin (s : State) (h : CasHdr) (body : List Byte) : Reply × State :=
  if body ≠ [] then (reply h Code.messageInvalid [], s)
  else if s.keeper.txn.st ≠ .none then (reply h Code.txnOpen [], s)
  else
    let id := s.keeper.nextTxn
    let s1 := { s with keeper := { s.keeper with
      nextTxn := (id + 1) % 2 ^ 32
      txn := { Txn.none with st := .open_, id := id, activity := now s, activityTb := stamp s } } }
    (some (0, id, []), s1)

/-- The transaction may not be prepared or committed again now (R374). -/
def txnBusy (s : State) : Bool := s.keeper.txn.st == .committing || s.keeper.txn.st == .applying

/-- PREPARE (R375): its vote, the first failing check's code and key.
Log entry 67 (DEDUCED). -/
def msgPrepare (s : State) (be : Bool) (h : CasHdr) (body : List Byte) : Reply × State :=
  if body ≠ [] then (reply h Code.messageInvalid [], s)
  else if txnCurrent s h.txn = false then (reply h Code.txnUnknown [], s)
  else if txnBusy s then (reply h Code.txnPrepared [], s)
  else
    let c := checkStaged s
    let yes := decide (c.1.1 = 0)
    let t := c.2.keeper.txn
    let s1 := { c.2 with keeper := { c.2.keeper with
      txn := { t with st := if yes then .prepared else .open_, holds := yes && holdsDevice t.staged } } }
    (reply h 0 (leBytes 1 (boolNum yes) ++ leBytes 1 0 ++ mbBytes be 2 c.1.1 ++ mbBytes be 4 c.1.2), s1)

/-- A transaction whose writes have been applied ends (R376, R377). -/
def finishTxn (s : State) : State :=
  let t := s.keeper.txn
  let s1 := endTxn s t.result
  if t.timed ∧ t.result ≠ 0 then txnEvent s1 Code.txnFailed else s1

/-- COMMIT with INSTANT 0 (R376): the answer waits where pinned ways have still to be changed (R219). -/
def commitNow (s : State) (via : Via) (h : CasHdr) : Reply × State :=
  let c := checkStaged s
  if c.1.1 ≠ 0 then (reply h c.1.1 [], endTxn c.2 c.1.1)
  else
    let s1 := beginApply c.2 false (some (via, h))
    if pinsPending s1 then (none, s1) else (reply h s1.keeper.txn.result [], finishTxn s1)

/-- COMMIT with an INSTANT (R376).
Log entry 71 (DEDUCED). -/
def commitAt (s : State) (h : CasHdr) (t : Nat) : Reply × State :=
  if s.keeper.txn.st ≠ .prepared then (reply h Code.txnNotPrepared [], s)
  else if s.time.pps ≠ 1 ∨ t < stamp s + 10000000 ∨ stamp s + 60 * second < t then (reply h Code.commitTime [], s)
  else (reply h 0 [], { s with keeper := { s.keeper with txn := { s.keeper.txn with st := .committing, instant := t } } })

/-- COMMIT. -/
def msgCommit (s : State) (via : Via) (h : CasHdr) (body : List Byte) : Reply × State :=
  let t := mbAt (viaBe via) body 0 8
  if body.length ≠ 8 then (reply h Code.messageInvalid [], s)
  else if txnCurrent s h.txn = false then (reply h Code.txnUnknown [], s)
  else if txnBusy s then (reply h Code.txnPrepared [], s)
  else if t = 0 then commitNow s via h
  else commitAt s h t

/-- ROLLBACK (R374, R377). -/
def msgRollback (s : State) (h : CasHdr) (body : List Byte) : Reply × State :=
  if body ≠ [] then (reply h Code.messageInvalid [], s)
  else if txnCurrent s h.txn = false then (reply h Code.txnUnknown [], s)
  else if s.keeper.txn.st = .applying then (reply h Code.txnPrepared [], s)
  else (reply h 0 [], endTxn s 0)

/-- HELLO. -/
def msgHello (s : State) (be : Bool) (h : CasHdr) (body : List Byte) : Reply × State :=
  if body ≠ [] then (reply h Code.messageInvalid [], s)
  else
    (reply h 0 (mbBytes be 8 (identitySerial s) ++ leBytes 1 s.pool.device ++ leBytes 1 s.pool.st.code ++ leBytes 1 (shownStage s) ++
      leBytes 1 (s.boot.straps % 16) ++ mbBytes be 4 (runningKeeper s) ++ mbBytes be 4 (runningFountain s)), s)

/-- The events of a RESEND that are still in the ring, oldest first: at most 64 (R372). -/
def resent (s : State) (from_ count : Nat) : List Event :=
  ((List.range (min count 64)).map (fun i => (from_ + i) % 2 ^ 32)).filterMap (findEvent s)

/-- RESEND: the answer says how many events follow.
Log entry 67 (DEDUCED). -/
def msgResend (s : State) (be : Bool) (h : CasHdr) (body : List Byte) : Reply × State :=
  if body.length ≠ 8 then (reply h Code.messageInvalid [], s)
  else (reply h 0 (mbBytes be 2 (resent s (mbAt be body 0 4) (mbAt be body 4 2)).length), s)

/-- The event frames that follow a RESEND's answer; they do not count against EVENT_RATE. -/
def sendResent (s : State) (be : Bool) (op : Nat) (body : List Byte) : State :=
  if op = 0x21 ∧ body.length = 8 then
    (resent s (mbAt be body 0 4) (mbAt be body 4 2)).foldl (fun st e => bump (emit st (.event (eventFrame st e))) Key.framesTx 1) s
  else s

/-- The messages that the boot ROM's responder serves (R409).
Log entry 73 (DEDUCED). -/
def reducedServes (op : Nat) : Bool := op == 0x01 || op == 0x02 || op == 0x20

/-- Carry out a message. -/
def carryOut (s : State) (via : Via) (op : Nat) (h : CasHdr) (body : List Byte) : Reply × State :=
  let be := viaBe via
  if reducedResponder s && !(reducedServes op) then (reply h Code.notReady [], s)
  else
    match op with
    | 0x01 => msgRead s be h body
    | 0x02 => msgWrite s be h body
    | 0x03 => msgList s be h body
    | 0x04 => msgDescribe s be h body
    | 0x10 => msgBegin s h body
    | 0x11 => msgPrepare s be h body
    | 0x12 => msgCommit s via h body
    | 0x13 => msgRollback s h body
    | 0x20 => msgHello s be h body
    | 0x21 => msgResend s be h body
    | _ => (reply h Code.messageInvalid [], s)

/-- Carry out a message for this device and answer it. -/
def serveHere (s : State) (via : Via) (op : Nat) (h : CasHdr) (body : List Byte) : State :=
  let s0 := if h.txn ≠ 0 ∧ txnCurrent s h.txn = true then touchTxn s else s
  let r := carryOut s0 via op h body
  match r.1 with
  | none => r.2
  | some (code, txn, out) => sendResent (answer r.2 via h op code txn out) (viaBe via) op body

/-! ### Relays (R370) -/

/-- TARGET names this device.
Log entry 72 (DEDUCED). -/
def targetsHere (s : State) (t : Nat) : Bool := t == 0xFF || (if inPool s then t == s.pool.device else t == 0)

/-- Relay a request to another member.
Log entry 72 (DEDUCED). -/
def relayTo (s : State) (via : Via) (op : Nat) (h : CasHdr) (body : List Byte) : State :=
  let tag := s.keeper.nextRelay
  let frame := headerBytes (viaBe via) h op ++ body
  let r : Relay := { dev := h.target, tag := tag, via := via, hdr := h, op := op, since := now s, frags := [], count := 0 }
  let s1 := { s with keeper := { s.keeper with nextRelay := (tag + 1) % 65536, relays := s.keeper.relays ++ [r] } }
  sendDict s1 h.target tag (if viaBe via then swapFrame true false frame else frame)

/-- A request whose header is good: carried out, relayed, or refused. -/
def route (s : State) (via : Via) (op : Nat) (h : CasHdr) (body : List Byte) : State :=
  if targetsHere s h.target then serveHere s via op h body
  else
    match via with
    | .relay _ _ => answer s via h op Code.targetUnknown h.txn []
    | _ =>
      if inPool s && decide (h.target < 64) && bit s.pool.members h.target then relayTo s via op h body
      else answer s via h op Code.targetUnknown h.txn []

/-- The same request is still being carried out: a relay or a COMMIT waits (R367).
Log entry 65 (DEDUCED). -/
def inProgress (s : State) (src : Source) (tag : Nat) : Bool :=
  let same (via : Via) (h : CasHdr) : Bool := h.tag == tag && (match via with
    | .net from_ => from_.addr == src.addr
    | _ => false)
  s.keeper.relays.any (fun r => same r.via r.hdr) || s.keeper.txn.reply.any (fun e => same e.1 e.2)

/-- A request arrives (R362, R367).
Log entry 67 (DEDUCED). -/
def serve (s : State) (op : Nat) (r : CasReq) : State :=
  if !(netUp s) then s
  else
    match r.via with
    | .net src =>
      let s1 := bump s Key.framesRx 1
      if headerGood r.hdr r.body = false ∨ src.linkLocal = false then bump s1 Key.framesBad 1
      else if inProgress s1 src r.hdr.tag then s1
      else
        (match (recentKept s1).find? (fun k => k.src.addr == src.addr && k.tag == r.hdr.tag) with
         | some k => bump (emit s1 (.casaro src k.frame)) Key.framesTx 1
         | none => route s1 r.via op r.hdr r.body)
    | _ =>
      if headerGood r.hdr r.body then route s r.via op r.hdr r.body
      else answer s r.via r.hdr op Code.messageInvalid r.hdr.txn []

/-- A message row. -/
def runMessage (op : Nat) (r : CasReq) (s : State) : Host.Outcome State Fault Refusal := .next (takeWarm (serve s op r))

/-- CASARO_READ (R368, R369). -/
def execCasaroRead (req : CasReq) (s : State) : Host.Outcome State Fault Refusal := runMessage 0x01 req s

/-- CASARO_WRITE (R357, R369). -/
def execCasaroWrite (req : CasReq) (s : State) : Host.Outcome State Fault Refusal := runMessage 0x02 req s

/-- CASARO_LIST (R368). -/
def execCasaroList (req : CasReq) (s : State) : Host.Outcome State Fault Refusal := runMessage 0x03 req s

/-- CASARO_DESCRIBE (R368). -/
def execCasaroDescribe (req : CasReq) (s : State) : Host.Outcome State Fault Refusal := runMessage 0x04 req s

/-- CASARO_BEGIN (R373). -/
def execCasaroBegin (req : CasReq) (s : State) : Host.Outcome State Fault Refusal := runMessage 0x10 req s

/-- CASARO_PREPARE (R375). -/
def execCasaroPrepare (req : CasReq) (s : State) : Host.Outcome State Fault Refusal := runMessage 0x11 req s

/-- CASARO_COMMIT (R376). -/
def execCasaroCommit (req : CasReq) (s : State) : Host.Outcome State Fault Refusal := runMessage 0x12 req s

/-- CASARO_ROLLBACK (R377). -/
def execCasaroRollback (req : CasReq) (s : State) : Host.Outcome State Fault Refusal := runMessage 0x13 req s

/-- CASARO_HELLO (R368). -/
def execCasaroHello (req : CasReq) (s : State) : Host.Outcome State Fault Refusal := runMessage 0x20 req s

/-- CASARO_RESEND (R372). -/
def execCasaroResend (req : CasReq) (s : State) : Host.Outcome State Fault Refusal := runMessage 0x21 req s

/-! ### Frames from other members (R370) -/

/-- A fragment's relay tag, index and count. -/
def fragTag (p : Packet) : Nat := leAt p.payload 2 2
def fragIndex (p : Packet) : Nat := leAt p.payload 1 1
def fragCount (p : Packet) : Nat := leAt p.payload 0 1

/-- The frame that a list of whole fragments makes: its header gives its length. -/
def assemble (frags : List (List Byte)) : List Byte :=
  let b := frags.flatten
  b.take (32 + leAt b 10 2)

/-- A response comes back to the relaying device: it answers the requester in the requester's byte order. -/
def returnRelay (s : State) (r : Relay) (frame : List Byte) : State :=
  let s1 := { s with keeper := { s.keeper with relays := s.keeper.relays.filter (fun x => !(x.dev == r.dev && x.tag == r.tag)) } }
  let out := if viaBe r.via then swapFrame false true frame else frame
  sendFrame s1 r.via (leAt frame 8 2 % 4096) r.hdr.tag out

/-- A fragment of the response to a relay.
Log entry 72 (DEDUCED). -/
def takeReturn (s : State) (r : Relay) (p : Packet) : State :=
  let frags := mapPut r.frags (fragIndex p) (p.payload.drop 4)
  if frags.length = fragCount p then returnRelay s r (assemble (frags.map (·.2)))
  else
    { s with keeper := { s.keeper with relays := s.keeper.relays.map (fun x =>
      if x.dev = r.dev ∧ x.tag = r.tag then { x with frags := frags, count := fragCount p } else x) } }

/-- A fragment of a request of another member: the frame is carried out when it is whole.
Log entry 72 (DEDUCED). -/
def takeRequest (s : State) (p : Packet) : State :=
  let key := p.src * 65536 + fragTag p
  let frags := mapPut (mapGet [] s.keeper.frags key) (fragIndex p) (p.payload.drop 4)
  if frags.length = fragCount p then
    let f := assemble (frags.map (·.2))
    let s1 := { s with keeper := { s.keeper with frags := mapErase s.keeper.frags key } }
    serve s1 (opOf f) { via := .relay p.src (fragTag p), hdr := headerOf false f, body := f.drop 32 }
  else { s with keeper := { s.keeper with frags := mapSet [] s.keeper.frags key frags } }

/-- A DICT packet at its destination.
Log entry 72 (DEDUCED). -/
def takeDict (p : Packet) (s : State) : State :=
  match s.keeper.relays.find? (fun r => r.dev == p.src && r.tag == fragTag p) with
  | some r => takeReturn s r p
  | none => takeRequest s p

/-- DICT_PACKET (R370). -/
def execDictPacket (link : Nat) (s : State) : Host.Outcome State Fault Refusal := .next (takeWarm (onPacket [.dict] link takeDict s))

/-- DICT_RELAY_TIMEOUT: no whole response within PEER_TIMEOUT (R370).
Log entry 72 (DEDUCED). -/
def execDictRelayTimeout (dev tag : Nat) (s : State) : Host.Outcome State Fault Refusal :=
  .next (
    match s.keeper.relays.find? (fun r => r.dev == dev && r.tag == tag) with
    | none => s
    | some r =>
      if now s < r.since + getObj s Key.peerTimeout * 1000000 then s
      else
        let s1 := { s with keeper := { s.keeper with relays := s.keeper.relays.filter (fun x => !(x.dev == dev && x.tag == tag)) } }
        answer s1 r.via r.hdr r.op Code.peerLost r.hdr.txn [])

/-! ### Timed commits and pinned ways (R219, R376) -/

/-- TIMED_COMMIT_INSTANT: the timebase has reached INSTANT (R376). Nothing is applied after a trip (R441).
Log entry 71 (DEDUCED). -/
def execTimedCommitInstant (s : State) : Host.Outcome State Fault Refusal :=
  .next (
    let t := s.keeper.txn
    if t.st ≠ .committing ∨ stamp s < t.instant ∨ netUp s = false ∨ s.boot.dark ≠ .none then s
    else
      let c := checkStaged s
      if c.1.1 ≠ 0 then txnEvent (endTxn c.2 c.1.1) Code.txnFailed
      else
        let s1 := beginApply c.2 true none
        takeWarm (if pinsPending s1 then s1 else finishTxn s1))

/-- A transaction that waited for pinned ways ends when every set has been changed, and its COMMIT is answered. -/
def settleTxn (s : State) : State :=
  let t := s.keeper.txn
  if t.st ≠ .applying ∨ pinsPending s = true then s
  else
    match t.reply with
    | none => takeWarm (finishTxn s)
    | some (via, h) => takeWarm (answer (finishTxn s) via h 0x12 t.result h.txn [])

/-- PIN_WAYS_APPLY: a committed PIN_WAYS of a half reaches every set (R219).
Log entry 70 (DEDUCED). -/
def execPinWaysApply (half : Nat) (s : State) : Host.Outcome State Fault Refusal :=
  .next (if s.keeper.txn.st = .applying then settleTxn (pinWaysApply half s) else s)

/-- POOL_PAGES_APPLY: a committed POOL_PAGES redefines the half's pool (R218).
Log entry 70 (DEDUCED). -/
def execPoolPagesApply (half : Nat) (s : State) : Host.Outcome State Fault Refusal :=
  .next (if s.keeper.txn.st = .applying then settleTxn (poolPagesApply half s) else s)

end Sys2Proof.Machine
end

