-- ==== Sys2Proof/Machine/Early.lean ====
section
/-! DEFINITION. What is seen of a result before its operation completes (R153, R154, R190): for each aligned 64-byte block
the old contents or the result, to a thread's load and to another engine. The loads, and the two completions. -/

namespace Sys2Proof.Machine

/-- The byte that writes, as addresses and bytes, put at offset `k` of the area at `a`, where one does. -/
def writtenAt (out : List (Nat × List Byte)) (a k : Nat) : Option Byte :=
  (out.find? (fun x => decide (x.1 ≤ a + k) && decide (a + k < x.1 + x.2.length))).bind (fun x => x.2[a + k - x.1]?)

/-- The result byte at offset `k` of the destination of an expansion (R195). -/
def expandResult (rd : Bool → Nat → Byte) (lat : Nat → Byte) (p : Nat) (o : WeirCmd) (k : Nat) : Option Byte :=
  let ws := o.words
  let line := k / dStride ws 5
  let e := k % dStride ws 5 / xElem ws
  let t := if xOrder ws = 0 then xFirst ws + line else e
  let r := if xOrder ws = 0 then e else line
  if xFirst ws ≤ t ∧ t < xFirst ws + xCount ws ∧ r < xRows ws then
    (leBytes (xElem ws) (expandElem o.flush ws lat (reader rd p (dWord ws 2 + r * dStride ws 3)) t).1)[k % xElem ws]?
  else none

/-- The result byte at offset `k` of the destination of a layout command that names it by address (R198, R200). -/
def layoutResult (rd : Bool → Nat → Byte) (p : Nat) (ws : List Nat) (k : Nat) : Option Byte :=
  let e := yElem ws
  let j := if yOp ws = 0 then k / dStride ws 4 else k / e / 64
  let i := if yOp ws = 0 then k % dStride ws 4 / e else k / e % 64 - yCol0 ws
  if i < yRows ws ∧ j < yCols ws ∧ (yOp ws = 0 ∨ yCol0 ws ≤ k / e % 64) then
    some (reader rd p (dWord ws 1 + i * dStride ws 2 + j * e) (k % e))
  else none

/-- The offset of a byte from an area's address, where the byte is at or past it in the same memory. -/
def offsetIn (p a : Nat) (basin : Bool) (off : Nat) : Option Nat :=
  match placeOf p a with
  | .staging o => if basin = false ∧ o ≤ off then some (off - o) else none
  | .basin o => if basin = true ∧ o ≤ off then some (off - o) else none
  | _ => none

/-- The byte that an operation under way in array `a`, the `i`-th of it, will put at a place that group `g` reads. -/
def arrayEarly (s : State) (p g a i : Nat) (basin : Bool) (off : Nat) : Option Byte :=
  let u := getArray (getPos s p) a
  match u.started[i]? with
  | none => none
  | some r =>
    match offsetIn p (dWord r.op.words 8) basin off with
    | some k => if basin = false ∧ r.op.g ≠ g then none else writtenAt (runOp (opView r) (portView r) p r.op u).out (dWord r.op.words 8) k
    | none => none

/-- The byte that the command running in a Weir engine will put at a place that group `g` reads. -/
def weirEarly (s : State) (p g unit : Nat) (basin : Bool) (off : Nat) : Option Byte :=
  let e := getEngine (getPos s p) unit
  match e.running with
  | none => none
  | some r =>
    let ws := r.cmd.words
    match offsetIn p (dWord ws (if unit = 0 then 4 else 3)) basin off with
    | some k =>
      if (basin = false ∧ r.cmd.g ≠ g) ∨ ((cmdRef unit ws).isSome = true ∧ (unit = 1 ∨ r.page.isNone = true ∨ cmdWaits s p unit = true)) then none
      else if unit = 0 then
        let lat := loadLatent p (cmdGot s p 0) (cmdView r 1) e r
        expandResult (cmdView r 0) (latentByte lat r.seed) p r.cmd k
      else layoutResult (cmdView r 0) p ws k
    | none => none

/-- The bytes that running operations will put at a place: two for each array, then one for each engine. -/
def earlyBytes (s : State) (p g : Nat) (basin : Bool) (off : Nat) : List (Option Byte) :=
  (List.range 8).map (fun a => arrayEarly s p g (a / 2) (a % 2) basin off) ++ [0, 1].map (fun u => weirEarly s p g u basin off)

/-- An engine of the position is running. -/
def engineRuns (c : Pos) : Bool :=
  [0, 1, 2, 3].any (fun a => (getArray c a).started != []) || c.lxu.running.isSome || c.lyt.running.isSome

/-- A byte, or what a running operation will put there, as a free bit says for its 64-byte block, each engine and the reader's
`k`-th read.
Log entry 9 (DESIGN CHOICE). -/
def earlyByte (s : State) (seed k p g : Nat) (basin : Bool) (off : Nat) (now : Byte) : Byte :=
  (earlyBytes s p g basin off).zipIdx.foldl (fun b e => match e.1 with
    | some x => raceByte ((seed + e.2) * 2 ^ 40 + k) (off / 64 + (if basin then 2 ^ 17 else 0)) b x
    | none => b) now

/-- The memory that an engine reads, with what other engines' results show of themselves already (R153).
Log entry 9 (DESIGN CHOICE). -/
def earlyView (s : State) (p g : Nat) (rd : Nat → Bool → Nat → Byte) : (Nat → Bool → Nat → Byte) × State :=
  if engineRuns (getPos s p) then
    (fun k basin off => earlyByte s s.free k p g basin off (rd k basin off), { s with free := s.free + 10 })
  else (rd, s)

/-! ### Loads -/

/-- What a load that has just issued found in staging memory and the own Basins, with what running operations show. -/
def earlyLoad (p g id : Nat) (s : State) : State :=
  match engineRuns (getPos s p), findMem s p g id with
  | true, some (gr, m) =>
    let put (t : Sparse Byte) (a : Nat) (basin : Bool) (off : Nat) : Sparse Byte :=
      mapSetList 0#8 t a ((List.range m.size).map (fun i => earlyByte s s.free 0 p g basin (off + i) (mapGet 0#8 t (a + i))))
    let found := m.lanes.foldl (fun t l => match whereIs s p gr false l.addr with
      | .staging off => put t l.addr false off
      | .basin off => put t l.addr true off
      | _ => t) m.localBytes
    putMem { s with free := s.free + 10 } p g { m with localBytes := found }
  | _, _ => s

/-- A load whose addresses are known, and what running operations show of their results (R95, R154).
Log entry 9 (DESIGN CHOICE). -/
def startLoadEarly (s : State) (p g : Nat) (gr : Group) (m : MemOp) (cls : Nat) : State := earlyLoad p g m.id (startLoad s p g gr m cls)

/-- LD (R119); a load of what a running operation writes may find the result (R154). -/
def execLd (p g : Nat) (w : InstrBits) (s : State) : Host.Outcome State Fault Refusal :=
  let v := fMod w
  let sext := v % 2 == 1
  .next (issue p g 0x30 w
    { valid := decide (v ≤ 5) && decide (fSize w ≤ 4) && !(sext && decide (2 ≤ fSize w)) && fSrcB w == 0,
      reads := addrRegs w, writes := [dataRegs w] }
    (fun c st => if 4 ≤ v then runSeq .load (sizeBytes w) sext (fun _ => []) c st
      else runMem .load (sizeBytes w) sext (v == 2 || v == 3) (fun _ => []) refuseBad startLoadEarly c st) s)

/-! ### Completions -/

/-- An operation of an array stops, or has met a word with no valid value: it has run a free number of its steps, what they
flushed is noted (R173, R174) and what they streamed is counted (R399), and its D area is undefined (R158).
Log entry 13 (DESIGN CHOICE). -/
def stopOp (s : State) (p a : Nat) (o : ArrayOp) (run : Nat → ArrayRun) : State :=
  let (k, s1) := takeFree s
  let n := Config.freeNat k % ((opSteps o.words).length + 1)
  let x := run n
  let u := getArray (getPos s1 p) a
  let s2 := bump (noteWorkFlush (setArray s1 p a { u with slots := x.slots, accs := x.accs }) o.slot o.use x.flushed)
    (Key.arrayCycles p) (streamCycles ((opSteps o.words).take n))
  (List.range (dLines o.words)).foldl (fun st i =>
    writeAt st p o.g (dWord o.words 8 + i * dStride o.words 9) (workTag s o.slot o.use) (freeBytes (k * 65536 + i) (lineBytesD o.words))) s2

/-- An operation has run all its steps: its results are written, its cycles are counted (R399), and its counter falls (R153). -/
def finishOp (s : State) (p a : Nat) (o : ArrayOp) (x : ArrayRun) : State :=
  let u := getArray (getPos s p) a
  let s1 := setArray s p a { u with slots := x.slots, accs := x.accs }
  let s2 := bump (x.out.foldl (fun st e => writeAt st p o.g e.1 (workTag s o.slot o.use) e.2) s1)
    (Key.arrayCycles p) (streamCycles (opSteps o.words))
  fallCount (noteWorkFlush s2 o.slot o.use x.flushed) p o.g o.slot o.counter

/-- ARRAY_OP_COMPLETE: the earliest operation of an array that is under way ends: its last D write is in place and the counter
falls (R153). An operation of an ended task stops, and its D area is undefined (R158). `chk` failing is an operand word with no
valid value; a failed word of the stationary store is reloaded, or faults the task where its source has been written since
(R159).
Log entries 3 (DESIGN CHOICE); 8 (DEDUCED); 9 (DESIGN CHOICE). -/
def execArrayOpComplete (p a : Nat) (chk : Chk) (s : State) : Host.Outcome State Fault Refusal :=
  let u := getArray (getPos s p) a
  match u.started.head? with
  | none => .next s
  | some r =>
    let o := r.op
    let ws := o.words
    let s0 := setArray (noteTransient s chk) p a
      (if u.draining.isSome then { u with draining := none } else { u with running := none })
    let e := earlyView s0 p o.g (opView r)
    let run := runSteps e.1 (portView r) p o u
    let rec_ : ErrRec := { code := Code.checkFailed, sev := 2, origin := .core, unit := p,
                           group := ((getGroup s p o.g).map (·.index)).getD 0xFFFFFFFF }
    let at_ := someWord r.seed (if chk = .stored then heldRows ws else operandRows ws)
    if opEnded s p o.g o.slot o.use then .next (stopOp e.2 p a o run)
    else if chk = .failed then
      .next (workFail (stopOp e.2 p a o run) o.slot o.use rec_ (wordAt s p (e.1 0) o.slot o.use at_))
    else if chk = .stored ∧ rowsWritten p r.log (heldRows ws) ∧ afterLoad r.seed then
      .next (storedFail (stopOp e.2 p a o run) o.slot o.use rec_ at_ ((List.range 16).map (reader (e.1 0) p at_)))
    else
      .next (finishOp (if chk = .stored then bump e.2 Key.cleanRecoveries 1 else e.2) p a o (run (opSteps ws).length))

/-- The word of a unit's own stores that has failed and cannot be reloaded, by its address and bytes (R210). -/
def staleWord (s : State) (p : Nat) (rd : Bool → Nat → Byte) (r : RunningCmd) (lat : Sparse (Option Byte)) : Option (Nat × List Byte) :=
  let ws := r.cmd.words
  let off := xFirst ws * xRank ws
  if latentFailed r then
    (if latentStale s r p then
      some (if xKeep ws || xSrcSeq ws then (r.page.getD 0) + off else dWord ws 1 + off,
            (List.range 16).map (fun i => latentByte lat r.seed (off + i)))
     else none)
  else if rowsStale r p then
    let a := someWord r.seed (rowsOfW ws)
    some (a, (List.range 16).map (reader rd p a))
  else none

/-- WEIR_COMMAND_COMPLETE: a command's last write is in place and its counter falls (R190); before that, what it reads of the
Cistern must have come, and an INGEST sends its sectors. A command of an ended task stops (R209); `chk` failing is an operand
word with no valid value (R208), where the command stops too. A failed word of the latent buffer or of the stationary store is
reloaded, or faults the task (R210). During a Cistern-only reset no INGEST begins to write (R211).
Log entry 13 (DESIGN CHOICE). -/
def execWeirCommandComplete (p unit : Nat) (chk : Chk) (s : State) : Host.Outcome State Fault Refusal :=
  let e := getEngine (getPos s p) unit
  match e.running with
  | none => .next s
  | some r =>
    let o := r.cmd
    let rec_ : ErrRec := { code := Code.checkFailed, sev := 2, origin := .weir, unit := p,
                           group := ((getGroup s p o.g).map (·.index)).getD 0xFFFFFFFF }
    let s0 := endRun (noteTransient s chk) p unit
    let v := earlyView s0 p o.g (cmdView r)
    let rd := v.1 0
    let s1 := v.2
    let got := cmdGot s p 0
    let lat := if unit = 0 then loadLatent p got (v.1 1) e r else []
    let stop : State := stopCmd s1 p unit rd o (latentByte lat r.seed) (if r.stored then none else r.page)
    if opEnded s p o.g o.slot o.use then .next stop
    else if (cmdRef unit o.words).isSome && (r.page.isNone || cmdWaits s p unit || (unit == 1 && !r.stored && inCisReset s)) then .next s
    else if chk = .failed then .next (workFail stop o.slot o.use rec_ (wordAt s p rd o.slot o.use (someWord r.seed (cmdRows unit o.words))))
    else if unit = 0 then
      match gotFailed got with
      | some x => .next (workFail stop o.slot o.use rec_
          { place := if x.wtag = 0 then 13 else 10, addr := x.sector * 32, tag := x.wtag, reg := 0, word := x.data })
      | none =>
        match (if chk = .stored then staleWord s p rd r lat else none) with
        | some w => .next (storedFail stop o.slot o.use rec_ w.1 w.2)
        | none =>
          .next (finishExpand (dropJobsFor (if chk = .stored then bump s1 Key.cleanRecoveries 1 else s1) (· == .weir p 0)) p rd r lat)
    else .next (finishLayout s1 p rd e r)

end Sys2Proof.Machine
end

