-- ==== Sys2Proof/Machine/HostPort.lean ====
section
/-! DEFINITION. The host interface (chapter 13 of the manual): configuration requests, the port's link and resets, the BAR0
window, BAR4, host copies, and the loss of a clock (R447). -/

namespace Sys2Proof.Machine

/-! ### The configuration space (R336 to R340, R349) -/

/-- A number with the bits below `2 ^ k` cleared. -/
def alignDown (k x : Nat) : Nat := x / 2 ^ k * 2 ^ k

/-- The size of BAR4 as a power of 2 (R340). -/
def bar4Log (s : State) : Nat := 30 + Nat.log2 s.port.sizeGiB

/-- The size of a BAR as a power of 2 (R339); `k` is its first Base Address register. -/
def barLog (s : State) (k : Nat) : Nat := if k = 0 then 20 else if k = 2 then 26 else bar4Log s

/-- A Base Address register as it reads: the address bits below the size read 0, the low register's fixed bits as R339
gives. -/
def readBar (s : State) (i : Nat) : Nat :=
  let low := i / 2 * 2
  let all := mapGet 0 s.port.bars low + mapGet 0 s.port.bars (low + 1) * 2 ^ 32
  let a := alignDown (barLog s low) all
  if i = low then a % 2 ^ 32 + (if low = 0 then 4 else 12) else a / 2 ^ 32

/-- The registers of the standard header (R336, R339, R512): none for one that the header does not give.
Log entry 22 (PRESUMED). -/
def readHeader (s : State) (reg : Nat) : Option Nat :=
  match reg with
  | 0 => some 0x06401F4C
  | 1 => some (0x00100000 + s.port.command)
  | 2 => some (0x12000000 + s.boot.siliconRev % 256)
  | 3 => some 0
  | 4 => some (readBar s 0)
  | 5 => some (readBar s 1)
  | 6 => some (readBar s 2)
  | 7 => some (readBar s 3)
  | 8 => some (readBar s 4)
  | 9 => some (readBar s 5)
  | 10 => some 0
  | 12 => some 0
  | 14 => some 0
  | _ => none

/-- The capability registers that the manual gives, with `k` for what it leaves open in them.
Log entry 22 (PRESUMED). -/
def readCapability (s : State) (k reg : Nat) : Nat :=
  let free := Config.capability k % 2 ^ 32
  if reg = 15 then free % 256
  else if reg = Config.pmcReg then free % 2 ^ 25
  else if reg = Config.pmcsrReg then alignDown 2 free + (if s.port.d3 then 3 else 0)
  else if reg = Config.devCapReg then alignDown 3 (free % 2 ^ 28) + 2
  else if reg = Config.rebarCapReg then 0x7F * 2 ^ 14
  else if reg = Config.rebarCtlReg then (10 + Nat.log2 s.port.sizeGiB) * 256 + 0x24
  else if reg = Config.dsnLowReg then identitySerial s % 2 ^ 32
  else if reg = Config.dsnHighReg then identitySerial s / 2 ^ 32
  else if reg = Config.aerStatusReg then (if s.port.aerPoisoned then 2 ^ 12 else 0)
  else if reg = Config.aerSeverityReg then s.port.aerSeverity
  else if Config.aerHeaderReg ≤ reg ∧ reg < Config.aerHeaderReg + 4 then
    (match s.port.aerFirst with
     | none => 0
     | some n => Config.capability (n * 8 + (reg - Config.aerHeaderReg)) % 2 ^ 32)
  else free

/-- A register as it reads.
Log entry 22 (PRESUMED). -/
def readCfg (s : State) (reg : Nat) : Nat × State :=
  match readHeader s reg with
  | some v => (v, s)
  | none =>
    let f := takeFree s
    (readCapability f.2 f.1 reg, f.2)

/-- Write a register: the command register, the Base Address registers, the power state, the size of BAR4, and Advanced Error
Reporting's status and severity; other registers, those of the standard header among them, hold nothing that the manual lets be
written.
Log entry 22 (PRESUMED). -/
def writeCfg (s : State) (reg v : Nat) : State :=
  let p := s.port
  if reg = 1 then { s with port := { p with command := maskOf ((bitsOf 16 v).filter (fun i => [1, 2, 6, 8].contains i)) } }
  else if 4 ≤ reg ∧ reg < 10 then
    { s with port := { p with bars := mapSet 0 p.bars (reg - 4) (v % 2 ^ 32), assigned := mapSet false p.assigned (reg - 4) true } }
  else if reg < 16 then s
  else if reg = Config.pmcsrReg then
    (if v % 4 = 3 then { s with port := { p with d3 := true } }
     else if v % 4 = 0 then { s with port := { p with d3 := false } }
     else s)
  else if reg = Config.rebarCtlReg then
    (let n := bits v 13 8
     if 10 ≤ n ∧ n ≤ 16 then { s with port := { p with sizeGiB := 2 ^ (n - 10) } } else s)
  else if reg = Config.aerStatusReg then
    (if bit v 12 then { s with port := { p with aerPoisoned := false, aerFirst := none } } else s)
  else if reg = Config.aerSeverityReg then { s with port := { p with aerSeverity := v % 2 ^ 32 } }
  else s

/-- PCIE_CONFIG_REQUEST (R349): no completion while the link is down, retry status until S10 has ended, and then completion. -/
def execPcieConfigRequest (req : CfgReq) (s : State) : Host.Outcome State Fault Refusal :=
  .next (
    if !s.port.up then s
    else if !(portServes s) then emit s (.completion req.tag .retry [])
    else
      match req.write with
      | some v => emit (writeCfg s req.reg v) (.completion req.tag .success [])
      | none =>
        let r := readCfg s req.reg
        emit r.2 (.completion req.tag .success (leBytes 4 r.1)))

/-! ### The port's link (R334, R335, R348, R447) -/

/-- The lanes may train: the device has power, is not held in reset, its rails are on and S2 is reached (R349).
Log entry 63 (DEDUCED). -/
def portMayTrain (s : State) : Bool :=
  s.boot.powered && !s.boot.resetLow && decide (s.boot.dark = .none) && !s.port.up &&
    (decide (3 ≤ s.boot.done) || (s.boot.stopped && decide (s.boot.done = 2)))

/-- HOST_LINK_TRAINED: the link settles after a port reset (R334, R335). -/
def execHostLinkTrained (rate width : Nat) (flit : Bool) (s : State) : Host.Outcome State Fault Refusal :=
  .next (if portMayTrain s then settleHostLink s rate width flit else s)

/-- The port resets, and the event is counted (R348).
Log entry 63 (DEDUCED). -/
def countedReset (s : State) : State := bump (resetPort s) Key.portResets 1

/-- PORT_RESET (R348). -/
def execPortReset (cause : PortCause) (s : State) : Host.Outcome State Fault Refusal :=
  .next (
    if !s.boot.powered || s.boot.resetLow || (decide (cause = .linkDown) && !s.port.up) then s else countedReset s)

/-- PCIE_REFCLK_RETURN: the reference is back, and the port retrains its link (R447). -/
def execPcieRefclkReturn (rate width : Nat) (flit : Bool) (s : State) : Host.Outcome State Fault Refusal :=
  .next (
    if s.port.refclk || !s.boot.powered || s.boot.resetLow then s
    else
      let s1 := { s with
        port := { s.port with refclk := true }
        time := { s.time with locks := if s.time.runs && !(bit s.time.locks 3) then s.time.locks + 8 else s.time.locks } }
      if portMayTrain s1 then settleHostLink s1 rate width flit else s1)

/-- CLOCK_LOCK (R447): the reference, the core PLL and the memory PLL take the rails down; a link PLL stops its link; the PCIe
reference resets the port. -/
def execClockLock (clock : ClockId) (s : State) : Host.Outcome State Fault Refusal :=
  .next (
    if !(railsUp s) || decide (s.boot.done < 2) then s
    else
      match clock with
      | .refclk => loseClock s (clearBits s.time.locks 23) true
      | .corePll => loseClock s (clearBits s.time.locks 2) true
      | .memPll => loseClock s (clearBits s.time.locks 4) false
      | .linkPll l =>
        if tierHasLink s.boot.tier l then
          setLink { s with time := { s.time with locks := clearBits s.time.locks 16 } } l { getLink s l with pllLost := true }
        else s
      | .pcieRef =>
        let s1 := countedReset { s with time := { s.time with locks := clearBits s.time.locks 8 } }
        { s1 with port := { s1.port with refclk := false } })

/-! ### The BAR0 window (R361 to R363) -/

/-- The region of an offset: 0 the header, 1 to 64 a request channel, 65 the reserved range, 66 the direct region. -/
def bar0Region (off : Nat) : Nat := if off < 0x41000 then off / 0x1000 else if off < 0x80000 then 65 else 66

/-- A request lies within BAR0 and within one region. -/
def bar0Whole (off len : Nat) : Bool :=
  decide (0 < len) && decide (off + len ≤ 2 ^ 20) && bar0Region off == bar0Region (off + len - 1)

/-- The header's bytes (R361). -/
def bar0Header (s : State) : List Byte :=
  leBytes 4 1 ++ leBytes 4 64 ++ leBytes 4 s.pool.device ++ leBytes 4 (shownStage s) ++ leBytes 8 (identitySerial s)

/-- CH_STATE (R362). -/
def channelState (c : Chan) : Nat := c.state * 2 ^ 60 + c.code % 4096 * 2 ^ 48 + c.tag % 65536 * 2 ^ 32 + c.len % 65536

/-- A byte of a channel; `k` gives the bytes that no field holds.
Log entry 60 (DEDUCED). -/
def channelByte (c : Chan) (k off : Nat) : Byte :=
  if 8 ≤ off ∧ off < 16 then (leBytes 8 (channelState c)).getD (off - 8) 0#8
  else if 0x100 ≤ off ∧ off < 0x520 then c.request.getD (off - 0x100) (Config.freeByte (k * 4096 + off))
  else if 0x800 ≤ off ∧ off < 0xC20 then c.response.getD (off - 0x800) (Config.freeByte (k * 4096 + off))
  else Config.freeByte (k * 4096 + off)

/-- An entry of the direct region (R363). -/
def directEntry (s : State) (i : Nat) : Nat :=
  if i = 0 then stamp s
  else if i = 1 then readNum s Key.intakeCredit
  else if i = 2 then readNum s Key.intakeDrops
  else if i = 3 then readNum s Key.intakeError
  else if 8 ≤ i ∧ i < 16 then readNum s (Key.slotsInState (i - 8))
  else if i = 0x10 then readNum s Key.freeSpawn
  else if i = 0x20 then readNum s Key.eventSeq
  else if i = 0x21 then readNum s Key.txnState
  else if 0x8000 ≤ i then
    (let c := getCounter s (i - 0x8000)
     boolNum c.poison * 2 ^ 32 + c.value % 2 ^ 32)
  else 0

/-- A read of the direct region may have this size and alignment: 4 or 8 bytes naturally aligned, or up to 512 bytes in whole
entries.
Log entry 60 (DEDUCED). -/
def directShape (off len : Nat) : Bool :=
  ((len == 4 || len == 8) && off % len == 0) || (decide (len ≤ 512) && off % 8 == 0 && len % 8 == 0)

/-- `len` bytes of the direct region from a byte offset in it.
Log entry 60 (DEDUCED). -/
def directBytes (s : State) (off len : Nat) : List Byte :=
  slice (((List.range (len / 8 + 1)).map (fun i => leBytes 8 (directEntry s (off / 8 + i)))).flatten) (off % 8) len

/-- Complete a read with data (R352, R475). -/
def completeData (s : State) (tag : Nat) (data : List Byte) : State :=
  portSend (emit s (.completion tag .success data)) data.length

/-- A read of BAR0: of the header, a channel, the reserved range or the direct region. -/
def bar0Read (rd : MemRd) (s : State) : State :=
  if !(barOpen s 0) || !(bar0Whole rd.offset rd.len) then completeUr s rd.tag
  else
    let r := bar0Region rd.offset
    if r = 0 then completeData s rd.tag (slice (bar0Header s) rd.offset rd.len)
    else if r = 65 then completeData s rd.tag (List.replicate rd.len 0#8)
    else if r = 66 then
      (if directShape rd.offset rd.len then completeData s rd.tag (directBytes s (rd.offset - 0x80000) rd.len)
       else completeUr s rd.tag)
    else
      let f := takeFree s
      completeData f.2 rd.tag ((List.range rd.len).map (fun i => channelByte (getChannel s (r - 1)) f.1 ((rd.offset + i) % 0x1000)))

/-- BAR0_DIRECT_READ (R363). -/
def execBar0DirectRead (rd : MemRd) (s : State) : Host.Outcome State Fault Refusal := .next (bar0Read rd s)

/-- Submit the frame in REQUEST (R362).
Log entry 60 (DEDUCED). -/
def submitFrame (s : State) (c len : Nat) : State :=
  let ch := getChannel s c
  if ch.state = 1 then bump s Key.channelCollisions 1
  else if len < 32 ∨ 1056 < len then
    (let f := takeFree s
     let n := Config.freeNat f.1
     setChannel f.2 c { ch with state := 2, code := Code.messageInvalid, tag := n % 65536, len := n / 65536 % 65536 })
  else
    let fr := slice ch.request 0 len
    serve (setChannel s c { ch with state := 1 }) (opOf fr) { via := .chan c, hdr := headerOf false fr, body := fr.drop 32 }

/-- Bytes written into a channel's REQUEST. -/
def putRequest (s : State) (c off : Nat) (bs : List Byte) : State :=
  let ch := getChannel s c
  setChannel s c { ch with request := (splice (slice ch.request 0 1056) off bs).take 1056 }

/-- BAR0_CHANNEL_SUBMIT: the frame is placed in REQUEST, and SUBMIT is written with its length (R343, R362). -/
def execBar0ChannelSubmit (chan : Nat) (request : List Byte) (len : Nat) (ep : Bool) (s : State) :
    Host.Outcome State Fault Refusal :=
  .next (
    if !(barOpen s 0) || decide (64 ≤ chan) then portUr s
    else if ep then portPoisonedRx s
    else takeWarm (submitFrame (putRequest (bump s Key.bytesIn (request.length + 4)) chan 0 request) chan len))

/-- A write of BAR0: REQUEST bytes of a channel are stored, SUBMIT submits, the channel's other bytes take nothing, and the other
regions are Unsupported Requests (R361). -/
def bar0Write (off : Nat) (bs : List Byte) (s : State) : State :=
  let r := bar0Region off
  if !(barOpen s 0) || !(bar0Whole off bs.length) || r == 0 || decide (65 ≤ r) then portUr s
  else
    let s1 := bump s Key.bytesIn bs.length
    let o := off % 0x1000
    if o = 0 ∧ bs.length = 4 then takeWarm (submitFrame s1 (r - 1) (leNat bs))
    else if 0x100 ≤ o ∧ o + bs.length ≤ 0x520 then putRequest s1 (r - 1) (o - 0x100) bs
    else s1

/-- BAR0_INVALID_ACCESS: a write that no region takes, or a read or write that spans two (R361).
Log entry 60 (DEDUCED). -/
def execBar0InvalidAccess (rd : MemRd) (write : Option (List Byte)) (s : State) : Host.Outcome State Fault Refusal :=
  .next (
    match write with
    | some bs => bar0Write rd.offset bs s
    | none => bar0Read rd s)

/-! ### BAR4 (R340 to R343) -/

/-- The pool address of an offset of BAR4 (R340). -/
def bar4Addr (s : State) (off : Nat) : Nat := alignDown (bar4Log s) (getObj s Key.bar4Base) + off

/-- The pieces of a request, one for each 64 KiB page: address and length (R341). -/
def pagePieces : Nat → Nat → Nat → List (Nat × Nat)
  | 0, _, _ => []
  | n + 1, a, len =>
    if len = 0 then []
    else
      let k := min len (65536 - a % 65536)
      (a, k) :: pagePieces n (a + k) (len - k)

/-- The request lies within BAR4. -/
def bar4Fits (s : State) (off len : Nat) : Bool := decide (0 < len) && decide (off + len ≤ 2 ^ bar4Log s)

/-- A member other than this device that requests may be sent to now (R27, R328).
Log entry 61 (DEDUCED). -/
def reachable (s : State) (d : Nat) : Bool := d != s.pool.device && isMember s d && decide (s.pool.st = .formed)

/-- A read of this device's memory, from the port in the west half: the slot table is read at once, with the check `chk`, the rest
at the home slices (R19, R23, R341, R454).
Log entries 46 (DESIGN CHOICE); 115 (DEDUCED). -/
def readHere (s : State) (tag cls a len : Nat) (chk : Chk) : State :=
  let all := readOps a len
  let pre := all.filterMap (fun x => (slotTableAt (x.1 * 32)).map (fun off =>
    ({ sector := x.1, data := tableBytes s off 32, failed := chk == .failed, wtag := 0, code := 0 } : Served)))
  let s1 := match all.findSome? (fun x => slotTableAt (x.1 * 32)) with
    | some off => readSlot s (off / 256) chk
    | none => s
  let ops := all.filter (fun x => (slotTableAt (x.1 * 32)).isNone)
  if ops.isEmpty then completeBar4 s1 tag (gotBytes pre a len) (gotFailed pre).isSome
  else startJob s1 0 portHost cls 0 (.bar4 tag a len) pre ops

/-- BAR4_READ (R341); `chk` is the check of the slot table's words, where it reads those (R454, R455).
Log entry 61 (DEDUCED). -/
def execBar4Read (rd : MemRd) (chk : Chk) (s : State) : Host.Outcome State Fault Refusal :=
  .next (
    let a := bar4Addr s rd.offset
    let d := addrDevice a
    let l := addrLocal a
    let cls := getObj s Key.hostClass
    if !(barOpen s 4) || !(bar4Fits s rd.offset rd.len) then completeUr s rd.tag
    else if d = s.pool.device then
      (let ps := pagePieces (rd.len + 1) l rd.len
       if ps.any (fun p => !(farReadable s p.1) || !(farReadable s (p.1 + p.2 - 1))) then completeUr s rd.tag
       else readHere s rd.tag cls l rd.len chk)
    else if reachable s d then
      (let ps := readPackets s d cls l rd.len
       let w : Bar4Wait := { tag := rd.tag, offset := rd.offset, addr := a, len := rd.len, left := ps.length, got := [], failed := false }
       peerRequests { s with port := { s.port with bar4 := s.port.bar4 ++ [w] } }
         (ps.map (fun p => mkReq d (.bar4 rd.tag false) none agentHost 0 p)))
    else completeUr s rd.tag)

/-- The bytes of a store to a peer, one by one, at its device-local addresses. -/
def byteWrites (a : Nat) (bs : List Byte) : List (Nat × List Byte) := bs.zipIdx.map (fun e => (a + e.2, [e.1]))

/-- BAR4_WRITE (R340, R341, R343). -/
def execBar4Write (offset : Nat) (data : List Byte) (ep : Bool) (s : State) : Host.Outcome State Fault Refusal :=
  .next (
    let a := bar4Addr s offset
    let d := addrDevice a
    let l := addrLocal a
    let n := data.length
    let cls := getObj s Key.hostClass
    if !(barOpen s 4) || !(bar4Fits s offset n) then portUr s
    else if ep then portPoisonedRx s
    else if d = s.pool.device then
      (if (pagePieces (n + 1) l n).any (fun p => !(hasHome s p.1) || !(hasHome s (p.1 + p.2 - 1))) then portUr s
       else startJob (bump s Key.bytesIn n) 0 portHost cls (hostTag s) .post [] (storeOps (n + 1) l data))
    else if reachable s d then
      peerRequests (bump s Key.bytesIn n)
        ((writePackets s d cls (byteWrites l data)).map (fun p => mkReq d (.bar4 0 true) none agentHost 0 p))
    else portUr s)

/-! ### Host copies (R345, R346, R455) -/

/-- A move whose bytes have come from the host: they go to the home slices as whole-sector stores, or to a peer (R345).
Log entry 59 (DEDUCED). -/
def moveToPool (s : State) (m : CopyMove) (data : List Byte) : State :=
  let l := addrLocal m.pool
  let d := addrDevice m.pool
  let cls := getObj s Key.hostClass
  let bs := slice data 0 m.bytes
  let s1 := portRead s m.bytes
  if d = s.pool.device then startJob s1 0 portHost cls (hostTag s) (.copy m) [] (storeOps (m.bytes / 32 + 1) l bs)
  else
    peerRequests s1
      ((writePackets s d cls (byteWrites l bs)).map (fun p => mkReq d (.copy m) none agentCopy 0 p))

/-- A move to the host reads its bytes at the home slices, or from a peer (R345).
Log entry 59 (DEDUCED). -/
def moveToHost (s : State) (m : CopyMove) : State :=
  let l := addrLocal m.pool
  let d := addrDevice m.pool
  let cls := getObj s Key.hostClass
  if d = s.pool.device then startJob s 0 portHost cls 0 (.copy m) [] (readOps l m.bytes)
  else peerRequests s ((readPackets s d cls l m.bytes).map (fun p => mkReq d (.copy m) none agentCopy 0 p))

/-- The home slices have answered a move whole: its bytes have been accepted, or they go to host memory, with EP set where some
failed their check, and the copy continues (R345, R455).
Log entries 59 (DEDUCED); 61 (DEDUCED). -/
def endMoveHere (s : State) (m : CopyMove) (got : List Served) : State :=
  let s1 := if m.toPool then s
    else
      let bad := (gotFailed got).isSome
      let s2 := emit (portSend s m.bytes) (.hostWrite m.host (gotBytes got (addrLocal m.pool) m.bytes) bad)
      if bad then bump s2 Key.poisonedTx 1 else s2
  advanceCopy (freeEngine s1 m) m.cc m.bytes

/-- The oldest move of the copy slots in the engines that has not begun. -/
def nextCopyMove (s : State) : Option CopyMove :=
  (inEngines s).findSome? (fun e => match e with
    | .copy m => if (jobOf s (.copy m)).isNone && !(moveAtPeer s m) then some m else none
    | .page _ _ _ => none)

/-- HOST_COPY_MOVE_COMPLETE: the oldest move of the copy slots in the engines goes on, with the bytes that the host read gave
where the copy is to the pool, or fails where that read was not `ok` (R345, R346).
Log entries 46 (DESIGN CHOICE); 99 (DESIGN CHOICE). -/
def execHostCopyMoveComplete (ok : Bool) (data : List Byte) (s : State) : Host.Outcome State Fault Refusal :=
  .next (
    match nextCopyMove s with
    | none => s
    | some m =>
      let l := addrLocal m.pool
      let d := addrDevice m.pool
      if !s.port.up || (inCisReset s && d == s.pool.device) then s
      else
        let refused := if d = s.pool.device then homeRefusal s l m.bytes else none
        if refused.isSome then failCopy s m.cc (refused.getD 0)
        else if d ≠ s.pool.device ∧ reachable s d = false then failCopy s m.cc Code.peerLost
        else if m.toPool then
          (if ok then moveToPool s m data else failCopy s m.cc Code.hostCopyFailed)
        else moveToHost s m)

end Sys2Proof.Machine
end

