-- ==== Sys2Proof/Machine/Jobs.lean ====
section
/-! DEFINITION. What follows when the home slices have answered a job whole, and the commands of the slices, the Sill and the
regulation points, after which jobs may be so (R19, R224, R232, R413). -/

namespace Sys2Proof.Machine

/-- A job that has all its answers is over, and what it was for goes on. A Weir command, a promotion, a page-out and a firmware
image stay until the command that looks at them.
Log entry 39 (DESIGN CHOICE). -/
def endJob (s : State) (j : Job) : State :=
  if j.left ≠ 0 then s
  else
    let s1 := dropJob s j.id
    match j.who with
    | .post => s1
    | .bar4 tag a n => completeBar4 s1 tag (gotBytes j.got a n) (gotFailed j.got).isSome
    | .packet p => answerPacket s1 p j.got
    | .copy m => endMoveHere s1 m j.got
    | .pageIn seq page => landPage seq page true s1
    | .fetch p g line => takeFetch s1 p g line j.got
    | .seqList n gen => evalWaits (takeSeqList s1 n gen j.got)
    | .scrub p off seq page => takeScrub s1 p off seq page j.got
    | .image 3 => takePack s1 j.got
    | .image _ => s
    | .pageOut _ _ => s
    | .weir _ _ => s
    | .promote _ => s

/-- Every job that has all its answers goes on, in the order in which the jobs began. -/
def runJobs (s : State) : State := s.cistern.jobs.foldl endJob s

/-- SLICE_INTAKE (R224, R477). -/
def execSliceIntake (g port : Nat) (chk : Chk) (s : State) : Host.Outcome State Fault Refusal := .next (runJobs (sliceIntake g port chk s))

/-- SECTOR_FILL (R229). -/
def execSectorFill (g line sector : Nat) (s : State) : Host.Outcome State Fault Refusal := .next (runJobs (sectorFill g line sector s))

/-- REDUCTION_APPLY (R235). -/
def execReductionApply (g : Nat) (chk : Chk) (s : State) : Host.Outcome State Fault Refusal := .next (runJobs (reductionApply g chk s))

/-- REDUCE_FORCE (R237). -/
def execReduceForce (g set : Nat) (s : State) : Host.Outcome State Fault Refusal := .next (runJobs (reduceForce g set s))

/-- RESERVOIR_WRITE_REQUEST (R226, R247). -/
def execReservoirWriteRequest (g : Nat) (s : State) : Host.Outcome State Fault Refusal := .next (runJobs (writeRequest g s))

/-- SILL_TRANSFER (R232, R233). -/
def execSillTransfer (dir : Nat) (ok : Bool) (s : State) : Host.Outcome State Fault Refusal :=
  .next (runJobs (withReset (sillTransfer dir ok) s))

/-- CISTERN_WATCHDOG (R239). -/
def execCisternWatchdog (g : Nat) (s : State) : Host.Outcome State Fault Refusal := .next (withReset (cisternWatchdog g) s)

/-- REGULATION_ADMIT (R475 to R477). -/
def execRegulationAdmit (point inst cls : Nat) (s : State) : Host.Outcome State Fault Refusal :=
  .next (runJobs (regulationAdmit point inst cls s))

end Sys2Proof.Machine
end

