-- ==== Sys2Proof/Machine/Sfu.lean ====
section
/-! DEFINITION. The special-function unit (R80): each function's exact special results, and its other results within the
stated error. Within that error the unit's value is `Config.sfu`, a free function of the operand (R472). -/

namespace Sys2Proof.Machine

/-- The precision of the bounds: values are held as m × 2^e with m near 2^80. -/
abbrev sfuBits : Nat := 80

/-- 2^(2^-i) as a multiple of 2^-80, for i from 0 on, by repeated square roots. -/
def rootTwo : Nat → Nat
  | 0 => 2 ^ (sfuBits + 1)
  | n + 1 => Nat.sqrt (rootTwo n * 2 ^ sfuBits)

/-- 2^f for the fraction f whose first `n` bits are those of `x` from bit 63 down, as a multiple of 2^-80. -/
def expFrac (x : Nat) : Nat → Nat → Nat → Nat
  | 0, _, acc => acc
  | n + 1, i, acc =>
    let acc1 := if bit x (64 - i) then acc * rootTwo i / 2 ^ sfuBits else acc
    expFrac x n (i + 1) acc1

/-- 2^x for a finite x, nearly exact. -/
def exactExp2 (neg : Bool) (m : Nat) (e : Int) : FVal :=
  -- x in units of 2^-64
  let mag : Nat := if -64 ≤ e then m * pow2 (e + 64) else m / pow2 (-64 - e)
  let x : Int := if neg then -(mag : Int) else mag
  let whole := x / (2 ^ 64 : Nat)
  let frac := (x % (2 ^ 64 : Nat)).toNat
  .fin false (expFrac frac 64 1 (2 ^ sfuBits)) (whole - sfuBits)

/-- The first `n` fraction bits of log2 of `y` × 2^-80, 1 ≤ y × 2^-80 < 2, by repeated squaring. -/
def logFrac : Nat → Nat → Nat → Nat
  | 0, _, acc => acc
  | n + 1, y, acc =>
    let y2 := y * y / 2 ^ sfuBits
    if y2 ≥ 2 ^ (sfuBits + 1) then logFrac n (y2 / 2) (2 * acc + 1) else logFrac n y2 (2 * acc)

/-- log2 of a positive finite m × 2^e, nearly exact. -/
def exactLog2 (m : Nat) (e : Int) : FVal :=
  let k := Nat.log2 m
  let y := m * 2 ^ sfuBits / 2 ^ k
  let l : Int := (e + k) * (2 ^ 60 : Nat) + (logFrac 60 y 0 : Int)
  .fin (decide (l < 0)) l.natAbs (-60)

/-- 1 / (m × 2^e), nearly exact. -/
def exactRcp (neg : Bool) (m : Nat) (e : Int) : FVal := .fin neg (2 ^ 160 / m) (-e - 160)

/-- 1 / √(m × 2^e), nearly exact. -/
def exactRsq (m : Nat) (e : Int) : FVal :=
  let odd := e % 2 = 1
  let m1 := if odd then 2 * m else m
  let e1 := if odd then e - 1 else e
  .fin false (Nat.sqrt (2 ^ 240 / m1)) (-(e1 / 2) - 120)

/-- |a − b| ≤ n × 2^q.
Log entry 20 (DEDUCED). -/
def within (a b : FVal) (n : Nat) (q : Int) : Bool :=
  match FVal.add a b.neg with
  | .fin _ m e => if e ≤ q then decide (m ≤ n * pow2 (q - e)) else decide (m * pow2 (e - q) ≤ n)
  | _ => false

/-- The exponent of a unit in the last place of a binary32 code. -/
def ulpOf (x : Nat) : Int := (max 1 (fExp fmtF32 x) : Int) - 150

/-- The unit's value for an operand, if it lies within `n` units of 2^q of the exact one; otherwise the nearest value.
Log entry 20 (DEDUCED). -/
def sfuPick (fn x : Nat) (exact : FVal) (n : Nat) (q : Option Int) : Nat :=
  let near := fEncode fmtF32 false exact
  let c := (Config.sfu fn (BitVec.ofNat 32 x)).toNat
  if within (fDecode fmtF32 c) exact n (q.getD (ulpOf near)) then c else near

/-- The same where the result is a subnormal of sign `neg`: another value gives way to the nearest such one.
Log entry 20 (DEDUCED). -/
def sfuPickSub (neg : Bool) (fn x : Nat) (exact : FVal) (n : Nat) : Nat :=
  let r := sfuPick fn x exact n none
  let sg := if neg then 2 ^ 31 else 0
  if fSubnormal fmtF32 r && decide (r / 2 ^ 31 * 2 ^ 31 = sg) then r
  else sg + min (max 1 (fEncode fmtF32 false exact % 2 ^ 31)) 0x7FFFFF

/-- exp2 (R80).
Log entry 20 (DEDUCED). -/
def sfuExp2 (x : Nat) : Nat :=
  match fDecode fmtF32 x with
  | .nan => fNaN fmtF32
  | .inf n => if n then 0 else fInf fmtF32
  | .fin n m e =>
    if !n && FVal.lt (.fin false 127 0) (.fin n m e) && !(FVal.lt (.fin n m e) (.fin false 128 0)) then fInf fmtF32
    else if FVal.lt (.fin n m e) (.fin true 149 0) then 0
    else if FVal.lt (.fin n m e) (.fin true 126 0) then sfuPickSub false 0 x (exactExp2 n m e) 2
    else sfuPick 0 x (exactExp2 n m e) 2 none

/-- log2 (R80).
Log entry 20 (DEDUCED). -/
def sfuLog2 (x : Nat) : Nat :=
  match fDecode fmtF32 x with
  | .nan => fNaN fmtF32
  | .inf n => if n then fNaN fmtF32 else fInf fmtF32
  | .fin n m e =>
    if m = 0 then 2 ^ 31 + fInf fmtF32
    else if n then fNaN fmtF32
    else
      let v := FVal.fin n m e
      let near := !(FVal.lt v (.fin false 1 (-1))) && !(FVal.lt (.fin false 2 0) v)
      sfuPick 1 x (exactLog2 m e) (if near then 1 else 2) (if near then some (-22) else none)

/-- Reciprocal (R80).
Log entry 20 (DEDUCED). -/
def sfuRcp (x : Nat) : Nat :=
  match fDecode fmtF32 x with
  | .nan => fNaN fmtF32
  | .inf n => if n then 2 ^ 31 else 0
  | .fin n m e =>
    if m = 0 then (if n then 2 ^ 31 else 0) + fInf fmtF32
    else if FVal.lt (.fin false 1 126) (.fin false m e) then sfuPickSub n 2 x (exactRcp n m e) 1
    else sfuPick 2 x (exactRcp n m e) 1 none

/-- Reciprocal square root (R80).
Log entry 20 (DEDUCED). -/
def sfuRsq (x : Nat) : Nat :=
  match fDecode fmtF32 x with
  | .nan => fNaN fmtF32
  | .inf n => if n then fNaN fmtF32 else 0
  | .fin n m e =>
    if m = 0 then (if n then 2 ^ 31 else 0) + fInf fmtF32
    else if n then fNaN fmtF32
    else sfuPick 3 x (exactRsq m e) 2 none

end Sys2Proof.Machine
end

