-- ==== Sys2Proof/Machine/Lanes.lean ====
section
/-! DEFINITION. Lane arithmetic (R116 to R118): the instructions of classes A, F and X and their immediate forms. -/

namespace Sys2Proof.Machine

/-! ### Operations on values -/

/-- The low 32 bits. -/
def low32 (x : Nat) : Nat := x % 2 ^ 32

def opAdd (a b : Nat) : Nat := low32 (a + b)
def opSub (a b : Nat) : Nat := low32 (a + 2 ^ 32 - b)
def opMul (a b : Nat) : Nat := low32 (a * b)

/-- The high 32 bits of a product, signed when MOD[0] is 1. -/
def opMulHi (mod a b : Nat) : Nat :=
  if bit mod 0 then unsigned 32 (signed 32 a * signed 32 b / (2 ^ 32 : Nat)) else a * b / 2 ^ 32

/-- a is below b, signed when MOD[0] is 1. -/
def opLess (mod a b : Nat) : Bool := if bit mod 0 then decide (signed 32 a < signed 32 b) else decide (a < b)

def opMin (mod a b : Nat) : Nat := if opLess mod b a then b else a
def opMax (mod a b : Nat) : Nat := if opLess mod a b then b else a
def opShl (a b : Nat) : Nat := low32 (a * 2 ^ (b % 32))

/-- A right shift by b[4:0], arithmetic when MOD[0] is 1. -/
def opShr (mod a b : Nat) : Nat :=
  if bit mod 0 then unsigned 32 (signed 32 a / (2 ^ (b % 32) : Nat)) else a / 2 ^ (b % 32)

def opPopc (a : Nat) : Nat := (bitsOf 32 a).length
def opClz (a : Nat) : Nat := if a = 0 then 32 else 31 - Nat.log2 a

/-- −x of a binary32 encoding where the MOD bit says so. -/
def negIf (on : Bool) (x : Nat) : Nat := if on then x ^^^ 2 ^ 31 else x

/-- The exact result of a binary32 operation, rounded once (R172). -/
def f32Of (v : FVal) : Nat := fEncode fmtF32 false v

def opFadd (mod a b : Nat) : Nat :=
  f32Of (FVal.add (fDecode fmtF32 (negIf (bit mod 1) a)) (fDecode fmtF32 (negIf (bit mod 0) b)))

def opFmul (mod a b : Nat) : Nat :=
  f32Of (FVal.mul (fDecode fmtF32 (negIf (bit mod 1) a)) (fDecode fmtF32 (negIf (bit mod 0) b)))

def opFfma (mod a b d : Nat) : Nat :=
  f32Of (FVal.add (FVal.mul (fDecode fmtF32 (negIf (bit mod 1) a)) (fDecode fmtF32 b)) (fDecode fmtF32 (negIf (bit mod 0) d)))

/-- A conversion to an integer: nearest even, saturating, NaN 0 (R117). -/
def toInt32 (lo hi : Int) (a : Nat) : Nat :=
  match fDecode fmtF32 a with
  | .nan => 0
  | .inf n => unsigned 32 (if n then lo else hi)
  | v => unsigned 32 (max lo (min hi v.toInt))

/-- An integer to binary32. -/
def ofInt32 (x : Int) : Nat := f32Of (fvOfInt false x 0)

/-- A conversion between formats under FLUSH: the source, and the result in the target format (R173). -/
def convert (flush : Bool) (src dst : Fmt) (sat : Bool) (a : Nat) : Flushed :=
  let x := fFlush src flush (a % 2 ^ (src.eb + src.mb + 1))
  let r := fFlush dst flush (fEncode dst sat (fDecode src x.1))
  (r.1, x.2 || r.2)

/-- CVT (R117, R175). -/
def opCvt (flush : Bool) (mod a : Nat) : Flushed :=
  let toInt (lo hi : Int) : Flushed :=
    let x := fFlush fmtF32 flush a
    (toInt32 lo hi x.1, x.2)
  match mod with
  | 0 => toInt (-2147483648) 2147483647
  | 1 => (ofInt32 (signed 32 a), false)
  | 2 => toInt 0 4294967295
  | 3 => (ofInt32 a, false)
  | 4 => convert flush fmtF32 fmtBF16 false a
  | 5 => convert flush fmtBF16 fmtF32 false a
  | 6 => convert flush fmtF32 fmtF16 false a
  | 7 => convert flush fmtF16 fmtF32 false a
  | 8 => convert flush fmtF32 fmtE4M3 true a
  | 9 => convert flush fmtF32 fmtE5M2 true a
  | 10 => convert flush fmtE4M3 fmtF32 false a
  | 11 => convert flush fmtE5M2 fmtF32 false a
  | _ => (0, false)

/-- SHFL: the source lane's value, the own value outside 0 to 31 under up and down, 0 from a lane that is not active
(R84, R118). -/
def opShfl (c : Ctx) (b l : Nat) : Nat :=
  let pick (src : Nat) : Nat := if c.path.lanes.getLsbD src then getReg c.gr (fSrcA c.w) src else 0
  match fMod c.w with
  | 0 => pick (b % 32)
  | 1 => if b ≤ l then pick (l - b) else laneA c l
  | 2 => if l + b < 32 then pick (l + b) else laneA c l
  | _ => pick (l ^^^ (b % 32))

/-- The active lanes whose predicate SRCA[2:0] is true (R118).
Log entry 21 (DEDUCED). -/
def voteMask (c : Ctx) : LaneMask := c.path.lanes &&& maskWhere (fun l => getPred c.gr (fSrcA c.w % 8) l)

/-- VOTE's any and all.
Log entry 21 (DEDUCED). -/
def votePred (c : Ctx) : Bool := if fMod c.w = 1 then voteMask c != 0#32 else voteMask c == c.path.lanes

/-- PLOP's operation (R116). -/
def opPlop (mod : Nat) (a b : Bool) : Bool :=
  match mod with
  | 0 => a && b
  | 1 => a || b
  | 2 => a != b
  | _ => a && !b

/-! ### Forms that several instructions share -/

/-- MOD is 0, or at most `m`. -/
def modZero (w : InstrBits) : Bool := fMod w == 0
def modUpTo (w : InstrBits) (m : Nat) : Bool := decide (fMod w ≤ m)

/-- A two-source instruction of format A, and of format I. -/
def formTwo (w : InstrBits) (ok : Bool) : Form := formA w ok true true true false
def formOne (w : InstrBits) (ok : Bool) : Form := formA w ok true true false false

/-! ### Class A -/

/-- NOP: nothing, and the next instruction (R115). -/
def execNop (p g : Nat) (w : InstrBits) (s : State) : Host.Outcome State Fault Refusal :=
  .next (issue p g 0x00 w (formA w (modZero w) false false false false) (fun c st => finishAt c c.gr st) s)

def execIadd (p g : Nat) (w : InstrBits) (s : State) : Host.Outcome State Fault Refusal :=
  .next (issue p g 0x01 w (formTwo w (modZero w)) (runReg (fun c l => opAdd (laneA c l) (laneB c l))) s)

def execIsub (p g : Nat) (w : InstrBits) (s : State) : Host.Outcome State Fault Refusal :=
  .next (issue p g 0x02 w (formTwo w (modZero w)) (runReg (fun c l => opSub (laneA c l) (laneB c l))) s)

def execImul (p g : Nat) (w : InstrBits) (s : State) : Host.Outcome State Fault Refusal :=
  .next (issue p g 0x03 w (formTwo w (modZero w)) (runReg (fun c l => opMul (laneA c l) (laneB c l))) s)

def execImulhi (p g : Nat) (w : InstrBits) (s : State) : Host.Outcome State Fault Refusal :=
  .next (issue p g 0x04 w (formTwo w (modUpTo w 1)) (runReg (fun c l => opMulHi (fMod w) (laneA c l) (laneB c l))) s)

def execImad (p g : Nat) (w : InstrBits) (s : State) : Host.Outcome State Fault Refusal :=
  .next (issue p g 0x05 w (formA w (modZero w) true true true true)
    (runReg (fun c l => opAdd (opMul (laneA c l) (laneB c l)) (laneC c l))) s)

def execImin (p g : Nat) (w : InstrBits) (s : State) : Host.Outcome State Fault Refusal :=
  .next (issue p g 0x06 w (formTwo w (modUpTo w 1)) (runReg (fun c l => opMin (fMod w) (laneA c l) (laneB c l))) s)

def execImax (p g : Nat) (w : InstrBits) (s : State) : Host.Outcome State Fault Refusal :=
  .next (issue p g 0x07 w (formTwo w (modUpTo w 1)) (runReg (fun c l => opMax (fMod w) (laneA c l) (laneB c l))) s)

def execAndOp (p g : Nat) (w : InstrBits) (s : State) : Host.Outcome State Fault Refusal :=
  .next (issue p g 0x08 w (formTwo w (modZero w)) (runReg (fun c l => laneA c l &&& laneB c l)) s)

def execOrOp (p g : Nat) (w : InstrBits) (s : State) : Host.Outcome State Fault Refusal :=
  .next (issue p g 0x09 w (formTwo w (modZero w)) (runReg (fun c l => laneA c l ||| laneB c l)) s)

def execXorOp (p g : Nat) (w : InstrBits) (s : State) : Host.Outcome State Fault Refusal :=
  .next (issue p g 0x0A w (formTwo w (modZero w)) (runReg (fun c l => laneA c l ^^^ laneB c l)) s)

def execShl (p g : Nat) (w : InstrBits) (s : State) : Host.Outcome State Fault Refusal :=
  .next (issue p g 0x0B w (formTwo w (modZero w)) (runReg (fun c l => opShl (laneA c l) (laneB c l))) s)

def execShr (p g : Nat) (w : InstrBits) (s : State) : Host.Outcome State Fault Refusal :=
  .next (issue p g 0x0C w (formTwo w (modUpTo w 1)) (runReg (fun c l => opShr (fMod w) (laneA c l) (laneB c l))) s)

def execPopc (p g : Nat) (w : InstrBits) (s : State) : Host.Outcome State Fault Refusal :=
  .next (issue p g 0x0D w (formOne w (modZero w)) (runReg (fun c l => opPopc (laneA c l))) s)

def execClz (p g : Nat) (w : InstrBits) (s : State) : Host.Outcome State Fault Refusal :=
  .next (issue p g 0x0E w (formOne w (modZero w)) (runReg (fun c l => opClz (laneA c l))) s)

/-- ICMP: condition MOD[2:0], 0 to 5; MOD[3] signed (R116). -/
def execIcmp (p g : Nat) (w : InstrBits) (s : State) : Host.Outcome State Fault Refusal :=
  .next (issue p g 0x10 w (formAPred w (decide (fMod w % 8 ≤ 5))) (runPred (fun c l => icmpCond (fMod w) (laneA c l) (laneB c l))) s)

/-- SEL: a where predicate SRCC[2:0] is true, else b. -/
def execSel (p g : Nat) (w : InstrBits) (s : State) : Host.Outcome State Fault Refusal :=
  .next (issue p g 0x11 w
    { valid := modZero w && decide (fSrcC w < 8) && fld w 15 0 == 0, reads := [(fSrcA w, 1), (fSrcB w, 1)], writes := [(fDst w, 1)] }
    (runReg (fun c l => if getPred c.gr (fSrcC w) l then laneA c l else laneB c l)) s)

def execMov (p g : Nat) (w : InstrBits) (s : State) : Host.Outcome State Fault Refusal :=
  .next (issue p g 0x12 w (formOne w (modZero w)) (runReg laneA) s)

/-- MOVI: IMM32 (R109). -/
def execMovi (p g : Nat) (w : InstrBits) (s : State) : Host.Outcome State Fault Refusal :=
  .next (issue p g 0x13 w { valid := modZero w && fSrcA w == 0, reads := [], writes := [(fDst w, 1)] } (runReg laneImm) s)

/-- PLOP: predicates SRCA[2:0] and SRCB[2:0] (R116). -/
def execPlop (p g : Nat) (w : InstrBits) (s : State) : Host.Outcome State Fault Refusal :=
  .next (issue p g 0x14 w
    { valid := modUpTo w 3 && decide (fDst w < 8) && decide (fSrcA w < 8) && decide (fSrcB w < 8) && fSrcC w == 0 && fld w 15 0 == 0,
      reads := [], writes := [] }
    (runPred (fun c l => opPlop (fMod w) (getPred c.gr (fSrcA w) l) (getPred c.gr (fSrcB w) l))) s)

def execShfl (p g : Nat) (w : InstrBits) (s : State) : Host.Outcome State Fault Refusal :=
  .next (issue p g 0x15 w (formTwo w (modUpTo w 3)) (runReg (fun c l => opShfl c (laneB c l) l)) s)

/-- VOTE: MOD 0 writes the ballot to DST; MOD 1 and 2 write any and all to predicate DST[42:40] (R118).
Log entry 21 (DEDUCED). -/
def execVote (p g : Nat) (w : InstrBits) (s : State) : Host.Outcome State Fault Refusal :=
  let ballot := fMod w == 0
  .next (issue p g 0x16 w
    { valid := modUpTo w 2 && decide (fSrcA w < 8) && fSrcB w == 0 && fSrcC w == 0 && fld w 15 0 == 0 && (ballot || decide (fDst w < 8)),
      reads := [], writes := oneReg ballot (fDst w) }
    (fun c st => if ballot then runReg (fun c _ => (voteMask c).toNat) c st else runPred (fun c _ => votePred c) c st) s)

/-! ### Class F -/

def execFadd (p g : Nat) (w : InstrBits) (s : State) : Host.Outcome State Fault Refusal :=
  .next (issue p g 0x20 w (formTwo w (modUpTo w 3))
    (runFloat (fun c l => flush2 (ctxFlush c) (opFadd (fMod w)) (laneA c l) (laneB c l))) s)

def execFmul (p g : Nat) (w : InstrBits) (s : State) : Host.Outcome State Fault Refusal :=
  .next (issue p g 0x21 w (formTwo w (modUpTo w 3))
    (runFloat (fun c l => flush2 (ctxFlush c) (opFmul (fMod w)) (laneA c l) (laneB c l))) s)

def execFfma (p g : Nat) (w : InstrBits) (s : State) : Host.Outcome State Fault Refusal :=
  .next (issue p g 0x22 w (formA w (modUpTo w 3) true true true true)
    (runFloat (fun c l => flush3 (ctxFlush c) (opFfma (fMod w)) (laneA c l) (laneB c l) (laneC c l))) s)

def execFmin (p g : Nat) (w : InstrBits) (s : State) : Host.Outcome State Fault Refusal :=
  .next (issue p g 0x23 w (formTwo w (modZero w))
    (runFloat (fun c l => flush2 (ctxFlush c) (f32MinMax false) (laneA c l) (laneB c l))) s)

def execFmax (p g : Nat) (w : InstrBits) (s : State) : Host.Outcome State Fault Refusal :=
  .next (issue p g 0x24 w (formTwo w (modZero w))
    (runFloat (fun c l => flush2 (ctxFlush c) (f32MinMax true) (laneA c l) (laneB c l))) s)

/-- FCMP: conditions 0 to 6, MOD[3] zero (R116). -/
def execFcmp (p g : Nat) (w : InstrBits) (s : State) : Host.Outcome State Fault Refusal :=
  .next (issue p g 0x25 w (formAPred w (modUpTo w 6))
    (runFloatPred (fun c l => fcmpFlush (ctxFlush c) (fMod w) (laneA c l) (laneB c l))) s)

def execCvt (p g : Nat) (w : InstrBits) (s : State) : Host.Outcome State Fault Refusal :=
  .next (issue p g 0x26 w (formOne w (modUpTo w 11)) (runFloat (fun c l => opCvt (ctxFlush c) (fMod w) (laneA c l))) s)

/-! ### Class X -/

def execEx2 (p g : Nat) (w : InstrBits) (s : State) : Host.Outcome State Fault Refusal :=
  .next (issue p g 0x28 w (formOne w (modZero w)) (runFloat (fun c l => flush1 (ctxFlush c) sfuExp2 (laneA c l))) s)

def execLg2 (p g : Nat) (w : InstrBits) (s : State) : Host.Outcome State Fault Refusal :=
  .next (issue p g 0x29 w (formOne w (modZero w)) (runFloat (fun c l => flush1 (ctxFlush c) sfuLog2 (laneA c l))) s)

def execRcp (p g : Nat) (w : InstrBits) (s : State) : Host.Outcome State Fault Refusal :=
  .next (issue p g 0x2A w (formOne w (modZero w)) (runFloat (fun c l => flush1 (ctxFlush c) sfuRcp (laneA c l))) s)

def execRsq (p g : Nat) (w : InstrBits) (s : State) : Host.Outcome State Fault Refusal :=
  .next (issue p g 0x2B w (formOne w (modZero w)) (runFloat (fun c l => flush1 (ctxFlush c) sfuRsq (laneA c l))) s)

/-! ### Immediate forms (R109) -/

def execIaddi (p g : Nat) (w : InstrBits) (s : State) : Host.Outcome State Fault Refusal :=
  .next (issue p g 0x41 w (formI w (modZero w)) (runReg (fun c l => opAdd (laneA c l) (laneImm c l))) s)

def execIsubi (p g : Nat) (w : InstrBits) (s : State) : Host.Outcome State Fault Refusal :=
  .next (issue p g 0x42 w (formI w (modZero w)) (runReg (fun c l => opSub (laneA c l) (laneImm c l))) s)

def execImuli (p g : Nat) (w : InstrBits) (s : State) : Host.Outcome State Fault Refusal :=
  .next (issue p g 0x43 w (formI w (modZero w)) (runReg (fun c l => opMul (laneA c l) (laneImm c l))) s)

def execImini (p g : Nat) (w : InstrBits) (s : State) : Host.Outcome State Fault Refusal :=
  .next (issue p g 0x46 w (formI w (modUpTo w 1)) (runReg (fun c l => opMin (fMod w) (laneA c l) (laneImm c l))) s)

def execImaxi (p g : Nat) (w : InstrBits) (s : State) : Host.Outcome State Fault Refusal :=
  .next (issue p g 0x47 w (formI w (modUpTo w 1)) (runReg (fun c l => opMax (fMod w) (laneA c l) (laneImm c l))) s)

def execAndi (p g : Nat) (w : InstrBits) (s : State) : Host.Outcome State Fault Refusal :=
  .next (issue p g 0x48 w (formI w (modZero w)) (runReg (fun c l => laneA c l &&& laneImm c l)) s)

def execOri (p g : Nat) (w : InstrBits) (s : State) : Host.Outcome State Fault Refusal :=
  .next (issue p g 0x49 w (formI w (modZero w)) (runReg (fun c l => laneA c l ||| laneImm c l)) s)

def execXori (p g : Nat) (w : InstrBits) (s : State) : Host.Outcome State Fault Refusal :=
  .next (issue p g 0x4A w (formI w (modZero w)) (runReg (fun c l => laneA c l ^^^ laneImm c l)) s)

def execShli (p g : Nat) (w : InstrBits) (s : State) : Host.Outcome State Fault Refusal :=
  .next (issue p g 0x4B w (formI w (modZero w)) (runReg (fun c l => opShl (laneA c l) (laneImm c l))) s)

def execShri (p g : Nat) (w : InstrBits) (s : State) : Host.Outcome State Fault Refusal :=
  .next (issue p g 0x4C w (formI w (modUpTo w 1)) (runReg (fun c l => opShr (fMod w) (laneA c l) (laneImm c l))) s)

def execIcmpi (p g : Nat) (w : InstrBits) (s : State) : Host.Outcome State Fault Refusal :=
  .next (issue p g 0x50 w (formIPred w (decide (fMod w % 8 ≤ 5))) (runPred (fun c l => icmpCond (fMod w) (laneA c l) (laneImm c l))) s)

def execShfli (p g : Nat) (w : InstrBits) (s : State) : Host.Outcome State Fault Refusal :=
  .next (issue p g 0x55 w (formI w (modUpTo w 3)) (runReg (fun c l => opShfl c (laneImm c l) l)) s)

def execFaddi (p g : Nat) (w : InstrBits) (s : State) : Host.Outcome State Fault Refusal :=
  .next (issue p g 0x60 w (formI w (modUpTo w 3))
    (runFloat (fun c l => flush2 (ctxFlush c) (opFadd (fMod w)) (laneA c l) (laneImm c l))) s)

def execFmuli (p g : Nat) (w : InstrBits) (s : State) : Host.Outcome State Fault Refusal :=
  .next (issue p g 0x61 w (formI w (modUpTo w 3))
    (runFloat (fun c l => flush2 (ctxFlush c) (opFmul (fMod w)) (laneA c l) (laneImm c l))) s)

def execFmini (p g : Nat) (w : InstrBits) (s : State) : Host.Outcome State Fault Refusal :=
  .next (issue p g 0x63 w (formI w (modZero w))
    (runFloat (fun c l => flush2 (ctxFlush c) (f32MinMax false) (laneA c l) (laneImm c l))) s)

def execFmaxi (p g : Nat) (w : InstrBits) (s : State) : Host.Outcome State Fault Refusal :=
  .next (issue p g 0x64 w (formI w (modZero w))
    (runFloat (fun c l => flush2 (ctxFlush c) (f32MinMax true) (laneA c l) (laneImm c l))) s)

def execFcmpi (p g : Nat) (w : InstrBits) (s : State) : Host.Outcome State Fault Refusal :=
  .next (issue p g 0x65 w (formIPred w (modUpTo w 6))
    (runFloatPred (fun c l => fcmpFlush (ctxFlush c) (fMod w) (laneA c l) (laneImm c l))) s)

end Sys2Proof.Machine
end

