-- ==== Sys2Proof/Machine/Spdm.lean ====
section
/-! DEFINITION. The SPDM mailbox (R351, R486). An answer is recorded by its SPDM 1.3 response code and the fields that the
manual gives; signatures, nonces and error codes that it leaves open are free values. -/

namespace Sys2Proof.Machine

/-- SPDM 1.3's response code DIGESTS.
Log entry 23 (PRESUMED). -/
abbrev spdmDigests : Nat := 0x01
/-- SPDM 1.3's response code CERTIFICATE.
Log entry 23 (PRESUMED). -/
abbrev spdmCertificate : Nat := 0x02
/-- SPDM 1.3's response code CHALLENGE_AUTH.
Log entries 23 (PRESUMED); 91 (DESIGN CHOICE). -/
abbrev spdmChallengeAuth : Nat := 0x03
/-- SPDM 1.3's response code VERSION.
Log entry 23 (PRESUMED). -/
abbrev spdmVersion : Nat := 0x04
/-- SPDM 1.3's response code MEASUREMENTS.
Log entry 23 (PRESUMED). -/
abbrev spdmMeasurements : Nat := 0x60
/-- SPDM 1.3's response code CAPABILITIES.
Log entry 23 (PRESUMED). -/
abbrev spdmCapabilities : Nat := 0x61
/-- SPDM 1.3's response code ALGORITHMS.
Log entry 23 (PRESUMED). -/
abbrev spdmAlgorithms : Nat := 0x63
/-- SPDM 1.3's response code ERROR.
Log entry 23 (PRESUMED). -/
abbrev spdmError : Nat := 0x7F

/-- The mailbox answers: the port's configuration space is served, from S10 (R349, R351).
Log entry 23 (PRESUMED). -/
def spdmAnswer (s : State) (f : State → State) : State := if portServes s then f s else s

/-- An answer.
Log entry 23 (PRESUMED). -/
def spdmReply (code : Nat) (fields : List (List Byte)) (s : State) : State := emit s (.spdm code fields)

/-- `n` free bytes. -/
def takeFreeBytes (s : State) (n : Nat) : List Byte × State :=
  let f := takeFree s
  ((List.range n).map (fun i => Config.freeByte (f.1 * 4096 + i)), f.2)

/-- An ERROR whose code the manual does not give. -/
def spdmRefuse (s : State) : State :=
  let b := takeFreeBytes s 1
  spdmReply spdmError [b.1] b.2

/-- The certificate chain of slot 0: its length, the digest of the root certificate, and the three certificates (R486). -/
def certChain (s : State) : List Byte :=
  let certs := s.flash.certRoot ++ s.flash.certIssuer ++ s.flash.cert
  leBytes 2 (36 + certs.length) ++ leBytes 2 0 ++ sha256 s.flash.certRoot ++ certs

/-- SPDM_GET_VERSION: version 1.3 (R351). -/
def execSpdmGetVersion (s : State) : Host.Outcome State Fault Refusal := .next (spdmAnswer s (spdmReply spdmVersion [leBytes 2 0x1300]))

/-- SPDM_GET_CAPABILITIES: certificates, challenges and signed measurements, and nothing else (R351). -/
def execSpdmGetCapabilities (s : State) : Host.Outcome State Fault Refusal :=
  .next (spdmAnswer s (spdmReply spdmCapabilities [leBytes 4 0x16]))

/-- SPDM_NEGOTIATE_ALGORITHMS: P-256 (bit 4 of the signature algorithms) and SHA-256 (bit 0 of the hashes) where the requester
offers them, and no other (R351). -/
def execSpdmNegotiateAlgorithms (asym hash : Nat) (s : State) : Host.Outcome State Fault Refusal :=
  .next (spdmAnswer s (spdmReply spdmAlgorithms
    [leBytes 4 (if bit asym 4 then 0x10 else 0), leBytes 4 (if bit hash 0 then 1 else 0)]))

/-- SPDM_GET_DIGESTS: the digest of slot 0's chain (R351). -/
def execSpdmGetDigests (s : State) : Host.Outcome State Fault Refusal :=
  .next (spdmAnswer s (fun st => spdmReply spdmDigests [leBytes 1 1, sha256 (certChain st)] st))

/-- SPDM_GET_CERTIFICATE: a portion of slot 0's chain, and how much follows it; no other slot is supported (R351, R486). -/
def execSpdmGetCertificate (slot offset len : Nat) (s : State) : Host.Outcome State Fault Refusal :=
  .next (spdmAnswer s (fun st =>
    let c := certChain st
    let n := min len (c.length - offset)
    if slot ≠ 0 ∨ c.length ≤ offset then spdmRefuse st
    else spdmReply spdmCertificate [leBytes 1 0, leBytes 2 n, leBytes 2 (c.length - offset - n), slice c offset n] st))

/-- SPDM_CHALLENGE: slot 0's chain digest, a nonce, and a signature with the identity key over a transcript that holds the
requester's nonce (R351, R486). -/
def execSpdmChallenge (slot : Nat) (nonce : List Byte) (s : State) : Host.Outcome State Fault Refusal :=
  .next (spdmAnswer s (fun st =>
    if slot ≠ 0 ∨ nonce.length ≠ 32 then spdmRefuse st
    else
      let b := takeFreeBytes st 96
      spdmReply spdmChallengeAuth [leBytes 1 0, sha256 (certChain st), b.1.take 32, b.1.drop 32] b.2))

/-- A measurement's value type and digest (R486). -/
def measurement (s : State) (i : Nat) : Nat × List Byte :=
  match i with
  | 1 => (0, sha256 s.boot.romBytes)
  | 2 => (1, mapGet [] s.boot.measures 2)
  | 3 => (1, mapGet [] s.boot.measures 3)
  | 4 => (3, mapGet [] s.boot.measures 4)
  | 5 => (2, slice (mapGet [] s.boot.measures 5) 0 32)
  | 6 => (2, sha256 ((s.flash.defects.take (defectCount s)).flatMap (·.bytes)))
  | _ => (3, if s.flash.pack = [] then List.replicate 32 0#8 else sha256 s.flash.pack)

/-- A block of the DMTF measurement format: index, specification 1, size, value type, value size, value.
Log entry 23 (PRESUMED). -/
def measurementBlock (s : State) (i : Nat) : List Byte :=
  let m := measurement s i
  leBytes 1 i ++ leBytes 1 1 ++ leBytes 2 (3 + m.2.length) ++ leBytes 1 m.1 ++ leBytes 2 m.2.length ++ m.2

/-- SPDM_GET_MEASUREMENTS: one block, all of them for index 0xFF, or their number for index 0; signed on request (R486). -/
def execSpdmGetMeasurements (index : Nat) (sign : Bool) (nonce : List Byte) (s : State) : Host.Outcome State Fault Refusal :=
  .next (spdmAnswer s (fun st =>
    if (7 < index ∧ index ≠ 0xFF) ∨ (sign = true ∧ nonce.length ≠ 32) then spdmRefuse st
    else
      let is := if index = 0xFF then [1, 2, 3, 4, 5, 6, 7] else if index = 0 then [] else [index]
      let head := leBytes 1 (if index = 0 then 7 else is.length)
      let blocks := is.map (measurementBlock st)
      if sign then
        let b := takeFreeBytes st 96
        spdmReply spdmMeasurements (head :: blocks ++ [b.1.take 32, b.1.drop 32]) b.2
      else spdmReply spdmMeasurements (head :: blocks) st))

/-- SPDM_UNSUPPORTED_REQUEST: ERROR UnsupportedRequest, with the request's code (R351). -/
def execSpdmUnsupportedRequest (code : Nat) (s : State) : Host.Outcome State Fault Refusal :=
  .next (spdmAnswer s (spdmReply spdmError [leBytes 1 0x07, leBytes 1 code]))

end Sys2Proof.Machine
end

