-- ==== Sys2Proof/Machine/Smbus.lean ====
section
/-! DEFINITION. The SMBus target of J9 (R503). -/

namespace Sys2Proof.Machine

/-- The target answers: from the end of S0, and while start-up is stopped.
Log entry 90 (DEDUCED). -/
def smbusUp (s : State) : Bool := s.boot.powered && !s.boot.resetLow && (decide (1 ≤ s.boot.done) || s.boot.stopped)

/-- Answer a read command; a target that does not answer leaves no trace.
Log entry 78 (DEDUCED). -/
def smbusAnswer (s : State) (data : Option (List Byte)) : State := if smbusUp s then emit s (.smbus data) else s

/-- SMBUS_INPUT_VOLTAGE: command 0x01. -/
def execSmbusInputVoltage (s : State) : Host.Outcome State Fault Refusal :=
  .next (smbusAnswer s (some (leBytes 4 (readNum s Key.inputVoltage))))

/-- SMBUS_INPUT_POWER: command 0x02. -/
def execSmbusInputPower (s : State) : Host.Outcome State Fault Refusal :=
  .next (smbusAnswer s (some (leBytes 4 (readNum s Key.inputPower))))

/-- SMBUS_HOTTEST: command 0x03, the reading of the hottest channel or point; 0 before any has been measured. -/
def execSmbusHottest (s : State) : Host.Outcome State Fault Refusal :=
  .next (smbusAnswer s (some (leBytes 4 (f32Milli (mapGet 0 s.power.temp (hottest s))))))

/-- SMBUS_STAGE: command 0x04. -/
def execSmbusStage (s : State) : Host.Outcome State Fault Refusal := .next (smbusAnswer s (some (leBytes 1 (shownStage s))))

/-- SMBUS_THROTTLE_STEP: command 0x05. -/
def execSmbusThrottleStep (s : State) : Host.Outcome State Fault Refusal :=
  .next (smbusAnswer s (some (leBytes 1 (readNum s Key.throttleStep))))

/-- SMBUS_SERIAL: command 0x06. -/
def execSmbusSerial (s : State) : Host.Outcome State Fault Refusal := .next (smbusAnswer s (some (leBytes 8 (identitySerial s))))

/-- SMBUS_STAGE_RESULT: command 0x07, STAGE_RESULT of the stage in progress or stopped; SMB_ALERT_N is released.
Log entry 90 (DEDUCED). -/
def execSmbusStageResult (s : State) : Host.Outcome State Fault Refusal :=
  .next (
    if smbusUp s then
      let s1 := smbusAnswer s (some (leBytes 2 (readNum s (Key.stageResult s.boot.stage) % 4096)))
      { s1 with boot := { s1.boot with alertLow := false } }
    else s)

/-- SMBUS_OTHER_COMMAND: NACK. -/
def execSmbusOtherCommand (cmd : Nat) (s : State) : Host.Outcome State Fault Refusal :=
  .next (if 1 ≤ cmd ∧ cmd ≤ 7 then s else smbusAnswer s none)

end Sys2Proof.Machine
end

