-- ==== Sys2Proof/Machine/Dispatch.lean ====
section
/-! DEFINITION. The dispatch of commands: one arm for each constructor of `Instr`. -/

namespace Sys2Proof.Machine

open Sys2Proof

/-- The effect of a command on everything but the queue.
Log entry 105 (DESIGN CHOICE). -/
def exec (i : Instr) (s : State) : Host.Outcome State Fault Refusal :=
  match i with
  | .bar2RecordWrite offset data ep => Sys2Proof.Machine.execBar2RecordWrite offset data ep s
  | .bar2Read rd => Sys2Proof.Machine.execBar2Read rd s
  | .intakeTake chk => Sys2Proof.Machine.execIntakeTake chk s
  | .stagingWindowEntry rs => Sys2Proof.Machine.execStagingWindowEntry rs s
  | .stagingAnswer slot => Sys2Proof.Machine.execStagingAnswer slot s
  | .deferredRetry => Sys2Proof.Machine.execDeferredRetry s
  | .sluiceStarved slot => Sys2Proof.Machine.execSluiceStarved slot s
  | .ageLimitExpiry slot => Sys2Proof.Machine.execAgeLimitExpiry slot s
  | .groupPlace half => Sys2Proof.Machine.execGroupPlace half s
  | .groupExit p g => Sys2Proof.Machine.execGroupExit p g s
  | .taskRetire slot => Sys2Proof.Machine.execTaskRetire slot s
  | .taskFaultSettle slot => Sys2Proof.Machine.execTaskFaultSettle slot s
  | .taskTimeout slot => Sys2Proof.Machine.execTaskTimeout slot s
  | .drainDeadline fn => Sys2Proof.Machine.execDrainDeadline fn s
  | .nop p g w => Sys2Proof.Machine.execNop p g w s
  | .iadd p g w => Sys2Proof.Machine.execIadd p g w s
  | .isub p g w => Sys2Proof.Machine.execIsub p g w s
  | .imul p g w => Sys2Proof.Machine.execImul p g w s
  | .imulhi p g w => Sys2Proof.Machine.execImulhi p g w s
  | .imad p g w => Sys2Proof.Machine.execImad p g w s
  | .imin p g w => Sys2Proof.Machine.execImin p g w s
  | .imax p g w => Sys2Proof.Machine.execImax p g w s
  | .andOp p g w => Sys2Proof.Machine.execAndOp p g w s
  | .orOp p g w => Sys2Proof.Machine.execOrOp p g w s
  | .xorOp p g w => Sys2Proof.Machine.execXorOp p g w s
  | .shl p g w => Sys2Proof.Machine.execShl p g w s
  | .shr p g w => Sys2Proof.Machine.execShr p g w s
  | .popc p g w => Sys2Proof.Machine.execPopc p g w s
  | .clz p g w => Sys2Proof.Machine.execClz p g w s
  | .icmp p g w => Sys2Proof.Machine.execIcmp p g w s
  | .sel p g w => Sys2Proof.Machine.execSel p g w s
  | .mov p g w => Sys2Proof.Machine.execMov p g w s
  | .movi p g w => Sys2Proof.Machine.execMovi p g w s
  | .plop p g w => Sys2Proof.Machine.execPlop p g w s
  | .shfl p g w => Sys2Proof.Machine.execShfl p g w s
  | .vote p g w => Sys2Proof.Machine.execVote p g w s
  | .fadd p g w => Sys2Proof.Machine.execFadd p g w s
  | .fmul p g w => Sys2Proof.Machine.execFmul p g w s
  | .ffma p g w => Sys2Proof.Machine.execFfma p g w s
  | .fmin p g w => Sys2Proof.Machine.execFmin p g w s
  | .fmax p g w => Sys2Proof.Machine.execFmax p g w s
  | .fcmp p g w => Sys2Proof.Machine.execFcmp p g w s
  | .cvt p g w => Sys2Proof.Machine.execCvt p g w s
  | .ex2 p g w => Sys2Proof.Machine.execEx2 p g w s
  | .lg2 p g w => Sys2Proof.Machine.execLg2 p g w s
  | .rcp p g w => Sys2Proof.Machine.execRcp p g w s
  | .rsq p g w => Sys2Proof.Machine.execRsq p g w s
  | .iaddi p g w => Sys2Proof.Machine.execIaddi p g w s
  | .isubi p g w => Sys2Proof.Machine.execIsubi p g w s
  | .imuli p g w => Sys2Proof.Machine.execImuli p g w s
  | .imini p g w => Sys2Proof.Machine.execImini p g w s
  | .imaxi p g w => Sys2Proof.Machine.execImaxi p g w s
  | .andi p g w => Sys2Proof.Machine.execAndi p g w s
  | .ori p g w => Sys2Proof.Machine.execOri p g w s
  | .xori p g w => Sys2Proof.Machine.execXori p g w s
  | .shli p g w => Sys2Proof.Machine.execShli p g w s
  | .shri p g w => Sys2Proof.Machine.execShri p g w s
  | .icmpi p g w => Sys2Proof.Machine.execIcmpi p g w s
  | .shfli p g w => Sys2Proof.Machine.execShfli p g w s
  | .faddi p g w => Sys2Proof.Machine.execFaddi p g w s
  | .fmuli p g w => Sys2Proof.Machine.execFmuli p g w s
  | .fmini p g w => Sys2Proof.Machine.execFmini p g w s
  | .fmaxi p g w => Sys2Proof.Machine.execFmaxi p g w s
  | .fcmpi p g w => Sys2Proof.Machine.execFcmpi p g w s
  | .ld p g w => Sys2Proof.Machine.execLd p g w s
  | .st p g w => Sys2Proof.Machine.execSt p g w s
  | .atom p g w => Sys2Proof.Machine.execAtom p g w s
  | .red p g w => Sys2Proof.Machine.execRed p g w s
  | .bra p g w => Sys2Proof.Machine.execBra p g w s
  | .brx p g w => Sys2Proof.Machine.execBrx p g w s
  | .bar p g w => Sys2Proof.Machine.execBar p g w s
  | .tbar p g w => Sys2Proof.Machine.execTbar p g w s
  | .exit p g w => Sys2Proof.Machine.execExit p g w s
  | .cwait p g w => Sys2Proof.Machine.execCwait p g w s
  | .fence p g w => Sys2Proof.Machine.execFence p g w s
  | .mma p g w => Sys2Proof.Machine.execMma p g w s
  | .mfrag p g w => Sys2Proof.Machine.execMfrag p g w s
  | .weir p g w => Sys2Proof.Machine.execWeir p g w s
  | .spawn p g w => Sys2Proof.Machine.execSpawn p g w s
  | .pub p g w => Sys2Proof.Machine.execPub p g w s
  | .srd p g w => Sys2Proof.Machine.execSrd p g w s
  | .loadDataReturn p g id chk => Sys2Proof.Machine.execLoadDataReturn p g id chk s
  | .writeAcceptance p g id => Sys2Proof.Machine.execWriteAcceptance p g id s
  | .fetchLineReturn p g chk => Sys2Proof.Machine.execFetchLineReturn p g chk s
  | .barrierRelease p g b => Sys2Proof.Machine.execBarrierRelease p g b s
  | .taskBarrierRelease slot => Sys2Proof.Machine.execTaskBarrierRelease slot s
  | .arrayOpStart p a => Sys2Proof.Machine.execArrayOpStart p a s
  | .arrayOpComplete p a chk => Sys2Proof.Machine.execArrayOpComplete p a chk s
  | .mfragWindowStart p a => Sys2Proof.Machine.execMfragWindowStart p a s
  | .mfragComplete p a chk => Sys2Proof.Machine.execMfragComplete p a chk s
  | .lxuExpand p => Sys2Proof.Machine.execLxuExpand p s
  | .lytTranspose p => Sys2Proof.Machine.execLytTranspose p s
  | .lytIngest p => Sys2Proof.Machine.execLytIngest p s
  | .weirCommandComplete p unit chk => Sys2Proof.Machine.execWeirCommandComplete p unit chk s
  | .pageWalk p id rs => Sys2Proof.Machine.execPageWalk p id rs s
  | .walkerInvalidate seq page => Sys2Proof.Machine.execWalkerInvalidate seq page s
  | .scrubRead p chk => Sys2Proof.Machine.execScrubRead p chk s
  | .promoteRequest p seq page => Sys2Proof.Machine.execPromoteRequest p seq page s
  | .promotionCopyComplete p => Sys2Proof.Machine.execPromotionCopyComplete p s
  | .sliceIntake g port chk => Sys2Proof.Machine.execSliceIntake g port chk s
  | .sectorFill g line sector => Sys2Proof.Machine.execSectorFill g line sector s
  | .reductionApply g chk => Sys2Proof.Machine.execReductionApply g chk s
  | .reduceForce g set => Sys2Proof.Machine.execReduceForce g set s
  | .thrashWindowEnd => Sys2Proof.Machine.execThrashWindowEnd s
  | .cisternWatchdog g => Sys2Proof.Machine.execCisternWatchdog g s
  | .sillTransfer dir ok => Sys2Proof.Machine.execSillTransfer dir ok s
  | .pinWaysApply half => Sys2Proof.Machine.execPinWaysApply half s
  | .poolPagesApply half => Sys2Proof.Machine.execPoolPagesApply half s
  | .reservoirReadRequest g id => Sys2Proof.Machine.execReservoirReadRequest g id s
  | .reservoirReadReturn stack ch ok ecc => Sys2Proof.Machine.execReservoirReadReturn stack ch ok ecc s
  | .reservoirWriteRequest g => Sys2Proof.Machine.execReservoirWriteRequest g s
  | .reservoirWriteDrain stack ch => Sys2Proof.Machine.execReservoirWriteDrain stack ch s
  | .refresh stack ch => Sys2Proof.Machine.execRefresh stack ch s
  | .channelRetrain stack ch => Sys2Proof.Machine.execChannelRetrain stack ch s
  | .demandFault p id => Sys2Proof.Machine.execDemandFault p id s
  | .hostLookahead => Sys2Proof.Machine.execHostLookahead s
  | .pageInComplete seq page data => Sys2Proof.Machine.execPageInComplete seq page data s
  | .pageoutStart half => Sys2Proof.Machine.execPageoutStart half s
  | .pageoutComplete seq page ok => Sys2Proof.Machine.execPageoutComplete seq page ok s
  | .seqRelease w => Sys2Proof.Machine.execSeqRelease w s
  | .seqQuery w => Sys2Proof.Machine.execSeqQuery w s
  | .flitReceive link frame => Sys2Proof.Machine.execFlitReceive link frame s
  | .readPacket link chk => Sys2Proof.Machine.execReadPacket link chk s
  | .writePacket link => Sys2Proof.Machine.execWritePacket link s
  | .writeMaskedPacket link => Sys2Proof.Machine.execWriteMaskedPacket link s
  | .atomPacket link => Sys2Proof.Machine.execAtomPacket link s
  | .postPacket link => Sys2Proof.Machine.execPostPacket link s
  | .signalPacket link => Sys2Proof.Machine.execSignalPacket link s
  | .readDataPacket link => Sys2Proof.Machine.execReadDataPacket link s
  | .writeAckPacket link => Sys2Proof.Machine.execWriteAckPacket link s
  | .atomDataPacket link => Sys2Proof.Machine.execAtomDataPacket link s
  | .postResultPacket link => Sys2Proof.Machine.execPostResultPacket link s
  | .refusedPacket link => Sys2Proof.Machine.execRefusedPacket link s
  | .redPacket link => Sys2Proof.Machine.execRedPacket link s
  | .redMaskedPacket link => Sys2Proof.Machine.execRedMaskedPacket link s
  | .dictPacket link => Sys2Proof.Machine.execDictPacket link s
  | .retryReqPacket link => Sys2Proof.Machine.execRetryReqPacket link s
  | .nullPacket link => Sys2Proof.Machine.execNullPacket link s
  | .poolAssign link x y z => Sys2Proof.Machine.execPoolAssign link x y z s
  | .poolJoin device tier shape keeper fountain => Sys2Proof.Machine.execPoolJoin device tier shape keeper fountain s
  | .poolFormationDeadline => Sys2Proof.Machine.execPoolFormationDeadline s
  | .poolStateQuery answers => Sys2Proof.Machine.execPoolStateQuery answers s
  | .poolLoss a b => Sys2Proof.Machine.execPoolLoss a b s
  | .poolWithdraw link => Sys2Proof.Machine.execPoolWithdraw link s
  | .poolReset device => Sys2Proof.Machine.execPoolReset device s
  | .replayTimeout link => Sys2Proof.Machine.execReplayTimeout link s
  | .linkRetrain cause => Sys2Proof.Machine.execLinkRetrain cause s
  | .linkRetrainComplete train => Sys2Proof.Machine.execLinkRetrainComplete train s
  | .linkDownTimeout link => Sys2Proof.Machine.execLinkDownTimeout link s
  | .peerTimeout peer tag => Sys2Proof.Machine.execPeerTimeout peer tag s
  | .linkEnable w => Sys2Proof.Machine.execLinkEnable w s
  | .poolMembers members => Sys2Proof.Machine.execPoolMembers members s
  | .pcieConfigRequest req => Sys2Proof.Machine.execPcieConfigRequest req s
  | .hostLinkTrained rate width flit => Sys2Proof.Machine.execHostLinkTrained rate width flit s
  | .portReset cause => Sys2Proof.Machine.execPortReset cause s
  | .bar4Read rd chk => Sys2Proof.Machine.execBar4Read rd chk s
  | .bar4Write offset data ep => Sys2Proof.Machine.execBar4Write offset data ep s
  | .bar0DirectRead rd => Sys2Proof.Machine.execBar0DirectRead rd s
  | .bar0ChannelSubmit chan request len ep => Sys2Proof.Machine.execBar0ChannelSubmit chan request len ep s
  | .bar0InvalidAccess rd write => Sys2Proof.Machine.execBar0InvalidAccess rd write s
  | .copyGo w => Sys2Proof.Machine.execCopyGo w s
  | .hostCopyMoveComplete ok data => Sys2Proof.Machine.execHostCopyMoveComplete ok data s
  | .spdmGetVersion => Sys2Proof.Machine.execSpdmGetVersion s
  | .spdmGetCapabilities => Sys2Proof.Machine.execSpdmGetCapabilities s
  | .spdmNegotiateAlgorithms asym hash => Sys2Proof.Machine.execSpdmNegotiateAlgorithms asym hash s
  | .spdmGetDigests => Sys2Proof.Machine.execSpdmGetDigests s
  | .spdmGetCertificate slot offset len => Sys2Proof.Machine.execSpdmGetCertificate slot offset len s
  | .spdmChallenge slot nonce => Sys2Proof.Machine.execSpdmChallenge slot nonce s
  | .spdmGetMeasurements index sign nonce => Sys2Proof.Machine.execSpdmGetMeasurements index sign nonce s
  | .spdmUnsupportedRequest code => Sys2Proof.Machine.execSpdmUnsupportedRequest code s
  | .casaroRead req => Sys2Proof.Machine.execCasaroRead req s
  | .casaroWrite req => Sys2Proof.Machine.execCasaroWrite req s
  | .casaroList req => Sys2Proof.Machine.execCasaroList req s
  | .casaroDescribe req => Sys2Proof.Machine.execCasaroDescribe req s
  | .casaroBegin req => Sys2Proof.Machine.execCasaroBegin req s
  | .casaroPrepare req => Sys2Proof.Machine.execCasaroPrepare req s
  | .casaroCommit req => Sys2Proof.Machine.execCasaroCommit req s
  | .casaroRollback req => Sys2Proof.Machine.execCasaroRollback req s
  | .casaroHello req => Sys2Proof.Machine.execCasaroHello req s
  | .casaroResend req => Sys2Proof.Machine.execCasaroResend req s
  | .dictRelayTimeout dev tag => Sys2Proof.Machine.execDictRelayTimeout dev tag s
  | .txnTimeout => Sys2Proof.Machine.execTxnTimeout s
  | .timedCommitInstant => Sys2Proof.Machine.execTimedCommitInstant s
  | .objectWrite w => Sys2Proof.Machine.execObjectWrite w s
  | .intakeErrorWrite w => Sys2Proof.Machine.execIntakeErrorWrite w s
  | .eventQuery w => Sys2Proof.Machine.execEventQuery w s
  | .defectQuery w => Sys2Proof.Machine.execDefectQuery w s
  | .coreEnable w => Sys2Proof.Machine.execCoreEnable w s
  | .classEnable w => Sys2Proof.Machine.execClassEnable w s
  | .minReset w => Sys2Proof.Machine.execMinReset w s
  | .snapshot w => Sys2Proof.Machine.execSnapshot w s
  | .snapshotAt => Sys2Proof.Machine.execSnapshotAt s
  | .secondsLoad w => Sys2Proof.Machine.execSecondsLoad w s
  | .arithClock w => Sys2Proof.Machine.execArithClock w s
  | .acceptUntested w => Sys2Proof.Machine.execAcceptUntested w s
  | .warmReset w => Sys2Proof.Machine.execWarmReset w s
  | .cisternReset w => Sys2Proof.Machine.execCisternReset w s
  | .cisternResetDrainEnd => Sys2Proof.Machine.execCisternResetDrainEnd s
  | .regulationAdmit point inst cls => Sys2Proof.Machine.execRegulationAdmit point inst cls s
  | .svcCancel w => Sys2Proof.Machine.execSvcCancel w s
  | .defectSweep w => Sys2Proof.Machine.execDefectSweep w s
  | .sweepBlockCommit found => Sys2Proof.Machine.execSweepBlockCommit found s
  | .spotTest w => Sys2Proof.Machine.execSpotTest w s
  | .testPackAppend w => Sys2Proof.Machine.execTestPackAppend w s
  | .testPackInstall w => Sys2Proof.Machine.execTestPackInstall w s
  | .testPackInstallPool w => Sys2Proof.Machine.execTestPackInstallPool w s
  | .testPackRun w => Sys2Proof.Machine.execTestPackRun w s
  | .coreTestComplete t => Sys2Proof.Machine.execCoreTestComplete t s
  | .firmwareUpdate w => Sys2Proof.Machine.execFirmwareUpdate w s
  | .firmwareUpdatePhase => Sys2Proof.Machine.execFirmwareUpdatePhase s
  | .licenceLoad w => Sys2Proof.Machine.execLicenceLoad w s
  | .failureSignatureExport w => Sys2Proof.Machine.execFailureSignatureExport w s
  | .defectEntryClearing w => Sys2Proof.Machine.execDefectEntryClearing w s
  | .flashStore ok => Sys2Proof.Machine.execFlashStore ok s
  | .coldStart => Sys2Proof.Machine.execColdStart s
  | .resetN level => Sys2Proof.Machine.execResetN level s
  | .keeperWatchdog => Sys2Proof.Machine.execKeeperWatchdog s
  | .stageS0 obs => Sys2Proof.Machine.execStageS0 obs s
  | .stageS1 locks => Sys2Proof.Machine.execStageS1 locks s
  | .stageS2 random linkRate linkWidth => Sys2Proof.Machine.execStageS2 random linkRate linkWidth s
  | .stageS3 obs => Sys2Proof.Machine.execStageS3 obs s
  | .stageS4 obs => Sys2Proof.Machine.execStageS4 obs s
  | .stageS5 failedCores => Sys2Proof.Machine.execStageS5 failedCores s
  | .stageS6 trains => Sys2Proof.Machine.execStageS6 trains s
  | .stageS7 trains => Sys2Proof.Machine.execStageS7 trains s
  | .stageS8 => Sys2Proof.Machine.execStageS8 s
  | .stageS9 => Sys2Proof.Machine.execStageS9 s
  | .stageS10 => Sys2Proof.Machine.execStageS10 s
  | .thermalRestart => Sys2Proof.Machine.execThermalRestart s
  | .inletFault => Sys2Proof.Machine.execInletFault s
  | .inletRestored => Sys2Proof.Machine.execInletRestored s
  | .presentNRelease => Sys2Proof.Machine.execPresentNRelease s
  | .housekeepingRound r => Sys2Proof.Machine.execHousekeepingRound r s
  | .regulatorFailed cluster reg => Sys2Proof.Machine.execRegulatorFailed cluster reg s
  | .converterFailed phase => Sys2Proof.Machine.execConverterFailed phase s
  | .senseLost phase => Sys2Proof.Machine.execSenseLost phase s
  | .railFault rail => Sys2Proof.Machine.execRailFault rail s
  | .ppsPulse => Sys2Proof.Machine.execPpsPulse s
  | .ppsMissing => Sys2Proof.Machine.execPpsMissing s
  | .clockLock clock => Sys2Proof.Machine.execClockLock clock s
  | .verticalLaneTest path finding serves => Sys2Proof.Machine.execVerticalLaneTest path finding serves s
  | .sliceRetired g => Sys2Proof.Machine.execSliceRetired g s
  | .smbusInputVoltage => Sys2Proof.Machine.execSmbusInputVoltage s
  | .smbusInputPower => Sys2Proof.Machine.execSmbusInputPower s
  | .smbusHottest => Sys2Proof.Machine.execSmbusHottest s
  | .smbusStage => Sys2Proof.Machine.execSmbusStage s
  | .smbusThrottleStep => Sys2Proof.Machine.execSmbusThrottleStep s
  | .smbusSerial => Sys2Proof.Machine.execSmbusSerial s
  | .smbusStageResult => Sys2Proof.Machine.execSmbusStageResult s
  | .smbusOtherCommand cmd => Sys2Proof.Machine.execSmbusOtherCommand cmd s
  | .channelRetrainComplete stack ch ok => Sys2Proof.Machine.execChannelRetrainComplete stack ch ok s
  | .reservoirWriteBurstComplete stack ch ok => Sys2Proof.Machine.execReservoirWriteBurstComplete stack ch ok s
  | .pcieRefclkReturn rate width flit => Sys2Proof.Machine.execPcieRefclkReturn rate width flit s
  | .spotTestWaitMsExpiry p => Sys2Proof.Machine.execSpotTestWaitMsExpiry p s

end Sys2Proof.Machine
end

