-- ==== Sys2Proof/Machine/Step.lean ====
section
/-! DEFINITION. One step of the block: the command at the front of the queue takes effect; with no command waiting,
the block's clock advances. -/

namespace Sys2Proof.Machine

open Sys2Proof

/-- One step: take the command at the front of the queue and carry it out on the state with the rest of the queue; with
an empty queue nothing is commanded, one nanosecond of the timebase passes (R448), and idle links send NULL frames (R309).
Log entries 1 (DESIGN CHOICE); 2 (DESIGN CHOICE). -/
def step (s : State) : Host.Outcome State Fault Refusal :=
  match s.pending with
  | c :: rest => exec c { s with pending := rest }
  | [] => .next (sendIdle (tick s))

/-- The state with the command that a word spells put at the front of the queue; unchanged where it spells none.
Log entry 1 (DESIGN CHOICE). -/
def State.withFetchWord (s : State) (nbits w : Nat) : State :=
  match decodeTableWord nbits w with
  | some c => { s with pending := c :: s.pending }
  | none => s

end Sys2Proof.Machine
end

