-- ==== Sys2Proof/Safety.lean ====
section
/-! DEFINITION. What counts as a safe step, and the terms in which the claims speak of states: what a group is about to
issue, what an instruction leaves alone, and the invariants of the block. -/

namespace Sys2Proof.Machine

/-- A step that ends in a next state: the block neither stops with a fault nor meets a command without a meaning. -/
def StepsOn (s : State) : Prop := ∃ t, step s = .next t

/-! ### Issue -/

/-- The group in slot `g` of position `p` is ready (R78), its next instruction is the word of opcode `op` with the other
bits `w` (R104), the word's fields are ones that R107 allows (`f.valid`), every register it names is below REGS or is the
zero register (R106), and no register it reads has a write pending (R78). `c` is what it issues with. -/
abbrev Issues (s : State) (p g op : Nat) (w : InstrBits) (f : Form) (c : Ctx) : Prop :=
  readyGroup s p g w = some c ∧ fetchedWord (recEntry c.sl.words) c.path.pc c.gr = some (op * 2 ^ 56 + w.toNat) ∧
    f.valid = true ∧ (f.reads ++ f.writes).all (runOk c.gr) = true ∧ readsPending c.gr f = false

/-- A general register of a lane, as 32 bits. -/
abbrev regBits (gr : Group) (r l : Nat) : BitVec 32 := BitVec.ofNat 32 (getReg gr r l)

/-! ### Frames -/

/-- A slot but for what a fault or a barrier arrival records in it. -/
def Slot.settled (sl : Slot) : Slot := { sl with faults := 0, ending := none, tbar := [] }

/-- A group but for its registers, its paths and the mark that ends it. -/
def Group.rest (gr : Group) : Group := { gr with gpr := [], preds := [], paths := [], splits := [], ended := false }

/-- The Keeper but for what events change: counters, the event ring and the frames sent. -/
def Keeper.rest (k : Keeper) : Keeper := { k with obj := [], ring := [], eventSeq := 0, sentAt := [] }

/-- A group as it was, or ended since by a fault of its task (R66). -/
def GroupKept (a b : Option Group) : Prop := b = a ∨ b = a.map (fun gr => { gr with ended := true })

/-- What an instruction of the group in slot `g` of position `p`, of the task in slot `n`, that touches no memory leaves
alone: every other block, every memory, every other group and slot. A fault that the group's paths meet (R87) may be
recorded in the task's slot and sent as an event. -/
structure CoreFrame (s t : State) (p g n : Nat) : Prop where
  pending : t.pending = s.pending
  free : t.free = s.free
  time : t.time = s.time
  boot : t.boot = s.boot
  flash : t.flash = s.flash
  power : t.power = s.power
  cistern : t.cistern = s.cistern
  reservoir : t.reservoir = s.reservoir
  sluice : t.sluice = s.sluice
  links : t.links = s.links
  pool : t.pool = s.pool
  port : t.port = s.port
  keeper : t.keeper.rest = s.keeper.rest
  fountain : { t.fountain with slots := [] } = { s.fountain with slots := [] }
  slots : ∀ m, m ≠ n → getSlot t m = getSlot s m
  slot : (getSlot t n).map Slot.settled = (getSlot s n).map Slot.settled
  position : ∀ q, { getPos t q with groups := [] } = { getPos s q with groups := [] }
  groups : ∀ q h, ¬(q = p ∧ h = g) → GroupKept (getGroup s q h) (getGroup t q h)

/-- The current path goes on at the next instruction, 8 bytes on (R104). Where the group has split, its paths may besides
reach their reconvergence points and merge (R82), which this does not describe. -/
def Advanced (c : Ctx) (gr : Group) : Prop :=
  c.gr.splits = [] → c.gr.paths = [c.path] → c.path.lanes ≠ 0#32 →
    gr.splits = [] ∧ gr.paths = [{ c.path with pc := (c.path.pc + 8) % 2 ^ 32 }]

/-- No event is sent and the task does not fault while some path of the group can run (R86, R87). -/
def Quiet (s t : State) (gr : Group) (n : Nat) : Prop :=
  (∃ q ∈ gr.paths, q.st = .runnable) →
    t.keeper = s.keeper ∧ t.out = s.out ∧ (getSlot t n).map (·.ending) = (getSlot s n).map (·.ending)

/-- The instruction wrote general register `r` with `v l` in each executing lane `l`, and nothing else: register 255
takes nothing (R106). -/
def WroteReg (s t : State) (c : Ctx) (r : Nat) (v : Nat → BitVec 32) : Prop :=
  ∃ gr, getGroup t c.p c.g = some gr ∧
    (∀ k l, l < 32 → getReg gr k l = if k = r ∧ r ≠ 255 ∧ c.ex.getLsbD l = true then (v l).toNat else getReg c.gr k l) ∧
    (∀ k l, getPred gr k l = getPred c.gr k l) ∧ gr.rest = c.gr.rest ∧ Advanced c gr ∧ Quiet s t gr c.gr.slot ∧
    CoreFrame s t c.p c.g c.gr.slot

/-- The instruction wrote predicate `r` with `v l` in each executing lane `l`, and nothing else: predicate 7 takes
nothing (R116). -/
def WrotePred (s t : State) (c : Ctx) (r : Nat) (v : Nat → Bool) : Prop :=
  ∃ gr, getGroup t c.p c.g = some gr ∧
    (∀ k l, l < 32 → getPred gr k l = if k = r ∧ r ≠ 7 ∧ c.ex.getLsbD l = true then v l else getPred c.gr k l) ∧
    (∀ k l, getReg gr k l = getReg c.gr k l) ∧ gr.rest = c.gr.rest ∧ Advanced c gr ∧ Quiet s t gr c.gr.slot ∧
    CoreFrame s t c.p c.g c.gr.slot

/-! ### Lane instructions -/

/-- A lane instruction as the opcode table gives it (R115): its command, its opcode, the form of its word, and the value
of DST from MOD and the sources a, b and c. -/
structure LaneRow where
  instr : Nat → Nat → InstrBits → Instr
  op : Nat
  form : InstrBits → Form
  val : Nat → BitVec 32 → BitVec 32 → BitVec 32 → BitVec 32

/-- The number of set bits. -/
def setBits (a : BitVec 32) : Nat := ((List.range 32).filter a.getLsbD).length

/-- The number of leading zeros, 32 for 0. -/
def leadingZeros (a : BitVec 32) : Nat := ((List.range 32).find? (fun n => a.getLsbD (31 - n))).getD 32

/-- The high 32 bits of a product of two 64-bit numbers. -/
def highWord (x : BitVec 64) : BitVec 32 := (x >>> 32).truncate 32

/-- a is below b, signed when MOD[0] is 1 (R115). -/
def isLess (mod : Nat) (a b : BitVec 32) : Bool := if mod % 2 = 1 then a.slt b else a.ult b

/-- The two-source integer instructions that have both forms: their values (R109, R115, R116). -/
def valAdd (_ : Nat) (a b _ : BitVec 32) : BitVec 32 := a + b
def valSub (_ : Nat) (a b _ : BitVec 32) : BitVec 32 := a - b
def valMul (_ : Nat) (a b _ : BitVec 32) : BitVec 32 := a * b
def valMin (m : Nat) (a b _ : BitVec 32) : BitVec 32 := if isLess m b a then b else a
def valMax (m : Nat) (a b _ : BitVec 32) : BitVec 32 := if isLess m a b then b else a
def valAnd (_ : Nat) (a b _ : BitVec 32) : BitVec 32 := a &&& b
def valOr (_ : Nat) (a b _ : BitVec 32) : BitVec 32 := a ||| b
def valXor (_ : Nat) (a b _ : BitVec 32) : BitVec 32 := a ^^^ b
def valShl (_ : Nat) (a b _ : BitVec 32) : BitVec 32 := a <<< (b &&& 31#32)
def valShr (m : Nat) (a b _ : BitVec 32) : BitVec 32 :=
  if m % 2 = 1 then a.sshiftRight (b &&& 31#32).toNat else a >>> (b &&& 31#32)

/-- The integer instructions of format A that write a register (R115, R116). -/
def intRows : List LaneRow :=
  [{ instr := .iadd, op := 0x01, form := fun w => formTwo w (modZero w), val := valAdd },
   { instr := .isub, op := 0x02, form := fun w => formTwo w (modZero w), val := valSub },
   { instr := .imul, op := 0x03, form := fun w => formTwo w (modZero w), val := valMul },
   { instr := .imulhi, op := 0x04, form := fun w => formTwo w (modUpTo w 1),
     val := fun m a b _ => if m % 2 = 1 then highWord (a.signExtend 64 * b.signExtend 64) else highWord (a.zeroExtend 64 * b.zeroExtend 64) },
   { instr := .imad, op := 0x05, form := fun w => formA w (modZero w) true true true true, val := fun _ a b c => a * b + c },
   { instr := .imin, op := 0x06, form := fun w => formTwo w (modUpTo w 1), val := valMin },
   { instr := .imax, op := 0x07, form := fun w => formTwo w (modUpTo w 1), val := valMax },
   { instr := .andOp, op := 0x08, form := fun w => formTwo w (modZero w), val := valAnd },
   { instr := .orOp, op := 0x09, form := fun w => formTwo w (modZero w), val := valOr },
   { instr := .xorOp, op := 0x0A, form := fun w => formTwo w (modZero w), val := valXor },
   { instr := .shl, op := 0x0B, form := fun w => formTwo w (modZero w), val := valShl },
   { instr := .shr, op := 0x0C, form := fun w => formTwo w (modUpTo w 1), val := valShr },
   { instr := .popc, op := 0x0D, form := fun w => formOne w (modZero w), val := fun _ a _ _ => BitVec.ofNat 32 (setBits a) },
   { instr := .clz, op := 0x0E, form := fun w => formOne w (modZero w), val := fun _ a _ _ => BitVec.ofNat 32 (leadingZeros a) },
   { instr := .mov, op := 0x12, form := fun w => formOne w (modZero w), val := fun _ a _ _ => a }]

/-- The immediate forms of the integer instructions, and MOVI (R109): b is IMM32. -/
def immRows : List LaneRow :=
  [{ instr := .iaddi, op := 0x41, form := fun w => formI w (modZero w), val := valAdd },
   { instr := .isubi, op := 0x42, form := fun w => formI w (modZero w), val := valSub },
   { instr := .imuli, op := 0x43, form := fun w => formI w (modZero w), val := valMul },
   { instr := .imini, op := 0x46, form := fun w => formI w (modUpTo w 1), val := valMin },
   { instr := .imaxi, op := 0x47, form := fun w => formI w (modUpTo w 1), val := valMax },
   { instr := .andi, op := 0x48, form := fun w => formI w (modZero w), val := valAnd },
   { instr := .ori, op := 0x49, form := fun w => formI w (modZero w), val := valOr },
   { instr := .xori, op := 0x4A, form := fun w => formI w (modZero w), val := valXor },
   { instr := .shli, op := 0x4B, form := fun w => formI w (modZero w), val := valShl },
   { instr := .shri, op := 0x4C, form := fun w => formI w (modUpTo w 1), val := valShr },
   { instr := .movi, op := 0x13, form := fun w => { valid := modZero w && fSrcA w == 0, reads := [], writes := [(fDst w, 1)] },
     val := fun _ _ b _ => b }]

/-- A condition of ICMP and ICMPI: MOD[2:0] EQ, NE, LT, LE, GT or GE, signed when MOD[3] is set (R116). -/
def intCond (m : Nat) (a b : BitVec 32) : Bool :=
  let lt := if m / 8 % 2 = 1 then a.slt b else a.ult b
  let le := if m / 8 % 2 = 1 then a.sle b else a.ule b
  match m % 8 with
  | 0 => a == b
  | 1 => a != b
  | 2 => lt
  | 3 => le
  | 4 => !le
  | 5 => !lt
  | _ => false

/-- A condition of FCMP on two binary32 values: MOD[2:0] EQ, NE, LT, LE, GT, GE or UNORD (R116). -/
def floatCond (m : Nat) (x y : FVal) : Bool :=
  match m with
  | 0 => x != .nan && y != .nan && FVal.eq x y
  | 1 => x == .nan || y == .nan || !(FVal.eq x y)
  | 2 => x != .nan && y != .nan && FVal.lt x y
  | 3 => x != .nan && y != .nan && (FVal.lt x y || FVal.eq x y)
  | 4 => x != .nan && y != .nan && FVal.lt y x
  | 5 => x != .nan && y != .nan && (FVal.lt y x || FVal.eq x y)
  | 6 => x == .nan || y == .nan
  | _ => false

/-- A binary32 code with a subnormal taken as zero of its sign where the task's FLUSH bit is 1 (R173). -/
def flushed32 (on : Bool) (x : BitVec 32) : BitVec 32 :=
  if on && x &&& 0x7F800000#32 == 0#32 && x &&& 0x007FFFFF#32 != 0#32 then x &&& 0x80000000#32 else x

/-- FLUSH replaced the code. -/
def flushes32 (on : Bool) (x : BitVec 32) : Bool := flushed32 on x != x

/-- The value of a binary32 code. -/
def value32 (x : BitVec 32) : FVal := fDecode fmtF32 x.toNat

/-- A value rounded once to binary32, to nearest, ties to even (R172). -/
def round32 (v : FVal) : BitVec 32 := BitVec.ofNat 32 (fEncode fmtF32 false v)

/-- −x of a binary32 code where a MOD bit says so (R117). -/
def negated32 (on : Bool) (x : BitVec 32) : BitVec 32 := if on then x ^^^ 0x80000000#32 else x

/-- FADD, FMUL and FFMA on the flushed operands, and FMIN and FMAX (R117). MOD[1] negates a; MOD[0] negates b, and in
FFMA c. -/
def valFadd (m : Nat) (a b _ : BitVec 32) : BitVec 32 :=
  round32 (FVal.add (value32 (negated32 (m / 2 % 2 == 1) a)) (value32 (negated32 (m % 2 == 1) b)))
def valFmul (m : Nat) (a b _ : BitVec 32) : BitVec 32 :=
  round32 (FVal.mul (value32 (negated32 (m / 2 % 2 == 1) a)) (value32 (negated32 (m % 2 == 1) b)))
def valFfma (m : Nat) (a b c : BitVec 32) : BitVec 32 :=
  round32 (FVal.add (FVal.mul (value32 (negated32 (m / 2 % 2 == 1) a)) (value32 b)) (value32 (negated32 (m % 2 == 1) c)))

/-- FMIN and FMAX: the other operand where one is a NaN, 0x7FC0_0000 where both are, −0 below +0 (R117). -/
def valFminmax (isMax : Bool) (_ : Nat) (a b _ : BitVec 32) : BitVec 32 :=
  if value32 a == .nan && value32 b == .nan then 0x7FC00000#32
  else if value32 a == .nan then b
  else if value32 b == .nan then a
  else
    let below := FVal.lt (value32 a) (value32 b) || (FVal.eq (value32 a) (value32 b) && a.msb && !b.msb)
    if below == isMax then b else a

/-- The floating-point instructions of two sources, of three, and the immediate forms (R109, R117). -/
def floatRows : List LaneRow :=
  [{ instr := .fadd, op := 0x20, form := fun w => formTwo w (modUpTo w 3), val := valFadd },
   { instr := .fmul, op := 0x21, form := fun w => formTwo w (modUpTo w 3), val := valFmul },
   { instr := .fmin, op := 0x23, form := fun w => formTwo w (modZero w), val := valFminmax false },
   { instr := .fmax, op := 0x24, form := fun w => formTwo w (modZero w), val := valFminmax true }]

def floatImmRows : List LaneRow :=
  [{ instr := .faddi, op := 0x60, form := fun w => formI w (modUpTo w 3), val := valFadd },
   { instr := .fmuli, op := 0x61, form := fun w => formI w (modUpTo w 3), val := valFmul },
   { instr := .fmini, op := 0x63, form := fun w => formI w (modZero w), val := valFminmax false },
   { instr := .fmaxi, op := 0x64, form := fun w => formI w (modZero w), val := valFminmax true }]

/-- The forms of PLOP, SEL and VOTE: the fields that each uses, and the others zero (R107, R115, R116, R118). -/
def plopForm (w : InstrBits) : Form :=
  { valid := modUpTo w 3 && decide (fDst w < 8) && decide (fSrcA w < 8) && decide (fSrcB w < 8) && fSrcC w == 0 && fld w 15 0 == 0,
    reads := [], writes := [] }

def selForm (w : InstrBits) : Form :=
  { valid := modZero w && decide (fSrcC w < 8) && fld w 15 0 == 0, reads := [(fSrcA w, 1), (fSrcB w, 1)], writes := [(fDst w, 1)] }

def voteForm (w : InstrBits) : Form :=
  { valid := modUpTo w 2 && decide (fSrcA w < 8) && fSrcB w == 0 && fSrcC w == 0 && fld w 15 0 == 0 &&
      (fMod w == 0 || decide (fDst w < 8)),
    reads := [], writes := oneReg (fMod w == 0) (fDst w) }

/-- What SHFL gives lane `l` for MOD `m`, the register `r` and the value `b` (R118): 0 index, 1 up, 2 down, 3 exchange. -/
def exchanged (c : Ctx) (m r b l : Nat) : BitVec 32 :=
  let lane (k : Nat) : BitVec 32 := if c.path.lanes.getLsbD k then regBits c.gr r k else 0#32
  if m = 0 then lane (b % 32)
  else if m = 1 then (if b ≤ l then lane (l - b) else regBits c.gr r l)
  else if m = 2 then (if l + b ≤ 31 then lane (l + b) else regBits c.gr r l)
  else lane (l ^^^ (b % 32))

/-- The mask of the active lanes whose predicate `k` is true (R118). -/
def ballot (c : Ctx) (k : Nat) : BitVec 32 :=
  BitVec.ofNat 32 (((List.range 32).filter (fun l => c.path.lanes.getLsbD l && getPred c.gr k l)).map (2 ^ ·)).sum

/-- A floating-point instruction wrote `val` of the flushed operands, flushed in its turn, to register `r`, and FLUSHED
notes whether any executing lane flushed an operand or its result (R173, R174). `xs l` are lane `l`'s operands. -/
def FloatWrote (s t : State) (c : Ctx) (r : Nat) (xs : Nat → List (BitVec 32)) (val : List (BitVec 32) → BitVec 32) : Prop :=
  let on := recFlush c.sl.words
  let res := fun l => val ((xs l).map (flushed32 on))
  WroteReg (noteFlush s c.gr.slot ((lanesOf c.ex).any (fun l => (xs l).any (flushes32 on) || flushes32 on (res l))))
    t c r (fun l => flushed32 on (res l))

/-- A floating-point comparison wrote condition `m` of the flushed operands to predicate `r` (R116). -/
def FloatCompared (s t : State) (c : Ctx) (r m : Nat) (xs : Nat → BitVec 32 × BitVec 32) : Prop :=
  let on := recFlush c.sl.words
  WrotePred (noteFlush s c.gr.slot ((lanesOf c.ex).any (fun l => flushes32 on (xs l).1 || flushes32 on (xs l).2)))
    t c r (fun l => floatCond m (value32 (flushed32 on (xs l).1)) (value32 (flushed32 on (xs l).2)))

/-- The nearest integer to a value, ties to even, between `lo` and `hi`; 0 for a NaN (R117). -/
def nearestWithin (lo hi : Int) (v : FVal) : BitVec 32 :=
  match v with
  | .nan => 0#32
  | .inf n => BitVec.ofInt 32 (if n then lo else hi)
  | v => BitVec.ofInt 32 (max lo (min hi v.toInt))

/-- An integer rounded to binary32. -/
def ofInteger (x : Int) : BitVec 32 := round32 (.fin (decide (x < 0)) x.natAbs 0)

/-- A binary32 value in a narrow format, and whether FLUSH replaced the source or the result (R117, R173, R175). -/
def narrowed (on : Bool) (f : Fmt) (saturates : Bool) (a : BitVec 32) : BitVec 32 × Bool :=
  let r := fEncode f saturates (value32 (flushed32 on a))
  if on && fSubnormal f r then (BitVec.ofNat 32 (fZeroOf f r), true) else (BitVec.ofNat 32 r, flushes32 on a)

/-- A narrow value in binary32, and whether FLUSH replaced the source or the result. -/
def widened (on : Bool) (f : Fmt) (a : BitVec 32) : BitVec 32 × Bool :=
  let n := a.toNat % 2 ^ (1 + f.eb + f.mb)
  let z := on && fSubnormal f n
  let r := round32 (fDecode f (if z then fZeroOf f n else n))
  (flushed32 on r, z || flushes32 on r)

/-- CVT's result for MOD `m`, and whether FLUSH replaced something (R117). -/
def converted (on : Bool) (m : Nat) (a : BitVec 32) : BitVec 32 × Bool :=
  match m with
  | 0 => (nearestWithin (-2 ^ 31) (2 ^ 31 - 1) (value32 (flushed32 on a)), flushes32 on a)
  | 1 => (ofInteger a.toInt, false)
  | 2 => (nearestWithin 0 (2 ^ 32 - 1) (value32 (flushed32 on a)), flushes32 on a)
  | 3 => (ofInteger a.toNat, false)
  | 4 => narrowed on fmtBF16 false a
  | 5 => widened on fmtBF16 a
  | 6 => narrowed on fmtF16 false a
  | 7 => widened on fmtF16 a
  | 8 => narrowed on fmtE4M3 true a
  | 9 => narrowed on fmtE5M2 true a
  | 10 => widened on fmtE4M3 a
  | 11 => widened on fmtE5M2 a
  | _ => (0#32, false)

/-- The special-function unit's functions (R80). -/
def unitExp2 (x : BitVec 32) : BitVec 32 := BitVec.ofNat 32 (sfuExp2 x.toNat)
def unitLog2 (x : BitVec 32) : BitVec 32 := BitVec.ofNat 32 (sfuLog2 x.toNat)
def unitRcp (x : BitVec 32) : BitVec 32 := BitVec.ofNat 32 (sfuRcp x.toNat)
def unitRsq (x : BitVec 32) : BitVec 32 := BitVec.ofNat 32 (sfuRsq x.toNat)

def sfuRows : List LaneRow :=
  [{ instr := .ex2, op := 0x28, form := fun w => formOne w (modZero w), val := fun _ a _ _ => unitExp2 a },
   { instr := .lg2, op := 0x29, form := fun w => formOne w (modZero w), val := fun _ a _ _ => unitLog2 a },
   { instr := .rcp, op := 0x2A, form := fun w => formOne w (modZero w), val := fun _ a _ _ => unitRcp a },
   { instr := .rsq, op := 0x2B, form := fun w => formOne w (modZero w), val := fun _ a _ _ => unitRsq a }]

/-- A result is the nearest value, or lies within `n` units in the last place of the exact one. -/
def ErrorWithin (r : BitVec 32) (exact : FVal) (n : Nat) : Prop :=
  r = round32 exact ∨ within (value32 r) exact n (ulpOf (round32 exact).toNat) = true

/-- The instruction was not executed: its task ends with `code`, unless an earlier fault had begun to end it (R66), the
group has been ended, and nothing that the group holds has changed. -/
def FaultedWith (s t : State) (c : Ctx) (code : Nat) : Prop :=
  (∃ sl, getSlot t c.gr.slot = some sl ∧ sl.faults = c.sl.faults + 1 ∧
    sl.ending = some (match c.sl.ending with | none => { code := code, replay := none } | some e => e)) ∧
  (∃ gr, getGroup t c.p c.g = some gr ∧ gr.gpr = c.gr.gpr ∧ gr.preds = c.gr.preds ∧ gr.stg = c.gr.stg ∧
    gr.paths = c.gr.paths ∧ gr.ended = true) ∧
  CoreFrame s t c.p c.g c.gr.slot

/-! ### Paths, barriers and waits -/

/-- The group of position `p` in slot `g` is `g0` with its paths joined and merged (R82), unless a fault of its task has
ended it besides, and nothing else has changed. -/
def Moved (s t : State) (p g : Nat) (g0 : Group) : Prop :=
  ∃ gr, getGroup t p g = some gr ∧ (gr = settleGroup g0 ∨ gr = { settleGroup g0 with ended := true }) ∧
    Quiet s t gr g0.slot ∧ CoreFrame s t p g g0.slot

/-- The instruction did nothing but go on to the next. -/
def WentOn (s t : State) (c : Ctx) : Prop := WroteReg s t c 255 (fun _ => 0#32)

/-- The group with its current path replaced by these. -/
def Group.withPaths (gr : Group) (q : Path) (qs : List Path) : Group := { gr with paths := gr.paths.filter (· != q) ++ qs }

/-- The lanes of a path that do not execute. -/
abbrev idleLanes (c : Ctx) : LaneMask := c.path.lanes &&& ~~~c.ex

/-- The group after its current path has split in two, the executing lanes going to `taken` and the others to `other`:
the half with the lowest lane is pushed last, so that it runs first (R81). -/
def splitInTwo (c : Ctx) (taken other reconv : Nat) : Group :=
  let n := c.gr.nextSplit
  let a : Path := { pc := taken, lanes := c.ex, split := n, rank := c.gr.nextRank, st := .runnable }
  let b : Path := { pc := other, lanes := idleLanes c, split := n, rank := c.gr.nextRank, st := .runnable }
  let qs := if c.ex.getLsbD (lowestLane c.path.lanes) then [b, { a with rank := c.gr.nextRank + 1 }]
    else [a, { b with rank := c.gr.nextRank + 1 }]
  { c.gr.withPaths c.path qs with
    splits := c.gr.splits ++ [{ id := n, reconv := reconv, outer := c.path.split, rank := c.path.rank, entries := 1 }],
    nextSplit := n + 1, nextRank := c.gr.nextRank + 2 }

/-! ### Memory instructions -/

/-- A memory instruction but for the sectors that later stores have kept from the read-only cache (R97), and a group with
its memory instructions so. -/
def MemOp.unmarked (m : MemOp) : MemOp := { m with noFill := [] }
def Group.unmarked (gr : Group) : Group := { gr with mem := gr.mem.map MemOp.unmarked }

/-- The arrays of a position but for the writes noted with what runs (R154). -/
def unlogged (c : Pos) : Sparse ArrayUnit :=
  mapEach ArrayUnit.idle (fun u =>
    { u with running := u.running.map (fun r => { r with log := [] }), draining := u.draining.map (fun r => { r with log := [] }) }) c.arrays

/-- Nothing holds a memory instruction with ordinary addresses: the group has fewer than 32 outstanding, the down port and the
channel have room for what it asks of them, and no Cistern-only reset drains it (R72, R98, R183, R413). -/
abbrev MemFree (s : State) (c : Ctx) (write ro : Bool) : Prop :=
  let as := (lanesOf c.ex).map (laneAddr c)
  memHeld s c (((farAddrs s c write ro as).map (· / 32)).dedup).length = false ∧
    (chanBlocks (as.map (whereIs s c.p c.gr write)) = 0 ∨ chanFull s (getPos s c.p) = false)

/-- What issuing a memory instruction leaves alone: every memory below the core, the other positions, and every other
group; requests may stand in the slices' inboxes, on the Sill and on the links (R95, R98). -/
structure MemFrame (s t : State) (p g : Nat) : Prop where
  time : t.time = s.time
  boot : t.boot = s.boot
  flash : t.flash = s.flash
  power : t.power = s.power
  reservoir : t.reservoir = s.reservoir
  sluice : t.sluice = s.sluice
  port : t.port = s.port
  window : t.cistern.win = s.cistern.win
  counters : t.fountain.counters = s.fountain.counters
  intake : t.fountain.intake = s.fountain.intake
  slices : ∀ k, { getSlice t k with inbox := [] } = { getSlice s k with inbox := [] }
  positions : ∀ q, q ≠ p → { getPos t q with groups := [] } = { getPos s q with groups := [] }
  arrays : unlogged (getPos t p) = unlogged (getPos s p)
  groups : ∀ q h, ¬(q = p ∧ h = g) → GroupKept ((getGroup s q h).map Group.unmarked) ((getGroup t q h).map Group.unmarked)

/-- The executing lanes' addresses. -/
def laneAddrs (c : Ctx) : List LaneAddr := (lanesOf c.ex).map (fun l => ⟨l, laneAddr c l⟩)

/-- Nothing refuses the executing lanes: each address is a multiple of the size and none lies where R27 refuses it. -/
abbrev AllPlaced (s : State) (c : Ctx) (write : Bool) (size : Nat) : Prop :=
  ∀ l ∈ lanesOf c.ex, laneAddr c l % size = 0 ∧ ∀ k, whereIs s c.p c.gr write (laneAddr c l) ≠ .bad k

/-- Byte `i` of the datum that a lane stores: byte i mod 4 of register DATA + i div 4 (R119). -/
def storedByte (c : Ctx) (l i : Nat) : Byte := BitVec.ofNat 8 (getReg c.gr (fDst c.w + i / 4) l / 2 ^ (8 * (i % 4)))

/-- Some executing lane stores byte `b` at a place; the places are numbered as `at_` gives them for a lane. -/
def StoredAt (c : Ctx) (size : Nat) (at_ : Nat → Option Nat) (off : Nat) (b : Byte) : Prop :=
  ∃ l ∈ lanesOf c.ex, ∃ o, at_ l = some o ∧ o ≤ off ∧ off < o + size ∧ b = storedByte c l (off - o)

/-- Some executing lane's store covers the place. -/
def Covered (c : Ctx) (size : Nat) (at_ : Nat → Option Nat) (off : Nat) : Prop :=
  ∃ l ∈ lanesOf c.ex, ∃ o, at_ l = some o ∧ o ≤ off ∧ off < o + size

/-- Where a lane's store falls in staging memory, and in the own Basins. -/
def stagingAt (s : State) (c : Ctx) (l : Nat) : Option Nat :=
  match whereIs s c.p c.gr true (laneAddr c l) with
  | .staging off => some off
  | _ => none

def ownBasinAt (s : State) (c : Ctx) (l : Nat) : Option Nat :=
  match whereIs s c.p c.gr true (laneAddr c l) with
  | .basin off => some off
  | _ => none

/-- What a load finds at once in a lane's place, if it needs no slice (R95). While an engine of the core runs, the bytes of
staging memory and the Basins may be its results (R154). -/
def FoundAtIssue (s : State) (c : Ctx) (m : MemOp) (l : Nat) : Prop :=
  match whereIs s c.p c.gr false (laneAddr c l) with
  | .staging off => engineRuns (getPos s c.p) = false → ∀ i, i < m.size → mapGet 0#8 m.localBytes (laneAddr c l + i) = stgByte c.gr.stg (off + i)
  | .basin off => engineRuns (getPos s c.p) = false → ∀ i, i < m.size → mapGet 0#8 m.localBytes (laneAddr c l + i) = mapGet 0#8 (getPos s c.p).basin (off + i)
  | .slot off => ∀ i, i < m.size →
      mapGet 0#8 m.localBytes (laneAddr c l + i) = (slotBytes s (off / 256)).getD (off % 256 + i) 0#8
  | .home => m.ro = false → addrLocal (laneAddr c l) / 32 ∈ m.need
  | .peer _ => m.ro = false → peerKey (laneAddr c l) ∈ m.need
  | _ => True

/-- A memory instruction of kind `k` is outstanding in the group, with the executing lanes' addresses, and the group has
changed in nothing but that and its paths. -/
def Outstanding (s t : State) (c : Ctx) (k : MemKind) (size : Nat) (m : MemOp) : Prop :=
  ∃ gr, getGroup t c.p c.g = some gr ∧ m ∈ gr.mem ∧
    (∀ x, x.id ≠ m.id → (x ∈ gr.mem.map MemOp.unmarked ↔ x ∈ c.gr.mem.map MemOp.unmarked)) ∧
    m.id = (getPos s c.p).nextMem ∧ (getPos t c.p).nextMem = m.id + 1 ∧ m.kind = k ∧ m.size = size ∧ m.lanes = laneAddrs c ∧ m.got = [] ∧
    gr.gpr = c.gr.gpr ∧ gr.preds = c.gr.preds ∧ gr.live = c.gr.live ∧ gr.counters = c.gr.counters ∧ Advanced c gr

/-- The datum of a loaded lane in register DATA + j: the bytes' 32-bit number, sign or zero extended when the size is 1
or 2 (R119). -/
def loadedWord (m : MemOp) (bs : List Byte) (j : Nat) : Nat :=
  if m.size ≤ 4 then (if m.sext then sext32 (8 * m.size) (leNat bs) else leNat bs) else leAt bs (4 * j) 4

/-- The forms of the other instructions: the fields that each uses, and the others zero (R107, R110 to R114, R119, R120,
R122, R125 to R128). -/
def srdForm (w : InstrBits) : Form :=
  { valid := fMod w == 0 && fSrcA w == 0 && fld w 15 0 == 0 && sregs.contains (fSreg w), reads := [], writes := [(fDst w, 1)] }

def brxForm (w : InstrBits) : Form :=
  { valid := decide (fMod w ≤ 1) && (fMod w == 1 || fDst w == 0) && fImm8 w == 0, reads := [(fSrcA w, 1)],
    writes := oneReg (fMod w == 1) (fDst w) }

def ldForm (w : InstrBits) : Form :=
  { valid := decide (fMod w ≤ 5) && decide (fSize w ≤ 4) && !(fMod w % 2 == 1 && decide (2 ≤ fSize w)) && fSrcB w == 0,
    reads := addrRegs w, writes := [dataRegs w] }

def stForm (w : InstrBits) : Form :=
  { valid := (fMod w == 0 || fMod w == 4) && decide (fSize w ≤ 4) && fSrcB w == 0, reads := dataRegs w :: addrRegs w, writes := [] }

def atomForm (w : InstrBits) : Form :=
  { valid := decide (fMod w ≤ 10) && fSize w == 2,
    reads := (if fMod w == 10 then (fSrcB w, 2) else (fSrcB w, 1)) :: addrRegs w, writes := [(fDst w, 1)] }

def redForm (w : InstrBits) : Form :=
  { valid := decide (fMod w ≤ 6) && fSize w == (if fMod w = 1 then 1 else 2) && fDst w == 0,
    reads := (fSrcB w, 1) :: addrRegs w, writes := [] }

def spawnForm (w : InstrBits) : Form :=
  { valid := fMod w == 0 && fSrcC w == 0 && fld w 15 0 == 0, reads := [(fSrcA w, 1), (fSrcB w, 1)], writes := [(fDst w, 1)] }

def pubForm (w : InstrBits) : Form :=
  { valid := fMod w == 0 && fDst w == 0 && fSrcB w == 0 && fSrcC w == 0 && fld w 15 0 == 0, reads := [(fSrcA w, 1)], writes := [] }

def mmaForm (w : InstrBits) : Form :=
  { valid := fMod w == 0 && fDst w == 0 && fSrcB w == 0 && fSrcC w == 0 && fld w 7 0 == 0 && decide (fUnit w ≤ 4),
    reads := [(fSrcA w, 1)], writes := [] }

def mfragForm (w : InstrBits) : Form :=
  { valid := decide (fMod w ≤ 6) && fUnit w == 0 && fld w 7 0 == 0,
    reads := [(fSrcA w, 4), (fSrcB w, 4)] ++ (if fSrcC w = 255 then [] else [(fSrcC w, 8)]), writes := [(fDst w, 8)] }

def weirForm (w : InstrBits) : Form :=
  { valid := fMod w == 0 && fDst w == 0 && fSrcB w == 0 && fSrcC w == 0 && fld w 7 0 == 0 && decide (fUnit w ≤ 1),
    reads := [(fSrcA w, 1)], writes := [] }

/-- The value of special register `n` in lane `l`, by the table of R128. The LO timer registers are read with their capture
(R129) and stand as 0 here. -/
def specialRegister (s : State) (c : Ctx) (n l : Nat) : Nat :=
  if n < 0x20 then
    [l, c.gr.index, recGroups c.sl.words, c.g, c.g % 4, logicalOf s c.p, c.p, s.pool.device, c.gr.slot, recTag c.sl.words,
     (if recFlush c.sl.words then 1 else 0) + (if replayBit c.sl then 2 else 0) + 4 * recClass c.sl.words,
     c.path.lanes.toNat, c.gr.live.toNat, c.gr.staging * 256, c.gr.regs, c.sl.replays, 0,
     mapGet 0 c.gr.tbTimebase l / 2 ^ 32, 0, mapGet 0 c.gr.tbCycle l / 2 ^ 32].getD n 0
  else if n < 0x40 then
    (if n % 2 = 0 then recArg c.sl.words ((n - 0x20) / 2) % 2 ^ 32 else recArg c.sl.words ((n - 0x20) / 2) / 2 ^ 32)
  else mapGet 0 c.gr.counters (n - 0x40)

/-- The executing lanes arrive at a barrier (R85, R89, R123): none, all, or some of the path's lanes. -/
def ArrivesAt (s t : State) (c : Ctx) (st : PathState) : Prop :=
  (c.ex = 0#32 → WentOn s t c) ∧
  (c.ex ≠ 0#32 → c.ex = c.path.lanes →
    Moved s t c.p c.g (c.gr.withPaths c.path [{ c.path with pc := pcPlus c.path.pc 1, st := st }])) ∧
  (c.ex ≠ 0#32 → c.ex ≠ c.path.lanes →
    (stackUsed c.gr + 1 > 32 → FaultedWith s t c Code.divergenceOverflow) ∧
    (stackUsed c.gr + 1 ≤ 32 → c.gr.splits = [] → c.gr.paths = [c.path] → c.gr.live = c.path.lanes →
      (getSlot t c.gr.slot).map (·.ending) = some (some (c.sl.ending.getD { code := Code.barrierOrphan, replay := none })) ∧
      CoreFrame s t c.p c.g c.gr.slot))

/-- Every store, atomic and reduction of the task in slot `n` to this device has been accepted (R89). -/
abbrev TaskStoresAccepted (s : State) (n : Nat) : Prop :=
  (∀ e ∈ groupsOfTask s n, ∀ gr, getGroup s e.1 e.2 = some gr → groupAccepted gr = true) ∧
  (∀ c ∈ s.cores, ∀ e ∈ c.2.late, e.1 = n → homeAccepted e.2 = true)

/-- What ATOM and RED do at issue (R120). -/
def RedIssued (s t : State) (c : Ctx) (k : MemKind) (size : Nat) : Prop :=
  ((∃ l ∈ lanesOf c.ex, laneAddr c l % size ≠ 0) → FaultedWith s t c Code.misalignedAccess) ∧
  ((∀ l ∈ lanesOf c.ex, laneAddr c l % size = 0) →
    ((∃ l ∈ lanesOf c.ex, inCore s (laneAddr c l) = true) →
      (∀ l ∈ lanesOf c.ex, inCore s (laneAddr c l) = true ∨ ∀ k, whereIs s c.p c.gr true (laneAddr c l) ≠ .bad k) →
      FaultedWith s t c Code.atomicTarget) ∧
    ((∀ l ∈ lanesOf c.ex, whereIs s c.p c.gr true (laneAddr c l) = .home) →
      MemFrame s t c.p c.g ∧ (getPos t c.p).basin = (getPos s c.p).basin ∧
      ∃ m, Outstanding s t c k size m ∧ ∀ l ∈ lanesOf c.ex, addrLocal (laneAddr c l) / 32 ∈ m.need))

/-- An asynchronous instruction issued: one more at counter `k`, and nothing else of the group or of any memory. -/
def CountedUp (s t : State) (c : Ctx) (k : Nat) : Prop :=
  ∃ gr, getGroup t c.p c.g = some gr ∧ gr.gpr = c.gr.gpr ∧ gr.preds = c.gr.preds ∧ gr.stg = c.gr.stg ∧ gr.mem = c.gr.mem ∧
    (∀ j, mapGet 0 gr.counters j = mapGet 0 c.gr.counters j + (if j = k then 1 else 0)) ∧ Advanced c gr ∧
    t.reservoir = s.reservoir ∧ t.cistern = s.cistern ∧ t.sluice = s.sluice ∧ t.links = s.links ∧ t.pool = s.pool ∧
    (∀ q, (getPos t q).basin = (getPos s q).basin)

/-- What WEIR does with the command block at a staging offset (R127, R188, R208). -/
def WeirIssued (s t : State) (c : Ctx) (off : Nat) : Prop :=
  let u := fUnit c.w
  let e := getEngine (getPos s c.p) u
  let ws := blockWords c.gr off 8
  (c.gr.staging * 256 < off + 64 → FaultedWith s t c Code.stagingRange) ∧
  (off + 64 ≤ c.gr.staging * 256 →
    (∀ k, weirCode s c.p c.gr.staging u ws (mayKeep s e c.gr) = some k → FaultedWith s t c k) ∧
    (weirCode s c.p c.gr.staging u ws (mayKeep s e c.gr) = none → CountedUp s t c (fCounter c.w) ∧
      (getEngine (getPos t c.p) u).queue = e.queue ++
        [{ words := ws, g := c.g, slot := c.gr.slot, use := mapGet 0 s.fountain.uses c.gr.slot, counter := fCounter c.w,
           flush := recFlush c.sl.words }]))

/-! ### Events and frames of the device's own acts -/

/-- Nothing has changed but counters, the event ring and what the device has sent. -/
def OnlyLogged (s t : State) : Prop := t.keeper.rest = s.keeper.rest ∧ { t with keeper := s.keeper, out := s.out } = s

/-- The newest event of the ring has this code and severity (R371, R372). -/
def Reported (t : State) (code sev : Nat) : Prop := ∃ e es, t.keeper.ring = e :: es ∧ e.code = code ∧ e.severity = sev

/-- The newest event of the ring has this code, severity, UNIT and EXTRA (R371, R464). -/
def ReportedUnit (t : State) (code sev unit : Nat) (extra : List Byte) : Prop :=
  ∃ e es, t.keeper.ring = e :: es ∧ e.code = code ∧ e.severity = sev ∧ e.unit = unit ∧ e.detail.drop 24 = extra

/-- A 64-bit counter object rose by `n`, wrapping (R387). -/
def Counted (s t : State) (k n : Nat) : Prop := getObj t k = (getObj s k + n) % 2 ^ 64

/-- A 32-bit counter object rose by `n`, wrapping (R387). -/
def Counted32 (s t : State) (k n : Nat) : Prop := getObj t k = (getObj s k + n) % 2 ^ 32

/-! ### Writes of objects -/

/-- The write of `n` to an object comes while the field network is up, outside a transaction, and passes every check of the
object's own (R355, R357, R360, R374); no warm start waits. -/
abbrev WriteTaken (s : State) (w : ObjWrite) (k n : Nat) : Prop :=
  w.key = k ∧ w.val = .num n ∧ w.txn = 0 ∧ netUp s = true ∧ s.boot.warmWanted = none ∧ (∀ e ∈ s.keeper.txn.staged, e.1 ≠ k) ∧
    ∃ r, objRow k = some r ∧ writeOpen s r k = true ∧ r.acc ≠ .ro ∧ r.acc ≠ .rwt ∧ valueCode r k (.num n) = 0 ∧
      (r.acc = .rwi → deviceIdle s = true)

/-! ### The Fountain -/

/-- A record was dropped (R40, R42 to R44): counted, its bit of INTAKE_ERROR set, its offset and time kept, an event sent,
and nothing else changed. -/
def RecordDropped (s t : State) (code flag offset : Nat) : Prop :=
  Counted s t Key.intakeDrops 1 ∧ getObj t Key.intakeError = getObj s Key.intakeError ||| 2 ^ flag ∧
    getObj t Key.dropTime = stamp s ∧ getObj t Key.dropOffset = offset ∧ Reported t code 1 ∧ OnlyLogged s t

/-- The table of sequences is in its canonical form. -/
abbrev SeqsWf (s : State) : Prop := mapWf none s.sluice.seqs = true

/-- The table of slots is in its canonical form. -/
abbrev SlotsWf (s : State) : Prop := mapWf none s.fountain.slots = true

/-- No task in state 1 is about to fail because a counter that it waits on is poisoned: the state between two commands (R49). -/
abbrev NoPoisonDue (s : State) : Prop := ∀ e ∈ liveSlots s, e.2.state = 1 → e.2.signalled = false → waitsPoisoned s e.2.words = false

/-- No access waits for a way of its set (R228). -/
abbrev NoWayWaits (s : State) : Prop := ∀ e ∈ s.cistern.slices, e.2.waits = []

/-- A task without groups that fails writes state 6 with the code, or frees its spawn slot (R57, R62, R511). -/
def TaskFailed (t : State) (n : Nat) (sl : Slot) (code : Nat) : Prop :=
  (sl.spawned = true → getSlot t n = none) ∧
  (sl.spawned = false → ∃ x, getSlot t n = some x ∧ x.state = 6 ∧ x.code = code ∧ x.words = sl.words)

/-- What acts of the Fountain leave alone: every memory, the clock, the boot, the flash, the power and the host port. -/
def BelowFountain (s t : State) : Prop :=
  t.reservoir = s.reservoir ∧ t.time = s.time ∧ t.boot = s.boot ∧ t.flash = s.flash ∧ t.power = s.power ∧ t.port = s.port ∧
    ∀ q, (getPos t q).basin = (getPos s q).basin

/-- Core `p` is the one that the next group of the task in slot `n` goes to (R53): the group fits it, and it comes before
every other core that the group fits. -/
abbrev BestFit (s : State) (n : Nat) (sl : Slot) (p : Nat) : Prop :=
  let fits (q : Nat) : Bool := fitsUsed sl.words (coreUsed (getPos s q) (reservedOn s q)) (ownOn s n q)
  let resident (q : Nat) : Nat := (coreGroups (getPos s q)).length
  p ∈ openCores s ∧ fits p = true ∧
    ∀ q ∈ openCores s, q ≠ p → fits q = true → betterCore s sl.home resident p q = true

/-- A group just placed (R76): every thread live at the entry, every register and predicate 0, every counter 0. -/
def FreshGroup (n : Nat) (sl : Slot) (gr : Group) : Prop :=
  gr.slot = n ∧ gr.index = sl.nextGroup ∧ gr.regs = recRegs sl.words ∧ gr.staging = recStaging sl.words ∧ gr.gpr = [] ∧
    gr.preds = [] ∧ gr.live = 0xFFFFFFFF#32 ∧ gr.counters = [] ∧ gr.mem = [] ∧ gr.splits = [] ∧ gr.ended = false ∧
    gr.paths = [{ pc := 0, lanes := 0xFFFFFFFF#32, split := 0, rank := 0, st := .runnable }]

/-! ### Arrays and engines -/

/-- A byte of a group's staging memory, or of the Basins of its position, as its core's engines see it. -/
def opByte (s : State) (p g : Nat) (basin : Bool) (off : Nat) : Byte :=
  if basin then mapGet 0#8 (getPos s p).basin off
  else match getGroup s p g with
    | some gr => stgByte gr.stg off
    | none => 0#8

/-- An engine reads now what the memory held when its operation started: nothing has been written meanwhile (R154). -/
abbrev Unwritten (s : State) (p : Nat) (gr : Group) (stg basin : Sparse Byte) (log : List Written) : Prop :=
  stg = gr.stg ∧ basin = (getPos s p).basin ∧ log = []

/-- No engine of a position runs but `k`: 0 to 3 its arrays, 4 and 5 its Weir engines. -/
abbrev OthersIdle (s : State) (p k : Nat) : Prop :=
  (∀ a, a < 4 → a ≠ k → (getArray (getPos s p) a).started = []) ∧
    (∀ u, u < 2 → u + 4 ≠ k → (getEngine (getPos s p) u).running = none)

/-- The task that issued an operation or a command has been ended: its group is marked, or has left while the task, placed for the
same time, is ending (R158, R209). -/
abbrev IssuerEnded (s : State) (p g slot use : Nat) : Prop :=
  (∃ gr, getGroup s p g = some gr ∧ gr.ended = true) ∨
    (getGroup s p g = none ∧ mapGet 0 s.fountain.uses slot = use ∧ ∃ sl, getSlot s slot = some sl ∧ sl.ending ≠ none)

/-- The issuer's group is still resident and has not been ended. -/
abbrev IssuerRuns (s : State) (p g : Nat) (gr : Group) : Prop := getGroup s p g = some gr ∧ gr.ended = false

/-- Element (m, n) of the result of an operation as R144 gives it, whatever the walk that computes it: the row of A against the
row of B, chunk by chunk, then C_IN and D_SCALE. -/
def elementOf (rd : Bool → Nat → Byte) (p : Nat) (o : ArrayOp) (m n : Nat) : Nat :=
  let ws := o.words
  let ce := chunkElems (dAfmt ws)
  let as := (List.range (dK ws)).map (fun j => (elemA o.flush (dAfmt ws) (reader rd p (dWord ws 2 + m * dStride ws 3)) j).1)
  let bs := (List.range (dK ws)).map (fun j => (elemB o.flush (dAfmt ws) (dBfmt ws) (reader rd p (dWord ws 4 + n * dStride ws 5))
    (reader rd p (dWord ws 10 + n * dStride ws 11)) j).1)
  let acc := (accChunks o.flush (dAfmt ws) (fmtOfB (dAfmt ws) (dBfmt ws)) ce (dK ws / ce) as bs (accZero (dAfmt ws), false)).1
  if dMode ws = 2 then (portElem rd p o acc n m).1 else (portElem rd p o acc m n).1

/-- What an engine leaves alone besides the memory that it writes: registers, every other group and position, and
everything below the core. Counter `k` has fallen by one (R124). -/
structure EngineFrame (s t : State) (p g k : Nat) (gr : Group) : Prop where
  group : ∃ x, getGroup t p g = some x ∧ x.gpr = gr.gpr ∧ x.preds = gr.preds ∧ x.paths = gr.paths ∧ x.mem = gr.mem ∧
    ∀ j, mapGet 0 x.counters j = if j = k then mapGet 0 gr.counters k - 1 else mapGet 0 gr.counters j
  groups : ∀ q h, ¬(q = p ∧ h = g) → getGroup t q h = getGroup s q h
  basins : ∀ q, q ≠ p → (getPos t q).basin = (getPos s q).basin
  reservoir : t.reservoir = s.reservoir
  cistern : t.cistern = s.cistern
  sluice : t.sluice = s.sluice
  counters : t.fountain.counters = s.fountain.counters

/-- The product sum of INT8 elements: row `a` of A against row `b` of B over K, in exact integers (R169). -/
def dotInt8 (k : Nat) (a b : Nat → Byte) : Int := ((List.range k).map (fun j => (a j).toInt * (b j).toInt)).sum

/-- The exact window of E4M3 products, in units of 2^-32 (R164, R166). -/
def dotE4M3 (k : Nat) (a b : Nat → Byte) : Int :=
  ((List.range k).map (fun j => match FVal.mul (fDecode fmtE4M3 (a j).toNat) (fDecode fmtE4M3 (b j).toNat) with
    | .fin n m e => alignTo (-32) n m e
    | _ => 0)).sum

/-! ### The Cistern -/

/-- The request `q`, at place `i` of the slice's inbox, is the next of its port to be taken, its class is below its limit,
and no request of the slice is held by a full register for the first time. -/
abbrev Offered (s : State) (g port : Nat) (q : InReq) (i : Nat) : Prop :=
  (getSlice s g).portLost = false ∧ firstOffered s g port = some (q, i) ∧
    (∀ e ∈ (getSlice s g).inbox, e.full = true ∨ heldBy s g e.req ≠ .register) ∧
    intakeCount (getSlice s g) q.req.cls < classLimit s 0 q.req.cls

/-- What a slice's act leaves alone: every other slice, the Reservoir, the Sluice, the links and the Basins. -/
def SliceFrame (s t : State) (g : Nat) : Prop :=
  (∀ k, k ≠ g → getSlice t k = getSlice s k) ∧ t.reservoir = s.reservoir ∧ t.sluice = s.sluice ∧ t.links = s.links ∧
    t.port = s.port ∧ t.pool = s.pool ∧ ∀ q, (getPos t q).basin = (getPos s q).basin

/-- Every memory instruction that has asked slice `g`, from its own half, for what `r` asks has been answered `v`. -/
def AnswersCore (s t : State) (g : Nat) (r : Req) (v : Served) : Prop :=
  ∀ p k id gr m, r.origin = .core p k id → posHalf p = g / 64 → findMem s p k id = some (gr, m) →
    ∃ gr' m', findMem t p k id = some (gr', m') ∧ v ∈ m'.got ∧ m'.need = m.need

/-- Every job that has asked slice `g` for what `r` asks, and meets the slice without crossing the Sill, has been answered `v`
(R19). -/
def AnswersJob (s t : State) (g : Nat) (r : Req) (v : Served) : Prop :=
  ∀ half port id, r.origin = .job half port id → reachesHalf half g = true → ∀ j ∈ s.cistern.jobs, j.id = id →
    ∃ j' ∈ t.cistern.jobs, j'.id = id ∧ j'.who = j.who ∧ v ∈ j'.got

/-- Whoever has asked slice `g` from its own half for what `r` asks has been answered `v`. -/
def Answers (s t : State) (g : Nat) (r : Req) (v : Served) : Prop := AnswersCore s t g r v ∧ AnswersJob s t g r v

/-- No word that the slice would read has failed. -/
abbrev SoundSlice (s : State) (g : Nat) : Prop := ∀ n, (sectorNow s g n).bad = false

/-- The bytes that a sector's queued entries leave, applied in the order of acceptance (R235). -/
def reduced (es : List RedEntry) (bs : List Byte) : List Byte :=
  es.foldl (fun d e => match e.req.op with
    | .reduce op _ lanes => slice (applyLanes op lanes d []).1 0 32
    | _ => d) bs

/-- No page-out goes on in either half. -/
abbrev QuietPaging (s : State) : Prop := (getHalf s 0).pagingOut = false ∧ (getHalf s 1).pagingOut = false

/-! ### The Reservoir -/

/-- Channel `ch` of stack `k` is `c`, and every other channel is as it was. -/
def OnlyChannel (s t : State) (k ch : Nat) (c : Channel) : Prop :=
  ∀ n, mapGet Channel.idle t.reservoir.chans n = if n = k * 128 + ch then c else mapGet Channel.idle s.reservoir.chans n

/-- Fetch `id` of slice `g` is changed by `f`, and nothing else of any slice. -/
def OnlyFetch (s t : State) (g id : Nat) (f : Fetch → Fetch) : Prop :=
  ∀ k, getSlice t k = if k = g then
    { getSlice s g with fetches := (getSlice s g).fetches.map (fun x => if x.id = id then f x else x) } else getSlice s k

/-- The stack is lost in service for its channel `ch` (R252): queued reads come back failed, queued writes are dropped, the
stack is recorded and reported, and no byte of the Reservoir changes. -/
def StackGone (s t : State) (stack ch : Nat) : Prop :=
  stack ∈ t.reservoir.lost ∧ (∀ k, k < 128 → (getChan t stack k).reads = [] ∧ (getChan t stack k).writes = []) ∧
    (∀ n, n / 128 ≠ stack → mapGet Channel.idle t.reservoir.chans n = mapGet Channel.idle s.reservoir.chans n) ∧
    stackState t stack = 3 ∧ getObj t (Key.failedChannel stack) = ch ∧ t.reservoir.mem = s.reservoir.mem ∧
    ReportedUnit t Code.reservoirLost 2 stack (leBytes 4 ch) ∧
    ∀ k r, k < 128 → r ∈ (getChan s stack k).reads → ∀ f ∈ (getSlice s r.slice).fetches, f.id = r.fetch →
      ∃ x ∈ (getSlice t r.slice).fetches, x.id = r.fetch ∧ x.sector = f.sector ∧ x.back.map (·.2) = some true

/-! ### Links and the pool -/

/-- Link `l` is `k`, and every other link is as it was. -/
def OnlyLink (s t : State) (l : Nat) (k : Link) : Prop := ∀ j, getLink t j = if j = l then k else getLink s j

/-- The link has nothing to send and no credit to return. -/
abbrev Still (k : Link) : Prop := k.egress = [] ∧ k.toReturn = []

/-- A flit leaves on a link as the four lanes of its frame (R302). -/
def sentFlit (l : Nat) (flit : List Byte) : Out := .frame l (frameLanes (wireFrame flit))

/-- The outputs that resend a link's unacknowledged flits from the oldest (R310). -/
def resends (l : Nat) (k : Link) : List Out := k.unacked.map (fun u => sentFlit l (flitBytes u.seq k.lastRx 0 3 0 u.pkt))

/-- The unacknowledged flits once they have been resent. -/
def resentOnce (s : State) (k : Link) : List Unacked :=
  k.unacked.map (fun u => { u with resends := u.resends + 1, sentAt := now s })

/-- Another link to the same peer is UP or retraining. -/
def otherWay (s : State) (l : Nat) : Bool :=
  (List.range 36).any (fun j => j != l && (getLink s j).peerDev == (getLink s l).peerDev &&
    ((getLink s j).st == .up || (getLink s j).st == .retraining))

/-- The link went DOWN (R309, R311): it keeps no flit to send, its DOWN_TIME is now, and where it had none to send and
another link reaches its peer, nothing but LINK_DOWN happened. -/
def LinkDown (s t : State) (l : Nat) : Prop :=
  (getLink t l).st = .down ∧ (getLink t l).unacked = [] ∧ (getLink t l).egress = [] ∧ getObj t (Key.downTime l) = stamp s ∧
    ((getLink s l).unacked = [] → (getLink s l).egress = [] → otherWay s l = true →
      ReportedUnit t Code.linkDown 1 l [] ∧ (∀ j, j ≠ l → getLink t j = getLink s j) ∧ t.pool = s.pool ∧ t.cores = s.cores ∧
        t.fountain = s.fountain)

/-- The integer operations of R120 on 32-bit words. -/
def wordOp (op : RedOp) (a b c : BitVec 32) : BitVec 32 :=
  match op with
  | .addI32 => a + b
  | .minS32 => if b.slt a then b else a
  | .maxS32 => if a.slt b then b else a
  | .minU32 => if b.ult a then b else a
  | .maxU32 => if a.ult b then b else a
  | .and => a &&& b
  | .or => a ||| b
  | .xor => a ^^^ b
  | .exch => b
  | .cas => if a = b then c else a
  | _ => BitVec.ofNat 32 (redCompute op a.toNat b.toNat c.toNat)

/-! ### Packets -/

/-- The front flit of type `ty` on link `l` is `p`, at place `i` of the receive buffer, and is for this device; no
Cistern-only reset holds it. -/
abbrev Arrived (s : State) (l : Nat) (ty : PktType) (p : Packet) (i : Nat) : Prop :=
  frontPacket (getLink s l) [ty] = some (p, i) ∧ p.dst = s.pool.device ∧ packetHeld s p = false

/-- Some link of the device leads on toward device `d` (R316). -/
abbrev Reaches (s : State) (d : Nat) : Prop := ∃ l < 36, isCandidate s d l = true

/-- The packet has left on some link, or waits there for its turn (R308, R310). -/
abbrev SentOn (t : State) (q : Packet) : Prop :=
  ∃ j, [q] ∈ (getLink t j).egress ∨ ∃ u ∈ (getLink t j).unacked, u.pkt = q

/-- The answer of a device to a request (R307). -/
def answerOf (s : State) (p : Packet) (ty : PktType) (sectors : Nat) (payload : List Byte) : Packet :=
  { ty := ty, src := s.pool.device, dst := p.src, cls := p.cls, hops := 0, sectors := sectors, tag := p.tag, addr := p.addr,
    payload := payload }

/-- Every memory, core and task of `t` is as in `s`. -/
def SameMemory (s t : State) : Prop :=
  t.cistern = s.cistern ∧ t.reservoir = s.reservoir ∧ t.cores = s.cores ∧ t.fountain = s.fountain ∧ t.sluice = s.sluice ∧
    t.port = s.port

/-- The packet types that a device hands to its own units or passes on, with their commands (R305, R318). -/
def packetRows : List (PktType × (Nat → Instr)) :=
  [(.read, fun l => .readPacket l .ok), (.write, .writePacket), (.writeMasked, .writeMaskedPacket), (.atom, .atomPacket),
   (.red, .redPacket), (.redMasked, .redMaskedPacket), (.signal, .signalPacket), (.readData, .readDataPacket),
   (.writeAck, .writeAckPacket), (.atomData, .atomDataPacket), (.postResult, .postResultPacket), (.refused, .refusedPacket)]

/-- The places in a line of the elements of `size` bytes that a mask selects (R306). -/
def selected (size mask : Nat) : List Nat := ((List.range (128 / size)).map (· * size)).filter (fun o => mask.testBit o)

/-- The home slice refuses the request with a code (R27, R252, R320). -/
def RefusedAt (i : Instr) (s : State) (l k : Nat) (p : Packet) (n : Nat) : Prop :=
  ∀ c, homeRefusal s p.addr n = some c → Reaches (takeRx s l k) p.src →
    ∃ t, exec i s = .next t ∧ SentOn t (answerOf s p .refused 0 (leBytes 2 c)) ∧ SameMemory s t

/-- The request is taken off the link, and its parts go to their home slices from the link's half, as a job (R19, R320). -/
def TakenAtHome (i : Instr) (s : State) (l k : Nat) (p : Packet) (ops : List (Nat × ReqOp)) : Prop :=
  exec i s = .next (pumpLink (startJob (takeRx s l k) (linkHalf l) (portLink + l) p.cls (peerTag p) (.packet p) [] ops) l)

/-- The request is done at home, as `s1` shows, and `a` answers it. -/
def DoneAtHome (i : Instr) (s s1 : State) (a : Packet) : Prop :=
  Reaches s1 a.dst → ∃ t, exec i s = .next t ∧ SentOn t a ∧ SameMemory s1 t

/-! ### Transactions -/

/-- A write of `n` to an object in the device's open transaction, with room in it, that passes the checks of its value (R355,
R357, R374). -/
def WriteStaged (s : State) (w : ObjWrite) (k n : Nat) : Prop :=
  w.key = k ∧ w.val = .num n ∧ w.txn ≠ 0 ∧ txnCurrent s w.txn = true ∧ s.keeper.txn.st = .open_ ∧ netUp s = true ∧
    s.boot.warmWanted = none ∧ (s.keeper.txn.staged.length < 1024 ∨ ∃ e ∈ s.keeper.txn.staged, e.1 = k) ∧
    ∃ r, objRow k = some r ∧ writeOpen s r k = true ∧ r.acc ≠ .ro ∧ valueCode r k (.num n) = 0

/-- The write has been staged, and nothing else has changed. -/
def StagedAs (s t : State) (k n : Nat) : Prop :=
  { t with keeper := s.keeper } = s ∧ { t.keeper with txn := s.keeper.txn } = s.keeper ∧
    t.keeper.txn = { s.keeper.txn with staged := mapPut s.keeper.txn.staged k (.num n), activity := now s, activityTb := stamp s }

/-- A COMMIT with INSTANT 0 of a transaction that holds this one write comes by request channel `c` (R362, R376). -/
def CommitsOne (s : State) (req : CasReq) (c k n : Nat) : Prop :=
  req.via = .chan c ∧ headerGood req.hdr req.body = true ∧ targetsHere s req.hdr.target = true ∧ req.body = List.replicate 8 0#8 ∧
    req.hdr.txn ≠ 0 ∧ txnCurrent s req.hdr.txn = true ∧ (s.keeper.txn.st = .open_ ∨ s.keeper.txn.st = .prepared) ∧
    s.keeper.txn.staged = [(k, .num n)] ∧ netUp s = true ∧ reducedResponder s = false ∧ s.boot.warmWanted = none ∧ pinsPending s = false

/-- The transaction has ended with a result, which channel `c` shows (R362, R377). -/
def TxnEnded (s t : State) (c result : Nat) : Prop :=
  t.keeper.txn = Txn.none ∧ getObj t Key.lastTxnId = s.keeper.txn.id ∧ getObj t Key.lastTxnResult = result ∧
    getObj t Key.lastTxnTime = stamp s ∧ (getChannel t c).state = 2 ∧ (getChannel t c).code = result

/-! ### Messages -/

/-- A request whose header is good comes by request channel `c` to this device, whose Keeper serves the dictionary (R360,
R362). -/
def Asks (s : State) (req : CasReq) (c : Nat) : Prop :=
  req.via = .chan c ∧ headerGood req.hdr req.body = true ∧ targetsHere s req.hdr.target = true ∧ netUp s = true ∧
    reducedResponder s = false ∧ s.boot.warmWanted = none

/-- Channel `c` is done, and holds a response of OP `op` with this result code, identity and body to the request (R362, R366). -/
def Responds (t : State) (req : CasReq) (c op code txn : Nat) (body : List Byte) : Prop :=
  let x := getChannel t c
  x.state = 2 ∧ x.code = code ∧ x.tag = req.hdr.tag ∧ x.len = 32 + body.length ∧ x.response.drop 32 = body ∧
    leAt x.response 0 2 = 0x4341 ∧ leAt x.response 3 1 = 1 ∧ leAt x.response 4 2 = req.hdr.tag % 65536 ∧ leAt x.response 7 1 = op ∧
    leAt x.response 8 2 = code ∧ leAt x.response 10 2 = body.length % 65536 ∧ leAt x.response 12 4 = txn % 2 ^ 32 ∧
    leAt x.response 16 8 = identitySerial t % 2 ^ 64

/-- Nothing has changed but the request channels. -/
def OnlyChannels (s t : State) : Prop :=
  { t with port := s.port } = s ∧ { t.port with chans := s.port.chans } = s.port

/-- One item with a value (R369): KEY, TYPE, zero, CODE, the length, zeros, and the value padded to a multiple of 4. -/
def oneItem (key ty code : Nat) (value : List Byte) : List Byte :=
  leBytes 4 key ++ leBytes 1 ty ++ [0#8] ++ leBytes 2 code ++ leBytes 2 value.length ++ [0#8, 0#8] ++ value ++
    List.replicate ((4 - value.length % 4) % 4) 0#8

/-- The code that refuses a write of `v` to an object outside a transaction, before its conditions: the object unknown, its area
not ready, read-only, its type or length, its range, written only in a transaction, or staged by one (R355, R357, R360, R374). -/
def refusedBefore (s : State) (k : Nat) (v : Val) : Nat :=
  match objRow k with
  | none => if reducedResponder s then Code.notReady else Code.objectUnknown
  | some r =>
    if writeOpen s r k = false then Code.notReady
    else if r.acc = .ro then Code.accessDenied
    else if valueCode r k v ≠ 0 then valueCode r k v
    else if r.acc = .rwt then Code.txnRequired
    else if s.keeper.txn.staged.any (fun e => e.1 == k) then Code.objectStaged else 0

/-! ### Service operations and starts -/

/-- SVC_GO of an operation is written true, passes its checks, and the operation is not running (R382, R383). -/
def Goes (s : State) (w : ObjWrite) (op : Nat) : Prop := WriteTaken s w (Key.svcGo (op - 1)) 1 ∧ (getSvc s op).state ≠ 3

/-- The Cistern is as it was, but that the reading of an operation's source may have been given up (R383). -/
def JobsLeft (s t : State) : Prop :=
  t.cistern = s.cistern ∨ ∃ op, t.cistern = { s.cistern with jobs := s.cistern.jobs.filter (fun j => j.who != .image op) }

/-- A step changes nothing but what the Keeper holds and sends, and the free values that it took. -/
def KeeperOnly (s t : State) : Prop :=
  { t with keeper := s.keeper, out := s.out, free := s.free, cistern := s.cistern } = s ∧ JobsLeft s t

/-- The same, and what it stores in flash. -/
def KeeperAndFlash (s t : State) : Prop :=
  { t with keeper := s.keeper, out := s.out, free := s.free, flash := s.flash, cistern := s.cistern } = s ∧ JobsLeft s t

/-- Operation `op` runs from now, with the SVC_ARGS in force and this SVC_RESULT, and an event says so (R382, R383). -/
def SvcRuns (s t : State) (op : Nat) (result : List Byte) : Prop :=
  (getSvc t op).state = 3 ∧ (getSvc t op).args = svcArgs s op ∧ getBytes t (Key.svcResult (op - 1)) = result ∧
    getObj t (Key.svcStarted (op - 1)) = stamp s ∧ t.keeper.eventSeq = (s.keeper.eventSeq + 1) % 2 ^ 32

/-- Operation `op` has ended with this state, code and SVC_RESULT (R382, R383); the newest event is of the code, where it is
not 0. -/
def SvcEnds (s t : State) (op state code : Nat) (result : List Byte) : Prop :=
  (getSvc t op).state = state ∧ (getSvc t op).code = code ∧ getBytes t (Key.svcResult (op - 1)) = result ∧
    getObj t (Key.svcEnded (op - 1)) = stamp s ∧ (code ≠ 0 → ∃ e es, t.keeper.ring = e :: es ∧ e.code = code)

/-- The write is refused, and nothing changes but that a free value may have been taken for its code. -/
def GoRefused (i : Instr) (s : State) : Prop := ∃ t, exec i s = .next t ∧ { t with free := s.free } = s

/-- The bits that a bitmap of positions names, rising. -/
def named (m : Nat) : List Nat := positions.filter (fun p => m.testBit p)

/-- A start has begun with a cause and a kind (R401, R402): what is not in flash is gone, what is in flash is kept, and the
device is at the beginning of S0. -/
structure StartsAnew (s t : State) (cause kind : Nat) : Prop where
  pending : t.pending = s.pending
  power : t.boot.powered = true ∧ t.boot.present = true ∧ t.boot.resetLow = false ∧ t.boot.inletOut = false ∧ t.boot.dark = .none
  stage : t.boot.stage = 0 ∧ t.boot.done = 0 ∧ t.boot.stopped = false ∧ t.boot.reachedS10 = false ∧ t.boot.keeperRuns = false
  kinds : t.boot.cause = cause ∧ t.boot.kind = kind
  count : t.flash.startCount = s.flash.startCount + 1
  objects : t.keeper.obj = s.flash.obj ∧ t.keeper.objB = [] ∧ t.keeper.ring = [] ∧ t.keeper.txn = Txn.none ∧ t.keeper.svcs = []
  flash : t.flash.obj = s.flash.obj ∧ t.flash.stores = [] ∧ t.flash.licence = s.flash.licence ∧ t.flash.keeperA = s.flash.keeperA ∧
    t.flash.keeperB = s.flash.keeperB ∧ t.flash.pack = s.flash.pack ∧ ∀ d ∈ s.flash.defects, d.stored = true → d ∈ t.flash.defects
  time : t.time.tb = 0 ∧ t.time.runs = false ∧ t.time.ns = s.time.ns
  blocks : t.fountain = Fountain.clear ∧ t.cores = [] ∧ t.cistern = Cistern.clear ∧ t.reservoir = Reservoir.unmapped ∧
    t.sluice = Sluice.clear ∧ t.links = [] ∧ t.pool = Pool.alone
  port : t.port = { Port.reset with refclk := s.port.refclk }

/-- The device is as a start or the loss of power leaves its blocks, without a start having begun. -/
def BlocksGone (s t : State) : Prop :=
  t.pending = s.pending ∧ t.fountain = Fountain.clear ∧ t.cores = [] ∧ t.cistern = Cistern.clear ∧ t.reservoir = Reservoir.unmapped ∧
    t.sluice = Sluice.clear ∧ t.links = [] ∧ t.pool = Pool.alone ∧ t.keeper.obj = s.flash.obj ∧ t.time.tb = 0 ∧
    t.flash.startCount = s.flash.startCount

/-- The report of stage `n` (R405): BEGIN and END are on the boot ROM's count at S0 and S1, and on the timebase later. -/
def stageReportOf (s : State) (n outcome code tested failed first entries : Nat) (detail : List Byte) : List Byte :=
  leBytes 1 n ++ leBytes 1 outcome ++ leBytes 2 code ++ leBytes 4 s.flash.startCount ++
    leBytes 8 (if n ≤ 1 then s.boot.began - s.boot.romBase else s.boot.beganTb) ++
    leBytes 8 (if n ≤ 1 then now s - s.boot.romBase else stamp s) ++ leBytes 4 tested ++ leBytes 4 failed ++ leBytes 4 first ++
    leBytes 2 entries ++ leBytes 2 detail.length ++ detail

/-- Stage `n` has this report, with its result and its time. -/
def StageStored (s t : State) (n outcome code : Nat) (rep : List Byte) : Prop :=
  getBytes t (Key.stageReport n) = rep ∧ getObj t (Key.stageResult n) = code ∧
    getObj t (Key.stageTime n) = (now s - s.boot.began) / 1000 ∧
    (netUp t = true → ∃ e es, t.keeper.ring = e :: es ∧ e.detail = rep ∧ e.code = code ∧
      e.severity = if outcome = 1 then 1 else if outcome = 2 then (if n ≤ 1 then 3 else 2) else 0) ∧
    (netUp t = false → n ∈ t.boot.held)

/-- Stage `n` has ended with a code, 0 for none, and the next one has begun (R403, R405). -/
def StageEnds (s t : State) (n code tested failed first entries : Nat) (detail : List Byte) : Prop :=
  let outcome := if code = 0 then 0 else 1
  StageStored s t n outcome code (stageReportOf s n outcome code tested failed first entries detail) ∧
    t.boot.done = n + 1 ∧ t.boot.stage = min (n + 1) 10 ∧ t.boot.stopped = false

/-- The start has stopped at stage `n` (R403, R404, R502). -/
def StageHalts (s t : State) (n code tested failed first entries : Nat) (detail : List Byte) : Prop :=
  StageStored s t n 2 code (stageReportOf s n 2 code tested failed first entries detail) ∧
    t.boot.done = s.boot.done ∧ t.boot.stage = s.boot.stage ∧ t.boot.stopped = true ∧ t.boot.faultLow = true ∧ t.boot.alertLow = true

/-- Stage `n` is in progress, on a device with power. -/
def InStage (s : State) (n : Nat) : Prop :=
  s.boot.powered = true ∧ s.boot.resetLow = false ∧ s.boot.stopped = false ∧ s.boot.dark = .none ∧ s.boot.done = n ∧ s.boot.stage = n

/-- The compute and SRAM rails have gone off (R329, R419, R440, R447): everything that runs on them is gone, FAULT_N and
SMB_ALERT_N are low, and a formed pool that holds a neighbour of the device is broken. -/
def RailsOff (s t : State) (why : Dark) : Prop :=
  t.boot.dark = why ∧ t.boot.faultLow = true ∧ t.boot.alertLow = true ∧ t.boot.powered = s.boot.powered ∧ t.cores = [] ∧
    t.fountain = Fountain.clear ∧ t.cistern = Cistern.clear ∧ t.sluice = Sluice.clear ∧ t.reservoir = Reservoir.unmapped ∧
    t.links = [] ∧ t.port.up = false ∧ t.flash = s.flash ∧ t.keeper.txn = s.keeper.txn ∧
    (s.pool.st = .formed → s.pool.broken = [] → (∃ q ∈ peersOf s.boot.shape s.pool.device, s.pool.members.testBit q = true) →
      t.pool.st = .broken)

/-- Power has gone (R439, R494, R506): what is not in flash is gone, and no rail is on. -/
def PowerGone (s t : State) : Prop := BlocksGone s t ∧ t.boot.powered = false ∧ t.boot.faultLow = false

/-- The tasks of the groups of a position end with a code, but for those that an earlier fault had begun to end (R66). -/
def GroupsEndWith (s t : State) (p code : Nat) : Prop :=
  ∀ e ∈ coreGroups (getPos s p), ∀ sl, getSlot s e.2.slot = some sl →
    (getSlot t e.2.slot).map (·.ending) = some (some (sl.ending.getD { code := code, replay := none }))

/-- No sensor is read in this round and none has been before, so that nothing but voltages, currents and the inlet acts. -/
def NoSensors (s : State) (r : Round) : Prop :=
  r.diodes = [] ∧ r.points = [] ∧ s.power.history = [] ∧ s.power.broken = [] ∧ s.power.temp = []

/-- The power averaged over the rounds kept, this one included, exceeds the limit in force (R420, R436). -/
def OverLimit (s : State) (r : Round) : Prop :=
  let ps := (r.inletMicro * r.inletMilliAmp / 1000000 :: s.power.powers).take 10
  powerLimit s * ps.length < ps.sum

/-- A sense point shows a crack pattern (R430): for the last four of twelve rounds its average lies 10 mV below the mean of the
eight before, its current reference within 3 % of theirs, and the median of its neighbours within 2 mV of theirs, all measured
in eighths. -/
def Cracked (s : State) (p : Nat) : Prop :=
  let xs := mapGet [] s.power.averages p
  let near := (if p < 192 then (if p % 96 = 0 then [p + 1] else if p % 96 = 95 then [p - 1] else [p - 1, p + 1])
    else (if p % 64 = 0 then [p + 1] else if p % 64 = 63 then [p - 1] else [p - 1, p + 1])).map
      (fun q => (mapGet [] s.power.averages q).map (·.1))
  let eight (ys : List Nat) : Nat := ((ys.drop 4).take 8).sum
  xs.length = 12 ∧ (∀ ys ∈ near, ys.length = 12) ∧ ∀ i < 4,
    8 * ((xs.getD i (0, 0)).1 + 10000) ≤ eight (xs.map (·.1)) ∧
    ((8 * ((xs.getD i (0, 0)).2 : Int) - eight (xs.map (·.2))).natAbs * 100 < 3 * eight (xs.map (·.2))) ∧
    ((median (near.map (fun ys => (8 * ys.getD i 0 : Int))) - median (near.map (fun ys => (eight ys : Int)))).natAbs < 16000)

/-! ### The invariant of the block -/

/-- What every step keeps: the tables that hold memory, the task slots and the sequences are in their canonical forms; the boot ROM, its root
keys and the silicon revision are those of the silicon (R482, R486, R512); the event ring, the defect list and the stored
signatures hold no more than they can (R372, R407, R469). -/
structure Inv (s : State) : Prop where
  memory : mapWf 0#8 s.reservoir.mem = true
  slots : mapWf none s.fountain.slots = true
  seqs : mapWf none s.sluice.seqs = true
  rom : s.boot.romBytes = Config.bootRom ∧ s.boot.rootKeys = Config.rootKeys ∧ s.boot.siliconRev = State.reset.boot.siliconRev
  ring : s.keeper.ring.length ≤ 1024
  defects : s.flash.defects.length ≤ 4096
  signatures : s.flash.signatures.length ≤ 256

end Sys2Proof.Machine
end

