-- ==== Sys2Proof/Certificates/Slice0/Obligations.lean ====
section
/-! DEFINITION. The statements for the provers: each says what a command does to the block, and what it leaves alone. -/

open Sys2Proof Sys2Proof.Machine

/-- A step takes the command at the front of the queue and is `exec` of it on the state with the queue's rest. The queue is the
model's own way of giving the block its commands (log entry 1). -/
def Obligations.StepRunsFrontCommand : Prop :=
  ∀ (c : Instr) (s : State) (q : List Instr), step { s with pending := c :: q } = exec c { s with pending := q }

/-- The lanes an instruction takes effect in (R105). -/
def Obligations.ExecutingLanes : Prop :=
  ∀ (s : State) (p g : Nat) (w : InstrBits) (c : Ctx), readyGroup s p g w = some c →
    (∀ l, l < 32 → c.ex.getLsbD l = (c.path.lanes.getLsbD l && (getPred c.gr (w.toNat / 2 ^ 52 % 8) l != w.getLsbD 55))) ∧
    (∀ l, getPred c.gr 7 l = true) ∧ (w.toNat / 2 ^ 52 % 8 = 7 → w.getLsbD 55 = true → c.ex = 0#32)

/-- Each integer instruction of format A writes its row's value and nothing else (R105, R106, R115, R116). -/
def Obligations.IntegerLanes : Prop :=
  ∀ row ∈ intRows, ∀ (s : State) (p g : Nat) (w : InstrBits) (c : Ctx), Issues s p g row.op w (row.form w) c →
    ∃ t, exec (row.instr p g w) s = .next t ∧
      WroteReg s t c (fDst w) (fun l => row.val (fMod w) (regBits c.gr (fSrcA w) l) (regBits c.gr (fSrcB w) l) (regBits c.gr (fSrcC w) l))

/-- Each immediate form is its base operation with IMM32 in place of SRCB (R109). -/
def Obligations.ImmediateLanes : Prop :=
  ∀ row ∈ immRows, ∀ (s : State) (p g : Nat) (w : InstrBits) (c : Ctx), Issues s p g row.op w (row.form w) c →
    ∃ t, exec (row.instr p g w) s = .next t ∧
      WroteReg s t c (fDst w) (fun l => row.val (fMod w) (regBits c.gr (fSrcA w) l) (BitVec.ofNat 32 (fImm w)) 0#32)

/-- The comparisons, the predicate operations and the select (R115, R116). -/
def Obligations.PredicateLanes : Prop :=
  ∀ (s : State) (p g : Nat) (w : InstrBits) (c : Ctx),
    (Issues s p g 0x10 w (formAPred w (decide (fMod w % 8 ≤ 5))) c → ∃ t, exec (.icmp p g w) s = .next t ∧
      WrotePred s t c (fDst w) (fun l => intCond (fMod w) (regBits c.gr (fSrcA w) l) (regBits c.gr (fSrcB w) l))) ∧
    (Issues s p g 0x50 w (formIPred w (decide (fMod w % 8 ≤ 5))) c → ∃ t, exec (.icmpi p g w) s = .next t ∧
      WrotePred s t c (fDst w) (fun l => intCond (fMod w) (regBits c.gr (fSrcA w) l) (BitVec.ofNat 32 (fImm w)))) ∧
    (Issues s p g 0x14 w (plopForm w) c → ∃ t, exec (.plop p g w) s = .next t ∧
      WrotePred s t c (fDst w) (fun l =>
        let a := getPred c.gr (fSrcA w) l
        let b := getPred c.gr (fSrcB w) l
        if fMod w = 0 then a && b else if fMod w = 1 then a || b else if fMod w = 2 then a != b else a && !b)) ∧
    (Issues s p g 0x11 w (selForm w) c → ∃ t, exec (.sel p g w) s = .next t ∧
      WroteReg s t c (fDst w) (fun l => if getPred c.gr (fSrcC w) l then regBits c.gr (fSrcA w) l else regBits c.gr (fSrcB w) l))

/-- The lane exchanges and the votes (R118). That VOTE writes only where its own predicate is true is the model's reading (log entry 21). -/
def Obligations.LaneExchange : Prop :=
  ∀ (s : State) (p g : Nat) (w : InstrBits) (c : Ctx),
    (Issues s p g 0x15 w (formTwo w (modUpTo w 3)) c → ∃ t, exec (.shfl p g w) s = .next t ∧
      WroteReg s t c (fDst w) (fun l => exchanged c (fMod w) (fSrcA w) (getReg c.gr (fSrcB w) l) l)) ∧
    (Issues s p g 0x55 w (formI w (modUpTo w 3)) c → ∃ t, exec (.shfli p g w) s = .next t ∧
      WroteReg s t c (fDst w) (fun l => exchanged c (fMod w) (fSrcA w) (fImm w) l)) ∧
    (Issues s p g 0x16 w (voteForm w) c → ∃ t, exec (.vote p g w) s = .next t ∧
      (fMod w = 0 → WroteReg s t c (fDst w) (fun _ => ballot c (fSrcA w))) ∧
      (fMod w = 1 → WrotePred s t c (fDst w) (fun _ => ballot c (fSrcA w) != 0#32)) ∧
      (fMod w = 2 → WrotePred s t c (fDst w) (fun _ => ballot c (fSrcA w) == c.path.lanes)))

/-- Binary32 arithmetic, with FLUSH (R117, R173, R174). -/
def Obligations.FloatLanes : Prop :=
  (∀ row ∈ floatRows, ∀ (s : State) (p g : Nat) (w : InstrBits) (c : Ctx), Issues s p g row.op w (row.form w) c →
    ∃ t, exec (row.instr p g w) s = .next t ∧
      FloatWrote s t c (fDst w) (fun l => [regBits c.gr (fSrcA w) l, regBits c.gr (fSrcB w) l])
        (fun x => row.val (fMod w) (x.getD 0 0#32) (x.getD 1 0#32) 0#32)) ∧
  (∀ row ∈ floatImmRows, ∀ (s : State) (p g : Nat) (w : InstrBits) (c : Ctx), Issues s p g row.op w (row.form w) c →
    ∃ t, exec (row.instr p g w) s = .next t ∧
      FloatWrote s t c (fDst w) (fun l => [regBits c.gr (fSrcA w) l, BitVec.ofNat 32 (fImm w)])
        (fun x => row.val (fMod w) (x.getD 0 0#32) (x.getD 1 0#32) 0#32)) ∧
  (∀ (s : State) (p g : Nat) (w : InstrBits) (c : Ctx), Issues s p g 0x22 w (formA w (modUpTo w 3) true true true true) c →
    ∃ t, exec (.ffma p g w) s = .next t ∧
      FloatWrote s t c (fDst w) (fun l => [regBits c.gr (fSrcA w) l, regBits c.gr (fSrcB w) l, regBits c.gr (fSrcC w) l])
        (fun x => valFfma (fMod w) (x.getD 0 0#32) (x.getD 1 0#32) (x.getD 2 0#32)))

/-- Floating-point comparison and conversion (R116, R117, R175). -/
def Obligations.FloatCompareAndConvert : Prop :=
  ∀ (s : State) (p g : Nat) (w : InstrBits) (c : Ctx),
    (Issues s p g 0x25 w (formAPred w (modUpTo w 6)) c → ∃ t, exec (.fcmp p g w) s = .next t ∧
      FloatCompared s t c (fDst w) (fMod w) (fun l => (regBits c.gr (fSrcA w) l, regBits c.gr (fSrcB w) l))) ∧
    (Issues s p g 0x65 w (formIPred w (modUpTo w 6)) c → ∃ t, exec (.fcmpi p g w) s = .next t ∧
      FloatCompared s t c (fDst w) (fMod w) (fun l => (regBits c.gr (fSrcA w) l, BitVec.ofNat 32 (fImm w)))) ∧
    (Issues s p g 0x26 w (formOne w (modUpTo w 11)) c → ∃ t, exec (.cvt p g w) s = .next t ∧
      WroteReg (noteFlush s c.gr.slot ((lanesOf c.ex).any (fun l => (converted (ctxFlush c) (fMod w) (regBits c.gr (fSrcA w) l)).2)))
        t c (fDst w) (fun l => (converted (ctxFlush c) (fMod w) (regBits c.gr (fSrcA w) l)).1))

/-- The special-function unit (R80): special results, and the bound on every other. Within the bound the unit's value is free
(log entry 20). Where the manual leaves a choice, it says the model's own (log entry 20). -/
def Obligations.SpecialFunctions : Prop :=
  (∀ row ∈ sfuRows, ∀ (s : State) (p g : Nat) (w : InstrBits) (c : Ctx), Issues s p g row.op w (formOne w (modZero w)) c →
    ∃ t, exec (row.instr p g w) s = .next t ∧
      FloatWrote s t c (fDst w) (fun l => [regBits c.gr (fSrcA w) l]) (fun x => row.val 0 (x.getD 0 0#32) 0#32 0#32)) ∧
  (∀ x : BitVec 32,
    (value32 x = .nan → ∀ row ∈ sfuRows, row.val 0 x 0#32 0#32 = 0x7FC00000#32)) ∧
  (∀ x : BitVec 32, (FVal.lt (value32 x) (.fin false 128 0) = false → value32 x ≠ .nan → unitExp2 x = 0x7F800000#32) ∧
    (value32 x = .inf true → unitExp2 x = 0#32) ∧ (FVal.lt (value32 x) (.fin true 149 0) = true → unitExp2 x = 0#32)) ∧
  (unitLog2 0x00000000#32 = 0xFF800000#32 ∧ unitLog2 0x80000000#32 = 0xFF800000#32 ∧ unitLog2 0x7F800000#32 = 0x7F800000#32 ∧
    ∀ x : BitVec 32, FVal.lt (value32 x) (.fin false 0 0) = true → unitLog2 x = 0x7FC00000#32 ∧ unitRsq x = 0x7FC00000#32) ∧
  (unitRcp 0x00000000#32 = 0x7F800000#32 ∧ unitRcp 0x80000000#32 = 0xFF800000#32 ∧ unitRcp 0x7F800000#32 = 0#32 ∧
    unitRcp 0xFF800000#32 = 0x80000000#32) ∧
  (unitRsq 0x00000000#32 = 0x7F800000#32 ∧ unitRsq 0x80000000#32 = 0xFF800000#32 ∧ unitRsq 0x7F800000#32 = 0#32) ∧
  (∀ (x : BitVec 32) (n : Bool) (m : Nat) (e : Int), value32 x = .fin n m e → m ≠ 0 →
    ErrorWithin (unitRcp x) (exactRcp n m e) 1 ∧ (n = false → ErrorWithin (unitRsq x) (exactRsq m e) 2) ∧
    (FVal.lt (value32 x) (.fin false 128 0) = true → FVal.lt (value32 x) (.fin true 149 0) = false →
      ErrorWithin (unitExp2 x) (exactExp2 n m e) 2) ∧
    (n = false → FVal.lt (value32 x) (.fin false 1 (-1)) = false → FVal.lt (.fin false 2 0) (value32 x) = false →
      unitLog2 x = round32 (exactLog2 m e) ∨ within (value32 (unitLog2 x)) (exactLog2 m e) 1 (-22) = true) ∧
    (n = false → (FVal.lt (value32 x) (.fin false 1 (-1)) = true ∨ FVal.lt (.fin false 2 0) (value32 x) = true) →
      ErrorWithin (unitLog2 x) (exactLog2 m e) 2))

/-- A word that R107 names is not executed, and its task faults with INSTRUCTION_INVALID; a register at or above REGS faults it with
REGISTER_RANGE (R74, R106). Where the manual leaves a choice, it says the model's own (log entry 16). -/
def Obligations.WordsThatFault : Prop :=
  ∀ row ∈ intRows ++ immRows ++ floatRows ++ floatImmRows ++ sfuRows, ∀ (s : State) (p g : Nat) (w : InstrBits) (c : Ctx),
    readyGroup s p g w = some c → fetchedWord (recEntry c.sl.words) c.path.pc c.gr = some (row.op * 2 ^ 56 + w.toNat) →
    ((row.form w).valid = false → ∃ t, exec (row.instr p g w) s = .next t ∧ FaultedWith s t c Code.instructionInvalid) ∧
    ((row.form w).valid = true → ((row.form w).reads ++ (row.form w).writes).all (runOk c.gr) = false →
      ∃ t, exec (row.instr p g w) s = .next t ∧ FaultedWith s t c Code.registerRange)

/-- NOP does nothing (R115). SRD reads the special registers, and the LO timer registers capture the whole value for their lanes
(R128, R129). -/
def Obligations.NopAndSpecialRegisters : Prop :=
  ∀ (s : State) (p g : Nat) (w : InstrBits) (c : Ctx),
    (Issues s p g 0x00 w (formA w (modZero w) false false false false) c → ∃ t, exec (.nop p g w) s = .next t ∧ WentOn s t c) ∧
    (Issues s p g 0x88 w (srdForm w) c → fSreg w ≠ 0x10 → fSreg w ≠ 0x12 → ∃ t, exec (.srd p g w) s = .next t ∧
      WroteReg s t c (fDst w) (fun l => BitVec.ofNat 32 (specialRegister s c (fSreg w) l))) ∧
    (Issues s p g 0x88 w (srdForm w) c → fSreg w = 0x10 ∨ fSreg w = 0x12 →
      ∃ t gr, exec (.srd p g w) s = .next t ∧ getGroup t p g = some gr ∧
        (∀ k l, l < 32 → getReg gr k l = if k = fDst w ∧ k ≠ 255 ∧ c.ex.getLsbD l = true
          then (if fSreg w = 0x10 then s.time.tb else s.time.cycle) % 2 ^ 32 else getReg c.gr k l) ∧
        (∀ l, l < 32 → mapGet 0 gr.tbTimebase l = if fSreg w = 0x10 ∧ c.ex.getLsbD l = true then s.time.tb else mapGet 0 c.gr.tbTimebase l) ∧
        (∀ l, l < 32 → mapGet 0 gr.tbCycle l = if fSreg w = 0x12 ∧ c.ex.getLsbD l = true then s.time.cycle else mapGet 0 c.gr.tbCycle l) ∧
        gr.preds = c.gr.preds ∧ Advanced c gr ∧ CoreFrame s t p g c.gr.slot)

/-- The direct branch (R81, R83, R122). -/
def Obligations.DirectBranch : Prop :=
  ∀ (s : State) (p g : Nat) (w : InstrBits) (c : Ctx), Issues s p g 0x38 w { valid := fMod w == 0, reads := [], writes := [] } c →
    c.path.lanes ≠ 0#32 →
    ∃ t, exec (.bra p g w) s = .next t ∧
      (c.ex = c.path.lanes ∨ fTarget w = 1 →
        Moved s t p g (c.gr.withPaths c.path [{ c.path with pc := pcPlus c.path.pc (fTarget w) }])) ∧
      (c.ex = 0#32 → Moved s t p g (c.gr.withPaths c.path [{ c.path with pc := pcPlus c.path.pc 1 }])) ∧
      (c.ex ≠ c.path.lanes → c.ex ≠ 0#32 → fTarget w ≠ 1 →
        (fReconv w = 0 → FaultedWith s t c Code.instructionInvalid) ∧
        (fReconv w ≠ 0 → stackUsed c.gr + 1 > 32 → FaultedWith s t c Code.divergenceOverflow) ∧
        (fReconv w ≠ 0 → stackUsed c.gr + 1 ≤ 32 →
          Moved s t p g (splitInTwo c (pcPlus c.path.pc (fTarget w)) (pcPlus c.path.pc 1) (pcPlus c.path.pc (fReconv w)))))

/-- The indirect branch (R81, R122). -/
def Obligations.IndirectBranch : Prop :=
  ∀ (s : State) (p g : Nat) (w : InstrBits) (c : Ctx), Issues s p g 0x39 w (brxForm w) c → c.path.lanes ≠ 0#32 →
    ∃ t, exec (.brx p g w) s = .next t ∧
      ((∃ l ∈ lanesOf c.ex, getReg c.gr (fSrcA w) l % 8 ≠ 0) → FaultedWith s t c Code.instructionInvalid) ∧
      ((∀ l ∈ lanesOf c.ex, getReg c.gr (fSrcA w) l % 8 = 0) →
        let target := fun l => if c.ex.getLsbD l then getReg c.gr (fSrcA w) l else pcPlus c.path.pc 1
        let ts := targetsOf c.path.lanes target
        ∃ g1, (∀ k l, l < 32 → getReg g1 k l = if fMod w = 1 ∧ k = fDst w ∧ k ≠ 255 ∧ c.ex.getLsbD l = true
            then pcPlus c.path.pc 1 else getReg c.gr k l) ∧ g1.preds = c.gr.preds ∧ g1.rest = c.gr.rest ∧
          g1.paths = c.gr.paths ∧ g1.splits = c.gr.splits ∧
          (∀ a, ts.map (·.1) = [a] → Moved s t p g (g1.withPaths c.path [{ c.path with pc := a }])) ∧
          (2 ≤ ts.length → fReconv w = 0 → FaultedWith s t c Code.instructionInvalid) ∧
          (2 ≤ ts.length → fReconv w ≠ 0 → stackUsed c.gr + (ts.length - 1) > 32 → FaultedWith s t c Code.divergenceOverflow) ∧
          (2 ≤ ts.length → fReconv w ≠ 0 → stackUsed c.gr + (ts.length - 1) ≤ 32 →
            ∃ g2, splitPath g1 c.path ts (pcPlus c.path.pc (fReconv w)) = some g2 ∧ Moved s t p g g2))

/-- The sharing out of lanes among targets (R81), the entries that a split uses (R83), and the merging of a split's paths (R82). -/
def Obligations.PathsSplitAndMerge : Prop :=
  (∀ (m : LaneMask) (f : Nat → Nat), ((targetsOf m f).map (·.1)).Nodup ∧
    (∀ e ∈ targetsOf m f, e.2 = (lanesOf m).filter (fun l => f l == e.1) ∧ e.2 ≠ []) ∧
    (∀ l ∈ lanesOf m, f l ∈ (targetsOf m f).map (·.1)) ∧
    (m ≠ 0#32 → (targetsOf m f).head?.map (·.1) = some (f (lowestLane m)))) ∧
  (∀ (gr : Machine.Group) (q : Machine.Path) (ts : List (Nat × List Nat)) (r : Nat),
    (stackUsed gr + (ts.length - 1) > 32 → splitPath gr q ts r = none) ∧
    (stackUsed gr + (ts.length - 1) ≤ 32 → ∃ g2, splitPath gr q ts r = some g2 ∧ stackUsed g2 = stackUsed gr + (ts.length - 1) ∧
      g2.gpr = gr.gpr ∧ g2.rest = { gr.rest with nextSplit := gr.nextSplit + 1, nextRank := gr.nextRank + ts.length } ∧
      (∀ x ∈ gr.paths, x ≠ q → x ∈ g2.paths) ∧
      (∀ i e, ts[i]? = some e → Machine.Path.mk e.1 (BitVec.ofNat 32 (maskOf e.2)) gr.nextSplit
        (gr.nextRank + (ts.length - 1 - i)) .runnable ∈ g2.paths))) ∧
  (∀ (gr : Machine.Group) (x : Split) (a b : Machine.Path), gr.splits = [x] → gr.paths = [a, b] → a.split = x.id → b.split = x.id →
    a.st = .runnable → b.st = .runnable → a.pc = x.reconv → b.pc = x.reconv → a.lanes ≠ 0#32 → b.lanes ≠ 0#32 → x.outer ≠ x.id →
    (settleGroup gr).splits = [] ∧
    (settleGroup gr).paths = [{ pc := x.reconv, lanes := a.lanes ||| b.lanes, split := x.outer, rank := x.rank, st := .runnable }])

/-- Arrival at barriers, and exit (R84, R85, R89, R123). -/
def Obligations.BarriersAndExit : Prop :=
  ∀ (s : State) (p g : Nat) (w : InstrBits) (c : Ctx),
    (Issues s p g 0x3A w (barrierForm w (decide (fImm8 w ≤ 15))) c →
      ∃ t, exec (.bar p g w) s = .next t ∧ ArrivesAt s t c (.barrier (fImm8 w))) ∧
    (Issues s p g 0x3B w (barrierForm w (fImm8 w == 0)) c →
      ∃ t, exec (.tbar p g w) s = .next t ∧
        (c.ex ≠ 0#32 → recCosched c.sl.words = false → FaultedWith s t c Code.coschedRequired) ∧
        (c.ex = 0#32 ∨ recCosched c.sl.words = true → ArrivesAt s t c .taskBarrier)) ∧
    (Issues s p g 0x3C w (barrierForm w (fImm8 w == 0)) c →
      ∃ t, exec (.exit p g w) s = .next t ∧
        Moved s t p g { c.gr with
          live := c.gr.live &&& ~~~c.ex,
          paths := (c.gr.withPaths c.path [{ c.path with pc := pcPlus c.path.pc 1 }]).paths.map
            (fun q => { q with lanes := q.lanes &&& ~~~c.ex }) })

/-- The release of barriers (R85, R88, R89). -/
def Obligations.BarriersRelease : Prop :=
  ∀ (s : State),
    (∀ (p g b : Nat) (gr : Machine.Group), getGroup s p g = some gr → b < 16 → gr.ended = false →
      (allAt gr (.barrier b) = true → groupAccepted gr = true → ∃ t, exec (.barrierRelease p g b) s = .next t ∧
        Moved s t p g { gr with paths := gr.paths.map (fun q => if q.st = .barrier b then { q with st := .runnable } else q) }) ∧
      (allAt gr (.barrier b) = false ∨ groupAccepted gr = false → exec (.barrierRelease p g b) s = .next s)) ∧
    (∀ (n : Nat) (sl : Slot), getSlot s n = some sl → sl.ending = none →
      (barrierFull sl = true → TaskStoresAccepted s n → ∃ t, exec (.taskBarrierRelease n) s = .next t ∧
        (getSlot t n).map (·.tbar) = some [] ∧
        (∀ q h gr, getGroup s q h = some gr → gr.slot = n → ∃ g1, getGroup t q h = some g1 ∧ g1.gpr = gr.gpr ∧
          ∀ x ∈ g1.paths, x.st ≠ .taskBarrier) ∧
        t.reservoir = s.reservoir ∧ t.cistern = s.cistern ∧ t.sluice = s.sluice ∧
        (∀ q, { getPos t q with groups := [] } = { getPos s q with groups := [] })) ∧
      (barrierFull sl = false → exec (.taskBarrierRelease n) s = .next s))

/-- The waits that hold a path (R121, R124). -/
def Obligations.WaitsHoldThePath : Prop :=
  ∀ (s : State) (p g : Nat) (w : InstrBits) (c : Ctx),
    (Issues s p g 0x3D w { valid := fDst w == 0 && fSrcA w == 0 && fld w 23 0 == 0, reads := [], writes := [] } c →
      ∃ t gr, exec (.cwait p g w) s = .next t ∧ getGroup t p g = some gr ∧ gr.gpr = c.gr.gpr ∧ gr.preds = c.gr.preds ∧
        gr.counters = c.gr.counters ∧ gr.mem = c.gr.mem ∧ Advanced c gr ∧ CoreFrame s t p g c.gr.slot ∧
        (c.ex ≠ 0#32 → fImm8 w < mapGet 0 c.gr.counters (fMod w) → ∀ x, readyGroup t p g x = none) ∧
        (c.ex = 0#32 ∨ mapGet 0 c.gr.counters (fMod w) ≤ fImm8 w → holdOver gr = true)) ∧
    (Issues s p g 0x3E w { valid := decide (fMod w ≤ 1) && fld w 47 0 == 0, reads := [], writes := [] } c →
      ∃ t gr, exec (.fence p g w) s = .next t ∧ getGroup t p g = some gr ∧ gr.gpr = c.gr.gpr ∧ gr.preds = c.gr.preds ∧
        gr.counters = c.gr.counters ∧ gr.mem = c.gr.mem ∧ Advanced c gr ∧ CoreFrame s t p g c.gr.slot ∧
        (c.ex ≠ 0#32 → (∃ m ∈ unaccepted c.gr, fMod w = 1 ∨ homeAccepted m = false) → ∀ x, readyGroup t p g x = none) ∧
        (c.ex = 0#32 ∨ unaccepted c.gr = [] ∨ (fMod w = 0 ∧ ∀ m ∈ unaccepted c.gr, homeAccepted m = true) → holdOver gr = true))

/-- Loads and stores issue (R95, R97, R98, R119). The memory that a store changes is named by the lanes' addresses. Where the manual leaves a choice, it says the model's own (log entries 9 and 18). -/
def Obligations.LoadsAndStoresIssue : Prop :=
  ∀ (s : State) (p g : Nat) (w : InstrBits) (c : Ctx), c.ex ≠ 0#32 →
    (Issues s p g 0x30 w (ldForm w) c → fMod w ≤ 3 → MemFree s c false (fMod w == 2 || fMod w == 3) → ∃ t, exec (.ld p g w) s = .next t ∧
      ((∃ l ∈ lanesOf c.ex, laneAddr c l % sizeBytes w ≠ 0) → FaultedWith s t c Code.misalignedAccess) ∧
      (AllPlaced s c false (sizeBytes w) → MemFrame s t p g ∧ (getPos t p).basin = (getPos s p).basin ∧
        ∃ m, Outstanding s t c .load (sizeBytes w) m ∧ (∀ gr, getGroup t p g = some gr → gr.stg = c.gr.stg) ∧
          m.dst = fDst w ∧ m.sext = (fMod w % 2 == 1) ∧ m.ro = (fMod w == 2 || fMod w == 3) ∧
          ∀ l ∈ lanesOf c.ex, FoundAtIssue s c m l)) ∧
    (Issues s p g 0x31 w (stForm w) c → fMod w = 0 → MemFree s c true false → ∃ t, exec (.st p g w) s = .next t ∧
      ((∃ l ∈ lanesOf c.ex, laneAddr c l % sizeBytes w ≠ 0) → FaultedWith s t c Code.misalignedAccess) ∧
      (AllPlaced s c true (sizeBytes w) → MemFrame s t p g ∧
        ∃ m gr, Outstanding s t c .store (sizeBytes w) m ∧ getGroup t p g = some gr ∧
          (∀ off, (Covered c (sizeBytes w) (stagingAt s c) off →
              StoredAt c (sizeBytes w) (stagingAt s c) off (stgByte gr.stg off)) ∧
            (¬ Covered c (sizeBytes w) (stagingAt s c) off →
              stgByte gr.stg off = stgByte c.gr.stg off)) ∧
          (∀ off, (Covered c (sizeBytes w) (ownBasinAt s c) off →
              StoredAt c (sizeBytes w) (ownBasinAt s c) off (mapGet 0#8 (getPos t p).basin off)) ∧
            (¬ Covered c (sizeBytes w) (ownBasinAt s c) off →
              mapGet 0#8 (getPos t p).basin off = mapGet 0#8 (getPos s p).basin off)) ∧
          (∀ l ∈ lanesOf c.ex, whereIs s p c.gr true (laneAddr c l) = .home → addrLocal (laneAddr c l) / 32 ∈ m.need)))

/-- Atomics and reductions issue; they act at the home slice (R120). Where the manual leaves a choice, it says the model's own (log entries 18 and 32). -/
def Obligations.AtomicsIssue : Prop :=
  ∀ (s : State) (p g : Nat) (w : InstrBits) (c : Ctx), c.ex ≠ 0#32 → MemFree s c true false →
    (Issues s p g 0x32 w (atomForm w) c → ∃ t, exec (.atom p g w) s = .next t ∧ RedIssued s t c .atom 4) ∧
    (Issues s p g 0x33 w (redForm w) c → ∃ t, exec (.red p g w) s = .next t ∧ RedIssued s t c .red (if fMod w = 1 then 2 else 4))

/-- Memory instructions complete (R98), and instruction lines arrive (R104, R510). -/
def Obligations.MemoryInstructionsComplete : Prop :=
  (∀ (s : State) (p g id : Nat) (gr : Machine.Group) (m : MemOp), findMem s p g id = some (gr, m) →
    m.kind = .load ∨ m.kind = .atom → (∀ l ∈ m.lanes, l.lane < 32) → (m.lanes.map (·.lane)).Nodup → (m.kind = .atom → m.size = 4) →
      (memComplete m = true → (∀ v ∈ m.got, v.failed = false) →
        ∃ t g1, exec (.loadDataReturn p g id .ok) s = .next t ∧ getGroup t p g = some g1 ∧
          g1.mem = gr.mem.filter (fun x => x.id != id) ∧ g1.preds = gr.preds ∧ t.reservoir = s.reservoir ∧ t.cistern = s.cistern ∧
          (∀ l ∈ m.lanes, ∀ j, j < max 1 (m.size / 4) → m.dst + j ≠ 255 → getReg g1 (m.dst + j) l.lane =
            if m.kind = .load then loadedWord m (loadedBytes s m l.addr) j % 2 ^ 32 else oldValue s m l % 2 ^ 32) ∧
          (∀ k l, l < 32 → (∀ x ∈ m.lanes, x.lane = l → ∀ j, j < max 1 (m.size / 4) → k ≠ m.dst + j) → getReg g1 k l = getReg gr k l)) ∧
      (memComplete m = false → exec (.loadDataReturn p g id .ok) s = .next s)) ∧
  (∀ (s : State) (p g id : Nat) (gr : Machine.Group) (m : MemOp), findMem s p g id = some (gr, m) → m.kind = .store ∨ m.kind = .red →
    m.walk = none →
      ((∀ k ∈ m.need, k ∈ m.accepted) → ∃ t g1, exec (.writeAcceptance p g id) s = .next t ∧ getGroup t p g = some g1 ∧
          g1.mem = gr.mem.filter (fun x => x.id != id) ∧ g1.gpr = gr.gpr ∧ g1.stg = gr.stg ∧ t.reservoir = s.reservoir) ∧
      ((∃ k ∈ m.need, k ∉ m.accepted) → exec (.writeAcceptance p g id) s = .next s)) ∧
  (∀ (s : State) (p g : Nat) (gr : Machine.Group) (sl : Slot) (line : Nat), inService s = true → getGroup s p g = some gr →
    getSlot s gr.slot = some sl → nextLine sl gr = some line → gr.ended = false → (gr.fetched.map (·.1)) ≠ some line →
      (homeRefusal s (line * 128) 128 = none → ∀ a b d e, roHit (getPos s p) 65536 (fetchAddr s line 0) = some a →
        roHit (getPos s p) 65536 (fetchAddr s line 1) = some b → roHit (getPos s p) 65536 (fetchAddr s line 2) = some d →
        roHit (getPos s p) 65536 (fetchAddr s line 3) = some e →
        ∃ t, exec (.fetchLineReturn p g .ok) s = .next t ∧
          getGroup t p g = some { gr with fetched := some (line, lineWords (a ++ b ++ d ++ e)) }) ∧
      (∀ x, homeRefusal s (line * 128) 128 = some x → ∃ t, exec (.fetchLineReturn p g .ok) s = .next t ∧
        (getSlot t gr.slot).map (·.ending) = some (some (sl.ending.getD { code := x, replay := none })) ∧
        getGroup t p g = some { gr with ended := true }))

/-- SPAWN and PUB (R58, R59, R65, R127). Where the manual leaves a choice, it says the model's own (log entry 19). -/
def Obligations.SpawnAndPublish : Prop :=
  ∀ (s : State) (p g : Nat) (w : InstrBits) (c : Ctx), c.ex ≠ 0#32 →
    (Issues s p g 0x83 w (spawnForm w) c → fountainHeld s = false →
      ∃ t, exec (.spawn p g w) s = .next t ∧
        let off := getReg c.gr (fSrcA w) (issuer c)
        let dev := getReg c.gr (fSrcB w) (issuer c)
        let ws := wordsOf 32 (stgBytes c.gr.stg off 256)
        (off % 8 ≠ 0 → FaultedWith s t c Code.misalignedAccess) ∧
        (off % 8 = 0 → c.gr.staging * 256 < off + 256 → FaultedWith s t c Code.stagingRange) ∧
        (off % 8 = 0 → off + 256 ≤ c.gr.staging * 256 →
          (dev = s.pool.device → ∃ s1, WroteReg s1 t c (fDst w) (fun _ => BitVec.ofNat 32 (takeSpawn s ws false).1) ∧
              s1 = (takeSpawn s ws false).2 ∧
              (recordFails ws = true ∨ freeSpawnSlot s = none → (takeSpawn s ws false).1 = 2 ^ 31 + s.pool.device * 2 ^ 16) ∧
              (recordFails ws = false → ∀ n, freeSpawnSlot s = some n → (takeSpawn s ws false).1 = s.pool.device * 2 ^ 16 + n ∧
                s1 = enterRecord s n ws true false)) ∧
          (dev ≠ s.pool.device → s.pool.st = .broken ∨ 64 ≤ dev ∨ isMember s dev = false →
            WroteReg s t c (fDst w) (fun _ => BitVec.ofNat 32 (2 ^ 31 + dev % 64 * 2 ^ 16))))) ∧
    (Issues s p g 0x84 w (pubForm w) c → c.gr.pubs = [] →
      ∃ t gr, exec (.pub p g w) s = .next t ∧ getGroup t p g = some gr ∧ gr.gpr = c.gr.gpr ∧ gr.preds = c.gr.preds ∧
        gr.mem = c.gr.mem ∧ Advanced c gr ∧
        let v := getReg c.gr (fSrcA w) (issuer c)
        (unaccepted c.gr = [] → gr.pubs = [] ∧ (v ≠ 0 → (getSlot t c.gr.slot).map (·.progress) = some ((c.sl.progress + v) % 2 ^ 44))) ∧
        (unaccepted c.gr ≠ [] → gr.pubs = [{ value := v, ids := (unaccepted c.gr).map (·.id) }] ∧
          (getSlot t c.gr.slot).map (·.progress) = some c.sl.progress))

/-- The asynchronous instructions issue (R125 to R127). Where the manual leaves a choice, it says the model's own (log entry 19). -/
def Obligations.AsynchronousIssue : Prop :=
  ∀ (s : State) (p g : Nat) (w : InstrBits) (c : Ctx), mapGet 0 c.gr.counters (fCounter w) < 255 →
    (Issues s p g 0x80 w (mmaForm w) c → c.ex ≠ 0#32 → ∀ a, pickArray (getPos s p) (fUnit w) = some a →
      ∃ t, exec (.mma p g w) s = .next t ∧
        let off := getReg c.gr (fSrcA w) (issuer c)
        let ws := blockWords c.gr off 16
        (off % 64 ≠ 0 → FaultedWith s t c Code.misalignedAccess) ∧
        (off % 64 = 0 → c.gr.staging * 256 < off + 128 → FaultedWith s t c Code.stagingRange) ∧
        (off % 64 = 0 → off + 128 ≤ c.gr.staging * 256 →
          (∀ k, descriptorCode s p c.gr.staging ws = some k → FaultedWith s t c k) ∧
          (descriptorCode s p c.gr.staging ws = none → CountedUp s t c (fCounter w) ∧
            (getArray (getPos t p) a).queue = (getArray (getPos s p) a).queue ++
              [{ words := ws, g := g, slot := c.gr.slot, use := mapGet 0 s.fountain.uses c.gr.slot, counter := fCounter w,
                 flush := recFlush c.sl.words }]))) ∧
    (Issues s p g 0x81 w (mfragForm w) c → (getArray (getPos s p) (g % 4)).frags.length < 4 →
      ∃ t, exec (.mfrag p g w) s = .next t ∧ (c.ex ≠ 0xFFFFFFFF#32 → FaultedWith s t c Code.matrixDiverged) ∧
        (c.ex = 0xFFFFFFFF#32 → CountedUp s t c (fCounter w) ∧
          (getArray (getPos t p) (g % 4)).frags = (getArray (getPos s p) (g % 4)).frags ++
            [{ fmt := fMod w, a := regBlock c.gr (fSrcA w) 4, b := regBlock c.gr (fSrcB w) 4,
               c := if fSrcC w = 255 then none else some (regBlock c.gr (fSrcC w) 8), dst := fDst w, g := g, slot := c.gr.slot,
               counter := fCounter w, flush := recFlush c.sl.words }])) ∧
    (Issues s p g 0x82 w (weirForm w) c → c.ex ≠ 0#32 → engineRoom (getEngine (getPos s p) (fUnit w)) = true →
      ∃ t, exec (.weir p g w) s = .next t ∧
        let off := getReg c.gr (fSrcA w) (issuer c)
        (off % 64 ≠ 0 → FaultedWith s t c Code.misalignedAccess) ∧
        (off % 64 = 0 → WeirIssued s t c off))

/-- Records reach the intake through BAR2 (R39, R40, R42, R43); reads of it are refused (R40). Where the manual leaves a choice, it says the model's own (log entry 101). -/
def Obligations.RecordsReachTheIntake : Prop :=
  (∀ (s : State) (off : Nat) (data : List Byte), barOpen s 2 = true →
    (data.length = 256 → off % 256 = 0 → s.fountain.intake.length < 16384 →
      ∃ t, exec (.bar2RecordWrite off data false) s = .next t ∧ Counted s t Key.bytesIn 256 ∧
        t.fountain = { s.fountain with intake := s.fountain.intake ++ [⟨wordsOf 32 data, off⟩] } ∧
        OnlyLogged s { t with fountain := s.fountain }) ∧
    (data.length = 256 → off % 256 = 0 → 16384 ≤ s.fountain.intake.length →
      ∃ t, exec (.bar2RecordWrite off data false) s = .next t ∧ RecordDropped s t Code.intakeFull 0 off) ∧
    (data.length ≠ 256 ∨ off % 256 ≠ 0 →
      ∃ t, exec (.bar2RecordWrite off data false) s = .next t ∧ RecordDropped s t Code.intakeMalformed 2 off) ∧
    (∃ t, exec (.bar2RecordWrite off data true) s = .next t ∧ t.fountain = s.fountain ∧ Counted s t Key.intakeDrops 1 ∧
      Counted s t Key.poisonedRx 1)) ∧
  (∀ (s : State) (off : Nat) (data : List Byte) (ep : Bool), barOpen s 2 = false →
    ∃ t, exec (.bar2RecordWrite off data ep) s = .next t ∧ OnlyLogged s t ∧ (s.port.up = true → Counted s t Key.urSent 1) ∧
      (s.port.up = false → t = s)) ∧
  (∀ (s : State) (rd : MemRd),
    (s.port.up = true → ∃ t, exec (.bar2Read rd) s = .next t ∧ t.out = .completion rd.tag .unsupported [] :: s.out ∧
      Counted s t Key.urSent 1 ∧ OnlyLogged s t) ∧
    (s.port.up = false → exec (.bar2Read rd) s = .next s))

/-- Records leave the intake in order of arrival (R41, R44). -/
def Obligations.IntakeTakesTheOldest : Prop :=
  (∀ (s : State) (chk : Chk), (s.fountain.intake = [] ∨ inService s = false ∨ fountainHeld s = true ∨
      ∃ k, s.fountain.lastTake = some k ∧ now s < k + 4) → exec (.intakeTake chk) s = .next s) ∧
  (∀ (s : State) (r : Landed) (rest : List Landed), s.fountain.intake = r :: rest → inService s = true → fountainHeld s = false →
    (∀ k, s.fountain.lastTake = some k → k + 4 ≤ now s) →
    let n := recSlot r.words
    let s1 : State := { s with fountain := { s.fountain with intake := rest, lastTake := some (now s) } }
    ∃ t, exec (.intakeTake .ok) s = .next t ∧
      (hostSlots s ≤ n → RecordDropped s1 t Code.slotRange 3 r.offset) ∧
      (n < hostSlots s → slotState s n ∈ [1, 2, 3, 4, 7] → RecordDropped s1 t Code.slotBusy 1 r.offset) ∧
      (n < hostSlots s → slotState s n ∈ [0, 5, 6] → SlotsWf s → NoPoisonDue s →
        t.fountain.intake = rest ∧ t.fountain.lastTake = some (now s) ∧ BelowFountain s t ∧ t.sluice = s.sluice ∧ t.cistern = s.cistern ∧
        (∃ x, getSlot t n = some x ∧ x.words = maskRecord r.words ∧ x.progress = 0 ∧ x.replays = 0 ∧ x.spawned = false ∧
          (∀ c, recordCode s r.words false = some c → x.state = 6 ∧ x.code = c) ∧
          (recordCode s r.words false = none → waitsPoisoned s (maskRecord r.words) = true → x.state = 6 ∧ x.code = Code.dependencyFaulted) ∧
          (recordCode s r.words false = none → waitsPoisoned s (maskRecord r.words) = false →
            x.state = 1 ∧ x.satisfied = if waitsMet s (maskRecord r.words) then some (now s) else none)) ∧
        (recordFails r.words = true → recordCode s r.words false = some Code.recordInvalid)))

/-- The staging window, its answers and limits (R50 to R52, R273, R276). -/
def Obligations.StagingWindow : Prop :=
  (∀ s : State, inService s = true → fountainHeld s = false → inCisReset s = false → s.sluice.reserveLost = false →
    (nextForWindow s = none → exec (.stagingWindowEntry .ok) s = .next s) ∧
    (∀ n sl, nextForWindow s = some n → getSlot s n = some sl → SlotsWf s → NoPoisonDue s → NoWayWaits s → s.sluice.deferred = [] →
      recSeqCount sl.words = 0 →
      let sl1 : Slot := { sl with seqList := [] }
      ∃ t, exec (.stagingWindowEntry .ok) s = .next t ∧ BelowFountain s t ∧
        (∀ c, stagingRefusal s sl1 = some c → TaskFailed t n sl c ∧ Counted s t Key.refusals 1) ∧
        (∀ e ∈ (recSeqs sl.words).filter entValid, getSeq s (seqNumber e) = none →
          (∀ x ∈ (recSeqs sl.words).filter entValid, seqNumber x = seqNumber e → seqExtend x = false) →
          stagingRefusal s sl1 = some Code.sequenceUnknown) ∧
        ((recSeqs sl.words).filter entValid = [] → (recBufs sl.words).filter entValid = [] → sl.extends_ = [] →
          t.sluice = s.sluice ∧ t.cistern = s.cistern ∧ ∃ x, getSlot t n = some x ∧ x.staging = .moving ∧ x.home = 0 ∧
            x.words = sl.words ∧ x.state = if sl.state = 7 then 7 else 2))) ∧
  (∀ (s : State) (n : Nat) (sl : Slot), getSlot s n = some sl →
    (sl.staging = .moving → (∀ e ∈ sl.asked, pageReading s e = false ∧
        ∀ pg, getPage s e.1 e.2 = some pg → pg.st = .cistern ∨ pg.st = .basin) →
      ∃ t, exec (.stagingAnswer n) s = .next t ∧ Counted s t Key.staged 1 ∧
        getSlot t n = some { sl with staging := .staged, dispatchable := some (now s) } ∧
        (∀ m, m ≠ n → getSlot t m = getSlot s m) ∧ OnlyLogged s { t with fountain := s.fountain }) ∧
    (sl.staging ≠ .moving ∨ (∃ e ∈ sl.asked, pageReading s e = true) → exec (.stagingAnswer n) s = .next s) ∧
    exec (.ageLimitExpiry n) s = .next s ∧
    (∀ k, let limit := getObj s (Key.ageLimit (recClass sl.words))
      (limit ≠ 0 → k + limit * 1000000 < now s → effClass s sl (some k) = 7) ∧
      (limit = 0 ∨ now s ≤ k + limit * 1000000 → effClass s sl (some k) = recClass sl.words)) ∧
    (∀ m sm, getSlot s m = some sm →
      (effClass s sm sm.satisfied < effClass s sl sl.satisfied → rankBefore s (n, sl) (m, sm) = true ∧ rankBefore s (m, sm) (n, sl) = false) ∧
      (effClass s sm sm.dispatchable < effClass s sl sl.dispatchable →
        dispatchBefore s (n, sl) (m, sm) = true ∧ dispatchBefore s (m, sm) (n, sl) = false))) ∧
  (∀ s : State, inService s = true → inCisReset s = false → SlotsWf s → NoPoisonDue s → NoWayWaits s →
    ∀ d sl, s.sluice.deferred = [d] → getSlot s d.slot = some sl →
      (stagingRefusal s sl = none → extensionHeld s d.slot (extensions sl) = true →
        ∃ t, exec .deferredRetry s = .next t ∧ t.sluice = s.sluice ∧ t.cistern = s.cistern ∧ BelowFountain s t) ∧
      (stagingRefusal s sl = none → sl.state = 2 ∨ sl.state = 7 → extensions sl = [] → wantedBufs sl = [] →
        (∀ e ∈ taskPages s sl, ∃ pg, getPage s e.1 e.2 = some pg ∧ (pg.st = .cistern ∨ pg.st = .basin)) →
        ∃ t, exec .deferredRetry s = .next t ∧ t.sluice.deferred = [] ∧ t.sluice.bufs = s.sluice.bufs ∧ t.sluice.holds = s.sluice.holds ∧
          t.cistern = s.cistern ∧ BelowFountain s t ∧
          (∃ x, getSlot t d.slot = some x ∧ x.staging = .moving ∧ x.asked = taskPages s sl ∧ x.words = sl.words ∧ x.state = sl.state) ∧
          (∀ q ∈ seqNames sl, getSeq t q = (getSeq s q).map (fun y => { y with lastStaged := now s }))) ∧
      (∀ c, stagingRefusal s sl = some c →
        ∃ t, exec .deferredRetry s = .next t ∧ TaskFailed t d.slot sl c ∧ t.sluice.deferred = [])) ∧
  (∀ (s : State) (n : Nat) (d : Deferred), s.sluice.deferred.find? (fun x => x.slot == n) = some d →
    let limit := getObj s Key.starveLimit * 1000000
    (d.starved = false → d.since + limit < now s → ∃ t, exec (.sluiceStarved n) s = .next t ∧ Reported t Code.sluiceStarved 1 ∧
      t.sluice.deferred.find? (fun x => x.slot == n) = some { d with starved := true } ∧
      t.sluice.deferred.map (·.slot) = s.sluice.deferred.map (·.slot) ∧
      OnlyLogged s { t with sluice := s.sluice }) ∧
    (d.starved = true ∨ now s ≤ d.since + limit → exec (.sluiceStarved n) s = .next s))

/-- Groups are placed and return their resources (R53, R73, R76, R77). -/
def Obligations.GroupsArePlacedAndExit : Prop :=
  (∀ (s : State) (half : Nat), (inService s = false ∨ inCisReset s = true ∨ dispatchOrder s = [] →
      exec (.groupPlace half) s = .next s) ∧
    (∀ n sl rest p, inService s = true → inCisReset s = false → dispatchOrder s = (n, sl) :: rest → recCosched sl.words = false →
      BestFit s n sl p → posHalf p = half → NoWayWaits s →
      let c := getPos s p
      let g := chooseGroupSlot c
      ∃ t, exec (.groupPlace half) s = .next t ∧ BelowFountain s t ∧
        (∃ gr, getGroup t p g = some gr ∧ FreshGroup n sl gr ∧ (∀ u ∈ gr.units, u ∈ freeUnits c) ∧ gr.units.Nodup ∧
          (mapWf 0#8 c.stgMem = true → ∀ i u o, gr.units[i]? = some u → o < 256 →
            stgByte gr.stg (i * 256 + o) = mapGet 0#8 c.stgMem (u * 256 + o))) ∧
        (∀ q h, ¬(q = p ∧ h = g) → getGroup t q h = getGroup s q h) ∧
        (∃ x, getSlot t n = some x ∧ x.nextGroup = sl.nextGroup + 1 ∧ x.words = sl.words ∧
          (sl.nextGroup = 0 → x.runStart = now s ∧ (coreState s p = 1 → classShut s sl.words = false → x.state = 3)) ∧
          (sl.nextGroup ≠ 0 → x.state = sl.state ∧ t.cistern = s.cistern ∧ t.sluice = s.sluice)) ∧
        (∀ m, m ≠ n → getSlot t m = getSlot s m) ∧
        (((coreGroups c).length < 64 → (∀ e ∈ coreGroups c, e.1 < 64) → (c.groups.map (·.1)).Nodup → getGroup s p g = none)))) ∧
  (∀ (s : State) (p g : Nat) (gr : Machine.Group), getGroup s p g = some gr →
    (gr.live ≠ 0#32 → gr.ended = false → exec (.groupExit p g) s = .next s) ∧
    ((∃ m ∈ gr.mem, m.kind = .load ∨ m.kind = .atom) → exec (.groupExit p g) s = .next s) ∧
    (gr.live = 0#32 → (∀ m ∈ gr.mem, m.kind = .store ∨ m.kind = .red) → arrayBusy (getPos s p) g = false →
      engineBusy (getPos s p) g = false → laneLost (getPos s p) = false → ∀ sl, getSlot s gr.slot = some sl →
      ∃ t, exec (.groupExit p g) s = .next t ∧ getGroup t p g = none ∧ BelowFountain s t ∧
        (getPos t p).late = (getPos s p).late ++ gr.mem.map (fun m => (gr.slot, m)) ∧
        (getPos t p).latePubs = (getPos s p).latePubs ++ gr.pubs.map (fun u => (gr.slot, u)) ∧
        (∀ q h, ¬(q = p ∧ h = g) → getGroup t q h = getGroup s q h) ∧
        (∃ x, getSlot t gr.slot = some x ∧ x.exited = sl.exited + 1 ∧ (x.state = sl.state ∨ sl.state = 4 ∧ x.state = 3)) ∧
        (∀ m, m ≠ gr.slot → getSlot t m = getSlot s m) ∧ t.cistern = s.cistern ∧ t.sluice = s.sluice))

/-- Tasks retire (R57, R60). -/
def Obligations.TasksRetire : Prop :=
  ∀ (s : State) (n : Nat) (sl : Slot), getSlot s n = some sl → SlotsWf s → NoPoisonDue s →
    let applied := (validSignals sl.words).foldl (fun st e => applySignal st (sigCounter e) (sigSet e) (sigValue e)) s
    let ready := (recTaskKind sl.words = 1 ∧ sl.state = 1 ∧ sl.satisfied ≠ none) ∨
      (recTaskKind sl.words = 0 ∧ (sl.state = 3 ∨ sl.state = 4) ∧ sl.exited = recGroups sl.words ∧ groupsOfTask s n = [] ∧
        storesAccepted s n = true)
    (sl.ending ≠ none ∨ ¬ ready → exec (.taskRetire n) s = .next s) ∧
    (sl.ending = none → ready → sl.signalled = false → sl.silent = false → signalsOut s n = false →
      ((∀ e ∈ validSignals sl.words, sigDevice e = s.pool.device) →
        ∃ t, exec (.taskRetire n) s = .next t ∧ Counted s t Key.tasksDone 1 ∧ BelowFountain s t ∧
          (∀ k, getCounter t k = getCounter applied k) ∧
          (sl.spawned = true → getSlot t n = none) ∧
          (sl.spawned = false → ∃ x, getSlot t n = some x ∧ x.state = 5 ∧ x.code = 0 ∧ x.progress = sl.progress ∧
            x.words = sl.words)) ∧
      ((∀ e ∈ validSignals sl.words, sigDevice e = s.pool.device ∨ isMember s (sigDevice e) = false) →
        (∃ e ∈ validSignals sl.words, sigDevice e ≠ s.pool.device) →
        ∃ t, exec (.taskRetire n) s = .next t ∧ TaskFailed t n sl Code.peerLost ∧ BelowFountain s t))

/-- Faulted tasks settle, and tasks time out (R66, R67, R70, R511). -/
def Obligations.TasksFaultAndSettle : Prop :=
  (∀ (s : State) (n : Nat) (sl : Slot), getSlot s n = some sl → SlotsWf s → NoWayWaits s →
    (sl.ending = none → exec (.taskFaultSettle n) s = .next s) ∧
    (sl.ending ≠ none → quiet (discardHeld s n) n = false → exec (.taskFaultSettle n) s = .next (discardHeld s n)) ∧
    (∀ e, sl.ending = some e → quiet (discardHeld s n) n = true → (∀ q ∈ s.cores, laneLost q.2 = false) →
      (e.replay = none → ∃ t, exec (.taskFaultSettle n) s = .next t ∧ TaskFailed t n sl e.code ∧ BelowFountain s t ∧
        (∀ p g gr, getGroup t p g = some gr → gr.slot ≠ n) ∧ (∀ k, (getCounter t k).value = (getCounter s k).value) ∧
        (recVersion sl.words = 1 → ∀ x ∈ validSignals sl.words, sigDevice x = s.pool.device →
          (getCounter t (sigCounter x)).poison = true)) ∧
      (e.replay = some [] → ∃ t x, exec (.taskFaultSettle n) s = .next t ∧ getSlot t n = some x ∧ x.state = 7 ∧ x.code = e.code ∧
        x.replays = sl.replays + 1 ∧ x.replayed = true ∧ x.nextGroup = 0 ∧ x.ending = none ∧ x.words = sl.words ∧
        (∀ p g gr, getGroup t p g = some gr → gr.slot ≠ n) ∧ (∀ k, getCounter t k = getCounter s k) ∧ BelowFountain s t ∧ Counted s t Key.tasksReplayed 1))) ∧
  (∀ (s : State) (n : Nat) (sl : Slot), getSlot s n = some sl →
    let us := recTimeout sl.words
    (us ≠ 0 → sl.state = 3 ∨ sl.state = 4 → sl.ending = none → sl.runStart + us * 1000 ≤ now s →
      ∃ t, exec (.taskTimeout n) s = .next t ∧ Reported t Code.taskTimeout 2 ∧ BelowFountain s t ∧
        getSlot t n = some { sl with faults := sl.faults + 1, ending := some { code := Code.taskTimeout, replay := none } } ∧
        (∀ m, m ≠ n → getSlot t m = getSlot s m) ∧
        (∀ p g gr, getGroup s p g = some gr → getGroup t p g = some (if gr.slot = n then { gr with ended := true } else gr))) ∧
    (us = 0 ∨ sl.state ∉ [3, 4] ∨ sl.ending ≠ none ∨ now s < sl.runStart + us * 1000 → exec (.taskTimeout n) s = .next s))

/-- Array operations start in queue order, and complete (R151, R153); the arithmetic of INT8 and of the exact window (R164, R166,
R169). Where the manual leaves a choice, it says the model's own (log entry 9). -/
def Obligations.MatrixOperationsRun : Prop :=
  (∀ (s : State) (p a : Nat),
    let u := getArray (getPos s p) a
    let held (o : ArrayOp) : Prop := (u.running ≠ none ∧ u.draining ≠ none) ∨ (∃ r ∈ u.started, opHeldBy p o r.op = true) ∨
      chanFull s (getPos s p) = true
    (u.queue = [] → exec (.arrayOpStart p a) s = .next s) ∧
    (∀ o rest, u.queue = o :: rest →
      (∀ gr, IssuerRuns s p o.g gr →
        (held o → exec (.arrayOpStart p a) s = .next s) ∧
        (¬ held o → ∃ t r, exec (.arrayOpStart p a) s = .next t ∧
          getArray (getPos t p) a = { u with queue := rest, running := some r, draining := u.running.map (fun x => { x with cut := some x.log.length }) } ∧
          r.op = o ∧ r.cut = none ∧ Unwritten s p gr r.stg r.basin r.log ∧ { getPos t p with arrays := [] } = { getPos s p with arrays := [] } ∧
          (∀ b, b ≠ a → getArray (getPos t p) b = getArray (getPos s p) b) ∧ (∀ q, q ≠ p → getPos t q = getPos s q) ∧
          { t with cores := s.cores, free := s.free } = s)) ∧
      (IssuerEnded s p o.g o.slot o.use →
        ∃ t, exec (.arrayOpStart p a) s = .next t ∧ getArray (getPos t p) a = { u with queue := rest } ∧
          { t with cores := s.cores } = s))) ∧
  (∀ (s : State) (p a : Nat) (r : RunningOp) (gr : Machine.Group) (d : Area), (getArray (getPos s p) a).running = some r →
    (getArray (getPos s p) a).draining = none → IssuerRuns s p r.op.g gr → gr.slot = r.op.slot → gr.staging ≤ 1024 →
    Unwritten s p gr r.stg r.basin r.log → OthersIdle s p a →
    let ws := r.op.words
    let b := resBytes (dDfmt ws)
    descriptorBad ws = false → lineBytesD ws ≤ dStride ws 9 →
    areaAt s p gr.staging Code.arraySource (dWord ws 8) (areaLen (dLines ws) (dStride ws 9) (lineBytesD ws)) = .ok d →
      ∃ t, exec (.arrayOpComplete p a .ok) s = .next t ∧ (getArray (getPos t p) a).running = none ∧
        (∀ i e j, i < dLines ws → e < dElems ws → j < b → opByte t p r.op.g d.basin (d.off + i * dStride ws 9 + e * b + j) =
          (leBytes b (elementOf (opByte s p r.op.g) p r.op (if dMode ws = 2 then e else i) (if dMode ws = 2 then i else e))).getD j 0#8) ∧
        (∀ m off, (∀ i j, i < dLines ws → j < lineBytesD ws → ¬(m = d.basin ∧ off = d.off + i * dStride ws 9 + j)) →
          opByte t p r.op.g m off = opByte s p r.op.g m off) ∧
        EngineFrame s t p r.op.g r.op.counter gr) ∧
  (∀ (s : State) (p a : Nat) (r : RunningOp) (gr : Machine.Group) (chk : Chk), (getArray (getPos s p) a).running = some r →
    (getArray (getPos s p) a).draining = none → getGroup s p r.op.g = some gr → gr.ended = true →
      ∃ t x, exec (.arrayOpComplete p a chk) s = .next t ∧ (getArray (getPos t p) a).running = none ∧ getGroup t p r.op.g = some x ∧
        x.counters = gr.counters ∧ t.reservoir = s.reservoir ∧ t.cistern = s.cistern) ∧
  (∀ (rd : Bool → Nat → Byte) (p m n : Nat) (o : ArrayOp),
    let ws := o.words
    let row := reader rd p (dWord ws 2 + m * dStride ws 3)
    let col := reader rd p (dWord ws 4 + n * dStride ws 5)
    let cin := readNat (reader rd p (dWord ws 6 + (if dMode ws = 2 then n else m) * dStride ws 7 + (if dMode ws = 2 then m else n) * 4)) 0 4
    (dAfmt ws = 2 → dBfmt ws = 2 → dCfmt ws = 0 ∨ dCfmt ws = 4 → dK ws % 64 = 0 →
      elementOf rd p o m n = unsigned 32 (dotInt8 (dK ws) row col + (if dCfmt ws = 0 then 0 else (cin : Int)))) ∧
    (dAfmt ws = 0 → dBfmt ws = 0 → dDfmt ws = 4 → dCfmt ws = 0 → o.flush = false → dK ws % 64 = 0 → dK ws ≤ 65536 →
      (∀ j, j < dK ws → (row j).toNat % 128 ≠ 127 ∧ (col j).toNat % 128 ≠ 127) →
      elementOf rd p o m n = unsigned 72 (dotE4M3 (dK ws) row col)))

/-- Fragments take their windows and complete (R126, R155). -/
def Obligations.FragmentsRun : Prop :=
  (∀ (s : State) (p a : Nat),
    let u := getArray (getPos s p) a
    ∃ t, exec (.mfragWindowStart p a) s = .next t ∧ { t with cores := s.cores } = s ∧
      (∀ q, { getPos t q with arrays := [] } = { getPos s q with arrays := [] }) ∧
      (u.frags = [] → getArray (getPos t p) a = { u with lastFrag := false }) ∧
      (∀ f rest, u.frags = f :: rest →
        (u.lastFrag = true → u.running ≠ none → getArray (getPos t p) a = { u with lastFrag := false }) ∧
        (u.lastFrag = false ∨ u.running = none →
          (u.windowed.length < 3 → getArray (getPos t p) a = { u with windowed := u.windowed ++ [f], frags := rest, lastFrag := true }) ∧
          (3 ≤ u.windowed.length → t = s)))) ∧
  (∀ (s : State) (p a : Nat) (f : Fragment) (fs : List Fragment) (gr : Machine.Group), (getArray (getPos s p) a).windowed = f :: fs →
    (∀ x ∈ fs, x.g = f.g) → getGroup s p f.g = some gr → gr.ended = false → gr.slot = f.slot → f.dst + 8 ≤ 255 →
      ∃ t x, exec (.mfragComplete p a .ok) s = .next t ∧ getGroup t p f.g = some x ∧ (getArray (getPos t p) a).windowed = fs ∧
        (∀ i l, i < 8 → l < 32 → getReg x (f.dst + i) l = (fragResult f (l / 2) (8 * (l % 2) + i)).1 % 2 ^ 32) ∧
        (∀ k l, l < 32 → (k < f.dst ∨ f.dst + 8 ≤ k) → getReg x k l = getReg gr k l) ∧
        x.preds = gr.preds ∧ x.paths = gr.paths ∧ x.stg = gr.stg ∧
        (∀ j, mapGet 0 x.counters j = if j = f.counter then mapGet 0 gr.counters j - 1 else mapGet 0 gr.counters j) ∧
        (∀ q h, ¬(q = p ∧ h = f.g) → getGroup t q h = getGroup s q h) ∧ (∀ q, (getPos t q).basin = (getPos s q).basin) ∧
        t.reservoir = s.reservoir ∧ t.cistern = s.cistern) ∧
  (∀ (f : Fragment) (r col : Nat), f.fmt = 4 →
    let byte (b : List Nat) (i k : Nat) : Byte := BitVec.ofNat 8 (b.getD ((k % 16 / 4) * 32 + (i + 16 * (k / 16))) 0 / 2 ^ (8 * (k % 4)))
    let c := (f.c.map (fun b => b.getD ((col % 8) * 32 + (2 * r + col / 8)) 0)).getD 0
    fragResult f r col = (unsigned 32 (dotInt8 32 (byte f.a r) (byte f.b col) + (c : Int)), false))

/-- The Weir engines (R188 to R202, R209). Where the manual leaves a choice, it says the model's own (log entry 9). -/
def Obligations.WeirEnginesRun : Prop :=
  (∀ (s : State) (p unit : Nat) (i : Instr), (unit = 0 ∧ i = .lxuExpand p) ∨ (unit = 1 ∧ (i = .lytTranspose p ∨ i = .lytIngest p)) →
    let e := getEngine (getPos s p) unit
    ((e.running ≠ none ∨ e.queue = []) → exec i s = .next s) ∧
    (∀ o rest, e.running = none → e.queue = o :: rest →
      ((∃ gr, IssuerRuns s p o.g gr) → (i = .lytTranspose p ∧ yOp o.words ≠ 0) ∨ (i = .lytIngest p ∧ yOp o.words ≠ 1) ∨
        chanFull s (getPos s p) = true → exec i s = .next s) ∧
      (IssuerEnded s p o.g o.slot o.use →
        ∃ t, exec i s = .next t ∧ getEngine (getPos t p) unit = { e with queue := rest } ∧ { t with cores := s.cores } = s) ∧
      (∀ gr, IssuerRuns s p o.g gr → chanFull s (getPos s p) = false → (i = .lytTranspose p → yOp o.words = 0) → (i = .lytIngest p → yOp o.words = 1) →
        (cmdRef unit o.words = none → ∃ t r, exec i s = .next t ∧ r.cmd = o ∧ r.page = none ∧ Unwritten s p gr r.stg r.basin r.log ∧
          getEngine (getPos t p) unit = { e with queue := rest, running := some r } ∧ { t with cores := s.cores, free := s.free } = s) ∧
        (∀ ref, p < 544 → cmdRef unit o.words = some ref → ref < 2 ^ 48 → refByte ref = 0 → (getPos s p).walks.length < 16 → inCisReset s = false →
          walkerFind (getPos s p) (refSeq ref) (refPage ref) = none →
          ∃ t, exec i s = .next t ∧ Counted s t (Key.walkMisses p) 1 ∧ ∃ w, (getPos t p).walks = (getPos s p).walks ++ [w] ∧
            w.seq = refSeq ref ∧ w.page = refPage ref ∧ w.who = .engine unit ∧ w.st = .walking)))) ∧
  (∀ (s : State) (p unit : Nat) (r : RunningCmd) (gr : Machine.Group), unit < 2 → (getEngine (getPos s p) unit).running = some r →
    IssuerRuns s p r.cmd.g gr → gr.slot = r.cmd.slot → gr.staging ≤ 1024 → r.page = none → cmdRef unit r.cmd.words = none →
    Unwritten s p gr r.stg r.basin r.log → OthersIdle s p (unit + 4) →
    let ws := r.cmd.words
    let g := r.cmd.g
    let e := yElem ws
    let src (i j b : Nat) : Byte := reader (opByte s p g) p (dWord ws 1) (i * dStride ws 2 + j * e + b)
    (∀ d, unit = 1 → yOp ws = 0 → yRows ws * e ≤ dStride ws 4 →
      areaAt s p gr.staging Code.weirSource (dWord ws 3) (areaLen (yCols ws) (dStride ws 4) (yRows ws * e)) = .ok d →
      ∃ t, exec (.weirCommandComplete p 1 .ok) s = .next t ∧ (getEngine (getPos t p) 1).running = none ∧
        (∀ i j b, i < yRows ws → j < yCols ws → b < e →
          opByte t p g d.basin (d.off + j * dStride ws 4 + i * e + b) = src i j b) ∧
        (∀ m off, (∀ i j b, i < yRows ws → j < yCols ws → b < e → ¬(m = d.basin ∧ off = d.off + j * dStride ws 4 + i * e + b)) →
          opByte t p g m off = opByte s p g m off) ∧ EngineFrame s t p g r.cmd.counter gr) ∧
    (∀ d, unit = 1 → yOp ws = 1 → yDstSeq ws = false → yCol0 ws + yRows ws ≤ 64 → yCols ws * e ≤ 1024 →
      areaAt s p gr.staging Code.weirSource (dWord ws 3) 65536 = .ok d →
      ∃ t, exec (.weirCommandComplete p 1 .ok) s = .next t ∧ (getEngine (getPos t p) 1).running = none ∧
        (∀ i v b, i < yRows ws → v < yCols ws → b < e →
          opByte t p g d.basin (d.off + (v * 64 + yCol0 ws + i) * e + b) = src i v b) ∧
        (∀ m off, (∀ i v b, i < yRows ws → v < yCols ws → b < e → ¬(m = d.basin ∧ off = d.off + (v * 64 + yCol0 ws + i) * e + b)) →
          opByte t p g m off = opByte s p g m off) ∧ EngineFrame s t p g r.cmd.counter gr) ∧
    (∀ d, unit = 0 → jobOf s (.weir p 0) = none → xSrcSeq ws = false → xKeep ws = false → xOrder ws ≤ 1 → xLineBytes ws ≤ dStride ws 5 →
      xFirst ws + xCount ws ≤ xTokens ws →
      areaAt s p gr.staging Code.weirSource (dWord ws 4) (areaLen (xLines ws) (dStride ws 5) (xLineBytes ws)) = .ok d →
      ∃ t, exec (.weirCommandComplete p 0 .ok) s = .next t ∧ (getEngine (getPos t p) 0).running = none ∧
        (∀ q i b, q < xRows ws → i < xCount ws → b < xElem ws →
          opByte t p g d.basin (d.off + (expandAddr ws (xFirst ws + i) q - dWord ws 4) + b) =
            (leBytes (xElem ws) (expandElem r.cmd.flush ws (reader (opByte s p g) p (dWord ws 1))
              (reader (opByte s p g) p (dWord ws 2 + q * dStride ws 3)) (xFirst ws + i)).1).getD b 0#8) ∧
        (∀ m off, (∀ q i b, q < xRows ws → i < xCount ws → b < xElem ws →
            ¬(m = d.basin ∧ off = d.off + (expandAddr ws (xFirst ws + i) q - dWord ws 4) + b)) →
          opByte t p g m off = opByte s p g m off) ∧
        EngineFrame s t p g r.cmd.counter gr))

/-- Walks, what the Sluice answers to those handed to it, and invalidations (R202, R203, R271, R278). -/
def Obligations.WalksAreAnswered : Prop :=
  (∀ (s : State) (p id : Nat) (w : Walk), findWalk s p id = some w → w.st = .walking → inCisReset s = false →
    let base := pageAddr s w.seq w.page
    (∀ q pg, getSeq s w.seq = some q → q.st = .active → getPage s w.seq w.page = some pg →
      (pg.st = .cistern → ∃ t e, exec (.pageWalk p id .ok) s = .next t ∧ walkerFind (getPos t p) w.seq w.page = some e ∧
        e.loc = .memory base ∧ t.sluice = s.sluice ∧ t.reservoir = s.reservoir) ∧
      (∀ f, pg.st = .basin → pg.frame = some p →
        ((getPos s p).frames.find? (fun x => x.2 == some (w.seq, w.page))).map (·.1) = some f →
        ∃ t e, exec (.pageWalk p id .ok) s = .next t ∧ walkerFind (getPos t p) w.seq w.page = some e ∧
          e.loc = .frame f base ∧ t.sluice = s.sluice ∧ t.reservoir = s.reservoir)) ∧
    ((getSeq s w.seq = none ∨ (∃ q, getSeq s w.seq = some q ∧ q.st ≠ .active) ∨ getPage s w.seq w.page = none ∨
        (∃ pg, getPage s w.seq w.page = some pg ∧ pg.st ≠ .cistern ∧ ¬(pg.st = .basin ∧ pg.frame = some p))) →
      ∃ t, exec (.pageWalk p id .ok) s = .next t ∧ findWalk t p id = some { w with st := .handed } ∧
        (∀ q, { getPos t q with walks := [] } = { getPos s q with walks := [] }) ∧ { t with cores := s.cores } = s)) ∧
  (∀ (s : State) (p id : Nat) (w : Walk), p < 544 → SeqsWf s → findWalk s p id = some w → inCisReset s = false →
    let base := pageAddr s w.seq w.page
    let answers (t : State) : Prop := exec (.demandFault p id) s = .next t ∧ ∃ e, walkerFind (getPos t p) w.seq w.page = some e ∧ e.loc = .memory base
    let faults (c : Nat) : Prop := ∀ g k gr m sl, w.who = .group g k → findMem s p g k = some (gr, m) → getSlot s gr.slot = some sl →
      sl.ending = none → ∃ t, exec (.demandFault p id) s = .next t ∧ Reported t c 2 ∧ t.sluice = s.sluice ∧ t.reservoir = s.reservoir ∧
        (getSlot t gr.slot).map (·.ending) = some (some { code := c, replay := none })
    (w.st = .walking → exec (.demandFault p id) s = .next s) ∧
    (w.st = .failed → ∀ q pg, getSeq s w.seq = some q → q.pages[w.page]? = some pg → faults Code.pageInFailed) ∧
    (w.st = .handed →
      (getSeq s w.seq = none → faults Code.sequenceUnknown) ∧
      (∀ q, getSeq s w.seq = some q →
        (q.st ≠ .active → faults Code.sequenceUnknown) ∧
        (q.st = .active → q.pages[w.page]? = none → faults Code.seqRange) ∧
        (∀ pg, q.st = .active → q.pages[w.page]? = some pg →
          (w.write = true → pageWritable s w.seq w.page q = false → faults Code.seqReadOnly) ∧
          (w.write = false ∨ pageWritable s w.seq w.page q = true →
            (pageOnLost s w pg = true → faults Code.reservoirLost) ∧
            (pageOnLost s w pg = false →
              (pg.st = .basin → ∃ t, answers t ∧ Counted s t Key.faultsBasin 1 ∧ t.sluice = s.sluice) ∧
              (pg.st = .cistern → ∃ t, answers t ∧ t.sluice = s.sluice) ∧
              (pg.st = .reservoir → ∃ t, answers t ∧ Counted s t Key.faultsReservoir 1 ∧
                getPage t w.seq w.page = some { pg with st := .cistern }) ∧
              (pg.st = .pagingOut → ∃ t, answers t ∧ Counted s t Key.pageoutCancels 1 ∧
                getPage t w.seq w.page = some { pg with st := .cistern, hostPage := none }) ∧
              (pg.st = .pagingIn → ∃ t, exec (.demandFault p id) s = .next t ∧ findWalk t p id = some { w with st := .waiting false } ∧
                getPage t w.seq w.page = some { pg with ahead := false }) ∧
              (pg.st = .host → ∀ z s1, takeZonePage s q.half = some (z, s1) → ∃ t, exec (.demandFault p id) s = .next t ∧
                findWalk t p id = some { w with st := .waiting true } ∧ t.sluice.moves = s.sluice.moves ++ [(w.seq, w.page, true)] ∧
                getPage t w.seq w.page = some { pg with st := .pagingIn, zone := z, ahead := false }))))))) ∧
  (∀ (s : State) (seq page : Nat), ∃ t, exec (.walkerInvalidate seq page) s = .next t ∧ { t with cores := s.cores } = s ∧
    (∀ p, { getPos t p with walker := [] } = { getPos s p with walker := [] } ∧ walkerFind (getPos t p) seq page = none ∧
      ∀ n k, ¬(n = seq ∧ k = page) → walkerFind (getPos t p) n k = walkerFind (getPos s p) n k))

/-- The scrubber and the Sluice frames (R204, R205, R279). -/
def Obligations.ScrubberAndFrames : Prop :=
  (∀ (s : State) (p : Nat),
    let n := (getPos s p).scrub
    ((544 ≤ p ∨ isDefect s 1 p = true ∨ darkPosition s p = true ∨ inService s = false ∨ chanFull s (getPos s p) = true) → ∀ chk, exec (.scrubRead p chk) s = .next s) ∧
    (p < 544 → isDefect s 1 p = false → darkPosition s p = false → inService s = true → chanFull s (getPos s p) = false → n < 16384 →
      (∃ t, exec (.scrubRead p .ok) s = .next t ∧ getPos t p = { chanAdd s 1 (getPos s p) with scrub := (n + 1) % 16384 } ∧
        (∀ q, q ≠ p → getPos t q = getPos s q) ∧ OnlyLogged s { t with cores := s.cores } ∧
        getObj t (Key.scrubPasses p) = if n = 16383 then (getObj s (Key.scrubPasses p) + 1) % 2 ^ 32 else getObj s (Key.scrubPasses p)) ∧
      (∃ t, exec (.scrubRead p .transient) s = .next t ∧ (getPos t p).basin = (getPos s p).basin ∧
        getObj t (Key.scrubTransients p) = (getObj s (Key.scrubTransients p) + 1) % 2 ^ 32) ∧
      (mapGet none (getPos s p).frames (n * 256 / 65536) = none ∨ n * 256 < taskRegionEnd s →
        ∃ t, exec (.scrubRead p .failed) s = .next t ∧ (getPos t p).basin = (getPos s p).basin ∧ Reported t Code.checkFailed 1 ∧
          getObj t (Key.scrubFails p) = (getObj s (Key.scrubFails p) + 1) % 2 ^ 32 ∧
          getObj t (Key.scrubLastAddr p) = basinBase + p * 0x400000 + n * 256 ∧ getObj t (Key.scrubLastTime p) = stamp s))) ∧
  (∀ (s : State) (p seq page : Nat),
    ((getObj s Key.promoteSectors = 0 ∨ (getPos s p).promote ≠ none ∨ beingPromoted s seq page = true ∨ mayPromote s seq page = false ∨
        positionServes s p = false ∨ inCisReset s = true ∨ lruFrame s p = none ∨ (∃ f, lruFrame s p = some f ∧ frameRead s p f = true) ∨ walkerFind (getPos s p) seq page = none ∨
        (∃ w, walkerFind (getPos s p) seq page = some w ∧ w.count < getObj s Key.promoteSectors)) →
      exec (.promoteRequest p seq page) s = .next s) ∧
    (∀ w f, walkerFind (getPos s p) seq page = some w → lruFrame s p = some f → getObj s Key.promoteSectors ≠ 0 →
      getObj s Key.promoteSectors ≤ w.count → (getPos s p).promote = none → beingPromoted s seq page = false →
      mayPromote s seq page = true → positionServes s p = true → frameRead s p f = false → inCisReset s = false →
      ∃ t, exec (.promoteRequest p seq page) s = .next t ∧ (getPos t p).promote = some (seq, page, f) ∧
        (getPos t p).basin = (getPos s p).basin ∧ t.reservoir = s.reservoir ∧ (∃ j ∈ t.cistern.jobs, j.who = .promote p) ∧
        (mapGet none (getPos s p).frames f = none → t.sluice = s.sluice))) ∧
  (∀ (s : State) (p seq page f : Nat), (getPos s p).promote = some (seq, page, f) →
    (∀ j, jobOf s (.promote p) = some j → j.left ≠ 0 ∨ chanFull s (getPos s p) = true → exec (.promotionCopyComplete p) s = .next s) ∧
    (∀ j, jobOf s (.promote p) = some j → j.left = 0 → chanFull s (getPos s p) = false →
      mayPromote s seq page = false ∨ f ∉ framesOf s ∨ positionServes s p = false ∨ gotFailed j.got ≠ none →
      ∃ t, exec (.promotionCopyComplete p) s = .next t ∧
        getPos t p = { getPos s p with promote := none } ∧ { t with cores := s.cores, cistern := s.cistern } = s) ∧
    (∀ j, jobOf s (.promote p) = some j → j.left = 0 → chanFull s (getPos s p) = false → mayPromote s seq page = true → f ∈ framesOf s →
      positionServes s p = true → gotFailed j.got = none → ∃ t, exec (.promotionCopyComplete p) s = .next t ∧
        (∀ i, i < 65536 → mapGet 0#8 (getPos t p).basin (f * 65536 + i) = (gotBytes j.got (pageAddr s seq page) 65536).getD i 0#8) ∧
        (∀ off, (off < f * 65536 ∨ f * 65536 + 65536 ≤ off) → mapGet 0#8 (getPos t p).basin off = mapGet 0#8 (getPos s p).basin off) ∧
        mapGet none (getPos t p).frames f = some (seq, page) ∧ walkerFind (getPos t p) seq page = none ∧
        getPage t seq page = (getPage s seq page).map (fun x => { x with st := .basin, frame := some p }) ∧
        Counted s t Key.promotions 1))

/-- Requests enter a slice's intake (R224, R225, R229, R234). -/
def Obligations.SlicesTakeRequests : Prop :=
  (∀ (s : State) (g : Nat), ((getSlice s g).waits = [] → settleWaits s g = s) ∧
    (∀ w, (getSlice s g).waits = [w] → reqPresent s g w.req = false →
      placeLine { getSlice s g with waits := [] } (lineOf w.req.sector) (ordinaryWays s g) w.req.cls = none →
      (getSlice (settleWaits s g) g).waits = [w])) ∧
  ∀ (u : State) (g port : Nat), g < 128 →
    let s := settleWaits u g
    let sl := getSlice s g
    ((sl.portLost = true ∨ firstOffered (noteFull s g port) g port = none) → ∀ chk, ∃ t, exec (.sliceIntake g port chk) u = .next (runJobs t) ∧
      (getSlice t g).inbox.map (·.req) = sl.inbox.map (·.req) ∧ (getSlice t g).sets = sl.sets ∧ SliceFrame s t g) ∧
    (∀ q i, sl.portLost = false → firstOffered s g port = some (q, i) → q.req.cls < 8 →
      (∀ e ∈ sl.inbox, e.full = true ∨ heldBy s g e.req ≠ .register) → classLimit s 0 q.req.cls ≤ intakeCount sl q.req.cls →
      ∀ chk, ∃ t, exec (.sliceIntake g port chk) u = .next (runJobs t) ∧ SliceFrame s t g ∧ (getSlice t g).sets = sl.sets ∧
        (getSlice t g).inbox = sl.inbox.modify i (fun x => { x with held := true }) ∧ Counted s t (Key.limitHolds q.req.cls) 1) ∧
    (∀ q i, Offered s g port q i → q.req.cls < 8 → lineWaits sl (lineOf q.req.sector) = false →
      let n := q.req.sector
      let x := sectorNow s g n
      let taken (t : State) : Prop := exec (.sliceIntake g port .ok) u = .next (runJobs t) ∧ SliceFrame s t g ∧
        (getSlice t g).inbox = sl.inbox.eraseIdx i ∧ Counted s t (Key.bytes q.req.cls) (reqBytes q.req)
      (isPresent s g n = true → (∀ e ∈ sl.redq, e.req.sector ≠ n) →
        (q.req.op = .read → ∃ t, taken t ∧ Counted s t (Key.hits g) 1 ∧ sectorNow t g n = x ∧
          Answers s t g q.req ⟨n, x.data, x.bad, x.wtag, 0⟩) ∧
        (∀ mask data, q.req.op = .write mask data → x.bad = false → ∃ t, taken t ∧ Counted s t (Key.hits g) 1 ∧
          (sectorNow t g n).data = mergeBytes mask x.data data ∧ (sectorNow t g n).st = .dirty) ∧
        (isReduce q.req = true → ∃ t, taken t ∧ Counted s t (Key.hits g) 1 ∧ sectorNow t g n = x ∧
          (getSlice t g).redq = sl.redq ++ [{ req := q.req, seq := sl.nextRed, pinned := isWin n }]) ∧
        (q.req.op = .line → n % 4 = 0 → isWin n = false → ∃ t, taken t ∧
          ∀ k < 4, secPresent (getSector sl (n + k)) = false → (getSector (getSlice t g) (n + k)).st = .pending)) ∧
      (isPresent s g n = false →
        (placeLine sl (lineOf n) (ordinaryWays s g) q.req.cls = none → ∃ t, taken t ∧ Counted s t (Key.fillWaits g) 1 ∧
          (getSlice t g).waits = sl.waits ++ [⟨q.req, now s⟩]) ∧
        (∀ l, placeLine sl (lineOf n) (ordinaryWays s g) q.req.cls = some l →
          (∀ data, q.req.op = .write fullMask data → (getSector l n).st = .absent → ∃ t, taken t ∧ Counted s t (Key.hits g) 1 ∧
            (getSlice t g).fetches = sl.fetches ∧ sectorNow t g n = ⟨.dirty, slice data 0 32, q.req.wtag, false⟩) ∧
          ((q.req.op = .read ∨ isReduce q.req = true ∨ ∃ mask data, q.req.op = .write mask data ∧ mask ≠ fullMask) →
            ∃ t, taken t ∧ (∃ m ∈ (getSlice t g).mrs, m.line = lineOf n ∧ q.req ∈ m.waiters) ∧
              (getSector (getSlice t g) n).st = .pending ∧
              ((getSector l n).st ≠ .pending → ∃ f ∈ (getSlice t g).fetches, f.sector = n ∧ f.sent = false)) ∧
          (q.req.op = .line → n % 4 = 0 → ∃ t, taken t ∧
            (∀ k < 4, secPresent (getSector l (n + k)) = false → (getSector (getSlice t g) (n + k)).st = .pending) ∧
            (mrOf sl (lineOf n) = none → (getSlice t g).mrs.map (fun m => (m.line, m.waiters)) =
              sl.mrs.map (fun m => (m.line, m.waiters)) ++ [(lineOf n, [q.req])])))))

/-- Fills, and reductions in the slices (R229, R235 to R238). -/
def Obligations.SectorsFillAndReduce : Prop :=
  (∀ (s : State) (g line k : Nat), let n := line * 4 + k
    let sl := getSlice s g
    ((∀ f ∈ sl.fetches, f.sector = n → f.back = none) → exec (.sectorFill g line k) s = .next (runJobs s)) ∧
    (∀ f data bad, sl.fetches.find? (fun f => f.sector == n && f.back.isSome) = some f → f.back = some (data, bad) →
      sl.waits = [] → k < 4 →
      let waiters := ((mrOf sl line).map (·.waiters)).getD []
      (∀ r ∈ waiters, r.sector = n → r.op = .read ∨ r.op = .line) → (bad = false → (getSector sl n).st = .pending) →
      ∃ t, exec (.sectorFill g line k) s = .next (runJobs t) ∧ SliceFrame s t g ∧
        (getSlice t g).fetches = sl.fetches.filter (fun x => x.sector != n) ∧
        getSector (getSlice t g) n = (if bad then Sector.absent else ⟨.clean, data, 0, false⟩) ∧
        (∀ m ∈ (getSlice t g).mrs, m.line = line → ∀ r ∈ m.waiters, r.sector ≠ n ∨ r.op = .line) ∧
        (∀ r ∈ waiters, r.sector = n → r.op = .read → Answers s t g r ⟨n, data, bad, if bad then pageTag s n else 0, 0⟩))) ∧
  (∀ (s : State) (g : Nat), let sl := getSlice s g
    (nextReduction s g = none → ∀ chk, exec (.reductionApply g chk) s = .next (runJobs s)) ∧
    (∀ n, nextReduction s g = some n → g < 128 →
      let es := sl.redq.filter (fun e => e.req.sector == n)
      ((sectorNow s g n).bad = false → sl.waits = [] → (∀ e ∈ es, isReduce e.req = true) →
        ∃ t, exec (.reductionApply g .ok) s = .next (runJobs t) ∧ SliceFrame s t g ∧ (sectorNow t g n).data = reduced es (sectorNow s g n).data ∧
          (getSlice t g).redq = sl.redq.filter (fun e => e.req.sector != n) ∧ Counted s t (Key.reduceEntries g) es.length ∧
          ∀ e op lanes, es = [e] → e.req.op = .reduce op true lanes →
            Answers s t g e.req ⟨n, (applyLanes op lanes (sectorNow s g n).data []).2, false, 0, 0⟩) ∧
      ((sectorNow s g n).st = .clean → ∃ t, exec (.reductionApply g .failed) s = .next (runJobs t) ∧ SliceFrame s t g ∧
        (getSlice t g).redq = sl.redq ∧ (getSector (getSlice t g) n).st = .pending ∧
        getObj t (Key.cleanRefetch g) = (getObj s (Key.cleanRefetch g) + 1) % 2 ^ 32))) ∧
  (∀ (s : State) (g set : Nat), let sl := getSlice s g
    let due := sl.waits.any (fun w => homeSet (w.req.sector * 32) == set && decide (w.since + 128 ≤ now s))
    let busy := sl.forced.any (fun l => homeSet (l * 128) == set)
    ((due = false ∨ oldestLocked sl set = none ∨ busy = true) → exec (.reduceForce g set) s = .next (runJobs s)) ∧
    (g < 128 → due = true → oldestLocked sl set ≠ none → busy = false → SoundSlice s g →
      ∃ t, exec (.reduceForce g set) s = .next (runJobs t) ∧ SliceFrame s t g ∧ Counted s t (Key.reduceForced g) 1)) ∧
  (∀ (op : RedOp) (a b c : BitVec 32), redCompute op a.toNat b.toNat c.toNat % 2 ^ 32 = (wordOp op a b c).toNat)

/-- The Cistern's monitors, the Sill, pinned ways and pools (R218, R219, R221, R233, R239). -/
def Obligations.MonitorsSillAndPins : Prop :=
  (∀ (s : State), now s < s.cistern.thrashStart + getObj s Key.thrashWindow * 1000 → exec .thrashWindowEnd s = .next s) ∧
  (∀ (s : State), s.cistern.thrashStart + getObj s Key.thrashWindow * 1000 ≤ now s →
    ∃ t, exec .thrashWindowEnd s = .next t ∧ t.reservoir = s.reservoir ∧ t.sluice = s.sluice ∧ t.cores = s.cores ∧ t.cistern.thrashStart = now s ∧
    (∀ g, g < 128 → getSlice t g = { getSlice s g with windowRefetch := 0 } ∧
      (getObj s Key.thrashLimit < (getSlice s g).windowRefetch → getObj t (Key.thrashFlag g) ≠ 0) ∧
      ((getSlice s g).windowRefetch ≤ getObj s Key.thrashLimit → getObj t (Key.thrashFlag g) = getObj s (Key.thrashFlag g))) ∧
    (∀ g, g < 128 → getObj s Key.thrashLimit < (getSlice s g).windowRefetch → getObj s (Key.thrashFlag g) = 0 →
      (∀ k, k < 128 → k ≠ g → (getSlice s k).windowRefetch ≤ getObj s Key.thrashLimit) →
      ReportedUnit t Code.cisternThrash 1 g (leBytes 4 (getSlice s g).windowRefetch))) ∧
  (∀ (s : State) (g : Nat), let sl := getSlice s g
    let trips := (sl.mrs ≠ [] ∨ sl.redq ≠ [] ∨ sl.waits ≠ []) ∧ sl.lastDone + 1000000 ≤ now s
    (¬trips → exec (.cisternWatchdog g) s = .next s) ∧
    (trips → inCisReset s = true → ∃ t, exec (.cisternWatchdog g) s = .next t ∧ t.cistern = s.cistern ∧
      ReportedUnit t Code.cisternWatchdog 2 g []) ∧
    (trips → inCisReset s = false → inService s = true → ∃ t, exec (.cisternWatchdog g) s = .next (cutCopies (refuseTaken t)) ∧
      { t.cistern with jobs := s.cistern.jobs } = { s.cistern with reset := some ⟨2, g, now s⟩ } ∧ t.reservoir = s.reservoir ∧ t.sluice = s.sluice ∧
      ReportedUnit t Code.cisternReset 1 g (leBytes 1 2 ++ leBytes 3 0 ++ leBytes 4 (getObj s Key.pinEpoch)))) ∧
  (∀ (s : State) (dir : Nat), dir < 2 → let xs := mapGet [] s.cistern.sill dir
    (∀ ok, xs.all (fun x => !x.sent) = true → exec (.sillTransfer dir ok) s = .next (runJobs s)) ∧
    (∀ x i, xs.zipIdx.find? (fun e => e.1.sent) = some (x, i) →
      (∃ t, exec (.sillTransfer dir true) s = .next (runJobs t) ∧ Counted s t (Key.sillBytes dir) x.bytes ∧
        mapGet [] t.cistern.sill dir = xs.eraseIdx i ∧ (∀ d, d ≠ dir → mapGet [] t.cistern.sill d = mapGet [] s.cistern.sill d) ∧
        (∀ r g, x.item = .request r g → getSlice t g = { getSlice s g with inbox := (getSlice s g).inbox ++ [⟨3000, r, false, false⟩] } ∧
          ∀ k, k ≠ g → getSlice t k = getSlice s k) ∧
        (∀ p k id sv gr m, x.item = .answer (.core p k id) sv → findMem s p k id = some (gr, m) →
          ∃ gr', findMem t p k id = some (gr', { m with got := m.got ++ [sv] })) ∧
        (∀ half port id sv, x.item = .answer (.job half port id) sv → t.cistern.jobs =
          s.cistern.jobs.map (fun j => if j.id = id then { j with left := j.left - 1, got := j.got ++ [sv] } else j)) ∧
        (∀ p k id n gr m, x.item = .accept (.core p k id) n → findMem s p k id = some (gr, m) →
          ∃ gr', findMem t p k id = some (gr', { m with accepted := m.accepted ++ [n] }))) ∧
      (x.fails < 7 → ∃ t, exec (.sillTransfer dir false) s = .next (runJobs t) ∧ Counted s t Key.sillRetries 1 ∧
        mapGet [] t.cistern.sill dir = xs.set i { x with fails := x.fails + 1 } ∧ t.cistern.slices = s.cistern.slices ∧ t.cores = s.cores) ∧
      (7 ≤ x.fails → inService s = true → inCisReset s = false → ∃ t, exec (.sillTransfer dir false) s = .next (runJobs (cutCopies (refuseTaken t))) ∧
        t.cistern.reset = some ⟨1, 0xFFFFFFFF, now s⟩ ∧ Counted s t Key.sillRetries 1 ∧
        ReportedUnit t Code.cisternReset 1 0xFFFFFFFF (leBytes 1 1 ++ leBytes 3 0 ++ leBytes 4 (getObj s Key.pinEpoch))))) ∧
  (∀ (s : State) (half : Nat), let new := getObj s (Key.pinWays half)
    let old := pinWays s half
    (s.keeper.txn.st ≠ .applying → exec (.pinWaysApply half) s = .next s) ∧
    (s.keeper.txn.st = .applying → half < 2 → 1 ≤ new → new ≤ 12 → new ≠ old →
      ((∀ k, k < 64 → linesFrom (getSlice s (half * 64 + k)) (16 - new) = []) →
        ∃ t, exec (.pinWaysApply half) s = .next (settleTxn t) ∧ pinWays t half = new ∧ t.cistern.slices = s.cistern.slices ∧
          t.reservoir = s.reservoir ∧ ∀ o, mapGet 0#8 t.cistern.win o =
            if bits o 31 31 = half ∧ min old new - 1 ≤ bits o 30 27 then 0#8 else mapGet 0#8 s.cistern.win o) ∧
      (∀ k l, k < 64 → old < new → let g := half * 64 + k
        let goes := mayEvict (getSlice s g) l = true ∧ wbLines (getSlice s g) < 64
        linesFrom (getSlice s g) (16 - new) = [l] → findLine (getSlice s g) l.tag = some l →
        (∀ j, j < 64 → j ≠ k → linesFrom (getSlice s (half * 64 + j)) (16 - new) = []) →
        (goes → ∃ t, exec (.pinWaysApply half) s = .next (settleTxn t) ∧ pinWays t half = new ∧ findLine (getSlice t g) l.tag = none ∧
          ∀ i x, l.sectors[i]? = some x → x.st = .dirty → ∃ w ∈ (getSlice t g).wb, w.sector = l.tag * 4 + i ∧ w.data = x.data) ∧
        (¬goes → exec (.pinWaysApply half) s = .next (settleTxn s))))) ∧
  (∀ (s : State) (half : Nat), let n := getObj s (Key.poolPages half)
    (s.keeper.txn.st ≠ .applying → exec (.poolPagesApply half) s = .next s) ∧
    (s.keeper.txn.st = .applying → half < 2 → n ≠ (getHalf s half).poolPages → n < 2 ^ 20 →
      (∀ b ∈ s.sluice.bufs, ¬(b.level = 1 ∧ b.half = half)) → ∃ t, exec (.poolPagesApply half) s = .next (settleTxn t) ∧ t.cistern = s.cistern ∧
        getHalf t half = { getHalf s half with poolPages := n, poolFree := (getHalf t half).poolFree } ∧
        getHalf t (1 - half) = getHalf s (1 - half) ∧ blockPages (getHalf t half).poolFree = n ∧
        ∀ b ∈ (getHalf t half).poolFree, 2 ^ b.k ∣ b.start ∧ b.start + 2 ^ b.k ≤ n))

/-- Fetches in the Reservoir (R243, R245 to R247, R250 to R252, R284). -/
def Obligations.ReservoirReads : Prop :=
  (∀ (s : State) (g id : Nat) (f : Fetch), (getSlice s g).fetches.find? (fun x => x.id == id) = some f →
    let l := resLoc s (f.sector * 32)
    let c := getChan s l.stack l.ch
    ((mayFetch (getSlice s g) f = false ∨ f.held = true) → exec (.reservoirReadRequest g id) s = .next s) ∧
    (mayFetch (getSlice s g) f = true → f.held = false →
      (onLostStack s (f.sector * 32) = true → ∃ t, exec (.reservoirReadRequest g id) s = .next t ∧ t.reservoir = s.reservoir ∧
        OnlyFetch s t g id (fun x => { x with sent := true, held := false, back := some ((resRead s f.sector).1, true) })) ∧
      (onLostStack s (f.sector * 32) = false →
        (64 ≤ c.reads.length → exec (.reservoirReadRequest g id) s = .next s) ∧
        (c.reads.length < 64 → f.cls < 8 → classLimit s 1 f.cls ≤ chanCount c f.cls →
          ∃ t, exec (.reservoirReadRequest g id) s = .next t ∧ t.reservoir = s.reservoir ∧ Counted s t (Key.limitHolds (16 + f.cls)) 1 ∧
            OnlyFetch s t g id (fun x => { x with held := true })) ∧
        (c.reads.length < 64 → f.cls < 8 → chanCount c f.cls < classLimit s 1 f.cls →
          ∃ t, exec (.reservoirReadRequest g id) s = .next t ∧ Counted s t (Key.bytes (16 + f.cls)) 32 ∧ t.reservoir.mem = s.reservoir.mem ∧
            OnlyFetch s t g id (fun x => { x with sent := true, held := false }) ∧
            OnlyChannel s t l.stack l.ch (settleDrain { c with reads := c.reads ++ [ChRead.mk g f.id f.sector f.cls (now s) 0] }))))) ∧
  (∀ (s : State) (stack ch : Nat), stack < 8 → ch < 128 → let c := getChan s stack ch
    (∀ ok ecc, (c.retraining = true ∨ c.reads = [] ∨ (c.draining = true ∧ answeredFromWrites c = none)) →
      exec (.reservoirReadReturn stack ch ok ecc) s = .next s) ∧
    (∀ r w ok ecc, answeredFromWrites c = some (r, w) → c.retraining = false → r ∈ c.reads ∧ w ∈ c.writes ∧ w.sector = r.sector ∧
      (w.mark = false → ∃ t, exec (.reservoirReadReturn stack ch ok ecc) s = .next t ∧ t.reservoir.mem = s.reservoir.mem ∧
        (getChan t stack ch).reads = c.reads.filter (· != r) ∧ (getChan t stack ch).openRow = c.openRow ∧
        OnlyFetch s t r.slice r.fetch (fun f => { f with back := some (w.data, false) }) ∧
        getObj t (Key.bytesRead stack) = getObj s (Key.bytesRead stack))) ∧
    (∀ r, nextRead s c = some r → r ∈ c.reads ∧
      ((∃ q ∈ c.reads, q.since + 2000 ≤ now s) → r.since + 2000 ≤ now s) ∧
      ((∃ q ∈ c.reads, rowOpen s c q.sector = true ∧ ((∃ x ∈ c.reads, x.since + 2000 ≤ now s) → q.since + 2000 ≤ now s)) →
        rowOpen s c r.sector = true)) ∧
    (∀ r, nextRead s c = some r → c.retraining = false → c.draining = false → answeredFromWrites c = none →
      let data := (resRead s r.sector).1
      let marked := (resRead s r.sector).2
      let l := resLoc s (r.sector * 32)
      let ends (t : State) (ok : Bool) (ecc : Option Nat) : Prop := exec (.reservoirReadReturn stack ch ok ecc) s = .next t ∧
        t.reservoir.mem = s.reservoir.mem ∧ Counted s t (Key.bytesRead stack) 32 ∧ (getChan t stack ch).reads = c.reads.filter (· != r) ∧
        (getChan t stack ch).writes = c.writes ∧ mapGet 0 (getChan t stack ch).openRow l.bank = l.row + 1
      let spare := hasHostCopy s r.sector = true ∧ ∀ f ∈ (getSlice s r.slice).fetches, f.id = r.fetch → f.recovered = false
      let restored := (getSlice s r.slice).fetches.find? (fun f => f.id == r.fetch)
      (marked = false → ∃ t, ends t true (some 0) ∧ OnlyFetch s t r.slice r.fetch (fun f => { f with back := some (data, false) }) ∧
        (restored.any (·.recovered) = true → Counted32 s t Key.hostRecoveries 1)) ∧
      (marked = false → ∀ n, ∃ t, exec (.reservoirReadReturn stack ch true (some n)) s = .next t ∧ Counted s t (Key.corrected stack) n) ∧
      (marked = false → r.tries < 3 → ∃ t, exec (.reservoirReadReturn stack ch false (some 0)) s = .next t ∧
        Counted s t (Key.channelRetries stack) 1 ∧ t.cistern = s.cistern ∧ t.reservoir.mem = s.reservoir.mem ∧
        (getChan t stack ch).reads = replaceFirst (· == r) (fun x => { x with tries := r.tries + 1 }) c.reads) ∧
      (∀ ok ecc, (ecc = none ∨ marked = true ∨ (ok = false ∧ 3 ≤ r.tries)) →
        (hasHostCopy s r.sector = false → ∃ t, ends t ok ecc ∧
          OnlyFetch s t r.slice r.fetch (fun f => { f with back := some (data, true) }) ∧
          (ecc = none ∨ marked = true → Counted s t (Key.stackUncorrectable stack) 1)) ∧
        (spare → ∃ t, ends t ok ecc ∧ getObj t Key.hostRecoveries = getObj s Key.hostRecoveries ∧
          OnlyFetch s t r.slice r.fetch (fun f => { f with sent := false, recovered := true }) ∧
          ∀ n, mapGet false t.reservoir.marked n = if n / 2048 = r.sector / 2048 then false else mapGet false s.reservoir.marked n))))

/-- Writebacks, refresh and retraining (R226, R246 to R248, R250 to R252). -/
def Obligations.ReservoirWritesAndUpkeep : Prop :=
  (∀ (s : State) (g : Nat), let sl := getSlice s g
    ((sl.wb = [] ∨ ∃ w rest, sl.wb = w :: rest ∧ writeRoom s w.sector = false) → exec (.reservoirWriteRequest g) s = .next (runJobs s)) ∧
    (∀ w rest, sl.wb = w :: rest → g < 128 → w.cls < 8 → sl.waits = [] → writeRoom s w.sector = true →
      ∃ t, exec (.reservoirWriteRequest g) s = .next (runJobs t) ∧ (getSlice t g).wb = rest ∧ (∀ k, k ≠ g → getSlice t k = getSlice s k) ∧
        Counted s t (Key.writebacks g) 1 ∧ Counted s t (Key.bytes (16 + w.cls)) 32 ∧ t.reservoir.mem = s.reservoir.mem ∧
        pageTag t w.sector = mergeTag false (pageTag s w.sector) w.wtag ∧
        (onLostStack s (w.sector * 32) = true → t.reservoir.chans = s.reservoir.chans) ∧
        (onLostStack s (w.sector * 32) = false → ∀ n, (n = w.sector ∨ inShadow s (n * 32) = false) → resRead t n = if n = w.sector then (w.data, w.mark) else resRead s n))) ∧
  (∀ (s : State) (stack ch : Nat), let c := getChan s stack ch
    let n := c.writes.length
    let idle := c.reads = [] ∧ c.emptySince + 32 ≤ now s
    ∃ t, exec (.reservoirWriteDrain stack ch) s = .next t ∧ { t with reservoir := s.reservoir } = s ∧
      OnlyChannel s t stack ch { c with draining := (getChan t stack ch).draining } ∧
      (48 ≤ n ∨ (16 < n ∧ idle) → (getChan t stack ch).draining = true) ∧
      (n ≤ 16 ∨ (n < 48 ∧ c.reads ≠ []) → (getChan t stack ch).draining = false) ∧
      (16 < n → n < 48 → c.reads = [] → ¬idle → (getChan t stack ch).draining = c.draining)) ∧
  (∀ (s : State) (stack ch : Nat), stack < 8 → ch < 128 → let c := getChan s stack ch
    (∀ ok, (c.retraining = true ∨ c.draining = false ∨ c.writes = []) → exec (.reservoirWriteBurstComplete stack ch ok) s = .next s) ∧
    (∀ w rest, c.retraining = false → c.draining = true → c.writes = w :: rest →
      let l := resLoc s (w.sector * 32)
      (∃ t, exec (.reservoirWriteBurstComplete stack ch true) s = .next t ∧ Counted s t (Key.bytesWritten stack) 32 ∧
        OnlyChannel s t stack ch (settleDrain { c with writes := rest, writeTries := 0, openRow := mapSet 0 c.openRow l.bank (l.row + 1) }) ∧
        mapGetList 0#8 t.reservoir.mem (w.sector * 32) 32 = slice w.data 0 32 ∧ mapGet false t.reservoir.marked w.sector = w.mark ∧
        (∀ a, a / 32 ≠ w.sector → mapGet 0#8 t.reservoir.mem a = mapGet 0#8 s.reservoir.mem a) ∧ t.cistern = s.cistern) ∧
      (c.writeTries < 3 → ∃ t, exec (.reservoirWriteBurstComplete stack ch false) s = .next t ∧ t.reservoir.mem = s.reservoir.mem ∧
        Counted s t (Key.channelRetries stack) 1 ∧ (getChan t stack ch).writes = c.writes ∧ (getChan t stack ch).writeTries = c.writeTries + 1) ∧
      (3 ≤ c.writeTries → stack ∉ s.reservoir.lost → ∃ t, exec (.reservoirWriteBurstComplete stack ch false) s = .next t ∧ StackGone s t stack ch))) ∧
  (∀ (s : State) (stack ch : Nat), stack < 8 → let c := getChan s stack ch
    let b := c.refreshBank
    let queued := bankRequests s c b
    (0 < queued → mapGet 0 c.owed b < 3 → ∃ t, exec (.refresh stack ch) s = .next t ∧ { t with reservoir := s.reservoir } = s ∧
      OnlyChannel s t stack ch { c with refreshBank := (b + 1) % 32, owed := mapSet 0 c.owed b (mapGet 0 c.owed b + 1) }) ∧
    ((queued = 0 ∨ 3 ≤ mapGet 0 c.owed b) → ∃ t, exec (.refresh stack ch) s = .next t ∧ Counted s t (Key.refreshWaits stack) queued ∧
      mapGet 0 (getChan t stack ch).openRow b = 0 ∧ (∀ k, k ≠ b → mapGet 0 (getChan t stack ch).openRow k = mapGet 0 c.openRow k) ∧
      (getChan t stack ch).reads = c.reads ∧ (getChan t stack ch).writes = c.writes ∧ (getChan t stack ch).refreshBank = (b + 1) % 32)) ∧
  (∀ (s : State) (stack ch : Nat), stack < 8 → ch < 128 → let c := getChan s stack ch
    let failed := (c.fails.filter (fun x => decide (now s < x + 1000000))).length
    ((failed < 16 ∨ c.retraining = true) → exec (.channelRetrain stack ch) s = .next s) ∧
    (16 ≤ failed → c.retraining = false → ∃ t, exec (.channelRetrain stack ch) s = .next t ∧
      OnlyChannel s t stack ch { c with retraining := true, fails := [] } ∧
      Counted32 s t (Key.stackRetrains stack) 1) ∧
    (∀ ok, c.retraining = false → exec (.channelRetrainComplete stack ch ok) s = .next s) ∧
    (c.retraining = true →
      (∃ t, exec (.channelRetrainComplete stack ch true) s = .next t ∧ OnlyChannel s t stack ch { c with retraining := false } ∧
        { t with reservoir := s.reservoir } = s) ∧
      (stack ∉ s.reservoir.lost → ∃ t, exec (.channelRetrainComplete stack ch false) s = .next t ∧ StackGone s t stack ch)))

/-- Host moves and released sequences (R265, R272, R277, R282, R283). Where the manual leaves a choice, it says the model's own
(log entries 99 and 108). -/
def Obligations.HostMovesAndReleases : Prop :=
  (∀ (s : State), let pages := ((aheadTasks s).flatMap (fun e => taskPages s e.2)).dedup
    ((inService s = false ∨ inCisReset s = true) → exec .hostLookahead s = .next s) ∧
    (inService s = true → inCisReset s = false → ∃ t, exec .hostLookahead s = .next t ∧ t.reservoir = s.reservoir ∧ t.cores = s.cores ∧
      t.fountain = s.fountain ∧
      (∀ n k pg, getPage s n k = some pg → (pg.st ≠ .host ∨ (n, k) ∉ pages) → getPage t n k = some pg) ∧
      (∀ n k pg, getPage s n k = some pg → pg.st = .host → ∀ x, getPage t n k = some x → x = pg ∨
        (x.st = .pagingIn ∧ x.ahead = true ∧ (n, k, true) ∈ t.sluice.moves)) ∧
      (∀ n k q pg z s1, pages = [(n, k)] → getSeq s n = some q → getPage s n k = some pg → pg.st = .host →
        takeZonePage s q.half = some (z, s1) → t.sluice.moves = s.sluice.moves ++ [(n, k, true)] ∧
          getPage t n k = some { pg with st := .pagingIn, zone := z, ahead := true }))) ∧
  (∀ (s : State) (n k : Nat) (data : Option (List Byte)),
    ((moveServed s (n, k, true) = false ∨ (jobOf s (.pageIn n k)).isSome = true) → exec (.pageInComplete n k data) s = .next s) ∧
    (moveServed s (n, k, true) = true → jobOf s (.pageIn n k) = none →
      (∀ bs, data = some bs → ∃ t, exec (.pageInComplete n k data) s = .next t ∧ Counted s t Key.hostBytesIn 65536 ∧ t.sluice = s.sluice ∧
        ∃ j, t.cistern.jobs = s.cistern.jobs ++ [j] ∧ j.who = .pageIn n k ∧ j.left = 2048) ∧
      (∀ q pg, data = none → orphanOf s n k true = none → getSeq s n = some q → getPage s n k = some pg → QuietPaging s →
        (∀ e ∈ liveSlots s, e.2.staging = .moving → (n, k) ∉ e.2.asked) → NoPoisonDue s →
        ∃ t, exec (.pageInComplete n k data) s = .next t ∧ ReportedUnit t Code.pageInFailed 2 n (leBytes 4 k) ∧
          getPage t n k = some { pg with st := .host, ahead := false } ∧
          (getHalf t q.half).freed = pg.zone :: (getHalf s q.half).freed ∧ t.reservoir = s.reservoir)) ∧
    (∀ j, s.cistern.jobs = [j] → j.who = .pageIn n k → j.left = 0 → runJobs s = landPage n k true (dropJob s j.id)) ∧
    (∀ q pg, orphanOf s n k true = none → getSeq s n = some q → getPage s n k = some pg → QuietPaging s →
      let t := landPage n k true s
      let st : PageState := if pg.ahead then .reservoir else .cistern
      t.sluice.moves = s.sluice.moves.erase (n, k, true) ∧
        (pageWritable s n k q = true → getPage t n k = some { pg with st := st, hostPage := none, ahead := false }) ∧
        (pageWritable s n k q = false → (n, k) ∈ t.sluice.hostCopies ∧ getPage t n k = some { pg with st := st, ahead := false }))) ∧
  (∀ (s : State) (half : Nat), let h := getHalf s half
    let short := half < 2 ∧ inService s = true ∧ inCisReset s = false ∧ getObj s Key.hostPoolPages ≠ 0 ∧
      (h.pagingOut = true ∨ freeSeqPages h < getObj s Key.pageoutLow)
    (¬short → exec (.pageoutStart half) s = .next s) ∧
    (∀ n k pg rest, short → pageoutCandidates s half = (n, k) :: rest → (n, k) ∉ rest → getPage s n k = some pg →
      freeSeqPages h + pagingOut s half < getObj s Key.pageoutHigh →
      (pg.hostPage ≠ none → ∃ t, exec (.pageoutStart half) s = .next t ∧ getPage t n k = some { pg with st := .host } ∧
        pg.zone ∈ (getHalf t half).freed) ∧
      (∀ x s1, pg.hostPage = none → s.sluice.moves.length < getObj s Key.hostMoves → takeHostPage s = some (x, s1) →
        ∃ t, exec (.pageoutStart half) s = .next t ∧ getPage t n k = some { pg with st := .pagingOut, hostPage := some x } ∧
          (n, k, false) ∈ t.sluice.moves))) ∧
  (∀ (s : State) (n k : Nat) (ok : Bool),
    ((moveServed s (n, k, false) = false ∨ jobOf s (.pageOut n k) = none) → exec (.pageoutComplete n k ok) s = .next s) ∧
    (∀ j q pg, moveServed s (n, k, false) = true → jobOf s (.pageOut n k) = some j → orphanOf s n k false = none → getSeq s n = some q →
      getPage s n k = some pg → pg.st = .pagingOut → QuietPaging s →
      let bytes := gotBytes j.got (pageAddr s n k) 65536
      let address := getObj s Key.hostPoolBase + (pg.hostPage.getD 0) * 2 ^ 16
      let cancelled (t : State) : Prop := getPage t n k = some { pg with st := .cistern, hostPage := none } ∧ Counted s t Key.pageoutCancels 1
      (ok = true → j.left ≠ 0 → exec (.pageoutComplete n k ok) s = .next s) ∧
      (ok = true → j.left = 0 → gotFailed j.got = none → getObj s Key.hostClass < 8 → ∃ t, exec (.pageoutComplete n k ok) s = .next t ∧
        Counted s t Key.hostBytesOut 65536 ∧ getPage t n k = some { pg with st := .host } ∧ pg.zone ∈ (getHalf t q.half).freed ∧
        t.out = (if servesCopies s then .hostWrite address bytes false else .headMove address bytes) :: s.out) ∧
      (ok = true → j.left = 0 → gotFailed j.got ≠ none → ∃ t, exec (.pageoutComplete n k ok) s = .next t ∧ t.out = s.out ∧ cancelled t) ∧
      (ok = false → ∃ t, exec (.pageoutComplete n k ok) s = .next t ∧ ReportedUnit t Code.pageInFailed 2 n (leBytes 4 k) ∧ cancelled t))) ∧
  (∀ (s : State) (w : ObjWrite) (n : Nat),
    (WriteTaken s w Key.seqRelease n →
      (getSeq s n = none → ∃ t, exec (.seqRelease w) s = .next t ∧ t.sluice = s.sluice) ∧
      (∀ q, getSeq s n = some q → q.st = .active →
        (seqUsed s n = true → ∃ t, exec (.seqRelease w) s = .next t ∧ getSeq t n = some { q with st := .releasing } ∧
          ∀ k, k ≠ n → getSeq t k = getSeq s k) ∧
        (seqUsed s n = false → ∃ t, exec (.seqRelease w) s = .next t ∧ getSeq t n = none ∧ (∀ k, k ≠ n → getSeq t k = getSeq s k) ∧
          ∀ pg ∈ q.pages, (pg.st = .reservoir ∨ pg.st = .cistern ∨ pg.st = .basin) → pg.zone ∈ (getHalf t q.half).freed))) ∧
    (WriteTaken s w Key.seqQuery n → ∃ t, exec (.seqQuery w) s = .next t ∧ t.sluice = s.sluice ∧ getObj t Key.seqQuery = n ∧
      ∀ q, getSeq s n = some q → viewSeq t 1 = some q.st.code ∧ viewSeq t 2 = some q.length ∧ viewSeq t 3 = some q.writeFrom ∧
        viewSeq t 4 = some q.pages.length ∧ viewSeq t 6 = some q.half))

/-- Flits, replay and retraining (R302 to R312, R320). Where the manual leaves a choice, it says the model's own (log entry 53). -/
def Obligations.FlitsAndLinks : Prop :=
  (∀ (s : State) (l : Nat) (fr : List Byte), l < 36 → let k := getLink s l
    (receives s l = false → exec (.flitReceive l fr) s = .next s) ∧
    (receives s l = true → Still k →
      let retry (t : State) : Prop := (k.gap = none ∨ ∃ x, k.gap = some x ∧ x + 1000 ≤ now s) →
        (getLink t l).gap = some (now s) ∧ t.out = sentFlit l (flitBytes ((k.nextSeq + 4095) % 4096) k.lastRx 0 3 0 (bareFlit .retryReq)) :: s.out
      (decodeFrame fr = none → ∃ t, exec (.flitReceive l fr) s = .next t ∧ OnlyLink s t l { k with gap := (getLink t l).gap } ∧ retry t) ∧
      (∀ f fixed, decodeFrame fr = some (f, fixed) →
        let h := leAt f 0 16
        let seq := bits h 127 116
        let free (m : Sparse Nat) : Sparse Nat :=
          if bits h 95 94 = 3 then m else mapMod 0 m (bits h 97 96 * 4 + bits h 95 94) (fun n => n - bits h 93 90)
        let k1 := { k with unacked := dropAcked k.unacked (bits h 115 104), lastGood := now s, used := free k.used }
        (∀ p, packetOf f = some p → p.ty ≠ .null → p.ty ≠ .retryReq →
          (seq = (k.lastRx + 1) % 4096 →
            (packetOk p = true → ∃ t, exec (.flitReceive l fr) s = .next t ∧ Counted s t (Key.bytesRx l) 240 ∧
              OnlyLink s t l { k1 with lastRx := seq, gap := none, rx := if p.ty = .pool then k.rx else k.rx ++ [p] }) ∧
            (packetOk p = false → ∃ t, exec (.flitReceive l fr) s = .next t ∧ Counted s t Key.protocolErrors 1 ∧
              ReportedUnit t Code.linkProtocol 1 l [] ∧ (getLink t l).rx = k.rx ∧ (getLink t l).lastRx = seq)) ∧
          (seq ≠ (k.lastRx + 1) % 4096 → ∃ t, exec (.flitReceive l fr) s = .next t ∧ retry t ∧
            OnlyLink s t l { k1 with gap := (getLink t l).gap })) ∧
        (∀ p, packetOf f = some p → (p.ty = .null ∨ p.ty = .retryReq) →
          (seq = k.lastRx → packetOk p = true → ∃ t, exec (.flitReceive l fr) s = .next t ∧ OnlyLink s t l { k1 with rx := k.rx ++ [p] }) ∧
          (seq = k.lastRx → packetOk p = false → ∃ t, exec (.flitReceive l fr) s = .next t ∧ OnlyLink s t l k1 ∧
            Counted s t Key.protocolErrors 1 ∧ ReportedUnit t Code.linkProtocol 1 l []) ∧
          (seq ≠ k.lastRx → packetOk p = true → ∃ t, exec (.flitReceive l fr) s = .next t ∧ retry t ∧
            OnlyLink s t l { k1 with rx := k.rx ++ [p], gap := (getLink t l).gap }))))) ∧
  (∀ (s : State) (l : Nat), l < 36 → let k := getLink s l
    ((∀ p ∈ k.rx, p.ty ≠ .null) → exec (.nullPacket l) s = .next s) ∧
    (∀ i, k.rx.findIdx? (fun p => p.ty == .null) = some i → Still k → ∃ t, exec (.nullPacket l) s = .next t ∧
      OnlyLink s t l { k with rx := k.rx.eraseIdx i } ∧ { t with links := s.links } = s) ∧
    ((∀ p ∈ k.rx, p.ty ≠ .retryReq) → exec (.retryReqPacket l) s = .next s) ∧
    (∀ i, k.rx.findIdx? (fun p => p.ty == .retryReq) = some i → receives s l = false → ∃ t, exec (.retryReqPacket l) s = .next t ∧
      OnlyLink s t l { k with rx := k.rx.eraseIdx i } ∧ { t with links := s.links } = s) ∧
    (∀ i, k.rx.findIdx? (fun p => p.ty == .retryReq) = some i → receives s l = true → ∃ t, exec (.retryReqPacket l) s = .next (pumpLink t l) ∧
      t.out = (resends l k).reverse ++ s.out ∧ (getLink t l).unacked = resentOnce s k ∧ (getLink t l).rx = k.rx.eraseIdx i ∧
      Counted s t (Key.flitRetries l) k.unacked.length) ∧
    (∀ u us, k.unacked = u :: us →
      ((receives s l = false ∨ now s < u.sentAt + 2000) → exec (.replayTimeout l) s = .next s) ∧
      (receives s l = true → u.sentAt + 2000 ≤ now s → ∃ t, exec (.replayTimeout l) s = .next t ∧ t.out = (resends l k).reverse ++ s.out ∧
        (getLink t l).unacked = resentOnce s k ∧ Counted s t (Key.flitRetries l) k.unacked.length)) ∧
    (k.unacked = [] → exec (.replayTimeout l) s = .next s) ∧
    (∀ cause, cause.link = l → let due := k.st = .up ∧ ((∃ u ∈ k.unacked, 8 ≤ u.resends) ∨
       64 ≤ (k.resentAt.filter (fun x => decide (now s < x + 1000000))).length ∨ cause = .patterns l)
     (¬due → exec (.linkRetrain cause) s = .next s) ∧
     (due → ∃ t, exec (.linkRetrain cause) s = .next t ∧ Counted32 s t (Key.linkRetrains l) 1 ∧ t.out.length ≤ s.out.length + 1 ∧
       OnlyLink s t l { k with st := .retraining, attempts := 0, resentAt := [], unacked := k.unacked.map (fun u => { u with resends := 0 }) } ∧
       ∃ e es, t.keeper.ring = e :: es ∧ e.severity = 1 ∧ e.unit = l)) ∧
    (let due := (k.st = .up ∨ k.st = .withdrawn) ∧ k.lastGood + 8000 ≤ now s
     (¬due → exec (.linkDownTimeout l) s = .next s) ∧ (due → ∃ t, exec (.linkDownTimeout l) s = .next t ∧ LinkDown s t l))) ∧
  (∀ (s : State) (tr : LinkTrain), tr.link < 36 → let k := getLink s tr.link
    (k.st ≠ .retraining → k.st ≠ .training → exec (.linkRetrainComplete tr) s = .next s) ∧
    ((k.st = .retraining ∨ k.st = .training) →
      (trainOk tr = true → ∃ t, exec (.linkRetrainComplete tr) s = .next (pumpLink t tr.link) ∧ (getLink t tr.link).st = .up ∧
        (getLink t tr.link).peerDev = some tr.peerDevice ∧ (getLink t tr.link).peerLink = some tr.peerLink ∧
        (getLink t tr.link).used = [] ∧ (getLink t tr.link).toReturn = [] ∧ (getLink t tr.link).egress = k.egress ∧
        (getLink t tr.link).unacked = resentOnce s k ∧ t.out = (resends tr.link k).reverse ++ s.out ∧ getObj t (Key.eyeMargin tr.link) = tr.eye) ∧
      (trainOk tr = false → k.attempts < 2 → ∃ t, exec (.linkRetrainComplete tr) s = .next t ∧ { t with links := s.links } = s ∧
        OnlyLink s t tr.link { k with attempts := k.attempts + 1 }) ∧
      (trainOk tr = false → 2 ≤ k.attempts → ∃ t, exec (.linkRetrainComplete tr) s = .next t ∧ LinkDown s t tr.link))) ∧
  (∀ (s : State) (d tag : Nat), (findReq s d tag = none → exec (.peerTimeout d tag) s = .next s) ∧
    (∀ r, findReq s d tag = some r → let limit := r.since + getObj s Key.peerTimeout * 1000000
      (now s < limit → exec (.peerTimeout d tag) s = .next s) ∧
      (limit ≤ now s → s.pool.waiting = [] → ∀ p g id n sl, r.user = .core p g id → memBehind s p id ≠ none → r.slot = some n →
        getSlot s n = some sl → ∃ t, exec (.peerTimeout d tag) s = .next t ∧
          (getSlot t n).map (·.ending) = some (some (sl.ending.getD { code := Code.peerLost, replay := none })) ∧
          ∀ q ∈ t.pool.reqs, ¬(q.dev = d ∧ q.tag = tag)))) ∧
  (∀ f : List Byte, f.length = 256 → (wireFrame f).length = 272 ∧ (wireFrame f).take 256 = f ∧
    slice ((wireFrame f).drop 256) 0 4 = leBytes 4 (crc32c f)) ∧
  (∀ (fr : List Byte) (l i j : Nat), l < 4 → i < 68 → j < 4 → fr.length = 272 →
    ((frameLanes fr)[l]?).bind (fun x => x[4 * i + j]?) = some ((fr.getD (4 * i + l) 0#8).toNat / 4 ^ j % 4)) ∧
  (∀ t : LinkTrain, trainOk t = true ↔ ((t.order = [0, 1, 2, 3] ∨ t.order = [3, 2, 1, 0]) ∧ t.aligned = true ∧ t.lanes.length = 4 ∧
    ∀ x ∈ t.lanes, x.errors ≤ 10000))

/-- Requests of peers at their home, and packets on their way through (R305 to R307, R316, R318, R320, R322). Where the manual leaves a choice, it says the model's own (log entry 53). -/
def Obligations.RequestPackets : Prop :=
  (∀ row ∈ packetRows, ∀ (s : State) (l : Nat), l < 36 →
    (frontPacket (getLink s l) [row.1] = none → exec (row.2 l) s = .next s) ∧
    (∀ p i, frontPacket (getLink s l) [row.1] = some (p, i) →
      (packetHeld s p = true → exec (row.2 l) s = .next s) ∧
      (p.dst ≠ s.pool.device → (2 ≤ p.hops ∨ isMember s p.dst = false) →
        ∃ t, exec (row.2 l) s = .next t ∧ Counted s t Key.protocolErrors 1 ∧ ReportedUnit t Code.linkProtocol 1 l [] ∧ SameMemory s t) ∧
      (p.dst ≠ s.pool.device → p.hops < 2 → isMember s p.dst = true → Reaches (takeRx s l i) p.dst →
        ∃ t, exec (row.2 l) s = .next t ∧ SentOn t { p with hops := p.hops + 1 } ∧ SameMemory s t))) ∧
  (∀ (s : State) (l i : Nat) (p : Packet) (chk : Chk), Arrived s l .read p i →
    let n := 32 * (p.sectors + 1)
    (slotTableAt p.addr = none → RefusedAt (.readPacket l chk) s l i p n) ∧
    (∀ off, slotTableAt p.addr = some off → off + n ≤ 2 ^ 24 → chk = .failed → exec (.readPacket l chk) s =
      .next (pumpLink (refusePeer (readSlot (takeRx s l i) (off / 256) .failed) p Code.checkFailed) l)) ∧
    (∀ off, slotTableAt p.addr = some off → off + n ≤ 2 ^ 24 → chk = .ok →
      DoneAtHome (.readPacket l chk) s (takeRx s l i) (answerOf s p .readData p.sectors
        ((List.range n).map (fun k => (slotBytes s ((off + k) / 256)).getD ((off + k) % 256) 0#8)))) ∧
    (slotTableAt p.addr = none → homeRefusal s p.addr n = none → p.addr % 32 = 0 →
      TakenAtHome (.readPacket l chk) s l i p ((List.range (p.sectors + 1)).map (fun k => (p.addr / 32 + k, .read))))) ∧
  (∀ (s : State) (l i : Nat) (p : Packet), Arrived s l .write p i →
    RefusedAt (.writePacket l) s l i p (32 * (p.sectors + 1)) ∧
    (homeRefusal s p.addr (32 * (p.sectors + 1)) = none → slotTableAt p.addr = none → p.sectors ≤ 6 → p.addr % 32 = 0 →
      TakenAtHome (.writePacket l) s l i p
        ((List.range (p.sectors + 1)).map (fun k => (p.addr / 32 + k, .write fullMask (slice p.payload (32 * k) 32)))))) ∧
  (∀ (s : State) (l i : Nat) (p : Packet), Arrived s l .writeMasked p i →
    let mask (k : Nat) : Nat := bits (leAt p.payload 0 16) (32 * k + 31) (32 * k)
    let ops := ([0, 1, 2, 3].filter (fun k => mask k != 0)).map (fun k =>
      (p.addr / 128 * 4 + k, ReqOp.write (mask k) (slice p.payload (16 + 32 * k) 32)))
    RefusedAt (.writeMaskedPacket l) s l i p 128 ∧
    (homeRefusal s p.addr 128 = none → slotTableAt p.addr = none →
      (ops ≠ [] → TakenAtHome (.writeMaskedPacket l) s l i p ops) ∧
      (ops = [] → DoneAtHome (.writeMaskedPacket l) s (takeRx s l i) (answerOf s p .writeAck 0 [])))) ∧
  (∀ (s : State) (l i : Nat) (p : Packet), Arrived s l .atom p i → bits (leAt p.payload 0 8) 6 4 = 2 →
    let v := bits (leAt p.payload 0 8) 3 0
    let mask := leAt p.payload 8 16
    let lane (o : Nat) : RedLane := if v = 10
      then { lane := o / 4, addr := p.addr + o, opnd := leAt p.payload (24 + o % 64) 4, swap := leAt p.payload (88 + o % 64) 4 }
      else { lane := o / 4, addr := p.addr + o, opnd := leAt p.payload (24 + o) 4, swap := 0 }
    let ops := laneOps (atomOp v) true ((selected 4 mask).map lane)
    RefusedAt (.atomPacket l) s l i p 128 ∧
    (homeRefusal s p.addr 128 = none → slotTableAt p.addr = none →
      (ops ≠ [] → TakenAtHome (.atomPacket l) s l i p ops) ∧
      (ops = [] → DoneAtHome (.atomPacket l) s (takeRx s l i) (answerOf s p .atomData 3 (leBytes 16 mask ++ List.replicate 128 0#8))))) ∧
  (∀ (s : State) (l i : Nat) (p : Packet), Arrived s l .red p i →
    let v := bits (leAt p.payload 0 8) 3 0
    let size := 2 ^ bits (leAt p.payload 0 8) 6 4
    let n := 32 * (p.sectors + 1)
    let lanes : List RedLane := (List.range (n / size)).map (fun k =>
      { lane := k, addr := p.addr + k * size, opnd := leAt p.payload (8 + k * size) size, swap := 0 })
    (redRoom s p = false → exec (.redPacket l) s = .next s) ∧
    (redRoom s p = true → RefusedAt (.redPacket l) s l i p n) ∧
    (redRoom s p = true → homeRefusal s p.addr n = none → slotTableAt p.addr = none → lanes ≠ [] →
      TakenAtHome (.redPacket l) s l i p (laneOps (redOp v) false lanes))) ∧
  (∀ (s : State) (l i : Nat) (p : Packet), Arrived s l .redMasked p i →
    let v := bits (leAt p.payload 0 8) 3 0
    let size := 2 ^ bits (leAt p.payload 0 8) 6 4
    let ops := laneOps (redOp v) false ((selected size (leAt p.payload 8 16)).map (fun o =>
      { lane := o / size, addr := p.addr + o, opnd := leAt p.payload (24 + o) size, swap := 0 }))
    (redRoom s p = false → exec (.redMaskedPacket l) s = .next s) ∧
    (redRoom s p = true → RefusedAt (.redMaskedPacket l) s l i p 128) ∧
    (redRoom s p = true → homeRefusal s p.addr 128 = none → slotTableAt p.addr = none →
      (ops ≠ [] → TakenAtHome (.redMaskedPacket l) s l i p ops) ∧
      (ops = [] → DoneAtHome (.redMaskedPacket l) s (takeRx s l i) (answerOf s p .writeAck 0 [])))) ∧
  (∀ (s : State), (∀ j ∈ s.cistern.jobs, j.left ≠ 0) → runJobs s = s) ∧
  (∀ (s : State) (half port cls wtag sector : Nat) (who : JobFor) (op : ReqOp),
    let t := startJob s half port cls wtag who [] [(sector, op)]
    let g := homeSlice s (sector * 32)
    let r : Req := { origin := .job half port s.cistern.nextJob, cls := cls, sector := sector, wtag := wtag, op := op }
    t.cistern.jobs = s.cistern.jobs ++ [⟨s.cistern.nextJob, half, port, cls, who, 1, []⟩] ∧ t.cistern.nextJob = s.cistern.nextJob + 1 ∧
      (reachesHalf half g = true → getSlice t g = { getSlice s g with inbox := (getSlice s g).inbox ++ [⟨port, r, false, false⟩] } ∧
        t.cistern.sill = s.cistern.sill ∧ ∀ k, k ≠ g → getSlice t k = getSlice s k) ∧
      (reachesHalf half g = false → t.cistern.slices = s.cistern.slices ∧ ∃ x, mapGet [] t.cistern.sill half =
        mapGet [] s.cistern.sill half ++ [x] ∧ x.item = .request r g ∧ x.cls = cls)) ∧
  (∀ (s : State) (j : Job), s.cistern.jobs = [j] → j.left = 0 →
    (j.who = .post → runJobs s = dropJob s j.id) ∧
    (∀ tag a n, j.who = .bar4 tag a n → (runJobs s).cistern = (dropJob s j.id).cistern ∧
      (runJobs s).out = .completion tag (if (gotFailed j.got).isSome then .poisoned else .success) (gotBytes j.got a n) :: s.out) ∧
    (∀ p, j.who = .packet p → Reaches s p.src → (runJobs s).cistern.jobs = [] ∧
      (gotFailed j.got = none → p.ty = .read → SentOn (runJobs s) (answerOf s p .readData p.sectors (gotBytes j.got p.addr (packetSpan p)))) ∧
      (gotFailed j.got = none → p.ty = .atom →
        SentOn (runJobs s) (answerOf s p .atomData 3 (leBytes 16 (leAt p.payload 8 16) ++ atomLine p j.got))) ∧
      (gotFailed j.got = none → p.ty ≠ .read → p.ty ≠ .atom → SentOn (runJobs s) (answerOf s p .writeAck 0 [])) ∧
      (∀ v, gotFailed j.got = some v →
        SentOn (runJobs s) (answerOf s p .refused 0 (leBytes 2 (if v.code = 0 then Code.checkFailed else v.code))))))

/-- Answers of peers, posted records, signals and dictionary fragments (R34, R48, R58, R305 to R307, R320, R370). Where the manual leaves a choice, it says the model's own (log entry 53). -/
def Obligations.ResponsePackets : Prop :=
  (∀ row ∈ ([(.readData, .readDataPacket), (.writeAck, .writeAckPacket), (.atomData, .atomDataPacket), (.postResult, .postResultPacket),
      (.refused, .refusedPacket)] : List (PktType × (Nat → Instr))), ∀ (s : State) (l i : Nat) (p : Packet), l < 36 → Arrived s l row.1 p i →
    findReq s p.src p.tag = none → ∃ t, exec (row.2 l) s = .next t ∧ SameMemory s t ∧ t.pool = s.pool ∧ t.keeper.rest = s.keeper.rest) ∧
  (∀ (s : State) (l i : Nat) (p : Packet) (r : PeerReq), l < 36 → findReq s p.src p.tag = some r → s.pool.waiting = [] →
    (Arrived s l .readData p i →
      (∀ pos a id g gr m, r.user = .core pos a id → findMem s pos g id = some (gr, m) → ∃ t gr' m', exec (.readDataPacket l) s = .next t ∧
        findReq t p.src p.tag ≠ some r ∧ findMem t pos g id = some (gr', m') ∧ gr'.gpr = gr.gpr ∧ m'.accepted = m.accepted ∧
        m'.got = m.got ++ (List.range (p.sectors + 1)).map (fun k => Served.mk (peerKey (p.src * 2 ^ 58 + p.addr + 32 * k))
          (slice p.payload (32 * k) 32) false 0 0) ∧ t.reservoir = s.reservoir) ∧
      (∀ m, r.user = .copy m → (getCopy s m.cc).state = 3 → ∃ t, exec (.readDataPacket l) s = .next t ∧
        .hostWrite ((getCopy s m.cc).host + (p.src * 2 ^ 58 + p.addr - (getCopy s m.cc).pool)) (slice p.payload 0 (32 * (p.sectors + 1))) false ∈ t.out ∧
        (getCopy t m.cc).moved = (getCopy s m.cc).moved + 32 * (p.sectors + 1) ∧ (getCopy t m.cc).state = (if copyBusy t m.cc then 3 else 5)) ∧
      (∀ tag w, r.user = .bar4 tag false → s.port.bar4.find? (fun x => x.tag == tag) = some w →
        (w.left = 1 → w.failed = false → ∃ t, exec (.readDataPacket l) s = .next t ∧ (∀ x ∈ t.port.bar4, x.tag ≠ tag) ∧
          .completion tag .success (mapGetList 0#8 (mapSetList 0#8 w.got (p.src * 2 ^ 58 + p.addr) (slice p.payload 0 (32 * (p.sectors + 1))))
            w.addr w.len) ∈ t.out) ∧
        (2 ≤ w.left → ∃ t x, exec (.readDataPacket l) s = .next t ∧ t.port.bar4.find? (fun x => x.tag == tag) = some x ∧ x.left + 1 = w.left))) ∧
    (Arrived s l .writeAck p i → ∀ pos a id g gr m k, r.user = .core pos a id → findMem s pos g id = some (gr, m) → memBehind s pos id = some m →
      m.need.find? (fun k => decide (2 ^ 61 ≤ k) && !(m.accepted.contains k)) = some k →
      ∃ t gr' m', exec (.writeAckPacket l) s = .next t ∧ findMem t pos g id = some (gr', m') ∧ m'.accepted = m.accepted ++ [k] ∧ m'.got = m.got ∧
        gr'.gpr = gr.gpr ∧ ∀ n sl, r.slot = some n → getSlot s n = some sl → ∃ x, getSlot t n = some x ∧ p.src ∈ x.peersWritten) ∧
    (Arrived s l .atomData p i → ∀ pos a id g gr m q j, r.user = .core pos a id → findMem s pos g id = some (gr, m) →
      memBehind s pos id = some m → r.pkts.head? = some q → atomIndex s m q = some j → ∃ t gr' m', exec (.atomDataPacket l) s = .next t ∧
        findMem t pos g id = some (gr', m') ∧ m'.accepted = m.accepted ++ [2 ^ 61 + j] ∧
        m'.got = m.got ++ [Served.mk (2 ^ 61 + j) (slice p.payload 16 128) false 0 0] ∧ gr'.gpr = gr.gpr) ∧
    (Arrived s l .postResult p i → ∀ pos g id gr x, r.user = .spawn pos g id → getGroup s pos g = some gr →
      gr.spawns.find? (fun y => y.id == id) = some x → ∃ t gr', exec (.postResultPacket l) s = .next t ∧ getGroup t pos g = some gr' ∧
        gr'.spawns = gr.spawns.filter (fun y => y.id != id) ∧
        (∀ k n, n < 32 → getReg gr' k n = if k = x.dst ∧ x.dst ≠ 255 ∧ x.lanes.getLsbD n = true then leAt p.payload 0 4 else getReg gr k n) ∧
        gr'.paths = gr.paths ∧ gr'.preds = gr.preds) ∧
    (Arrived s l .refused p i → leAt p.payload 0 2 % 4096 ≠ Code.verticalAbort →
      (∀ pos a id m n sl, r.user = .core pos a id → memBehind s pos id = some m → r.slot = some n → getSlot s n = some sl →
        ∃ t, exec (.refusedPacket l) s = .next t ∧
          (getSlot t n).map (·.ending) = some (some (sl.ending.getD { code := leAt p.payload 0 2 % 4096, replay := none }))) ∧
      (∀ m, r.user = .copy m → (getCopy s m.cc).state = 3 → ∃ t, exec (.refusedPacket l) s = .next t ∧
        (getCopy t m.cc).state = 6 ∧ (getCopy t m.cc).code = leAt p.payload 0 2 % 4096 ∧ (∀ x ∈ t.port.queue, isCopyOf m.cc x = false)))) ∧
  (∀ (s : State) (l i j : Nat) (a b : Packet), l < 36 → Arrived s l .postA a i →
    (((getLink s l).rx.drop (i + 1)).zipIdx.find? (fun e => sameStream e.1 a)) = some (b, j) →
    let words := wordsOf 32 (slice a.payload 0 128 ++ slice b.payload 0 128)
    let r := takeSpawn (takeRx (takeRx s l (i + 1 + j)) l i) words true
    ((b.ty ≠ .postB ∨ b.tag ≠ a.tag ∨ b.src ≠ a.src) → ∃ t, exec (.postPacket l) s = .next t ∧ SameMemory s t ∧
      Counted s t Key.protocolErrors 1 ∧ ReportedUnit t Code.linkProtocol 1 l []) ∧
    (b.ty = .postB → b.tag = a.tag → b.src = a.src →
      (fountainHeld s = true → exec (.postPacket l) s = .next s) ∧
      (fountainHeld s = false → Reaches r.2 a.src → ∃ t, exec (.postPacket l) s = .next t ∧ SentOn t (answerOf r.2 a .postResult 0 (leBytes 4 r.1)) ∧
        SameMemory r.2 t ∧ (recordFails words = true → r.1 = 2 ^ 31 + s.pool.device * 2 ^ 16 ∧ t.fountain = s.fountain) ∧
        (recordFails words = false → freeSpawnSlot s = none → r.1 = 2 ^ 31 + s.pool.device * 2 ^ 16 ∧ t.fountain = s.fountain) ∧
        (∀ n, recordFails words = false → freeSpawnSlot s = some n → r.1 = s.pool.device * 2 ^ 16 + n)))) ∧
  (∀ (s : State) (l i : Nat) (p : Packet), l < 36 → Arrived s l .signal p i → NoPoisonDue s →
    let e := leAt p.payload 0 8
    let c := sigCounter e
    (bit (leAt p.payload 8 1) 0 = false → Reaches (signalLocal (takeRx s l i) c (sigSet e) (sigValue e)) p.src →
      ∃ t, exec (.signalPacket l) s = .next t ∧ SentOn t (answerOf s p .writeAck 0 []) ∧
        (∀ k, getCounter t k = if k = c then (if sigSet e then Counter.mk (sigValue e) false
          else Counter.mk (((getCounter s c).value + sigValue e) % 2 ^ 32) (getCounter s c).poison) else getCounter s k) ∧
        t.reservoir = s.reservoir ∧ t.cistern = s.cistern) ∧
    (bit (leAt p.payload 8 1) 0 = true → Reaches (evalWaits (poisonCounter (takeRx s l i) c)) p.src →
      ∃ t, exec (.signalPacket l) s = .next t ∧ (getCounter t c).poison = true ∧ (getCounter t c).value = (getCounter s c).value)) ∧
  (∀ (s : State) (l i : Nat) (p : Packet), l < 36 → Arrived s l .dict p i → s.boot.warmWanted = none →
    (∀ r ∈ s.keeper.relays, ¬(r.dev = p.src ∧ r.tag = fragTag p)) →
    let key := p.src * 65536 + fragTag p
    let frags := mapPut (mapGet [] s.keeper.frags key) (fragIndex p) (p.payload.drop 4)
    let f := assemble (frags.map (·.2))
    (frags.length ≠ fragCount p → ∃ t, exec (.dictPacket l) s = .next t ∧ SameMemory s t ∧ mapGet [] t.keeper.frags key = frags) ∧
    (frags.length = fragCount p → netUp s = true → headerGood (headerOf false f) (f.drop 32) = false → ∃ t frame,
      exec (.dictPacket l) s = .next t ∧ SameMemory s t ∧ .relayed p.src (fragTag p) frame ∈ t.out ∧
        leAt frame 8 2 = Code.messageInvalid ∧ mapGet [] t.keeper.frags key = []))

/-- Forming a pool, its membership, its breaks, and links withdrawn (R324 to R328, R330, R331, R416). Where the manual leaves a
choice, it says the model's own (log entry 56). -/
def Obligations.PoolLife : Prop :=
  (∀ (s : State) (answers : List (Nat × Nat)), let atS8 := poolShape s ≠ 0 ∧ s.boot.stage = 8 ∧ s.boot.stopped = false ∧ s.pool.st = .standalone
    let exists_ := ∃ a ∈ answers, 2 ≤ a.2 ∧ a.2 ≤ 4
    let asked (t : State) : Prop := { t with pool := s.pool, out := s.out } = s ∧ ∀ l < 36, (getLink s l).st = .up → .pool l 5 [] ∈ t.out
    (¬atS8 → exec (.poolStateQuery answers) s = .next s) ∧
    (atS8 → exists_ → ∃ t, exec (.poolStateQuery answers) s = .next t ∧ t.pool.st = .waiting ∧ asked t ∧
      (∀ f, s.flash.formation = some f → t.pool.device = f.device ∧ t.pool.x = f.x ∧ t.pool.y = f.y ∧ t.pool.z = f.z) ∧
      (s.flash.formation = none → t.pool = { s.pool with st := .waiting })) ∧
    (atS8 → ¬exists_ → s.port.up = true → ∃ t, exec (.poolStateQuery answers) s = .next t ∧ t.pool.head = true ∧ t.pool.st = .forming ∧
      t.pool.device = 0 ∧ t.pool.x = 0 ∧ t.pool.y = 0 ∧ t.pool.z = 0 ∧ t.pool.assignedAt = some (now s)) ∧
    (atS8 → ¬exists_ → s.port.up = false → ∃ t, exec (.poolStateQuery answers) s = .next t ∧ asked t ∧ t.pool = { s.pool with st := .forming })) ∧
  (∀ (s : State) (l x y z : Nat), l < 36 →
    ((s.pool.st ≠ .forming ∨ (getLink s l).st ≠ .up ∨ (s.pool.head = false ∧ s.pool.gotAssign = true)) →
      exec (.poolAssign l x y z) s = .next s) ∧
    (s.pool.st = .forming → (getLink s l).st = .up → s.pool.head = true → exec (.poolAssign l x y z) s = .next { s with
      pool := { s.pool with st := .waiting, s8code := if s.pool.s8code = 0 then Code.poolTwoHeads else s.pool.s8code } }) ∧
    (s.pool.st = .forming → (getLink s l).st = .up → s.pool.head = false → s.pool.gotAssign = false →
      let right (j : Nat) : Prop := cabledTo (poolShape s) s.boot.tier (devAt x y z) j ≠ none ∧
        (cabledTo (poolShape s) s.boot.tier (devAt x y z) j).map (·.1) = (getLink s j).peerDev ∧
        (cabledTo (poolShape s) s.boot.tier (devAt x y z) j).map (·.2) = (getLink s j).peerLink
      ∃ t, exec (.poolAssign l x y z) s = .next t ∧ t.pool.device = x + 4 * y + 16 * z ∧ t.pool.x = x ∧ t.pool.y = y ∧ t.pool.z = z ∧
        t.pool.gotAssign = true ∧ t.pool.st = .forming ∧
        .pool l 1 [devAt x y z, s.boot.tier, poolShape s, runningKeeper s, runningFountain s] ∈ t.out ∧
        (∀ j q, j < 36 → (getLink s j).st = .up → right j → getLink t j = getLink s j ∧
          (j ≠ l → (getLink s j).peerDev = some q → .pool j 0 [devX q, devY q, devZ q] ∈ t.out)) ∧
        (∀ j, j < 36 → (getLink s j).st = .up → (getLink s j).peerDev ≠ none → (getLink s j).peerLink ≠ none → ¬right j →
          (getLink t j).st = .miscabled))) ∧
  (∀ (s : State) (d tier shape kv fv : Nat), let head := s.pool.head = true ∧ s.pool.st = .forming ∧ d < 64
    let back := s.pool.head = false ∧ s.pool.st = .forming ∧ d < 64 ∧ s.pool.gotAssign = true ∧ d = s.pool.device
    let mismatch := if s.pool.s8code = 0 then Code.poolMismatch else s.pool.s8code
    (¬head → ¬back → exec (.poolJoin d tier shape kv fv) s = .next s) ∧
    (back → exec (.poolJoin d tier shape kv fv) s = .next { s with pool := { s.pool with st := .waiting, s8code := mismatch } }) ∧
    (head → (tier ≠ s.boot.tier ∨ shape ≠ poolShape s) → ∃ t, exec (.poolJoin d tier shape kv fv) s = .next t ∧
      { t with out := s.out } = { s with pool := { s.pool with s8code := mismatch } } ∧ ∀ l < 36, (getLink s l).st = .up → .pool l 7 [d] ∈ t.out) ∧
    (head → tier = s.boot.tier → shape = poolShape s →
      ((∃ j ∈ s.pool.joined, j.device = d) → exec (.poolJoin d tier shape kv fv) s = .next s) ∧
      ((∀ j ∈ s.pool.joined, j.device ≠ d) → exec (.poolJoin d tier shape kv fv) s = .next { s with
        pool := { s.pool with joined := s.pool.joined ++ [⟨d, kv, fv⟩] } }))) ∧
  (∀ (s : State) (t0 : Nat), let m := maskOf (0 :: s.pool.joined.map (·.device))
    ((s.pool.head = false ∨ s.pool.st ≠ .forming ∨ s.pool.assignedAt = none) → exec .poolFormationDeadline s = .next s) ∧
    (s.pool.head = true → s.pool.st = .forming → s.pool.assignedAt = some t0 →
      (now s < t0 + 2000000000 → exec .poolFormationDeadline s = .next s) ∧
      (t0 + 2000000000 ≤ now s → membersValid s m = false → ∃ t, exec .poolFormationDeadline s = .next t ∧ { t with pool := s.pool, out := s.out } = s ∧
        (∀ l < 36, (getLink s l).st = .up → .pool l 6 [0] ∈ t.out) ∧
        t.pool.st = .waiting ∧ t.pool.s8code = if s.pool.s8code = 0 then Code.poolWiring else s.pool.s8code) ∧
      (t0 + 2000000000 ≤ now s → membersValid s m = true → ∃ t, exec .poolFormationDeadline s = .next t ∧ t.pool.members = m ∧
        t.pool.broken = [] ∧ t.pool.st = (if bit m s.pool.device then .formed else .waiting) ∧
        ∀ l < 36, (getLink s l).st = .up → .pool l 6 [m] ∈ t.out))) ∧
  (∀ (s : State) (m : Nat), let here := poolShape s ≠ 0 ∧ 8 ≤ s.boot.stage ∧ s.pool.st ≠ .standalone
    (¬here → exec (.poolMembers m) s = .next s) ∧
    (here → m < 2 ^ 64 → ∃ t, exec (.poolMembers m) s = .next t ∧ t.pool.members = m ∧ t.pool.broken = [] ∧
      t.pool.st = (if bit m s.pool.device then .formed else .waiting) ∧
      (bit m s.pool.device = true → t.flash.formation = some ⟨s.pool.device, s.pool.x, s.pool.y, s.pool.z⟩) ∧
      (∀ n sl, SlotsWf s → (bit m s.pool.device = true ∨ bit s.pool.members s.pool.device = true) → getSlot s n = some sl → sl.state = 3 →
        (getSlot t n).map (·.ending) = some (some (sl.ending.getD { code := Code.peerLost, replay := none }))))) ∧
  (∀ (s : State) (a b : Nat), let breaks := inPool s = true ∧ isMember s a = true ∧ isMember s b = true ∧ pairOf a b ∉ s.pool.broken
    (¬breaks → exec (.poolLoss a b) s = .next s) ∧
    (breaks → a < 64 → b < 64 → ∃ t, exec (.poolLoss a b) s = .next t ∧ t.pool.st = .broken ∧ t.pool.broken = s.pool.broken ++ [pairOf a b] ∧
      getObj t Key.brokenTime = stamp s ∧ getObj t Key.brokenPair % 2 ^ 31 = min a b * 256 + max a b ∧
      (∀ l < 36, linkWorking s l = true → .pool l 2 [a, b] ∈ t.out) ∧
      ((∀ e ∈ liveSlots s, spansPool s e.2 = false) → s.pool.reqs = [] → s.pool.waiting = [] → s.port.copies = [] → NoPoisonDue s →
        ReportedUnit t Code.poolBroken 2 (min a b * 256 + max a b) [] ∧ t.cores = s.cores ∧ t.reservoir = s.reservoir))) ∧
  (∀ (s : State) (l : Nat), l < 36 → ((getLink s l).st ≠ .up → exec (.poolWithdraw l) s = .next s) ∧
    ((getLink s l).st = .up → ∃ t, exec (.poolWithdraw l) s = .next t ∧ (getLink t l).st = .withdrawn ∧
      (getLink t l).unacked = (getLink s l).unacked ∧ (getLink t l).egress = [] ∧
      ((getLink s l).egress = [] → { t with links := s.links, out := s.out } = s ∧ t.out = .pool l 3 [] :: s.out ∧ ∀ j, j ≠ l → getLink t j = getLink s j))) ∧
  (∀ (s : State) (d : Nat), let hit (sl : Slot) := d ∈ sl.peersWritten ∧ (sl.state = 3 ∨ sl.state = 4 ∨ sl.state = 7)
    ((∀ e ∈ liveSlots s, ¬hit e.2) → exec (.poolReset d) s = .next s) ∧
    (SlotsWf s → ∀ n sl, getSlot s n = some sl → hit sl → sl.ending = none → eligible s n sl = false → ∃ t, exec (.poolReset d) s = .next t ∧
      (getSlot t n).map (·.ending) = some (some { code := Code.verticalAbort, replay := none }))) ∧
  (∀ (s : State) (w : ObjWrite) (l v : Nat), l < 36 → WriteStaged s w (Key.linkEnable l) v →
    ∃ t, exec (.linkEnable w) s = .next t ∧ StagedAs s t (Key.linkEnable l) v) ∧
  (∀ (s : State) (req : CasReq) (c l v : Nat), l < 36 → CommitsOne s req c (Key.linkEnable l) v → let k := getLink s l
    (v = 0 → lastLink s l = true → ∃ t, exec (.casaroCommit req) s = .next t ∧ TxnEnded s t c Code.linkLast ∧ t.links = s.links ∧
      getObj t (Key.linkEnable l) = getObj s (Key.linkEnable l)) ∧
    (v = 0 → lastLink s l = false → k.st = .up → k.egress = [] → ∃ t, exec (.casaroCommit req) s = .next t ∧ TxnEnded s t c 0 ∧
      getObj t (Key.linkEnable l) = 0 ∧ OnlyLink s t l { k with st := .withdrawn } ∧ t.out = .pool l 3 [] :: s.out) ∧
    (v = 1 → k.st = .withdrawn → ∃ t, exec (.casaroCommit req) s = .next t ∧ TxnEnded s t c 0 ∧ getObj t (Key.linkEnable l) = 1 ∧
      OnlyLink s t l { k with st := .training, attempts := 0 } ∧ t.out = s.out) ∧
    (((v = 0 ∧ lastLink s l = false ∧ k.st ≠ .up) ∨ (v = 1 ∧ k.st ≠ .withdrawn)) → ∃ t, exec (.casaroCommit req) s = .next t ∧
      TxnEnded s t c 0 ∧ getObj t (Key.linkEnable l) = v ∧ t.links = s.links ∧ t.out = s.out))

/-- Configuration requests, the port's link, and its resets (R334 to R340, R346, R348 to R350, R447). The header's layout is the
family's (log entry 22). -/
def Obligations.PortConfiguration : Prop :=
  (∀ (s : State) (q : CfgReq),
    (s.port.up = false → exec (.pcieConfigRequest q) s = .next s) ∧
    (s.port.up = true → portServes s = false → exec (.pcieConfigRequest q) s = .next { s with out := .completion q.tag .retry [] :: s.out }) ∧
    (portServes s = true →
      (∀ v, q.write = some v → ∃ t, exec (.pcieConfigRequest q) s = .next t ∧ t.out = .completion q.tag .success [] :: s.out ∧
        { t with port := s.port, out := s.out } = s ∧
        (q.reg = 1 → (∀ i, i < 16 → t.port.command.testBit i = (v.testBit i && [1, 2, 6, 8].contains i)) ∧
          { t.port with command := s.port.command } = s.port) ∧
        (4 ≤ q.reg → q.reg < 10 → mapGet 0 t.port.bars (q.reg - 4) = v % 2 ^ 32 ∧ mapGet false t.port.assigned (q.reg - 4) = true ∧
          { t.port with bars := s.port.bars, assigned := s.port.assigned } = s.port) ∧
        (q.reg ∈ [0, 2, 3, 10, 12, 14] → t.port = s.port)) ∧
      (q.write = none → ∃ t n, exec (.pcieConfigRequest q) s = .next t ∧ t.out = .completion q.tag .success (leBytes 4 n) :: s.out ∧
        { t with free := s.free, out := s.out } = s ∧ (q.reg = 0 → n = 0x06401F4C) ∧ (q.reg = 2 → n / 256 = 0x120000 ∧ n % 256 = s.boot.siliconRev % 256) ∧
        (q.reg = 1 → n = 0x00100000 + s.port.command) ∧ (q.reg ∈ [3, 10, 12, 14] → n = 0) ∧
        (q.reg = 4 → n % 2 ^ 20 = 4) ∧ (q.reg = 6 → n % 2 ^ 26 = 12) ∧ (q.reg = 8 → n % 2 ^ 30 = 12) ∧
        (q.reg = 9 → 4 ≤ s.port.sizeGiB → n % (2 ^ (Nat.log2 s.port.sizeGiB - 2)) = 0)))) ∧
  (∀ (s : State) (rate width : Nat) (flit : Bool), let r := min rate (getObj s Key.maxRate)
    (portMayTrain s = false → exec (.hostLinkTrained rate width flit) s = .next s) ∧
    (portMayTrain s = true → s.port.refclk = true → rate ≠ 0 →
      (rate ≤ 3 → 1 ≤ getObj s Key.maxRate → (width = 16 ∨ width = 8) → flit = true → ∃ t, exec (.hostLinkTrained rate width flit) s = .next t ∧
        t.port = { s.port with up := true } ∧ getObj t Key.linkRate = r ∧ getObj t Key.linkWidth = width ∧ t.out = s.out) ∧
      ((4 ≤ rate ∨ (1 ≤ getObj s Key.maxRate ∧ ((width ≠ 16 ∧ width ≠ 8) ∨ flit = false))) → ∃ t, exec (.hostLinkTrained rate width flit) s = .next t ∧
        t.port = { s.port with up := true } ∧ getObj t Key.linkRate = 4 ∧ getObj t Key.linkWidth = width ∧
        ReportedUnit t Code.hostLinkUnsupported 1 0xFFFFFFFF []))) ∧
  (∀ (s : State) (cause : PortCause), let ignored := s.boot.powered = false ∨ s.boot.resetLow = true ∨ (cause = .linkDown ∧ s.port.up = false)
    (ignored → exec (.portReset cause) s = .next s) ∧
    (¬ignored → ∃ t, exec (.portReset cause) s = .next t ∧ t.port = { Port.reset with refclk := t.port.refclk, copies := t.port.copies, chans := t.port.chans, queue := t.port.queue } ∧
      t.port.refclk = s.port.refclk ∧ getObj t Key.linkRate = 0 ∧ getObj t Key.linkWidth = 0 ∧ getObj t Key.bar4Base = getObj s Key.bar4Base ∧
      (∀ cc, (getCopy s cc).state ≠ 3 → getCopy t cc = getCopy s cc) ∧
      (∀ cc, (getCopy s cc).state = 3 → (getCopy t cc).state = 6 ∧ (getCopy t cc).code = Code.hostCopyFailed ∧ (getCopy t cc).moved = (getCopy s cc).moved ∧
        ∀ x ∈ t.port.queue, isCopyOf cc x = false) ∧
      Counted32 s t Key.portResets 1)) ∧
  (∀ (s : State) (rate width : Nat) (flit : Bool),
    ((s.port.refclk = true ∨ s.boot.powered = false ∨ s.boot.resetLow = true) → exec (.pcieRefclkReturn rate width flit) s = .next s) ∧
    (s.port.refclk = false → s.boot.powered = true → s.boot.resetLow = false → ∃ t, exec (.pcieRefclkReturn rate width flit) s = .next t ∧
      t.port.refclk = true ∧ (s.time.runs = true → t.time.locks.testBit 3 = true) ∧ (portMayTrain s = false → t.port = { s.port with refclk := true }) ∧
      (portMayTrain s = true → rate ≠ 0 → 1 ≤ getObj s Key.maxRate → t.port = { s.port with refclk := true, up := true })))

/-- The host's windows and copies (R323, R335, R338, R340 to R346, R361 to R363). Where the manual leaves a choice, it says the model's own (log entry 60). -/
def Obligations.HostWindows : Prop :=
  let ur (s t : State) : Prop := Counted s t Key.urSent 1 ∧ OnlyLogged s t
  let aim (s : State) (off : Nat) : Nat := getObj s Key.bar4Base / 2 ^ (30 + Nat.log2 s.port.sizeGiB) * 2 ^ (30 + Nat.log2 s.port.sizeGiB) + off
  let inBar4 (s : State) (off n : Nat) : Prop := barOpen s 4 = true ∧ 0 < n ∧ off + n ≤ 2 ^ (30 + Nat.log2 s.port.sizeGiB)
  (∀ (s : State) (rd : MemRd) (chk : Chk), let a := addrLocal (aim s rd.offset)
    let d := addrDevice (aim s rd.offset)
    let missed := s.port.up = true ∧ (¬inBar4 s rd.offset rd.len ∨ (d ≠ s.pool.device ∧ reachable s d = false) ∨
      (d = s.pool.device ∧ a % 65536 + rd.len ≤ 65536 ∧ (farReadable s a = false ∨ farReadable s (a + rd.len - 1) = false)))
    (missed → ∃ t, exec (.bar4Read rd chk) s = .next t ∧ ur s t ∧ t.out = .completion rd.tag .unsupported [] :: s.out) ∧
    (inBar4 s rd.offset rd.len → d = s.pool.device → a % 65536 + rd.len ≤ 65536 → farReadable s a = true → farReadable s (a + rd.len - 1) = true →
      (slotTableAt a = none → exec (.bar4Read rd chk) s = .next (startJob s 0 portHost (getObj s Key.hostClass) 0
        (.bar4 rd.tag a rd.len) [] (readOps a rd.len))) ∧
      (∀ off, slotTableAt a = some off → chk = .ok → ∃ t, exec (.bar4Read rd chk) s = .next t ∧ SameMemory s t ∧ t.out = .completion rd.tag .success
        ((List.range rd.len).map (fun i => (slotBytes s ((off + i) / 256)).getD ((off + i) % 256) 0#8)) :: s.out) ∧
      (∀ off, slotTableAt a = some off → chk = .failed → ∃ t bs, exec (.bar4Read rd chk) s = .next t ∧
        t.out = .completion rd.tag .poisoned bs :: (readSlot s (off / 256) .failed).out)) ∧
    (inBar4 s rd.offset rd.len → reachable s d = true → ∃ t w, exec (.bar4Read rd chk) s = .next t ∧ t.reservoir = s.reservoir ∧
      t.cistern = s.cistern ∧ t.port = { s.port with bar4 := s.port.bar4 ++ [w] } ∧ w.tag = rd.tag ∧ w.addr = aim s rd.offset ∧ w.len = rd.len ∧
      w.left = (readPackets s d (getObj s Key.hostClass) a rd.len).length)) ∧
  (∀ (s : State) (off : Nat) (bs : List Byte) (ep : Bool), let a := addrLocal (aim s off)
    let d := addrDevice (aim s off)
    let missed := s.port.up = true ∧ (¬inBar4 s off bs.length ∨ (ep = false ∧ d ≠ s.pool.device ∧ reachable s d = false) ∨
      (ep = false ∧ d = s.pool.device ∧ a % 65536 + bs.length ≤ 65536 ∧ (hasHome s a = false ∨ hasHome s (a + bs.length - 1) = false)))
    (missed → ∃ t, exec (.bar4Write off bs ep) s = .next t ∧ ur s t ∧ t.out = s.out) ∧
    (inBar4 s off bs.length → ep = true → ∃ t, exec (.bar4Write off bs ep) s = .next t ∧ Counted s t Key.poisonedRx 1 ∧
      t.port.aerPoisoned = true ∧ t.reservoir = s.reservoir ∧ t.cistern = s.cistern ∧ t.cores = s.cores) ∧
    (inBar4 s off bs.length → ep = false → d = s.pool.device → a % 65536 + bs.length ≤ 65536 → hasHome s a = true → hasHome s (a + bs.length - 1) = true →
      exec (.bar4Write off bs ep) s = .next (startJob (bump s Key.bytesIn bs.length) 0 portHost (getObj s Key.hostClass) (hostTag s) .post []
        (storeOps (bs.length + 1) a bs))) ∧
    (inBar4 s off bs.length → ep = false → reachable s d = true → ∃ t, exec (.bar4Write off bs ep) s = .next t ∧ t.reservoir = s.reservoir ∧
      t.cistern = s.cistern ∧ t.port = s.port)) ∧
  (∀ (a : Nat) (bs : List Byte), bs ≠ [] → let ops := storeOps (bs.length + 1) a bs
    ops.map (·.1) = (List.range ((a + bs.length - 1) / 32 - a / 32 + 1)).map (a / 32 + ·) ∧
    ∀ x ∈ ops, ∃ mask data, x.2 = .write mask data ∧ ∀ k < 32, let b := x.1 * 32 + k
      mask.testBit k = decide (a ≤ b ∧ b < a + bs.length) ∧ (a ≤ b → b < a + bs.length → data.getD k 0#8 = bs.getD (b - a) 0#8)) ∧
  (∀ (s : State) (rd : MemRd), 0x80000 ≤ rd.offset → rd.offset + rd.len ≤ 2 ^ 20 → 0 < rd.len → barOpen s 0 = true →
    let shaped := ((rd.len = 4 ∨ rd.len = 8) ∧ rd.offset % rd.len = 0) ∨ (rd.len ≤ 512 ∧ rd.offset % 8 = 0 ∧ rd.len % 8 = 0)
    let entry (i : Nat) : Nat := if i = 0 then stamp s else if i = 1 then readNum s Key.intakeCredit else if i = 2 then getObj s Key.intakeDrops
      else if i = 3 then getObj s Key.intakeError else if 8 ≤ i ∧ i < 16 then readNum s (Key.slotsInState (i - 8))
      else if i = 0x10 then readNum s Key.freeSpawn else if i = 0x20 then s.keeper.eventSeq else if i = 0x21 then readNum s Key.txnState
      else if 0x8000 ≤ i then (getCounter s (i - 0x8000)).value % 2 ^ 32 + (if (getCounter s (i - 0x8000)).poison then 2 ^ 32 else 0) else 0
    (¬shaped → ∃ t, exec (.bar0DirectRead rd) s = .next t ∧ ur s t ∧ t.out = .completion rd.tag .unsupported [] :: s.out) ∧
    (shaped → ∃ t data, exec (.bar0DirectRead rd) s = .next t ∧ OnlyLogged s t ∧ t.out = .completion rd.tag .success data :: s.out ∧
      data.length = rd.len ∧ ∀ j < rd.len, data.getD j 0#8 = (leBytes 8 (entry ((rd.offset - 0x80000 + j) / 8))).getD ((rd.offset + j) % 8) 0#8)) ∧
  (∀ (s : State) (c : Nat) (rq : List Byte) (len : Nat) (ep : Bool), let ch := getChannel s c
    (s.port.up = true → (barOpen s 0 = false ∨ 64 ≤ c) → ∃ t, exec (.bar0ChannelSubmit c rq len ep) s = .next t ∧ ur s t ∧ t.out = s.out) ∧
    (barOpen s 0 = true → c < 64 → s.boot.warmWanted = none →
      (ep = true → ∃ t, exec (.bar0ChannelSubmit c rq len ep) s = .next t ∧ Counted s t Key.poisonedRx 1 ∧ getChannel t c = ch) ∧
      (ep = false → ch.state = 1 → ∃ t, exec (.bar0ChannelSubmit c rq len ep) s = .next t ∧ Counted s t Key.channelCollisions 1 ∧
        (getChannel t c).state = 1 ∧ (getChannel t c).response = ch.response ∧ t.out = s.out) ∧
      (ep = false → ch.state ≠ 1 → (len < 32 ∨ 1056 < len) → ∃ t, exec (.bar0ChannelSubmit c rq len ep) s = .next t ∧
        (getChannel t c).state = 2 ∧ (getChannel t c).code = Code.messageInvalid) ∧
      (ep = false → ch.state ≠ 1 → 32 ≤ len → len ≤ rq.length → rq.length ≤ 1056 → netUp s = true → headerGood (headerOf false rq) (slice rq 32 (len - 32)) = false →
        ∃ t, exec (.bar0ChannelSubmit c rq len ep) s = .next t ∧ (getChannel t c).state = 2 ∧ (getChannel t c).code = Code.messageInvalid ∧
          (getChannel t c).response.length = 32 ∧ (getChannel t c).tag = leAt rq 4 2 ∧ (getChannel t c).request.take rq.length = rq))) ∧
  (∀ (s : State) (rd : MemRd), barOpen s 0 = true → rd.offset < 2 ^ 20 → 0 < rd.len → let across := bar0Region rd.offset ≠ bar0Region (rd.offset + rd.len - 1)
    (∀ bs, bs.length = rd.len → (rd.offset < 0x1000 ∨ 0x41000 ≤ rd.offset ∨ across) → ∃ t, exec (.bar0InvalidAccess rd (some bs)) s = .next t ∧
      ur s t ∧ t.out = s.out) ∧
    (across → ∃ t, exec (.bar0InvalidAccess rd none) s = .next t ∧ ur s t ∧ t.out = .completion rd.tag .unsupported [] :: s.out) ∧
    (0x41000 ≤ rd.offset → rd.offset + rd.len ≤ 0x80000 → ∃ t, exec (.bar0InvalidAccess rd none) s = .next t ∧ OnlyLogged s t ∧
      t.out = .completion rd.tag .success (List.replicate rd.len 0#8) :: s.out)) ∧
  (∀ (s : State) (w : ObjWrite) (cc : Nat), cc < 16 → WriteTaken s w (Key.copyGo cc) 1 →
    let h := getObj s (Key.copyHostAddr cc)
    let p := getObj s (Key.copyPoolAddr cc)
    let fit := servesCopies s = true ∧ (getCopy s cc).state ≠ 3 ∧ copyFits s cc = true
    (¬fit → ∃ t, exec (.copyGo w) s = .next t ∧ { t with free := s.free } = s) ∧
    (fit → fountainHeld s = true → exec (.copyGo w) s = .next s) ∧
    (fit → fountainHeld s = false → ∃ (t : State) (ms : List CopyMove), exec (.copyGo w) s = .next (feedEngines t) ∧ { t with port := s.port } = s ∧
      getCopy t cc = { state := 3, code := 0, moved := 0, host := h, pool := p } ∧ (∀ k, k ≠ cc → getCopy t k = getCopy s k) ∧
      t.port.queue = s.port.queue ++ ms.map .copy ∧ (ms.map CopyMove.bytes).sum = getObj s (Key.copyBytes cc) ∧
      (∀ m ∈ ms, m.cc = cc ∧ m.toPool = (getObj s (Key.copyDir cc) == 0) ∧ m.pool % 65536 + m.bytes ≤ 65536 ∧ p ≤ m.pool ∧ m.host + p = m.pool + h) ∧
      ms.Pairwise (fun x y : CopyMove => x.pool + x.bytes ≤ y.pool))) ∧
  (∀ (s : State) (ok : Bool) (data : List Byte), (nextCopyMove s = none → exec (.hostCopyMoveComplete ok data) s = .next s) ∧
    (∀ m, nextCopyMove s = some m → let a := addrLocal m.pool
      let d := addrDevice m.pool
      let cls := getObj s Key.hostClass
      let ends (code : Nat) : Prop := ∃ t, exec (.hostCopyMoveComplete ok data) s = .next t ∧ (getCopy t m.cc).state = 6 ∧ (getCopy t m.cc).code = code ∧
        (getCopy t m.cc).moved = (getCopy s m.cc).moved ∧ (∀ x ∈ t.port.queue, isCopyOf m.cc x = false) ∧ t.reservoir = s.reservoir ∧ t.out = s.out
      ((s.port.up = false ∨ (inCisReset s = true ∧ d = s.pool.device)) → exec (.hostCopyMoveComplete ok data) s = .next s) ∧
      (s.port.up = true → inCisReset s = false → (getCopy s m.cc).state = 3 →
        (∀ c, d = s.pool.device → homeRefusal s a m.bytes = some c → ends c) ∧
        (d ≠ s.pool.device → reachable s d = false → ends Code.peerLost) ∧
        ((d = s.pool.device → homeRefusal s a m.bytes = none) → (d ≠ s.pool.device → reachable s d = true) → m.toPool = true → ok = false →
          ends Code.hostCopyFailed) ∧
        (d = s.pool.device → homeRefusal s a m.bytes = none → m.toPool = true → ok = true →
          exec (.hostCopyMoveComplete ok data) s = .next (startJob (portRead s m.bytes) 0 portHost cls (hostTag s) (.copy m) []
            (storeOps (m.bytes / 32 + 1) a (slice data 0 m.bytes)))) ∧
        (d = s.pool.device → homeRefusal s a m.bytes = none → m.toPool = false →
          exec (.hostCopyMoveComplete ok data) s = .next (startJob s 0 portHost cls 0 (.copy m) [] (readOps a m.bytes))) ∧
        (d ≠ s.pool.device → reachable s d = true → (m.toPool = true → ok = true) → ∃ t, exec (.hostCopyMoveComplete ok data) s = .next t ∧
          t.reservoir = s.reservoir ∧ t.cistern = s.cistern ∧ getCopy t m.cc = getCopy s m.cc)))) ∧
  (∀ (s : State) (j : Job) (m : CopyMove), s.cistern.jobs = [j] → j.left = 0 → j.who = .copy m → (getCopy s m.cc).state = 3 → let t := runJobs s
    t.out = (if m.toPool then s.out else .hostWrite m.host (gotBytes j.got (addrLocal m.pool) m.bytes) (gotFailed j.got).isSome :: s.out) ∧
      (getCopy t m.cc).moved = (getCopy s m.cc).moved + m.bytes ∧ (getCopy t m.cc).state = (if copyBusy t m.cc then 3 else 5) ∧
      (getCopy t m.cc).code = (getCopy s m.cc).code ∧ t.reservoir = s.reservoir)

/-- The SPDM mailbox and the SMBus target (R351, R486, R503). The response codes are the family's (log entry 23). -/
def Obligations.MailboxAndSmbus : Prop :=
  let tells (i : Instr) (s : State) (o : Out) : Prop := ∃ t, exec i s = .next t ∧ t.out = o :: s.out ∧ { t with out := s.out, free := s.free } = s
  let errs (i : Instr) (s : State) : Prop := ∃ b, tells i s (.spdm 0x7F [b])
  (∀ i ∈ ([.spdmGetVersion, .spdmGetCapabilities, .spdmGetDigests] : List Instr), ∀ s : State, portServes s = false → exec i s = .next s) ∧
  (∀ (s : State) (a b c : Nat) (sign : Bool) (nonce : List Byte), portServes s = false →
    exec (.spdmNegotiateAlgorithms a b) s = .next s ∧ exec (.spdmGetCertificate a b c) s = .next s ∧ exec (.spdmChallenge a nonce) s = .next s ∧
    exec (.spdmGetMeasurements a sign nonce) s = .next s ∧ exec (.spdmUnsupportedRequest a) s = .next s) ∧
  (∀ s : State, portServes s = true →
    tells .spdmGetVersion s (.spdm 0x04 [[0x00#8, 0x13#8]]) ∧ tells .spdmGetCapabilities s (.spdm 0x61 [[0x16#8, 0#8, 0#8, 0#8]]) ∧
    (∀ a h, ∃ x y, tells (.spdmNegotiateAlgorithms a h) s (.spdm 0x63 [leBytes 4 x, leBytes 4 y]) ∧ x = (if a.testBit 4 then 16 else 0) ∧
      y = (if h.testBit 0 then 1 else 0)) ∧
    (let certs := s.flash.certRoot ++ s.flash.certIssuer ++ s.flash.cert
     let chain := leBytes 2 (36 + certs.length) ++ leBytes 2 0 ++ sha256 s.flash.certRoot ++ certs
     tells .spdmGetDigests s (.spdm 0x01 [[1#8], sha256 chain]) ∧
     (∀ slot off n, ((slot ≠ 0 ∨ chain.length ≤ off) → errs (.spdmGetCertificate slot off n) s) ∧
       (slot = 0 → off < chain.length → let k := min n (chain.length - off)
         tells (.spdmGetCertificate slot off n) s (.spdm 0x02 [[0#8], leBytes 2 k, leBytes 2 (chain.length - off - k), (chain.drop off).take k]))) ∧
     (∀ slot nonce, ((slot ≠ 0 ∨ nonce.length ≠ 32) → errs (.spdmChallenge slot nonce) s) ∧
       (slot = 0 → nonce.length = 32 → ∃ own sig, own.length = 32 ∧ sig.length = 64 ∧
         tells (.spdmChallenge slot nonce) s (.spdm 0x03 [[0#8], sha256 chain, own, sig])))) ∧
    (let digest (i : Nat) : List Byte := if i = 1 then sha256 s.boot.romBytes else if i = 5 then (mapGet [] s.boot.measures 5 ++ List.replicate 32 0#8).take 32
       else if i = 6 then sha256 ((s.flash.defects.take (defectCount s)).flatMap (·.bytes)) else if i = 7 then (if s.flash.pack = [] then List.replicate 32 0#8 else sha256 s.flash.pack)
       else mapGet [] s.boot.measures i
     let kind (i : Nat) : Byte := if i = 1 then 0#8 else if i = 2 ∨ i = 3 then 1#8 else if i = 4 ∨ i = 7 then 3#8 else 2#8
     let block (i : Nat) : List Byte := BitVec.ofNat 8 i :: 1#8 :: (leBytes 2 (3 + (digest i).length) ++ kind i :: leBytes 2 (digest i).length) ++ digest i
     ∀ index nonce, (∀ sign, ((7 < index ∧ index ≠ 0xFF) ∨ (sign = true ∧ nonce.length ≠ 32)) → errs (.spdmGetMeasurements index sign nonce) s) ∧
       (1 ≤ index → index ≤ 7 → tells (.spdmGetMeasurements index false nonce) s (.spdm 0x60 [[1#8], block index])) ∧
       (index = 0xFF → tells (.spdmGetMeasurements index false nonce) s (.spdm 0x60 ([7#8] :: [1, 2, 3, 4, 5, 6, 7].map block))) ∧
       (index = 0 → tells (.spdmGetMeasurements index false nonce) s (.spdm 0x60 [[7#8]])) ∧
       (1 ≤ index → index ≤ 7 → nonce.length = 32 → ∃ own sig, own.length = 32 ∧ sig.length = 64 ∧
         tells (.spdmGetMeasurements index true nonce) s (.spdm 0x60 [[1#8], block index, own, sig]))) ∧
    (∀ c, c < 256 → tells (.spdmUnsupportedRequest c) s (.spdm 0x7F [[0x07#8], [BitVec.ofNat 8 c]]))) ∧
  (∀ (s : State) (c : Nat), let up := s.boot.powered = true ∧ s.boot.resetLow = false ∧ (1 ≤ s.boot.done ∨ s.boot.stopped = true)
    let gives (i : Instr) (o : Option (List Byte)) : Prop := (¬up → exec i s = .next s) ∧ (up → exec i s = .next { s with out := .smbus o :: s.out })
    gives .smbusInputVoltage (some (leBytes 4 (readNum s Key.inputVoltage))) ∧ gives .smbusInputPower (some (leBytes 4 (readNum s Key.inputPower))) ∧
    gives .smbusHottest (some (leBytes 4 (f32Milli (mapGet 0 s.power.temp (hottest s))))) ∧
    gives .smbusStage (some (leBytes 1 (readNum s Key.stage))) ∧ gives .smbusThrottleStep (some (leBytes 1 (readNum s Key.throttleStep))) ∧
    gives .smbusSerial (some (leBytes 8 (readNum s Key.serial))) ∧ ((c < 1 ∨ 7 < c) → gives (.smbusOtherCommand c) none) ∧
    (1 ≤ c → c ≤ 7 → exec (.smbusOtherCommand c) s = .next s) ∧
    (¬up → exec .smbusStageResult s = .next s) ∧
    (up → exec .smbusStageResult s = .next { s with
      out := .smbus (some (leBytes 2 (readNum s (Key.stageResult s.boot.stage) % 4096))) :: s.out, boot := { s.boot with alertLow := false } }))

/-- Messages to this device (R354 to R372). -/
def Obligations.CasaroMessages : Prop :=
  let msgs : List (Nat × (CasReq → Instr)) := [(0x01, .casaroRead), (0x02, .casaroWrite), (0x03, .casaroList), (0x04, .casaroDescribe),
    (0x20, .casaroHello), (0x21, .casaroResend)]
  (∀ m ∈ msgs, ∀ (s : State) (req : CasReq), s.boot.warmWanted = none →
    (netUp s = false → exec (m.2 req) s = .next s) ∧
    (∀ src, netUp s = true → req.via = .net src → (headerGood req.hdr req.body = false ∨ src.linkLocal = false) →
      ∃ t, exec (m.2 req) s = .next t ∧ Counted s t Key.framesRx 1 ∧ Counted s t Key.framesBad 1 ∧ OnlyLogged s t ∧ t.out = s.out) ∧
    (∀ src k, netUp s = true → req.via = .net src → headerGood req.hdr req.body = true → src.linkLocal = true → inProgress s src req.hdr.tag = false →
      (recentKept s).find? (fun k => k.src.addr == src.addr && k.tag == req.hdr.tag) = some k →
      ∃ t, exec (m.2 req) s = .next t ∧ OnlyLogged s t ∧ t.out = .casaro src k.frame :: s.out) ∧
    (∀ c, netUp s = true → req.via = .chan c → headerGood req.hdr req.body = true → targetsHere s req.hdr.target = false →
      (inPool s = false ∨ 64 ≤ req.hdr.target ∨ bit s.pool.members req.hdr.target = false) → ∃ t, exec (m.2 req) s = .next t ∧
        Responds t req c m.1 Code.targetUnknown req.hdr.txn [] ∧ OnlyChannels s t) ∧
    (∀ c, Asks s req c → req.hdr.txn = 0 → m.1 ≠ 0x20 → req.body = [] → ∃ t, exec (m.2 req) s = .next t ∧
      Responds t req c m.1 Code.messageInvalid 0 [] ∧ OnlyChannels s t)) ∧
  (∀ (s : State) (req : CasReq) (c : Nat), Asks s req c → req.hdr.txn = 0 →
    (req.body = [] → ∃ t, exec (.casaroHello req) s = .next t ∧ OnlyChannels s t ∧ Responds t req c 0x20 0 0
      (leBytes 8 (readNum s Key.serial) ++ leBytes 1 (readNum s Key.deviceNumber) ++ leBytes 1 (readNum s Key.poolState) ++ leBytes 1 (readNum s Key.stage) ++
        leBytes 1 (readNum s Key.plcaNodeId) ++ leBytes 4 (runningKeeper s) ++ leBytes 4 (runningFountain s))) ∧
    (∀ k, k < 2 ^ 32 → req.body = leBytes 2 1 ++ leBytes 2 0 ++ leBytes 4 k →
      (∀ r, objRow k = some r → areaOpen s (keyArea k) r.flash = true → r.acc ≠ .wo → r.ty ≠ .bytes → r.ty ≠ .text → openObj s k = false →
        ∃ t, exec (.casaroRead req) s = .next t ∧ OnlyChannels s t ∧
          Responds t req c 0x01 0 0 (leBytes 2 1 ++ leBytes 2 0 ++ oneItem k r.ty.code 0 (leBytes r.ty.width (readNum s k)))) ∧
      (∀ r, objRow k = some r → (areaOpen s (keyArea k) r.flash = false ∨ r.acc = .wo) → ∃ t n, exec (.casaroRead req) s = .next t ∧ OnlyChannels s t ∧
        n = (if areaOpen s (keyArea k) r.flash then Code.accessDenied else Code.notReady) ∧
        Responds t req c 0x01 n 0 (leBytes 2 1 ++ leBytes 2 0 ++ oneItem k r.ty.code n [])) ∧
      (objRow k = none → ∃ t, exec (.casaroRead req) s = .next t ∧ OnlyChannels s t ∧
        Responds t req c 0x01 Code.objectUnknown 0 (leBytes 2 1 ++ leBytes 2 0 ++ oneItem k 0 Code.objectUnknown []))) ∧
    (∀ k r n, k < 2 ^ 32 → objRow k = some r → r.ty ≠ .bytes → r.ty ≠ .text → n < 2 ^ (8 * r.ty.width) →
      req.body = leBytes 2 1 ++ leBytes 2 0 ++ oneItem k r.ty.code 0 (leBytes r.ty.width n) →
      (refusedBefore s k (.num n) ≠ 0 → ∃ t, exec (.casaroWrite req) s = .next t ∧ OnlyChannels s t ∧ Responds t req c 0x02 (refusedBefore s k (.num n)) 0
        (leBytes 2 1 ++ leBytes 2 0 ++ oneItem k r.ty.code (refusedBefore s k (.num n)) [])) ∧
      (refusedBefore s k (.num n) = 0 → (applyWrite s [] r k (.num n)).2.boot.warmWanted = none → ∃ t, exec (.casaroWrite req) s = .next t ∧
        OnlyChannels (applyWrite s [] r k (.num n)).2 t ∧ (getChannel t c).state = 2 ∧ (getChannel t c).code = (applyWrite s [] r k (.num n)).1)) ∧
    (∀ k, k < 2 ^ 32 → req.body = leBytes 4 k ++ leBytes 2 1 ++ leBytes 2 0 →
      (∀ j r, objNext k = some j → objRow j = some r → ∃ t, exec (.casaroList req) s = .next t ∧ OnlyChannels s t ∧ Responds t req c 0x03 0 0
        (leBytes 2 1 ++ leBytes 2 0 ++ (leBytes 4 j ++ leBytes 1 r.ty.code ++ leBytes 1 r.acc.code ++ leBytes 2 (if r.flash then 1 else 0) ++ nameBytes r.name))) ∧
      (objNext k = none → ∃ t, exec (.casaroList req) s = .next t ∧ OnlyChannels s t ∧ Responds t req c 0x03 0 0 [0#8, 0#8, 0#8, 0#8])) ∧
    (∀ k, k < 2 ^ 32 → req.body = leBytes 4 k →
      (objRow k = none → ∃ t, exec (.casaroDescribe req) s = .next t ∧ OnlyChannels s t ∧ Responds t req c 0x04 Code.objectUnknown 0 []) ∧
      (∀ r, objRow k = some r → r.ty ≠ .bytes → r.ty ≠ .text → ¬(keyArea k = 0x50 ∧ (keyObj k = 1 ∨ keyObj k = 2)) → ∃ t,
        exec (.casaroDescribe req) s = .next t ∧ OnlyChannels s t ∧ Responds t req c 0x04 0 0
          (leBytes 4 k ++ leBytes 1 r.ty.code ++ leBytes 1 r.acc.code ++ leBytes 2 (if r.flash then 1 else 0) ++ leBytes 8 r.lo ++ leBytes 8 r.hi ++
            nameBytes r.name ++ oneItem k r.ty.code 0 (leBytes r.ty.width r.dflt)))) ∧
    (∀ n m, n < 2 ^ 32 → m < 2 ^ 16 → req.body = leBytes 4 n ++ leBytes 2 m ++ leBytes 2 0 →
      let es := ((List.range (min m 64)).map (fun i => (n + i) % 2 ^ 32)).filterMap (findEvent s)
      ∃ t, exec (.casaroResend req) s = .next t ∧ Responds t req c 0x21 0 0 (leBytes 2 es.length) ∧ t.out = (es.map (fun e => Out.event (eventFrame s e))).reverse ++ s.out ∧
        Counted s t Key.framesTx es.length ∧ t.keeper.ring = s.keeper.ring ∧ t.keeper.sentAt = s.keeper.sentAt ∧ SameMemory s { t with port := s.port }))

/-- The device's transaction, and relays that time out (R370, R373 to R377). Where the manual leaves a choice, it says the model's own (log entries 67 and 71). -/
def Obligations.CasaroTransactions : Prop :=
  let ended (s t : State) (result : Nat) : Prop := t.keeper.txn = Txn.none ∧ getObj t Key.lastTxnId = s.keeper.txn.id ∧
    getObj t Key.lastTxnResult = result ∧ getObj t Key.lastTxnTime = stamp s
  (∀ m ∈ ([(0x11, .casaroPrepare), (0x12, .casaroCommit), (0x13, .casaroRollback)] : List (Nat × (CasReq → Instr))), ∀ (s : State) (req : CasReq) (c : Nat),
    Asks s req c → req.body = (if m.1 = 0x12 then List.replicate 8 0#8 else []) → txnCurrent s req.hdr.txn = false →
    ∃ t, exec (m.2 req) s = .next t ∧ OnlyChannels s t ∧ Responds t req c m.1 Code.txnUnknown req.hdr.txn []) ∧
  (∀ (s : State) (req : CasReq) (c : Nat), Asks s req c → req.hdr.txn = 0 → req.body = [] →
    (s.keeper.txn.st ≠ .none → ∃ t, exec (.casaroBegin req) s = .next t ∧ OnlyChannels s t ∧ Responds t req c 0x10 Code.txnOpen 0 []) ∧
    (s.keeper.txn.st = .none → ∃ t, exec (.casaroBegin req) s = .next t ∧ Responds t req c 0x10 0 s.keeper.nextTxn [] ∧
      t.keeper.txn = { Txn.none with st := .open_, id := s.keeper.nextTxn, activity := now s, activityTb := stamp s } ∧
      t.keeper.nextTxn = (s.keeper.nextTxn + 1) % 2 ^ 32 ∧ { t with keeper := s.keeper, port := s.port } = s)) ∧
  (∀ (s : State) (req : CasReq) (ch : Nat), Asks s req ch → req.hdr.txn ≠ 0 → txnCurrent s req.hdr.txn = true →
    let t0 := { s with keeper := { s.keeper with txn := { s.keeper.txn with activity := now s, activityTb := stamp s } } }
    let c := checkStaged t0
    let ready := s.keeper.txn.st = .open_ ∨ s.keeper.txn.st = .prepared
    (req.body = [] →
      (¬ready → s.keeper.txn.st ≠ .none → ∃ t, exec (.casaroPrepare req) s = .next t ∧ OnlyChannels t0 t ∧ Responds t req ch 0x11 Code.txnPrepared req.hdr.txn []) ∧
      (ready → ∃ t, exec (.casaroPrepare req) s = .next t ∧ (c.1.1 < 4096 → Responds t req ch 0x11 0 req.hdr.txn
          (leBytes 1 (if c.1.1 = 0 then 1 else 0) ++ [0#8] ++ leBytes 2 c.1.1 ++ leBytes 4 c.1.2)) ∧
        t.keeper.txn.staged = c.2.keeper.txn.staged ∧ (c.1.1 = 0 → t.keeper.txn.st = .prepared ∧ t.keeper.txn.holds = holdsDevice c.2.keeper.txn.staged) ∧
        (c.1.1 ≠ 0 → t.keeper.txn.st = .open_ ∧ t.keeper.txn.holds = false)) ∧
      (s.keeper.txn.st ≠ .applying → s.keeper.txn.st ≠ .none → ∃ t, exec (.casaroRollback req) s = .next t ∧ TxnEnded s t ch 0 ∧
        SameMemory s { t with port := s.port })) ∧
    (req.body = List.replicate 8 0#8 → ready → c.1.1 ≠ 0 → ∃ t, exec (.casaroCommit req) s = .next t ∧ TxnEnded s t ch c.1.1 ∧
      SameMemory c.2 { t with port := c.2.port }) ∧
    (∀ n, 0 < n → n < 2 ^ 64 → req.body = leBytes 8 n →
      (s.keeper.txn.st = .open_ → ∃ t, exec (.casaroCommit req) s = .next t ∧ OnlyChannels t0 t ∧ Responds t req ch 0x12 Code.txnNotPrepared req.hdr.txn []) ∧
      (s.keeper.txn.st = .prepared → (s.time.pps ≠ 1 ∨ n < stamp s + 10000000 ∨ stamp s + 60 * 1000000000 < n) → ∃ t, exec (.casaroCommit req) s = .next t ∧
        OnlyChannels t0 t ∧ Responds t req ch 0x12 Code.commitTime req.hdr.txn []) ∧
      (s.keeper.txn.st = .prepared → s.time.pps = 1 → stamp s + 10000000 ≤ n → n ≤ stamp s + 60 * 1000000000 → ∃ t, exec (.casaroCommit req) s = .next t ∧
        Responds t req ch 0x12 0 req.hdr.txn [] ∧ t.keeper.txn = { t0.keeper.txn with st := .committing, instant := n }))) ∧
  (∀ (s : State) (req : CasReq) (ch n : Nat), CommitsOne s req ch Key.eventRate n → ∃ t, exec (.casaroCommit req) s = .next t ∧ TxnEnded s t ch 0 ∧
    getObj t Key.eventRate = n ∧ (∀ k, k ≠ Key.eventRate → k ≠ Key.lastTxnId → k ≠ Key.lastTxnResult → k ≠ Key.lastTxnTime → getObj t k = getObj s k) ∧
    SameMemory s { t with port := s.port }) ∧
  (∀ s : State, let due := (s.keeper.txn.st = .open_ ∨ s.keeper.txn.st = .prepared) ∧ s.keeper.txn.activity + 30 * 1000000000 ≤ now s ∧ netUp s = true
    (¬due → exec .txnTimeout s = .next s) ∧
    (due → ∃ t, exec .txnTimeout s = .next t ∧ ended s t Code.txnTimeout ∧ ReportedUnit t Code.txnTimeout 1 0xFFFFFFFF [] ∧
      { t with keeper := s.keeper, out := s.out } = s)) ∧
  (∀ s : State, let c := checkStaged s
    let due := s.keeper.txn.st = .committing ∧ s.keeper.txn.instant ≤ stamp s ∧ netUp s = true ∧ s.boot.dark = .none
    (¬due → exec .timedCommitInstant s = .next s) ∧
    (due → c.1.1 ≠ 0 → ∃ t, exec .timedCommitInstant s = .next t ∧ ended c.2 t c.1.1 ∧ ReportedUnit t Code.txnFailed 2 0xFFFFFFFF [] ∧ SameMemory c.2 t) ∧
    (∀ n, due → s.boot.warmWanted = none → pinsPending s = false → s.keeper.txn.staged = [(Key.eventRate, .num n)] → ∃ t, exec .timedCommitInstant s = .next t ∧
      ended s t 0 ∧ getObj t Key.eventRate = n ∧ t.out = s.out ∧ SameMemory s t)) ∧
  (∀ (s : State) (d tag : Nat), let found := s.keeper.relays.find? (fun r => r.dev == d && r.tag == tag)
    (found = none → exec (.dictRelayTimeout d tag) s = .next s) ∧
    (∀ r, found = some r → let limit := r.since + getObj s Key.peerTimeout * 1000000
      (now s < limit → exec (.dictRelayTimeout d tag) s = .next s) ∧
      (limit ≤ now s → ∃ t, exec (.dictRelayTimeout d tag) s = .next t ∧ (∀ x ∈ t.keeper.relays, ¬(x.dev = d ∧ x.tag = tag)) ∧
        ∀ c, r.via = .chan c → (getChannel t c).state = 2 ∧ (getChannel t c).code = Code.peerLost ∧ (getChannel t c).tag = r.hdr.tag ∧ SameMemory s { t with port := s.port })))

/-- Writes of dictionary objects (R43, R355, R357, R372, R374, R382, R430, R445, R450, R479). -/
def Obligations.ObjectWrites : Prop :=
  let rows : List (Nat × (ObjWrite → Instr)) := [(Key.intakeError, .intakeErrorWrite), (Key.eventQuery, .eventQuery), (Key.defectQuery, .defectQuery),
    (Key.minReset, .minReset), (Key.snapshot, .snapshot), (Key.secondsLoad, .secondsLoad), (Key.arithClock, .arithClock)]
  let only (s t : State) (k n : Nat) : Prop := { t with keeper := s.keeper } = s ∧ getObj t k = n ∧ (∀ j, j ≠ k → getObj t j = getObj s j) ∧
    { t.keeper with obj := s.keeper.obj } = s.keeper
  let snapped (s t : State) : Prop := (∀ i < 5, ∀ c < 8, getObj t (Key.bytesSnap (i * 16 + c)) = getObj s (Key.bytes (i * 16 + c))) ∧
    getObj t Key.choicesSnap = (getObj s Key.routeChoices + getObj s Key.reduceArbitrations + getObj s Key.schedTiebreaks) % 2 ^ 64 ∧
    getObj t Key.snapTime = stamp s ∧ getObj t Key.snapshotAt = 0 ∧ { t with keeper := s.keeper } = s
  (∀ (s : State) (w : ObjWrite), s.boot.warmWanted = none → w.txn = 0 → refusedBefore s w.key w.val ≠ 0 →
    exec (.objectWrite w) s = .next s ∧ ∀ row ∈ rows, exec (row.2 w) s = .next s) ∧
  (∀ (s : State) (w : ObjWrite) (k n : Nat), WriteStaged s w k n →
    (ownRow k = false → ∃ t, exec (.objectWrite w) s = .next t ∧ StagedAs s t k n) ∧
    (∀ row ∈ rows, row.1 = k → ∃ t, exec (row.2 w) s = .next t ∧ StagedAs s t k n)) ∧
  (∀ (s : State) (w : ObjWrite) (k n : Nat) (r : ObjRow), WriteTaken s w k n → objRow k = some r → ownRow k = false → (keyArea k = 0x20 ∨ keyArea k = 0x34) →
    (r.flash = false → ∃ t, exec (.objectWrite w) s = .next t ∧ only s t k n) ∧
    (r.flash = true → ∃ t, exec (.objectWrite w) s = .next t ∧ getObj t k = n ∧ (∀ j, j ≠ k → getObj t j = getObj s j) ∧
      t.flash = { s.flash with stores := s.flash.stores ++ [.obj k n] } ∧ { t with flash := s.flash, keeper := s.keeper } = s)) ∧
  (∀ (s : State) (w : ObjWrite) (op : Nat) (b : List Byte), op < 7 → w.key = Key.svcArgs op → w.val = .bytes b → w.txn = 0 → s.boot.warmWanted = none →
    netUp s = true → refusedBefore s w.key w.val = 0 → ∃ t, exec (.objectWrite w) s = .next t ∧ getBytes t (Key.svcArgs op) = b ∧
      { t with keeper := s.keeper } = s ∧ { t.keeper with objB := s.keeper.objB } = s.keeper) ∧
  (∀ (s : State) (w : ObjWrite) (n : Nat), s.boot.warmWanted = none → w.key = Key.arithClock → w.val = .num n → w.txn = 0 → deviceIdle s = false →
    exec (.arithClock w) s = .next s) ∧
  (∀ (s : State) (w : ObjWrite) (n : Nat),
    (WriteTaken s w Key.intakeError n → ∃ t, exec (.intakeErrorWrite w) s = .next t ∧ { t with keeper := s.keeper } = s ∧
      ∀ i < 32, (getObj t Key.intakeError).testBit i = ((getObj s Key.intakeError).testBit i && n.testBit i)) ∧
    (WriteTaken s w Key.eventQuery n → ∃ t, exec (.eventQuery w) s = .next t ∧ only s t Key.eventQuery n ∧
      (∀ e, findEvent s n = some e → readBytes t Key.eventRecord = eventHead leBytes e ++ e.detail) ∧ (findEvent s n = none → readBytes t Key.eventRecord = [])) ∧
    (WriteTaken s w Key.defectQuery n → ∃ t, exec (.defectQuery w) s = .next t ∧ only s t Key.defectQuery n ∧
      (∀ d, s.flash.defects[n]? = some d → n < defectCount s → readBytes t Key.defectEntry = d.bytes) ∧ (defectCount s ≤ n → readBytes t Key.defectEntry = [])) ∧
    (WriteTaken s w Key.arithClock n → ∃ t, exec (.arithClock w) s = .next t ∧ only s t Key.arithClock n ∧ (s.power.step = 0 → n ≤ 2 → runningClock t = n)) ∧
    (WriteTaken s w Key.minReset n → ∃ t, exec (.minReset w) s = .next t ∧ { t with power := s.power } = s ∧ (n = 0 → t.power = s.power) ∧
      (n ≠ 0 → t.power = { s.power with railMin := [], clusterMin := [], suspects := [] })) ∧
    (WriteTaken s w Key.snapshot n → (n = 0 → exec (.snapshot w) s = .next s) ∧ (n ≠ 0 → ∃ t, exec (.snapshot w) s = .next t ∧ snapped s t)) ∧
    (WriteTaken s w Key.secondsLoad n → ∃ t, exec (.secondsLoad w) s = .next t ∧ t.time.load = some n ∧ t.time.tb = s.time.tb ∧ { t with time := s.time } = s ∧
      t.time.pps = (if s.time.pps = 3 then 0 else s.time.pps))) ∧
  (∀ s : State, let due := getObj s Key.snapshotAt ≠ 0 ∧ getObj s Key.snapshotAt ≤ stamp s
    (¬due → exec .snapshotAt s = .next s) ∧ (due → ∃ t, exec .snapshotAt s = .next t ∧ snapped s t))

/-- Enables, drains, resets and regulation (R68, R379 to R383, R402, R410, R413 to R415, R477). -/
def Obligations.EnablesAndResets : Prop :=
  let deadline (s : State) : Drain → Prop := fun d => d.deadline = now s + getObj s Key.drainLimit * 1000000 ∧
    d.deadlineTb = stamp s + getObj s Key.drainLimit * 1000000
  (∀ (s : State) (w : ObjWrite) (p c v : Nat), (p < 544 → WriteStaged s w (Key.coreEnable p) v → ∃ t, exec (.coreEnable w) s = .next t ∧ StagedAs s t (Key.coreEnable p) v) ∧
    (c < 8 → WriteStaged s w (Key.classEnable c) v → ∃ t, exec (.classEnable w) s = .next t ∧ StagedAs s t (Key.classEnable c) v)) ∧
  (∀ (s : State) (req : CasReq) (ch p v : Nat), p < 544 → CommitsOne s req ch (Key.coreEnable p) v →
    (v = 0 → ∃ t, exec (.casaroCommit req) s = .next t ∧ TxnEnded s t ch 0 ∧ getObj t (Key.coreEnable p) = 0 ∧ t.cores = s.cores ∧
      (coreState s p ≠ 1 → t.fountain = s.fountain ∧ t.keeper.cores = s.keeper.cores) ∧
      (coreState s p = 1 → coreState t p = 2 ∧ (∀ q, q ≠ p → coreState t q = coreState s q) ∧ (∃ d, t.keeper.drains = s.keeper.drains ++ [d] ∧ d.fn = .core p ∧ deadline s d) ∧
        ∀ e ∈ coreGroups (getPos s p), ∀ sl, getSlot s e.2.slot = some sl → sl.state = 3 → sl.ending = none → getSlot t e.2.slot = some { sl with state := 4 })) ∧
    (v = 1 → let code := if coreState s p = 0 ∨ coreState s p = 4 ∨ pendingExcludes s p = true then Code.valueRange
        else if coreState s p = 2 then Code.functionDraining else 0
      ∃ t, exec (.casaroCommit req) s = .next t ∧ TxnEnded s t ch code ∧ t.fountain = s.fountain ∧ t.cores = s.cores ∧
        (code ≠ 0 → t.keeper.cores = s.keeper.cores ∧ getObj t (Key.coreEnable p) = getObj s (Key.coreEnable p)) ∧
        (code = 0 → getObj t (Key.coreEnable p) = 1 ∧ coreState t p = (if coreState s p = 3 then 1 else coreState s p)))) ∧
  (∀ (s : State) (req : CasReq) (ch c v : Nat), c < 8 → CommitsOne s req ch (Key.classEnable c) v →
    (v = 0 → ∃ t, exec (.casaroCommit req) s = .next t ∧ TxnEnded s t ch 0 ∧ getObj t (Key.classEnable c) = 0 ∧
      (classState s c = 0 → classState t c = 1 ∧ (∃ d ∈ t.keeper.drains, d.fn = .cls c ∧ deadline s d) ∧ (SlotsWf s → ∀ n sl, getSlot s n = some sl → recClass sl.words = c →
        sl.state = 3 → sl.ending = none → (getSlot t n).map (·.state) = some 4)) ∧ (classState s c ≠ 0 → t.fountain = s.fountain ∧ classState t c = classState s c)) ∧
    (v = 1 → classState s c = 1 → ∃ t, exec (.casaroCommit req) s = .next t ∧ TxnEnded s t ch Code.functionDraining ∧ t.fountain = s.fountain ∧ classState t c = 1) ∧
    (v = 1 → classState s c ≠ 1 → ∃ t, exec (.casaroCommit req) s = .next t ∧ TxnEnded s t ch 0 ∧ getObj t (Key.classEnable c) = 1 ∧
      classState t c = (if classState s c = 2 then 0 else classState s c))) ∧
  (∀ (s : State) (fn : DrainFn), ((∀ d ∈ s.keeper.drains, d.fn = fn → now s < d.deadline) → exec (.drainDeadline fn) s = .next s) ∧
    (∀ d ∈ s.keeper.drains, d.fn = fn → d.deadline ≤ now s → ∃ t, exec (.drainDeadline fn) s = .next t ∧ (∀ x ∈ t.keeper.drains, x.fn ≠ fn) ∧
      (∀ p, fn = .core p → (coreState s p = 2 → coreState t p = 3) ∧ ∀ e ∈ coreGroups (getPos s p), ∀ sl, getSlot s e.2.slot = some sl →
        (getSlot t e.2.slot).map (·.ending) = some (some (sl.ending.getD { code := Code.functionWithdrawn, replay := none }))) ∧
      (∀ c, fn = .cls c → classState t c = 2 ∧ (SlotsWf s → ∀ n sl, getSlot s n = some sl → recClass sl.words = c → (sl.state = 3 ∨ sl.state = 4) →
        (getSlot t n).map (·.ending) = some (some (sl.ending.getD { code := Code.functionWithdrawn, replay := none })))))) ∧
  (∀ (s : State) (w : ObjWrite) (op n : Nat), op < 7 → WriteTaken s w (Key.svcCancel op) n →
    ((n = 0 ∨ (getSvc s (op + 1)).state ≠ 3) → exec (.svcCancel w) s = .next s) ∧
    (n ≠ 0 → (getSvc s (op + 1)).state = 3 → ∃ t, exec (.svcCancel w) s = .next t ∧ getSvc t (op + 1) = { getSvc s (op + 1) with cancel := true } ∧
      { t with keeper := s.keeper } = s ∧ ∀ k, k ≠ op + 1 → getSvc t k = getSvc s k)) ∧
  (∀ (s : State) (w : ObjWrite) (n : Nat),
    (WriteTaken s w Key.acceptUntested n → let waits := s.boot.stopped = true ∧ s.boot.done = 2 ∧ getObj s (Key.stageResult 2) = Code.untestedPair
      ((n ≠ 1 ∨ ¬waits) → ∃ t, exec (.acceptUntested w) s = .next t ∧ getObj t Key.acceptUntested = n ∧ t.boot = s.boot ∧
        t.flash = { s.flash with stores := s.flash.stores ++ [.obj Key.acceptUntested n] }) ∧
      (n = 1 → waits → ∃ t, exec (.acceptUntested w) s = .next t ∧ t.boot.stopped = false ∧ (s.boot.kind ≠ 2 → t.boot.stage = 3 ∧ t.boot.done = 3 ∧
        getObj t Key.acceptUntested = 1 ∧ t.flash.stores = s.flash.stores ++ [.obj Key.acceptUntested 1]))) ∧
    (WriteTaken s w Key.warmReset n → (n = 0 → exec (.warmReset w) s = .next s) ∧ (n ≠ 0 → ∃ t, exec (.warmReset w) s = .next t ∧ t.boot.stage = 0 ∧ t.boot.done = 0 ∧
      t.boot.cause = 2 ∧ (t.boot.kind = 1 ∨ t.boot.kind = 2) ∧ t.flash.startCount = s.flash.startCount + 1 ∧ t.fountain = Fountain.clear ∧ t.cores = [] ∧
      t.reservoir = Reservoir.unmapped ∧ t.keeper.obj = s.flash.obj ∧ t.flash.obj = s.flash.obj ∧ t.flash.stores = [] ∧ t.boot.faultLow = false ∧
      t.boot.alertLow = s.boot.alertLow ∧ t.pool = Pool.alone)) ∧
    (WriteTaken s w Key.cisternReset n →
      ((n = 0 ∨ inService s = false ∨ (getSvc s 1).state = 3 ∨ inCisReset s = true) → exec (.cisternReset w) s = .next s) ∧
      (n ≠ 0 → inService s = true → (getSvc s 1).state ≠ 3 → inCisReset s = false → ∃ t, exec (.cisternReset w) s = .next (cutCopies (refuseTaken t)) ∧
        t.cistern = { s.cistern with reset := some ⟨0, 0xFFFFFFFF, now s⟩ } ∧ t.reservoir = s.reservoir ∧ t.cores = s.cores ∧ t.fountain = s.fountain ∧
        ReportedUnit t Code.cisternReset 1 0xFFFFFFFF (leBytes 4 0 ++ leBytes 4 (getObj s Key.pinEpoch))))) ∧
  (∀ s : State, (s.cistern.reset = none → exec .cisternResetDrainEnd s = .next s) ∧
    (∀ r, s.cistern.reset = some r →
      (drained s = false → now s < r.since + 2010000 → exec .cisternResetDrainEnd s = .next s) ∧
      ((drained s = true ∨ r.since + 2010000 ≤ now s) → SlotsWf s → ∃ t, exec .cisternResetDrainEnd s = .next t ∧ t.cistern.reset = none ∧
        Counted32 s t Key.pinEpoch 1 ∧ (∀ p, (getPos t p).walker = [] ∧ (getPos t p).ro = []) ∧
        (s.cistern.jobs = [] → s.sluice.moves = [] → (∀ h, h < 2 → (getHalf s h).pagingOut = false) →
          (∀ e ∈ liveSlots s, staging e.2 = false ∧ e.2.staging ≠ .listing) → t.cistern.win = [] ∧ t.cistern.sill = [] ∧ ∀ g, (getSlice t g).sets = [] ∧ (getSlice t g).inbox = [] ∧
          (getSlice t g).mrs = [] ∧ (getSlice t g).redq = [] ∧ (getSlice t g).windowRefetch = (getSlice s g).windowRefetch) ∧
        (∀ n sl, getSlot s n = some sl → sl.state = 3 → sl.windowUser = true → ∃ x, getSlot t n = some x ∧ x.ending ≠ none)))) ∧
  (∀ (s : State) (point inst cls : Nat), ((railsUp s = false ∨ 4 ≤ point) → exec (.regulationAdmit point inst cls) s = .next (runJobs s)) ∧
    (railsUp s = true →
      (∀ q i, ((getSlice s inst).inbox.zipIdx.find? (fun e => e.1.held && e.1.req.cls == cls)) = some (q, i) →
        classLimit s 0 cls ≤ intakeCount (getSlice s inst) cls → exec (.regulationAdmit 0 inst cls) s = .next (runJobs s)) ∧
      ((∀ e ∈ (getSlice s inst).inbox, ¬(e.held = true ∧ e.req.cls = cls)) → exec (.regulationAdmit 0 inst cls) s = .next (runJobs s)) ∧
      (∀ q i, ((getSlice s inst).inbox.zipIdx.find? (fun e => e.1.held && e.1.req.cls == cls)) = some (q, i) → intakeCount (getSlice s inst) cls < classLimit s 0 cls →
        (getSlice s inst).portLost = false → let s1 := markInbox s inst i (fun x => { x with held := false })
        heldBy s1 inst q.req = .none → exec (.regulationAdmit 0 inst cls) s = .next (runJobs (takeInbox s1 inst i { q with held := false } .ok))) ∧
      ((∀ e ∈ s.cistern.slices, ∀ f ∈ e.2.fetches, ¬(f.held = true ∧ f.cls = cls)) → exec (.regulationAdmit 1 inst cls) s = .next (runJobs s)) ∧
      (∀ x i, ((mapGet [] s.cistern.sill inst).zipIdx.find? (fun e => !e.1.sent && e.1.cls == cls)) = some (x, i) →
        (classLimit s 2 cls ≤ sillCount s inst cls → exec (.regulationAdmit 2 inst cls) s = .next (runJobs s)) ∧
        (sillCount s inst cls < classLimit s 2 cls → cls < 8 → ∃ t, exec (.regulationAdmit 2 inst cls) s = .next (runJobs t) ∧ Counted s t (Key.bytes (32 + cls)) x.bytes ∧
          mapGet [] t.cistern.sill inst = (mapGet [] s.cistern.sill inst).set i { x with sent := true } ∧ t.cistern.slices = s.cistern.slices ∧ t.reservoir = s.reservoir)) ∧
      (Still (getLink s inst) → inst < 36 → ∃ t, exec (.regulationAdmit 3 inst cls) s = .next (runJobs t) ∧ OnlyLink s t inst (getLink s inst) ∧ { t with links := s.links } = s)))

/-- The sweep, the tests of cores and their packs (R382, R383, R406, R407, R412, R466 to R469). Where the manual leaves a choice, it says the model's own (log entries 85 and 86). -/
def Obligations.ServiceTests : Prop :=
  let rows : List (Nat × (ObjWrite → Instr)) := [(1, .defectSweep), (2, .spotTest), (3, .testPackAppend), (3, .testPackInstall), (3, .testPackInstallPool),
    (3, .testPackRun), (4, .firmwareUpdate), (5, .licenceLoad), (6, .failureSignatureExport), (7, .defectEntryClearing)]
  let sweepBytes (done entries first : Nat) : List Byte := leBytes 2 done ++ leBytes 2 50 ++ leBytes 2 entries ++ [0#8, 0#8] ++ leBytes 4 first
  let skips (n mask : Nat) : List Byte := leBytes 2 0 ++ leBytes 2 0 ++ leBytes 2 n ++ leBytes 4 0xFFFFFFFF ++ leBytes 68 0 ++ leBytes 68 mask
  let asked (s : State) : Nat := if (getSvc s 1).args = [] then 15 else leAt (getSvc s 1).args 0 1
  let fits (s : State) (b : Nat) (f : SweepFinding) : Prop :=
    (b < 34 ∧ f.unit / 16 = b ∧ ((f.kind = 1 ∧ ((asked s).testBit 0 ∨ (asked s).testBit 2 ∨ (asked s).testBit 3)) ∨ (f.kind = 9 ∧ (asked s).testBit 0))) ∨
    (34 ≤ b ∧ f.unit / 8 = b - 34 ∧ (f.kind = 2 ∨ f.kind = 3) ∧ (asked s).testBit 1)
  let sweeping (s : State) (b : Nat) (rest : List Nat) : Prop := inService s = true ∧ (getSvc s 1).state = 3 ∧ (getSvc s 1).todo = b :: rest ∧ b < 50
  (∀ (s : State) (w : ObjWrite) (n : Nat), ∀ row ∈ rows, WriteTaken s w (Key.svcGo (row.1 - 1)) n → (n = 0 ∨ (getSvc s row.1).state = 3) → exec (row.2 w) s = .next s) ∧
  (∀ (s : State) (w : ObjWrite), Goes s w 1 →
    (1 < (svcArgs s 1).length → GoRefused (.defectSweep w) s) ∧
    ((svcArgs s 1).length ≤ 1 → (deviceIdle s = false ∨ inService s = false ∨ inCisReset s = true) → exec (.defectSweep w) s = .next s) ∧
    ((svcArgs s 1).length ≤ 1 → deviceIdle s = true → inService s = true → inCisReset s = false → ∃ t, exec (.defectSweep w) s = .next t ∧
      SvcRuns s t 1 (sweepBytes 0 0 0xFFFFFFFF) ∧ (getSvc t 1).progress = 0 ∧ (getSvc t 1).todo = List.range 50 ∧ KeeperOnly s t)) ∧
  (∀ (s : State) (found : List SweepFinding), (inService s = false ∨ (getSvc s 1).state ≠ 3 ∨ (getSvc s 1).todo = []) → exec (.sweepBlockCommit found) s = .next s) ∧
  (∀ (s : State) (found : List SweepFinding) (b : Nat) (rest : List Nat), sweeping s b rest → ∃ t, exec (.sweepBlockCommit found) s = .next t ∧
    (b < 34 → ∀ c < 16, (getPos t (b * 16 + c)).basin = []) ∧
    (34 ≤ b → ∀ c < 8, let x := getSlice t ((b - 34) * 8 + c); x.sets = [] ∧ x.redq = [] ∧ x.mrs = []) ∧
    ((∀ f ∈ found, ¬fits s b f) → t.flash.defects = s.flash.defects) ∧
    (t.boot.dark = .none → (getSvc t 1).progress = b + 1 ∧ leAt (getBytes t (Key.svcResult 0)) 0 2 = b + 1 ∧ leAt (getBytes t (Key.svcResult 0)) 2 2 = 50 ∧
      ((getSvc s 1).cancel = false → rest ≠ [] → (getSvc t 1).state = 3 ∧ (getSvc t 1).todo = rest) ∧
      ((getSvc s 1).cancel = true → (getSvc t 1).state = 6 ∧ (getSvc t 1).code = Code.serviceCancelled) ∧
      ((getSvc s 1).cancel = false → rest = [] → (getSvc t 1).state = 5 ∧ (getSvc t 1).code = 0) ∧
      ((getSvc s 1).cancel = true ∨ rest = [] → Counted32 s t Key.pinEpoch 1 ∧ (∀ p < 544, (getPos t p).basin = []) ∧
        ((∀ e ∈ liveSlots s, staging e.2 = false) → t.cistern.win = [])))) ∧
  (∀ (s : State) (f : SweepFinding) (b : Nat) (rest : List Nat), sweeping s b rest → fits s b f → isNamed s f.kind f.unit f.detail = false → s.flash.defects.length < 4096 →
    ∃ t, exec (.sweepBlockCommit [f]) s = .next t ∧
      t.flash.defects = s.flash.defects ++ [⟨defectRecord f.kind 0x21 f.unit f.detail f.code (stamp s) (startCount s), false⟩] ∧
      (f.kind = 1 → coreState t f.unit = 4) ∧ (t.boot.dark = .none → (f.kind = 2 → (getSlice t f.unit).portHalf = true) ∧ (f.kind = 3 → (getSlice t f.unit).retired = true)) ∧
      (f.kind = 3 → (getSlice s (f.unit ^^^ 1)).retired = true → t.boot.dark = .depleted) ∧
      ((∀ g, (getSlice s g).retired = false) → t.boot.dark = .none)) ∧
  (∀ (s : State) (w : ObjWrite), Goes s w 3 →
    (packMode s ≠ 0 → exec (.testPackAppend w) s = .next s) ∧ (packMode s ≠ 1 → exec (.testPackInstall w) s = .next s) ∧
    (packMode s ≠ 2 → exec (.testPackInstallPool w) s = .next s) ∧ (packMode s ≠ 3 → exec (.testPackRun w) s = .next s) ∧
    (16 ≤ (svcArgs s 3).length → packMode s = 0 → let off := leAt (svcArgs s 3) 4 4
      let chunk := (svcArgs s 3).drop 16
      ∃ t, exec (.testPackAppend w) s = .next t ∧ KeeperOnly s t ∧
        (off + chunk.length ≤ 2 ^ 22 + 112 → SvcEnds s t 3 5 0 [] ∧ t.keeper.pack.length = off + chunk.length ∧
          (∀ i < off, t.keeper.pack.getD i 0#8 = s.keeper.pack.getD i 0#8) ∧ ∀ i < chunk.length, t.keeper.pack.getD (off + i) 0#8 = chunk.getD i 0#8) ∧
        (2 ^ 22 + 112 < off + chunk.length → SvcEnds s t 3 6 Code.packInvalid [] ∧ t.keeper.pack = s.keeper.pack)) ∧
    (16 ≤ (svcArgs s 3).length → packMode s = 1 → let e := s.keeper.pack
      ∃ t, exec (.testPackInstall w) s = .next t ∧ KeeperAndFlash s t ∧
        (envValid s 4 e = true → envBodyLen e ≤ 2 ^ 22 → SvcEnds s t 3 5 0 [] ∧ t.flash = { s.flash with pack := e }) ∧
        ((envValid s 4 e = false ∨ 2 ^ 22 < envBodyLen e) → SvcEnds s t 3 6 Code.packInvalid [] ∧ t.flash = s.flash)) ∧
    (16 ≤ (svcArgs s 3).length → packMode s = 2 → let src := leAt (svcArgs s 3) 8 8
      let len := leAt (svcArgs s 3) 4 4
      ((src % 64 ≠ 0 ∨ 2 ^ 22 + 112 < len) → GoRefused (.testPackInstallPool w) s) ∧
      (src % 64 = 0 → len ≤ 2 ^ 22 + 112 →
        (addrDevice src = s.pool.device → (len = 0 ∨ homeRefusal s (addrLocal src) len ≠ none) → ∃ t, exec (.testPackInstallPool w) s = .next t ∧ KeeperOnly s t ∧
          SvcEnds s t 3 6 Code.addressUnmapped []) ∧
        (addrDevice src = s.pool.device → homeRefusal s (addrLocal src) len = none → len ≠ 0 → resMapped s (addrLocal src) = resMapped s (addrLocal src + len - 1) →
          ∃ t s1, exec (.testPackInstallPool w) s = .next t ∧ { s1 with keeper := s.keeper, out := s.out } = s ∧
            t = startJob s1 0 portKeeper (getObj s Key.hostClass) 0 (.image 3) [] (readOps (addrLocal src) len) ∧
            SvcRuns s t 3 [] ∧ t.flash = s.flash))) ∧
    (16 ≤ (svcArgs s 3).length → packMode s = 3 → let n := leAt (svcArgs s 3) 2 2
      let ps := positions.filter (fun p => decide (coreState s p = 1))
      ((n = 0 ∨ 64 < n) → GoRefused (.testPackRun w) s) ∧
      (1 ≤ n → n ≤ 64 → (s.flash.pack = [] → ∃ t, exec (.testPackRun w) s = .next t ∧ KeeperOnly s t ∧ SvcEnds s t 3 6 Code.packInvalid (skips 0 0)) ∧
        (s.flash.pack ≠ [] → ps ≠ [] → ∃ t, exec (.testPackRun w) s = .next t ∧ KeeperOnly s t ∧ (getSvc t 3).state = 3 ∧ (getSvc t 3).busy = ps.take n ∧
          (getSvc t 3).progress = 0 ∧ t.keeper.testing = (getSvc s 2).busy ++ ps.take n)))) ∧
  (∀ (s : State) (j : Job), s.cistern.jobs = [j] → j.left = 0 → j.who = .image 3 → (getSvc s 3).state = 3 → let t := runJobs s
    let e := gotBytes j.got (addrLocal (leAt (getSvc s 3).args 8 8)) (leAt (getSvc s 3).args 4 4)
    t.cistern.jobs = [] ∧ ((getSvc s 3).cancel = true → t.flash = s.flash ∧ (getSvc t 3).state = 6 ∧ (getSvc t 3).code = Code.serviceCancelled) ∧
    ((getSvc s 3).cancel = false → envValid s 4 e = true → envBodyLen e ≤ 2 ^ 22 → t.flash = { s.flash with pack := e } ∧ (getSvc t 3).state = 5) ∧
    ((getSvc s 3).cancel = false → (envValid s 4 e = false ∨ 2 ^ 22 < envBodyLen e) → t.flash = s.flash ∧ (getSvc t 3).state = 6 ∧
      (getSvc t 3).code = Code.packInvalid)) ∧
  (∀ (s : State) (w : ObjWrite), Goes s w 2 → let a := svcArgs s 2
    let ok := a.length = 76 ∧ leAt a 70 2 ≠ 0 ∧ leAt a 72 2 ≠ 0 ∧ leAt a 72 2 ≤ 1000 ∧ leAt a 74 2 ≤ 10000
    let ps := named (leAt a 0 68)
    (¬ok → GoRefused (.spotTest w) s) ∧
    (ok → s.flash.pack = [] → ∃ t, exec (.spotTest w) s = .next t ∧ KeeperOnly s t ∧ SvcEnds s t 2 6 Code.packInvalid (skips 0 0)) ∧
    (ok → s.flash.pack ≠ [] → (∀ p ∈ ps, coreState s p ≠ 1) → ∃ t, exec (.spotTest w) s = .next t ∧ KeeperOnly s t ∧
      SvcEnds s t 2 5 0 (skips ps.length (ps.map (2 ^ ·)).sum)) ∧
    (ok → s.flash.pack ≠ [] → ∀ before p after, ps = before ++ p :: after → (∀ q ∈ before, coreState s q ≠ 1) → coreState s p = 1 → ∃ t, exec (.spotTest w) s = .next t ∧
      KeeperOnly s t ∧ (getSvc t 2).state = 3 ∧ (getSvc t 2).busy = [p] ∧ (getSvc t 2).todo = after ∧ t.keeper.testing = p :: (getSvc s 3).busy ∧
      getBytes t (Key.svcResult 1) = skips before.length (before.map (2 ^ ·)).sum ∧ mapGet 0 t.keeper.spotWait p = now s)) ∧
  (∀ (s : State) (c : CoreTest), let p := c.position
    let tester (op : Nat) : Prop := (getSvc s op).state = 3 ∧ p ∈ (getSvc s op).busy
    ((¬tester 2 ∧ ¬tester 3) ∨ inService s = false ∨ inCisReset s = true ∨ coreGroups (getPos s p) ≠ [] → exec (.coreTestComplete c) s = .next s) ∧
    (p < 544 → inService s = true → inCisReset s = false → coreGroups (getPos s p) = [] → ∀ op, (op = 3 ∧ tester 3 ∨ op = 2 ∧ tester 2 ∧ ¬tester 3) → let d := (getSvc s op).data
      ∃ t, exec (.coreTestComplete c) s = .next t ∧ (p ∉ (getSvc s op).todo → p ∉ (getSvc t op).busy) ∧
        t.reservoir = s.reservoir ∧ t.cistern.slices = s.cistern.slices ∧ t.links = s.links ∧
        (coreState s p = 4 → (leAt (getBytes t (Key.svcResult (op - 1))) 78 68).testBit p ∧
          leAt (getBytes t (Key.svcResult (op - 1))) 0 2 = leAt d 0 2 ∧ t.keeper.cores = s.keeper.cores ∧ t.cores = s.cores ∧ t.flash.signatures = s.flash.signatures) ∧
        (coreState s p ≠ 4 → leAt (getBytes t (Key.svcResult (op - 1))) 0 2 = (leAt d 0 2 + 1) % 65536) ∧
        (c.failed = 0 → coreState s p ≠ 4 → leAt (getBytes t (Key.svcResult (op - 1))) 2 2 = leAt d 2 2 ∧ t.keeper.cores = s.keeper.cores ∧ t.cores = s.cores ∧ t.flash.signatures = s.flash.signatures) ∧
        (c.failed ≠ 0 → coreState s p ≠ 4 → leAt (getBytes t (Key.svcResult (op - 1))) 2 2 = (leAt d 2 2 + 1) % 65536 ∧ (leAt (getBytes t (Key.svcResult (op - 1))) 10 68).testBit p ∧
          coreState t p = 4 ∧ (∀ q, q ≠ p → coreState t q = coreState s q) ∧ t.flash.signatures.length = min 256 (s.flash.signatures.length + 1) ∧
          Counted s t (Key.codeCount Code.coreTestFailed) 1 ∧
          ((getSvc s op).todo = [] → (getSvc s op).busy = [p] → d.length = 214 → isNamed s 1 p 0 = false → s.flash.defects.length < 4096 → (getSvc t op).state ≠ 3 ∧
            t.flash.defects = s.flash.defects ++ [⟨defectRecord 1 0x22 p 0 Code.coreTestFailed (stamp s) (startCount s), false⟩])))) ∧
  (∀ (s : State) (p : Nat), let v := getSvc s 2
    let due := v.state = 3 ∧ p ∈ v.busy ∧ coreGroups (getPos s p) ≠ [] ∧ mapGet 0 s.keeper.spotWait p + leAt v.args 74 2 * 1000000 ≤ now s
    (¬due → exec (.spotTestWaitMsExpiry p) s = .next s) ∧
    (due → p < 544 → ∃ t, exec (.spotTestWaitMsExpiry p) s = .next t ∧ (leAt (getBytes t (Key.svcResult 1)) 78 68).testBit p ∧
      leAt (getBytes t (Key.svcResult 1)) 0 2 = leAt v.data 0 2 ∧ t.keeper.cores = s.keeper.cores ∧ t.cores = s.cores ∧ t.reservoir = s.reservoir ∧ t.cistern.slices = s.cistern.slices))

/-- The update, the licence, the signatures, the token and the stores (R14, R380, R382, R383, R389, R407, R409, R411, R469, R482,
R488, R490). Where the manual leaves a choice, it says the model's own (log entries 87 and 88). -/
def Obligations.ServiceOperations : Prop :=
  let phaseBytes (phase version listed : Nat) : List Byte := leBytes 1 phase ++ [0#8, 0#8, 0#8] ++ leBytes 4 version ++ leBytes 1 listed ++ List.replicate 7 0#8
  let put (s : State) (kind : Nat) (e : List Byte) : Flash :=
    if kind = 0 then (if s.boot.keeperSlot then { s.flash with keeperA := e } else { s.flash with keeperB := e })
    else if kind = 1 then (if s.boot.fountainSlot then { s.flash with fountainA := e } else { s.flash with fountainB := e })
    else { s.flash with compatSpare := e }
  let listed (s : State) (kind : Nat) (e : List Byte) : Bool :=
    if kind = 0 then pairInTable (tableInUse s) (envVersion e) (runningFountain s)
    else if kind = 1 then pairInTable (tableInUse s) (runningKeeper s) (envVersion e) else pairInTable e (runningKeeper s) (runningFountain s)
  let phase (s : State) (n : Nat) : Prop := (getSvc s 4).state = 3 ∧ netUp s = true ∧ (getSvc s 4).phase = n ∧ s.boot.warmWanted = none
  let ended (s t : State) (code : Nat) : Prop := (getSvc t 4).state = (if code = 0 then 5 else 6) ∧ (getSvc t 4).code = code ∧ getObj t (Key.svcEnded 3) = stamp s
  (∀ (s : State) (w : ObjWrite), Goes s w 4 → let a := svcArgs s 4
    let ok := a.length = 16 ∧ leAt a 0 1 ≤ 2 ∧ 1 ≤ leAt a 4 4 ∧ leAt a 4 4 ≤ 2 ^ 24 ∧ leAt a 8 8 % 64 = 0
    (¬ok → GoRefused (.firmwareUpdate w) s) ∧
    (ok → reducedResponder s = true → leAt a 0 1 ≠ 0 → exec (.firmwareUpdate w) s = .next s) ∧
    (ok → (reducedResponder s = true → leAt a 0 1 = 0) → addrDevice (leAt a 8 8) = s.pool.device → let src := addrLocal (leAt a 8 8)
      (homeRefusal s src (leAt a 4 4) ≠ none → ∃ t, exec (.firmwareUpdate w) s = .next t ∧ KeeperOnly s t ∧ SvcEnds s t 4 6 Code.addressUnmapped (phaseBytes 1 0 0)) ∧
      (homeRefusal s src (leAt a 4 4) = none → resMapped s src = resMapped s (src + leAt a 4 4 - 1) → ∃ t s1, exec (.firmwareUpdate w) s = .next t ∧
        { s1 with keeper := s.keeper, out := s.out } = s ∧ t = startJob s1 0 portKeeper (getObj s Key.hostClass) 0 (.image 4) [] (readOps src (leAt a 4 4)) ∧
        SvcRuns s t 4 (phaseBytes 1 0 0) ∧ (getSvc t 4).phase = 1 ∧ t.flash = s.flash))) ∧
  (∀ s : State, ((getSvc s 4).state ≠ 3 ∨ netUp s = false → exec .firmwareUpdatePhase s = .next s) ∧
    (phase s 1 → let src := leAt (getSvc s 4).args 8 8
      let len := leAt (getSvc s 4).args 4 4
      let kind := leAt (getSvc s 4).args 0 1
      ((jobOf s (.image 4) = none ∨ ∃ j, jobOf s (.image 4) = some j ∧ j.left ≠ 0) → exec .firmwareUpdatePhase s = .next s) ∧
      (∀ j, jobOf s (.image 4) = some j → j.left = 0 → let e := gotBytes j.got (addrLocal src) len
        ∃ t, exec .firmwareUpdatePhase s = .next t ∧ t.flash = s.flash ∧ t.cistern.slices = s.cistern.slices ∧ (∀ x ∈ t.cistern.jobs, x.id ≠ j.id) ∧
          (envValid s (kind + 1) e = false → ended s t Code.firmwareInvalid) ∧
          (envValid s (kind + 1) e = true → (getSvc s 4).cancel = true → ended s t Code.serviceCancelled) ∧
          (envValid s (kind + 1) e = true → (getSvc s 4).cancel = false → getSvc t 4 = { getSvc s 4 with phase := 2, data := e } ∧
            getBytes t (Key.svcResult 3) = phaseBytes 2 (envVersion e) (if listed s kind e then 1 else 0)))) ∧
    (phase s 2 → ∃ t, exec .firmwareUpdatePhase s = .next t ∧ t.flash = put s (leAt (getSvc s 4).args 0 1) [] ∧
      ((getSvc s 4).cancel = true → ended s t Code.serviceCancelled) ∧ ((getSvc s 4).cancel = false → getSvc t 4 = { getSvc s 4 with phase := 3 })) ∧
    (phase s 3 → let v := getSvc s 4
      let n := min v.data.length (v.progress + 65536)
      ∃ t, exec .firmwareUpdatePhase s = .next t ∧ t.flash = put s (leAt v.args 0 1) (v.data.take n) ∧ (getSvc t 4).progress = n ∧ KeeperAndFlash s t ∧
        (v.cancel = true → ended s t Code.serviceCancelled) ∧ (v.cancel = false → getSvc t 4 = { v with progress := n, phase := if n < v.data.length then 3 else 4 })) ∧
    (phase s 4 → ∃ t, exec .firmwareUpdatePhase s = .next t ∧ t.flash = s.flash ∧ KeeperOnly s t ∧
      ((getSvc s 4).cancel = true → ended s t Code.serviceCancelled) ∧ ((getSvc s 4).cancel = false → getSvc t 4 = { getSvc s 4 with phase := 5 })) ∧
    (phase s 5 → let f := { s.flash with prefKeeper := s.flash.prefKeeper && !s.flash.prefTorn, prefFountain := s.flash.prefFountain && !s.flash.prefTorn, prefTorn := false }
      let kind := leAt (getSvc s 4).args 0 1
      let g : Flash := if kind = 0 then { f with prefKeeper := !s.boot.keeperSlot } else if kind = 1 then { f with prefFountain := !s.boot.fountainSlot }
        else { f with compat := s.flash.compatSpare, compatSpare := s.flash.compat }
      ((leAt (getSvc s 4).args 1 1).testBit 0 = false → ∃ t, exec .firmwareUpdatePhase s = .next t ∧ KeeperAndFlash s t ∧ t.flash = g ∧ ended s t 0 ∧
        leAt (getBytes t (Key.svcResult 3)) 0 1 = 6) ∧
      ((leAt (getSvc s 4).args 1 1).testBit 0 = true → ∃ t, exec .firmwareUpdatePhase s = .next t ∧ t.boot.cause = 3 ∧ t.boot.kind = 1 ∧ t.boot.stage = 0 ∧ t.boot.done = 0 ∧
        t.flash.prefKeeper = g.prefKeeper ∧ t.flash.prefFountain = g.prefFountain ∧ t.flash.prefTorn = false ∧ t.flash.compat = g.compat ∧ getSvc t 4 = Svc.idle))) ∧
  (∀ (s : State) (w : ObjWrite), Goes s w 5 → let a := svcArgs s 5
    let e := a.take 128
    let tier := leAt e 48 1
    let reduce := (leAt a 128 1).testBit 0
    let answer (st : Nat) : List Byte := leBytes 1 st ++ leBytes 1 tier ++ [0#8, 0#8] ++ leBytes 8 (leAt e 56 8)
    let signed := envShape 5 e = true ∧ envSigned s.boot.rootKeys e = true ∧ envBodyLen e = 16 ∧ 1 ≤ tier ∧ tier ≤ 3
    let fits := s.pool.st = .standalone ∨ s.pool.st = .waiting
    (a.length ≠ 129 → GoRefused (.licenceLoad w) s) ∧
    (a.length = 129 → ¬signed → ∃ t, exec (.licenceLoad w) s = .next t ∧ KeeperOnly s t ∧ SvcEnds s t 5 6 Code.licenceInvalid (answer 2)) ∧
    (a.length = 129 → signed → envBound e ≠ identityDigest s → ∃ t, exec (.licenceLoad w) s = .next t ∧ KeeperOnly s t ∧ SvcEnds s t 5 6 Code.licenceInvalid (answer 3)) ∧
    (a.length = 129 → signed → envBound e = identityDigest s →
      (reduce = true → tierInForce s < tier → ∃ t, exec (.licenceLoad w) s = .next t ∧ KeeperOnly s t ∧ SvcEnds s t 5 6 Code.valueRange (answer 0)) ∧
      (reduce = true → tier ≤ tierInForce s → ¬fits → ∃ t, exec (.licenceLoad w) s = .next t ∧ KeeperOnly s t ∧ SvcEnds s t 5 6 Code.deviceBusy (answer 0)) ∧
      (reduce = false → ∃ t, exec (.licenceLoad w) s = .next t ∧ KeeperAndFlash s t ∧ SvcEnds s t 5 5 0 (answer 0) ∧ getObj t Key.pendingTier = tier ∧
        t.flash = { s.flash with pending := e, pendingTorn := false, stores := s.flash.stores ++ [.licence] }) ∧
      (reduce = true → tier ≤ tierInForce s → fits → (∀ l, (getLink s l).egress = []) → ∃ t, exec (.licenceLoad w) s = .next t ∧ getBytes t (Key.svcResult 4) = answer 0 ∧ getObj t Key.pendingTier = tier ∧
        t.flash = { s.flash with pending := e, pendingTorn := false, stores := s.flash.stores ++ [.licence] } ∧ t.reservoir = s.reservoir ∧ t.cores = s.cores ∧
        tierInForce t = tierInForce s ∧
        (∀ p < 544, coreState t p = if coreState s p = 1 ∧ p ∉ keptCores s tier then 2 else coreState s p) ∧
        (∀ l < 36, (getLink t l).st = if tierHasLink s.boot.tier l = true ∧ tierHasLink tier l = false ∧ (getLink s l).st = .up then .withdrawn else (getLink s l).st) ∧
        (getSvc t 5).state = (if ∃ p ∈ positions, coreState s p = 1 ∧ p ∉ keptCores s tier then 3 else 5)))) ∧
  (∀ (s : State) (w : ObjWrite), Goes s w 6 → let a := svcArgs s 6
    let sel := (s.flash.signatures.filter (fun g => decide (leAt a 0 4 ≤ g.seq))).map (·.bytes)
    (a.length ≠ 8 → GoRefused (.failureSignatureExport w) s) ∧
    (a.length = 8 → ∃ t n, exec (.failureSignatureExport w) s = .next t ∧ KeeperOnly s t ∧ n ≤ leAt a 4 2 ∧ n ≤ sel.length ∧ (getSvc t 6).progress = n ∧
      SvcEnds s t 6 5 0 (cborHead 4 n ++ (sel.take n).flatten) ∧ ((sel.take n).map List.length).sum ≤ 999 ∧
      (n < leAt a 4 2 → n < sel.length → 999 < ((sel.take (n + 1)).map List.length).sum))) ∧
  (∀ (s : State) (w : ObjWrite), Goes s w 7 → let a := svcArgs s 7
    let b := envBody a
    let n := leAt b 0 2
    let left := ((List.range n).map (fun i => (leAt b (8 + 8 * i) 4, leAt b (12 + 8 * i) 4))).filter (fun e => !recCancelled s e.1)
    let answer (k first : Nat) : List Byte := leBytes 2 k ++ [0#8, 0#8] ++ leBytes 4 first
    let whole (e : Nat × Nat) : Prop := ∃ d, s.flash.defects[e.1]? = some d ∧ recTorn d.bytes = false ∧ recKind d.bytes ≠ 15 ∧ recCheck d.bytes = e.2
    let token := envValid s 6 a = true ∧ 1 ≤ n ∧ n ≤ 16 ∧ b.length = 8 + 8 * n ∧ ∀ e ∈ left, whole e
    let todo := inEntryOrder left
    (¬token → ∃ t, exec (.defectEntryClearing w) s = .next t ∧ KeeperOnly s t ∧ SvcEnds s t 7 6 Code.tokenInvalid (answer 0 0xFFFFFFFF)) ∧
    (token → 4096 < s.flash.defects.length + todo.length → ∃ t, exec (.defectEntryClearing w) s = .next t ∧ KeeperOnly s t ∧ SvcEnds s t 7 6 Code.defectListFull (answer 0 0xFFFFFFFF)) ∧
    (token → s.flash.defects.length + todo.length ≤ 4096 → ∃ t, exec (.defectEntryClearing w) s = .next t ∧
      SvcEnds s t 7 5 0 (answer todo.length (if left = [] then 0xFFFFFFFF else s.flash.defects.length)) ∧ (left ≠ [] → t.boot.cleared = true) ∧ t.keeper.cores = s.keeper.cores ∧
      t.flash.defects = s.flash.defects ++ todo.map (fun e => ⟨defectRecord 15 0x23 e.1 0 0 (stamp s) (startCount s), false⟩))) ∧
  (∀ (s : State) (ok : Bool), ((s.flash.stores = [] ∨ s.boot.powered = false) → exec (.flashStore ok) s = .next s) ∧
    (s.boot.powered = true → ∀ rest,
      (∀ k v r, s.flash.stores = .obj k v :: rest → objRow k = some r → r.flash = true →
        exec (.flashStore true) s = .next { s with flash := { s.flash with stores := rest, obj := mapSet (objDefault k) s.flash.obj k v } } ∧
        ∃ t, exec (.flashStore false) s = .next t ∧ ReportedUnit t Code.flashWriteFailed 1 0xFFFFFFFF (leBytes 4 k) ∧ t.flash = { s.flash with stores := rest } ∧ getObj t k = getObj s k) ∧
      (∀ i, s.flash.stores = .defect i :: rest →
        (∃ t, exec (.flashStore true) s = .next t ∧ { t with flash := s.flash } = s ∧ t.flash.stores = rest ∧ t.flash.defects.length = s.flash.defects.length ∧
          ∀ j, t.flash.defects[j]? = (s.flash.defects[j]?).map (fun d => if j = i then { d with stored := true } else d)) ∧
        ∃ t, exec (.flashStore false) s = .next t ∧ ReportedUnit t Code.flashWriteFailed 1 i [] ∧ t.flash = { s.flash with stores := rest }) ∧
      (s.flash.stores = .licence :: rest → exec (.flashStore true) s = .next { s with flash := { s.flash with stores := rest } } ∧
        ∃ t, exec (.flashStore false) s = .next t ∧ ReportedUnit t Code.flashWriteFailed 1 0xFFFFFFFF [] ∧ t.flash = { s.flash with stores := rest, pendingTorn := true })))

/-- Starts and the stages S0 to S2 (R401 to R405, R408 to R410, R420, R427, R484, R491). -/
def Obligations.StartsAndFirmware : Prop :=
  let none_ := 0xFFFFFFFF
  (∀ s : State, ∃ t, exec .coldStart s = .next t ∧ StartsAnew s t 0 0 ∧ t.boot.faultLow = false ∧ t.boot.alertLow = false ∧ t.power.trips = []) ∧
  (∀ (s : State) (level : Bool),
    ((s.boot.powered = false ∨ (level = true ∧ s.boot.resetLow = false) ∨ (level = false ∧ s.boot.resetLow = true)) → exec (.resetN level) s = .next s) ∧
    (s.boot.powered = true → s.boot.resetLow = false → ∃ t, exec (.resetN false) s = .next t ∧ BlocksGone s t ∧ t.boot.resetLow = true ∧ t.boot.faultLow = false ∧
      t.boot.powered = true) ∧
    (s.boot.powered = true → s.boot.resetLow = true →
      let fast := mapGet (objDefault Key.fastPath) s.flash.obj Key.fastPath ≠ 0 ∧ s.boot.reachedS10 = true ∧ s.boot.cleared = false
      (fast → s.flash.defects.length < 4096 → ∃ t, exec (.resetN true) s = .next t ∧ StartsAnew s t 1 2 ∧ t.boot.faultLow = false) ∧
      ((¬fast ∨ (4096 ≤ s.flash.defects.length ∧ ∀ d ∈ s.flash.defects, d.stored = true)) → ∃ t, exec (.resetN true) s = .next t ∧ StartsAnew s t 1 1 ∧
        t.boot.faultLow = false))) ∧
  (∀ s : State, let runs := s.boot.powered = true ∧ s.boot.keeperRuns = true ∧ s.boot.resetLow = false ∧ s.boot.dark ≠ .railTrip ∧ s.boot.dark ≠ .clockLoss
    (¬runs → exec .keeperWatchdog s = .next s) ∧ (runs → ∃ t, exec .keeperWatchdog s = .next t ∧ StartsAnew s t 5 1)) ∧
  (∀ (s : State) (obs : S0Obs), (¬InStage s 0 → exec (.stageS0 obs) s = .next s) ∧
    (InStage s 0 → let detail := (List.range 7).flatMap (fun i => leBytes 4 (f32Micro (obs.rails.getD i 0))) ++ leBytes 4 (f32Micro obs.inlet)
      (obs.trippedRail = none → ∃ t, exec (.stageS0 obs) s = .next t ∧ StageEnds s t 0 0 0 0 none_ s.boot.newEntries detail ∧ (∀ r < 34, mapGet 0 t.power.regionState r = 1) ∧
        t.boot.straps = obs.straps ∧ t.power.failedPhases = s.power.failedPhases ++ obs.failedPhases.dedup.filter (fun p => !(s.power.failedPhases.contains p))) ∧
      (∀ r, obs.trippedRail = some r → r ≠ 3 → ∃ t, exec (.stageS0 obs) s = .next t ∧ getBytes t (Key.stageReport 0) = stageReportOf s 0 2 Code.railFault 0 0 none_ s.boot.newEntries detail ∧
        getObj t (Key.stageResult 0) = Code.railFault ∧ t.boot.done = 0 ∧ t.boot.stage = 0 ∧ t.boot.stopped = true ∧ t.boot.dark = .railTrip ∧ t.boot.keeperRuns = true ∧
        t.boot.faultLow = true ∧ t.cores = [] ∧ t.reservoir = Reservoir.unmapped ∧ t.links = []) ∧
      (obs.trippedRail = some 3 → ∃ t, exec (.stageS0 obs) s = .next t ∧ BlocksGone s t ∧ t.boot.powered = false ∧ t.boot.inletOut = false))) ∧
  (∀ (s : State) (locks : Nat), (¬InStage s 1 → exec (.stageS1 locks) s = .next s) ∧
    (InStage s 1 → let all := locks.testBit 0 && locks.testBit 1 && locks.testBit 2 && locks.testBit 4
      (all = true → ∃ t, exec (.stageS1 locks) s = .next t ∧ StageEnds s t 1 0 0 0 none_ s.boot.newEntries (leBytes 4 (locks % 32)) ∧ t.time.runs = true ∧ t.time.tb = 0 ∧
        t.time.locks = locks % 32 ∧ t.boot.tbBase = now s - s.boot.romBase ∧ t.port.refclk = locks.testBit 3) ∧
      (all = false → ∃ t, exec (.stageS1 locks) s = .next t ∧ StageHalts s t 1 Code.clockLock 0 0 none_ s.boot.newEntries (leBytes 4 (locks % 32)) ∧ t.time.locks = locks % 32 ∧
        t.time.runs = s.time.runs ∧ t.boot.keeperRuns = true))) ∧
  (∀ (s : State) (random rate width : Nat), (¬InStage s 2 → exec (.stageS2 random rate width) s = .next s) ∧
    (InStage s 2 → let imageK (slot : Bool) := if slot then s.flash.keeperB else s.flash.keeperA
      let imageF (slot : Bool) := if slot then s.flash.fountainB else s.flash.fountainA
      let prefK := s.flash.prefKeeper && !s.flash.prefTorn
      let prefF := s.flash.prefFountain && !s.flash.prefTorn
      let k := if envValid s 1 (imageK prefK) then prefK else !prefK
      let f := if envValid s 2 (imageF prefF) then prefF else !prefF
      let table := if envValid s 3 s.flash.compat then s.flash.compat else []
      let listed := pairInTable table (envVersion (imageK k)) (envVersion (imageF f))
      let keeps := s.flash.idPoint ≠ [] ∧ ¬(s.flash.idTornOne = true ∧ s.flash.idTornTwo = true)
      let detail := leBytes 4 (envVersion (imageK k)) ++ leBytes 4 (envVersion (imageF f)) ++ leBytes 4 (if envValid s 3 s.flash.compat then envVersion s.flash.compat else 0) ++
        leBytes 1 (if k then 1 else 0) ++ leBytes 1 (if f then 1 else 0) ++ leBytes 1 (if listed then 1 else 0) ++ [0#8] ++ leBytes 4 s.flash.defects.length ++
        leBytes 4 (s.flash.defects.filter (fun d => recTorn d.bytes)).length ++ leBytes 8 s.boot.tbBase
      let linkUp (t : State) : Prop := ((rate = 0 ∨ s.port.refclk = false) → t.port = s.port) ∧ (rate ≠ 0 → s.port.refclk = true → t.port = { s.port with up := true } ∧
        getObj t Key.linkRate = (if rate ≤ 3 ∧ (width = 16 ∨ width = 8) then min rate (getObj s Key.maxRate) else 4) ∧ getObj t Key.linkWidth = width)
      let firmware (t : State) : Prop := t.boot.keeperRuns = true ∧ t.boot.keeperSlot = k ∧ t.boot.fountainSlot = f ∧ t.boot.pairListed = listed ∧ t.boot.untested = !listed ∧
        getObj t (Key.keeperVersion (if k then 1 else 0)) = envVersion (imageK k) ∧ getObj t (Key.fountainVersion (if f then 1 else 0)) = envVersion (imageF f) ∧
        (keeps → t.flash.idPoint = s.flash.idPoint) ∧ (¬keeps → t.flash.idPoint = ecPublic (random % (ecN - 1) + 1) ∧ t.flash.cert = []) ∧ linkUp t
      (envValid s 1 (imageK k) = false → ∃ t d, exec (.stageS2 random rate width) s = .next t ∧ StageHalts s t 2 Code.firmwareInvalid 0 0 none_ s.boot.newEntries d ∧
        t.boot.keeperRuns = false ∧ t.flash = s.flash ∧ linkUp t) ∧
      (envValid s 1 (imageK k) = true → envValid s 2 (imageF f) = false → ∃ t d, exec (.stageS2 random rate width) s = .next t ∧
        StageHalts s t 2 Code.firmwareInvalid 0 0 none_ s.boot.newEntries d ∧ t.boot.keeperRuns = true ∧ t.boot.keeperSlot = k ∧ linkUp t) ∧
      (envValid s 1 (imageK k) = true → envValid s 2 (imageF f) = true →
        (listed = false → getObj s Key.acceptUntested = 0 → ∃ t, exec (.stageS2 random rate width) s = .next t ∧ firmware t ∧
          StageHalts s t 2 Code.untestedPair 0 0 none_ s.boot.newEntries detail) ∧
        ((listed = true ∨ getObj s Key.acceptUntested ≠ 0) → ∃ t, exec (.stageS2 random rate width) s = .next t ∧ firmware t ∧
          (listed = true → getObj t Key.acceptUntested = 0) ∧
          let code := if k ≠ prefK ∨ f ≠ prefF then Code.slotFallback else if listed then 0 else Code.untestedPair
          (s.boot.kind ≠ 2 → StageEnds s t 2 code 0 0 none_ s.boot.newEntries detail) ∧
          (s.boot.kind = 2 → t.boot.done = 6 ∧ t.boot.stage = 6 ∧ getObj t (Key.stageResult 2) = code ∧ ∀ i ∈ [3, 4, 5],
            getObj t (Key.stageResult i) = 0 ∧ getObj t (Key.stageTime i) = 0 ∧ getBytes t (Key.stageReport i) = leBytes 1 i ++ leBytes 1 3 ++ leBytes 2 0 ++
              leBytes 4 s.flash.startCount ++ leBytes 8 (stamp s) ++ leBytes 8 (stamp s) ++ leBytes 4 0 ++ leBytes 4 0 ++ leBytes 4 none_ ++ leBytes 2 0 ++ leBytes 2 0)))))

/-- The stages S3 to S10 (R14, R15, R253, R255, R256, R303, R315, R403, R405, R406, R463, R489). Where the manual leaves a choice, it says the model's own (log entry 77). -/
def Obligations.StagesOfAStart : Prop :=
  let none_ := 0xFFFFFFFF
  let good (s : State) (failed : List Nat) (h : Nat) : List Nat :=
    ((List.range 272).map (· + 272 * h)).filter (fun p => !((badPositions s).contains p) && !(failed.contains p))
  let on (s : State) (failed : List Nat) : List Nat := chooseOf (tierCores s.boot.tier / 2) (good s failed 0) (good s failed 1)
  let chosen (s t : State) (failed : List Nat) : Prop := ∀ p < 544, coreState t p = if p ∈ on s failed then 1 else if p ∈ badPositions s ∨ p ∈ failed then 4 else 0
  (∀ (s : State) (obs : S3Obs), (¬InStage s 3 → exec (.stageS3 obs) s = .next s) ∧
    (InStage s 3 → obs.sharedBoth ≠ [] → ∃ t failed first entries d, exec (.stageS3 obs) s = .next t ∧ StageHalts s t 3 Code.sharedBondFault 544 failed first entries d) ∧
    (InStage s 3 → obs = ⟨[], [], []⟩ → (∀ p < 544, getObj s (Key.sparesUsed p) = 0) → ∃ t d, exec (.stageS3 obs) s = .next t ∧ StageEnds s t 3 0 544 0 none_ s.boot.newEntries d ∧ t.flash = s.flash ∧
      ∀ p < 544, Counted32 s t (Key.sparesUsed p) ((liveRecords s 9).filter (fun b => recUnit b == p)).length) ∧
    (∀ p plane bond, InStage s 3 → obs = ⟨[(p, plane, bond)], [], []⟩ → p < 544 → plane < 4 → bond < (if plane = 0 then 2624 else 4896) → s.flash.defects.length < 4096 →
      (spareLeft s p plane = true → (∀ x < 128, isNamed s 9 p (bondDetail plane bond x) = false) → ∃ t d, ∃ x < 128, exec (.stageS3 obs) s = .next t ∧
        StageEnds s t 3 0 544 0 none_ (s.boot.newEntries + 1) d ∧ Counted32 s t (Key.sparesUsed p) (((liveRecords s 9).filter (fun b => recUnit b == p)).length + 1) ∧
        t.flash.defects = s.flash.defects ++ [⟨defectRecord 9 3 p (bondDetail plane bond x) Code.laneSpared (stamp s) (startCount s), false⟩]) ∧
      (spareLeft s p plane = false → isNamed s 1 p 0 = false → ∃ t d, exec (.stageS3 obs) s = .next t ∧ StageEnds s t 3 Code.bondSpares 544 1 p (s.boot.newEntries + 1) d ∧
        p ∈ t.boot.bad ∧ t.flash.defects = s.flash.defects ++ [⟨defectRecord 1 3 p 0 Code.bondSpares (stamp s) (startCount s), false⟩])) ∧
    (∀ i, InStage s 3 → obs = ⟨[], [i], []⟩ → (s.boot.shared.contains i = true → ∃ t failed first entries d, exec (.stageS3 obs) s = .next t ∧
        StageHalts s t 3 Code.sharedBondFault 544 failed first entries d) ∧
      (s.boot.shared.contains i = false → ∃ t d entries, exec (.stageS3 obs) s = .next t ∧ StageEnds s t 3 0 544 0 none_ entries d ∧ i ∈ t.boot.shared))) ∧
  (∀ (s : State) (obs : S4Obs), (¬InStage s 4 → exec (.stageS4 obs) s = .next s) ∧
    (InStage s 4 → let old := (liveRecords s 3).map recUnit
      let new := obs.failedSlices.dedup.filter (fun g => !(old.contains g))
      let gone (g : Nat) : Bool := old.contains g || obs.failedSlices.contains g
      let depleted := (∃ g < 128, gone g = true ∧ gone (g ^^^ 1) = true) ∨ ∃ h < 2, 4 < (((List.range 64).map (· + 64 * h)).filter gone).length
      let code := if new = [] then 0 else Code.sliceRetired
      ∃ t d entries, exec (.stageS4 obs) s = .next t ∧ (depleted → StageHalts s t 4 Code.cisternDepleted 128 new.length (new.headD none_) entries d) ∧
        (¬depleted → StageEnds s t 4 code 128 new.length (new.headD none_) entries d) ∧ t.fountain = Fountain.clear ∧ t.sluice = Sluice.clear ∧ t.cistern.win = [] ∧
        (∀ g < 128, getSlice t g = { Slice.empty with retired := gone g, portHalf := ((liveRecords s 2).map recUnit).contains g || (obs.halvedPorts.contains g && !(gone g)) }) ∧
        (∀ g < 128, (leNat d).testBit g = gone g) ∧ (new = [] → t.flash.signatures = s.flash.signatures))) ∧
  (∀ (s : State) (failed : List Nat), (¬InStage s 5 → exec (.stageS5 failed) s = .next s) ∧
    (InStage s 5 → let new := failed.dedup.filter (fun p => !((badPositions s).contains p))
      let short := 2 * (tierCores s.boot.tier / 2) - (on s failed).length
      ∃ t d entries, exec (.stageS5 failed) s = .next t ∧ t.cores = [] ∧ chosen s t failed ∧ t.boot.shortfall = short ∧
        StageEnds s t 5 (if new ≠ [] then Code.coreSelftest else if 0 < short then Code.coreShortfall else 0) 544 new.length (new.headD none_) entries d ∧
        (∀ p ∈ new, p ∈ t.boot.bad) ∧ t.flash.nextSignature = s.flash.nextSignature + new.length)) ∧
  (∀ (s : State) (trains : List StackTrain), (¬InStage s 6 → exec (.stageS6 trains) s = .next s) ∧
    (InStage s 6 → (∀ k < 8, stackState s k = 0) → let listed (k : Nat) : Bool := (liveRecords s 4).any (fun b => recUnit b == k)
      let saved (k : Nat) (x : StackTrain) : Bool := s.boot.kind == 2 && getObj s Key.fullTrain == 0 && mapGet false s.flash.trained k && x.verifies
      let passes (k : Nat) : Bool := (trains.find? (fun (x : StackTrain) => x.stack == k)).any (fun (x : StackTrain) => saved k x || x.failedChannel.isNone)
      let st (k : Nat) : Nat := if tierHasStack s.boot.tier k = false then 1 else if listed k = true then 2 else if passes k = true then 0 else 2
      let west := (List.range 4).filter (fun k => st k == 0)
      let east := ((List.range 4).map (· + 4)).filter (fun k => st k == 0)
      let tried := (List.range 8).filter (fun k => tierHasStack s.boot.tier k && !(listed k))
      let bad := tried.filter (fun k => !(passes k))
      ∃ t d entries, exec (.stageS6 trains) s = .next t ∧ (∀ k < 8, stackState t k = st k) ∧ t.reservoir = { Reservoir.unmapped with west := west, east := east } ∧
        ((west = [] ∨ east = []) → StageHalts s t 6 Code.reservoirNone tried.length bad.length (bad.headD none_) entries d) ∧
        (west ≠ [] → east ≠ [] → StageEnds s t 6 (if bad = [] then 0 else Code.reservoirTraining) tried.length bad.length (bad.headD none_) entries d ∧
          ∀ h < 2, let x := getHalf t h
            x.open_ + x.bufPages + x.seqPages + 2048 = partPages t h ∧ 65536 ≤ x.seqPages) ∧
        (s.boot.kind = 2 → t.cores = [] ∧ t.fountain = Fountain.clear ∧ t.cistern.win = [] ∧ chosen s t []))) ∧
  (∀ (s : State) (trains : List LinkTrain), (¬InStage s 7 → exec (.stageS7 trains) s = .next s) ∧
    (InStage s 7 → s.boot.shape = 0 → ∃ t, exec (.stageS7 trains) s = .next t ∧ t.links = s.links ∧ t.boot.done = 8 ∧ t.boot.stage = 8 ∧ getObj t (Key.stageResult 7) = 0 ∧
      leAt (getBytes t (Key.stageReport 7)) 0 2 = 7 + 3 * 256) ∧
    (InStage s 7 → s.boot.shape ≠ 0 → let tried (l : Nat) : Bool := tierHasLink s.boot.tier l && !(isDefect s 5 l)
      let good (x : LinkTrain) : Bool := (x.order == [0, 1, 2, 3] || x.order == [3, 2, 1, 0]) && x.aligned && x.lanes.length == 4 &&
        x.lanes.all (fun y => decide (y.errors ≤ 10000))
      let success (l : Nat) : Option LinkTrain := trains.find? (fun x => x.link == l && good x)
      let bad := (List.range 36).filter (fun l => tried l && (success l).isNone)
      ∃ t d, exec (.stageS7 trains) s = .next t ∧
        StageEnds s t 7 (if bad = [] then 0 else Code.linkTraining) ((List.range 36).filter tried).length bad.length (bad.headD none_) s.boot.newEntries d ∧
        ∀ l < 36, (tierHasLink s.boot.tier l = false → (getLink t l).st = .notLicensed) ∧
          (tierHasLink s.boot.tier l = true → isDefect s 5 l = true → getLink t l = if (linkSlot s.boot.shape s.boot.tier l).isNone = true then { Link.idle with st := .unused } else getLink s l) ∧
          (tried l = true → ∀ x, success l = some x → getLink t l = { Link.idle with
              st := if (linkSlot s.boot.shape s.boot.tier l).isNone = true then .unused else .up, lastGood := now s,
              peerDev := some x.peerDevice, peerLink := some x.peerLink, reversed := x.order == [3, 2, 1, 0], lanes := x.lanes } ∧
            getObj t (Key.eyeMargin l) = x.eye) ∧
          (tried l = true → success l = none → getLink t l = Link.idle))) ∧
  (∀ s : State, let forms := s.boot.shape ≠ 0 ∧ (s.pool.st = .standalone ∨ (s.pool.head = true ∧ s.pool.st = .forming))
    ((¬InStage s 8 ∨ forms) → exec .stageS8 s = .next s) ∧
    (InStage s 8 → ¬forms → ∃ t d, exec .stageS8 s = .next t ∧ StageEnds s t 8 s.pool.s8code 0 0 none_ s.boot.newEntries d ∧ t.pool = s.pool ∧
      d.take 4 = leBytes 1 s.pool.st.code ++ leBytes 1 s.pool.device ++ [0#8, 0#8])) ∧
  (∀ s : State, (¬InStage s 9 → exec .stageS9 s = .next s) ∧
    (InStage s 9 → let valid (e : List Byte) : Prop := envValid s 5 e = true ∧ envBodyLen e = 16 ∧ 1 ≤ leAt e 48 1 ∧ leAt e 48 1 ≤ 3
      let takes := s.flash.pending ≠ [] ∧ s.flash.pendingTorn = false ∧ valid s.flash.pending
      ∀ e, (takes → e = s.flash.pending) → (¬takes → e = s.flash.licence) →
        (valid e → ∃ t, exec .stageS9 s = .next t ∧ t.flash = { s.flash with licence := e, pending := [], pendingTorn := false } ∧ t.boot.tier = leAt e 48 1 ∧
          getObj t Key.licenceState = 0 ∧ getObj t Key.licenceSerial = leAt e 56 8 ∧
          StageEnds s t 9 0 0 0 none_ s.boot.newEntries (leBytes 1 0 ++ leBytes 1 (leAt e 48 1))) ∧
        (¬valid e → ∃ t st, exec .stageS9 s = .next t ∧ t.flash = { s.flash with licence := e, pending := [], pendingTorn := false } ∧ getObj t Key.licenceState = st ∧
          1 ≤ st ∧ st ≤ 3 ∧ (st = 1 ↔ e = []) ∧ StageHalts s t 9 Code.licenceInvalid 0 0 none_ s.boot.newEntries (leBytes 1 st ++ [0#8])))) ∧
  (∀ s : State, (¬InStage s 10 → exec .stageS10 s = .next s) ∧
    (InStage s 10 → let ps := positions.filter (fun p => decide (1 ≤ coreState s p ∧ coreState s p ≤ 3))
      ∃ t, exec .stageS10 s = .next t ∧ StageEnds s t 10 0 0 0 none_ s.boot.newEntries [] ∧ inService t = true ∧ t.boot.reachedS10 = true ∧ shownStage s = 9 ∧ shownStage t = 10 ∧
        t.time.cycle = 0 ∧ t.time.cycFrac = 0 ∧ { t.time with cycle := s.time.cycle, cycFrac := s.time.cycFrac } = s.time ∧
        t.boot.logical = ps.zipIdx.map (fun e => (e.1, e.2)) ∧
        (∀ r < 34, mapGet 0 t.power.regionState r = if (List.range 16).all (fun c => coreState s (r * 16 + c) == 0 || coreState s (r * 16 + c) == 4) = true then 2 else mapGet 0 s.power.regionState r)))

/-- Rails, converters, regulators and the inlet (R329, R401, R402, R418 to R421, R423, R425, R439, R440, R494). -/
def Obligations.PowerAndRails : Prop :=
  let logged (s t : State) : Prop := { t with power := s.power, keeper := s.keeper, out := s.out, free := s.free } = s
  (∀ s : State, let third := ∃ a b, s.power.trips[0]? = some a ∧ s.power.trips[2]? = some b ∧ a ≤ b + 3600000000000
    let due := s.boot.powered = true ∧ s.boot.dark = .thermalTrip ∧ ¬third ∧ ∃ x, s.power.coolSince = some x ∧ x + 10000000000 ≤ now s
    (¬due → exec .thermalRestart s = .next s) ∧ (due → ∃ t, exec .thermalRestart s = .next t ∧ StartsAnew s t 4 1 ∧ t.power.trips = s.power.trips)) ∧
  (∀ s : State, (s.boot.powered = true → ∃ t, exec .inletFault s = .next t ∧ PowerGone s t ∧ t.boot.inletOut = true ∧ t.boot.present = s.boot.present) ∧
    (s.boot.powered = false → exec .inletFault s = .next { s with boot := { s.boot with inletOut := true } }) ∧
    (¬(s.boot.inletOut = true ∧ s.boot.present = true) → exec .inletRestored s = .next s) ∧
    (s.boot.inletOut = true → s.boot.present = true → ∃ t, exec .inletRestored s = .next t ∧ StartsAnew s t 0 0) ∧
    (s.boot.powered = true → ∃ t, exec .presentNRelease s = .next t ∧ PowerGone s t ∧ t.boot.present = false) ∧
    (s.boot.powered = false → exec .presentNRelease s = .next { s with boot := { s.boot with present := false } })) ∧
  (∀ (s : State) (k r : Nat), k < 192 → r < 8 → let m := mapGet 0 s.power.regOff k
    let off := railsUp s = false ∨ m.testBit r = true ∨ k ∈ s.power.darkened ∨ mapGet 0 s.power.clusterState k = 2
    (off → exec (.regulatorFailed k r) s = .next s) ∧
    (¬off → m = 0 → ∃ t, exec (.regulatorFailed k r) s = .next t ∧ { t with power := s.power } = s ∧ { t.power with regOff := s.power.regOff } = s.power ∧
      ∀ j, mapGet 0 t.power.regOff j = if j = k then 2 ^ r else mapGet 0 s.power.regOff j) ∧
    (¬off → m ≠ 0 → m < 256 → ∃ t, exec (.regulatorFailed k r) s = .next t ∧ t.power.darkened = s.power.darkened ++ [k] ∧ mapGet 0 t.power.regOff k = m + 2 ^ r ∧
      t.reservoir = s.reservoir ∧ t.flash = s.flash ∧
      ∀ p ∈ patchOf k, p ∈ t.boot.bad ∧ GroupsEndWith s t p Code.coreDark ∧ (getPos t p).arrays = [] ∧ (getPos t p).walker = [] ∧ (getPos t p).ro = [])) ∧
  (∀ (s : State) (n : Nat),
    ((s.boot.powered = false ∨ n ∈ s.power.failedPhases) → exec (.converterFailed n) s = .next s) ∧
    (s.boot.powered = true → n ∉ s.power.failedPhases → ∃ t, exec (.converterFailed n) s = .next t ∧ logged s t ∧ ReportedUnit t Code.converterFailed 1 n [] ∧
      t.power = { s.power with failedPhases := s.power.failedPhases ++ [n] } ∧
      let x := s.power.failedPhases.length + 1
      powerLimit t = 1000 * (if 2 < x then min (getObj s Key.powerLimit) (3600 - 225 * (x - 2)) else getObj s Key.powerLimit)) ∧
    ((s.boot.powered = false ∨ n ∈ s.power.senseLost) → exec (.senseLost n) s = .next s) ∧
    (s.boot.powered = true → n ∉ s.power.senseLost → ∃ t, exec (.senseLost n) s = .next t ∧ logged s t ∧ ReportedUnit t Code.senseLost 1 n [] ∧
      t.power = { s.power with senseLost := s.power.senseLost ++ [n] })) ∧
  (∀ (s : State) (rail : Nat),
    ((s.boot.powered = false ∨ s.boot.resetLow = true ∨ (rail ≠ 3 ∧ s.boot.dark ≠ .none ∧ s.boot.dark ≠ .thermalTrip)) → exec (.railFault rail) s = .next s) ∧
    (s.boot.powered = true → s.boot.resetLow = false →
      (rail = 3 → ∃ t, exec (.railFault rail) s = .next t ∧ PowerGone s t ∧ t.boot.inletOut = false) ∧
      (rail ≠ 3 → (s.boot.dark = .none ∨ s.boot.dark = .thermalTrip) → ∃ t, exec (.railFault rail) s = .next t ∧ RailsOff s t .railTrip ∧ t.boot.done = s.boot.done ∧
        (s.boot.done ≠ 0 → Counted s t (Key.codeCount Code.railFault) 1 ∧ t.boot.stopped = s.boot.stopped) ∧
        (s.boot.done = 0 → t.boot.stopped = true ∧ getObj t (Key.stageResult 0) = Code.railFault))))

/-- The housekeeping round (R249, R424, R425, R429 to R434, R436, R438, R440). Where the manual leaves a choice, it says the model's own (log entry 81). -/
def Obligations.HousekeepingRound : Prop :=
  let runs (s : State) : Prop := s.boot.powered = true ∧ s.boot.keeperRuns = true ∧ s.boot.resetLow = false
  let source (s : State) : Nat := if s.boot.done < 11 then s.boot.stage else 0x20
  (∀ (s : State) (r : Round), (¬runs s → exec (.housekeepingRound r) s = .next s) ∧
    (runs s → ∃ t, exec (.housekeepingRound r) s = .next t ∧ t.power.inletMicro = r.inletMicro ∧ t.power.inletMilliAmp = r.inletMilliAmp ∧ t.power.measured = true ∧
      t.power.powers = (r.inletMicro * r.inletMilliAmp / 1000000 :: s.power.powers).take 10 ∧ t.power.failedMask = s.power.regOff ∧ t.power.darkened = [] ∧ t.time = s.time ∧
      (∀ e ∈ r.stackTemps, e.1 < 8 → (∀ x ∈ r.stackTemps, x.1 = e.1 → x = e) →
        getObj t (Key.refreshMode e.1) = if 85000 < e.2 then 1 else if e.2 < 80000 then 0 else getObj s (Key.refreshMode e.1)) ∧
      (∀ k ∈ s.power.darkened, k < 192 → mapGet 0 t.power.clusterState k = 2 ∧ ∀ p ∈ patchOf k, coreState t p = 4))) ∧
  (∀ (s : State) (r : Round), runs s → NoSensors s r → let next_ := if s.power.step + 1 < 3 then s.power.step + 1 else 3
    ∃ t, exec (.housekeepingRound r) s = .next t ∧ t.boot.dark = s.boot.dark ∧ ∀ pw, (OverLimit s r → pw = next_) → (¬OverLimit s r → pw = 0) →
      let need := max pw (if r.inletMicro < 40000000 then 2 else 0)
      (s.power.step < need → t.power.step = need ∧ t.power.calm = 0) ∧
      (s.power.step = need → t.power.step = need) ∧
      (need < s.power.step → (49 ≤ s.power.calm → t.power.step = s.power.step - 1 ∧ t.power.calm = 0) ∧ (s.power.calm < 49 → t.power.step = s.power.step ∧ t.power.calm = s.power.calm + 1)) ∧
      (0 < need → t.power.throttleCause = if pw = need then 3 else 4) ∧ (t.power.step = 0 → t.power.throttleCause = 0) ∧
      (t.power.step ≠ s.power.step → Counted s t (Key.codeCount Code.thermalThrottle) 1 ∧ t.power.stepSince = now s) ∧
      (t.power.step = 3 → powerLimit s < r.inletMicro * r.inletMilliAmp / 1000000 → t.power.unmetRounds = s.power.unmetRounds + 1 ∧
        (99 ≤ s.power.unmetRounds → s.power.unmetSent = false → Counted s t (Key.codeCount Code.powerLimitUnmet) 1 ∧ t.power.unmetSent = true))) ∧
  (∀ (s : State) (r : Round) (k reg : Nat), runs s → NoSensors s r → s.power.darkened = [] → s.power.failedMask = [] → s.power.clusterState = [] → s.power.regOff = [(k, 2 ^ reg)] → reg < 8 →
    s.flash.defects.length < 4096 → isNamed s 6 k reg = false → ∃ t, exec (.housekeepingRound r) s = .next t ∧ mapGet 0 t.power.clusterState k = 1 ∧
      Counted s t (Key.codeCount Code.regulatorFailed) 1 ∧ t.flash.defects = s.flash.defects ++ [⟨defectRecord 6 (source s) k reg Code.regulatorFailed (stamp s) (startCount s), false⟩]) ∧
  (∀ (s : State) (r : Round) (k : Nat), runs s → NoSensors s r → s.power.darkened = [k] → s.power.failedMask = s.power.regOff → (∀ j ∈ mapKeys s.power.regOff, mapGet 0 s.power.regOff j ≠ 0) → k < 192 → s.flash.defects.length < 4096 →
    isNamed s 7 k 0 = false → ∃ t, exec (.housekeepingRound r) s = .next t ∧ Counted s t (Key.codeCount Code.clusterDark) 1 ∧
      (7 ≤ s.boot.done → t.flash.defects = s.flash.defects ++ [⟨defectRecord 7 (source s) k 0 Code.clusterDark (stamp s) (startCount s), false⟩]) ∧
      (s.boot.done < 7 → t.flash.defects = s.flash.defects)) ∧
  (∀ (s : State) (r : Round) (x : SenseReading), runs s → NoSensors s r → r.sense = [x] → x.point < 342 →
    let rail := if x.point < 192 then 1 else if x.point < 320 then 2 else if x.point < 338 then 0 else x.point - 335
    let lower (m : Option MinRec) : Option MinRec := match m with
      | none => some ⟨x.minMicro, x.minStamp⟩
      | some y => some (if x.minMicro < y.micro then ⟨x.minMicro, x.minStamp⟩ else y)
    ∃ t, exec (.housekeepingRound r) s = .next t ∧ mapGet none t.power.railMin rail = lower (mapGet none s.power.railMin rail) ∧
      (x.point < 192 → mapGet none t.power.clusterMin x.point = lower (mapGet none s.power.clusterMin x.point)) ∧
      (x.point < 320 → mapGet [] t.power.averages x.point = ((x.avgMicro, if x.point < 192 then mapGet 0 t.power.clusterAmp x.point else mapGet 0 t.power.railAmp 2) ::
        mapGet [] s.power.averages x.point).take 12) ∧
      (mapGet false s.power.suspects x.point = false → (x.point < 320 → Cracked t x.point → Counted32 s t Key.crackSuspects 1 ∧ getObj t Key.crackLastPoint = x.point ∧
          getObj t Key.crackLastTime = stamp s ∧ mapGet false t.power.suspects x.point = true ∧ Counted s t (Key.codeCount Code.bondSuspect) 1) ∧
        ((320 ≤ x.point ∨ ¬Cracked t x.point) → getObj t Key.crackSuspects = getObj s Key.crackSuspects ∧ t.power.suspects = s.power.suspects))) ∧
  (∀ (s : State) (r : Round) (d : DiodeReading) (past : List Int), runs s → r.diodes = [d] → r.points = [] → d.channel < 1152 → s.power.broken = [] → s.power.temp = [] →
    let o := 0x1000 + d.channel
    (s.power.history = (if past = [] then [] else [(o, past)])) → d.openOrShort = false → -20000 ≤ d.milli → d.milli ≤ 150000 → mapGet 0 s.power.apart o < 99 → ¬OverLimit s r → 40000000 ≤ r.inletMicro →
    let safety := (544 ≤ d.channel ∧ d.channel < 736) ∨ 900 ≤ d.channel
    ∀ rise : Int, (past = [] → rise = 0) → (∀ m, past.min? = some m → rise = d.milli - m) →
      let need := max (if 106000 ≤ d.milli then 3 else if 103000 ≤ d.milli then 2 else if 100000 ≤ d.milli then 1 else 0)
        (if 15000 ≤ rise then 3 else if 10000 ≤ rise then 2 else if 6000 ≤ rise then 1 else 0)
      let trips := safety ∧ (110000 ≤ d.milli ∨ 15000 ≤ rise)
      ∃ t, exec (.housekeepingRound r) s = .next t ∧ mapGet 0 t.power.temp o = d.milli ∧ mapGet [] t.power.history o = (d.milli :: past).take 5 ∧ mapGet 0 t.power.rise o = rise ∧
        mapGet 0 t.power.peak o = (if past = [] then d.milli else max d.milli (mapGet 0 s.power.peak o)) ∧
        (trips → mapGet 0 t.power.sensor o = 3) ∧
        (¬trips → mapGet 0 t.power.sensor o = (if 0 < need then 2 else if 95000 ≤ d.milli then 1 else 0)) ∧
        (95000 ≤ d.milli → (∀ y, past.head? = some y → y < 95000) → Counted s t (Key.codeCount Code.thermalWarning) 1) ∧
        (s.power.step < need → t.power.step = need ∧ Counted s t (Key.codeCount Code.thermalThrottle) 1) ∧ (s.power.step = need → t.power.step = need) ∧
        (trips → railsUp s = true → t.boot.dark = .thermalTrip ∧ t.cores = [] ∧ t.reservoir = Reservoir.unmapped ∧ t.links = [] ∧ t.boot.faultLow = true ∧
          t.power.trips = (now s :: s.power.trips).take 3 ∧ Counted s t (Key.codeCount Code.thermalTrip) 1) ∧
        (¬trips → t.boot.dark = s.boot.dark)) ∧
  (∀ (s : State) (r : Round) (d : DiodeReading), runs s → r.diodes = [d] → r.points = [] → d.channel < 1152 → s.power.broken = [] → s.power.history = [] →
    (d.openOrShort = true ∨ d.milli < -20000 ∨ 150000 < d.milli) → isNamed s 8 d.channel 0 = false → s.flash.defects.length < 4096 →
    let o := 0x1000 + d.channel
    ∃ t rest, exec (.housekeepingRound r) s = .next t ∧ mapGet false t.power.broken o = true ∧
      t.flash.defects = s.flash.defects ++ ⟨defectRecord 8 (source s) d.channel 0 Code.sensorBroken (stamp s) (startCount s), false⟩ :: rest ∧
      mapGet 0 t.power.sensor o = (if (544 ≤ d.channel ∧ d.channel < 736) ∨ 900 ≤ d.channel then 4 else 5) ∧
      (544 ≤ d.channel → d.channel < 736 → mapGet 0 t.power.clusterState (d.channel - 544) = 2) ∧ (900 ≤ d.channel → 1 ≤ t.power.step))

/-- Time, clocks and vertical lanes (R447 to R450, R460 to R464, R469). A step on an empty queue is one nanosecond by the model's
choice (log entry 2). Where the manual leaves a choice, it says the model's own (log entries 80 and 82). -/
def Obligations.ClockAndLanes : Prop :=
  let second := 1000000000
  let found (path : VPath) (p plane bond : Nat) : Prop := (path = .down p ∧ plane = 0 ∧ bond < 2624) ∨ (path = .chan p ∧ 1 ≤ plane ∧ plane < 4 ∧ bond < 4896)
  (∀ s : State, s.pending = [] → ∃ t, step s = .next (sendIdle t) ∧ ((∀ l < 36, (getLink s l).st ≠ .up ∧ (getLink s l).st ≠ .withdrawn) → sendIdle t = t) ∧ t.time.ns = s.time.ns + 1 ∧ { t with time := s.time } = s ∧
    (s.time.runs = true → s.time.trim = 0 → s.time.frac = 0 → t.time.tb = (s.time.tb + 1) % 2 ^ 64) ∧ (s.time.runs = false → t.time.tb = s.time.tb)) ∧
  (∀ s : State, let x := s.time
    let e := (x.tb + 499999999) / second * second
    let near := ((x.tb : Int) - e).natAbs ≤ 2000
    let early := ∃ k, x.lastObeyed = some k ∧ x.ns < k + 100000000
    (x.runs = false → exec .ppsPulse s = .next s) ∧
    (x.runs = true → early → exec .ppsPulse s = .next { s with time := { x with rejects := (x.rejects + 1) % 2 ^ 32 } }) ∧
    (x.runs = true → ¬early → (x.pps = 0 ∨ near) → ∃ t, exec .ppsPulse s = .next t ∧ { t with time := s.time, free := s.free } = s ∧
      t.time.tb = (match x.load with
        | some n => n * second
        | none => e) ∧ t.time.load = none ∧ t.time.offset = (x.tb : Int) - e ∧ t.time.last = x.tb ∧
      t.time.accepted = (x.accepted + 1) % 2 ^ 64 ∧ t.time.rejects = x.rejects ∧ t.time.lastObeyed = some x.ns ∧ t.time.lastEdge = some x.ns ∧
      (x.lastEdge = none → t.time.trim = x.trim) ∧
      (∀ k, x.lastEdge = some k → -100000 ≤ t.time.trim ∧ t.time.trim ≤ 100000 ∧ (500000000 < x.ns - k →
        let i := x.ns - k
        let n := (i + 499999999) / second
        t.time.trim = max (-100000) (min 100000 (((n * second : Nat) - (i : Int)) / (n : Int))))) ∧
      (x.pps = 0 → ¬near → t.time.pps = 0 ∧ t.time.inWindow = 0) ∧ (x.pps = 0 → near → x.inWindow = 0 → t.time.pps = 0 ∧ t.time.inWindow = 1) ∧
      (x.pps = 0 → near → x.inWindow ≠ 0 → t.time.pps = 1) ∧ (x.pps ≠ 0 → t.time.pps = 1)) ∧
    (x.runs = true → ¬early → x.pps ≠ 0 → ¬near → ∃ t, exec .ppsPulse s = .next t ∧ t.time = { x with offset := (x.tb : Int) - e, rejects := (x.rejects + 1) % 2 ^ 32, lastEdge := some x.ns, pps := 3 } ∧ (x.pps ≠ 3 → ReportedUnit t Code.ppsRejected 1 0xFFFFFFFF []) ∧ (x.pps = 3 → t.keeper = s.keeper) ∧
      OnlyLogged { s with time := t.time } t)) ∧
  (∀ s : State, let x := s.time
    let due := x.runs = true ∧ 2000 ≤ x.tb % second ∧ x.tb % second < 500000000 ∧ ∀ k, x.lastEdge = some k → k + x.tb % second + 500000000 < x.ns
    (¬due → exec .ppsMissing s = .next s) ∧
    (due → x.pps ≠ 1 → exec .ppsMissing s = .next { s with time := { x with inWindow := 0 } }) ∧
    (due → x.pps = 1 → ∃ t, exec .ppsMissing s = .next t ∧ t.time = { x with inWindow := 0, pps := 2 } ∧ ReportedUnit t Code.ppsLost 1 0xFFFFFFFF [] ∧ OnlyLogged { s with time := t.time } t)) ∧
  (∀ (s : State) (c : ClockId), ((railsUp s = false ∨ s.boot.done < 2) → exec (.clockLock c) s = .next s) ∧
    (railsUp s = true → 2 ≤ s.boot.done →
      (c = .refclk ∨ c = .corePll ∨ c = .memPll → ∃ t, exec (.clockLock c) s = .next t ∧ RailsOff s t .clockLoss ∧ Counted s t (Key.codeCount Code.clockLock) 1 ∧
        (c ≠ .memPll → t.time.runs = false) ∧ (c = .memPll → t.time.runs = s.time.runs) ∧ t.time.tb = s.time.tb ∧
        ∀ i < 32, t.time.locks.testBit i = (s.time.locks.testBit i && !(if c = .refclk then decide (i = 0 ∨ i = 1 ∨ i = 2 ∨ i = 4) else if c = .corePll then i == 1 else i == 2))) ∧
      (∀ l, c = .linkPll l → (tierHasLink s.boot.tier l = false → exec (.clockLock c) s = .next s) ∧
        (tierHasLink s.boot.tier l = true → ∃ t, exec (.clockLock c) s = .next t ∧ OnlyLink s t l { getLink s l with pllLost := true } ∧ t.cores = s.cores ∧ t.keeper = s.keeper ∧
          ∀ i < 32, t.time.locks.testBit i = (s.time.locks.testBit i && i != 4))) ∧
      (c = .pcieRef → ∃ t, exec (.clockLock c) s = .next t ∧ t.port.up = false ∧ t.port.refclk = false ∧ t.port.bars = [] ∧ getObj t Key.linkRate = 0 ∧ (s.sluice.moves = [] → t.cores = s.cores ∧ t.fountain = s.fountain) ∧ t.boot = s.boot ∧
        ∀ i < 32, t.time.locks.testBit i = (s.time.locks.testBit i && i != 3)))) ∧
  (∀ (s : State) (path : VPath) (f : LaneFinding) (k : SharedKind), (railsUp s = false → exec (.verticalLaneTest path f k) s = .next s) ∧
    (railsUp s = true →
      (∀ n, f = .clean n → ∃ t, exec (.verticalLaneTest path f k) s = .next t ∧ OnlyLogged s t ∧ (0 < n → Counted s t (Key.codeCount Code.checkTransient) n)) ∧
      (∀ p plane bond ctrl spare, p < 544 → f = .bond plane bond ctrl spare → (path = .chan p ∨ path = .down p) → ¬found path p plane bond → exec (.verticalLaneTest path f k) s = .next s) ∧
      (∀ p plane bond ctrl sp, p < 544 → f = .bond plane bond ctrl (some sp) → found path p plane bond → sp < 128 → spareLeft s p plane = true →
        let d := bondDetail plane bond sp
        ∃ t, exec (.verticalLaneTest path f k) s = .next t ∧ t.cores = s.cores ∧ t.fountain = s.fountain ∧ Counted32 s t (Key.sparesUsed p) 1 ∧ ReportedUnit t Code.laneSpared 0 p (leBytes 4 d) ∧
          (isNamed s 9 p d = false → s.flash.defects.length < 4096 → t.flash.defects = s.flash.defects ++ [⟨defectRecord 9 (if s.boot.done < 11 then s.boot.stage else 0x20) p d Code.laneSpared (stamp s) (startCount s), false⟩])) ∧
      (∀ p plane bond ctrl spare, p < 544 → f = .bond plane bond ctrl spare → found path p plane bond → (spare = none ∨ spareLeft s p plane = false ∨ ∃ sp, spare = some sp ∧ 128 ≤ sp) →
        let h := mapGet LaneHealth.good (getPos s p).lanes plane
        ∃ t, exec (.verticalLaneTest path f k) s = .next t ∧ Counted s t (Key.codeCount Code.laneLost) 1 ∧ t.flash.signatures.length = min 256 (s.flash.signatures.length + 1) ∧
          (ctrl = false → h.half = false → mapGet LaneHealth.good (getPos t p).lanes plane = { h with half := true } ∧ (getPos t p).groups = (getPos s p).groups ∧
            (coreGroups (getPos s p) ≠ [] → coreState t p = (if coreState s p = 1 then 2 else coreState s p) ∧ t.keeper.drains = s.keeper.drains) ∧
            (coreGroups (getPos s p) = [] → coreState t p = 4)) ∧
          ((ctrl = true ∨ h.half = true) → coreState t p = 4 ∧ (getPos t p).arrays = [] ∧ (getPos t p).walker = [] ∧ (getPos t p).ro = [] ∧
            ∀ e ∈ coreGroups (getPos s p), ∀ sl, getSlot s e.2.slot = some sl → ∃ x, getSlot t e.2.slot = some x ∧ x.ending ≠ none)) ∧
      (∀ g plane bond ctrl sp, g < 128 → f = .bond plane bond ctrl (some sp) → path = .slicePort g → ∃ t, exec (.verticalLaneTest path f k) s = .next t ∧
        t.cores = s.cores ∧ t.cistern = s.cistern ∧ ReportedUnit t Code.laneSpared 0 (2 ^ 30 + g) (leBytes 4 (bondDetail plane bond sp))) ∧
      (∀ g plane bond ctrl, g < 128 → f = .bond plane bond ctrl none → path = .slicePort g → let x := getSlice s g
        ((x.retired = true ∨ x.portLost = true) → exec (.verticalLaneTest path f k) s = .next s) ∧
        (x.retired = false → x.portLost = false → x.portHalf = false → ∃ t, exec (.verticalLaneTest path f k) s = .next t ∧ getSlice t g = { x with portHalf := true } ∧
          (∀ j, j ≠ g → getSlice t j = getSlice s j) ∧ ReportedUnit t Code.slicePortHalved 1 g (leBytes 4 0)) ∧
        (x.retired = false → x.portLost = false → x.portHalf = true → ∃ t, exec (.verticalLaneTest path f k) s = .next t ∧ getSlice t g = { x with portLost := true } ∧
          t.reservoir = s.reservoir)) ∧
      (∀ i plane bond ctrl spare, f = .bond plane bond ctrl spare → path = .shared i →
        (s.boot.shared.contains i = false → ∃ t, exec (.verticalLaneTest path f k) s = .next t ∧ t.boot.shared = s.boot.shared ++ [i] ∧ t.cores = s.cores ∧
          ReportedUnit t Code.sharedBondDegraded 1 ((2 ^ 31 + i)) (leBytes 4 (bondDetail plane bond 0xFFFF))) ∧
        (s.boot.shared.contains i = true →
          (∀ r, k = .region r → r < 34 → ∃ t, exec (.verticalLaneTest path f k) s = .next t ∧ ∀ c < 16, coreState t (r * 16 + c) = 4) ∧
          (∀ c, k = .cluster c → c ∉ s.power.darkened → mapGet 0 s.power.clusterState c ≠ 2 → ∃ t, exec (.verticalLaneTest path f k) s = .next t ∧ t.power.darkened = s.power.darkened ++ [c] ∧
            ∀ p ∈ patchOf c, GroupsEndWith s t p Code.coreDark) ∧
          (k = .distribution → ∃ t, exec (.verticalLaneTest path f k) s = .next t ∧ RailsOff s t .clockLoss ∧ t.time.runs = false))))) ∧
  (∀ (s : State) (g : Nat), g < 128 → ((railsUp s = false ∨ (getSlice s g).portLost = false) → exec (.sliceRetired g) s = .next s) ∧
    (railsUp s = true → (getSlice s g).portLost = true → (∀ j, (getSlice s j).retired = false) → (getSlice s g).redq = [] → (getSlice s g).sets = [] → let x := getSlice s g
      let y := getSlice s (g ^^^ 1)
      ∃ t, exec (.sliceRetired g) s = .next t ∧ getSlice t g = { Slice.empty with retired := true, portHalf := x.portHalf, useClock := x.useClock } ∧
        getSlice t (g ^^^ 1) = { y with wb := y.wb ++ x.wb, inbox := y.inbox ++ x.inbox, waits := y.waits ++ (takenReqs x).map (fun r => ⟨r, now s⟩) } ∧ (∀ j, j ≠ g → j ≠ g ^^^ 1 → getSlice t j = getSlice s j) ∧
        ReportedUnit t Code.sliceRetired 2 g (leBytes 4 0) ∧ t.flash.signatures.length = min 256 (s.flash.signatures.length + 1)) ∧
    (railsUp s = true → (getSlice s g).portLost = true → (getSlice s (g ^^^ 1)).retired = true → ∃ t, exec (.sliceRetired g) s = .next t ∧ t.boot.dark = .depleted ∧ t.cores = [] ∧
      Counted s t (Key.codeCount Code.cisternDepleted) 1))

/-- The patches of the regulator clusters (R422). -/
def Obligations.RegulatorClusters : Prop :=
  (∀ k < 192, ∀ p < 544, p ∈ patchOf k ↔ p / 272 = k / 96 ∧
    (if k % 96 < 80 then 3 * (k % 96) ≤ p % 272 ∧ p % 272 ≤ 3 * (k % 96) + 2 else 240 + 2 * (k % 96 - 80) ≤ p % 272 ∧ p % 272 ≤ 241 + 2 * (k % 96 - 80))) ∧
  (∀ k < 192, (∀ p ∈ patchOf k, p < 544) ∧ (patchOf k).Nodup ∧ ∀ p ∈ patchOf k, (patchOf k).length = if p % 272 / 16 < 15 then 3 else 2) ∧
  (∀ p < 544, clusterOf p < 192 ∧ p ∈ patchOf (clusterOf p) ∧ ∀ k < 192, p ∈ patchOf k → k = clusterOf p) ∧
  (∀ (s : State) (k : Nat), k ∉ s.power.darkened → mapGet 0 s.power.clusterState k ≠ 2 → k < 192 →
    ∀ p, p ∈ (darkenPatch s k).boot.bad ↔ p ∈ s.boot.bad ∨ p ∈ patchOf k)

/-- The state right after reset (R402), and the invariant in it. Where the manual leaves a choice, it says the model's own (log entry 96). -/
def Obligations.ResetState : Prop :=
  let s := State.reset
  s.pending = [] ∧ s.boot.powered = true ∧ readNum s 0x60000100 = 0 ∧ readNum s 0x60000200 = 0 ∧ readNum s 0x60000202 = 0 ∧ s.boot.done = 0 ∧ s.boot.stopped = false ∧
  s.time.tb = 0 ∧ s.time.runs = false ∧ s.time.trim = 0 ∧ s.time.pps = 0 ∧
  (∀ k, getObj s k = objDefault k) ∧ (∀ k, getBytes s k = []) ∧ s.keeper.txn.st = .none ∧ s.keeper.ring = [] ∧ s.keeper.eventSeq = 0 ∧
  (∀ op, (getSvc s op).state = 0 ∧ (getSvc s op).code = 0 ∧ (getSvc s op).progress = 0) ∧
  s.fountain.intake = [] ∧ (∀ n, getSlot s n = none) ∧ (∀ c, (getCounter s c).value = 0 ∧ (getCounter s c).poison = false) ∧
  (∀ p g, getGroup s p g = none) ∧ (∀ p off, mapGet 0#8 (getPos s p).basin off = 0#8) ∧ (∀ a, resMapped s a = false) ∧ (∀ a, mapGet 0#8 s.reservoir.mem a = 0#8) ∧
  (∀ a, mapGet 0#8 s.cistern.win a = 0#8) ∧ s.cistern.jobs = [] ∧ (∀ g, (getSlice s g).sets = [] ∧ (getSlice s g).inbox = [] ∧ (getSlice s g).retired = false) ∧
  (∀ l, (getLink s l).st = .down) ∧ s.pool.st = .standalone ∧ s.port.up = false ∧ s.port.bars = [] ∧ s.port.sizeGiB = 64 ∧ s.port.d3 = false ∧ Inv s

/-- Every step answers a next state, and keeps the invariant (R226, R372, R407, R408, R469, R482, R486). -/
def Obligations.StepsKeepTheInvariant : Prop :=
  ∀ s : State, Inv s → ∃ t, step s = .next t ∧ Inv t
end

