-- ==== Sys2Proof/Laws/Early.lean ====
section
/-! SUPPORT. What running engines show of their results before they complete, where none runs: nothing. -/

namespace Sys2Proof.Machine

/-- An engine reads memory as it stands where no other engine of its core runs. -/
theorem earlyView_idle {s : State} {p : Nat} (h : engineRuns (getPos s p) = false) (g : Nat) (rd : Nat → Bool → Nat → Byte) :
    earlyView s p g rd = (rd, s) := by simp [earlyView, h]

/-- An engine's view of running engines changes nothing but the counter of free values. -/
theorem earlyView_state (s : State) (p g : Nat) (rd : Nat → Bool → Nat → Byte) : { (earlyView s p g rd).2 with free := s.free } = s := by
  unfold earlyView
  split <;> rfl

/-- A load finds memory as it stands where no engine of its core runs. -/
theorem earlyLoad_idle {s : State} {p : Nat} (h : engineRuns (getPos s p) = false) (g id : Nat) : earlyLoad p g id s = s := by
  simp [earlyLoad, h]

end Sys2Proof.Machine
end

