-- ==== Sys2Proof/Laws/Map.lean ====
section
/-! SUPPORT. The laws of tables: reading what was written, leaving every other key alone, and keeping the canonical form. -/

namespace Sys2Proof.Machine

variable {α : Type} (d : α) (m : Sparse α) (k j : Nat) (v : α)

@[simp] theorem mapGet_nil : mapGet d [] k = d := rfl

theorem mapGet_mapErase_same : mapGet d (mapErase m k) k = d := by
  induction m with
  | nil => rfl
  | cons e m ih =>
    by_cases h : e.1 = k
    · simpa [mapErase, h] using ih
    · have h' : ¬k = e.1 := fun x => h x.symm
      simpa [mapErase, h, mapGet, h'] using ih

theorem mapGet_mapErase_ne (h : j ≠ k) : mapGet d (mapErase m k) j = mapGet d m j := by
  induction m with
  | nil => rfl
  | cons e m ih =>
    by_cases he : e.1 = k
    · have hj : ¬j = e.1 := fun x => h (x.trans he)
      simpa [mapErase, he, mapGet, hj, h] using ih
    · simp only [mapErase] at ih
      have hx : (e.1 != k) = true := by simp [he]
      by_cases hj : j = e.1 <;> simp [mapErase, List.filter, hx, mapGet, hj, ih]

theorem mapGet_mapPut_same : mapGet d (mapPut m k v) k = v := by
  induction m with
  | nil => simp [mapPut, mapGet]
  | cons e m ih =>
    simp only [mapPut]
    split
    · simp [mapGet]
    · split
      · simp [mapGet]
      · rename_i h _
        simp [mapGet, h, ih]

theorem mapGet_mapPut_ne (h : j ≠ k) : mapGet d (mapPut m k v) j = mapGet d m j := by
  induction m with
  | nil => simp [mapPut, mapGet, h]
  | cons e m ih =>
    simp only [mapPut]
    split
    · rename_i he
      have : ¬j = e.1 := fun x => h (x.trans he.symm)
      simp [mapGet, h, this]
    · split
      · simp [mapGet, h]
      · simp [mapGet, ih]

variable [DecidableEq α]

/-- A read after a write of the same key gives what was written. -/
@[simp] theorem mapGet_mapSet_same : mapGet d (mapSet d m k v) k = v := by
  unfold mapSet
  split
  · rename_i h
    rw [mapGet_mapErase_same, h]
  · exact mapGet_mapPut_same d m k v

/-- A write leaves every other key alone, whatever default the reader of that key uses. -/
theorem mapGet_mapSet_other (e : α) (h : j ≠ k) : mapGet e (mapSet d m k v) j = mapGet e m j := by
  unfold mapSet
  split
  · exact mapGet_mapErase_ne e m k j h
  · exact mapGet_mapPut_ne e m k j v h

/-- A write leaves every other key alone. -/
theorem mapGet_mapSet_ne (h : j ≠ k) : mapGet d (mapSet d m k v) j = mapGet d m j := mapGet_mapSet_other d m k j v d h

/-- A read after a write. -/
theorem mapGet_mapSet : mapGet d (mapSet d m k v) j = if j = k then v else mapGet d m j := by
  split
  · rename_i h
    rw [h, mapGet_mapSet_same]
  · rename_i h
    exact mapGet_mapSet_ne d m k j v h

omit [DecidableEq α] in
theorem mapAbove_mono (h : j ≤ k) (hk : mapAbove k m = true) : mapAbove j m = true := by
  cases m with
  | nil => rfl
  | cons e m =>
    simp only [mapAbove, decide_eq_true_eq] at hk ⊢
    omega

theorem mapAbove_erase (h : mapAbove j m = true) (hw : mapWf d m = true) : mapAbove j (mapErase m k) = true := by
  induction m generalizing j with
  | nil => rfl
  | cons e m ih =>
    obtain ⟨a, b⟩ := e
    simp only [mapAbove, decide_eq_true_eq] at h
    simp only [mapWf, Bool.and_eq_true] at hw
    by_cases he : a = k
    · simp only [mapErase, List.filter, he, bne_self_eq_false] at *
      exact ih k (mapAbove_mono _ _ _ (Nat.le_refl _) hw.1.2) hw.2 |> mapAbove_mono _ _ _ (by omega)
    · have : (a != k) = true := by simp [he]
      simp [mapErase, List.filter, this, mapAbove, h]

theorem mapWf_mapErase (h : mapWf d m = true) : mapWf d (mapErase m k) = true := by
  induction m with
  | nil => rfl
  | cons e m ih =>
    obtain ⟨a, b⟩ := e
    simp only [mapWf, Bool.and_eq_true] at h
    by_cases he : a = k
    · simpa [mapErase, List.filter, he] using ih h.2
    · have hx : (a != k) = true := by simp [he]
      have ha := mapAbove_erase d m k a h.1.2 h.2
      simp only [mapErase] at ha ih ⊢
      simp only [List.filter, hx, mapWf, Bool.and_eq_true]
      exact ⟨⟨h.1.1, ha⟩, ih h.2⟩

omit [DecidableEq α] in
theorem mapAbove_mapPut (hj : j < k) (h : mapAbove j m = true) : mapAbove j (mapPut m k v) = true := by
  cases m with
  | nil => simp [mapPut, mapAbove, hj]
  | cons e m =>
    simp only [mapAbove, decide_eq_true_eq] at h
    simp only [mapPut]
    split
    · simp [mapAbove, hj]
    · split <;> simp [mapAbove, hj, h]

theorem mapWf_mapPut (hv : v ≠ d) (h : mapWf d m = true) : mapWf d (mapPut m k v) = true := by
  induction m with
  | nil => simp [mapPut, mapWf, mapAbove, hv]
  | cons e m ih =>
    obtain ⟨a, b⟩ := e
    have h0 := h
    simp only [mapWf, Bool.and_eq_true] at h
    simp only [mapPut]
    split
    · rename_i he
      subst he
      simp [mapWf, hv, h.1.2, h.2]
    · split
      · rename_i _ hl
        simp only [mapWf, Bool.and_eq_true]
        exact ⟨⟨by simpa using hv, by simpa [mapAbove] using hl⟩, h⟩
      · rename_i he hl
        simp only [mapWf, Bool.and_eq_true]
        exact ⟨⟨h.1.1, mapAbove_mapPut m k a v (by omega) h.1.2⟩, ih h.2⟩

/-- A write keeps the canonical form. -/
theorem mapWf_mapSet (h : mapWf d m = true) : mapWf d (mapSet d m k v) = true := by
  unfold mapSet
  split
  · exact mapWf_mapErase d m k h
  · rename_i hv
    exact mapWf_mapPut d m k v hv h

/-- Writing a run of keys keeps the canonical form. -/
theorem mapWf_mapSetList (vs : List α) (h : mapWf d m = true) : mapWf d (mapSetList d m k vs) = true := by
  induction vs generalizing m k with
  | nil => exact h
  | cons v vs ih => exact ih (mapSet d m k v) (k + 1) (mapWf_mapSet d m k v h)

/-- A run of writes leaves the keys outside it alone. -/
theorem mapGet_mapSetList_out (vs : List α) (h : j < k ∨ k + vs.length ≤ j) : mapGet d (mapSetList d m k vs) j = mapGet d m j := by
  induction vs generalizing m k with
  | nil => rfl
  | cons v vs ih =>
    simp only [List.length_cons] at h
    rw [mapSetList, ih (mapSet d m k v) (k + 1) (by omega), mapGet_mapSet_ne d m k j v (by omega)]

/-- A run of writes is read back. -/
theorem mapGet_mapSetList_in (vs : List α) (i : Nat) (h : i < vs.length) : mapGet d (mapSetList d m k vs) (k + i) = vs[i] := by
  induction vs generalizing m k i with
  | nil => simp at h
  | cons v vs ih =>
    cases i with
    | zero =>
      show mapGet d (mapSetList d (mapSet d m k v) (k + 1) vs) k = v
      rw [mapGet_mapSetList_out d _ (k + 1) k vs (by omega), mapGet_mapSet_same]
    | succ i =>
      have := ih (mapSet d m k v) (k + 1) i (by simpa using h)
      rw [mapSetList, show k + (i + 1) = k + 1 + i by omega, this]
      simp

omit [DecidableEq α] in
/-- A run of keys has as many values as keys. -/
theorem mapGetList_length (n : Nat) : (mapGetList d m k n).length = n := by
  induction n generalizing k with
  | zero => rfl
  | succ n ih => simp [mapGetList, ih]

/-- Keeping some of the keys keeps the canonical form. -/
theorem mapAbove_filter (p : Nat × α → Bool) (h : mapAbove j m = true) (hw : mapWf d m = true) :
    mapAbove j (m.filter p) = true := by
  induction m generalizing j with
  | nil => rfl
  | cons e m ih =>
    obtain ⟨a, b⟩ := e
    simp only [mapAbove, decide_eq_true_eq] at h
    simp only [mapWf, Bool.and_eq_true] at hw
    by_cases he : p (a, b)
    · simp [List.filter, he, mapAbove, h]
    · simp only [List.filter, he]
      exact mapAbove_mono _ _ _ (Nat.le_of_lt h) (ih a hw.1.2 hw.2)

theorem mapWf_filter (p : Nat × α → Bool) (h : mapWf d m = true) : mapWf d (m.filter p) = true := by
  induction m with
  | nil => rfl
  | cons e m ih =>
    obtain ⟨a, b⟩ := e
    simp only [mapWf, Bool.and_eq_true] at h
    by_cases he : p (a, b)
    · simp only [List.filter, he, mapWf, Bool.and_eq_true]
      exact ⟨⟨h.1.1, mapAbove_filter d m a p h.1.2 h.2⟩, ih h.2⟩
    · simp only [List.filter, he]
      exact ih h.2

end Sys2Proof.Machine
end

