-- ==== Sys2Proof/Laws/State.lean ====
section
/-! SUPPORT. What each setter of the state leaves alone: one lemma for each field, true by unfolding; and what each getter
reads after its own setter. -/

namespace Sys2Proof.Machine

variable (s : State)

/-! ### emit -/

@[simp] theorem emit_pending (o : Out) : (emit s o).pending = s.pending := rfl
@[simp] theorem emit_free (o : Out) : (emit s o).free = s.free := rfl
@[simp] theorem emit_time (o : Out) : (emit s o).time = s.time := rfl
@[simp] theorem emit_boot (o : Out) : (emit s o).boot = s.boot := rfl
@[simp] theorem emit_flash (o : Out) : (emit s o).flash = s.flash := rfl
@[simp] theorem emit_power (o : Out) : (emit s o).power = s.power := rfl
@[simp] theorem emit_keeper (o : Out) : (emit s o).keeper = s.keeper := rfl
@[simp] theorem emit_fountain (o : Out) : (emit s o).fountain = s.fountain := rfl
@[simp] theorem emit_cores (o : Out) : (emit s o).cores = s.cores := rfl
@[simp] theorem emit_cistern (o : Out) : (emit s o).cistern = s.cistern := rfl
@[simp] theorem emit_reservoir (o : Out) : (emit s o).reservoir = s.reservoir := rfl
@[simp] theorem emit_sluice (o : Out) : (emit s o).sluice = s.sluice := rfl
@[simp] theorem emit_links (o : Out) : (emit s o).links = s.links := rfl
@[simp] theorem emit_pool (o : Out) : (emit s o).pool = s.pool := rfl
@[simp] theorem emit_port (o : Out) : (emit s o).port = s.port := rfl

/-! ### setObj -/

@[simp] theorem setObj_pending (k v : Nat) : (setObj s k v).pending = s.pending := rfl
@[simp] theorem setObj_free (k v : Nat) : (setObj s k v).free = s.free := rfl
@[simp] theorem setObj_out (k v : Nat) : (setObj s k v).out = s.out := rfl
@[simp] theorem setObj_time (k v : Nat) : (setObj s k v).time = s.time := rfl
@[simp] theorem setObj_boot (k v : Nat) : (setObj s k v).boot = s.boot := rfl
@[simp] theorem setObj_flash (k v : Nat) : (setObj s k v).flash = s.flash := rfl
@[simp] theorem setObj_power (k v : Nat) : (setObj s k v).power = s.power := rfl
@[simp] theorem setObj_fountain (k v : Nat) : (setObj s k v).fountain = s.fountain := rfl
@[simp] theorem setObj_cores (k v : Nat) : (setObj s k v).cores = s.cores := rfl
@[simp] theorem setObj_cistern (k v : Nat) : (setObj s k v).cistern = s.cistern := rfl
@[simp] theorem setObj_reservoir (k v : Nat) : (setObj s k v).reservoir = s.reservoir := rfl
@[simp] theorem setObj_sluice (k v : Nat) : (setObj s k v).sluice = s.sluice := rfl
@[simp] theorem setObj_links (k v : Nat) : (setObj s k v).links = s.links := rfl
@[simp] theorem setObj_pool (k v : Nat) : (setObj s k v).pool = s.pool := rfl
@[simp] theorem setObj_port (k v : Nat) : (setObj s k v).port = s.port := rfl
@[simp] theorem setObj_keeper_objB (k v : Nat) : (setObj s k v).keeper.objB = s.keeper.objB := rfl
@[simp] theorem setObj_keeper_ring (k v : Nat) : (setObj s k v).keeper.ring = s.keeper.ring := rfl
@[simp] theorem setObj_keeper_eventSeq (k v : Nat) : (setObj s k v).keeper.eventSeq = s.keeper.eventSeq := rfl
@[simp] theorem setObj_keeper_sentAt (k v : Nat) : (setObj s k v).keeper.sentAt = s.keeper.sentAt := rfl
@[simp] theorem setObj_keeper_txn (k v : Nat) : (setObj s k v).keeper.txn = s.keeper.txn := rfl
@[simp] theorem setObj_keeper_nextTxn (k v : Nat) : (setObj s k v).keeper.nextTxn = s.keeper.nextTxn := rfl
@[simp] theorem setObj_keeper_kept (k v : Nat) : (setObj s k v).keeper.kept = s.keeper.kept := rfl
@[simp] theorem setObj_keeper_relays (k v : Nat) : (setObj s k v).keeper.relays = s.keeper.relays := rfl
@[simp] theorem setObj_keeper_nextRelay (k v : Nat) : (setObj s k v).keeper.nextRelay = s.keeper.nextRelay := rfl
@[simp] theorem setObj_keeper_drains (k v : Nat) : (setObj s k v).keeper.drains = s.keeper.drains := rfl
@[simp] theorem setObj_keeper_svcs (k v : Nat) : (setObj s k v).keeper.svcs = s.keeper.svcs := rfl
@[simp] theorem setObj_keeper_cores (k v : Nat) : (setObj s k v).keeper.cores = s.keeper.cores := rfl
@[simp] theorem setObj_keeper_classes (k v : Nat) : (setObj s k v).keeper.classes = s.keeper.classes := rfl
@[simp] theorem setObj_keeper_spotWait (k v : Nat) : (setObj s k v).keeper.spotWait = s.keeper.spotWait := rfl
@[simp] theorem setObj_keeper_testing (k v : Nat) : (setObj s k v).keeper.testing = s.keeper.testing := rfl
@[simp] theorem setObj_keeper_pack (k v : Nat) : (setObj s k v).keeper.pack = s.keeper.pack := rfl
@[simp] theorem setObj_keeper_frags (k v : Nat) : (setObj s k v).keeper.frags = s.keeper.frags := rfl

/-! ### setBytes -/

@[simp] theorem setBytes_pending (k : Nat) (v : List Byte) : (setBytes s k v).pending = s.pending := rfl
@[simp] theorem setBytes_free (k : Nat) (v : List Byte) : (setBytes s k v).free = s.free := rfl
@[simp] theorem setBytes_out (k : Nat) (v : List Byte) : (setBytes s k v).out = s.out := rfl
@[simp] theorem setBytes_time (k : Nat) (v : List Byte) : (setBytes s k v).time = s.time := rfl
@[simp] theorem setBytes_boot (k : Nat) (v : List Byte) : (setBytes s k v).boot = s.boot := rfl
@[simp] theorem setBytes_flash (k : Nat) (v : List Byte) : (setBytes s k v).flash = s.flash := rfl
@[simp] theorem setBytes_power (k : Nat) (v : List Byte) : (setBytes s k v).power = s.power := rfl
@[simp] theorem setBytes_fountain (k : Nat) (v : List Byte) : (setBytes s k v).fountain = s.fountain := rfl
@[simp] theorem setBytes_cores (k : Nat) (v : List Byte) : (setBytes s k v).cores = s.cores := rfl
@[simp] theorem setBytes_cistern (k : Nat) (v : List Byte) : (setBytes s k v).cistern = s.cistern := rfl
@[simp] theorem setBytes_reservoir (k : Nat) (v : List Byte) : (setBytes s k v).reservoir = s.reservoir := rfl
@[simp] theorem setBytes_sluice (k : Nat) (v : List Byte) : (setBytes s k v).sluice = s.sluice := rfl
@[simp] theorem setBytes_links (k : Nat) (v : List Byte) : (setBytes s k v).links = s.links := rfl
@[simp] theorem setBytes_pool (k : Nat) (v : List Byte) : (setBytes s k v).pool = s.pool := rfl
@[simp] theorem setBytes_port (k : Nat) (v : List Byte) : (setBytes s k v).port = s.port := rfl
@[simp] theorem setBytes_keeper_obj (k : Nat) (v : List Byte) : (setBytes s k v).keeper.obj = s.keeper.obj := rfl
@[simp] theorem setBytes_keeper_ring (k : Nat) (v : List Byte) : (setBytes s k v).keeper.ring = s.keeper.ring := rfl
@[simp] theorem setBytes_keeper_eventSeq (k : Nat) (v : List Byte) : (setBytes s k v).keeper.eventSeq = s.keeper.eventSeq := rfl
@[simp] theorem setBytes_keeper_sentAt (k : Nat) (v : List Byte) : (setBytes s k v).keeper.sentAt = s.keeper.sentAt := rfl
@[simp] theorem setBytes_keeper_txn (k : Nat) (v : List Byte) : (setBytes s k v).keeper.txn = s.keeper.txn := rfl
@[simp] theorem setBytes_keeper_nextTxn (k : Nat) (v : List Byte) : (setBytes s k v).keeper.nextTxn = s.keeper.nextTxn := rfl
@[simp] theorem setBytes_keeper_kept (k : Nat) (v : List Byte) : (setBytes s k v).keeper.kept = s.keeper.kept := rfl
@[simp] theorem setBytes_keeper_relays (k : Nat) (v : List Byte) : (setBytes s k v).keeper.relays = s.keeper.relays := rfl
@[simp] theorem setBytes_keeper_nextRelay (k : Nat) (v : List Byte) : (setBytes s k v).keeper.nextRelay = s.keeper.nextRelay := rfl
@[simp] theorem setBytes_keeper_drains (k : Nat) (v : List Byte) : (setBytes s k v).keeper.drains = s.keeper.drains := rfl
@[simp] theorem setBytes_keeper_svcs (k : Nat) (v : List Byte) : (setBytes s k v).keeper.svcs = s.keeper.svcs := rfl
@[simp] theorem setBytes_keeper_cores (k : Nat) (v : List Byte) : (setBytes s k v).keeper.cores = s.keeper.cores := rfl
@[simp] theorem setBytes_keeper_classes (k : Nat) (v : List Byte) : (setBytes s k v).keeper.classes = s.keeper.classes := rfl
@[simp] theorem setBytes_keeper_spotWait (k : Nat) (v : List Byte) : (setBytes s k v).keeper.spotWait = s.keeper.spotWait := rfl
@[simp] theorem setBytes_keeper_testing (k : Nat) (v : List Byte) : (setBytes s k v).keeper.testing = s.keeper.testing := rfl
@[simp] theorem setBytes_keeper_pack (k : Nat) (v : List Byte) : (setBytes s k v).keeper.pack = s.keeper.pack := rfl
@[simp] theorem setBytes_keeper_frags (k : Nat) (v : List Byte) : (setBytes s k v).keeper.frags = s.keeper.frags := rfl

/-! ### setPos -/

@[simp] theorem setPos_pending (p : Nat) (c : Pos) : (setPos s p c).pending = s.pending := rfl
@[simp] theorem setPos_free (p : Nat) (c : Pos) : (setPos s p c).free = s.free := rfl
@[simp] theorem setPos_out (p : Nat) (c : Pos) : (setPos s p c).out = s.out := rfl
@[simp] theorem setPos_time (p : Nat) (c : Pos) : (setPos s p c).time = s.time := rfl
@[simp] theorem setPos_boot (p : Nat) (c : Pos) : (setPos s p c).boot = s.boot := rfl
@[simp] theorem setPos_flash (p : Nat) (c : Pos) : (setPos s p c).flash = s.flash := rfl
@[simp] theorem setPos_power (p : Nat) (c : Pos) : (setPos s p c).power = s.power := rfl
@[simp] theorem setPos_keeper (p : Nat) (c : Pos) : (setPos s p c).keeper = s.keeper := rfl
@[simp] theorem setPos_fountain (p : Nat) (c : Pos) : (setPos s p c).fountain = s.fountain := rfl
@[simp] theorem setPos_cistern (p : Nat) (c : Pos) : (setPos s p c).cistern = s.cistern := rfl
@[simp] theorem setPos_reservoir (p : Nat) (c : Pos) : (setPos s p c).reservoir = s.reservoir := rfl
@[simp] theorem setPos_sluice (p : Nat) (c : Pos) : (setPos s p c).sluice = s.sluice := rfl
@[simp] theorem setPos_links (p : Nat) (c : Pos) : (setPos s p c).links = s.links := rfl
@[simp] theorem setPos_pool (p : Nat) (c : Pos) : (setPos s p c).pool = s.pool := rfl
@[simp] theorem setPos_port (p : Nat) (c : Pos) : (setPos s p c).port = s.port := rfl

/-! ### setGroup -/

@[simp] theorem setGroup_pending (p g : Nat) (x : Option Group) : (setGroup s p g x).pending = s.pending := rfl
@[simp] theorem setGroup_free (p g : Nat) (x : Option Group) : (setGroup s p g x).free = s.free := rfl
@[simp] theorem setGroup_out (p g : Nat) (x : Option Group) : (setGroup s p g x).out = s.out := rfl
@[simp] theorem setGroup_time (p g : Nat) (x : Option Group) : (setGroup s p g x).time = s.time := rfl
@[simp] theorem setGroup_boot (p g : Nat) (x : Option Group) : (setGroup s p g x).boot = s.boot := rfl
@[simp] theorem setGroup_flash (p g : Nat) (x : Option Group) : (setGroup s p g x).flash = s.flash := rfl
@[simp] theorem setGroup_power (p g : Nat) (x : Option Group) : (setGroup s p g x).power = s.power := rfl
@[simp] theorem setGroup_keeper (p g : Nat) (x : Option Group) : (setGroup s p g x).keeper = s.keeper := rfl
@[simp] theorem setGroup_fountain (p g : Nat) (x : Option Group) : (setGroup s p g x).fountain = s.fountain := rfl
@[simp] theorem setGroup_cistern (p g : Nat) (x : Option Group) : (setGroup s p g x).cistern = s.cistern := rfl
@[simp] theorem setGroup_reservoir (p g : Nat) (x : Option Group) : (setGroup s p g x).reservoir = s.reservoir := rfl
@[simp] theorem setGroup_sluice (p g : Nat) (x : Option Group) : (setGroup s p g x).sluice = s.sluice := rfl
@[simp] theorem setGroup_links (p g : Nat) (x : Option Group) : (setGroup s p g x).links = s.links := rfl
@[simp] theorem setGroup_pool (p g : Nat) (x : Option Group) : (setGroup s p g x).pool = s.pool := rfl
@[simp] theorem setGroup_port (p g : Nat) (x : Option Group) : (setGroup s p g x).port = s.port := rfl

/-! ### setSlot -/

@[simp] theorem setSlot_pending (n : Nat) (x : Option Slot) : (setSlot s n x).pending = s.pending := rfl
@[simp] theorem setSlot_free (n : Nat) (x : Option Slot) : (setSlot s n x).free = s.free := rfl
@[simp] theorem setSlot_out (n : Nat) (x : Option Slot) : (setSlot s n x).out = s.out := rfl
@[simp] theorem setSlot_time (n : Nat) (x : Option Slot) : (setSlot s n x).time = s.time := rfl
@[simp] theorem setSlot_boot (n : Nat) (x : Option Slot) : (setSlot s n x).boot = s.boot := rfl
@[simp] theorem setSlot_flash (n : Nat) (x : Option Slot) : (setSlot s n x).flash = s.flash := rfl
@[simp] theorem setSlot_power (n : Nat) (x : Option Slot) : (setSlot s n x).power = s.power := rfl
@[simp] theorem setSlot_keeper (n : Nat) (x : Option Slot) : (setSlot s n x).keeper = s.keeper := rfl
@[simp] theorem setSlot_cores (n : Nat) (x : Option Slot) : (setSlot s n x).cores = s.cores := rfl
@[simp] theorem setSlot_cistern (n : Nat) (x : Option Slot) : (setSlot s n x).cistern = s.cistern := rfl
@[simp] theorem setSlot_reservoir (n : Nat) (x : Option Slot) : (setSlot s n x).reservoir = s.reservoir := rfl
@[simp] theorem setSlot_sluice (n : Nat) (x : Option Slot) : (setSlot s n x).sluice = s.sluice := rfl
@[simp] theorem setSlot_links (n : Nat) (x : Option Slot) : (setSlot s n x).links = s.links := rfl
@[simp] theorem setSlot_pool (n : Nat) (x : Option Slot) : (setSlot s n x).pool = s.pool := rfl
@[simp] theorem setSlot_port (n : Nat) (x : Option Slot) : (setSlot s n x).port = s.port := rfl
@[simp] theorem setSlot_fountain_intake (n : Nat) (x : Option Slot) : (setSlot s n x).fountain.intake = s.fountain.intake := rfl
@[simp] theorem setSlot_fountain_uses (n : Nat) (x : Option Slot) : (setSlot s n x).fountain.uses = s.fountain.uses := rfl
@[simp] theorem setSlot_fountain_counters (n : Nat) (x : Option Slot) : (setSlot s n x).fountain.counters = s.fountain.counters := rfl
@[simp] theorem setSlot_fountain_order (n : Nat) (x : Option Slot) : (setSlot s n x).fountain.order = s.fountain.order := rfl
@[simp] theorem setSlot_fountain_lastTake (n : Nat) (x : Option Slot) : (setSlot s n x).fountain.lastTake = s.fountain.lastTake := rfl

/-! ### setCounter -/

@[simp] theorem setCounter_pending (c : Nat) (x : Counter) : (setCounter s c x).pending = s.pending := rfl
@[simp] theorem setCounter_free (c : Nat) (x : Counter) : (setCounter s c x).free = s.free := rfl
@[simp] theorem setCounter_out (c : Nat) (x : Counter) : (setCounter s c x).out = s.out := rfl
@[simp] theorem setCounter_time (c : Nat) (x : Counter) : (setCounter s c x).time = s.time := rfl
@[simp] theorem setCounter_boot (c : Nat) (x : Counter) : (setCounter s c x).boot = s.boot := rfl
@[simp] theorem setCounter_flash (c : Nat) (x : Counter) : (setCounter s c x).flash = s.flash := rfl
@[simp] theorem setCounter_power (c : Nat) (x : Counter) : (setCounter s c x).power = s.power := rfl
@[simp] theorem setCounter_keeper (c : Nat) (x : Counter) : (setCounter s c x).keeper = s.keeper := rfl
@[simp] theorem setCounter_cores (c : Nat) (x : Counter) : (setCounter s c x).cores = s.cores := rfl
@[simp] theorem setCounter_cistern (c : Nat) (x : Counter) : (setCounter s c x).cistern = s.cistern := rfl
@[simp] theorem setCounter_reservoir (c : Nat) (x : Counter) : (setCounter s c x).reservoir = s.reservoir := rfl
@[simp] theorem setCounter_sluice (c : Nat) (x : Counter) : (setCounter s c x).sluice = s.sluice := rfl
@[simp] theorem setCounter_links (c : Nat) (x : Counter) : (setCounter s c x).links = s.links := rfl
@[simp] theorem setCounter_pool (c : Nat) (x : Counter) : (setCounter s c x).pool = s.pool := rfl
@[simp] theorem setCounter_port (c : Nat) (x : Counter) : (setCounter s c x).port = s.port := rfl
@[simp] theorem setCounter_fountain_intake (c : Nat) (x : Counter) : (setCounter s c x).fountain.intake = s.fountain.intake := rfl
@[simp] theorem setCounter_fountain_slots (c : Nat) (x : Counter) : (setCounter s c x).fountain.slots = s.fountain.slots := rfl
@[simp] theorem setCounter_fountain_uses (c : Nat) (x : Counter) : (setCounter s c x).fountain.uses = s.fountain.uses := rfl
@[simp] theorem setCounter_fountain_order (c : Nat) (x : Counter) : (setCounter s c x).fountain.order = s.fountain.order := rfl
@[simp] theorem setCounter_fountain_lastTake (c : Nat) (x : Counter) : (setCounter s c x).fountain.lastTake = s.fountain.lastTake := rfl

/-! ### setSlice -/

@[simp] theorem setSlice_pending (g : Nat) (x : Slice) : (setSlice s g x).pending = s.pending := rfl
@[simp] theorem setSlice_free (g : Nat) (x : Slice) : (setSlice s g x).free = s.free := rfl
@[simp] theorem setSlice_out (g : Nat) (x : Slice) : (setSlice s g x).out = s.out := rfl
@[simp] theorem setSlice_time (g : Nat) (x : Slice) : (setSlice s g x).time = s.time := rfl
@[simp] theorem setSlice_boot (g : Nat) (x : Slice) : (setSlice s g x).boot = s.boot := rfl
@[simp] theorem setSlice_flash (g : Nat) (x : Slice) : (setSlice s g x).flash = s.flash := rfl
@[simp] theorem setSlice_power (g : Nat) (x : Slice) : (setSlice s g x).power = s.power := rfl
@[simp] theorem setSlice_keeper (g : Nat) (x : Slice) : (setSlice s g x).keeper = s.keeper := rfl
@[simp] theorem setSlice_fountain (g : Nat) (x : Slice) : (setSlice s g x).fountain = s.fountain := rfl
@[simp] theorem setSlice_cores (g : Nat) (x : Slice) : (setSlice s g x).cores = s.cores := rfl
@[simp] theorem setSlice_reservoir (g : Nat) (x : Slice) : (setSlice s g x).reservoir = s.reservoir := rfl
@[simp] theorem setSlice_sluice (g : Nat) (x : Slice) : (setSlice s g x).sluice = s.sluice := rfl
@[simp] theorem setSlice_links (g : Nat) (x : Slice) : (setSlice s g x).links = s.links := rfl
@[simp] theorem setSlice_pool (g : Nat) (x : Slice) : (setSlice s g x).pool = s.pool := rfl
@[simp] theorem setSlice_port (g : Nat) (x : Slice) : (setSlice s g x).port = s.port := rfl
@[simp] theorem setSlice_cistern_win (g : Nat) (x : Slice) : (setSlice s g x).cistern.win = s.cistern.win := rfl
@[simp] theorem setSlice_cistern_winTag (g : Nat) (x : Slice) : (setSlice s g x).cistern.winTag = s.cistern.winTag := rfl
@[simp] theorem setSlice_cistern_winBad (g : Nat) (x : Slice) : (setSlice s g x).cistern.winBad = s.cistern.winBad := rfl
@[simp] theorem setSlice_cistern_winWays (g : Nat) (x : Slice) : (setSlice s g x).cistern.winWays = s.cistern.winWays := rfl
@[simp] theorem setSlice_cistern_sill (g : Nat) (x : Slice) : (setSlice s g x).cistern.sill = s.cistern.sill := rfl
@[simp] theorem setSlice_cistern_reset (g : Nat) (x : Slice) : (setSlice s g x).cistern.reset = s.cistern.reset := rfl

/-! ### setChan -/

@[simp] theorem setChan_pending (st ch : Nat) (x : Channel) : (setChan s st ch x).pending = s.pending := rfl
@[simp] theorem setChan_free (st ch : Nat) (x : Channel) : (setChan s st ch x).free = s.free := rfl
@[simp] theorem setChan_out (st ch : Nat) (x : Channel) : (setChan s st ch x).out = s.out := rfl
@[simp] theorem setChan_time (st ch : Nat) (x : Channel) : (setChan s st ch x).time = s.time := rfl
@[simp] theorem setChan_boot (st ch : Nat) (x : Channel) : (setChan s st ch x).boot = s.boot := rfl
@[simp] theorem setChan_flash (st ch : Nat) (x : Channel) : (setChan s st ch x).flash = s.flash := rfl
@[simp] theorem setChan_power (st ch : Nat) (x : Channel) : (setChan s st ch x).power = s.power := rfl
@[simp] theorem setChan_keeper (st ch : Nat) (x : Channel) : (setChan s st ch x).keeper = s.keeper := rfl
@[simp] theorem setChan_fountain (st ch : Nat) (x : Channel) : (setChan s st ch x).fountain = s.fountain := rfl
@[simp] theorem setChan_cores (st ch : Nat) (x : Channel) : (setChan s st ch x).cores = s.cores := rfl
@[simp] theorem setChan_cistern (st ch : Nat) (x : Channel) : (setChan s st ch x).cistern = s.cistern := rfl
@[simp] theorem setChan_sluice (st ch : Nat) (x : Channel) : (setChan s st ch x).sluice = s.sluice := rfl
@[simp] theorem setChan_links (st ch : Nat) (x : Channel) : (setChan s st ch x).links = s.links := rfl
@[simp] theorem setChan_pool (st ch : Nat) (x : Channel) : (setChan s st ch x).pool = s.pool := rfl
@[simp] theorem setChan_port (st ch : Nat) (x : Channel) : (setChan s st ch x).port = s.port := rfl
@[simp] theorem setChan_reservoir_mem (st ch : Nat) (x : Channel) : (setChan s st ch x).reservoir.mem = s.reservoir.mem := rfl
@[simp] theorem setChan_reservoir_marked (st ch : Nat) (x : Channel) : (setChan s st ch x).reservoir.marked = s.reservoir.marked := rfl
@[simp] theorem setChan_reservoir_pageTag (st ch : Nat) (x : Channel) : (setChan s st ch x).reservoir.pageTag = s.reservoir.pageTag := rfl
@[simp] theorem setChan_reservoir_west (st ch : Nat) (x : Channel) : (setChan s st ch x).reservoir.west = s.reservoir.west := rfl
@[simp] theorem setChan_reservoir_east (st ch : Nat) (x : Channel) : (setChan s st ch x).reservoir.east = s.reservoir.east := rfl
@[simp] theorem setChan_reservoir_lost (st ch : Nat) (x : Channel) : (setChan s st ch x).reservoir.lost = s.reservoir.lost := rfl

/-! ### setLink -/

@[simp] theorem setLink_pending (l : Nat) (x : Link) : (setLink s l x).pending = s.pending := rfl
@[simp] theorem setLink_free (l : Nat) (x : Link) : (setLink s l x).free = s.free := rfl
@[simp] theorem setLink_out (l : Nat) (x : Link) : (setLink s l x).out = s.out := rfl
@[simp] theorem setLink_time (l : Nat) (x : Link) : (setLink s l x).time = s.time := rfl
@[simp] theorem setLink_boot (l : Nat) (x : Link) : (setLink s l x).boot = s.boot := rfl
@[simp] theorem setLink_flash (l : Nat) (x : Link) : (setLink s l x).flash = s.flash := rfl
@[simp] theorem setLink_power (l : Nat) (x : Link) : (setLink s l x).power = s.power := rfl
@[simp] theorem setLink_keeper (l : Nat) (x : Link) : (setLink s l x).keeper = s.keeper := rfl
@[simp] theorem setLink_fountain (l : Nat) (x : Link) : (setLink s l x).fountain = s.fountain := rfl
@[simp] theorem setLink_cores (l : Nat) (x : Link) : (setLink s l x).cores = s.cores := rfl
@[simp] theorem setLink_cistern (l : Nat) (x : Link) : (setLink s l x).cistern = s.cistern := rfl
@[simp] theorem setLink_reservoir (l : Nat) (x : Link) : (setLink s l x).reservoir = s.reservoir := rfl
@[simp] theorem setLink_sluice (l : Nat) (x : Link) : (setLink s l x).sluice = s.sluice := rfl
@[simp] theorem setLink_pool (l : Nat) (x : Link) : (setLink s l x).pool = s.pool := rfl
@[simp] theorem setLink_port (l : Nat) (x : Link) : (setLink s l x).port = s.port := rfl

/-! ### setSeq -/

@[simp] theorem setSeq_pending (n : Nat) (x : Option Seqn) : (setSeq s n x).pending = s.pending := rfl
@[simp] theorem setSeq_free (n : Nat) (x : Option Seqn) : (setSeq s n x).free = s.free := rfl
@[simp] theorem setSeq_out (n : Nat) (x : Option Seqn) : (setSeq s n x).out = s.out := rfl
@[simp] theorem setSeq_time (n : Nat) (x : Option Seqn) : (setSeq s n x).time = s.time := rfl
@[simp] theorem setSeq_boot (n : Nat) (x : Option Seqn) : (setSeq s n x).boot = s.boot := rfl
@[simp] theorem setSeq_flash (n : Nat) (x : Option Seqn) : (setSeq s n x).flash = s.flash := rfl
@[simp] theorem setSeq_power (n : Nat) (x : Option Seqn) : (setSeq s n x).power = s.power := rfl
@[simp] theorem setSeq_keeper (n : Nat) (x : Option Seqn) : (setSeq s n x).keeper = s.keeper := rfl
@[simp] theorem setSeq_fountain (n : Nat) (x : Option Seqn) : (setSeq s n x).fountain = s.fountain := rfl
@[simp] theorem setSeq_cores (n : Nat) (x : Option Seqn) : (setSeq s n x).cores = s.cores := rfl
@[simp] theorem setSeq_cistern (n : Nat) (x : Option Seqn) : (setSeq s n x).cistern = s.cistern := rfl
@[simp] theorem setSeq_reservoir (n : Nat) (x : Option Seqn) : (setSeq s n x).reservoir = s.reservoir := rfl
@[simp] theorem setSeq_links (n : Nat) (x : Option Seqn) : (setSeq s n x).links = s.links := rfl
@[simp] theorem setSeq_pool (n : Nat) (x : Option Seqn) : (setSeq s n x).pool = s.pool := rfl
@[simp] theorem setSeq_port (n : Nat) (x : Option Seqn) : (setSeq s n x).port = s.port := rfl
@[simp] theorem setSeq_sluice_west (n : Nat) (x : Option Seqn) : (setSeq s n x).sluice.west = s.sluice.west := rfl
@[simp] theorem setSeq_sluice_east (n : Nat) (x : Option Seqn) : (setSeq s n x).sluice.east = s.sluice.east := rfl
@[simp] theorem setSeq_sluice_bufs (n : Nat) (x : Option Seqn) : (setSeq s n x).sluice.bufs = s.sluice.bufs := rfl
@[simp] theorem setSeq_sluice_dirsUsed (n : Nat) (x : Option Seqn) : (setSeq s n x).sluice.dirsUsed = s.sluice.dirsUsed := rfl
@[simp] theorem setSeq_sluice_chainsUsed (n : Nat) (x : Option Seqn) : (setSeq s n x).sluice.chainsUsed = s.sluice.chainsUsed := rfl
@[simp] theorem setSeq_sluice_deferred (n : Nat) (x : Option Seqn) : (setSeq s n x).sluice.deferred = s.sluice.deferred := rfl
@[simp] theorem setSeq_sluice_holds (n : Nat) (x : Option Seqn) : (setSeq s n x).sluice.holds = s.sluice.holds := rfl
@[simp] theorem setSeq_sluice_moves (n : Nat) (x : Option Seqn) : (setSeq s n x).sluice.moves = s.sluice.moves := rfl
@[simp] theorem setSeq_sluice_hostNext (n : Nat) (x : Option Seqn) : (setSeq s n x).sluice.hostNext = s.sluice.hostNext := rfl
@[simp] theorem setSeq_sluice_hostFreed (n : Nat) (x : Option Seqn) : (setSeq s n x).sluice.hostFreed = s.sluice.hostFreed := rfl
@[simp] theorem setSeq_sluice_hostCopies (n : Nat) (x : Option Seqn) : (setSeq s n x).sluice.hostCopies = s.sluice.hostCopies := rfl
@[simp] theorem setSeq_sluice_orphans (n : Nat) (x : Option Seqn) : (setSeq s n x).sluice.orphans = s.sluice.orphans := rfl
@[simp] theorem setSeq_sluice_reserveLost (n : Nat) (x : Option Seqn) : (setSeq s n x).sluice.reserveLost = s.sluice.reserveLost := rfl

/-! ### setCoreState -/

@[simp] theorem setCoreState_pending (p v : Nat) : (setCoreState s p v).pending = s.pending := rfl
@[simp] theorem setCoreState_free (p v : Nat) : (setCoreState s p v).free = s.free := rfl
@[simp] theorem setCoreState_out (p v : Nat) : (setCoreState s p v).out = s.out := rfl
@[simp] theorem setCoreState_time (p v : Nat) : (setCoreState s p v).time = s.time := rfl
@[simp] theorem setCoreState_boot (p v : Nat) : (setCoreState s p v).boot = s.boot := rfl
@[simp] theorem setCoreState_flash (p v : Nat) : (setCoreState s p v).flash = s.flash := rfl
@[simp] theorem setCoreState_power (p v : Nat) : (setCoreState s p v).power = s.power := rfl
@[simp] theorem setCoreState_fountain (p v : Nat) : (setCoreState s p v).fountain = s.fountain := rfl
@[simp] theorem setCoreState_cores (p v : Nat) : (setCoreState s p v).cores = s.cores := rfl
@[simp] theorem setCoreState_cistern (p v : Nat) : (setCoreState s p v).cistern = s.cistern := rfl
@[simp] theorem setCoreState_reservoir (p v : Nat) : (setCoreState s p v).reservoir = s.reservoir := rfl
@[simp] theorem setCoreState_sluice (p v : Nat) : (setCoreState s p v).sluice = s.sluice := rfl
@[simp] theorem setCoreState_links (p v : Nat) : (setCoreState s p v).links = s.links := rfl
@[simp] theorem setCoreState_pool (p v : Nat) : (setCoreState s p v).pool = s.pool := rfl
@[simp] theorem setCoreState_port (p v : Nat) : (setCoreState s p v).port = s.port := rfl
@[simp] theorem setCoreState_keeper_obj (p v : Nat) : (setCoreState s p v).keeper.obj = s.keeper.obj := rfl
@[simp] theorem setCoreState_keeper_objB (p v : Nat) : (setCoreState s p v).keeper.objB = s.keeper.objB := rfl
@[simp] theorem setCoreState_keeper_ring (p v : Nat) : (setCoreState s p v).keeper.ring = s.keeper.ring := rfl
@[simp] theorem setCoreState_keeper_eventSeq (p v : Nat) : (setCoreState s p v).keeper.eventSeq = s.keeper.eventSeq := rfl
@[simp] theorem setCoreState_keeper_sentAt (p v : Nat) : (setCoreState s p v).keeper.sentAt = s.keeper.sentAt := rfl
@[simp] theorem setCoreState_keeper_txn (p v : Nat) : (setCoreState s p v).keeper.txn = s.keeper.txn := rfl
@[simp] theorem setCoreState_keeper_nextTxn (p v : Nat) : (setCoreState s p v).keeper.nextTxn = s.keeper.nextTxn := rfl
@[simp] theorem setCoreState_keeper_kept (p v : Nat) : (setCoreState s p v).keeper.kept = s.keeper.kept := rfl
@[simp] theorem setCoreState_keeper_relays (p v : Nat) : (setCoreState s p v).keeper.relays = s.keeper.relays := rfl
@[simp] theorem setCoreState_keeper_nextRelay (p v : Nat) : (setCoreState s p v).keeper.nextRelay = s.keeper.nextRelay := rfl
@[simp] theorem setCoreState_keeper_drains (p v : Nat) : (setCoreState s p v).keeper.drains = s.keeper.drains := rfl
@[simp] theorem setCoreState_keeper_svcs (p v : Nat) : (setCoreState s p v).keeper.svcs = s.keeper.svcs := rfl
@[simp] theorem setCoreState_keeper_classes (p v : Nat) : (setCoreState s p v).keeper.classes = s.keeper.classes := rfl
@[simp] theorem setCoreState_keeper_spotWait (p v : Nat) : (setCoreState s p v).keeper.spotWait = s.keeper.spotWait := rfl
@[simp] theorem setCoreState_keeper_testing (p v : Nat) : (setCoreState s p v).keeper.testing = s.keeper.testing := rfl
@[simp] theorem setCoreState_keeper_pack (p v : Nat) : (setCoreState s p v).keeper.pack = s.keeper.pack := rfl
@[simp] theorem setCoreState_keeper_frags (p v : Nat) : (setCoreState s p v).keeper.frags = s.keeper.frags := rfl

/-! ### setClassState -/

@[simp] theorem setClassState_pending (c v : Nat) : (setClassState s c v).pending = s.pending := rfl
@[simp] theorem setClassState_free (c v : Nat) : (setClassState s c v).free = s.free := rfl
@[simp] theorem setClassState_out (c v : Nat) : (setClassState s c v).out = s.out := rfl
@[simp] theorem setClassState_time (c v : Nat) : (setClassState s c v).time = s.time := rfl
@[simp] theorem setClassState_boot (c v : Nat) : (setClassState s c v).boot = s.boot := rfl
@[simp] theorem setClassState_flash (c v : Nat) : (setClassState s c v).flash = s.flash := rfl
@[simp] theorem setClassState_power (c v : Nat) : (setClassState s c v).power = s.power := rfl
@[simp] theorem setClassState_fountain (c v : Nat) : (setClassState s c v).fountain = s.fountain := rfl
@[simp] theorem setClassState_cores (c v : Nat) : (setClassState s c v).cores = s.cores := rfl
@[simp] theorem setClassState_cistern (c v : Nat) : (setClassState s c v).cistern = s.cistern := rfl
@[simp] theorem setClassState_reservoir (c v : Nat) : (setClassState s c v).reservoir = s.reservoir := rfl
@[simp] theorem setClassState_sluice (c v : Nat) : (setClassState s c v).sluice = s.sluice := rfl
@[simp] theorem setClassState_links (c v : Nat) : (setClassState s c v).links = s.links := rfl
@[simp] theorem setClassState_pool (c v : Nat) : (setClassState s c v).pool = s.pool := rfl
@[simp] theorem setClassState_port (c v : Nat) : (setClassState s c v).port = s.port := rfl
@[simp] theorem setClassState_keeper_obj (c v : Nat) : (setClassState s c v).keeper.obj = s.keeper.obj := rfl
@[simp] theorem setClassState_keeper_objB (c v : Nat) : (setClassState s c v).keeper.objB = s.keeper.objB := rfl
@[simp] theorem setClassState_keeper_ring (c v : Nat) : (setClassState s c v).keeper.ring = s.keeper.ring := rfl
@[simp] theorem setClassState_keeper_eventSeq (c v : Nat) : (setClassState s c v).keeper.eventSeq = s.keeper.eventSeq := rfl
@[simp] theorem setClassState_keeper_sentAt (c v : Nat) : (setClassState s c v).keeper.sentAt = s.keeper.sentAt := rfl
@[simp] theorem setClassState_keeper_txn (c v : Nat) : (setClassState s c v).keeper.txn = s.keeper.txn := rfl
@[simp] theorem setClassState_keeper_nextTxn (c v : Nat) : (setClassState s c v).keeper.nextTxn = s.keeper.nextTxn := rfl
@[simp] theorem setClassState_keeper_kept (c v : Nat) : (setClassState s c v).keeper.kept = s.keeper.kept := rfl
@[simp] theorem setClassState_keeper_relays (c v : Nat) : (setClassState s c v).keeper.relays = s.keeper.relays := rfl
@[simp] theorem setClassState_keeper_nextRelay (c v : Nat) : (setClassState s c v).keeper.nextRelay = s.keeper.nextRelay := rfl
@[simp] theorem setClassState_keeper_drains (c v : Nat) : (setClassState s c v).keeper.drains = s.keeper.drains := rfl
@[simp] theorem setClassState_keeper_svcs (c v : Nat) : (setClassState s c v).keeper.svcs = s.keeper.svcs := rfl
@[simp] theorem setClassState_keeper_cores (c v : Nat) : (setClassState s c v).keeper.cores = s.keeper.cores := rfl
@[simp] theorem setClassState_keeper_spotWait (c v : Nat) : (setClassState s c v).keeper.spotWait = s.keeper.spotWait := rfl
@[simp] theorem setClassState_keeper_testing (c v : Nat) : (setClassState s c v).keeper.testing = s.keeper.testing := rfl
@[simp] theorem setClassState_keeper_pack (c v : Nat) : (setClassState s c v).keeper.pack = s.keeper.pack := rfl
@[simp] theorem setClassState_keeper_frags (c v : Nat) : (setClassState s c v).keeper.frags = s.keeper.frags := rfl

/-! ### storeObj -/

@[simp] theorem storeObj_pending (k v : Nat) : (storeObj s k v).pending = s.pending := rfl
@[simp] theorem storeObj_free (k v : Nat) : (storeObj s k v).free = s.free := rfl
@[simp] theorem storeObj_out (k v : Nat) : (storeObj s k v).out = s.out := rfl
@[simp] theorem storeObj_time (k v : Nat) : (storeObj s k v).time = s.time := rfl
@[simp] theorem storeObj_boot (k v : Nat) : (storeObj s k v).boot = s.boot := rfl
@[simp] theorem storeObj_power (k v : Nat) : (storeObj s k v).power = s.power := rfl
@[simp] theorem storeObj_keeper (k v : Nat) : (storeObj s k v).keeper = s.keeper := rfl
@[simp] theorem storeObj_fountain (k v : Nat) : (storeObj s k v).fountain = s.fountain := rfl
@[simp] theorem storeObj_cores (k v : Nat) : (storeObj s k v).cores = s.cores := rfl
@[simp] theorem storeObj_cistern (k v : Nat) : (storeObj s k v).cistern = s.cistern := rfl
@[simp] theorem storeObj_reservoir (k v : Nat) : (storeObj s k v).reservoir = s.reservoir := rfl
@[simp] theorem storeObj_sluice (k v : Nat) : (storeObj s k v).sluice = s.sluice := rfl
@[simp] theorem storeObj_links (k v : Nat) : (storeObj s k v).links = s.links := rfl
@[simp] theorem storeObj_pool (k v : Nat) : (storeObj s k v).pool = s.pool := rfl
@[simp] theorem storeObj_port (k v : Nat) : (storeObj s k v).port = s.port := rfl

/-! ### bump -/

@[simp] theorem bump_pending (k n : Nat) : (bump s k n).pending = s.pending := rfl
@[simp] theorem bump_free (k n : Nat) : (bump s k n).free = s.free := rfl
@[simp] theorem bump_out (k n : Nat) : (bump s k n).out = s.out := rfl
@[simp] theorem bump_time (k n : Nat) : (bump s k n).time = s.time := rfl
@[simp] theorem bump_boot (k n : Nat) : (bump s k n).boot = s.boot := rfl
@[simp] theorem bump_flash (k n : Nat) : (bump s k n).flash = s.flash := rfl
@[simp] theorem bump_power (k n : Nat) : (bump s k n).power = s.power := rfl
@[simp] theorem bump_fountain (k n : Nat) : (bump s k n).fountain = s.fountain := rfl
@[simp] theorem bump_cores (k n : Nat) : (bump s k n).cores = s.cores := rfl
@[simp] theorem bump_cistern (k n : Nat) : (bump s k n).cistern = s.cistern := rfl
@[simp] theorem bump_reservoir (k n : Nat) : (bump s k n).reservoir = s.reservoir := rfl
@[simp] theorem bump_sluice (k n : Nat) : (bump s k n).sluice = s.sluice := rfl
@[simp] theorem bump_links (k n : Nat) : (bump s k n).links = s.links := rfl
@[simp] theorem bump_pool (k n : Nat) : (bump s k n).pool = s.pool := rfl
@[simp] theorem bump_port (k n : Nat) : (bump s k n).port = s.port := rfl
@[simp] theorem bump_keeper_objB (k n : Nat) : (bump s k n).keeper.objB = s.keeper.objB := rfl
@[simp] theorem bump_keeper_ring (k n : Nat) : (bump s k n).keeper.ring = s.keeper.ring := rfl
@[simp] theorem bump_keeper_eventSeq (k n : Nat) : (bump s k n).keeper.eventSeq = s.keeper.eventSeq := rfl
@[simp] theorem bump_keeper_sentAt (k n : Nat) : (bump s k n).keeper.sentAt = s.keeper.sentAt := rfl
@[simp] theorem bump_keeper_txn (k n : Nat) : (bump s k n).keeper.txn = s.keeper.txn := rfl
@[simp] theorem bump_keeper_nextTxn (k n : Nat) : (bump s k n).keeper.nextTxn = s.keeper.nextTxn := rfl
@[simp] theorem bump_keeper_kept (k n : Nat) : (bump s k n).keeper.kept = s.keeper.kept := rfl
@[simp] theorem bump_keeper_relays (k n : Nat) : (bump s k n).keeper.relays = s.keeper.relays := rfl
@[simp] theorem bump_keeper_nextRelay (k n : Nat) : (bump s k n).keeper.nextRelay = s.keeper.nextRelay := rfl
@[simp] theorem bump_keeper_drains (k n : Nat) : (bump s k n).keeper.drains = s.keeper.drains := rfl
@[simp] theorem bump_keeper_svcs (k n : Nat) : (bump s k n).keeper.svcs = s.keeper.svcs := rfl
@[simp] theorem bump_keeper_cores (k n : Nat) : (bump s k n).keeper.cores = s.keeper.cores := rfl
@[simp] theorem bump_keeper_classes (k n : Nat) : (bump s k n).keeper.classes = s.keeper.classes := rfl
@[simp] theorem bump_keeper_spotWait (k n : Nat) : (bump s k n).keeper.spotWait = s.keeper.spotWait := rfl
@[simp] theorem bump_keeper_testing (k n : Nat) : (bump s k n).keeper.testing = s.keeper.testing := rfl
@[simp] theorem bump_keeper_pack (k n : Nat) : (bump s k n).keeper.pack = s.keeper.pack := rfl
@[simp] theorem bump_keeper_frags (k n : Nat) : (bump s k n).keeper.frags = s.keeper.frags := rfl

/-! ### takeFree -/

@[simp] theorem takeFree_fst : (takeFree s).1 = s.free := rfl
@[simp] theorem takeFree_free : (takeFree s).2.free = s.free + 1 := rfl
@[simp] theorem takeFree_pending : (takeFree s).2.pending = s.pending := rfl
@[simp] theorem takeFree_out : (takeFree s).2.out = s.out := rfl
@[simp] theorem takeFree_time : (takeFree s).2.time = s.time := rfl
@[simp] theorem takeFree_boot : (takeFree s).2.boot = s.boot := rfl
@[simp] theorem takeFree_flash : (takeFree s).2.flash = s.flash := rfl
@[simp] theorem takeFree_power : (takeFree s).2.power = s.power := rfl
@[simp] theorem takeFree_keeper : (takeFree s).2.keeper = s.keeper := rfl
@[simp] theorem takeFree_fountain : (takeFree s).2.fountain = s.fountain := rfl
@[simp] theorem takeFree_cores : (takeFree s).2.cores = s.cores := rfl
@[simp] theorem takeFree_cistern : (takeFree s).2.cistern = s.cistern := rfl
@[simp] theorem takeFree_reservoir : (takeFree s).2.reservoir = s.reservoir := rfl
@[simp] theorem takeFree_sluice : (takeFree s).2.sluice = s.sluice := rfl
@[simp] theorem takeFree_links : (takeFree s).2.links = s.links := rfl
@[simp] theorem takeFree_pool : (takeFree s).2.pool = s.pool := rfl
@[simp] theorem takeFree_port : (takeFree s).2.port = s.port := rfl

@[simp] theorem emit_out (o : Out) : (emit s o).out = o :: s.out := rfl

/-! ### setHalf: it writes one half of the Sluice -/

@[simp] theorem setHalf_pending (h : Nat) (y : HalfSpace) : (setHalf s h y).pending = s.pending := by unfold setHalf; split <;> rfl
@[simp] theorem setHalf_free (h : Nat) (y : HalfSpace) : (setHalf s h y).free = s.free := by unfold setHalf; split <;> rfl
@[simp] theorem setHalf_out (h : Nat) (y : HalfSpace) : (setHalf s h y).out = s.out := by unfold setHalf; split <;> rfl
@[simp] theorem setHalf_time (h : Nat) (y : HalfSpace) : (setHalf s h y).time = s.time := by unfold setHalf; split <;> rfl
@[simp] theorem setHalf_boot (h : Nat) (y : HalfSpace) : (setHalf s h y).boot = s.boot := by unfold setHalf; split <;> rfl
@[simp] theorem setHalf_flash (h : Nat) (y : HalfSpace) : (setHalf s h y).flash = s.flash := by unfold setHalf; split <;> rfl
@[simp] theorem setHalf_power (h : Nat) (y : HalfSpace) : (setHalf s h y).power = s.power := by unfold setHalf; split <;> rfl
@[simp] theorem setHalf_keeper (h : Nat) (y : HalfSpace) : (setHalf s h y).keeper = s.keeper := by unfold setHalf; split <;> rfl
@[simp] theorem setHalf_fountain (h : Nat) (y : HalfSpace) : (setHalf s h y).fountain = s.fountain := by unfold setHalf; split <;> rfl
@[simp] theorem setHalf_cores (h : Nat) (y : HalfSpace) : (setHalf s h y).cores = s.cores := by unfold setHalf; split <;> rfl
@[simp] theorem setHalf_cistern (h : Nat) (y : HalfSpace) : (setHalf s h y).cistern = s.cistern := by unfold setHalf; split <;> rfl
@[simp] theorem setHalf_reservoir (h : Nat) (y : HalfSpace) : (setHalf s h y).reservoir = s.reservoir := by unfold setHalf; split <;> rfl
@[simp] theorem setHalf_links (h : Nat) (y : HalfSpace) : (setHalf s h y).links = s.links := by unfold setHalf; split <;> rfl
@[simp] theorem setHalf_pool (h : Nat) (y : HalfSpace) : (setHalf s h y).pool = s.pool := by unfold setHalf; split <;> rfl
@[simp] theorem setHalf_port (h : Nat) (y : HalfSpace) : (setHalf s h y).port = s.port := by unfold setHalf; split <;> rfl
@[simp] theorem setHalf_sluice_bufs (h : Nat) (y : HalfSpace) : (setHalf s h y).sluice.bufs = s.sluice.bufs := by unfold setHalf; split <;> rfl
@[simp] theorem setHalf_sluice_seqs (h : Nat) (y : HalfSpace) : (setHalf s h y).sluice.seqs = s.sluice.seqs := by unfold setHalf; split <;> rfl
@[simp] theorem setHalf_sluice_dirsUsed (h : Nat) (y : HalfSpace) : (setHalf s h y).sluice.dirsUsed = s.sluice.dirsUsed := by unfold setHalf; split <;> rfl
@[simp] theorem setHalf_sluice_chainsUsed (h : Nat) (y : HalfSpace) : (setHalf s h y).sluice.chainsUsed = s.sluice.chainsUsed := by unfold setHalf; split <;> rfl
@[simp] theorem setHalf_sluice_deferred (h : Nat) (y : HalfSpace) : (setHalf s h y).sluice.deferred = s.sluice.deferred := by unfold setHalf; split <;> rfl
@[simp] theorem setHalf_sluice_holds (h : Nat) (y : HalfSpace) : (setHalf s h y).sluice.holds = s.sluice.holds := by unfold setHalf; split <;> rfl
@[simp] theorem setHalf_sluice_moves (h : Nat) (y : HalfSpace) : (setHalf s h y).sluice.moves = s.sluice.moves := by unfold setHalf; split <;> rfl
@[simp] theorem setHalf_sluice_hostNext (h : Nat) (y : HalfSpace) : (setHalf s h y).sluice.hostNext = s.sluice.hostNext := by unfold setHalf; split <;> rfl
@[simp] theorem setHalf_sluice_hostFreed (h : Nat) (y : HalfSpace) : (setHalf s h y).sluice.hostFreed = s.sluice.hostFreed := by unfold setHalf; split <;> rfl
@[simp] theorem setHalf_sluice_hostCopies (h : Nat) (y : HalfSpace) : (setHalf s h y).sluice.hostCopies = s.sluice.hostCopies := by unfold setHalf; split <;> rfl
@[simp] theorem setHalf_sluice_orphans (h : Nat) (y : HalfSpace) : (setHalf s h y).sluice.orphans = s.sluice.orphans := by unfold setHalf; split <;> rfl
@[simp] theorem setHalf_sluice_reserveLost (h : Nat) (y : HalfSpace) : (setHalf s h y).sluice.reserveLost = s.sluice.reserveLost := by unfold setHalf; split <;> rfl
@[simp] theorem getHalf_setHalf_same (h : Nat) (y : HalfSpace) : getHalf (setHalf s h y) h = y := by
  unfold getHalf setHalf; split <;> rfl

/-! ### A read after a write -/

@[simp] theorem getObj_setObj_same (k : Nat) (v : Nat) : getObj (setObj s k v) k = v := mapGet_mapSet_same _ _ _ _
theorem getObj_setObj_ne (k j : Nat) (v : Nat) (h : j ≠ k) : getObj (setObj s k v) j = getObj s j := mapGet_mapSet_other _ _ _ _ _ _ h
@[simp] theorem getBytes_setBytes_same (k : Nat) (v : List Byte) : getBytes (setBytes s k v) k = v := mapGet_mapSet_same _ _ _ _
theorem getBytes_setBytes_ne (k j : Nat) (v : List Byte) (h : j ≠ k) : getBytes (setBytes s k v) j = getBytes s j := mapGet_mapSet_other _ _ _ _ _ _ h
@[simp] theorem getPos_setPos_same (p : Nat) (c : Pos) : getPos (setPos s p c) p = c := mapGet_mapSet_same _ _ _ _
theorem getPos_setPos_ne (p j : Nat) (c : Pos) (h : j ≠ p) : getPos (setPos s p c) j = getPos s j := mapGet_mapSet_other _ _ _ _ _ _ h
@[simp] theorem getSlot_setSlot_same (n : Nat) (x : Option Slot) : getSlot (setSlot s n x) n = x := mapGet_mapSet_same _ _ _ _
theorem getSlot_setSlot_ne (n j : Nat) (x : Option Slot) (h : j ≠ n) : getSlot (setSlot s n x) j = getSlot s j := mapGet_mapSet_other _ _ _ _ _ _ h
@[simp] theorem getCounter_setCounter_same (c : Nat) (x : Counter) : getCounter (setCounter s c x) c = x := mapGet_mapSet_same _ _ _ _
theorem getCounter_setCounter_ne (c j : Nat) (x : Counter) (h : j ≠ c) : getCounter (setCounter s c x) j = getCounter s j := mapGet_mapSet_other _ _ _ _ _ _ h
@[simp] theorem getSlice_setSlice_same (g : Nat) (x : Slice) : getSlice (setSlice s g x) g = x := mapGet_mapSet_same _ _ _ _
theorem getSlice_setSlice_ne (g j : Nat) (x : Slice) (h : j ≠ g) : getSlice (setSlice s g x) j = getSlice s j := mapGet_mapSet_other _ _ _ _ _ _ h
@[simp] theorem getLink_setLink_same (l : Nat) (x : Link) : getLink (setLink s l x) l = x := mapGet_mapSet_same _ _ _ _
theorem getLink_setLink_ne (l j : Nat) (x : Link) (h : j ≠ l) : getLink (setLink s l x) j = getLink s j := mapGet_mapSet_other _ _ _ _ _ _ h
@[simp] theorem getSeq_setSeq_same (n : Nat) (x : Option Seqn) : getSeq (setSeq s n x) n = x := mapGet_mapSet_same _ _ _ _
theorem getSeq_setSeq_ne (n j : Nat) (x : Option Seqn) (h : j ≠ n) : getSeq (setSeq s n x) j = getSeq s j := mapGet_mapSet_other _ _ _ _ _ _ h
@[simp] theorem coreState_setCoreState_same (p : Nat) (v : Nat) : coreState (setCoreState s p v) p = v := mapGet_mapSet_same _ _ _ _
theorem coreState_setCoreState_ne (p j : Nat) (v : Nat) (h : j ≠ p) : coreState (setCoreState s p v) j = coreState s j := mapGet_mapSet_other _ _ _ _ _ _ h
@[simp] theorem classState_setClassState_same (c : Nat) (v : Nat) : classState (setClassState s c v) c = v := mapGet_mapSet_same _ _ _ _
theorem classState_setClassState_ne (c j : Nat) (v : Nat) (h : j ≠ c) : classState (setClassState s c v) j = classState s j := mapGet_mapSet_other _ _ _ _ _ _ h
@[simp] theorem getChan_setChan_same (st ch : Nat) (x : Channel) : getChan (setChan s st ch x) st ch = x := mapGet_mapSet_same _ _ _ _
@[simp] theorem getGroup_setGroup_same (p g : Nat) (x : Option Group) : getGroup (setGroup s p g x) p g = x := by
  simp [getGroup, setGroup]
theorem getGroup_setGroup_ne (p g q h : Nat) (x : Option Group) (hn : ¬(q = p ∧ h = g)) :
    getGroup (setGroup s p g x) q h = getGroup s q h := by
  by_cases hq : q = p
  · subst hq
    have : h ≠ g := fun e => hn ⟨rfl, e⟩
    simp [getGroup, setGroup, mapGet_mapSet_ne _ _ _ _ _ this]
  · simp [getGroup, setGroup, getPos_setPos_ne _ _ _ _ hq]

@[simp] theorem getObj_emit (o : Out) (k0 : Nat) : getObj (emit s o) k0 = getObj s k0 := rfl
@[simp] theorem getBytes_emit (o : Out) (k0 : Nat) : getBytes (emit s o) k0 = getBytes s k0 := rfl
@[simp] theorem getPos_emit (o : Out) (p0 : Nat) : getPos (emit s o) p0 = getPos s p0 := rfl
@[simp] theorem getSlot_emit (o : Out) (n0 : Nat) : getSlot (emit s o) n0 = getSlot s n0 := rfl
@[simp] theorem getCounter_emit (o : Out) (c0 : Nat) : getCounter (emit s o) c0 = getCounter s c0 := rfl
@[simp] theorem getSlice_emit (o : Out) (g0 : Nat) : getSlice (emit s o) g0 = getSlice s g0 := rfl
@[simp] theorem getLink_emit (o : Out) (l0 : Nat) : getLink (emit s o) l0 = getLink s l0 := rfl
@[simp] theorem getSeq_emit (o : Out) (n0 : Nat) : getSeq (emit s o) n0 = getSeq s n0 := rfl
@[simp] theorem coreState_emit (o : Out) (p0 : Nat) : coreState (emit s o) p0 = coreState s p0 := rfl
@[simp] theorem classState_emit (o : Out) (c0 : Nat) : classState (emit s o) c0 = classState s c0 := rfl
@[simp] theorem getGroup_emit (o : Out) (p0 g0 : Nat) : getGroup (emit s o) p0 g0 = getGroup s p0 g0 := rfl
@[simp] theorem getChan_emit (o : Out) (k0 c0 : Nat) : getChan (emit s o) k0 c0 = getChan s k0 c0 := rfl
@[simp] theorem getBytes_setObj (k v : Nat) (k0 : Nat) : getBytes (setObj s k v) k0 = getBytes s k0 := rfl
@[simp] theorem getPos_setObj (k v : Nat) (p0 : Nat) : getPos (setObj s k v) p0 = getPos s p0 := rfl
@[simp] theorem getSlot_setObj (k v : Nat) (n0 : Nat) : getSlot (setObj s k v) n0 = getSlot s n0 := rfl
@[simp] theorem getCounter_setObj (k v : Nat) (c0 : Nat) : getCounter (setObj s k v) c0 = getCounter s c0 := rfl
@[simp] theorem getSlice_setObj (k v : Nat) (g0 : Nat) : getSlice (setObj s k v) g0 = getSlice s g0 := rfl
@[simp] theorem getLink_setObj (k v : Nat) (l0 : Nat) : getLink (setObj s k v) l0 = getLink s l0 := rfl
@[simp] theorem getSeq_setObj (k v : Nat) (n0 : Nat) : getSeq (setObj s k v) n0 = getSeq s n0 := rfl
@[simp] theorem coreState_setObj (k v : Nat) (p0 : Nat) : coreState (setObj s k v) p0 = coreState s p0 := rfl
@[simp] theorem classState_setObj (k v : Nat) (c0 : Nat) : classState (setObj s k v) c0 = classState s c0 := rfl
@[simp] theorem getGroup_setObj (k v : Nat) (p0 g0 : Nat) : getGroup (setObj s k v) p0 g0 = getGroup s p0 g0 := rfl
@[simp] theorem getChan_setObj (k v : Nat) (k0 c0 : Nat) : getChan (setObj s k v) k0 c0 = getChan s k0 c0 := rfl
@[simp] theorem getObj_setBytes (k : Nat) (v : List Byte) (k0 : Nat) : getObj (setBytes s k v) k0 = getObj s k0 := rfl
@[simp] theorem getPos_setBytes (k : Nat) (v : List Byte) (p0 : Nat) : getPos (setBytes s k v) p0 = getPos s p0 := rfl
@[simp] theorem getSlot_setBytes (k : Nat) (v : List Byte) (n0 : Nat) : getSlot (setBytes s k v) n0 = getSlot s n0 := rfl
@[simp] theorem getCounter_setBytes (k : Nat) (v : List Byte) (c0 : Nat) : getCounter (setBytes s k v) c0 = getCounter s c0 := rfl
@[simp] theorem getSlice_setBytes (k : Nat) (v : List Byte) (g0 : Nat) : getSlice (setBytes s k v) g0 = getSlice s g0 := rfl
@[simp] theorem getLink_setBytes (k : Nat) (v : List Byte) (l0 : Nat) : getLink (setBytes s k v) l0 = getLink s l0 := rfl
@[simp] theorem getSeq_setBytes (k : Nat) (v : List Byte) (n0 : Nat) : getSeq (setBytes s k v) n0 = getSeq s n0 := rfl
@[simp] theorem coreState_setBytes (k : Nat) (v : List Byte) (p0 : Nat) : coreState (setBytes s k v) p0 = coreState s p0 := rfl
@[simp] theorem classState_setBytes (k : Nat) (v : List Byte) (c0 : Nat) : classState (setBytes s k v) c0 = classState s c0 := rfl
@[simp] theorem getGroup_setBytes (k : Nat) (v : List Byte) (p0 g0 : Nat) : getGroup (setBytes s k v) p0 g0 = getGroup s p0 g0 := rfl
@[simp] theorem getChan_setBytes (k : Nat) (v : List Byte) (k0 c0 : Nat) : getChan (setBytes s k v) k0 c0 = getChan s k0 c0 := rfl
@[simp] theorem getObj_setPos (p : Nat) (c : Pos) (k0 : Nat) : getObj (setPos s p c) k0 = getObj s k0 := rfl
@[simp] theorem getBytes_setPos (p : Nat) (c : Pos) (k0 : Nat) : getBytes (setPos s p c) k0 = getBytes s k0 := rfl
@[simp] theorem getSlot_setPos (p : Nat) (c : Pos) (n0 : Nat) : getSlot (setPos s p c) n0 = getSlot s n0 := rfl
@[simp] theorem getCounter_setPos (p : Nat) (c : Pos) (c0 : Nat) : getCounter (setPos s p c) c0 = getCounter s c0 := rfl
@[simp] theorem getSlice_setPos (p : Nat) (c : Pos) (g0 : Nat) : getSlice (setPos s p c) g0 = getSlice s g0 := rfl
@[simp] theorem getLink_setPos (p : Nat) (c : Pos) (l0 : Nat) : getLink (setPos s p c) l0 = getLink s l0 := rfl
@[simp] theorem getSeq_setPos (p : Nat) (c : Pos) (n0 : Nat) : getSeq (setPos s p c) n0 = getSeq s n0 := rfl
@[simp] theorem coreState_setPos (p : Nat) (c : Pos) (p0 : Nat) : coreState (setPos s p c) p0 = coreState s p0 := rfl
@[simp] theorem classState_setPos (p : Nat) (c : Pos) (c0 : Nat) : classState (setPos s p c) c0 = classState s c0 := rfl
@[simp] theorem getChan_setPos (p : Nat) (c : Pos) (k0 c0 : Nat) : getChan (setPos s p c) k0 c0 = getChan s k0 c0 := rfl
@[simp] theorem getObj_setGroup (p g : Nat) (x : Option Group) (k0 : Nat) : getObj (setGroup s p g x) k0 = getObj s k0 := rfl
@[simp] theorem getBytes_setGroup (p g : Nat) (x : Option Group) (k0 : Nat) : getBytes (setGroup s p g x) k0 = getBytes s k0 := rfl
@[simp] theorem getSlot_setGroup (p g : Nat) (x : Option Group) (n0 : Nat) : getSlot (setGroup s p g x) n0 = getSlot s n0 := rfl
@[simp] theorem getCounter_setGroup (p g : Nat) (x : Option Group) (c0 : Nat) : getCounter (setGroup s p g x) c0 = getCounter s c0 := rfl
@[simp] theorem getSlice_setGroup (p g : Nat) (x : Option Group) (g0 : Nat) : getSlice (setGroup s p g x) g0 = getSlice s g0 := rfl
@[simp] theorem getLink_setGroup (p g : Nat) (x : Option Group) (l0 : Nat) : getLink (setGroup s p g x) l0 = getLink s l0 := rfl
@[simp] theorem getSeq_setGroup (p g : Nat) (x : Option Group) (n0 : Nat) : getSeq (setGroup s p g x) n0 = getSeq s n0 := rfl
@[simp] theorem coreState_setGroup (p g : Nat) (x : Option Group) (p0 : Nat) : coreState (setGroup s p g x) p0 = coreState s p0 := rfl
@[simp] theorem classState_setGroup (p g : Nat) (x : Option Group) (c0 : Nat) : classState (setGroup s p g x) c0 = classState s c0 := rfl
@[simp] theorem getChan_setGroup (p g : Nat) (x : Option Group) (k0 c0 : Nat) : getChan (setGroup s p g x) k0 c0 = getChan s k0 c0 := rfl
@[simp] theorem getObj_setSlot (n : Nat) (x : Option Slot) (k0 : Nat) : getObj (setSlot s n x) k0 = getObj s k0 := rfl
@[simp] theorem getBytes_setSlot (n : Nat) (x : Option Slot) (k0 : Nat) : getBytes (setSlot s n x) k0 = getBytes s k0 := rfl
@[simp] theorem getPos_setSlot (n : Nat) (x : Option Slot) (p0 : Nat) : getPos (setSlot s n x) p0 = getPos s p0 := rfl
@[simp] theorem getCounter_setSlot (n : Nat) (x : Option Slot) (c0 : Nat) : getCounter (setSlot s n x) c0 = getCounter s c0 := rfl
@[simp] theorem getSlice_setSlot (n : Nat) (x : Option Slot) (g0 : Nat) : getSlice (setSlot s n x) g0 = getSlice s g0 := rfl
@[simp] theorem getLink_setSlot (n : Nat) (x : Option Slot) (l0 : Nat) : getLink (setSlot s n x) l0 = getLink s l0 := rfl
@[simp] theorem getSeq_setSlot (n : Nat) (x : Option Slot) (n0 : Nat) : getSeq (setSlot s n x) n0 = getSeq s n0 := rfl
@[simp] theorem coreState_setSlot (n : Nat) (x : Option Slot) (p0 : Nat) : coreState (setSlot s n x) p0 = coreState s p0 := rfl
@[simp] theorem classState_setSlot (n : Nat) (x : Option Slot) (c0 : Nat) : classState (setSlot s n x) c0 = classState s c0 := rfl
@[simp] theorem getGroup_setSlot (n : Nat) (x : Option Slot) (p0 g0 : Nat) : getGroup (setSlot s n x) p0 g0 = getGroup s p0 g0 := rfl
@[simp] theorem getChan_setSlot (n : Nat) (x : Option Slot) (k0 c0 : Nat) : getChan (setSlot s n x) k0 c0 = getChan s k0 c0 := rfl
@[simp] theorem getObj_setCounter (c : Nat) (x : Counter) (k0 : Nat) : getObj (setCounter s c x) k0 = getObj s k0 := rfl
@[simp] theorem getBytes_setCounter (c : Nat) (x : Counter) (k0 : Nat) : getBytes (setCounter s c x) k0 = getBytes s k0 := rfl
@[simp] theorem getPos_setCounter (c : Nat) (x : Counter) (p0 : Nat) : getPos (setCounter s c x) p0 = getPos s p0 := rfl
@[simp] theorem getSlot_setCounter (c : Nat) (x : Counter) (n0 : Nat) : getSlot (setCounter s c x) n0 = getSlot s n0 := rfl
@[simp] theorem getSlice_setCounter (c : Nat) (x : Counter) (g0 : Nat) : getSlice (setCounter s c x) g0 = getSlice s g0 := rfl
@[simp] theorem getLink_setCounter (c : Nat) (x : Counter) (l0 : Nat) : getLink (setCounter s c x) l0 = getLink s l0 := rfl
@[simp] theorem getSeq_setCounter (c : Nat) (x : Counter) (n0 : Nat) : getSeq (setCounter s c x) n0 = getSeq s n0 := rfl
@[simp] theorem coreState_setCounter (c : Nat) (x : Counter) (p0 : Nat) : coreState (setCounter s c x) p0 = coreState s p0 := rfl
@[simp] theorem classState_setCounter (c : Nat) (x : Counter) (c0 : Nat) : classState (setCounter s c x) c0 = classState s c0 := rfl
@[simp] theorem getGroup_setCounter (c : Nat) (x : Counter) (p0 g0 : Nat) : getGroup (setCounter s c x) p0 g0 = getGroup s p0 g0 := rfl
@[simp] theorem getChan_setCounter (c : Nat) (x : Counter) (k0 c0 : Nat) : getChan (setCounter s c x) k0 c0 = getChan s k0 c0 := rfl
@[simp] theorem getObj_setSlice (g : Nat) (x : Slice) (k0 : Nat) : getObj (setSlice s g x) k0 = getObj s k0 := rfl
@[simp] theorem getBytes_setSlice (g : Nat) (x : Slice) (k0 : Nat) : getBytes (setSlice s g x) k0 = getBytes s k0 := rfl
@[simp] theorem getPos_setSlice (g : Nat) (x : Slice) (p0 : Nat) : getPos (setSlice s g x) p0 = getPos s p0 := rfl
@[simp] theorem getSlot_setSlice (g : Nat) (x : Slice) (n0 : Nat) : getSlot (setSlice s g x) n0 = getSlot s n0 := rfl
@[simp] theorem getCounter_setSlice (g : Nat) (x : Slice) (c0 : Nat) : getCounter (setSlice s g x) c0 = getCounter s c0 := rfl
@[simp] theorem getLink_setSlice (g : Nat) (x : Slice) (l0 : Nat) : getLink (setSlice s g x) l0 = getLink s l0 := rfl
@[simp] theorem getSeq_setSlice (g : Nat) (x : Slice) (n0 : Nat) : getSeq (setSlice s g x) n0 = getSeq s n0 := rfl
@[simp] theorem coreState_setSlice (g : Nat) (x : Slice) (p0 : Nat) : coreState (setSlice s g x) p0 = coreState s p0 := rfl
@[simp] theorem classState_setSlice (g : Nat) (x : Slice) (c0 : Nat) : classState (setSlice s g x) c0 = classState s c0 := rfl
@[simp] theorem getGroup_setSlice (g : Nat) (x : Slice) (p0 g0 : Nat) : getGroup (setSlice s g x) p0 g0 = getGroup s p0 g0 := rfl
@[simp] theorem getChan_setSlice (g : Nat) (x : Slice) (k0 c0 : Nat) : getChan (setSlice s g x) k0 c0 = getChan s k0 c0 := rfl
@[simp] theorem getObj_setChan (st ch : Nat) (x : Channel) (k0 : Nat) : getObj (setChan s st ch x) k0 = getObj s k0 := rfl
@[simp] theorem getBytes_setChan (st ch : Nat) (x : Channel) (k0 : Nat) : getBytes (setChan s st ch x) k0 = getBytes s k0 := rfl
@[simp] theorem getPos_setChan (st ch : Nat) (x : Channel) (p0 : Nat) : getPos (setChan s st ch x) p0 = getPos s p0 := rfl
@[simp] theorem getSlot_setChan (st ch : Nat) (x : Channel) (n0 : Nat) : getSlot (setChan s st ch x) n0 = getSlot s n0 := rfl
@[simp] theorem getCounter_setChan (st ch : Nat) (x : Channel) (c0 : Nat) : getCounter (setChan s st ch x) c0 = getCounter s c0 := rfl
@[simp] theorem getSlice_setChan (st ch : Nat) (x : Channel) (g0 : Nat) : getSlice (setChan s st ch x) g0 = getSlice s g0 := rfl
@[simp] theorem getLink_setChan (st ch : Nat) (x : Channel) (l0 : Nat) : getLink (setChan s st ch x) l0 = getLink s l0 := rfl
@[simp] theorem getSeq_setChan (st ch : Nat) (x : Channel) (n0 : Nat) : getSeq (setChan s st ch x) n0 = getSeq s n0 := rfl
@[simp] theorem coreState_setChan (st ch : Nat) (x : Channel) (p0 : Nat) : coreState (setChan s st ch x) p0 = coreState s p0 := rfl
@[simp] theorem classState_setChan (st ch : Nat) (x : Channel) (c0 : Nat) : classState (setChan s st ch x) c0 = classState s c0 := rfl
@[simp] theorem getGroup_setChan (st ch : Nat) (x : Channel) (p0 g0 : Nat) : getGroup (setChan s st ch x) p0 g0 = getGroup s p0 g0 := rfl
@[simp] theorem getObj_setLink (l : Nat) (x : Link) (k0 : Nat) : getObj (setLink s l x) k0 = getObj s k0 := rfl
@[simp] theorem getBytes_setLink (l : Nat) (x : Link) (k0 : Nat) : getBytes (setLink s l x) k0 = getBytes s k0 := rfl
@[simp] theorem getPos_setLink (l : Nat) (x : Link) (p0 : Nat) : getPos (setLink s l x) p0 = getPos s p0 := rfl
@[simp] theorem getSlot_setLink (l : Nat) (x : Link) (n0 : Nat) : getSlot (setLink s l x) n0 = getSlot s n0 := rfl
@[simp] theorem getCounter_setLink (l : Nat) (x : Link) (c0 : Nat) : getCounter (setLink s l x) c0 = getCounter s c0 := rfl
@[simp] theorem getSlice_setLink (l : Nat) (x : Link) (g0 : Nat) : getSlice (setLink s l x) g0 = getSlice s g0 := rfl
@[simp] theorem getSeq_setLink (l : Nat) (x : Link) (n0 : Nat) : getSeq (setLink s l x) n0 = getSeq s n0 := rfl
@[simp] theorem coreState_setLink (l : Nat) (x : Link) (p0 : Nat) : coreState (setLink s l x) p0 = coreState s p0 := rfl
@[simp] theorem classState_setLink (l : Nat) (x : Link) (c0 : Nat) : classState (setLink s l x) c0 = classState s c0 := rfl
@[simp] theorem getGroup_setLink (l : Nat) (x : Link) (p0 g0 : Nat) : getGroup (setLink s l x) p0 g0 = getGroup s p0 g0 := rfl
@[simp] theorem getChan_setLink (l : Nat) (x : Link) (k0 c0 : Nat) : getChan (setLink s l x) k0 c0 = getChan s k0 c0 := rfl
@[simp] theorem getObj_setSeq (n : Nat) (x : Option Seqn) (k0 : Nat) : getObj (setSeq s n x) k0 = getObj s k0 := rfl
@[simp] theorem getBytes_setSeq (n : Nat) (x : Option Seqn) (k0 : Nat) : getBytes (setSeq s n x) k0 = getBytes s k0 := rfl
@[simp] theorem getPos_setSeq (n : Nat) (x : Option Seqn) (p0 : Nat) : getPos (setSeq s n x) p0 = getPos s p0 := rfl
@[simp] theorem getSlot_setSeq (n : Nat) (x : Option Seqn) (n0 : Nat) : getSlot (setSeq s n x) n0 = getSlot s n0 := rfl
@[simp] theorem getCounter_setSeq (n : Nat) (x : Option Seqn) (c0 : Nat) : getCounter (setSeq s n x) c0 = getCounter s c0 := rfl
@[simp] theorem getSlice_setSeq (n : Nat) (x : Option Seqn) (g0 : Nat) : getSlice (setSeq s n x) g0 = getSlice s g0 := rfl
@[simp] theorem getLink_setSeq (n : Nat) (x : Option Seqn) (l0 : Nat) : getLink (setSeq s n x) l0 = getLink s l0 := rfl
@[simp] theorem coreState_setSeq (n : Nat) (x : Option Seqn) (p0 : Nat) : coreState (setSeq s n x) p0 = coreState s p0 := rfl
@[simp] theorem classState_setSeq (n : Nat) (x : Option Seqn) (c0 : Nat) : classState (setSeq s n x) c0 = classState s c0 := rfl
@[simp] theorem getGroup_setSeq (n : Nat) (x : Option Seqn) (p0 g0 : Nat) : getGroup (setSeq s n x) p0 g0 = getGroup s p0 g0 := rfl
@[simp] theorem getChan_setSeq (n : Nat) (x : Option Seqn) (k0 c0 : Nat) : getChan (setSeq s n x) k0 c0 = getChan s k0 c0 := rfl
@[simp] theorem getObj_setCoreState (p v : Nat) (k0 : Nat) : getObj (setCoreState s p v) k0 = getObj s k0 := rfl
@[simp] theorem getBytes_setCoreState (p v : Nat) (k0 : Nat) : getBytes (setCoreState s p v) k0 = getBytes s k0 := rfl
@[simp] theorem getPos_setCoreState (p v : Nat) (p0 : Nat) : getPos (setCoreState s p v) p0 = getPos s p0 := rfl
@[simp] theorem getSlot_setCoreState (p v : Nat) (n0 : Nat) : getSlot (setCoreState s p v) n0 = getSlot s n0 := rfl
@[simp] theorem getCounter_setCoreState (p v : Nat) (c0 : Nat) : getCounter (setCoreState s p v) c0 = getCounter s c0 := rfl
@[simp] theorem getSlice_setCoreState (p v : Nat) (g0 : Nat) : getSlice (setCoreState s p v) g0 = getSlice s g0 := rfl
@[simp] theorem getLink_setCoreState (p v : Nat) (l0 : Nat) : getLink (setCoreState s p v) l0 = getLink s l0 := rfl
@[simp] theorem getSeq_setCoreState (p v : Nat) (n0 : Nat) : getSeq (setCoreState s p v) n0 = getSeq s n0 := rfl
@[simp] theorem classState_setCoreState (p v : Nat) (c0 : Nat) : classState (setCoreState s p v) c0 = classState s c0 := rfl
@[simp] theorem getGroup_setCoreState (p v : Nat) (p0 g0 : Nat) : getGroup (setCoreState s p v) p0 g0 = getGroup s p0 g0 := rfl
@[simp] theorem getChan_setCoreState (p v : Nat) (k0 c0 : Nat) : getChan (setCoreState s p v) k0 c0 = getChan s k0 c0 := rfl
@[simp] theorem getObj_setClassState (c v : Nat) (k0 : Nat) : getObj (setClassState s c v) k0 = getObj s k0 := rfl
@[simp] theorem getBytes_setClassState (c v : Nat) (k0 : Nat) : getBytes (setClassState s c v) k0 = getBytes s k0 := rfl
@[simp] theorem getPos_setClassState (c v : Nat) (p0 : Nat) : getPos (setClassState s c v) p0 = getPos s p0 := rfl
@[simp] theorem getSlot_setClassState (c v : Nat) (n0 : Nat) : getSlot (setClassState s c v) n0 = getSlot s n0 := rfl
@[simp] theorem getCounter_setClassState (c v : Nat) (c0 : Nat) : getCounter (setClassState s c v) c0 = getCounter s c0 := rfl
@[simp] theorem getSlice_setClassState (c v : Nat) (g0 : Nat) : getSlice (setClassState s c v) g0 = getSlice s g0 := rfl
@[simp] theorem getLink_setClassState (c v : Nat) (l0 : Nat) : getLink (setClassState s c v) l0 = getLink s l0 := rfl
@[simp] theorem getSeq_setClassState (c v : Nat) (n0 : Nat) : getSeq (setClassState s c v) n0 = getSeq s n0 := rfl
@[simp] theorem coreState_setClassState (c v : Nat) (p0 : Nat) : coreState (setClassState s c v) p0 = coreState s p0 := rfl
@[simp] theorem getGroup_setClassState (c v : Nat) (p0 g0 : Nat) : getGroup (setClassState s c v) p0 g0 = getGroup s p0 g0 := rfl
@[simp] theorem getChan_setClassState (c v : Nat) (k0 c0 : Nat) : getChan (setClassState s c v) k0 c0 = getChan s k0 c0 := rfl
@[simp] theorem getObj_storeObj (k v : Nat) (k0 : Nat) : getObj (storeObj s k v) k0 = getObj s k0 := rfl
@[simp] theorem getBytes_storeObj (k v : Nat) (k0 : Nat) : getBytes (storeObj s k v) k0 = getBytes s k0 := rfl
@[simp] theorem getPos_storeObj (k v : Nat) (p0 : Nat) : getPos (storeObj s k v) p0 = getPos s p0 := rfl
@[simp] theorem getSlot_storeObj (k v : Nat) (n0 : Nat) : getSlot (storeObj s k v) n0 = getSlot s n0 := rfl
@[simp] theorem getCounter_storeObj (k v : Nat) (c0 : Nat) : getCounter (storeObj s k v) c0 = getCounter s c0 := rfl
@[simp] theorem getSlice_storeObj (k v : Nat) (g0 : Nat) : getSlice (storeObj s k v) g0 = getSlice s g0 := rfl
@[simp] theorem getLink_storeObj (k v : Nat) (l0 : Nat) : getLink (storeObj s k v) l0 = getLink s l0 := rfl
@[simp] theorem getSeq_storeObj (k v : Nat) (n0 : Nat) : getSeq (storeObj s k v) n0 = getSeq s n0 := rfl
@[simp] theorem coreState_storeObj (k v : Nat) (p0 : Nat) : coreState (storeObj s k v) p0 = coreState s p0 := rfl
@[simp] theorem classState_storeObj (k v : Nat) (c0 : Nat) : classState (storeObj s k v) c0 = classState s c0 := rfl
@[simp] theorem getGroup_storeObj (k v : Nat) (p0 g0 : Nat) : getGroup (storeObj s k v) p0 g0 = getGroup s p0 g0 := rfl
@[simp] theorem getChan_storeObj (k v : Nat) (k0 c0 : Nat) : getChan (storeObj s k v) k0 c0 = getChan s k0 c0 := rfl
@[simp] theorem getBytes_bump (k n : Nat) (k0 : Nat) : getBytes (bump s k n) k0 = getBytes s k0 := rfl
@[simp] theorem getPos_bump (k n : Nat) (p0 : Nat) : getPos (bump s k n) p0 = getPos s p0 := rfl
@[simp] theorem getSlot_bump (k n : Nat) (n0 : Nat) : getSlot (bump s k n) n0 = getSlot s n0 := rfl
@[simp] theorem getCounter_bump (k n : Nat) (c0 : Nat) : getCounter (bump s k n) c0 = getCounter s c0 := rfl
@[simp] theorem getSlice_bump (k n : Nat) (g0 : Nat) : getSlice (bump s k n) g0 = getSlice s g0 := rfl
@[simp] theorem getLink_bump (k n : Nat) (l0 : Nat) : getLink (bump s k n) l0 = getLink s l0 := rfl
@[simp] theorem getSeq_bump (k n : Nat) (n0 : Nat) : getSeq (bump s k n) n0 = getSeq s n0 := rfl
@[simp] theorem coreState_bump (k n : Nat) (p0 : Nat) : coreState (bump s k n) p0 = coreState s p0 := rfl
@[simp] theorem classState_bump (k n : Nat) (c0 : Nat) : classState (bump s k n) c0 = classState s c0 := rfl
@[simp] theorem getGroup_bump (k n : Nat) (p0 g0 : Nat) : getGroup (bump s k n) p0 g0 = getGroup s p0 g0 := rfl
@[simp] theorem getChan_bump (k n : Nat) (k0 c0 : Nat) : getChan (bump s k n) k0 c0 = getChan s k0 c0 := rfl

end Sys2Proof.Machine
end

