-- ==== Sys2Proof/Laws/Ops.lean ====
section
/-! SUPPORT. What the shared operations can do, said once: events and error records touch only what the Keeper logs and
the outputs; a fault of a task touches besides them its slot's `ending` and `faults` and its groups' `ended`. -/

namespace Sys2Proof.Machine

variable (s : State)

/-- The states differ at most in the Keeper's counters, its event ring and the outputs. -/
def Logged (s t : State) : Prop :=
  ∃ o r q a u, t = { s with out := u, keeper := { s.keeper with obj := o, ring := r, eventSeq := q, sentAt := a } }

theorem Logged.refl : Logged s s := ⟨_, _, _, _, _, rfl⟩

theorem Logged.trans {s t u : State} (h : Logged s t) (k : Logged t u) : Logged s u := by
  obtain ⟨_, _, _, _, _, rfl⟩ := h
  obtain ⟨_, _, _, _, _, rfl⟩ := k
  exact ⟨_, _, _, _, _, rfl⟩

theorem logged_setObj (k v : Nat) : Logged s (setObj s k v) := ⟨_, _, _, _, _, rfl⟩
theorem logged_bump (k n : Nat) : Logged s (bump s k n) := ⟨_, _, _, _, _, rfl⟩
theorem logged_emit (o : Out) : Logged s (emit s o) := ⟨_, _, _, _, _, rfl⟩
theorem logged_countCode (c : Nat) : Logged s (countCode s c) := (logged_bump s _ _).trans (logged_setObj _ _ _)

theorem logged_pushEvent (e : Event) (b : Bool) : Logged s (pushEvent s e b) := by
  unfold pushEvent
  dsimp only
  split
  · exact ⟨_, _, _, _, _, rfl⟩
  · split <;> exact ⟨_, _, _, _, _, rfl⟩

/-- An error record changes only counters, the event ring and the outputs (R464, R465). -/
theorem logged_raise (r : ErrRec) : Logged s (raise s r) :=
  ((logged_bump s _ _).trans (logged_countCode _ _)).trans (logged_pushEvent _ _ _)

theorem logged_raiseUnit (c v : Nat) (o : EvOrigin) (u : Nat) (ns : List Nat) : Logged s (raiseUnit s c v o u ns) :=
  logged_raise _ _

theorem logged_raiseTask (n : Nat) (r : ErrRec) : Logged s (raiseTask s n r) := by
  unfold raiseTask
  split <;> exact logged_raise _ _

/-- The ring holds at most 1,024 events after an event is pushed (R372). -/
theorem pushEvent_ring (e : Event) (b : Bool) : (pushEvent s e b).keeper.ring.length ≤ 1024 := by
  unfold pushEvent
  dsimp only
  split
  · simp only [bump, setObj, emit, List.length_take]; omega
  · split <;> simp only [bump, setObj, List.length_take] <;> omega

/-- What a logged change leaves alone. -/
theorem Logged.rest {s t : State} (h : Logged s t) :
    t.pending = s.pending ∧ t.free = s.free ∧ t.time = s.time ∧ t.boot = s.boot ∧ t.flash = s.flash ∧ t.power = s.power ∧
    t.fountain = s.fountain ∧ t.cores = s.cores ∧ t.cistern = s.cistern ∧ t.reservoir = s.reservoir ∧ t.sluice = s.sluice ∧
    t.links = s.links ∧ t.pool = s.pool ∧ t.port = s.port ∧
    { t.keeper with obj := [], ring := [], eventSeq := 0, sentAt := [] } =
      { s.keeper with obj := [], ring := [], eventSeq := 0, sentAt := [] } := by
  obtain ⟨_, _, _, _, _, rfl⟩ := h
  simp

/-- A change of a slot changes only that slot, and only where it holds a record. -/
theorem getSlot_modSlot (n m : Nat) (f : Slot → Slot) :
    getSlot (modSlot s n f) m = if m = n then (getSlot s n).map f else getSlot s m := by
  unfold modSlot
  split
  · rename_i h
    split
    · rename_i hm; rw [hm, h]; rfl
    · rfl
  · rename_i sl h
    split
    · rename_i hm; simp [hm, h]
    · rename_i hm; exact getSlot_setSlot_ne _ _ _ _ hm

/-- A change of a slot touches nothing but the slots. -/
theorem modSlot_eq (n : Nat) (f : Slot → Slot) :
    ∃ m, modSlot s n f = { s with fountain := { s.fountain with slots := m } } := by
  unfold modSlot
  split
  · exact ⟨_, rfl⟩
  · exact ⟨_, rfl⟩

/-- Ending a task's groups marks its resident groups, and nothing else. -/
theorem getPos_endGroups (n p : Nat) :
    getPos (endGroups s n) p =
      { getPos s p with groups := (getPos s p).groups.map (fun e =>
          (e.1, e.2.map (fun g => if g.slot = n then { g with ended := true } else g))) } := by
  unfold getPos endGroups
  dsimp only
  induction s.cores with
  | nil => rfl
  | cons c m ih =>
    obtain ⟨k, c⟩ := c
    simp only [List.map_cons, mapGet]
    split
    · rfl
    · exact ih

theorem mapGet_map_groups (n g : Nat) (m : Sparse (Option Group)) :
    mapGet none (m.map (fun e => (e.1, e.2.map (fun g => if g.slot = n then { g with ended := true } else g)))) g =
      (mapGet none m g).map (fun g => if g.slot = n then { g with ended := true } else g) := by
  induction m with
  | nil => rfl
  | cons e m ih =>
    obtain ⟨k, x⟩ := e
    simp only [List.map_cons, mapGet]
    split
    · rfl
    · exact ih

theorem getGroup_endGroups (n p g : Nat) :
    getGroup (endGroups s n) p g = (getGroup s p g).map (fun x => if x.slot = n then { x with ended := true } else x) := by
  unfold getGroup
  rw [getPos_endGroups, mapGet_map_groups]

end Sys2Proof.Machine
end

