-- ==== Sys2Proof/Laws/Lanes.lean ====
section
/-! SUPPORT. What issuing an instruction of a group can do, said once. -/

namespace Sys2Proof.Machine

theorem opcode_of_word (op : Nat) (w : InstrBits) : (op * 2 ^ 56 + w.toNat) / 2 ^ 56 = op := by
  have := w.isLt
  omega

/-- Where nothing stops the instruction, issuing it runs it (R107). -/
theorem issue_runs {s : State} {p g op : Nat} {w : InstrBits} {f : Form} {c : Ctx} (run : Ctx → State → State)
    (h : Issues s p g op w f c) (ho : opcodes.contains op = true) : issue p g op w f run s = run c s := by
  obtain ⟨h1, h2, h3, h4, h5⟩ := h
  unfold issue
  rw [h1]
  dsimp only
  rw [h2]
  dsimp only
  rw [opcode_of_word, ho, h3, h4, h5]
  simp

/-! ### Registers of the executing lanes -/

theorem mem_lanesOf (m : LaneMask) (l : Nat) : l ∈ lanesOf m ↔ l < 32 ∧ m.getLsbD l = true := by
  simp [lanesOf]

theorem getReg_setReg (gr : Group) (r l v k j : Nat) (hl : l < 32) (hj : j < 32) :
    getReg (setReg gr r l v) k j = if k = r ∧ r ≠ 255 ∧ j = l then v % 2 ^ 32 else getReg gr k j := by
  unfold getReg setReg
  by_cases hr : r = 255
  · subst hr; simp
  · simp only [if_neg hr]
    by_cases hk : k = 255
    · subst hk
      have : ¬(255 = r) := fun e => hr e.symm
      simp [this]
    · simp only [if_neg hk]
      rw [mapGet_mapSet]
      by_cases he : k * 32 + j = r * 32 + l
      · have h1 : k = r := by omega
        have h2 : j = l := by omega
        simp [h1, h2, hr]
      · have : ¬(k = r ∧ r ≠ 255 ∧ j = l) := by rintro ⟨a, _, b⟩; exact he (by rw [a, b])
        simp [he, this]

theorem setReg_rest (gr : Group) (r l v : Nat) : (setReg gr r l v).rest = gr.rest := by
  unfold setReg; split <;> rfl

theorem setReg_other (gr : Group) (r l v : Nat) :
    (setReg gr r l v).preds = gr.preds ∧ (setReg gr r l v).paths = gr.paths ∧ (setReg gr r l v).splits = gr.splits ∧
    (setReg gr r l v).ended = gr.ended := by
  unfold setReg; split <;> exact ⟨rfl, rfl, rfl, rfl⟩

/-- The registers after a write in each lane of a list without repeats. -/
theorem getReg_foldl (ls : List Nat) (gr : Group) (r : Nat) (f : Nat → Nat) (k j : Nat) (hj : j < 32)
    (hl : ∀ l ∈ ls, l < 32) :
    getReg (ls.foldl (fun g l => setReg g r l (f l)) gr) k j =
      if k = r ∧ r ≠ 255 ∧ j ∈ ls then f j % 2 ^ 32 else getReg gr k j := by
  induction ls generalizing gr with
  | nil => simp
  | cons l ls ih =>
    simp only [List.foldl_cons]
    rw [ih _ (fun x hx => hl x (List.mem_cons_of_mem _ hx)), getReg_setReg _ _ _ _ _ _ (hl l List.mem_cons_self) hj]
    by_cases h1 : k = r ∧ r ≠ 255
    · obtain ⟨h1, h2⟩ := h1
      by_cases h3 : j ∈ ls
      · simp [h1, h2, h3]
      · by_cases h4 : j = l
        · subst h4; simp [h1, h2, h3]
        · simp [h1, h2, h3, h4]
    · have a : ¬(k = r ∧ r ≠ 255 ∧ j ∈ ls) := fun x => h1 ⟨x.1, x.2.1⟩
      have b : ¬(k = r ∧ r ≠ 255 ∧ j = l) := fun x => h1 ⟨x.1, x.2.1⟩
      have d : ¬(k = r ∧ r ≠ 255 ∧ j ∈ l :: ls) := fun x => h1 ⟨x.1, x.2.1⟩
      rw [if_neg a, if_neg b, if_neg d]

theorem setRegs_rest (ls : List Nat) (gr : Group) (r : Nat) (f : Nat → Nat) :
    let g1 := ls.foldl (fun g l => setReg g r l (f l)) gr
    g1.rest = gr.rest ∧ g1.preds = gr.preds ∧ g1.paths = gr.paths ∧ g1.splits = gr.splits ∧ g1.ended = gr.ended := by
  induction ls generalizing gr with
  | nil => exact ⟨rfl, rfl, rfl, rfl, rfl⟩
  | cons l ls ih =>
    obtain ⟨h1, h2, h3, h4, h5⟩ := ih (setReg gr r l (f l))
    obtain ⟨k2, k3, k4, k5⟩ := setReg_other gr r l (f l)
    exact ⟨h1.trans (setReg_rest _ _ _ _), h2.trans k2, h3.trans k3, h4.trans k4, h5.trans k5⟩

/-- What `writeLanes` writes: DST of the executing lanes (R105, R106). -/
theorem getReg_writeLanes (c : Ctx) (r : Nat) (f : Nat → Nat) (k j : Nat) (hj : j < 32) :
    getReg (writeLanes c r f) k j = if k = r ∧ r ≠ 255 ∧ c.ex.getLsbD j = true then f j % 2 ^ 32 else getReg c.gr k j := by
  unfold writeLanes
  rw [getReg_foldl _ _ _ _ _ _ hj (fun l h => ((mem_lanesOf _ _).1 h).1)]
  simp [mem_lanesOf, hj]

theorem writeLanes_rest (c : Ctx) (r : Nat) (f : Nat → Nat) :
    (writeLanes c r f).rest = c.gr.rest ∧ (writeLanes c r f).preds = c.gr.preds ∧ (writeLanes c r f).paths = c.gr.paths ∧
      (writeLanes c r f).splits = c.gr.splits ∧ (writeLanes c r f).ended = c.gr.ended := setRegs_rest _ _ _ _

theorem getPred_setPred (gr : Group) (r l : Nat) (v : Bool) (k j : Nat) (hl : l < 32) (hj : j < 32) :
    getPred (setPred gr r l v) k j = if k = r ∧ r ≠ 7 ∧ j = l then v else getPred gr k j := by
  unfold getPred setPred
  by_cases hr : r = 7
  · subst hr; simp
  · simp only [if_neg hr]
    by_cases hk : k = 7
    · subst hk
      have : ¬(7 = r) := fun e => hr e.symm
      simp [this]
    · simp only [if_neg hk]
      rw [mapGet_mapSet]
      by_cases he : k * 32 + j = r * 32 + l
      · have h1 : k = r := by omega
        have h2 : j = l := by omega
        simp [h1, h2, hr]
      · have : ¬(k = r ∧ r ≠ 7 ∧ j = l) := by rintro ⟨a, _, b⟩; exact he (by rw [a, b])
        simp [he, this]

theorem setPred_other (gr : Group) (r l : Nat) (v : Bool) :
    (setPred gr r l v).rest = gr.rest ∧ (setPred gr r l v).gpr = gr.gpr ∧ (setPred gr r l v).paths = gr.paths ∧
    (setPred gr r l v).splits = gr.splits ∧ (setPred gr r l v).ended = gr.ended := by
  unfold setPred; split <;> exact ⟨rfl, rfl, rfl, rfl, rfl⟩

theorem getPred_foldl (ls : List Nat) (gr : Group) (r : Nat) (f : Nat → Bool) (k j : Nat) (hj : j < 32)
    (hl : ∀ l ∈ ls, l < 32) :
    getPred (ls.foldl (fun g l => setPred g r l (f l)) gr) k j =
      if k = r ∧ r ≠ 7 ∧ j ∈ ls then f j else getPred gr k j := by
  induction ls generalizing gr with
  | nil => simp
  | cons l ls ih =>
    simp only [List.foldl_cons]
    rw [ih _ (fun x hx => hl x (List.mem_cons_of_mem _ hx)), getPred_setPred _ _ _ _ _ _ (hl l List.mem_cons_self) hj]
    by_cases h1 : k = r ∧ r ≠ 7
    · obtain ⟨h1, h2⟩ := h1
      by_cases h3 : j ∈ ls
      · simp [h1, h2, h3]
      · by_cases h4 : j = l
        · subst h4; simp [h1, h2, h3]
        · simp [h1, h2, h3, h4]
    · have a : ¬(k = r ∧ r ≠ 7 ∧ j ∈ ls) := fun x => h1 ⟨x.1, x.2.1⟩
      have b : ¬(k = r ∧ r ≠ 7 ∧ j = l) := fun x => h1 ⟨x.1, x.2.1⟩
      have d : ¬(k = r ∧ r ≠ 7 ∧ j ∈ l :: ls) := fun x => h1 ⟨x.1, x.2.1⟩
      rw [if_neg a, if_neg b, if_neg d]

theorem setPreds_rest (ls : List Nat) (gr : Group) (r : Nat) (f : Nat → Bool) :
    let g1 := ls.foldl (fun g l => setPred g r l (f l)) gr
    g1.rest = gr.rest ∧ g1.gpr = gr.gpr ∧ g1.paths = gr.paths ∧ g1.splits = gr.splits ∧ g1.ended = gr.ended := by
  induction ls generalizing gr with
  | nil => exact ⟨rfl, rfl, rfl, rfl, rfl⟩
  | cons l ls ih =>
    obtain ⟨h1, h2, h3, h4, h5⟩ := ih (setPred gr r l (f l))
    obtain ⟨k1, k2, k3, k4, k5⟩ := setPred_other gr r l (f l)
    exact ⟨h1.trans k1, h2.trans k2, h3.trans k3, h4.trans k4, h5.trans k5⟩

/-- What `writePreds` writes: the destination predicate of the executing lanes (R105, R116). -/
theorem getPred_writePreds (c : Ctx) (r : Nat) (f : Nat → Bool) (k j : Nat) (hj : j < 32) :
    getPred (writePreds c r f) k j = if k = r ∧ r ≠ 7 ∧ c.ex.getLsbD j = true then f j else getPred c.gr k j := by
  unfold writePreds
  rw [getPred_foldl _ _ _ _ _ _ hj (fun l h => ((mem_lanesOf _ _).1 h).1)]
  simp [mem_lanesOf, hj]

theorem writePreds_rest (c : Ctx) (r : Nat) (f : Nat → Bool) :
    (writePreds c r f).rest = c.gr.rest ∧ (writePreds c r f).gpr = c.gr.gpr ∧ (writePreds c r f).paths = c.gr.paths ∧
      (writePreds c r f).splits = c.gr.splits ∧ (writePreds c r f).ended = c.gr.ended := setPreds_rest _ _ _ _

/-! ### Paths -/

/-- Joining and merging changes only paths and splits. -/
theorem settlePaths_rest (n : Nat) (gr : Group) :
    ∃ qs xs, settlePaths n gr = { gr with paths := qs, splits := xs } := by
  induction n generalizing gr with
  | zero => exact ⟨_, _, rfl⟩
  | succ n ih =>
    unfold settlePaths
    dsimp only
    split
    · exact ⟨_, _, rfl⟩
    · obtain ⟨qs, xs, h⟩ := ih (mergeSplit (joinPaths gr) _)
      exact ⟨qs, xs, by rw [h]; rfl⟩

theorem settleGroup_rest (gr : Group) : ∃ qs xs, settleGroup gr = { gr with paths := qs, splits := xs } :=
  settlePaths_rest _ _

/-! ### Putting a group back -/

theorem setGroup_position (s : State) (p g : Nat) (x : Option Group) (q : Nat) :
    { getPos (setGroup s p g x) q with groups := [] } = { getPos s q with groups := [] } := by
  unfold setGroup
  dsimp only
  by_cases h : q = p
  · subst h; rw [getPos_setPos_same]
  · rw [getPos_setPos_ne _ _ _ _ h]

/-- Replacing a group touches nothing else. -/
theorem setGroup_frame (s : State) (p g n : Nat) (x : Option Group) : CoreFrame s (setGroup s p g x) p g n :=
  { pending := rfl, free := rfl, time := rfl, boot := rfl, flash := rfl, power := rfl, cistern := rfl, reservoir := rfl,
    sluice := rfl, links := rfl, pool := rfl, port := rfl, keeper := rfl, fountain := rfl, slots := fun _ _ => rfl,
    slot := rfl, position := setGroup_position s p g x,
    groups := fun q h hn => Or.inl (getGroup_setGroup_ne s p g q h x hn) }

theorem CoreFrame.trans {s t u : State} {p g n : Nat} (a : CoreFrame s t p g n) (b : CoreFrame t u p g n) :
    CoreFrame s u p g n :=
  { pending := b.pending.trans a.pending, free := b.free.trans a.free, time := b.time.trans a.time,
    boot := b.boot.trans a.boot, flash := b.flash.trans a.flash, power := b.power.trans a.power,
    cistern := b.cistern.trans a.cistern, reservoir := b.reservoir.trans a.reservoir, sluice := b.sluice.trans a.sluice,
    links := b.links.trans a.links, pool := b.pool.trans a.pool, port := b.port.trans a.port,
    keeper := b.keeper.trans a.keeper, fountain := b.fountain.trans a.fountain,
    slots := fun m h => (b.slots m h).trans (a.slots m h), slot := b.slot.trans a.slot,
    position := fun q => (b.position q).trans (a.position q),
    groups := fun q h hn => by
      have x := a.groups q h hn
      have y := b.groups q h hn
      unfold GroupKept at x y ⊢
      rcases y with y | y <;> rcases x with x | x <;> rw [y, x]
      · exact Or.inl rfl
      · exact Or.inr rfl
      · exact Or.inr rfl
      · right
        cases getGroup s q h <;> rfl }

/-- A fault of a task, seen from one of its groups. -/
theorem faultTask_frame (s : State) (p g n : Nat) (r : ErrRec) :
    CoreFrame s (faultTask s n r) p g n ∧
      getGroup (faultTask s n r) p g = (getGroup s p g).map (fun x => if x.slot = n then { x with ended := true } else x) := by
  obtain ⟨a1, a2, a3, a4, a5, a6, a7, a8, a9, a10, a11, a12, a13, a14, a15⟩ := (logged_raiseTask s n r).rest
  unfold faultTask
  dsimp only
  generalize raiseTask s n r = s1 at *
  generalize hf : (fun sl : Slot => _) = f
  have hset : ∀ sl : Slot, (f sl).settled = sl.settled := by intro sl; rw [← hf]; rfl
  obtain ⟨m, hm⟩ := modSlot_eq s1 n f
  have hgg : ∀ q h, getGroup (modSlot s1 n f) q h = getGroup s q h := by
    intro q h; rw [hm]; unfold getGroup getPos; dsimp only; rw [a8]
  have hgp : ∀ q, getPos (modSlot s1 n f) q = getPos s q := by
    intro q; rw [hm]; unfold getPos; dsimp only; rw [a8]
  have hgs : ∀ k, getSlot s1 k = getSlot s k := by intro k; unfold getSlot; rw [a7]
  refine ⟨?_, by rw [getGroup_endGroups, hgg]⟩
  exact
    { pending := by show (modSlot s1 n f).pending = _; rw [hm]; exact a1
      free := by show (modSlot s1 n f).free = _; rw [hm]; exact a2
      time := by show (modSlot s1 n f).time = _; rw [hm]; exact a3
      boot := by show (modSlot s1 n f).boot = _; rw [hm]; exact a4
      flash := by show (modSlot s1 n f).flash = _; rw [hm]; exact a5
      power := by show (modSlot s1 n f).power = _; rw [hm]; exact a6
      cistern := by show (modSlot s1 n f).cistern = _; rw [hm]; exact a9
      reservoir := by show (modSlot s1 n f).reservoir = _; rw [hm]; exact a10
      sluice := by show (modSlot s1 n f).sluice = _; rw [hm]; exact a11
      links := by show (modSlot s1 n f).links = _; rw [hm]; exact a12
      pool := by show (modSlot s1 n f).pool = _; rw [hm]; exact a13
      port := by show (modSlot s1 n f).port = _; rw [hm]; exact a14
      keeper := by show (modSlot s1 n f).keeper.rest = _; rw [hm]; exact a15
      fountain := by
        show ({ (modSlot s1 n f).fountain with slots := [] } : Fountain) = _
        rw [hm, ← a7]
      slots := fun k hk => by
        show getSlot (modSlot s1 n f) k = _
        rw [getSlot_modSlot, if_neg hk, hgs]
      slot := by
        show (getSlot (modSlot s1 n f) n).map Slot.settled = _
        rw [getSlot_modSlot, if_pos rfl, hgs]
        cases getSlot s n with
        | none => rfl
        | some sl => simp [hset]
      position := fun q => by
        rw [getPos_endGroups, hgp]
      groups := fun q h _ => by
        rw [getGroup_endGroups, hgg]
        unfold GroupKept
        cases getGroup s q h with
        | none => exact Or.inl rfl
        | some x =>
          by_cases hx : x.slot = n
          · right; simp [hx]
          · left; simp [hx] }

/-- A change of a slot that a fault, an arrival or a flush makes. -/
theorem modSlot_frame (s : State) (p g n : Nat) (f : Slot → Slot) (hf : ∀ sl, (f sl).settled = sl.settled) :
    CoreFrame s (modSlot s n f) p g n := by
  obtain ⟨m, hm⟩ := modSlot_eq s n f
  have hgg : ∀ q h, getGroup (modSlot s n f) q h = getGroup s q h := by intro q h; rw [hm]; rfl
  exact
    { pending := by rw [hm], free := by rw [hm], time := by rw [hm], boot := by rw [hm], flash := by rw [hm]
      power := by rw [hm], cistern := by rw [hm], reservoir := by rw [hm], sluice := by rw [hm], links := by rw [hm]
      pool := by rw [hm], port := by rw [hm], keeper := by rw [hm], fountain := by rw [hm]
      slots := fun k hk => by rw [getSlot_modSlot, if_neg hk]
      slot := by
        rw [getSlot_modSlot, if_pos rfl]
        cases getSlot s n with
        | none => rfl
        | some sl => simp [hf]
      position := fun q => by rw [hm]; rfl
      groups := fun q h _ => Or.inl (hgg q h) }

/-- A group with a runnable path is no orphan (R86). -/
theorem not_orphaned {gr : Group} (h : ∃ q ∈ gr.paths, q.st = .runnable) : orphaned gr = false := by
  obtain ⟨q, hq, hs⟩ := h
  unfold orphaned
  have : (gr.paths.all (fun q => q.st != .runnable)) = false := by
    rw [List.all_eq_false]
    exact ⟨q, hq, by simp [hs]⟩
  simp [this]

/-- What putting a group back can do: the group is there with its paths settled; where it has none left to run, its task
faults (R87), and where it has wholly arrived at the task-level barrier, its slot notes it (R89). -/
theorem putGroup_spec (s : State) (p g : Nat) (gr0 : Group) :
    ∃ gr, getGroup (putGroup s p g gr0) p g = some gr ∧
      (gr = settleGroup gr0 ∨ gr = { settleGroup gr0 with ended := true }) ∧
      Quiet s (putGroup s p g gr0) gr gr0.slot ∧ CoreFrame s (putGroup s p g gr0) p g gr0.slot := by
  obtain ⟨qs, xs, hset⟩ := settleGroup_rest gr0
  have hslot : (settleGroup gr0).slot = gr0.slot := by rw [hset]
  have h0 := setGroup_frame s p g gr0.slot (some (settleGroup gr0))
  have hg0 : getGroup (setGroup s p g (some (settleGroup gr0))) p g = some (settleGroup gr0) := getGroup_setGroup_same ..
  unfold putGroup
  dsimp only
  split
  · have hm := modSlot_frame (setGroup s p g (some (settleGroup gr0))) p g gr0.slot
      (fun sl => if sl.tbar.contains (settleGroup gr0).index then sl else { sl with tbar := sl.tbar ++ [(settleGroup gr0).index] })
      (by intro sl; split <;> rfl)
    obtain ⟨m, hme⟩ := modSlot_eq (setGroup s p g (some (settleGroup gr0))) gr0.slot
      (fun sl => if sl.tbar.contains (settleGroup gr0).index then sl else { sl with tbar := sl.tbar ++ [(settleGroup gr0).index] })
    rw [hslot]
    refine ⟨settleGroup gr0, ?_, Or.inl rfl, fun _ => ⟨?_, ?_, ?_⟩, h0.trans hm⟩
    · rw [hme]; exact hg0
    · rw [hme]; rfl
    · rw [hme]; rfl
    · rw [getSlot_modSlot, if_pos rfl, getSlot_setGroup]
      cases getSlot s gr0.slot with
      | none => rfl
      | some sl => simp only [Option.map_some]; split <;> rfl
  · split
    · rename_i ho
      rw [Bool.and_eq_true] at ho
      rw [hslot]
      obtain ⟨hf, hgf⟩ := faultTask_frame (setGroup s p g (some (settleGroup gr0))) p g gr0.slot
        { code := Code.barrierOrphan, sev := 2, origin := .core, unit := p, group := (settleGroup gr0).index,
          extra := orphanExtra (settleGroup gr0) }
      rw [hg0] at hgf
      simp only [Option.map_some, hslot, if_true] at hgf
      refine ⟨_, hgf, Or.inr rfl, fun hr => ?_, h0.trans hf⟩
      exact absurd (not_orphaned (gr := settleGroup gr0) hr) (by rw [ho.1]; simp)
    · exact ⟨_, hg0, Or.inl rfl, fun _ => ⟨rfl, rfl, rfl⟩, h0⟩

/-- Where the group has one path and no split, it stays so. -/
theorem settleGroup_single (gr : Group) (q : Path) (hs : gr.splits = []) (hp : gr.paths = [q]) (hl : q.lanes ≠ 0#32) :
    (settleGroup gr).splits = [] ∧ (settleGroup gr).paths = [q] := by
  unfold settleGroup
  rw [hs]
  simp [settlePaths, joinPaths, hs, hp, hl, reconvOf]

/-- An instruction that goes on to the next: what `finishAt` can do. `gr` is the group after the instruction's own effect. -/
theorem finishAt_spec (s : State) (c : Ctx) (gr : Group) (hr : gr.slot = c.gr.slot) (hp : gr.paths = c.gr.paths)
    (hx : gr.splits = c.gr.splits) :
    ∃ g1, getGroup (finishAt c gr s) c.p c.g = some g1 ∧ g1.gpr = gr.gpr ∧ g1.preds = gr.preds ∧ g1.rest = gr.rest ∧
      Advanced c g1 ∧ Quiet s (finishAt c gr s) g1 c.gr.slot ∧ CoreFrame s (finishAt c gr s) c.p c.g c.gr.slot := by
  have hr' : (nextPc c gr).slot = c.gr.slot := hr
  obtain ⟨g1, h1, h2, h3, h4⟩ := putGroup_spec s c.p c.g (nextPc c gr)
  obtain ⟨qs, xs, hset⟩ := settleGroup_rest (nextPc c gr)
  have hadv : ∀ g2, (g2 = settleGroup (nextPc c gr) ∨ g2 = { settleGroup (nextPc c gr) with ended := true }) → Advanced c g2 := by
    intro g2 hg2 a1 a2 a3
    have key := settleGroup_single (nextPc c gr) { c.path with pc := pcPlus c.path.pc 1 } (hx.trans a1)
      (by simp [nextPc, swapPath, hp, a2]) a3
    have hpc : pcPlus c.path.pc 1 = (c.path.pc + 8) % 2 ^ 32 := by
      unfold pcPlus unsigned
      have : ((c.path.pc : Int) + 8 * 1) % ((2 ^ 32 : Nat) : Int) = (((c.path.pc + 8) % 2 ^ 32 : Nat) : Int) := by
        push_cast; rfl
      rw [this]; rfl
    rw [hpc] at key
    rcases hg2 with h | h <;> rw [h] <;> exact key
  rw [hr'] at h3 h4
  refine ⟨g1, h1, ?_, ?_, ?_, hadv g1 h2, h3, h4⟩
  all_goals rcases h2 with h | h <;> rw [h, hset] <;> rfl

theorem getReg_congr {a b : Group} (h : a.gpr = b.gpr) (k l : Nat) : getReg a k l = getReg b k l := by
  unfold getReg; rw [h]

theorem getPred_congr {a b : Group} (h : a.preds = b.preds) (k l : Nat) : getPred a k l = getPred b k l := by
  unfold getPred; rw [h]

theorem rest_slot {a b : Group} (h : a.rest = b.rest) : a.slot = b.slot := (congrArg Group.slot h : a.rest.slot = b.rest.slot)

/-- An instruction that writes a register in each executing lane (R105, R106). -/
theorem runReg_wrote (f : Ctx → Nat → Nat) (v : Nat → BitVec 32) (c : Ctx) (s : State)
    (hv : ∀ l, l < 32 → f c l % 2 ^ 32 = (v l).toNat) : WroteReg s (runReg f c s) c (fDst c.w) v := by
  obtain ⟨h1, h2, h3, h4, _⟩ := writeLanes_rest c (fDst c.w) (f c)
  obtain ⟨gr, k1, k2, k3, k4, k5, k6, k7⟩ := finishAt_spec s c (writeLanes c (fDst c.w) (f c)) (rest_slot h1) h3 h4
  refine ⟨gr, k1, fun k l hl => ?_, fun k l => ?_, k4.trans h1, k5, k6, k7⟩
  · rw [getReg_congr k2, getReg_writeLanes _ _ _ _ _ hl, hv l hl]
  · rw [getPred_congr k3, getPred_congr h2]

/-- An instruction that writes a predicate in each executing lane (R105, R116). -/
theorem runPred_wrote (f : Ctx → Nat → Bool) (v : Nat → Bool) (c : Ctx) (s : State)
    (hv : ∀ l, l < 32 → f c l = v l) : WrotePred s (runPred f c s) c (fDst c.w) v := by
  obtain ⟨h1, h2, h3, h4, _⟩ := writePreds_rest c (fDst c.w) (f c)
  obtain ⟨gr, k1, k2, k3, k4, k5, k6, k7⟩ := finishAt_spec s c (writePreds c (fDst c.w) (f c)) (rest_slot h1) h3 h4
  refine ⟨gr, k1, fun k l hl => ?_, fun k l => ?_, k4.trans h1, k5, k6, k7⟩
  · rw [getPred_congr k3, getPred_writePreds _ _ _ _ _ hl, hv l hl]
  · rw [getReg_congr k2, getReg_congr h2]

/-- A floating-point instruction notes a flush in FLUSHED, and then writes as any other (R174). -/
theorem runFloat_wrote (f : Ctx → Nat → Flushed) (v : Nat → BitVec 32) (c : Ctx) (s : State)
    (hv : ∀ l, l < 32 → (f c l).1 % 2 ^ 32 = (v l).toNat) :
    WroteReg (noteFlush s c.gr.slot ((lanesOf c.ex).any (fun l => (f c l).2))) (runFloat f c s) c (fDst c.w) v :=
  runReg_wrote (fun c l => (f c l).1) v c _ hv

/-- A floating-point comparison notes a flush in FLUSHED, and then writes as any other (R116, R174). -/
theorem runFloatPred_wrote (f : Ctx → Nat → Bool × Bool) (v : Nat → Bool) (c : Ctx) (s : State)
    (hv : ∀ l, l < 32 → (f c l).1 = v l) :
    WrotePred (noteFlush s c.gr.slot ((lanesOf c.ex).any (fun l => (f c l).2))) (runFloatPred f c s) c (fDst c.w) v :=
  runPred_wrote (fun c l => (f c l).1) v c _ hv

end Sys2Proof.Machine
end

