-- ==== Sys2Proof/Laws/Setters.lean ====
section
/-! SUPPORT. What the setters of single units, jobs, pages and memory instructions leave alone, one lemma for each field; and
that sending a request or beginning a job changes the Cistern and the counters of the Sill alone. -/

namespace Sys2Proof.Machine

variable (s : State)

/-! ### setSvc -/

@[simp] theorem setSvc_pending (op : Nat) (v : Svc) : (setSvc s op v).pending = s.pending := rfl
@[simp] theorem setSvc_free (op : Nat) (v : Svc) : (setSvc s op v).free = s.free := rfl
@[simp] theorem setSvc_out (op : Nat) (v : Svc) : (setSvc s op v).out = s.out := rfl
@[simp] theorem setSvc_time (op : Nat) (v : Svc) : (setSvc s op v).time = s.time := rfl
@[simp] theorem setSvc_boot (op : Nat) (v : Svc) : (setSvc s op v).boot = s.boot := rfl
@[simp] theorem setSvc_flash (op : Nat) (v : Svc) : (setSvc s op v).flash = s.flash := rfl
@[simp] theorem setSvc_power (op : Nat) (v : Svc) : (setSvc s op v).power = s.power := rfl
@[simp] theorem setSvc_fountain (op : Nat) (v : Svc) : (setSvc s op v).fountain = s.fountain := rfl
@[simp] theorem setSvc_cores (op : Nat) (v : Svc) : (setSvc s op v).cores = s.cores := rfl
@[simp] theorem setSvc_cistern (op : Nat) (v : Svc) : (setSvc s op v).cistern = s.cistern := rfl
@[simp] theorem setSvc_reservoir (op : Nat) (v : Svc) : (setSvc s op v).reservoir = s.reservoir := rfl
@[simp] theorem setSvc_sluice (op : Nat) (v : Svc) : (setSvc s op v).sluice = s.sluice := rfl
@[simp] theorem setSvc_links (op : Nat) (v : Svc) : (setSvc s op v).links = s.links := rfl
@[simp] theorem setSvc_pool (op : Nat) (v : Svc) : (setSvc s op v).pool = s.pool := rfl
@[simp] theorem setSvc_port (op : Nat) (v : Svc) : (setSvc s op v).port = s.port := rfl

/-! ### setCopy -/

@[simp] theorem setCopy_pending (cc : Nat) (x : CopySlot) : (setCopy s cc x).pending = s.pending := rfl
@[simp] theorem setCopy_free (cc : Nat) (x : CopySlot) : (setCopy s cc x).free = s.free := rfl
@[simp] theorem setCopy_out (cc : Nat) (x : CopySlot) : (setCopy s cc x).out = s.out := rfl
@[simp] theorem setCopy_time (cc : Nat) (x : CopySlot) : (setCopy s cc x).time = s.time := rfl
@[simp] theorem setCopy_boot (cc : Nat) (x : CopySlot) : (setCopy s cc x).boot = s.boot := rfl
@[simp] theorem setCopy_flash (cc : Nat) (x : CopySlot) : (setCopy s cc x).flash = s.flash := rfl
@[simp] theorem setCopy_power (cc : Nat) (x : CopySlot) : (setCopy s cc x).power = s.power := rfl
@[simp] theorem setCopy_keeper (cc : Nat) (x : CopySlot) : (setCopy s cc x).keeper = s.keeper := rfl
@[simp] theorem setCopy_fountain (cc : Nat) (x : CopySlot) : (setCopy s cc x).fountain = s.fountain := rfl
@[simp] theorem setCopy_cores (cc : Nat) (x : CopySlot) : (setCopy s cc x).cores = s.cores := rfl
@[simp] theorem setCopy_cistern (cc : Nat) (x : CopySlot) : (setCopy s cc x).cistern = s.cistern := rfl
@[simp] theorem setCopy_reservoir (cc : Nat) (x : CopySlot) : (setCopy s cc x).reservoir = s.reservoir := rfl
@[simp] theorem setCopy_sluice (cc : Nat) (x : CopySlot) : (setCopy s cc x).sluice = s.sluice := rfl
@[simp] theorem setCopy_links (cc : Nat) (x : CopySlot) : (setCopy s cc x).links = s.links := rfl
@[simp] theorem setCopy_pool (cc : Nat) (x : CopySlot) : (setCopy s cc x).pool = s.pool := rfl

/-! ### setEngine -/

@[simp] theorem setEngine_pending (p unit : Nat) (e : Engine) : (setEngine s p unit e).pending = s.pending := rfl
@[simp] theorem setEngine_free (p unit : Nat) (e : Engine) : (setEngine s p unit e).free = s.free := rfl
@[simp] theorem setEngine_out (p unit : Nat) (e : Engine) : (setEngine s p unit e).out = s.out := rfl
@[simp] theorem setEngine_time (p unit : Nat) (e : Engine) : (setEngine s p unit e).time = s.time := rfl
@[simp] theorem setEngine_boot (p unit : Nat) (e : Engine) : (setEngine s p unit e).boot = s.boot := rfl
@[simp] theorem setEngine_flash (p unit : Nat) (e : Engine) : (setEngine s p unit e).flash = s.flash := rfl
@[simp] theorem setEngine_power (p unit : Nat) (e : Engine) : (setEngine s p unit e).power = s.power := rfl
@[simp] theorem setEngine_keeper (p unit : Nat) (e : Engine) : (setEngine s p unit e).keeper = s.keeper := rfl
@[simp] theorem setEngine_fountain (p unit : Nat) (e : Engine) : (setEngine s p unit e).fountain = s.fountain := rfl
@[simp] theorem setEngine_cistern (p unit : Nat) (e : Engine) : (setEngine s p unit e).cistern = s.cistern := rfl
@[simp] theorem setEngine_reservoir (p unit : Nat) (e : Engine) : (setEngine s p unit e).reservoir = s.reservoir := rfl
@[simp] theorem setEngine_sluice (p unit : Nat) (e : Engine) : (setEngine s p unit e).sluice = s.sluice := rfl
@[simp] theorem setEngine_links (p unit : Nat) (e : Engine) : (setEngine s p unit e).links = s.links := rfl
@[simp] theorem setEngine_pool (p unit : Nat) (e : Engine) : (setEngine s p unit e).pool = s.pool := rfl
@[simp] theorem setEngine_port (p unit : Nat) (e : Engine) : (setEngine s p unit e).port = s.port := rfl

/-! ### setArray -/

@[simp] theorem setArray_pending (p a : Nat) (u : ArrayUnit) : (setArray s p a u).pending = s.pending := rfl
@[simp] theorem setArray_free (p a : Nat) (u : ArrayUnit) : (setArray s p a u).free = s.free := rfl
@[simp] theorem setArray_out (p a : Nat) (u : ArrayUnit) : (setArray s p a u).out = s.out := rfl
@[simp] theorem setArray_time (p a : Nat) (u : ArrayUnit) : (setArray s p a u).time = s.time := rfl
@[simp] theorem setArray_boot (p a : Nat) (u : ArrayUnit) : (setArray s p a u).boot = s.boot := rfl
@[simp] theorem setArray_flash (p a : Nat) (u : ArrayUnit) : (setArray s p a u).flash = s.flash := rfl
@[simp] theorem setArray_power (p a : Nat) (u : ArrayUnit) : (setArray s p a u).power = s.power := rfl
@[simp] theorem setArray_keeper (p a : Nat) (u : ArrayUnit) : (setArray s p a u).keeper = s.keeper := rfl
@[simp] theorem setArray_fountain (p a : Nat) (u : ArrayUnit) : (setArray s p a u).fountain = s.fountain := rfl
@[simp] theorem setArray_cistern (p a : Nat) (u : ArrayUnit) : (setArray s p a u).cistern = s.cistern := rfl
@[simp] theorem setArray_reservoir (p a : Nat) (u : ArrayUnit) : (setArray s p a u).reservoir = s.reservoir := rfl
@[simp] theorem setArray_sluice (p a : Nat) (u : ArrayUnit) : (setArray s p a u).sluice = s.sluice := rfl
@[simp] theorem setArray_links (p a : Nat) (u : ArrayUnit) : (setArray s p a u).links = s.links := rfl
@[simp] theorem setArray_pool (p a : Nat) (u : ArrayUnit) : (setArray s p a u).pool = s.pool := rfl
@[simp] theorem setArray_port (p a : Nat) (u : ArrayUnit) : (setArray s p a u).port = s.port := rfl

/-! ### dropJob -/

@[simp] theorem dropJob_pending (id : Nat) : (dropJob s id).pending = s.pending := rfl
@[simp] theorem dropJob_free (id : Nat) : (dropJob s id).free = s.free := rfl
@[simp] theorem dropJob_out (id : Nat) : (dropJob s id).out = s.out := rfl
@[simp] theorem dropJob_time (id : Nat) : (dropJob s id).time = s.time := rfl
@[simp] theorem dropJob_boot (id : Nat) : (dropJob s id).boot = s.boot := rfl
@[simp] theorem dropJob_flash (id : Nat) : (dropJob s id).flash = s.flash := rfl
@[simp] theorem dropJob_power (id : Nat) : (dropJob s id).power = s.power := rfl
@[simp] theorem dropJob_keeper (id : Nat) : (dropJob s id).keeper = s.keeper := rfl
@[simp] theorem dropJob_fountain (id : Nat) : (dropJob s id).fountain = s.fountain := rfl
@[simp] theorem dropJob_cores (id : Nat) : (dropJob s id).cores = s.cores := rfl
@[simp] theorem dropJob_reservoir (id : Nat) : (dropJob s id).reservoir = s.reservoir := rfl
@[simp] theorem dropJob_sluice (id : Nat) : (dropJob s id).sluice = s.sluice := rfl
@[simp] theorem dropJob_links (id : Nat) : (dropJob s id).links = s.links := rfl
@[simp] theorem dropJob_pool (id : Nat) : (dropJob s id).pool = s.pool := rfl
@[simp] theorem dropJob_port (id : Nat) : (dropJob s id).port = s.port := rfl

/-! ### modJob -/

@[simp] theorem modJob_pending (id : Nat) (f : Job → Job) : (modJob s id f).pending = s.pending := rfl
@[simp] theorem modJob_free (id : Nat) (f : Job → Job) : (modJob s id f).free = s.free := rfl
@[simp] theorem modJob_out (id : Nat) (f : Job → Job) : (modJob s id f).out = s.out := rfl
@[simp] theorem modJob_time (id : Nat) (f : Job → Job) : (modJob s id f).time = s.time := rfl
@[simp] theorem modJob_boot (id : Nat) (f : Job → Job) : (modJob s id f).boot = s.boot := rfl
@[simp] theorem modJob_flash (id : Nat) (f : Job → Job) : (modJob s id f).flash = s.flash := rfl
@[simp] theorem modJob_power (id : Nat) (f : Job → Job) : (modJob s id f).power = s.power := rfl
@[simp] theorem modJob_keeper (id : Nat) (f : Job → Job) : (modJob s id f).keeper = s.keeper := rfl
@[simp] theorem modJob_fountain (id : Nat) (f : Job → Job) : (modJob s id f).fountain = s.fountain := rfl
@[simp] theorem modJob_cores (id : Nat) (f : Job → Job) : (modJob s id f).cores = s.cores := rfl
@[simp] theorem modJob_reservoir (id : Nat) (f : Job → Job) : (modJob s id f).reservoir = s.reservoir := rfl
@[simp] theorem modJob_sluice (id : Nat) (f : Job → Job) : (modJob s id f).sluice = s.sluice := rfl
@[simp] theorem modJob_links (id : Nat) (f : Job → Job) : (modJob s id f).links = s.links := rfl
@[simp] theorem modJob_pool (id : Nat) (f : Job → Job) : (modJob s id f).pool = s.pool := rfl
@[simp] theorem modJob_port (id : Nat) (f : Job → Job) : (modJob s id f).port = s.port := rfl

/-! ### modFetch -/

@[simp] theorem modFetch_pending (g id : Nat) (f : Fetch → Fetch) : (modFetch s g id f).pending = s.pending := rfl
@[simp] theorem modFetch_free (g id : Nat) (f : Fetch → Fetch) : (modFetch s g id f).free = s.free := rfl
@[simp] theorem modFetch_out (g id : Nat) (f : Fetch → Fetch) : (modFetch s g id f).out = s.out := rfl
@[simp] theorem modFetch_time (g id : Nat) (f : Fetch → Fetch) : (modFetch s g id f).time = s.time := rfl
@[simp] theorem modFetch_boot (g id : Nat) (f : Fetch → Fetch) : (modFetch s g id f).boot = s.boot := rfl
@[simp] theorem modFetch_flash (g id : Nat) (f : Fetch → Fetch) : (modFetch s g id f).flash = s.flash := rfl
@[simp] theorem modFetch_power (g id : Nat) (f : Fetch → Fetch) : (modFetch s g id f).power = s.power := rfl
@[simp] theorem modFetch_keeper (g id : Nat) (f : Fetch → Fetch) : (modFetch s g id f).keeper = s.keeper := rfl
@[simp] theorem modFetch_fountain (g id : Nat) (f : Fetch → Fetch) : (modFetch s g id f).fountain = s.fountain := rfl
@[simp] theorem modFetch_cores (g id : Nat) (f : Fetch → Fetch) : (modFetch s g id f).cores = s.cores := rfl
@[simp] theorem modFetch_reservoir (g id : Nat) (f : Fetch → Fetch) : (modFetch s g id f).reservoir = s.reservoir := rfl
@[simp] theorem modFetch_sluice (g id : Nat) (f : Fetch → Fetch) : (modFetch s g id f).sluice = s.sluice := rfl
@[simp] theorem modFetch_links (g id : Nat) (f : Fetch → Fetch) : (modFetch s g id f).links = s.links := rfl
@[simp] theorem modFetch_pool (g id : Nat) (f : Fetch → Fetch) : (modFetch s g id f).pool = s.pool := rfl
@[simp] theorem modFetch_port (g id : Nat) (f : Fetch → Fetch) : (modFetch s g id f).port = s.port := rfl

/-! ### modSlot -/

@[simp] theorem modSlot_pending (n : Nat) (f : Slot → Slot) : (modSlot s n f).pending = s.pending := by unfold modSlot; split <;> rfl
@[simp] theorem modSlot_free (n : Nat) (f : Slot → Slot) : (modSlot s n f).free = s.free := by unfold modSlot; split <;> rfl
@[simp] theorem modSlot_out (n : Nat) (f : Slot → Slot) : (modSlot s n f).out = s.out := by unfold modSlot; split <;> rfl
@[simp] theorem modSlot_time (n : Nat) (f : Slot → Slot) : (modSlot s n f).time = s.time := by unfold modSlot; split <;> rfl
@[simp] theorem modSlot_boot (n : Nat) (f : Slot → Slot) : (modSlot s n f).boot = s.boot := by unfold modSlot; split <;> rfl
@[simp] theorem modSlot_flash (n : Nat) (f : Slot → Slot) : (modSlot s n f).flash = s.flash := by unfold modSlot; split <;> rfl
@[simp] theorem modSlot_power (n : Nat) (f : Slot → Slot) : (modSlot s n f).power = s.power := by unfold modSlot; split <;> rfl
@[simp] theorem modSlot_keeper (n : Nat) (f : Slot → Slot) : (modSlot s n f).keeper = s.keeper := by unfold modSlot; split <;> rfl
@[simp] theorem modSlot_cores (n : Nat) (f : Slot → Slot) : (modSlot s n f).cores = s.cores := by unfold modSlot; split <;> rfl
@[simp] theorem modSlot_cistern (n : Nat) (f : Slot → Slot) : (modSlot s n f).cistern = s.cistern := by unfold modSlot; split <;> rfl
@[simp] theorem modSlot_reservoir (n : Nat) (f : Slot → Slot) : (modSlot s n f).reservoir = s.reservoir := by unfold modSlot; split <;> rfl
@[simp] theorem modSlot_sluice (n : Nat) (f : Slot → Slot) : (modSlot s n f).sluice = s.sluice := by unfold modSlot; split <;> rfl
@[simp] theorem modSlot_links (n : Nat) (f : Slot → Slot) : (modSlot s n f).links = s.links := by unfold modSlot; split <;> rfl
@[simp] theorem modSlot_pool (n : Nat) (f : Slot → Slot) : (modSlot s n f).pool = s.pool := by unfold modSlot; split <;> rfl
@[simp] theorem modSlot_port (n : Nat) (f : Slot → Slot) : (modSlot s n f).port = s.port := by unfold modSlot; split <;> rfl

/-! ### modPage -/

@[simp] theorem modPage_pending (n page : Nat) (f : Page → Page) : (modPage s n page f).pending = s.pending := by unfold modPage; split <;> rfl
@[simp] theorem modPage_free (n page : Nat) (f : Page → Page) : (modPage s n page f).free = s.free := by unfold modPage; split <;> rfl
@[simp] theorem modPage_out (n page : Nat) (f : Page → Page) : (modPage s n page f).out = s.out := by unfold modPage; split <;> rfl
@[simp] theorem modPage_time (n page : Nat) (f : Page → Page) : (modPage s n page f).time = s.time := by unfold modPage; split <;> rfl
@[simp] theorem modPage_boot (n page : Nat) (f : Page → Page) : (modPage s n page f).boot = s.boot := by unfold modPage; split <;> rfl
@[simp] theorem modPage_flash (n page : Nat) (f : Page → Page) : (modPage s n page f).flash = s.flash := by unfold modPage; split <;> rfl
@[simp] theorem modPage_power (n page : Nat) (f : Page → Page) : (modPage s n page f).power = s.power := by unfold modPage; split <;> rfl
@[simp] theorem modPage_keeper (n page : Nat) (f : Page → Page) : (modPage s n page f).keeper = s.keeper := by unfold modPage; split <;> rfl
@[simp] theorem modPage_fountain (n page : Nat) (f : Page → Page) : (modPage s n page f).fountain = s.fountain := by unfold modPage; split <;> rfl
@[simp] theorem modPage_cores (n page : Nat) (f : Page → Page) : (modPage s n page f).cores = s.cores := by unfold modPage; split <;> rfl
@[simp] theorem modPage_cistern (n page : Nat) (f : Page → Page) : (modPage s n page f).cistern = s.cistern := by unfold modPage; split <;> rfl
@[simp] theorem modPage_reservoir (n page : Nat) (f : Page → Page) : (modPage s n page f).reservoir = s.reservoir := by unfold modPage; split <;> rfl
@[simp] theorem modPage_links (n page : Nat) (f : Page → Page) : (modPage s n page f).links = s.links := by unfold modPage; split <;> rfl
@[simp] theorem modPage_pool (n page : Nat) (f : Page → Page) : (modPage s n page f).pool = s.pool := by unfold modPage; split <;> rfl
@[simp] theorem modPage_port (n page : Nat) (f : Page → Page) : (modPage s n page f).port = s.port := by unfold modPage; split <;> rfl

/-! ### putMem -/

@[simp] theorem putMem_pending (p g : Nat) (m : MemOp) : (putMem s p g m).pending = s.pending := by unfold putMem; split <;> rfl
@[simp] theorem putMem_free (p g : Nat) (m : MemOp) : (putMem s p g m).free = s.free := by unfold putMem; split <;> rfl
@[simp] theorem putMem_out (p g : Nat) (m : MemOp) : (putMem s p g m).out = s.out := by unfold putMem; split <;> rfl
@[simp] theorem putMem_time (p g : Nat) (m : MemOp) : (putMem s p g m).time = s.time := by unfold putMem; split <;> rfl
@[simp] theorem putMem_boot (p g : Nat) (m : MemOp) : (putMem s p g m).boot = s.boot := by unfold putMem; split <;> rfl
@[simp] theorem putMem_flash (p g : Nat) (m : MemOp) : (putMem s p g m).flash = s.flash := by unfold putMem; split <;> rfl
@[simp] theorem putMem_power (p g : Nat) (m : MemOp) : (putMem s p g m).power = s.power := by unfold putMem; split <;> rfl
@[simp] theorem putMem_keeper (p g : Nat) (m : MemOp) : (putMem s p g m).keeper = s.keeper := by unfold putMem; split <;> rfl
@[simp] theorem putMem_fountain (p g : Nat) (m : MemOp) : (putMem s p g m).fountain = s.fountain := by unfold putMem; split <;> rfl
@[simp] theorem putMem_cistern (p g : Nat) (m : MemOp) : (putMem s p g m).cistern = s.cistern := by unfold putMem; split <;> rfl
@[simp] theorem putMem_reservoir (p g : Nat) (m : MemOp) : (putMem s p g m).reservoir = s.reservoir := by unfold putMem; split <;> rfl
@[simp] theorem putMem_sluice (p g : Nat) (m : MemOp) : (putMem s p g m).sluice = s.sluice := by unfold putMem; split <;> rfl
@[simp] theorem putMem_links (p g : Nat) (m : MemOp) : (putMem s p g m).links = s.links := by unfold putMem; split <;> rfl
@[simp] theorem putMem_pool (p g : Nat) (m : MemOp) : (putMem s p g m).pool = s.pool := by unfold putMem; split <;> rfl
@[simp] theorem putMem_port (p g : Nat) (m : MemOp) : (putMem s p g m).port = s.port := by unfold putMem; split <;> rfl

/-! ### dropMem -/

@[simp] theorem dropMem_pending (p g id : Nat) : (dropMem s p g id).pending = s.pending := by unfold dropMem; split <;> rfl
@[simp] theorem dropMem_free (p g id : Nat) : (dropMem s p g id).free = s.free := by unfold dropMem; split <;> rfl
@[simp] theorem dropMem_out (p g id : Nat) : (dropMem s p g id).out = s.out := by unfold dropMem; split <;> rfl
@[simp] theorem dropMem_time (p g id : Nat) : (dropMem s p g id).time = s.time := by unfold dropMem; split <;> rfl
@[simp] theorem dropMem_boot (p g id : Nat) : (dropMem s p g id).boot = s.boot := by unfold dropMem; split <;> rfl
@[simp] theorem dropMem_flash (p g id : Nat) : (dropMem s p g id).flash = s.flash := by unfold dropMem; split <;> rfl
@[simp] theorem dropMem_power (p g id : Nat) : (dropMem s p g id).power = s.power := by unfold dropMem; split <;> rfl
@[simp] theorem dropMem_keeper (p g id : Nat) : (dropMem s p g id).keeper = s.keeper := by unfold dropMem; split <;> rfl
@[simp] theorem dropMem_fountain (p g id : Nat) : (dropMem s p g id).fountain = s.fountain := by unfold dropMem; split <;> rfl
@[simp] theorem dropMem_cistern (p g id : Nat) : (dropMem s p g id).cistern = s.cistern := by unfold dropMem; split <;> rfl
@[simp] theorem dropMem_reservoir (p g id : Nat) : (dropMem s p g id).reservoir = s.reservoir := by unfold dropMem; split <;> rfl
@[simp] theorem dropMem_sluice (p g id : Nat) : (dropMem s p g id).sluice = s.sluice := by unfold dropMem; split <;> rfl
@[simp] theorem dropMem_links (p g id : Nat) : (dropMem s p g id).links = s.links := by unfold dropMem; split <;> rfl
@[simp] theorem dropMem_pool (p g id : Nat) : (dropMem s p g id).pool = s.pool := by unfold dropMem; split <;> rfl
@[simp] theorem dropMem_port (p g id : Nat) : (dropMem s p g id).port = s.port := by unfold dropMem; split <;> rfl

/-! ### Requests and jobs -/

/-- A request sent to its home slice, or onto the Sill, changes the Cistern and the counters of the Sill. -/
theorem sendReq_rest (r : Req) : { sendReq s r with cistern := s.cistern, keeper := s.keeper } = s := by
  unfold sendReq
  dsimp only
  split
  · rfl
  · unfold sillSend
    dsimp only
    split <;> rfl

/-- A job that begins changes the Cistern and the counters of the Sill. -/
theorem startJob_rest (half port cls wtag : Nat) (who : JobFor) (pre : List Served) (ops : List (Nat × ReqOp)) :
    { startJob s half port cls wtag who pre ops with cistern := s.cistern, keeper := s.keeper } = s := by
  have h : ∀ (xs : List (Nat × ReqOp)) (t : State) (id : Nat), { t with cistern := s.cistern, keeper := s.keeper } = s →
      { xs.foldl (fun st x => sendReq st { origin := .job half port id, cls := cls, sector := x.1, wtag := wtag, op := x.2 }) t with
        cistern := s.cistern, keeper := s.keeper } = s := by
    intro xs
    induction xs with
    | nil => exact fun _ _ h => h
    | cons x xs ih =>
      intro t id h
      refine ih _ id ?_
      exact (congrArg (fun u : State => { u with cistern := s.cistern, keeper := s.keeper }) (sendReq_rest t _)).trans h
  exact h ops _ _ rfl

@[simp] theorem startJob_pending (half port cls wtag : Nat) (who : JobFor) (pre : List Served) (ops : List (Nat × ReqOp)) :
    (startJob s half port cls wtag who pre ops).pending = s.pending := by
  have h := congrArg State.pending (startJob_rest s half port cls wtag who pre ops)
  exact h
@[simp] theorem startJob_free (half port cls wtag : Nat) (who : JobFor) (pre : List Served) (ops : List (Nat × ReqOp)) :
    (startJob s half port cls wtag who pre ops).free = s.free := by
  have h := congrArg State.free (startJob_rest s half port cls wtag who pre ops)
  exact h
@[simp] theorem startJob_out (half port cls wtag : Nat) (who : JobFor) (pre : List Served) (ops : List (Nat × ReqOp)) :
    (startJob s half port cls wtag who pre ops).out = s.out := by
  have h := congrArg State.out (startJob_rest s half port cls wtag who pre ops)
  exact h
@[simp] theorem startJob_time (half port cls wtag : Nat) (who : JobFor) (pre : List Served) (ops : List (Nat × ReqOp)) :
    (startJob s half port cls wtag who pre ops).time = s.time := by
  have h := congrArg State.time (startJob_rest s half port cls wtag who pre ops)
  exact h
@[simp] theorem startJob_boot (half port cls wtag : Nat) (who : JobFor) (pre : List Served) (ops : List (Nat × ReqOp)) :
    (startJob s half port cls wtag who pre ops).boot = s.boot := by
  have h := congrArg State.boot (startJob_rest s half port cls wtag who pre ops)
  exact h
@[simp] theorem startJob_flash (half port cls wtag : Nat) (who : JobFor) (pre : List Served) (ops : List (Nat × ReqOp)) :
    (startJob s half port cls wtag who pre ops).flash = s.flash := by
  have h := congrArg State.flash (startJob_rest s half port cls wtag who pre ops)
  exact h
@[simp] theorem startJob_power (half port cls wtag : Nat) (who : JobFor) (pre : List Served) (ops : List (Nat × ReqOp)) :
    (startJob s half port cls wtag who pre ops).power = s.power := by
  have h := congrArg State.power (startJob_rest s half port cls wtag who pre ops)
  exact h
@[simp] theorem startJob_fountain (half port cls wtag : Nat) (who : JobFor) (pre : List Served) (ops : List (Nat × ReqOp)) :
    (startJob s half port cls wtag who pre ops).fountain = s.fountain := by
  have h := congrArg State.fountain (startJob_rest s half port cls wtag who pre ops)
  exact h
@[simp] theorem startJob_cores (half port cls wtag : Nat) (who : JobFor) (pre : List Served) (ops : List (Nat × ReqOp)) :
    (startJob s half port cls wtag who pre ops).cores = s.cores := by
  have h := congrArg State.cores (startJob_rest s half port cls wtag who pre ops)
  exact h
@[simp] theorem startJob_reservoir (half port cls wtag : Nat) (who : JobFor) (pre : List Served) (ops : List (Nat × ReqOp)) :
    (startJob s half port cls wtag who pre ops).reservoir = s.reservoir := by
  have h := congrArg State.reservoir (startJob_rest s half port cls wtag who pre ops)
  exact h
@[simp] theorem startJob_sluice (half port cls wtag : Nat) (who : JobFor) (pre : List Served) (ops : List (Nat × ReqOp)) :
    (startJob s half port cls wtag who pre ops).sluice = s.sluice := by
  have h := congrArg State.sluice (startJob_rest s half port cls wtag who pre ops)
  exact h
@[simp] theorem startJob_links (half port cls wtag : Nat) (who : JobFor) (pre : List Served) (ops : List (Nat × ReqOp)) :
    (startJob s half port cls wtag who pre ops).links = s.links := by
  have h := congrArg State.links (startJob_rest s half port cls wtag who pre ops)
  exact h
@[simp] theorem startJob_pool (half port cls wtag : Nat) (who : JobFor) (pre : List Served) (ops : List (Nat × ReqOp)) :
    (startJob s half port cls wtag who pre ops).pool = s.pool := by
  have h := congrArg State.pool (startJob_rest s half port cls wtag who pre ops)
  exact h
@[simp] theorem startJob_port (half port cls wtag : Nat) (who : JobFor) (pre : List Served) (ops : List (Nat × ReqOp)) :
    (startJob s half port cls wtag who pre ops).port = s.port := by
  have h := congrArg State.port (startJob_rest s half port cls wtag who pre ops)
  exact h

end Sys2Proof.Machine
end

