-- ==== Sys2Proof/WellFormed.lean ====
section
/-! DEFINITION. When a command is well formed: every unit that it names is one the device has. A unit that
does not exist holds no state, and an outcome that a row cannot report is taken as good. -/

namespace Sys2Proof

/-- A core position (R13). -/
def okPos (p : Nat) : Bool := decide (p < 544)

/-- A group slot of a core (R72). -/
def okGroup (g : Nat) : Bool := decide (g < 64)

/-- A global slice (R212). -/
def okSlice (g : Nat) : Bool := decide (g < 128)

/-- A matrix array of a core (R131). -/
def okArray (a : Nat) : Bool := decide (a < 4)

/-- A Weir engine: 0 the latent expansion unit, 1 the layout transformer (R188). -/
def okEngine (u : Nat) : Bool := decide (u < 2)

/-- A group barrier (R85). -/
def okBarrier (b : Nat) : Bool := decide (b < 16)

/-- The outcome of a tested word, where no stationary store or latent buffer is read (R454). -/
def okChk (c : Chk) : Bool := c != .stored

/-- A task slot (R28). -/
def okSlot (n : Nat) : Bool := decide (n < 65536)

/-- A Rill link (R19). -/
def okLink (l : Nat) : Bool := decide (l < 36)

/-- A half: 0 west, 1 east (R12). -/
def okHalf (h : Nat) : Bool := decide (h < 2)

/-- A Reservoir stack (R242). -/
def okStack (k : Nat) : Bool := decide (k < 8)

/-- A channel of a stack (R242). -/
def okChannel (c : Nat) : Bool := decide (c < 128)

/-- A sequence (R269). -/
def okSeq (n : Nat) : Bool := decide (n < 131072)

/-- A page of a sequence (R269). -/
def okPage (n : Nat) : Bool := decide (n < 32768)

/-- A device number (R22). -/
def okDevice (d : Nat) : Bool := decide (d < 64)

/-- A coordinate (R22). -/
def okCoord (x : Nat) : Bool := decide (x < 4)

/-- An object key (R353). -/
def okKey (k : Nat) : Bool := decide (k < 2 ^ 32)

/-- An offset of the 64 MiB of BAR2 (R337). -/
def okBar2 (o : Nat) : Bool := decide (o < 0x4000000)

/-- A regulator cluster (R422). -/
def okCluster (k : Nat) : Bool := decide (k < 192)

/-- A module converter phase (R420). -/
def okPhase (k : Nat) : Bool := decide (k < 18)

/-- A rail (R417). -/
def okRail (k : Nat) : Bool := decide (k < 7)

/-- A class (R31). -/
def okClass (c : Nat) : Bool := decide (c < 8)

/-- A BAR0 request channel (R362). -/
def okChan (c : Nat) : Bool := decide (c < 64)

/-- A received frame has 272 bytes (R302). -/
def okFrame (f : List Byte) : Bool := decide (f.length = 272)

/-- The command names only units that the device has.
Log entry 3 (DESIGN CHOICE). -/
def Instr.wellFormed : Instr → Bool
  | .bar2RecordWrite offset _ _ => okBar2 offset
  | .bar2Read _ => true
  | .intakeTake c => okChk c
  | .stagingWindowEntry _ => true
  | .stagingAnswer slot => okSlot slot
  | .deferredRetry => true
  | .sluiceStarved slot => okSlot slot
  | .ageLimitExpiry slot => okSlot slot
  | .groupPlace half => okHalf half
  | .groupExit p g => okPos p && okGroup g
  | .taskRetire slot => okSlot slot
  | .taskFaultSettle slot => okSlot slot
  | .taskTimeout slot => okSlot slot
  | .drainDeadline _ => true
  | .nop p g _ => okPos p && okGroup g
  | .iadd p g _ => okPos p && okGroup g
  | .isub p g _ => okPos p && okGroup g
  | .imul p g _ => okPos p && okGroup g
  | .imulhi p g _ => okPos p && okGroup g
  | .imad p g _ => okPos p && okGroup g
  | .imin p g _ => okPos p && okGroup g
  | .imax p g _ => okPos p && okGroup g
  | .andOp p g _ => okPos p && okGroup g
  | .orOp p g _ => okPos p && okGroup g
  | .xorOp p g _ => okPos p && okGroup g
  | .shl p g _ => okPos p && okGroup g
  | .shr p g _ => okPos p && okGroup g
  | .popc p g _ => okPos p && okGroup g
  | .clz p g _ => okPos p && okGroup g
  | .icmp p g _ => okPos p && okGroup g
  | .sel p g _ => okPos p && okGroup g
  | .mov p g _ => okPos p && okGroup g
  | .movi p g _ => okPos p && okGroup g
  | .plop p g _ => okPos p && okGroup g
  | .shfl p g _ => okPos p && okGroup g
  | .vote p g _ => okPos p && okGroup g
  | .fadd p g _ => okPos p && okGroup g
  | .fmul p g _ => okPos p && okGroup g
  | .ffma p g _ => okPos p && okGroup g
  | .fmin p g _ => okPos p && okGroup g
  | .fmax p g _ => okPos p && okGroup g
  | .fcmp p g _ => okPos p && okGroup g
  | .cvt p g _ => okPos p && okGroup g
  | .ex2 p g _ => okPos p && okGroup g
  | .lg2 p g _ => okPos p && okGroup g
  | .rcp p g _ => okPos p && okGroup g
  | .rsq p g _ => okPos p && okGroup g
  | .iaddi p g _ => okPos p && okGroup g
  | .isubi p g _ => okPos p && okGroup g
  | .imuli p g _ => okPos p && okGroup g
  | .imini p g _ => okPos p && okGroup g
  | .imaxi p g _ => okPos p && okGroup g
  | .andi p g _ => okPos p && okGroup g
  | .ori p g _ => okPos p && okGroup g
  | .xori p g _ => okPos p && okGroup g
  | .shli p g _ => okPos p && okGroup g
  | .shri p g _ => okPos p && okGroup g
  | .icmpi p g _ => okPos p && okGroup g
  | .shfli p g _ => okPos p && okGroup g
  | .faddi p g _ => okPos p && okGroup g
  | .fmuli p g _ => okPos p && okGroup g
  | .fmini p g _ => okPos p && okGroup g
  | .fmaxi p g _ => okPos p && okGroup g
  | .fcmpi p g _ => okPos p && okGroup g
  | .ld p g _ => okPos p && okGroup g
  | .st p g _ => okPos p && okGroup g
  | .atom p g _ => okPos p && okGroup g
  | .red p g _ => okPos p && okGroup g
  | .bra p g _ => okPos p && okGroup g
  | .brx p g _ => okPos p && okGroup g
  | .bar p g _ => okPos p && okGroup g
  | .tbar p g _ => okPos p && okGroup g
  | .exit p g _ => okPos p && okGroup g
  | .cwait p g _ => okPos p && okGroup g
  | .fence p g _ => okPos p && okGroup g
  | .mma p g _ => okPos p && okGroup g
  | .mfrag p g _ => okPos p && okGroup g
  | .weir p g _ => okPos p && okGroup g
  | .spawn p g _ => okPos p && okGroup g
  | .pub p g _ => okPos p && okGroup g
  | .srd p g _ => okPos p && okGroup g
  | .loadDataReturn p g _ c => okPos p && okGroup g && okChk c
  | .writeAcceptance p g _ => okPos p && okGroup g
  | .fetchLineReturn p g c => okPos p && okGroup g && okChk c
  | .barrierRelease p g b => okPos p && okGroup g && okBarrier b
  | .taskBarrierRelease slot => okSlot slot
  | .arrayOpStart p a => okPos p && okArray a
  | .arrayOpComplete p a _ => okPos p && okArray a
  | .mfragWindowStart p a => okPos p && okArray a
  | .mfragComplete p a c => okPos p && okArray a && okChk c
  | .lxuExpand p => okPos p
  | .lytTranspose p => okPos p
  | .lytIngest p => okPos p
  | .weirCommandComplete p unit c => okPos p && okEngine unit && (unit == 0 || okChk c)
  | .pageWalk p _ _ => okPos p
  | .walkerInvalidate seq page => okSeq seq && okPage page
  | .scrubRead p c => okPos p && okChk c
  | .promoteRequest p seq page => okPos p && okSeq seq && okPage page
  | .promotionCopyComplete p => okPos p
  | .sliceIntake g _ c => okSlice g && okChk c
  | .sectorFill g _ _ => okSlice g
  | .reductionApply g c => okSlice g && okChk c
  | .reduceForce g _ => okSlice g
  | .thrashWindowEnd => true
  | .cisternWatchdog g => okSlice g
  | .sillTransfer _ _ => true
  | .pinWaysApply half => okHalf half
  | .poolPagesApply half => okHalf half
  | .reservoirReadRequest g _ => okSlice g
  | .reservoirReadReturn stack ch _ _ => okStack stack && okChannel ch
  | .reservoirWriteRequest g => okSlice g
  | .reservoirWriteDrain stack ch => okStack stack && okChannel ch
  | .refresh stack ch => okStack stack && okChannel ch
  | .channelRetrain stack ch => okStack stack && okChannel ch
  | .demandFault p _ => okPos p
  | .hostLookahead => true
  | .pageInComplete seq page _ => okSeq seq && okPage page
  | .pageoutStart half => okHalf half
  | .pageoutComplete seq page _ => okSeq seq && okPage page
  | .seqRelease w => okKey w.key
  | .seqQuery w => okKey w.key
  | .flitReceive link frame => okLink link && okFrame frame
  | .readPacket link _ => okLink link
  | .writePacket link => okLink link
  | .writeMaskedPacket link => okLink link
  | .atomPacket link => okLink link
  | .postPacket link => okLink link
  | .signalPacket link => okLink link
  | .readDataPacket link => okLink link
  | .writeAckPacket link => okLink link
  | .atomDataPacket link => okLink link
  | .postResultPacket link => okLink link
  | .refusedPacket link => okLink link
  | .redPacket link => okLink link
  | .redMaskedPacket link => okLink link
  | .dictPacket link => okLink link
  | .retryReqPacket link => okLink link
  | .nullPacket link => okLink link
  | .poolAssign link x y z => okLink link && okCoord x && okCoord y && okCoord z
  | .poolJoin device _ _ _ _ => okDevice device
  | .poolFormationDeadline => true
  | .poolStateQuery _ => true
  | .poolLoss a b => okDevice a && okDevice b
  | .poolWithdraw link => okLink link
  | .poolReset device => okDevice device
  | .replayTimeout link => okLink link
  | .linkRetrain cause => okLink cause.link
  | .linkRetrainComplete _ => true
  | .linkDownTimeout link => okLink link
  | .peerTimeout peer _ => okDevice peer
  | .linkEnable w => okKey w.key
  | .poolMembers _ => true
  | .pcieConfigRequest _ => true
  | .hostLinkTrained _ _ _ => true
  | .portReset _ => true
  | .bar4Read _ _ => true
  | .bar4Write _ _ _ => true
  | .bar0DirectRead _ => true
  | .bar0ChannelSubmit chan _ _ _ => okChan chan
  | .bar0InvalidAccess _ _ => true
  | .copyGo w => okKey w.key
  | .hostCopyMoveComplete _ _ => true
  | .spdmGetVersion => true
  | .spdmGetCapabilities => true
  | .spdmNegotiateAlgorithms _ _ => true
  | .spdmGetDigests => true
  | .spdmGetCertificate _ _ _ => true
  | .spdmChallenge _ _ => true
  | .spdmGetMeasurements _ _ _ => true
  | .spdmUnsupportedRequest _ => true
  | .casaroRead _ => true
  | .casaroWrite _ => true
  | .casaroList _ => true
  | .casaroDescribe _ => true
  | .casaroBegin _ => true
  | .casaroPrepare _ => true
  | .casaroCommit _ => true
  | .casaroRollback _ => true
  | .casaroHello _ => true
  | .casaroResend _ => true
  | .dictRelayTimeout _ _ => true
  | .txnTimeout => true
  | .timedCommitInstant => true
  | .objectWrite w => okKey w.key
  | .intakeErrorWrite w => okKey w.key
  | .eventQuery w => okKey w.key
  | .defectQuery w => okKey w.key
  | .coreEnable w => okKey w.key
  | .classEnable w => okKey w.key
  | .minReset w => okKey w.key
  | .snapshot w => okKey w.key
  | .snapshotAt => true
  | .secondsLoad w => okKey w.key
  | .arithClock w => okKey w.key
  | .acceptUntested w => okKey w.key
  | .warmReset w => okKey w.key
  | .cisternReset w => okKey w.key
  | .cisternResetDrainEnd => true
  | .regulationAdmit _ _ cls => okClass cls
  | .svcCancel w => okKey w.key
  | .defectSweep w => okKey w.key
  | .sweepBlockCommit _ => true
  | .spotTest w => okKey w.key
  | .testPackAppend w => okKey w.key
  | .testPackInstall w => okKey w.key
  | .testPackInstallPool w => okKey w.key
  | .testPackRun w => okKey w.key
  | .coreTestComplete _ => true
  | .firmwareUpdate w => okKey w.key
  | .firmwareUpdatePhase => true
  | .licenceLoad w => okKey w.key
  | .failureSignatureExport w => okKey w.key
  | .defectEntryClearing w => okKey w.key
  | .flashStore _ => true
  | .coldStart => true
  | .resetN _ => true
  | .keeperWatchdog => true
  | .stageS0 _ => true
  | .stageS1 _ => true
  | .stageS2 _ _ _ => true
  | .stageS3 _ => true
  | .stageS4 _ => true
  | .stageS5 _ => true
  | .stageS6 _ => true
  | .stageS7 _ => true
  | .stageS8 => true
  | .stageS9 => true
  | .stageS10 => true
  | .thermalRestart => true
  | .inletFault => true
  | .inletRestored => true
  | .presentNRelease => true
  | .housekeepingRound _ => true
  | .regulatorFailed cluster _ => okCluster cluster
  | .converterFailed phase => okPhase phase
  | .senseLost phase => okPhase phase
  | .railFault rail => okRail rail
  | .ppsPulse => true
  | .ppsMissing => true
  | .clockLock _ => true
  | .verticalLaneTest _ _ _ => true
  | .sliceRetired g => okSlice g
  | .smbusInputVoltage => true
  | .smbusInputPower => true
  | .smbusHottest => true
  | .smbusStage => true
  | .smbusThrottleStep => true
  | .smbusSerial => true
  | .smbusStageResult => true
  | .smbusOtherCommand _ => true
  | .channelRetrainComplete stack ch _ => okStack stack && okChannel ch
  | .reservoirWriteBurstComplete stack ch _ => okStack stack && okChannel ch
  | .pcieRefclkReturn _ _ _ => true
  | .spotTestWaitMsExpiry p => okPos p

end Sys2Proof
end

