-- ==== Sys2Proof/Tests/Slice0.lean ====
section
/-! SUPPORT. The author's own tests: for every statement, states and operands that meet its hypotheses, at the ends of their ranges
where a range has ends; one command that is not well formed for each check; and worked examples of the manual. -/

open Sys2Proof Sys2Proof.Machine

namespace Sys2Proof.Tests

-- one theorem after another: each holds a thread of its own otherwise
set_option Elab.async false

theorem test_reset_queue : State.reset.pending = [] := by decide

/-! ### The states the witnesses stand in -/

/-- A device in service with nothing placed on it. -/
def up : State := { State.reset with boot := { State.reset.boot with stage := 10, done := 11, keeperRuns := true } }

/-- A task in state 3 with nothing asked of it. -/
def task : Slot :=
  { words := List.replicate 32 0#64, state := 3, code := 0, flushed := false, replayed := false, progress := 0, spawned := false,
    posted := false, replays := 0, satisfied := none, dispatchable := none, staging := .none, home := 0, nextGroup := 1,
    exited := 0, reserved := [], runStart := 0, ending := none, faults := 0, replayWait := none, silent := false, signalled := false,
    tbar := [], peersWritten := [], peerUser := false, windowUser := false, extends_ := [], retired := [], asked := [], freeing := [], seqList := [] }

/-- A group of 64 registers and 4 KiB of staging memory, all its lanes live on one path at the program's start, with `ws` the
words it has fetched. -/
def warp (ws : List Nat) : Machine.Group :=
  { slot := 0, index := 0, regs := 64, staging := 16, units := List.range 16, stg := [], gpr := [], preds := [], live := 0xFFFFFFFF#32,
    paths := [{ pc := 0, lanes := 0xFFFFFFFF#32, split := 0, rank := 0, st := .runnable }], splits := [], nextSplit := 1,
    nextRank := 1, counters := [], mem := [], hold := .none, spawns := [], pubs := [], tbTimebase := [], tbCycle := [],
    fetched := some (0, ws.map (BitVec.ofNat 64)), ended := false }

/-- The group resident in slot 0 of position 0, its task in slot 0 of the Fountain. -/
def holding (gr : Machine.Group) (sl : Slot) : State :=
  { up with cores := [(0, { Pos.idle with groups := [(0, some gr)] })], fountain := { Fountain.clear with slots := [(0, some sl)] } }

/-- An instruction word of predicate 7, from MOD and the low 48 bits. -/
def word (mod low : Nat) : InstrBits := BitVec.ofNat 56 (7 * 2 ^ 52 + mod * 2 ^ 48 + low)

/-- A group about to issue one instruction. -/
def ready (op : Nat) (w : InstrBits) : State := holding (warp [op * 2 ^ 56 + w.toNat]) task

/-- `Issues`, evaluated, with something more asked of what the instruction issues with. -/
def issuesB (s : State) (p g op : Nat) (w : InstrBits) (f : Form) (more : Ctx → Bool) : Bool :=
  match readyGroup s p g w with
  | none => false
  | some c => fetchedWord (recEntry c.sl.words) c.path.pc c.gr == some (op * 2 ^ 56 + w.toNat) && f.valid &&
      (f.reads ++ f.writes).all (runOk c.gr) && !(readsPending c.gr f) && more c

theorem issues_of {s p g op w f} {P : Ctx → Prop} [DecidablePred P] (h : issuesB s p g op w f (fun c => decide (P c)) = true) :
    ∃ c, Issues s p g op w f c ∧ P c := by
  unfold issuesB at h
  split at h
  · cases h
  · rename_i c hc
    simp only [Bool.and_eq_true, beq_iff_eq, Bool.not_eq_true', decide_eq_true_eq] at h
    exact ⟨c, ⟨hc, h.1.1.1.1, h.1.1.1.2, h.1.1.2, h.1.2⟩, h.2⟩

theorem issues_plain {s p g op w f} (h : issuesB s p g op w f (fun _ => true) = true) : ∃ c, Issues s p g op w f c :=
  (issues_of (P := fun _ => True) (by simpa using h)).imp fun _ x => x.1

/-- The hypotheses of `WriteTaken`, evaluated. -/
def takes (s : State) (w : ObjWrite) (k n : Nat) : Bool :=
  w.key == k && w.val == .num n && w.txn == 0 && netUp s && s.boot.warmWanted.isNone && s.keeper.txn.staged.all (fun e => e.1 != k) &&
    (match objRow k with
     | none => false
     | some r => writeOpen s r k && r.acc != .ro && r.acc != .rwt && valueCode r k (.num n) == 0 && (r.acc != .rwi || deviceIdle s))

theorem takes_taken {s w k n} (h : takes s w k n = true) : WriteTaken s w k n := by
  unfold takes at h
  simp only [Bool.and_eq_true, beq_iff_eq, List.all_eq_true, bne_iff_ne, Option.isNone_iff_eq_none] at h
  obtain ⟨⟨⟨⟨⟨⟨h1, h2⟩, h3⟩, h4⟩, h5⟩, h6⟩, h7⟩ := h
  split at h7
  · cases h7
  · rename_i r hr
    simp only [Bool.and_eq_true, beq_iff_eq, bne_iff_ne, Bool.or_eq_true] at h7
    obtain ⟨⟨⟨⟨a, b⟩, c⟩, d⟩, e⟩ := h7
    exact ⟨h1, h2, h3, h4, h5, h6, r, hr, a, b, c, d, fun x => by simpa [x] using e⟩

/-- A memory instruction outstanding that waits for nothing. -/
def memOp (k : MemKind) (size : Nat) : MemOp :=
  { id := 5, kind := k, dst := 1, size := size, sext := false, ro := false, lanes := [⟨31, 0x40⟩], need := [], got := [], accepted := [],
    sizes := [], noFill := [], localBytes := [], walk := none, pc := 0 }

/-- The state of `ready` with the group changed. -/
def readyWith (op : Nat) (w : InstrBits) (f : Machine.Group → Machine.Group) : State := holding (f (warp [op * 2 ^ 56 + w.toNat])) task

/-- A word of predicate 0, which is true in lane 0 only of a group changed by `lane0`. -/
def word0 (mod low : Nat) : InstrBits := BitVec.ofNat 56 (mod * 2 ^ 48 + low)

def lane0 (gr : Machine.Group) : Machine.Group := { gr with preds := [(0, true)] }

/-- One working stack mapped in each half. -/
def mapped (s : State) : State := { s with reservoir := { s.reservoir with west := [0], east := [8] } }

/-- Program line 0 in the read-only cache. -/
def roLine : RoLine := { line := 0, task := 65536, sectors := List.replicate 4 (some (List.replicate 32 0#8)), use := 0 }

/-- The host's link up, every window assigned and the function decoding memory and mastering the bus. -/
def hosted : State :=
  { up with port := { Port.reset with up := true, assigned := [(0, true), (1, true), (2, true), (3, true), (4, true), (5, true)], command := 6 } }

/-- A record of version 1 with one group of one register, and the same as a control task. -/
def goodRecord : List Word64 := [0#64, BitVec.ofNat 64 (2 ^ 40), 0#64, BitVec.ofNat 64 (2 ^ 24 + 1)] ++ List.replicate 28 0#64

def controlRecord : List Word64 := goodRecord.set 1 (BitVec.ofNat 64 (2 ^ 40 + 2 ^ 34))

/-- Slots of the Fountain, from slot 0. -/
def slotted (s : State) (xs : List Slot) : State :=
  { s with fountain := { s.fountain with slots := xs.zipIdx.map (fun e => (e.2, some e.1)) } }

/-- Elapsed time `n` ns. -/
def at_ (n : Nat) (s : State) : State := { s with time := { s.time with ns := n } }

theorem none_ok {α} {o : Option α} {P : α → Prop} (h : o = none) : ∀ k, o = some k → P k := by simp [h]

theorem some_ok {α} {o : Option α} {P : α → Prop} {v : α} (h : o = some v) (hp : P v) : ∀ k, o = some k → P k := by
  intro k hk; rw [h] at hk; cases hk; exact hp

/-- Position 0 of `holding` changed. -/
def posWith (gr : Machine.Group) (f : Pos → Pos) : State :=
  { holding gr task with cores := [(0, f { Pos.idle with groups := [(0, some gr)] })] }

/-- A sequence of one page in state `st`, ACTIVE, its LENGTH below WRITE_FROM. -/
def seqn (st : PageState) : Seqn :=
  { st := .active, half := 0, length := 0, writeFrom := 1000000, lastStaged := 0, retired := 0,
    pages := [{ st := st, zone := 0, hostPage := none, frame := none, ahead := false }] }

/-- Sequence 0 of a state. -/
def withSeq (q : Seqn) (s : State) : State := { s with sluice := { s.sluice with seqs := [(0, some q)] } }

theorem foldSlice_lt (n : Nat) : foldSlice n < 64 := by
  have b : ∀ h l, h + 1 - l ≤ 6 → bits n h l < 2 ^ 6 := fun h l e =>
    lt_of_lt_of_le (Nat.mod_lt _ (by positivity)) (Nat.pow_le_pow_right (by omega) e)
  exact Nat.xor_lt_two_pow (Nat.xor_lt_two_pow (Nat.xor_lt_two_pow (Nat.xor_lt_two_pow (Nat.xor_lt_two_pow (b 5 0 (by omega)) (b 11 6 (by omega)))
    (b 17 12 (by omega))) (b 23 18 (by omega))) (b 29 24 (by omega))) (b 31 30 (by omega))

theorem ok_of {ε α} {x : Except ε α} (h : x.isOk = true) : ∃ d, x = .ok d := by
  cases x with
  | error _ => cases h
  | ok d => exact ⟨d, rfl⟩

/-- A defect record in flash. -/
def recorded (kind unit : Nat) (s : State) : State :=
  { s with flash := { s.flash with defects := s.flash.defects ++ [⟨defectRecord kind 0 unit 0 0 0 1, true⟩] } }

/-- Slice 127 of a state. -/
def sliced (sl : Slice) (s : State) : State := { s with cistern := { s.cistern with slices := [(127, sl)] } }

/-- A request of class 7 for sector 0, of job 3 of the host. -/
def req (op : ReqOp) : Req := { origin := .job 0 portHost 3, cls := 7, sector := 0, wtag := 9, op := op }

def addOne : ReqOp := .reduce .addI32 false [⟨0, 0, 1, 0⟩]

/-- Line 0 in way 15, with sector 0 as given and the others ABSENT. -/
def lineWith (x : Sector) : Line :=
  { way := 15, tag := 0, sectors := [x, Sector.absent, Sector.absent, Sector.absent], held := [], use := 0, cls := 0 }

/-- An object of the Keeper. -/
def withObj (k v : Nat) (s : State) : State := setObj s k v

/-- Link 35 of a state. -/
def linked (k : Link) (s : State) : State := { s with links := [(35, k)] }

def upLink : Link := { Link.idle with st := .up, peerDev := some 1, peerLink := some 35 }

/-- A waiting task whose waits were met at 0. -/
def waiting (ws : List Word64) : Slot := { task with words := ws, state := 1, satisfied := some 0 }

/-- A Keeper write of a number outside a transaction. -/
def put (k n : Nat) : ObjWrite := { key := k, val := .num n, txn := 0 }

/-- Device 0 of a formed pool of the devices 0 and 1, a packet in the receive buffer of link 35, which leads to device 1. -/
def pooled (s : State) (ps : List Packet) : State :=
  linked { upLink with rx := ps } { s with pool := { Pool.alone with st := .formed, members := 3 } }

/-- A packet of device 1 for device 0. -/
def pkt (ty : PktType) (addr : Nat) (payload : List Byte) : Packet := { bareFlit ty with src := 1, addr := addr, payload := payload, tag := 9 }

/-- A device at stage `n`, running with pool shape 1 at tier 3. -/
def atStage (n : Nat) (s : State) : State := { s with boot := { s.boot with stage := n, done := n, shape := 1, tier := 3 } }

/-- An open transaction of identity 1 with what has been staged in it. -/
def txn (staged : List (Nat × Val)) (s : State) : State :=
  { s with keeper := { s.keeper with txn := { Txn.none with st := .open_, id := 1, staged := staged } } }

/-- A write of a number in that transaction. -/
def wput (k n : Nat) : ObjWrite := { key := k, val := .num n, txn := 1 }

/-- The hypotheses of `WriteStaged`, evaluated. -/
def stages (s : State) (w : ObjWrite) (k n : Nat) : Bool :=
  w.key == k && w.val == .num n && w.txn != 0 && txnCurrent s w.txn && decide (s.keeper.txn.st = .open_) && netUp s && s.boot.warmWanted.isNone &&
    decide (s.keeper.txn.staged.length < 1024) &&
    (match objRow k with
     | none => false
     | some r => writeOpen s r k && r.acc != .ro && valueCode r k (.num n) == 0)

theorem stages_staged {s w k n} (h : stages s w k n = true) : WriteStaged s w k n := by
  unfold stages at h
  simp only [Bool.and_eq_true, beq_iff_eq, bne_iff_ne, Option.isNone_iff_eq_none, decide_eq_true_eq] at h
  obtain ⟨⟨⟨⟨⟨⟨⟨⟨h1, h2⟩, h3⟩, h4⟩, h5⟩, h6⟩, h7⟩, h8⟩, h9⟩ := h
  split at h9
  · cases h9
  · rename_i r hr
    simp only [Bool.and_eq_true, beq_iff_eq, bne_iff_ne] at h9
    exact ⟨h1, h2, h3, h4, h5, h6, h7, Or.inl h8, r, hr, h9.1.1, h9.1.2, h9.2⟩

/-- A request by channel 3 to this device with a transaction identity and a body. -/
def ask (id : Nat) (body : List Byte) : CasReq :=
  { via := .chan 3, hdr := { magic := 0x4341, version := 1, kind := 0, tag := 7, target := 0xFF, code := 0, length := body.length, txn := id,
                             sourceId := 0, timebase := 0 }, body := body }

/-- COMMIT of transaction 1 with INSTANT 0. -/
def commitNow : CasReq := ask 1 (List.replicate 8 0#8)

/-- An object of R480 with R = S = `e`: valid under the key Q where `e` is the digest and the abscissa of G + Q (R481). -/
def signed (kind id ver : Nat) (bound body : List Byte) (e : Nat) : List Byte :=
  leBytes 4 0x4F515347 ++ leBytes 1 1 ++ leBytes 1 kind ++ leBytes 1 id ++ leBytes 1 0 ++ leBytes 4 ver ++ leBytes 4 body.length ++ bound ++ body ++
    beBytes 32 e ++ beBytes 32 e

/-- BOUND_TO of an object for any device, and for a device with no identity record. -/
def anyDevice : List Byte := List.replicate 32 0#8
def noIdentity : List Byte := beBytes 32 0xe3b0c44298fc1c149afbf4c8996fb92427ae41e4649b934ca495991b7852b855

/-- A Keeper image with an empty body. -/
def keeperObj : List Byte := signed 1 0 1 anyDevice [] 0x3d07465d5ea17ec24a20525b2cbd38599281da0a38ad3da4909997e532762ad6

/-- Fountain microcode with an empty body. -/
def fountainObj : List Byte := signed 2 1 2 anyDevice [] 0x75e13570517ab508a0cd49a69bd4893468c42f8b87fc4336a121d9d86172e011

/-- A table of the pair of those two versions. -/
def tableObj : List Byte := signed 3 2 0 anyDevice (leBytes 4 1 ++ leBytes 4 0 ++ leBytes 4 1 ++ leBytes 4 2) 0x5349a021c860a50ceb380003085be4589d2635fd02a9c05619796232a3aef0b9

/-- A test pack with an empty body. -/
def packObj : List Byte := signed 4 3 1 anyDevice [] 0x78915bf0aa49f205b91d3ed5f87c3025f53787eb372fe91a34ea5b97e04d336

/-- A licence of tier 2. -/
def licenceObj : List Byte := signed 5 0 5 noIdentity (leBytes 1 2 ++ leBytes 7 0 ++ leBytes 8 9) 0xb9ea4fa71212184a53ec27e23b864ec1d89bacc07931a5dd195da22e2fc7e9

/-- A token that names the record 0 of `recorded 1 5`. -/
def tokenObj : List Byte := signed 6 1 2 noIdentity (leBytes 8 1 ++ leBytes 4 0 ++ leBytes 4 3698235794) 0xee377af4ffd39cd548d48153f301dec3518bd710ab8f5964819c100818fa44ba

/-- The root keys that make the images, the table and the pack valid; those for the licence and the token. -/
def keysA : List (Nat × Nat) :=
  [(0xf8e87bb93e30ede3535233b332b82a0a8439cb0052e9257c34d30f302b2ed114, 0xfb33fc56fbd8a84a5fcc9ec42c12ef1cb1e454461f2d91a2b4fea35c0b96a68f),
    (0x4fd79f9f526eaae274587eeead22f250bce378d09caa1da50621e8cd5e73d69c, 0xa23fdf4161b28332855f5639ab81f76b87b97dbfbb6b3d1b4128bcadb9416b26),
    (0x4fb736e11767b28e11190a31ac002eb6eb55c9ea37a9c583384dc27d5c6cc811, 0xc5ee59d471cef247e041cce7a36eb00266f1b6d3165cbb68c47948579f5b3b2c),
    (0xe3b3dc39016a3bf3044c91092af75b14d5025a2f2a62e36fb84f5d975e2e95b, 0x5e71bfa9af968b73823e1b5ae3053b8de3e54111ed4da1af208407dc8c6d6386)]

def keysB : List (Nat × Nat) :=
  [(0x75d54dfa90848dc6c7560f0fd50a2f0349710725481ef3e1a171dbf455d5d5f0, 0x5bd55a54e90e0eaf6e19b336b768a7cb7a8f6c5ce47bcd538f4e7a968b566b45),
    (0x960c3cbace3a0cb42841e5a4449d04b739dcf39e0caa73d2bb3ac2336638c94a, 0x305550b17a98339f1804cbea603aa951913d821c08170c1d808cbf441c4c5f4e)]

/-- A device with these root keys. -/
def keyed (ks : List (Nat × Nat)) (s : State) : State := { s with boot := { s.boot with rootKeys := ks } }

theorem packObj_signed : envSigned keysA packObj = true := by decide +kernel

theorem packObj_valid {s : State} (h : s.boot.rootKeys = keysA) : envValid s 4 packObj = true := by
  have a : envShape 4 packObj = true := by decide +kernel
  have b : (envBound packObj == List.replicate 32 0#8) = true := by decide +kernel
  simp only [envValid, h, packObj_signed, a, envBoundOk, b]; rfl

theorem keeperObj_signed : envSigned keysA keeperObj = true := by decide +kernel

theorem keeperObj_valid {s : State} (h : s.boot.rootKeys = keysA) : envValid s 1 keeperObj = true := by
  have a : envShape 1 keeperObj = true := by decide +kernel
  have b : (envBound keeperObj == List.replicate 32 0#8) = true := by decide +kernel
  simp only [envValid, h, keeperObj_signed, a, envBoundOk, b]; rfl

/-- SVC_GO of operation `op`, and its SVC_ARGS. -/
def go (op : Nat) : ObjWrite := put (Key.svcGo (op - 1)) 1

def withArgs (op : Nat) (bs : List Byte) (s : State) : State := setBytes s (Key.svcArgs (op - 1)) bs

/-- `Goes`, evaluated. -/
def goesB (s : State) (op : Nat) : Bool := takes s (go op) (Key.svcGo (op - 1)) 1 && (getSvc s op).state != 3

theorem goes_of {s op} (h : goesB s op = true) : Goes s (go op) op := by
  simp only [goesB, Bool.and_eq_true, bne_iff_ne] at h
  exact ⟨takes_taken h.1, h.2⟩

/-- Operation `op` in state `st`. -/
def svcIn (op st : Nat) (s : State) : State := { s with keeper := { s.keeper with svcs := [(op, { Svc.idle with state := st })] } }

/-- The answers of the home slices of the bytes from address 0. -/
def servedAt0 (e : List Byte) : List Served :=
  (List.range ((e.length + 31) / 32)).map (fun k => { sector := k, data := slice e (32 * k) 32, failed := false, wtag := 0, code := 0 })

/-- A job of the Keeper that reads `e` from address 0, with `left` answers to come. -/
def readJob (who : JobFor) (left : Nat) (e : List Byte) : Job := { id := 3, half := 0, port := portKeeper, cls := 0, who := who, left := left, got := servedAt0 e }

def imageJob (op left : Nat) (e : List Byte) (s : State) : State := { s with cistern := { s.cistern with jobs := [readJob (.image op) left e] } }

theorem licenceObj_signed : envSigned keysB licenceObj = true := by decide +kernel

theorem no_identity : sha256 [] = noIdentity := by decide +kernel

/-- What training finds: four lanes of this error count in this order. -/
def trainAs (order : List Nat) (errors : Nat) : LinkTrain :=
  { link := 35, order := order, lanes := List.replicate 4 { invert := true, precode := false, errors := errors }, aligned := true, peerDevice := 1,
    peerLink := 35, eye := 40 }

/-! ### Lane instructions (R80, R105 to R118, R128, R173 to R175) -/

theorem wit_ExecutingLanes : ∃ w c, readyGroup (ready 1 w) 0 0 w = some c ∧ fPred w = 7 ∧ w.getLsbD 55 = true :=
  ⟨word 0 (2 ^ 55), _, rfl, by decide +kernel, by decide +kernel⟩

theorem lane_rows_issue : ((intRows ++ immRows ++ floatRows ++ floatImmRows ++ sfuRows).all (fun row =>
    [word 0 (2 ^ 40), word 0 (255 * 2 ^ 40)].all (fun w => issuesB (ready row.op w) 0 0 row.op w (row.form w) (fun _ => true)))) = true := by
  decide

/-- Every row of `IntegerLanes`, `ImmediateLanes`, `FloatLanes` and `SpecialFunctions` issues somewhere, with DST 1 and with DST 255. -/
theorem wit_lane_rows : ∀ row ∈ intRows ++ immRows ++ floatRows ++ floatImmRows ++ sfuRows, ∀ w ∈ [word 0 (2 ^ 40), word 0 (255 * 2 ^ 40)],
    ∃ s p g c, Issues s p g row.op w (row.form w) c := by
  intro row hr w hw
  exact ⟨_, _, _, issues_plain (List.all_eq_true.mp (List.all_eq_true.mp lane_rows_issue row hr) w hw)⟩

theorem wit_PredicateLanes : ∃ w, (∃ c, Issues (ready 0x10 w) 0 0 0x10 w (formAPred w (decide (fMod w % 8 ≤ 5))) c) ∧
    (∃ c, Issues (ready 0x50 w) 0 0 0x50 w (formIPred w (decide (fMod w % 8 ≤ 5))) c) ∧
    (∃ c, Issues (ready 0x14 w) 0 0 0x14 w (plopForm w) c) ∧ (∃ c, Issues (ready 0x11 w) 0 0 0x11 w (selForm w) c) :=
  ⟨word 0 (7 * 2 ^ 40), issues_plain (by decide +kernel), issues_plain (by decide +kernel), issues_plain (by decide +kernel), issues_plain (by decide +kernel)⟩

theorem wit_LaneExchange : (∀ w ∈ [word 0 0, word 3 0], ∃ c, Issues (ready 0x15 w) 0 0 0x15 w (formTwo w (modUpTo w 3)) c) ∧
    (∀ w ∈ [word 0 0, word 3 0], ∃ c, Issues (ready 0x55 w) 0 0 0x55 w (formI w (modUpTo w 3)) c) ∧
    (∀ w ∈ [word 0 0, word 1 0, word 2 0], ∃ c, Issues (ready 0x16 w) 0 0 0x16 w (voteForm w) c) := by
  refine ⟨?_, ?_, ?_⟩ <;> simp only [List.forall_mem_cons, List.not_mem_nil, false_implies, implies_true, and_true] <;>
    (refine ⟨?_, ?_⟩ <;> first | exact issues_plain (by decide +kernel) | exact ⟨issues_plain (by decide +kernel), issues_plain (by decide +kernel)⟩)

theorem wit_FloatLanes : ∃ w c, Issues (ready 0x22 w) 0 0 0x22 w (formA w (modUpTo w 3) true true true true) c :=
  ⟨word 3 0, issues_plain (by decide +kernel)⟩

theorem wit_FloatCompareAndConvert : (∃ w c, Issues (ready 0x25 w) 0 0 0x25 w (formAPred w (modUpTo w 6)) c) ∧
    (∃ w c, Issues (ready 0x65 w) 0 0 0x65 w (formIPred w (modUpTo w 6)) c) ∧
    (∃ w c, Issues (ready 0x26 w) 0 0 0x26 w (formOne w (modUpTo w 11)) c) :=
  ⟨⟨word 6 0, issues_plain (by decide +kernel)⟩, ⟨word 6 0, issues_plain (by decide +kernel)⟩, ⟨word 11 0, issues_plain (by decide +kernel)⟩⟩

/-- Arguments under each clause of `SpecialFunctions`: a NaN, 128 and +∞, −∞, below −149, below 0, and ordinary numbers on either
side of the bounds. -/
theorem wit_SpecialFunctions : value32 0x7FC00000#32 = .nan ∧
    (FVal.lt (value32 0x43000000#32) (.fin false 128 0) = false ∧ value32 0x43000000#32 ≠ .nan) ∧ value32 0xFF800000#32 = .inf true ∧
    FVal.lt (value32 0xC3160000#32) (.fin true 149 0) = true ∧ FVal.lt (value32 0xBF800000#32) (.fin false 0 0) = true ∧
    (∃ m e, value32 0x3F800000#32 = .fin false m e ∧ m ≠ 0 ∧ FVal.lt (value32 0x3F800000#32) (.fin false 128 0) = true ∧
      FVal.lt (value32 0x3F800000#32) (.fin true 149 0) = false ∧ FVal.lt (value32 0x3F800000#32) (.fin false 1 (-1)) = false ∧
      FVal.lt (.fin false 2 0) (value32 0x3F800000#32) = false) ∧
    (∃ m e, value32 0x40800000#32 = .fin false m e ∧ m ≠ 0 ∧ FVal.lt (.fin false 2 0) (value32 0x40800000#32) = true) :=
  ⟨by decide +kernel, by decide +kernel, by decide +kernel, by decide +kernel, by decide +kernel, ⟨_, _, rfl, by decide +kernel⟩, ⟨_, _, rfl, by decide +kernel⟩⟩

/-- A word whose reserved bits are not zero, and one that names register 64 of a group of 64. -/
theorem wit_WordsThatFault : ∀ row ∈ intRows ++ immRows ++ floatRows ++ floatImmRows ++ sfuRows, ∃ s p g w,
    (∃ c, readyGroup s p g w = some c ∧ fetchedWord (recEntry c.sl.words) c.path.pc c.gr = some (row.op * 2 ^ 56 + w.toNat) ∧
      (row.form w).valid = true ∧ ((row.form w).reads ++ (row.form w).writes).all (runOk c.gr) = false) := by
  have h : ((intRows ++ immRows ++ floatRows ++ floatImmRows ++ sfuRows).all (fun row =>
      let w := word 0 (64 * 2 ^ 40)
      match readyGroup (ready row.op w) 0 0 w with
      | none => false
      | some c => fetchedWord (recEntry c.sl.words) c.path.pc c.gr == some (row.op * 2 ^ 56 + w.toNat) && (row.form w).valid &&
          !((row.form w).reads ++ (row.form w).writes).all (runOk c.gr))) = true := by decide +kernel
  intro row hr
  have x := List.all_eq_true.mp h row hr
  dsimp only at x
  split at x
  · cases x
  · rename_i c hc
    simp only [Bool.and_eq_true, beq_iff_eq, Bool.not_eq_true'] at x
    exact ⟨_, 0, 0, _, c, hc, x.1.1, x.1.2, x.2⟩

theorem wit_WordsThatFault_invalid : ∃ w c, readyGroup (ready 0x01 w) 0 0 w = some c ∧
    fetchedWord (recEntry c.sl.words) c.path.pc c.gr = some (0x01 * 2 ^ 56 + w.toNat) ∧ (formTwo w (modZero w)).valid = false :=
  ⟨word 1 0, _, rfl, by decide +kernel, by decide +kernel⟩

theorem wit_NopAndSpecialRegisters : (∃ w c, Issues (ready 0x00 w) 0 0 0x00 w (formA w (modZero w) false false false false) c) ∧
    (∃ w c, Issues (ready 0x88 w) 0 0 0x88 w (srdForm w) c ∧ fSreg w ≠ 0x10 ∧ fSreg w ≠ 0x12) ∧
    (∃ w c, Issues (ready 0x88 w) 0 0 0x88 w (srdForm w) c ∧ fSreg w = 0x10) ∧
    (∃ w c, Issues (ready 0x88 w) 0 0 0x88 w (srdForm w) c ∧ fSreg w = 0x12) :=
  ⟨⟨word 0 0, issues_plain (by decide +kernel)⟩, ⟨word 0 0, issues_of (by decide +kernel)⟩, ⟨word 0 (0x10 * 2 ^ 16), issues_of (by decide +kernel)⟩,
    ⟨word 0 (0x12 * 2 ^ 16), issues_of (by decide +kernel)⟩⟩

/-! ### Branches, barriers and waits (R81 to R89, R121 to R124) -/

abbrev braForm (w : InstrBits) : Form := { valid := fMod w == 0, reads := [], writes := [] }

/-- BRA taken by every lane, by none, and by lane 0: with no RECONV, with one and room, with one and a full stack. -/
theorem wit_DirectBranch :
    (∃ w c, Issues (ready 0x38 w) 0 0 0x38 w (braForm w) c ∧ c.path.lanes ≠ 0#32 ∧ c.ex = c.path.lanes) ∧
    (∃ w c, Issues (ready 0x38 w) 0 0 0x38 w (braForm w) c ∧ c.path.lanes ≠ 0#32 ∧ c.ex = 0#32) ∧
    (∃ w c, Issues (readyWith 0x38 w lane0) 0 0 0x38 w (braForm w) c ∧ c.path.lanes ≠ 0#32 ∧ c.ex ≠ c.path.lanes ∧ c.ex ≠ 0#32 ∧
      fTarget w ≠ 1 ∧ fReconv w = 0) ∧
    (∃ w c, Issues (readyWith 0x38 w lane0) 0 0 0x38 w (braForm w) c ∧ c.path.lanes ≠ 0#32 ∧ c.ex ≠ c.path.lanes ∧ c.ex ≠ 0#32 ∧
      fTarget w ≠ 1 ∧ fReconv w ≠ 0 ∧ stackUsed c.gr + 1 ≤ 32) ∧
    (∃ w s c, Issues s 0 0 0x38 w (braForm w) c ∧ c.path.lanes ≠ 0#32 ∧ c.ex ≠ c.path.lanes ∧ c.ex ≠ 0#32 ∧
      fTarget w ≠ 1 ∧ fReconv w ≠ 0 ∧ stackUsed c.gr + 1 > 32) :=
  ⟨⟨word 0 (2 ^ 24), issues_of (by decide +kernel)⟩, ⟨word 0 (2 ^ 55), issues_of (by decide +kernel)⟩, ⟨word0 0 (2 ^ 25), issues_of (by decide +kernel)⟩,
    ⟨word0 0 (2 ^ 25 + 3), issues_of (by decide +kernel)⟩,
    ⟨word0 0 (2 ^ 25 + 3), readyWith 0x38 (word0 0 (2 ^ 25 + 3)) (fun gr => { lane0 gr with splits := [⟨9, 64, 0, 0, 32⟩] }),
      issues_of (by decide +kernel)⟩⟩

/-- BRX: a target that is no multiple of 8, one target, and two. -/
theorem wit_IndirectBranch :
    (∃ w s c, Issues s 0 0 0x39 w (brxForm w) c ∧ c.path.lanes ≠ 0#32 ∧ ∃ l ∈ lanesOf c.ex, getReg c.gr (fSrcA w) l % 8 ≠ 0) ∧
    (∃ w c, Issues (ready 0x39 w) 0 0 0x39 w (brxForm w) c ∧ c.path.lanes ≠ 0#32 ∧ (∀ l ∈ lanesOf c.ex, getReg c.gr (fSrcA w) l % 8 = 0) ∧
      (targetsOf c.path.lanes (fun l => getReg c.gr (fSrcA w) l)).map (·.1) = [0]) ∧
    (∃ w s c, Issues s 0 0 0x39 w (brxForm w) c ∧ c.path.lanes ≠ 0#32 ∧ (∀ l ∈ lanesOf c.ex, getReg c.gr (fSrcA w) l % 8 = 0) ∧
      2 ≤ (targetsOf c.path.lanes (fun l => getReg c.gr (fSrcA w) l)).length ∧ fReconv w = 0) ∧
    (∃ w s c, Issues s 0 0 0x39 w (brxForm w) c ∧ c.path.lanes ≠ 0#32 ∧ (∀ l ∈ lanesOf c.ex, getReg c.gr (fSrcA w) l % 8 = 0) ∧
      2 ≤ (targetsOf c.path.lanes (fun l => getReg c.gr (fSrcA w) l)).length ∧ fReconv w ≠ 0 ∧
      stackUsed c.gr + ((targetsOf c.path.lanes (fun l => getReg c.gr (fSrcA w) l)).length - 1) ≤ 32) ∧
    (∃ w s c, Issues s 0 0 0x39 w (brxForm w) c ∧ c.path.lanes ≠ 0#32 ∧ (∀ l ∈ lanesOf c.ex, getReg c.gr (fSrcA w) l % 8 = 0) ∧
      2 ≤ (targetsOf c.path.lanes (fun l => getReg c.gr (fSrcA w) l)).length ∧ fReconv w ≠ 0 ∧
      stackUsed c.gr + ((targetsOf c.path.lanes (fun l => getReg c.gr (fSrcA w) l)).length - 1) > 32) :=
  let g31 (gr : Machine.Group) : Machine.Group := { gr with gpr := [(31, 8#32)] }
  ⟨⟨word 0 0, readyWith 0x39 (word 0 0) (fun gr => { gr with gpr := [(31, 4#32)] }), issues_of (by decide +kernel)⟩,
    ⟨word 0 0, issues_of (by decide +kernel)⟩, ⟨word 0 0, readyWith 0x39 (word 0 0) g31, issues_of (by decide +kernel)⟩,
    ⟨word 0 2, readyWith 0x39 (word 0 2) g31, issues_of (by decide +kernel)⟩,
    ⟨word 0 2, readyWith 0x39 (word 0 2) (fun gr => { g31 gr with splits := [⟨9, 64, 0, 0, 32⟩] }), issues_of (by decide +kernel)⟩⟩

/-- A split whose two paths stand at its reconvergence point; a stack at its last entry, and full. -/
theorem wit_PathsSplitAndMerge : ∃ gr x a b, gr.splits = [x] ∧ gr.paths = [a, b] ∧ a.split = x.id ∧ b.split = x.id ∧
    a.st = .runnable ∧ b.st = .runnable ∧ a.pc = x.reconv ∧ b.pc = x.reconv ∧ a.lanes ≠ 0#32 ∧ b.lanes ≠ 0#32 ∧ x.outer ≠ x.id ∧
    stackUsed gr + ([(0, [0]), (8, [1])].length - 1) ≤ 32 ∧
    stackUsed { gr with splits := [{ x with entries := 32 }] } + ([(0, [0]), (8, [1])].length - 1) > 32 :=
  ⟨{ warp [] with splits := [⟨1, 64, 0, 0, 31⟩], paths := [⟨64, 1#32, 1, 1, .runnable⟩, ⟨64, 0xFFFFFFFE#32, 1, 2, .runnable⟩] },
    ⟨1, 64, 0, 0, 31⟩, ⟨64, 1#32, 1, 1, .runnable⟩, ⟨64, 0xFFFFFFFE#32, 1, 2, .runnable⟩, by decide +kernel⟩

/-- BAR with every lane, with none, with some of them in room and in none; TBAR with COSCHED and without; EXIT. -/
theorem wit_BarriersAndExit :
    (∃ w c, Issues (ready 0x3A w) 0 0 0x3A w (barrierForm w (decide (fImm8 w ≤ 15))) c ∧ c.ex ≠ 0#32 ∧ c.ex = c.path.lanes ∧ fImm8 w = 15) ∧
    (∃ w c, Issues (ready 0x3A w) 0 0 0x3A w (barrierForm w (decide (fImm8 w ≤ 15))) c ∧ c.ex = 0#32) ∧
    (∃ w c, Issues (readyWith 0x3A w lane0) 0 0 0x3A w (barrierForm w (decide (fImm8 w ≤ 15))) c ∧ c.ex ≠ 0#32 ∧ c.ex ≠ c.path.lanes ∧
      stackUsed c.gr + 1 ≤ 32 ∧ c.gr.splits = [] ∧ c.gr.paths = [c.path] ∧ c.gr.live = c.path.lanes) ∧
    (∃ w s c, Issues s 0 0 0x3A w (barrierForm w (decide (fImm8 w ≤ 15))) c ∧ c.ex ≠ 0#32 ∧ c.ex ≠ c.path.lanes ∧ stackUsed c.gr + 1 > 32) ∧
    (∃ w c, Issues (ready 0x3B w) 0 0 0x3B w (barrierForm w (fImm8 w == 0)) c ∧ c.ex ≠ 0#32 ∧ recCosched c.sl.words = false) ∧
    (∃ w s c, Issues s 0 0 0x3B w (barrierForm w (fImm8 w == 0)) c ∧ recCosched c.sl.words = true) ∧
    (∃ w c, Issues (ready 0x3C w) 0 0 0x3C w (barrierForm w (fImm8 w == 0)) c) :=
  ⟨⟨word 0 (15 * 2 ^ 24), issues_of (by decide +kernel)⟩, ⟨word 0 (2 ^ 55), issues_of (by decide +kernel)⟩, ⟨word0 0 0, issues_of (by decide +kernel)⟩,
    ⟨word0 0 0, readyWith 0x3A (word0 0 0) (fun gr => { lane0 gr with splits := [⟨9, 64, 0, 0, 32⟩] }), issues_of (by decide +kernel)⟩,
    ⟨word 0 0, issues_of (by decide +kernel)⟩,
    ⟨word 0 0, holding (warp [0x3B * 2 ^ 56 + (word 0 0).toNat]) { task with words := [0#64, BitVec.ofNat 64 (2 ^ 33)] }, issues_of (by decide +kernel)⟩,
    ⟨word 0 0, issues_plain (by decide +kernel)⟩⟩

/-- A group all at barrier 15, one with a path that runs, one with a store not accepted; a task all at its barrier, and one not. -/
theorem wit_BarriersRelease :
    (∃ s gr, getGroup s 0 0 = some gr ∧ gr.ended = false ∧ allAt gr (.barrier 15) = true ∧ groupAccepted gr = true) ∧
    (∃ s gr, getGroup s 0 0 = some gr ∧ gr.ended = false ∧ allAt gr (.barrier 15) = false) ∧
    (∃ s gr, getGroup s 0 0 = some gr ∧ gr.ended = false ∧ groupAccepted gr = false) ∧
    (∃ s sl, getSlot s 0 = some sl ∧ sl.ending = none ∧ barrierFull sl = true ∧ TaskStoresAccepted s 0) ∧
    (∃ s sl, getSlot s 0 = some sl ∧ sl.ending = none ∧ barrierFull sl = false) := by
  refine ⟨⟨holding { warp [] with paths := [⟨0, 0xFFFFFFFF#32, 0, 0, .barrier 15⟩] } task, _, rfl, by decide +kernel⟩,
    ⟨holding (warp []) task, _, rfl, by decide +kernel⟩,
    ⟨holding { warp [] with mem := [{ memOp .store 4 with need := [0] }] } task, _, rfl, by decide +kernel⟩,
    ⟨{ up with fountain := { Fountain.clear with slots := [(0, some { task with words := [0#64, 0#64, 0#64, 1#64], tbar := [0] })] } },
      _, rfl, by decide +kernel, by decide +kernel, by decide +kernel, ?_⟩,
    ⟨holding (warp []) { task with words := [0#64, 0#64, 0#64, 1#64] }, _, rfl, by decide +kernel⟩⟩
  intro c hc
  simp [up, State.reset] at hc

/-- CWAIT that waits and that does not; FENCE with a store in flight, and with none. -/
theorem wit_WaitsHoldThePath :
    (∃ w s c, Issues s 0 0 0x3D w { valid := fDst w == 0 && fSrcA w == 0 && fld w 23 0 == 0, reads := [], writes := [] } c ∧
      c.ex ≠ 0#32 ∧ fImm8 w < mapGet 0 c.gr.counters (fMod w)) ∧
    (∃ w c, Issues (ready 0x3D w) 0 0 0x3D w { valid := fDst w == 0 && fSrcA w == 0 && fld w 23 0 == 0, reads := [], writes := [] } c ∧
      mapGet 0 c.gr.counters (fMod w) ≤ fImm8 w) ∧
    (∃ w s c, Issues s 0 0 0x3E w { valid := decide (fMod w ≤ 1) && fld w 47 0 == 0, reads := [], writes := [] } c ∧
      c.ex ≠ 0#32 ∧ ∃ m ∈ unaccepted c.gr, fMod w = 1 ∨ homeAccepted m = false) ∧
    (∃ w c, Issues (ready 0x3E w) 0 0 0x3E w { valid := decide (fMod w ≤ 1) && fld w 47 0 == 0, reads := [], writes := [] } c ∧
      unaccepted c.gr = []) :=
  ⟨⟨word 15 0, readyWith 0x3D (word 15 0) (fun gr => { gr with counters := [(15, 1)] }), issues_of (by decide +kernel)⟩,
    ⟨word 15 0, issues_of (by decide +kernel)⟩,
    ⟨word 1 0, readyWith 0x3E (word 1 0) (fun gr => { gr with mem := [{ memOp .store 4 with need := [2 ^ 60] }] }), issues_of (by decide +kernel)⟩,
    ⟨word 0 0, issues_of (by decide +kernel)⟩⟩

/-! ### Memory instructions (R95 to R98, R119, R120) -/

/-- The low bits of a memory word with the staging alias as its base (SRCA 255), DATA 1, a size and an offset. -/
def stagingBase (size off : Nat) : Nat := 2 ^ 40 + 255 * 2 ^ 32 + size * 2 ^ 21 + off

/-- LD and ST: a misaligned staging address, and an aligned one. -/
theorem wit_LoadsAndStoresIssue :
    (∃ w c, Issues (ready 0x30 w) 0 0 0x30 w (ldForm w) c ∧ c.ex ≠ 0#32 ∧ MemFree (ready 0x30 w) c false (fMod w == 2 || fMod w == 3) ∧ fMod w ≤ 3 ∧
      ∃ l ∈ lanesOf c.ex, laneAddr c l % sizeBytes w ≠ 0) ∧
    (∃ w c, Issues (ready 0x30 w) 0 0 0x30 w (ldForm w) c ∧ c.ex ≠ 0#32 ∧ MemFree (ready 0x30 w) c false (fMod w == 2 || fMod w == 3) ∧ fMod w ≤ 3 ∧
      ∀ l ∈ lanesOf c.ex, laneAddr c l % sizeBytes w = 0 ∧ whereIs (ready 0x30 w) c.p c.gr false (laneAddr c l) = .staging 16) ∧
    (∃ w c, Issues (ready 0x31 w) 0 0 0x31 w (stForm w) c ∧ c.ex ≠ 0#32 ∧ MemFree (ready 0x31 w) c true false ∧ fMod w = 0 ∧
      ∃ l ∈ lanesOf c.ex, laneAddr c l % sizeBytes w ≠ 0) ∧
    (∃ w c, Issues (ready 0x31 w) 0 0 0x31 w (stForm w) c ∧ c.ex ≠ 0#32 ∧ MemFree (ready 0x31 w) c true false ∧ fMod w = 0 ∧
      ∀ l ∈ lanesOf c.ex, laneAddr c l % sizeBytes w = 0 ∧ whereIs (ready 0x31 w) c.p c.gr true (laneAddr c l) = .staging 4095) :=
  ⟨⟨word 0 (stagingBase 2 1), issues_of (by decide +kernel)⟩, ⟨word 0 (stagingBase 4 16), issues_of (by decide +kernel)⟩,
    ⟨word 0 (stagingBase 1 1), issues_of (by decide +kernel)⟩, ⟨word 0 (stagingBase 0 4095), issues_of (by decide +kernel)⟩⟩

/-- LD from a home slice: the last sector of a half's first stack. -/
theorem wit_LoadsAndStoresIssue_home : ∃ w s c, Issues s 0 0 0x30 w (ldForm w) c ∧ c.ex ≠ 0#32 ∧ MemFree s c false (fMod w == 2 || fMod w == 3) ∧
    ∀ l ∈ lanesOf c.ex, laneAddr c l % sizeBytes w = 0 ∧ whereIs s c.p c.gr false (laneAddr c l) = .home :=
  ⟨word 2 (2 ^ 40 + 2 * 2 ^ 21), mapped (ready 0x30 (word 2 (2 ^ 40 + 2 * 2 ^ 21))), issues_of (by decide +kernel)⟩

/-- ATOM and RED: misaligned, in staging memory, and at a home slice. -/
theorem wit_AtomicsIssue :
    (∃ w c, Issues (ready 0x32 w) 0 0 0x32 w (atomForm w) c ∧ c.ex ≠ 0#32 ∧ MemFree (ready 0x32 w) c true false ∧
      ∃ l ∈ lanesOf c.ex, laneAddr c l % 4 ≠ 0) ∧
    (∃ w c, Issues (ready 0x32 w) 0 0 0x32 w (atomForm w) c ∧ c.ex ≠ 0#32 ∧ MemFree (ready 0x32 w) c true false ∧
      (∀ l ∈ lanesOf c.ex, laneAddr c l % 4 = 0) ∧ ∃ l ∈ lanesOf c.ex, (stagingAt (ready 0x32 w) c l).isSome) ∧
    (∃ w s c, Issues s 0 0 0x32 w (atomForm w) c ∧ c.ex ≠ 0#32 ∧ MemFree s c true false ∧
      ∀ l ∈ lanesOf c.ex, laneAddr c l % 4 = 0 ∧ whereIs s c.p c.gr true (laneAddr c l) = .home) ∧
    (∃ w s c, Issues s 0 0 0x33 w (redForm w) c ∧ c.ex ≠ 0#32 ∧ MemFree s c true false ∧ fMod w = 1 ∧
      ∀ l ∈ lanesOf c.ex, laneAddr c l % 2 = 0 ∧ whereIs s c.p c.gr true (laneAddr c l) = .home) :=
  ⟨⟨word 10 (stagingBase 2 2), issues_of (by decide +kernel)⟩, ⟨word 0 (stagingBase 2 4), issues_of (by decide +kernel)⟩,
    ⟨word 10 (2 ^ 40 + 2 * 2 ^ 21), mapped (ready 0x32 (word 10 (2 ^ 40 + 2 * 2 ^ 21))), issues_of (by decide +kernel)⟩,
    ⟨word 1 (2 ^ 21 + 2), mapped (ready 0x33 (word 1 (2 ^ 21 + 2))), issues_of (by decide +kernel)⟩⟩

/-- A load, an atomic and a store that wait for nothing more, and ones that do; an instruction line that is cached, one with no home
and one in a lost stack. -/
theorem wit_MemoryInstructionsComplete :
    (∀ k ∈ [MemKind.load, .atom], ∃ s gr m, findMem s 0 0 5 = some (gr, m) ∧ m.kind = k ∧ (∀ l ∈ m.lanes, l.lane < 32) ∧
      (m.lanes.map (·.lane)).Nodup ∧ (m.kind = .atom → m.size = 4) ∧ memComplete m = true ∧ ∀ v ∈ m.got, v.failed = false) ∧
    (∃ s gr m, findMem s 0 0 5 = some (gr, m) ∧ m.kind = .load ∧ (∀ l ∈ m.lanes, l.lane < 32) ∧
      (m.lanes.map (·.lane)).Nodup ∧ memComplete m = false) ∧
    (∃ s gr m, findMem s 0 0 5 = some (gr, m) ∧ m.kind = .store ∧ m.walk = none ∧ ∀ k ∈ m.need, k ∈ m.accepted) ∧
    (∃ s gr m, findMem s 0 0 5 = some (gr, m) ∧ m.kind = .store ∧ m.walk = none ∧ ∃ k ∈ m.need, k ∉ m.accepted) ∧
    (∃ s gr sl a, inService s = true ∧ getGroup s 0 0 = some gr ∧ getSlot s gr.slot = some sl ∧ nextLine sl gr = some 0 ∧ gr.ended = false ∧
      (gr.fetched.map (·.1)) ≠ some 0 ∧ homeRefusal s 0 128 = none ∧ roHit (getPos s 0) 65536 (fetchAddr s 0 0) = some a ∧
      roHit (getPos s 0) 65536 (fetchAddr s 0 1) = some a ∧ roHit (getPos s 0) 65536 (fetchAddr s 0 2) = some a ∧ roHit (getPos s 0) 65536 (fetchAddr s 0 3) = some a) ∧
    (∀ x ∈ [Code.addressUnmapped, Code.reservoirLost], ∃ s gr sl, inService s = true ∧ getGroup s 0 0 = some gr ∧
      getSlot s gr.slot = some sl ∧ nextLine sl gr = some 0 ∧ gr.ended = false ∧ (gr.fetched.map (·.1)) ≠ some 0 ∧
      homeRefusal s 0 128 = some x) := by
  let bare : Machine.Group := { warp [] with fetched := none }
  refine ⟨?_, ⟨holding { warp [] with mem := [{ memOp .load 1 with need := [2] }] } task, _, _, rfl, by decide +kernel⟩,
    ⟨holding { warp [] with mem := [{ memOp .store 16 with need := [2], accepted := [2] }] } task, _, _, rfl, by decide +kernel⟩,
    ⟨holding { warp [] with mem := [{ memOp .store 16 with need := [2] }] } task, _, _, rfl, by decide +kernel⟩,
    ⟨mapped { holding bare task with cores := [(0, { Pos.idle with groups := [(0, some bare)], ro := [roLine] })] }, bare, task,
      List.replicate 32 0#8, by decide +kernel⟩, ?_⟩
  · intro k hk
    exact ⟨holding { warp [] with mem := [memOp k 4] } task, warp [] |> fun g => { g with mem := [memOp k 4] }, memOp k 4, by
      fin_cases hk <;> decide +kernel⟩
  · intro x hx
    have hx : x = Code.addressUnmapped ∨ x = Code.reservoirLost := by simpa using hx
    rcases hx with rfl | rfl
    · exact ⟨holding bare task, bare, task, by decide +kernel⟩
    · exact ⟨{ holding bare task with reservoir := { Reservoir.unmapped with west := [0], lost := [0] } }, bare, task, by decide +kernel⟩

/-! ### SPAWN, PUB and the asynchronous instructions (R58, R65, R125 to R127) -/

/-- SPAWN with an offset of 4, past the allocation, at the last place within it, and for a device that is no member. -/
theorem wit_SpawnAndPublish :
    (∀ v ∈ [4, 3848], ∃ w s c, Issues s 0 0 0x83 w (spawnForm w) c ∧ c.ex ≠ 0#32 ∧ fountainHeld s = false ∧
      getReg c.gr (fSrcA w) (issuer c) = v ∧ c.gr.staging * 256 < 3848 + 256) ∧
    (∃ w s c, Issues s 0 0 0x83 w (spawnForm w) c ∧ c.ex ≠ 0#32 ∧ fountainHeld s = false ∧
      getReg c.gr (fSrcA w) (issuer c) = 3840 ∧ 3840 + 256 ≤ c.gr.staging * 256 ∧ s.pool.device = 0 ∧
      recordFails (wordsOf 32 (stgBytes c.gr.stg 3840 256)) = false ∧ freeSpawnSlot s = some 49152) ∧
    (∃ w s c, Issues s 0 0 0x83 w (spawnForm w) c ∧ c.ex ≠ 0#32 ∧ fountainHeld s = false ∧
      getReg c.gr (fSrcA w) (issuer c) = 0 ∧ getReg c.gr (fSrcB w) (issuer c) = 64 ∧ s.pool.device = 0) ∧
    (∃ w c, Issues (ready 0x84 w) 0 0 0x84 w (pubForm w) c ∧ c.ex ≠ 0#32 ∧ c.gr.pubs = [] ∧ unaccepted c.gr = []) ∧
    (∃ w s c, Issues s 0 0 0x84 w (pubForm w) c ∧ c.ex ≠ 0#32 ∧ c.gr.pubs = [] ∧ unaccepted c.gr ≠ []) := by
  let w : InstrBits := word 0 (2 ^ 40 + 2 ^ 24)
  let reg (n v : Nat) (gr : Machine.Group) : Machine.Group := { gr with gpr := [(n, BitVec.ofNat 32 v)] }
  refine ⟨?_, ⟨w, readyWith 0x83 w (fun gr => { reg 0 3840 gr with
      stg := (goodRecord.flatMap (fun x => leBytes 8 x.toNat)).zipIdx.map (fun e => (3840 + e.2, e.1)) }), issues_of (by decide +kernel)⟩,
    ⟨w, readyWith 0x83 w (reg 32 64), issues_of (by decide +kernel)⟩, ⟨word 0 0, issues_of (by decide +kernel)⟩,
    ⟨word 0 0, readyWith 0x84 (word 0 0) (fun gr => { gr with mem := [{ memOp .store 4 with need := [0] }] }), issues_of (by decide +kernel)⟩⟩
  intro v hv
  refine ⟨w, readyWith 0x83 w (reg 0 v), issues_of ?_⟩
  fin_cases hv <;> decide +kernel

/-- MMA and WEIR: an offset that is no multiple of 64, one past the allocation, the last one within it; MFRAG with every lane and with
lane 0 only. -/
theorem wit_AsynchronousIssue :
    (∀ v ∈ [32, 4032, 3968], ∃ w s c, Issues s 0 0 0x80 w (mmaForm w) c ∧ mapGet 0 c.gr.counters (fCounter w) < 255 ∧ c.ex ≠ 0#32 ∧
      pickArray (getPos s 0) (fUnit w) = some 0 ∧ getReg c.gr (fSrcA w) (issuer c) = v) ∧
    (∃ w c, Issues (ready 0x81 w) 0 0 0x81 w (mfragForm w) c ∧ mapGet 0 c.gr.counters (fCounter w) < 255 ∧
      (getArray (getPos (ready 0x81 w) 0) 0).frags.length < 4 ∧ c.ex = 0xFFFFFFFF#32) ∧
    (∃ w c, Issues (readyWith 0x81 w lane0) 0 0 0x81 w (mfragForm w) c ∧ mapGet 0 c.gr.counters (fCounter w) < 255 ∧
      (getArray (getPos (readyWith 0x81 w lane0) 0) 0).frags.length < 4 ∧ c.ex ≠ 0xFFFFFFFF#32) ∧
    (∀ v ∈ [32, 4096, 4032], ∃ w s c, Issues s 0 0 0x82 w (weirForm w) c ∧ mapGet 0 c.gr.counters (fCounter w) < 255 ∧ c.ex ≠ 0#32 ∧
      engineRoom (getEngine (getPos s 0) (fUnit w)) = true ∧ getReg c.gr (fSrcA w) (issuer c) = v) := by
  refine ⟨?_, ⟨word 6 (56 * 2 ^ 40 + 255 * 2 ^ 16 + 15 * 2 ^ 8), issues_of (by decide +kernel)⟩, ⟨word0 0 0, issues_of (by decide +kernel)⟩, ?_⟩
  · intro v hv
    refine ⟨word 0 (4 * 2 ^ 12), readyWith 0x80 (word 0 (4 * 2 ^ 12)) (fun gr => { gr with gpr := [(0, BitVec.ofNat 32 v)] }), issues_of ?_⟩
    fin_cases hv <;> decide +kernel
  · intro v hv
    refine ⟨word 0 (2 ^ 12), readyWith 0x82 (word 0 (2 ^ 12)) (fun gr => { gr with gpr := [(0, BitVec.ofNat 32 v)] }), issues_of ?_⟩
    fin_cases hv <;> decide +kernel

/-! ### The Fountain (chapter 2) -/

/-- BAR2 decoding with room in the intake and with none; not decoding; the link up and down. -/
theorem wit_RecordsReachTheIntake :
    (barOpen hosted 2 = true ∧ (List.replicate 256 0#8).length = 256 ∧ 256 % 256 = 0 ∧ hosted.fountain.intake.length < 16384 ∧ hosted.port.up = true) ∧
    (∃ s, barOpen s 2 = true ∧ 16384 ≤ s.fountain.intake.length) ∧ (barOpen up 2 = false ∧ up.port.up = false) :=
  ⟨by decide +kernel, ⟨{ hosted with fountain := { Fountain.clear with intake := List.replicate 16384 ⟨[], 0⟩ } }, by decide +kernel⟩,
    by decide +kernel⟩

/-- A state with record `ws` in the intake, taken 4 ns ago. -/
def intakeOf (ws : List Word64) (st : Nat) : State :=
  at_ 4 { up with fountain := { Fountain.clear with intake := [⟨ws, 0⟩], lastTake := some 0, slots := [(0, some { task with state := st })] } }

abbrev takesOne (s : State) (ws : List Word64) : Prop :=
  s.fountain.intake = [⟨ws, 0⟩] ∧ inService s = true ∧ fountainHeld s = false ∧ SlotsWf s ∧ NoPoisonDue s

/-- The first slot past H; a slot in use, and one that is not; records that R38 turns away, whose wait is poisoned, and that wait. -/
theorem wit_IntakeTakesTheOldest :
    (takesOne (intakeOf (goodRecord.set 1 (BitVec.ofNat 64 (49152 * 2 ^ 48 + 2 ^ 40))) 1) (goodRecord.set 1 (BitVec.ofNat 64 (49152 * 2 ^ 48 + 2 ^ 40))) ∧
      hostSlots up = 49152) ∧
    (∀ k, (intakeOf goodRecord 1).fountain.lastTake = some k → k + 4 ≤ now (intakeOf goodRecord 1)) ∧
    (∀ st ∈ [1, 2, 3, 4, 7], takesOne (intakeOf goodRecord st) goodRecord ∧ slotState (intakeOf goodRecord st) 0 = st) ∧
    (∀ st ∈ [5, 6], takesOne (intakeOf goodRecord st) goodRecord ∧ slotState (intakeOf goodRecord st) 0 = st ∧
      recordCode (intakeOf goodRecord st) goodRecord false = none ∧ waitsPoisoned (intakeOf goodRecord st) goodRecord = false) ∧
    (recordFails (goodRecord.set 1 0#64) = true) ∧
    (∃ s, takesOne s (goodRecord.set 4 (BitVec.ofNat 64 (2 ^ 63))) ∧ recordCode s (goodRecord.set 4 (BitVec.ofNat 64 (2 ^ 63))) false = none ∧
      waitsPoisoned s (goodRecord.set 4 (BitVec.ofNat 64 (2 ^ 63))) = true) ∧
    (∃ s : State, s.fountain.lastTake = some 0 ∧ now s < 0 + 4) :=
  ⟨⟨by decide +kernel, by decide +kernel⟩,
    some_ok (v := 0) rfl (by decide +kernel),
    by simp only [List.forall_mem_cons]; decide +kernel,
    by simp only [List.forall_mem_cons]; decide +kernel, by decide +kernel,
    ⟨{ up with fountain := { Fountain.clear with intake := [⟨goodRecord.set 4 (BitVec.ofNat 64 (2 ^ 63)), 0⟩], counters := [(0, ⟨0, true⟩)] } },
      by decide +kernel⟩,
    ⟨at_ 3 (intakeOf goodRecord 1), by decide +kernel⟩⟩


/-- Tasks about to enter the window: one that names nothing, and one that names a sequence that is FREE; a staged request done and one
that reads; an age limit passed; deferred requests; nothing to enter. -/
theorem wit_StagingWindow :
    (inService up = true ∧ fountainHeld up = false ∧ inCisReset up = false ∧ up.sluice.reserveLost = false ∧ nextForWindow up = none) ∧
    (∃ s sl, inService s = true ∧ fountainHeld s = false ∧ inCisReset s = false ∧ s.sluice.reserveLost = false ∧ nextForWindow s = some 0 ∧
      getSlot s 0 = some sl ∧ SlotsWf s ∧ NoPoisonDue s ∧ NoWayWaits s ∧ s.sluice.deferred = [] ∧ recSeqCount sl.words = 0 ∧
      (recSeqs sl.words).filter entValid = [] ∧ (recBufs sl.words).filter entValid = [] ∧ sl.extends_ = []) ∧
    (∃ s sl e, inService s = true ∧ fountainHeld s = false ∧ inCisReset s = false ∧ s.sluice.reserveLost = false ∧ nextForWindow s = some 0 ∧
      getSlot s 0 = some sl ∧ SlotsWf s ∧ NoPoisonDue s ∧ NoWayWaits s ∧ s.sluice.deferred = [] ∧ recSeqCount sl.words = 0 ∧
      e ∈ (recSeqs sl.words).filter entValid ∧ getSeq s (seqNumber e) = none ∧
      (∀ x ∈ (recSeqs sl.words).filter entValid, seqNumber x = seqNumber e → seqExtend x = false) ∧
      stagingRefusal s { sl with seqList := [] } = some Code.sequenceUnknown) ∧
    (∃ s sl, getSlot s 0 = some sl ∧ sl.staging = .moving ∧ (0, 0) ∈ sl.asked ∧ ∀ e ∈ sl.asked, pageReading s e = false ∧
      ∀ pg, getPage s e.1 e.2 = some pg → pg.st = .cistern ∨ pg.st = .basin) ∧
    (∃ s sl, getSlot s 0 = some sl ∧ sl.staging ≠ .moving) := by
  let s1 := slotted up [waiting goodRecord]
  let s2 := slotted up [waiting (goodRecord.set 16 (BitVec.ofNat 64 (2 ^ 63 + 7)))]
  refine ⟨by decide +kernel, ⟨s1, waiting goodRecord, ?_⟩, ⟨s2, waiting (goodRecord.set 16 (BitVec.ofNat 64 (2 ^ 63 + 7))), 2 ^ 63 + 7, ?_⟩,
    ⟨withSeq (seqn .cistern) (slotted up [{ waiting goodRecord with staging := .moving, asked := [(0, 0)] }]), _, rfl, rfl, List.mem_singleton.mpr rfl, ?_⟩,
    ⟨s1, _, rfl, by decide +kernel⟩⟩
  · decide +kernel
  · decide +kernel
  · intro e he
    cases List.mem_singleton.mp he
    exact ⟨by decide +kernel, some_ok rfl (Or.inl rfl)⟩

theorem wit_StagingWindow_limits :
    (∃ s sl, getSlot s 0 = some sl ∧ getObj s (Key.ageLimit (recClass sl.words)) ≠ 0 ∧ 0 + getObj s (Key.ageLimit (recClass sl.words)) * 1000000 < now s) ∧
    (∃ s sl, getSlot s 0 = some sl ∧ now s ≤ 0 + getObj s (Key.ageLimit (recClass sl.words)) * 1000000) ∧
    (∃ s sl sm, getSlot s 0 = some sl ∧ getSlot s 1 = some sm ∧ effClass s sm sm.satisfied < effClass s sl sl.satisfied ∧
      effClass s sm sm.dispatchable < effClass s sl sl.dispatchable) ∧
    (∃ s d sl, inService s = true ∧ inCisReset s = false ∧ SlotsWf s ∧ NoPoisonDue s ∧ NoWayWaits s ∧ s.sluice.deferred = [d] ∧
      getSlot s d.slot = some sl ∧ stagingRefusal s sl = none ∧ sl.state = 2 ∧ extensions sl = [] ∧ wantedBufs sl = [] ∧ (0, 0) ∈ taskPages s sl ∧
      ∀ e ∈ taskPages s sl, ∃ pg, getPage s e.1 e.2 = some pg ∧ (pg.st = .cistern ∨ pg.st = .basin)) ∧
    (∃ s d sl, inService s = true ∧ inCisReset s = false ∧ SlotsWf s ∧ NoPoisonDue s ∧ NoWayWaits s ∧ s.sluice.deferred = [d] ∧
      getSlot s d.slot = some sl ∧ stagingRefusal s sl = none ∧ extensionHeld s d.slot (extensions sl) = true) ∧
    (∃ s d sl, inService s = true ∧ inCisReset s = false ∧ SlotsWf s ∧ NoPoisonDue s ∧ NoWayWaits s ∧ s.sluice.deferred = [d] ∧
      getSlot s d.slot = some sl ∧ stagingRefusal s sl = some Code.sequenceUnknown) ∧
    (∃ s d, s.sluice.deferred.find? (fun x => x.slot == 0) = some d ∧ d.starved = false ∧ d.since + getObj s Key.starveLimit * 1000000 < now s) ∧
    (∃ s d, s.sluice.deferred.find? (fun x => x.slot == 0) = some d ∧ now s ≤ d.since + getObj s Key.starveLimit * 1000000) := by
  let ext : List Word64 := goodRecord.set 16 (BitVec.ofNat 64 (2 ^ 63 + 2 ^ 62 + 2 ^ 40 + 7))
  let defer (s : State) : State := { s with sluice := { s.sluice with deferred := [⟨0, 0, [], false⟩] } }
  let read : Slot := { waiting (goodRecord.set 16 (BitVec.ofNat 64 (2 ^ 63))) with state := 2 }
  let old : Slot := { waiting goodRecord with dispatchable := some 0 }
  let new_ : Slot := { waiting goodRecord with satisfied := some (10 ^ 12), dispatchable := some (10 ^ 12) }
  refine ⟨⟨at_ (10 ^ 12) (slotted up [waiting goodRecord]), _, rfl, by decide +kernel⟩, ⟨slotted up [waiting goodRecord], _, rfl, by decide +kernel⟩,
    ⟨at_ (10 ^ 12) (slotted up [old, new_]), old, new_, by decide +kernel⟩,
    ⟨withSeq { seqn .cistern with length := 1000000 } (defer (slotted up [read])), ⟨0, 0, [], false⟩, read, ?_⟩,
    ⟨defer (slotted up [{ waiting ext with state := 2 }, { waiting ext with state := 2, extends_ := [(7, 0, 1)] }]), ⟨0, 0, [], false⟩,
      { waiting ext with state := 2 }, ?_⟩,
    ⟨defer (slotted up [{ waiting (goodRecord.set 16 (BitVec.ofNat 64 (2 ^ 63 + 7))) with state := 2 }]), ⟨0, 0, [], false⟩,
      { waiting (goodRecord.set 16 (BitVec.ofNat 64 (2 ^ 63 + 7))) with state := 2 }, ?_⟩,
    ⟨at_ (10 ^ 12) (defer up), ⟨0, 0, [], false⟩, by decide +kernel⟩, ⟨defer up, ⟨0, 0, [], false⟩, by decide +kernel⟩⟩
  · refine ⟨by decide +kernel, by decide +kernel, by decide +kernel, by decide +kernel, by decide +kernel, rfl, rfl, by decide +kernel, rfl,
      by decide +kernel, by decide +kernel, by decide +kernel, ?_⟩
    intro e he
    have h : e = (0, 0) := by revert e; decide +kernel
    subst h
    exact ⟨_, rfl, Or.inl rfl⟩
  · decide +kernel
  · decide +kernel

/-- A task that can be dispatched, and the two cores that take groups. -/
def dispatching : State :=
  let s := slotted up [{ waiting goodRecord with state := 2, staging := .staged, dispatchable := some 0, nextGroup := 0 }]
  { s with keeper := { s.keeper with cores := [(0, 1), (271, 1)] }, boot := { s.boot with logical := [(0, 0), (271, 1)] } }

theorem wit_GroupsArePlacedAndExit :
    (dispatchOrder up = []) ∧
    (∃ sl rest, inService dispatching = true ∧ inCisReset dispatching = false ∧ dispatchOrder dispatching = (0, sl) :: rest ∧
      recCosched sl.words = false ∧ BestFit dispatching 0 sl 0 ∧ posHalf 0 = 0 ∧ NoWayWaits dispatching ∧ sl.nextGroup = 0 ∧
      coreState dispatching 0 = 1 ∧ classShut dispatching sl.words = false) ∧
    (∃ s gr, getGroup s 0 0 = some gr ∧ gr.live ≠ 0#32 ∧ gr.ended = false) ∧
    (∃ s gr, getGroup s 0 0 = some gr ∧ ∃ m ∈ gr.mem, m.kind = .load ∨ m.kind = .atom) ∧
    (∃ s gr sl, getGroup s 0 0 = some gr ∧ gr.live = 0#32 ∧ (∀ m ∈ gr.mem, m.kind = .store ∨ m.kind = .red) ∧ gr.pubs = [] ∧
      arrayBusy (getPos s 0) 0 = false ∧ engineBusy (getPos s 0) 0 = false ∧ laneLost (getPos s 0) = false ∧ getSlot s gr.slot = some sl) := by
  refine ⟨by decide +kernel, ⟨{ waiting goodRecord with state := 2, staging := .staged, dispatchable := some 0, nextGroup := 0 }, [], ?_⟩,
    ⟨holding (warp []) task, _, rfl, by decide +kernel⟩, ⟨holding { warp [] with mem := [memOp .atom 4] } task, _, rfl, by decide +kernel⟩,
    ⟨holding { warp [] with live := 0#32, paths := [], mem := [memOp .store 4] } task, _, task, rfl, by decide +kernel⟩⟩
  decide +kernel

/-- A control task ready, a kernel ready, one not; signals to this device, and to one outside the pool. -/
theorem wit_TasksRetire :
    (∀ e ∈ [2 ^ 63, 2 ^ 63 + 5 * 2 ^ 56], ∃ s sl, getSlot s 0 = some sl ∧ SlotsWf s ∧ NoPoisonDue s ∧ sl.ending = none ∧
      recTaskKind sl.words = 1 ∧ sl.state = 1 ∧ sl.satisfied ≠ none ∧ sl.signalled = false ∧ sl.silent = false ∧ signalsOut s 0 = false ∧
      validSignals sl.words = [e] ∧ (sigDevice e = s.pool.device ∨ isMember s (sigDevice e) = false)) ∧
    (∃ s sl, getSlot s 0 = some sl ∧ SlotsWf s ∧ NoPoisonDue s ∧ sl.ending = none ∧ recTaskKind sl.words = 0 ∧ sl.state = 3 ∧
      sl.exited = recGroups sl.words ∧ groupsOfTask s 0 = [] ∧ storesAccepted s 0 = true) ∧
    (∃ s sl, getSlot s 0 = some sl ∧ SlotsWf s ∧ NoPoisonDue s ∧ recTaskKind sl.words = 0 ∧ sl.exited ≠ recGroups sl.words) := by
  refine ⟨?_, ⟨slotted up [{ task with words := goodRecord, exited := 1 }], _, rfl, ?_⟩, ⟨slotted up [{ task with words := goodRecord }], _, rfl, ?_⟩⟩
  · intro e he
    refine ⟨slotted up [waiting (controlRecord.set 8 (BitVec.ofNat 64 e))], _, rfl, ?_⟩
    fin_cases he <;> decide +kernel
  all_goals (decide +kernel)

/-- A task that is quiet and to fault, one that is to run again, one not quiet, one not being ended; a timeout at its last nanosecond
and just before. -/
theorem wit_TasksFaultAndSettle :
    (∀ r ∈ [none, some []], ∃ s sl e, getSlot s 0 = some sl ∧ SlotsWf s ∧ NoWayWaits s ∧ sl.ending = some e ∧ quiet (discardHeld s 0) 0 = true ∧
      (∀ q ∈ s.cores, laneLost q.2 = false) ∧ e.replay = r ∧ recVersion sl.words = 1 ∧
      ∃ x ∈ validSignals sl.words, sigDevice x = s.pool.device) ∧
    (∃ s sl, getSlot s 0 = some sl ∧ SlotsWf s ∧ NoWayWaits s ∧ sl.ending ≠ none ∧ quiet (discardHeld s 0) 0 = false) ∧
    (∃ s sl, getSlot s 0 = some sl ∧ sl.state = 3 ∧ sl.ending = none ∧ recTimeout sl.words = 1 ∧ sl.runStart + recTimeout sl.words * 1000 ≤ now s) ∧
    (∃ s sl, getSlot s 0 = some sl ∧ now s < sl.runStart + recTimeout sl.words * 1000) := by
  let sl1 : Slot := { task with words := goodRecord.set 21 1#64 }
  refine ⟨?_, ⟨holding { warp [] with mem := [{ memOp .store 4 with need := [0] }] } { task with ending := some ⟨4, none⟩ }, _, rfl, ?_⟩, ⟨at_ 1000 (slotted up [sl1]), _, rfl, by decide +kernel⟩,
    ⟨at_ 999 (slotted up [sl1]), _, rfl, by decide +kernel⟩⟩
  · intro r hr
    refine ⟨slotted up [{ task with words := goodRecord.set 8 (BitVec.ofNat 64 (2 ^ 63)), ending := some ⟨4, r⟩ }], _, ⟨4, r⟩, rfl, ?_⟩
    fin_cases hr <;> decide +kernel
  · decide +kernel

/-! ### Arrays and Weir engines (chapters 5 to 7) -/

/-- An INT8 product of one row by one column of 64 elements at the staging alias. -/
def arrayWords : List Nat :=
  [2 * 2 ^ 56 + 2 * 2 ^ 52 + 3 * 2 ^ 48, 2 ^ 48 + 2 ^ 32 + 64, aliasStaging, 64, aliasStaging + 64, 64, 0, 0, aliasStaging + 128, 64]

def arrayOp : ArrayOp := { words := arrayWords, g := 0, slot := 0, use := 0, counter := 15, flush := false }

def runningOp : RunningOp := { op := arrayOp, stg := [], basin := [], log := [], cut := none, seed := 0 }

def arrayed (gr : Machine.Group) (u : ArrayUnit) : State := posWith gr (fun c => { c with arrays := [(3, u)] })

/-- An operation about to start, of a group that stands, has been ended, or has gone with a task that is ending, and one held by an earlier
one; one that runs, of a group that stands and of one that has been ended; the formats of the two clauses on elements. -/
theorem wit_MatrixOperationsRun :
    (∃ s gr, (getArray (getPos s 0) 3).started = [] ∧ (getArray (getPos s 0) 3).queue = [arrayOp] ∧ IssuerRuns s 0 arrayOp.g gr ∧
      chanFull s (getPos s 0) = false) ∧
    (∃ s gr, (getArray (getPos s 0) 3).queue = [arrayOp] ∧ IssuerRuns s 0 arrayOp.g gr ∧
      ∃ r ∈ (getArray (getPos s 0) 3).started, opHeldBy 0 arrayOp r.op = true) ∧
    (∃ s, (getArray (getPos s 0) 3).queue = [arrayOp] ∧ IssuerEnded s 0 arrayOp.g arrayOp.slot arrayOp.use) ∧
    (∃ s, (getArray (getPos s 0) 3).queue = [{ arrayOp with g := goneSlot }] ∧ IssuerEnded s 0 goneSlot arrayOp.slot arrayOp.use) ∧
    ((getArray (getPos up 0) 3).queue = []) ∧
    (∃ s gr, (getArray (getPos s 0) 3).running = some runningOp ∧ (getArray (getPos s 0) 3).draining = none ∧ IssuerRuns s 0 0 gr ∧ gr.slot = 0 ∧
      gr.staging ≤ 1024 ∧ Unwritten s 0 gr runningOp.stg runningOp.basin runningOp.log ∧ OthersIdle s 0 3 ∧ descriptorBad arrayWords = false ∧
      lineBytesD arrayWords ≤ dStride arrayWords 9 ∧ ∃ d, areaAt s 0 gr.staging Code.arraySource (dWord arrayWords 8)
        (areaLen (dLines arrayWords) (dStride arrayWords 9) (lineBytesD arrayWords)) = .ok d) ∧
    (∃ s gr, (getArray (getPos s 0) 3).running = some runningOp ∧ (getArray (getPos s 0) 3).draining = none ∧ getGroup s 0 0 = some gr ∧ gr.ended = true) ∧
    (dAfmt arrayWords = 2 ∧ dBfmt arrayWords = 2 ∧ dCfmt arrayWords = 0 ∧ dK arrayWords % 64 = 0) ∧
    (∃ ws, dAfmt ws = 0 ∧ dBfmt ws = 0 ∧ dDfmt ws = 4 ∧ dCfmt ws = 0 ∧ dK ws % 64 = 0 ∧ dK ws ≤ 65536 ∧ dK ws ≠ 0) := by
  let u : ArrayUnit := { ArrayUnit.idle with queue := [arrayOp] }
  let v : ArrayUnit := { ArrayUnit.idle with running := some runningOp }
  let gone : ArrayUnit := { ArrayUnit.idle with queue := [{ arrayOp with g := goneSlot }] }
  let dying : Slot := { task with ending := some ⟨4, none⟩ }
  exact ⟨⟨arrayed (warp []) u, warp [], by decide +kernel⟩, ⟨arrayed (warp []) { v with queue := [arrayOp] }, warp [], by decide +kernel⟩,
    ⟨arrayed { warp [] with ended := true } u, by decide +kernel, Or.inl ⟨_, rfl, rfl⟩⟩,
    ⟨{ arrayed (warp []) gone with fountain := { Fountain.clear with slots := [(0, some dying)] } }, by decide +kernel,
      Or.inr ⟨by decide +kernel, by decide +kernel, dying, rfl, by decide +kernel⟩⟩, by decide +kernel,
    ⟨arrayed (warp []) v, warp [], by decide +kernel, by decide +kernel, by decide +kernel, by decide +kernel, by decide +kernel, by decide +kernel,
      by decide +kernel, by decide +kernel, by decide +kernel, ok_of (by decide +kernel)⟩,
    ⟨arrayed { warp [] with ended := true } v, _, by decide +kernel, by decide +kernel, rfl, by decide +kernel⟩, by decide +kernel,
    ⟨[4 * 2 ^ 48, 65536], by decide +kernel⟩⟩

def fragment : Fragment :=
  { fmt := 4, a := List.replicate 128 0, b := List.replicate 128 0, c := none, dst := 247, g := 0, slot := 0, counter := 0, flush := false }

/-- A window free with a fragment waiting, after a window that ran one and an operation waiting behind it, and after none; three fragments
that wait for their results; one that is windowed at the last destination. -/
theorem wit_FragmentsRun :
    (∃ s, (getArray (getPos s 0) 3).frags = [] ∧ getArray (getPos s 0) 3 ≠ ArrayUnit.idle) ∧
    (∃ s, (getArray (getPos s 0) 3).frags = [fragment] ∧ (getArray (getPos s 0) 3).lastFrag = true ∧ (getArray (getPos s 0) 3).running ≠ none) ∧
    (∃ s, (getArray (getPos s 0) 3).frags = [fragment] ∧ (getArray (getPos s 0) 3).running = none ∧ (getArray (getPos s 0) 3).windowed.length = 2) ∧
    (∃ s, (getArray (getPos s 0) 3).frags = [fragment] ∧ (getArray (getPos s 0) 3).running = none ∧ (getArray (getPos s 0) 3).windowed.length = 3) ∧
    (∃ s gr, (getArray (getPos s 0) 3).windowed = [fragment, fragment] ∧ getGroup s 0 fragment.g = some gr ∧ gr.ended = false ∧
      gr.slot = fragment.slot ∧ fragment.dst + 8 ≤ 255 ∧ fragment.fmt = 4) :=
  ⟨⟨arrayed (warp []) { ArrayUnit.idle with lastFrag := true }, by decide +kernel⟩,
    ⟨arrayed (warp []) { ArrayUnit.idle with frags := [fragment], lastFrag := true, running := some runningOp }, by decide +kernel⟩,
    ⟨arrayed (warp []) { ArrayUnit.idle with frags := [fragment], windowed := List.replicate 2 fragment }, by decide +kernel⟩,
    ⟨arrayed (warp []) { ArrayUnit.idle with frags := [fragment], windowed := List.replicate 3 fragment }, by decide +kernel⟩,
    ⟨arrayed (warp []) { ArrayUnit.idle with windowed := [fragment, fragment] }, _, by decide +kernel, rfl, by decide +kernel⟩⟩

/-- A transpose of one element of one byte, an ingest of one, an expansion of one row of one token of rank 64, and an ingest by reference. -/
def transposeWords : List Nat := [2 ^ 32 + 2 ^ 16, aliasStaging, 64, aliasStaging + 64, 64]
def ingestWords : List Nat := [2 ^ 60 + 2 ^ 32 + 2 ^ 16 + 63, aliasStaging, 64, aliasBasin, 0]
def expandWords : List Nat := [64 * 2 ^ 37 + 2 ^ 24, aliasBasin, aliasStaging, 64, aliasStaging + 64, 64, 0, 0]
def refWords : List Nat := [2 ^ 60 + 2 ^ 57 + 2 ^ 32 + 2 ^ 16, aliasStaging, 64, 2 ^ 48 - 65536, 0]

def weirCmd (ws : List Nat) : WeirCmd := { words := ws, g := 0, slot := 0, use := 0, counter := 0, flush := false }

def runningCmd (ws : List Nat) : RunningCmd :=
  { cmd := weirCmd ws, stg := [], basin := [], log := [], seed := 0, page := none, stored := false, since := 0 }

def engined (gr : Machine.Group) (unit : Nat) (e : Engine) : State := posWith gr (fun c => if unit = 0 then { c with lxu := e } else { c with lyt := e })

theorem wit_WeirEnginesRun :
    ((getEngine (getPos up 0) 1).queue = []) ∧
    (∃ s gr, (getEngine (getPos s 0) 1).running = none ∧ (getEngine (getPos s 0) 1).queue = [weirCmd transposeWords] ∧
      IssuerRuns s 0 0 gr ∧ chanFull s (getPos s 0) = false ∧ yOp transposeWords = 0 ∧ cmdRef 1 transposeWords = none) ∧
    (∃ s gr, (getEngine (getPos s 0) 1).running = none ∧ (getEngine (getPos s 0) 1).queue = [weirCmd ingestWords] ∧ IssuerRuns s 0 0 gr ∧
      yOp ingestWords ≠ 0) ∧
    (∃ s, (getEngine (getPos s 0) 0).running = none ∧ (getEngine (getPos s 0) 0).queue = [weirCmd expandWords] ∧ IssuerEnded s 0 0 0 0) ∧
    (∃ s gr ref, (getEngine (getPos s 0) 1).running = none ∧ (getEngine (getPos s 0) 1).queue = [weirCmd refWords] ∧
      IssuerRuns s 0 0 gr ∧ chanFull s (getPos s 0) = false ∧ yOp refWords = 1 ∧ cmdRef 1 refWords = some ref ∧ ref < 2 ^ 48 ∧ refByte ref = 0 ∧
      (getPos s 0).walks.length < 16 ∧ inCisReset s = false ∧ walkerFind (getPos s 0) (refSeq ref) (refPage ref) = none) := by
  exact ⟨by decide +kernel, ⟨engined (warp []) 1 { Engine.idle with queue := [weirCmd transposeWords] }, warp [], by decide +kernel⟩,
    ⟨engined (warp []) 1 { Engine.idle with queue := [weirCmd ingestWords] }, warp [], by decide +kernel⟩,
    ⟨engined { warp [] with ended := true } 0 { Engine.idle with queue := [weirCmd expandWords] }, by decide +kernel, by decide +kernel,
      Or.inl ⟨_, rfl, rfl⟩⟩,
    ⟨engined (warp []) 1 { Engine.idle with queue := [weirCmd refWords] }, warp [], _, by decide +kernel, by decide +kernel, by decide +kernel,
      by decide +kernel, by decide +kernel, rfl, by decide +kernel⟩⟩

theorem wit_WeirEnginesRun_complete :
    (∀ ws ∈ [transposeWords, ingestWords, expandWords], ∃ s unit gr, unit < 2 ∧ (getEngine (getPos s 0) unit).running = some (runningCmd ws) ∧
      IssuerRuns s 0 0 gr ∧ gr.slot = 0 ∧ gr.staging ≤ 1024 ∧ cmdRef unit ws = none ∧ Unwritten s 0 gr [] [] [] ∧ OthersIdle s 0 (unit + 4) ∧
      jobOf s (.weir 0 0) = none) ∧
    (yOp transposeWords = 0 ∧ yRows transposeWords * yElem transposeWords ≤ dStride transposeWords 4 ∧
      ∃ d, areaAt up 0 16 Code.weirSource (dWord transposeWords 3)
        (areaLen (yCols transposeWords) (dStride transposeWords 4) (yRows transposeWords * yElem transposeWords)) = .ok d) ∧
    (yOp ingestWords = 1 ∧ yDstSeq ingestWords = false ∧ yCol0 ingestWords + yRows ingestWords ≤ 64 ∧
      yCols ingestWords * yElem ingestWords ≤ 1024 ∧ ∃ d, areaAt up 0 16 Code.weirSource (dWord ingestWords 3) 65536 = .ok d) ∧
    (xSrcSeq expandWords = false ∧ xKeep expandWords = false ∧ xOrder expandWords ≤ 1 ∧ xLineBytes expandWords ≤ dStride expandWords 5 ∧
      xFirst expandWords + xCount expandWords ≤ xTokens expandWords ∧
      ∃ d, areaAt up 0 16 Code.weirSource (dWord expandWords 4) (areaLen (xLines expandWords) (dStride expandWords 5) (xLineBytes expandWords)) = .ok d) := by
  refine ⟨?_, ⟨by decide +kernel, by decide +kernel, ok_of (by decide +kernel)⟩,
    ⟨by decide +kernel, by decide +kernel, by decide +kernel, by decide +kernel, ok_of (by decide +kernel)⟩,
    ⟨by decide +kernel, by decide +kernel, by decide +kernel, by decide +kernel, by decide +kernel, ok_of (by decide +kernel)⟩⟩
  intro ws hw
  simp only [List.mem_cons, List.not_mem_nil, or_false] at hw
  rcases hw with rfl | rfl | rfl
  · exact ⟨engined (warp []) 1 { Engine.idle with running := some (runningCmd transposeWords) }, 1, warp [], by decide +kernel⟩
  · exact ⟨engined (warp []) 1 { Engine.idle with running := some (runningCmd ingestWords) }, 1, warp [], by decide +kernel⟩
  · exact ⟨engined (warp []) 0 { Engine.idle with running := some (runningCmd expandWords) }, 0, warp [], by decide +kernel⟩

/-! ### Walks, the scrubber and the Sluice frames (R202 to R205, R278, R279) -/

def walk (st : WalkState) (write : Bool) : Walk := { id := 4, seq := 0, page := 0, write := write, who := .group 0 5, st := st }

/-- A walk of sequence 0, whose page is in state `st`; the group's load waits for it. -/
def walking (w : WalkState) (write : Bool) (st : PageState) : State :=
  withSeq (seqn st) (posWith { warp [] with mem := [{ memOp .load 4 with walk := some 4 }] } (fun c => { c with walks := [walk w write] }))

theorem wit_WalksAreAnswered :
    (∃ s q pg, findWalk s 0 4 = some (walk .walking false) ∧ inCisReset s = false ∧ getSeq s 0 = some q ∧ q.st = .active ∧
      getPage s 0 0 = some pg ∧ pg.st = .cistern) ∧
    (∃ s q pg, findWalk s 0 4 = some (walk .walking false) ∧ inCisReset s = false ∧ getSeq s 0 = some q ∧ q.st = .active ∧
      getPage s 0 0 = some pg ∧ pg.st = .basin ∧ pg.frame = some 0 ∧
      ((getPos s 0).frames.find? (fun x => x.2 == some (0, 0))).map (·.1) = some 63) ∧
    (∃ s pg, findWalk s 0 4 = some (walk .walking false) ∧ inCisReset s = false ∧ getPage s 0 0 = some pg ∧ pg.st ≠ .cistern ∧ pg.st ≠ .basin) ∧
    (∃ s gr m sl, findWalk s 0 4 = some (walk .handed false) ∧ inCisReset s = false ∧ getSeq s 0 = none ∧ findMem s 0 0 5 = some (gr, m) ∧
      getSlot s gr.slot = some sl ∧ sl.ending = none) ∧
    (∃ s q, findWalk s 0 4 = some (walk .handed false) ∧ getSeq s 0 = some q ∧ q.st ≠ .active) ∧
    (∃ s q, findWalk s 0 4 = some (walk .handed false) ∧ getSeq s 0 = some q ∧ q.st = .active ∧ q.pages[0]? = none) := by
  refine ⟨⟨walking .walking false .cistern, _, _, by decide +kernel, by decide +kernel, rfl, by decide +kernel, rfl, by decide +kernel⟩,
    ⟨withSeq { seqn .basin with pages := [⟨.basin, 0, none, some 0, false⟩] } (posWith (warp []) (fun c =>
      { c with walks := [walk .walking false], frames := [(63, some (0, 0))] })), _, _, by decide +kernel, by decide +kernel, rfl, by decide +kernel,
      rfl, by decide +kernel⟩,
    ⟨walking .walking false .host, _, by decide +kernel, by decide +kernel, rfl, by decide +kernel⟩,
    ⟨{ walking .handed false .host with sluice := Sluice.clear }, _, _, _, by decide +kernel, by decide +kernel, by decide +kernel, rfl, rfl, by decide +kernel⟩,
    ⟨withSeq { seqn .host with st := .releasing } (walking .handed false .host), _, by decide +kernel, rfl, by decide +kernel⟩,
    ⟨withSeq { seqn .host with pages := [] } (walking .handed false .host), _, by decide +kernel, rfl, by decide +kernel⟩⟩

/-- A walk whose page-in has failed. -/
theorem wit_WalksAreAnswered_failed : ∃ s gr m sl q pg, SeqsWf s ∧ findWalk s 0 4 = some (walk .failed false) ∧ inCisReset s = false ∧
    getSeq s 0 = some q ∧ q.pages[0]? = some pg ∧ findMem s 0 0 5 = some (gr, m) ∧ getSlot s gr.slot = some sl ∧ sl.ending = none :=
  ⟨walking .failed false .host, _, _, task, _, _, by decide +kernel, by decide +kernel, by decide +kernel, rfl, rfl, rfl, by decide +kernel, by decide +kernel⟩

/-- A write of a page that is not writable; a page in a lost stack; a page in each state, that for HOST with a zone page free. -/
theorem wit_WalksAreAnswered_page :
    (∃ s q pg, findWalk s 0 4 = some (walk .handed true) ∧ getSeq s 0 = some q ∧ q.st = .active ∧ q.pages[0]? = some pg ∧
      pageWritable s 0 0 q = false) ∧
    (∃ s q pg, findWalk s 0 4 = some (walk .handed false) ∧ getSeq s 0 = some q ∧ q.st = .active ∧ q.pages[0]? = some pg ∧
      pageOnLost s (walk .handed false) pg = true) ∧
    (∀ st ∈ [PageState.basin, .cistern, .reservoir, .pagingOut, .pagingIn], ∃ s q pg, findWalk s 0 4 = some (walk .handed false) ∧
      inCisReset s = false ∧ getSeq s 0 = some q ∧ q.st = .active ∧ q.pages[0]? = some pg ∧ pageOnLost s (walk .handed false) pg = false ∧ pg.st = st) ∧
    (∃ s q pg, findWalk s 0 4 = some (walk .handed false) ∧ inCisReset s = false ∧ getSeq s 0 = some q ∧ q.st = .active ∧
      q.pages[0]? = some pg ∧ pageOnLost s (walk .handed false) pg = false ∧ pg.st = .host ∧ (takeZonePage s q.half).isSome) := by
  refine ⟨⟨walking .handed true .cistern, _, _, by decide +kernel, rfl, by decide +kernel, rfl, by decide +kernel⟩,
    ⟨{ walking .handed false .cistern with reservoir := { Reservoir.unmapped with west := [0], lost := [0] } }, _, _, by decide +kernel, rfl,
      by decide +kernel, rfl, by decide +kernel⟩, ?_,
    ⟨{ walking .handed false .host with sluice := { (walking .handed false .host).sluice with west := { HalfSpace.empty with freed := [7] } } }, _, _, by decide +kernel, by decide +kernel, rfl,
      by decide +kernel, rfl, by decide +kernel⟩⟩
  intro st _
  exact ⟨walking .handed false st, seqn st, ⟨st, 0, none, none, false⟩, by cases st <;> decide +kernel⟩

/-- The last block of the Basins; a position that is retired. -/
theorem wit_ScrubberAndFrames :
    (∃ s, isDefect s 1 543 = false ∧ darkPosition s 543 = false ∧ inService s = true ∧ chanFull s (getPos s 543) = false ∧ (getPos s 543).scrub = 16383 ∧
      mapGet none (getPos s 543).frames (16383 * 256 / 65536) = none) ∧
    (∃ s, isDefect s 1 0 = true) :=
  ⟨⟨{ up with cores := [(543, { Pos.idle with scrub := 16383 })] }, by decide +kernel⟩, ⟨recorded 1 0 up, by decide +kernel⟩⟩

/-- 8 Sluice frames, sequence 0 with a CISTERN page that nothing writes, and a walker entry for it that counts 64. -/
def promoting : State :=
  let s := withSeq (seqn .cistern) (mapped (posWith (warp []) (fun c => { c with walker := [⟨0, 0, .memory 0, 4096, 0⟩] })))
  { s with keeper := { s.keeper with obj := [(Key.basinSluiceFrames, 8)], cores := [(0, 1)] } }

/-- The copy of the page in flight, all of it answered with zeros. -/
def promotingFull (bad : Bool) (left : Nat) : State :=
  let s := setPos promoting 0 { getPos promoting 0 with promote := some (0, 0, 63) }
  { s with cistern := { s.cistern with jobs := [⟨5, 0, 0, 0, .promote 0, left, [⟨0, List.replicate 32 0#8, bad, 0, 0⟩]⟩] } }

theorem wit_ScrubberAndFrames_promote :
    (∃ w f, walkerFind (getPos promoting 0) 0 0 = some w ∧ lruFrame promoting 0 = some f ∧ getObj promoting Key.promoteSectors ≠ 0 ∧
      getObj promoting Key.promoteSectors ≤ w.count ∧ (getPos promoting 0).promote = none ∧ beingPromoted promoting 0 0 = false ∧
      mayPromote promoting 0 0 = true ∧ positionServes promoting 0 = true ∧ frameRead promoting 0 f = false ∧
      inCisReset promoting = false ∧ mapGet none (getPos promoting 0).frames f = none) ∧
    (∃ s, getObj s Key.basinSluiceFrames = 0 ∧ lruFrame s 0 = none) ∧
    (∀ left ∈ [0, 1], ∀ bad, ∃ s j, (getPos s 0).promote = some (0, 0, 63) ∧ jobOf s (.promote 0) = some j ∧ j.left = left ∧
      chanFull s (getPos s 0) = false ∧ mayPromote s 0 0 = true ∧ 63 ∈ framesOf s ∧ positionServes s 0 = true ∧ (gotFailed j.got).isSome = bad) := by
  refine ⟨⟨_, _, rfl, rfl, by decide +kernel⟩, ⟨{ up with keeper := { up.keeper with obj := [(Key.basinSluiceFrames, 0)] } }, by decide +kernel⟩, ?_⟩
  intro left hl bad
  refine ⟨promotingFull bad left, _, by cases bad <;> fin_cases hl <;> decide +kernel, rfl, rfl, ?_⟩
  cases bad <;> fin_cases hl <;> decide +kernel

/-! ### The Cistern's slices (R224 to R238) -/

def inbox (op : ReqOp) : Slice := { Slice.empty with inbox := [⟨7, req op, false, false⟩] }

def cleanSector : Sector := ⟨.clean, List.replicate 32 1#8, 0, false⟩

/-- The slice whose inbox holds one request, its set as given. -/
def offering (op : ReqOp) (ls : List Line) : State := sliced { inbox op with sets := if ls.isEmpty then [] else [(0, ls)] } up

/-- Nothing to take; a class at its limit; a read, a store and a reduction of a present sector; each of an absent one with a way and
without one, and the store of a whole sector. -/
theorem wit_SlicesTakeRequests :
    (firstOffered (noteFull up 127 7) 127 7 = none) ∧
    (∃ s w, (getSlice s 127).waits = [w] ∧ reqPresent s 127 w.req = false ∧
      placeLine { getSlice s 127 with waits := [] } (lineOf w.req.sector) (ordinaryWays s 127) w.req.cls = none) ∧
    (∃ s, Offered s 127 7 ⟨7, req .line, false, false⟩ 0 ∧ lineWaits (getSlice s 127) 0 = false ∧ isPresent s 127 0 = true ∧
      (∀ e ∈ (getSlice s 127).redq, e.req.sector ≠ 0) ∧ isWin 0 = false) ∧
    (∃ s q i, (getSlice s 127).portLost = false ∧ firstOffered s 127 7 = some (q, i) ∧ q.req.cls < 8 ∧
      (∀ e ∈ (getSlice s 127).inbox, e.full = true ∨ heldBy s 127 e.req ≠ .register) ∧ classLimit s 0 q.req.cls ≤ intakeCount (getSlice s 127) q.req.cls) ∧
    (∀ op ∈ [ReqOp.read, .write 15 [], addOne], ∃ s, Offered s 127 7 ⟨7, req op, false, false⟩ 0 ∧
      lineWaits (getSlice s 127) 0 = false ∧ isPresent s 127 0 = true ∧ (∀ e ∈ (getSlice s 127).redq, e.req.sector ≠ 0) ∧
      (sectorNow s 127 0).bad = false) ∧
    (∀ op ∈ [ReqOp.read, .line, .write 15 [], addOne, .write fullMask []], ∃ s l, Offered s 127 7 ⟨7, req op, false, false⟩ 0 ∧
      lineWaits (getSlice s 127) 0 = false ∧ isPresent s 127 0 = false ∧ placeLine (getSlice s 127) 0 (ordinaryWays s 127) 7 = some l ∧
      (getSector l 0).st = .absent) ∧
    (∃ s, Offered s 127 7 ⟨7, req .read, false, false⟩ 0 ∧ lineWaits (getSlice s 127) 0 = false ∧ isPresent s 127 0 = false ∧
      placeLine (getSlice s 127) 0 (ordinaryWays s 127) 7 = none) := by
  refine ⟨by decide +kernel,
    ⟨{ sliced { Slice.empty with waits := [⟨req .read, 0⟩] } up with cistern := { (sliced { Slice.empty with waits := [⟨req .read, 0⟩] } up).cistern with winWays := [(1, 16)] } },
      ⟨req .read, 0⟩, by decide +kernel⟩,
    ⟨offering .line [lineWith cleanSector], by decide +kernel⟩, ⟨withObj (Key.outstandingLimit 7) 0 (offering .read []), ⟨7, req .read, false, false⟩, 0, by decide +kernel⟩, ?_, ?_,
    ⟨{ offering .read [] with cistern := { (offering .read []).cistern with winWays := [(1, 16)] } }, by decide +kernel⟩⟩
  · intro op h
    refine ⟨offering op [lineWith cleanSector], ?_⟩
    fin_cases h <;> decide +kernel
  · intro op h
    refine ⟨offering op [], putLine (getSlice (offering op []) 127) { way := 0, tag := 0, sectors := List.replicate 4 Sector.absent, held := [], use := 0, cls := 7 }, ?_⟩
    fin_cases h <;> decide +kernel

/-- A slice of one line, all of whose sectors are good, in a window that holds none that failed. -/
theorem sound_of {s : State} {g : Nat} {l : Line} (hw : s.cistern.winBad = []) (hs : (getSlice s g).sets = [(0, [l])])
    (hl : ∀ i, (l.sectors.getD i Sector.absent).bad = false) : SoundSlice s g := by
  intro n
  simp only [sectorNow]
  split
  · simp [hw, mapGet]
  · simp only [getSector, findLine, hs]
    by_cases h : homeSet (lineOf n * 128) = 0 <;> by_cases k : l.tag = lineOf n <;> simp [mapGet, h, k, Sector.absent]
    exact hl _

/-- A fetch that has come, good and failed; entries ready for a present sector; a CLEAN one; a miss that has waited 128 ns beside a
locked line, and one 127 ns. -/
theorem wit_SectorsFillAndReduce :
    (∀ bad, ∃ s f, (getSlice s 127).fetches.find? (fun f => f.sector == 0 && f.back.isSome) = some f ∧ f.back = some ([], bad) ∧
      (getSlice s 127).waits = [] ∧ (∀ r ∈ ((mrOf (getSlice s 127) 0).map (·.waiters)).getD [], r.sector = 0 → r.op = .read ∨ r.op = .line) ∧
      (getSector (getSlice s 127) 0).st = .pending) ∧
    (∀ f ∈ (getSlice up 127).fetches, f.sector = 0 → f.back = none) ∧ (nextReduction up 127 = none) ∧
    (∃ s, nextReduction s 127 = some 0 ∧ (sectorNow s 127 0).bad = false ∧ (getSlice s 127).waits = [] ∧
      (∀ e ∈ (getSlice s 127).redq.filter (fun e => e.req.sector == 0), isReduce e.req = true) ∧ (sectorNow s 127 0).st = .clean) ∧
    (∀ t ∈ [127, 128], ∃ s, (getSlice s 127).waits.any (fun w => homeSet (w.req.sector * 32) == 0 && decide (w.since + 128 ≤ now s)) = (t == 128) ∧
      oldestLocked (getSlice s 127) 0 ≠ none ∧ (getSlice s 127).forced.any (fun l => homeSet (l * 128) == 0) = false ∧ SoundSlice s 127) := by
  let pend : Slice := { Slice.empty with sets := [(0, [lineWith ⟨.pending, [], 0, false⟩])], mrs := [⟨0, [req .read], []⟩] }
  let lock : Slice := { Slice.empty with sets := [(0, [lineWith cleanSector])], redq := [⟨req addOne, 0, false⟩] }
  refine ⟨fun bad => ⟨sliced { pend with fetches := [⟨0, 0, 0, true, false, false, some ([], bad)⟩] } up, ⟨0, 0, 0, true, false, false, some ([], bad)⟩, ?_⟩,
    by decide +kernel, by decide +kernel, ⟨sliced lock up, by decide +kernel⟩, ?_⟩
  · cases bad <;> decide +kernel
  · intro t h
    refine ⟨at_ t (sliced { lock with waits := [⟨req .read, 0⟩] } up), ?_, ?_, ?_, sound_of (l := lineWith cleanSector) ?_ ?_ ?_⟩
    · fin_cases h <;> decide +kernel
    · fin_cases h <;> decide +kernel
    · fin_cases h <;> decide +kernel
    · fin_cases h <;> decide +kernel
    · fin_cases h <;> decide +kernel
    · rintro (_ | _ | _ | _ | _) <;> rfl

/-! ### The Cistern's monitors and pins (R218 to R221, R232, R233, R239, R259) -/

/-- Slice 127 above the limit with its flag clear, and no other; a slice that holds a request and has completed none for 1 ms, in
service, in a reset, and one ns before. -/
theorem wit_MonitorsSillAndPins :
    (∃ s : State, now s < s.cistern.thrashStart + getObj s Key.thrashWindow * 1000) ∧
    (∃ s, s.cistern.thrashStart + getObj s Key.thrashWindow * 1000 ≤ now s ∧ getObj s Key.thrashLimit < (getSlice s 127).windowRefetch ∧ getObj s (Key.thrashFlag 127) = 0 ∧
      ∀ k, k < 128 → k ≠ 127 → (getSlice s k).windowRefetch ≤ getObj s Key.thrashLimit) ∧
    (∃ s, (getSlice s 127).mrs ≠ [] ∧ (getSlice s 127).lastDone + 1000000 ≤ now s ∧ inCisReset s = false ∧ inService s = true) ∧
    (∃ s, (getSlice s 127).redq ≠ [] ∧ (getSlice s 127).lastDone + 1000000 ≤ now s ∧ inCisReset s = true) ∧
    (∃ s, ¬(((getSlice s 127).mrs ≠ [] ∨ (getSlice s 127).redq ≠ [] ∨ (getSlice s 127).waits ≠ []) ∧ (getSlice s 127).lastDone + 1000000 ≤ now s) ∧
      (getSlice s 127).waits ≠ []) := by
  let m : Slice := { Slice.empty with mrs := [⟨0, [req .read], []⟩], redq := [⟨req addOne, 0, false⟩], waits := [⟨req .read, 0⟩], windowRefetch := 2 ^ 32 }
  exact ⟨⟨up, by decide +kernel⟩, ⟨at_ (10 ^ 12) (sliced m up), by decide +kernel⟩, ⟨at_ 1000000 (sliced m up), by decide +kernel⟩,
    ⟨let s := at_ 1000000 (sliced m up); { s with cistern := { s.cistern with reset := some ⟨1, 0, 0⟩ } }, by decide +kernel⟩,
    ⟨at_ 999999 (sliced m up), by decide +kernel⟩⟩

/-- A Sill direction's transfers. -/
def silled (xs : List SillXfer) (s : State) : State := { s with cistern := { s.cistern with sill := [(1, xs)] } }

/-- Transfers of each kind, at the seventh failure and the eighth; none sent. -/
theorem wit_MonitorsSillAndPins_sill :
    (∀ item ∈ [SillItem.request (req .read) 5, .answer (.core 0 0 5) ⟨0, [], false, 0, 0⟩, .accept (.core 0 0 5) 0,
        .answer (.job 0 portHost 3) ⟨0, [], false, 0, 0⟩], ∀ n ∈ [6, 7], ∃ (s : State) (x : SillXfer) (gr : Machine.Group) (m : MemOp),
      (mapGet [] s.cistern.sill 1).zipIdx.find? (fun e => e.1.sent) = some (x, 1) ∧ x.item = item ∧ x.fails = n ∧
      findMem s 0 0 5 = some (gr, m) ∧ inService s = true ∧ inCisReset s = false) ∧
    (∃ s : State, mapGet [] s.cistern.sill 1 ≠ [] ∧ (mapGet [] s.cistern.sill 1).all (fun x => !x.sent) = true) := by
  refine ⟨?_, ⟨silled [⟨.request (req .read) 5, 7, 0, 0, false⟩] up, by decide +kernel⟩⟩
  intro item hi n hn
  let w : Machine.Group := { warp [] with mem := [memOp .atom 4] }
  refine ⟨silled [⟨.request (req .read) 5, 7, 0, 0, false⟩, ⟨item, 7, 32, n, true⟩] (holding w task), ⟨item, 7, 32, n, true⟩, w, memOp .atom 4, ?_⟩
  fin_cases hi <;> fin_cases hn <;> decide +kernel

/-- A commit in application that pins 12 ways, with no line above the fifth and with one; one that leaves 1; a pool of its largest size. -/
def applying (k v : Nat) (s : State) : State :=
  let s1 := withObj k v s
  { s1 with keeper := { s1.keeper with txn := { s1.keeper.txn with st := .applying } } }

theorem wit_MonitorsSillAndPins_pins :
    (∃ s, s.keeper.txn.st = .applying ∧ s.boot.warmWanted = none ∧ getObj s (Key.pinWays 1) = 12 ∧ getObj s (Key.pinWays 1) ≠ pinWays s 1 ∧
      ∀ k, k < 64 → linesFrom (getSlice s (1 * 64 + k)) (16 - getObj s (Key.pinWays 1)) = []) ∧
    (∃ s, s.keeper.txn.st = .applying ∧ s.boot.warmWanted = none ∧ getObj s (Key.pinWays 1) = 1 ∧ getObj s (Key.pinWays 1) < pinWays s 1) ∧
    (∃ s l, s.keeper.txn.st = .applying ∧ s.boot.warmWanted = none ∧ getObj s (Key.pinWays 1) = 12 ∧ pinWays s 1 < 12 ∧
      linesFrom (getSlice s (64 + 63)) (16 - getObj s (Key.pinWays 1)) = [l] ∧ findLine (getSlice s (64 + 63)) l.tag = some l ∧
      mayEvict (getSlice s (64 + 63)) l = true ∧ wbLines (getSlice s (64 + 63)) < 64 ∧
      (∀ j, j < 64 → j ≠ 63 → linesFrom (getSlice s (64 + j)) (16 - getObj s (Key.pinWays 1)) = []) ∧
      ∃ x, l.sectors[0]? = some x ∧ x.st = .dirty) ∧
    (∃ s l, s.keeper.txn.st = .applying ∧ s.boot.warmWanted = none ∧ getObj s (Key.pinWays 1) = 12 ∧ pinWays s 1 < 12 ∧
      linesFrom (getSlice s (64 + 63)) (16 - getObj s (Key.pinWays 1)) = [l] ∧ findLine (getSlice s (64 + 63)) l.tag = some l ∧
      mayEvict (getSlice s (64 + 63)) l = false ∧ ∀ j, j < 64 → j ≠ 63 → linesFrom (getSlice s (64 + j)) (16 - getObj s (Key.pinWays 1)) = []) ∧
    (∃ s, s.keeper.txn.st = .applying ∧ s.boot.warmWanted = none ∧ getObj s (Key.poolPages 1) ≠ (getHalf s 1).poolPages ∧
      getObj s (Key.poolPages 1) < 2 ^ 20 ∧ ∀ b ∈ s.sluice.bufs, ¬(b.level = 1 ∧ b.half = 1)) ∧
    (up.keeper.txn.st ≠ .applying) :=
  ⟨⟨applying (Key.pinWays 1) 12 up, by decide +kernel⟩,
    ⟨let s := applying (Key.pinWays 1) 1 up; { s with cistern := { s.cistern with winWays := [(1, 2)] } }, by decide +kernel⟩,
    ⟨applying (Key.pinWays 1) 12 (sliced { Slice.empty with sets := [(0, [lineWith ⟨.dirty, [], 0, false⟩])] } up), lineWith ⟨.dirty, [], 0, false⟩,
      by decide +kernel⟩,
    ⟨applying (Key.pinWays 1) 12 (sliced { Slice.empty with sets := [(0, [{ lineWith Sector.absent with held := [0] }])] } up), { lineWith Sector.absent with held := [0] },
      by decide +kernel⟩,
    ⟨applying (Key.poolPages 1) (2 ^ 20 - 1) up, by decide +kernel⟩, by decide +kernel⟩

/-! ### The Reservoir (R243 to R252, R284) -/

/-- A fetch of sector 0 that the slice may send. -/
def fetch0 : Fetch := { id := 3, sector := 0, cls := 7, sent := false, held := false, recovered := false, back := none }

/-- The slice with that fetch, and channel 0 of stack 0. -/
def fetching (c : Channel) : State :=
  let s := mapped (sliced { Slice.empty with fetches := [fetch0] } up)
  { s with reservoir := { s.reservoir with chans := [(0, c)] } }

abbrev fetches (s : State) : Prop :=
  (getSlice s 127).fetches.find? (fun x => x.id == 3) = some fetch0 ∧ mayFetch (getSlice s 127) fetch0 = true ∧ fetch0.held = false ∧
    (resLoc s 0).stack = 0 ∧ (resLoc s 0).ch = 0

def read0 : ChRead := ⟨127, 3, 0, 7, 0, 0⟩

theorem wit_ReservoirReads :
    (∃ s, fetches s ∧ onLostStack s 0 = true) ∧ (∃ s, fetches s ∧ onLostStack s 0 = false ∧ 64 ≤ (getChan s 0 0).reads.length) ∧
    (∃ s, fetches s ∧ onLostStack s 0 = false ∧ (getChan s 0 0).reads.length < 64 ∧ classLimit s 1 7 ≤ chanCount (getChan s 0 0) 7) ∧
    (∃ s, fetches s ∧ onLostStack s 0 = false ∧ (getChan s 0 0).reads.length = 63 ∧ chanCount (getChan s 0 0) 7 < classLimit s 1 7) ∧
    (∃ (s : State) (f : Fetch), (getSlice s 127).fetches.find? (fun x => x.id == 3) = some f ∧ f.held = true) :=
  ⟨⟨let s := fetching Channel.idle; { s with reservoir := { s.reservoir with lost := [0] } }, by decide +kernel⟩,
    ⟨fetching { Channel.idle with reads := List.replicate 64 read0 }, by decide +kernel⟩,
    ⟨withObj (Key.outstandingLimit 23) 1 (fetching { Channel.idle with reads := [read0] }), by decide +kernel⟩,
    ⟨withObj (Key.outstandingLimit 23) 64 (fetching { Channel.idle with reads := List.replicate 63 read0 }), by decide +kernel⟩,
    ⟨sliced { Slice.empty with fetches := [{ fetch0 with held := true }] } up, { fetch0 with held := true }, by decide +kernel⟩⟩

/-- A read that the write queue answers; a channel's next read: unmarked at its third try and its fourth, marked, and of a page that has a
host copy; two reads of which one is 2 µs old; one to an open row; none, and none while the channel drains. -/
theorem wit_ReservoirReads_return :
    (∃ s r w, answeredFromWrites (getChan s 0 0) = some (r, w) ∧ (getChan s 0 0).retraining = false ∧ w.mark = false) ∧
    (∀ n ∈ [2, 3], ∃ s, nextRead s (getChan s 0 0) = some { read0 with tries := n } ∧ (getChan s 0 0).retraining = false ∧
      (getChan s 0 0).draining = false ∧ answeredFromWrites (getChan s 0 0) = none ∧ (resRead s 0).2 = false ∧ hasHostCopy s 0 = false) ∧
    (∃ s, nextRead s (getChan s 0 0) = some read0 ∧ (getChan s 0 0).retraining = false ∧ (getChan s 0 0).draining = false ∧
      answeredFromWrites (getChan s 0 0) = none ∧ (resRead s 0).2 = true ∧ hasHostCopy s 0 = true ∧
      ∀ f ∈ (getSlice s 127).fetches, f.id = 3 → f.recovered = false) ∧
    (∃ s r, nextRead s (getChan s 0 0) = some r ∧ ∃ q ∈ (getChan s 0 0).reads, q.since + 2000 ≤ now s) ∧
    (∃ s r, nextRead s (getChan s 0 0) = some r ∧ (∀ q ∈ (getChan s 0 0).reads, now s < q.since + 2000) ∧
      ∃ q ∈ (getChan s 0 0).reads, rowOpen s (getChan s 0 0) q.sector = true) ∧
    ((getChan up 7 127).reads = []) ∧ (∃ s, (getChan s 0 0).draining = true ∧ (getChan s 0 0).reads ≠ [] ∧ answeredFromWrites (getChan s 0 0) = none) := by
  refine ⟨⟨fetching { Channel.idle with reads := [read0], writes := [⟨0, [], 7, false⟩] }, read0, ⟨0, [], 7, false⟩, by decide +kernel⟩, ?_,
    ⟨let s := withSeq { seqn .cistern with pages := [⟨.cistern, 0, some 5, none, false⟩] } (fetching { Channel.idle with reads := [read0] });
      { s with reservoir := { s.reservoir with marked := [(0, true)] } }, by decide +kernel⟩,
    ⟨at_ 2000 (fetching { Channel.idle with reads := [read0, { read0 with sector := 1, since := 1 }] }), read0, by decide +kernel⟩,
    ⟨at_ 1999 (fetching { Channel.idle with reads := [read0], openRow := [(0, 1)] }), read0, by decide +kernel⟩, by decide +kernel,
    ⟨fetching { Channel.idle with reads := [read0], draining := true }, by decide +kernel⟩⟩
  intro n h
  refine ⟨fetching { Channel.idle with reads := [{ read0 with tries := n }] }, ?_⟩
  fin_cases h <;> decide +kernel

def wb0 : WbSector := ⟨0, [], 7, false, 0⟩

/-- Writebacks with room, with none, and to a lost stack; a channel at each edge of its two thresholds. -/
theorem wit_ReservoirWritesAndUpkeep :
    (∃ s, (getSlice s 127).wb = [wb0] ∧ (getSlice s 127).waits = [] ∧ writeRoom s 0 = true ∧ onLostStack s 0 = false) ∧
    (∃ s, (getSlice s 127).wb = [wb0] ∧ (getSlice s 127).waits = [] ∧ writeRoom s 0 = true ∧ onLostStack s 0 = true) ∧
    (∃ s, (getSlice s 127).wb = [wb0] ∧ writeRoom s 0 = false) ∧
    (∃ s, (getChan s 0 0).draining = false ∧ (getChan s 0 0).writes.length = 48) ∧
    (∃ s, (getChan s 0 0).draining = false ∧ (getChan s 0 0).reads = [] ∧ (getChan s 0 0).emptySince + 32 = now s ∧ (getChan s 0 0).writes.length = 17) ∧
    (∃ s, (getChan s 0 0).draining = true ∧ (getChan s 0 0).writes.length = 16) ∧
    (∃ s, (getChan s 0 0).draining = true ∧ (getChan s 0 0).reads ≠ [] ∧ (getChan s 0 0).writes.length = 47) ∧
    (∃ s, (getChan s 0 0).reads = [] ∧ now s < (getChan s 0 0).emptySince + 32 ∧ (getChan s 0 0).writes.length = 17) := by
  let w : ChWrite := ⟨64, [], 7, false⟩
  let s0 := mapped (sliced { Slice.empty with wb := [wb0] } up)
  let chan (c : Channel) : State := { s0 with reservoir := { s0.reservoir with chans := [(0, c)] } }
  exact ⟨⟨s0, by decide +kernel⟩, ⟨{ s0 with reservoir := { s0.reservoir with lost := [0] } }, by decide +kernel⟩,
    ⟨chan { Channel.idle with writes := List.replicate 64 w }, by decide +kernel⟩, ⟨chan { Channel.idle with writes := List.replicate 48 w }, by decide +kernel⟩,
    ⟨at_ 32 (chan { Channel.idle with writes := List.replicate 17 w }), by decide +kernel⟩,
    ⟨chan { Channel.idle with draining := true, writes := List.replicate 16 w }, by decide +kernel⟩,
    ⟨chan { Channel.idle with draining := true, reads := [read0], writes := List.replicate 47 w }, by decide +kernel⟩,
    ⟨at_ 31 (chan { Channel.idle with draining := true, writes := List.replicate 17 w }), by decide +kernel⟩⟩

/-- A burst of writes, at its last resend and past it; a bank with a request at its second and third owed refresh; sixteen failures within
1 ms, and fifteen; a channel that retrains. -/
theorem wit_ReservoirWritesAndUpkeep_upkeep :
    (∀ n ∈ [2, 3], ∃ s w, (getChan s 7 127).retraining = false ∧ (getChan s 7 127).draining = true ∧ (getChan s 7 127).writes = [w] ∧
      (getChan s 7 127).writeTries = n ∧ 7 ∉ s.reservoir.lost) ∧
    (∀ n ∈ [2, 3], ∃ s, 0 < bankRequests s (getChan s 0 0) (getChan s 0 0).refreshBank ∧
      mapGet 0 (getChan s 0 0).owed (getChan s 0 0).refreshBank = n) ∧
    (bankRequests up (getChan up 0 0) (getChan up 0 0).refreshBank = 0) ∧
    (∀ n ∈ [15, 16], ∃ s, ((getChan s 7 127).fails.filter (fun x => decide (now s < x + 1000000))).length = n ∧ (getChan s 7 127).retraining = false) ∧
    (∃ s, (getChan s 7 127).retraining = true ∧ 7 ∉ s.reservoir.lost) := by
  let chan (c : Channel) : State := { up with reservoir := { up.reservoir with chans := [(7 * 128 + 127, c)] } }
  refine ⟨?_, ?_, by decide +kernel, ?_, ⟨chan { Channel.idle with retraining := true }, by decide +kernel⟩⟩
  · intro n h
    refine ⟨chan { Channel.idle with draining := true, writes := [⟨64, [], 7, false⟩], writeTries := n }, ⟨64, [], 7, false⟩, ?_⟩
    fin_cases h <;> decide +kernel
  · intro n h
    refine ⟨fetching { Channel.idle with reads := [read0], owed := [(0, n)] }, ?_⟩
    fin_cases h <;> decide +kernel
  · intro n h
    refine ⟨at_ 999999 (chan { Channel.idle with fails := List.replicate n 0 }), ?_⟩
    fin_cases h <;> decide +kernel

/-! ### Host moves (R265, R272, R277, R281 to R286) -/

/-- A waiting task that names sequence 0, in the ranking of look-ahead, and one page of it in the host. -/
def ahead : State :=
  let s := withSeq (seqn .host) (slotted up [waiting (goodRecord.set 16 (BitVec.ofNat 64 (2 ^ 63)))])
  { s with sluice := { s.sluice with west := { HalfSpace.empty with freed := [7] } } }

/-- A move outstanding of the page of sequence 0, and the job of that move with `left` answers to come. -/
def moving (q : Seqn) (dir : Bool) (js : List Job) : State :=
  let s := withSeq q up
  { s with sluice := { s.sluice with moves := [(0, 0, dir)] }, port := { s.port with up := true, queue := [.page 0 0 dir] },
           cistern := { s.cistern with jobs := js } }

/-- A job that waits for `left` answers, with one answer that came. -/
def jobFor (who : JobFor) (left : Nat) (bad : Bool) : Job := ⟨5, 0, portHost, 0, who, left, [⟨0, List.replicate 32 0#8, bad, 0, 0⟩]⟩

theorem wit_HostMovesAndReleases_in :
    (inService ahead = true ∧ inCisReset ahead = false ∧ ((aheadTasks ahead).flatMap (fun e => taskPages ahead e.2)).dedup = [(0, 0)] ∧
      (∃ pg, getPage ahead 0 0 = some pg ∧ pg.st = .host) ∧ (takeZonePage ahead 0).isSome) ∧
    (∃ s q pg, moveServed s (0, 0, true) = true ∧ jobOf s (.pageIn 0 0) = none ∧ orphanOf s 0 0 true = none ∧ getSeq s 0 = some q ∧
      getPage s 0 0 = some pg ∧ QuietPaging s ∧ (∀ e ∈ liveSlots s, e.2.staging = .moving → (0, 0) ∉ e.2.asked) ∧ NoPoisonDue s ∧
      pageWritable s 0 0 q = true) ∧
    (∃ s q pg, orphanOf s 0 0 true = none ∧ getSeq s 0 = some q ∧ getPage s 0 0 = some pg ∧ QuietPaging s ∧ pageWritable s 0 0 q = false) ∧
    (∃ (s : State) (j : Job), s.cistern.jobs = [j] ∧ j.who = .pageIn 0 0 ∧ j.left = 0) ∧ (moveServed up (0, 0, true) = false) ∧
    (∃ s, (jobOf s (.pageIn 0 0)).isSome = true) := by
  exact ⟨by decide +kernel, ⟨moving { seqn .pagingIn with writeFrom := 0 } true [], { seqn .pagingIn with writeFrom := 0 },
      ⟨.pagingIn, 0, none, none, false⟩, by decide +kernel⟩,
    ⟨moving (seqn .pagingIn) true [], seqn .pagingIn, ⟨.pagingIn, 0, none, none, false⟩, by decide +kernel⟩,
    ⟨moving (seqn .pagingIn) true [jobFor (.pageIn 0 0) 0 false], _, rfl, rfl, rfl⟩, by decide +kernel,
    ⟨moving (seqn .pagingIn) true [jobFor (.pageIn 0 0) 1 false], by decide +kernel⟩⟩

/-- A half short of pages whose only RESERVOIR page has a host copy, and has none. -/
def short (hp : Option Nat) : State :=
  let s := withSeq { seqn .reservoir with pages := [⟨.reservoir, 0, hp, none, false⟩] } up
  withObj Key.hostPoolPages 100 (withObj Key.pageoutLow 8 (withObj Key.pageoutHigh 16 s))

abbrev isShort (s : State) : Prop :=
  inService s = true ∧ inCisReset s = false ∧ (getHalf s 0).pagingOut = false ∧ getObj s Key.hostPoolPages ≠ 0 ∧
    freeSeqPages (getHalf s 0) < getObj s Key.pageoutLow ∧ pageoutCandidates s 0 = [(0, 0)] ∧
    freeSeqPages (getHalf s 0) + pagingOut s 0 < getObj s Key.pageoutHigh

theorem wit_HostMovesAndReleases_out :
    (∃ s pg, isShort s ∧ getPage s 0 0 = some pg ∧ pg.hostPage ≠ none) ∧
    (∃ s pg, isShort s ∧ getPage s 0 0 = some pg ∧ pg.hostPage = none ∧ s.sluice.moves.length < getObj s Key.hostMoves ∧ (takeHostPage s).isSome) ∧
    (∀ left ∈ [0, 1], ∀ bad, ∃ s j q pg, moveServed s (0, 0, false) = true ∧ jobOf s (.pageOut 0 0) = some j ∧ orphanOf s 0 0 false = none ∧
      getSeq s 0 = some q ∧ getPage s 0 0 = some pg ∧ pg.st = .pagingOut ∧ QuietPaging s ∧ j.left = left ∧ (gotFailed j.got).isSome = bad ∧
      getObj s Key.hostClass < 8) ∧
    (getHalf up 0).pagingOut = false ∧ getObj up Key.hostPoolPages = 0 := by
  refine ⟨⟨short (some 5), ⟨.reservoir, 0, some 5, none, false⟩, by decide +kernel⟩, ⟨short none, ⟨.reservoir, 0, none, none, false⟩, by decide +kernel⟩,
    ?_, by decide +kernel⟩
  intro left hl bad
  refine ⟨moving (seqn .pagingOut) false [jobFor (.pageOut 0 0) left bad], jobFor (.pageOut 0 0) left bad, seqn .pagingOut,
    ⟨.pagingOut, 0, none, none, false⟩, ?_⟩
  cases bad <;> fin_cases hl <;> decide +kernel

/-- SEQ_RELEASE and SEQ_QUERY of the last sequence number, FREE, ACTIVE and in use, and ACTIVE and not in use. -/
theorem wit_HostMovesAndReleases_release :
    (∃ s w, WriteTaken s w Key.seqRelease 100000 ∧ getSeq s 100000 = none) ∧
    (∃ s w q, WriteTaken s w Key.seqRelease 0 ∧ getSeq s 0 = some q ∧ q.st = .active ∧ seqUsed s 0 = true) ∧
    (∃ s w q, WriteTaken s w Key.seqRelease 0 ∧ getSeq s 0 = some q ∧ q.st = .active ∧ seqUsed s 0 = false) ∧
    (∃ s w, WriteTaken s w Key.seqQuery 131071) :=
  ⟨⟨up, put Key.seqRelease 100000, takes_taken (by decide +kernel), by decide +kernel⟩,
    ⟨withSeq (seqn .cistern) (slotted up [{ waiting (goodRecord.set 16 (BitVec.ofNat 64 (2 ^ 63))) with state := 3 }]), put Key.seqRelease 0, seqn .cistern,
      takes_taken (by decide +kernel), by decide +kernel⟩,
    ⟨withSeq (seqn .cistern) up, put Key.seqRelease 0, seqn .cistern, takes_taken (by decide +kernel), by decide +kernel⟩,
    ⟨up, put Key.seqQuery 131071, takes_taken (by decide +kernel)⟩⟩

/-! ### Flits and links (R302 to R312, R320) -/

/-- A flit of SEQ `seq` that carries a packet of a type and a number of sectors less one, and the CRC and the parity of its frame,
reckoned by hand from R302. -/
def flit (seq : Nat) (ty : PktType) (sectors : Nat) : List Byte := flitBytes seq 0 0 3 0 { bareFlit ty with sectors := sectors }

def frameOf (seq : Nat) (ty : PktType) (sectors : Nat) (tail : List Nat) : List Byte := flit seq ty sectors ++ tail.map (BitVec.ofNat 8)

def goodFrame : List Byte := frameOf 0 .read 6 [58, 152, 237, 19, 35, 42, 72, 226, 94, 41, 65, 117, 104, 194, 75, 28]
def longFrame : List Byte := frameOf 0 .read 7 [52, 38, 99, 229, 145, 213, 222, 239, 248, 4, 16, 77, 251, 7, 203, 118]
def nullFrame : List Byte := frameOf 4095 .null 0 [204, 49, 215, 208, 216, 105, 172, 177, 151, 222, 200, 83, 176, 249, 140, 114]
def badNullFrame : List Byte := frameOf 4095 .null 7 [4, 230, 166, 26, 245, 192, 179, 146, 227, 144, 40, 141, 195, 84, 32, 217]
def poolFrame : List Byte := frameOf 0 .pool 0 [206, 101, 138, 193, 121, 205, 85, 132, 167, 45, 228, 68, 89, 29, 182, 89]

set_option maxRecDepth 1000000

theorem test_frame_good : decodeFrame goodFrame = some (flit 0 .read 6, false) := by decide +kernel
theorem test_frame_long : decodeFrame longFrame = some (flit 0 .read 7, false) := by decide +kernel
theorem test_frame_null : decodeFrame nullFrame = some (flit 4095 .null 0, false) := by decide +kernel
theorem test_frame_bad_null : decodeFrame badNullFrame = some (flit 4095 .null 7, false) := by decide +kernel
theorem test_frame_pool : decodeFrame poolFrame = some (flit 0 .pool 0, false) := by decide +kernel

/-- The frame that is sent has the check and the parity reckoned above, and goes out bit pair by bit pair. -/
theorem test_frame_sent : wireFrame (flit 0 .read 6) = goodFrame ∧ ((frameLanes goodFrame)[2]?).map (fun x => x.take 4) = some [0, 0, 0, 0] ∧
    ((frameLanes goodFrame)[0]?).map (fun x => (x.drop 256).take 4) = some [2, 2, 3, 0] := by decide +kernel

/-- Three wrong bytes of a codeword are corrected. -/
theorem test_frame_corrected : decodeFrame (((goodFrame.set 0 1#8).set 100 7#8).set 270 255#8) = some (flit 0 .read 6, true) := by decide +kernel

set_option maxRecDepth 512

/-- A link that receives, and waits for the flit after `lastRx`. -/
abbrev waitsFor (s : State) (lastRx : Nat) : Prop := receives s 35 = true ∧ Still (getLink s 35) ∧ (getLink s 35).lastRx = lastRx

theorem linked_waits (n : Nat) : waitsFor (linked { upLink with lastRx := n } up) n := ⟨rfl, ⟨rfl, rfl⟩, rfl⟩

/-- A frame lost, with no gap and with one noted 1 µs ago; a good packet in order and out of order; one of eight sectors; a NULL. -/
theorem wit_FlitsAndLinks_receive :
    (receives up 35 = false) ∧
    (∃ s, waitsFor s 4095 ∧ (getLink s 35).gap = none ∧ decodeFrame [] = none) ∧
    (∃ s, waitsFor s 4095 ∧ (getLink s 35).gap = some 0 ∧ 0 + 1000 ≤ now s) ∧
    (∀ n ∈ [4095, 7], ∃ s p, waitsFor s n ∧ decodeFrame goodFrame = some (flit 0 .read 6, false) ∧ packetOf (flit 0 .read 6) = some p ∧
      bits (leAt (flit 0 .read 6) 0 16) 127 116 = 0 ∧ p.ty = .read ∧ packetOk p = true) ∧
    (∃ s p, waitsFor s 4095 ∧ decodeFrame longFrame = some (flit 0 .read 7, false) ∧ packetOf (flit 0 .read 7) = some p ∧
      bits (leAt (flit 0 .read 7) 0 16) 127 116 = 0 ∧ p.ty = .read ∧ packetOk p = false) ∧
    (∃ s p, waitsFor s 4095 ∧ decodeFrame poolFrame = some (flit 0 .pool 0, false) ∧ packetOf (flit 0 .pool 0) = some p ∧
      bits (leAt (flit 0 .pool 0) 0 16) 127 116 = 0 ∧ p.ty = .pool ∧ packetOk p = true) ∧
    (∀ n ∈ [4095, 7], ∃ s p, waitsFor s n ∧ decodeFrame nullFrame = some (flit 4095 .null 0, false) ∧ packetOf (flit 4095 .null 0) = some p ∧
      bits (leAt (flit 4095 .null 0) 0 16) 127 116 = 4095 ∧ p.ty = .null ∧ packetOk p = true) ∧
    (∃ s p, waitsFor s 4095 ∧ decodeFrame badNullFrame = some (flit 4095 .null 7, false) ∧ packetOf (flit 4095 .null 7) = some p ∧
      bits (leAt (flit 4095 .null 7) 0 16) 127 116 = 4095 ∧ p.ty = .null ∧ packetOk p = false) := by
  let pkt (ty : PktType) (n : Nat) : Packet := { bareFlit ty with sectors := n, payload := List.replicate 240 0#8 }
  refine ⟨by decide +kernel, ⟨linked upLink up, by decide +kernel⟩, ⟨at_ 1000 (linked { upLink with gap := some 0 } up), by decide +kernel⟩, ?_,
    ⟨_, pkt .read 7, linked_waits 4095, test_frame_long, by decide +kernel⟩, ⟨_, pkt .pool 0, linked_waits 4095, test_frame_pool, by decide +kernel⟩, ?_,
    ⟨_, pkt .null 7, linked_waits 4095, test_frame_bad_null, by decide +kernel⟩⟩
  · intro n _
    exact ⟨_, pkt .read 6, linked_waits n, test_frame_good, by decide +kernel⟩
  · intro n _
    exact ⟨_, pkt .null 0, linked_waits n, test_frame_null, by decide +kernel⟩

def sent : Unacked := { seq := 4, pkt := bareFlit .write, sentAt := 0, resends := 8 }

/-- NULL and RETRY_REQ in the receive buffer, and neither; the replay timer at 2 µs and one ns before. -/
theorem wit_FlitsAndLinks_replay :
    (∀ p ∈ (getLink up 35).rx, p.ty ≠ .null ∧ p.ty ≠ .retryReq) ∧
    (∃ s, (getLink s 35).rx.findIdx? (fun p => p.ty == .null) = some 1 ∧ Still (getLink s 35) ∧
      (getLink s 35).rx.findIdx? (fun p => p.ty == .retryReq) = some 0 ∧ receives s 35 = true) ∧
    (∃ s, (getLink s 35).rx.findIdx? (fun p => p.ty == .retryReq) = some 0 ∧ receives s 35 = false) ∧ (getLink up 35).unacked = [] ∧
    (∃ s u us, (getLink s 35).unacked = u :: us ∧ receives s 35 = false) ∧
    (∃ s u us, (getLink s 35).unacked = u :: us ∧ receives s 35 = true ∧ u.sentAt + 2000 ≤ now s) ∧
    (∃ s u us, (getLink s 35).unacked = u :: us ∧ now s < u.sentAt + 2000) :=
  ⟨by decide +kernel, ⟨linked { upLink with rx := [bareFlit .retryReq, bareFlit .null] } up, by decide +kernel⟩,
    ⟨linked { upLink with st := .down, rx := [bareFlit .retryReq] } up, by decide +kernel⟩, by decide +kernel,
    ⟨linked { upLink with st := .down, unacked := [sent] } up, sent, [], by decide +kernel⟩,
    ⟨at_ 2000 (linked { upLink with unacked := [sent] } up), sent, [], by decide +kernel⟩,
    ⟨at_ 1999 (linked { upLink with unacked := [sent] } up), sent, [], by decide +kernel⟩⟩

/-- A flit sent again eight times, and 64 resends in 1 ms, and 63; a link silent for 8 µs, and one ns less. -/
theorem wit_FlitsAndLinks_retrain :
    (∃ s, (getLink s 35).st = .up ∧ ∃ u ∈ (getLink s 35).unacked, 8 ≤ u.resends) ∧
    (∀ n ∈ [63, 64], ∃ s, (getLink s 35).st = .up ∧ (∀ u ∈ (getLink s 35).unacked, ¬8 ≤ u.resends) ∧
      ((getLink s 35).resentAt.filter (fun x => decide (now s < x + 1000000))).length = n) ∧
    (∃ s, (getLink s 35).st = .withdrawn ∧ (getLink s 35).lastGood + 8000 ≤ now s) ∧
    (∃ s, (getLink s 35).st = .up ∧ ¬(getLink s 35).lastGood + 8000 ≤ now s) := by
  refine ⟨⟨linked { upLink with unacked := [sent] } up, by decide +kernel⟩, ?_, ⟨at_ 8000 (linked { upLink with st := .withdrawn } up), by decide +kernel⟩,
    ⟨at_ 7999 (linked upLink up), by decide +kernel⟩⟩
  intro n h
  refine ⟨linked { upLink with resentAt := List.replicate n 0 } up, ?_⟩
  fin_cases h <;> decide +kernel

/-- Training finds a link good at the limit and in the reversed order, and not above it nor in another order. -/
theorem test_train : trainOk (trainAs [3, 2, 1, 0] 10000) = true ∧ trainOk (trainAs [0, 1, 2, 3] 10001) = false ∧
    trainOk (trainAs [1, 0, 2, 3] 0) = false := by decide +kernel

/-- Training that succeeds, fails a second time and fails a third; a link that does not train; a peer request at its limit and before. -/
theorem wit_FlitsAndLinks_train :
    (∃ s, (getLink s 35).st = .retraining ∧ Still (getLink s 35) ∧ (getLink s 35).attempts = 1) ∧
    (∃ s, (getLink s 35).st = .training ∧ Still (getLink s 35) ∧ (getLink s 35).attempts = 2) ∧
    ((getLink up 35).st ≠ .retraining ∧ (getLink up 35).st ≠ .training) ∧ (findReq up 1 0 = none) ∧
    (∃ s r gr m sl, findReq s 1 0 = some r ∧ r.since + getObj s Key.peerTimeout * 1000000 ≤ now s ∧ s.pool.waiting = [] ∧
      r.user = .core 0 0 5 ∧ memBehind s 0 5 = some m ∧ findMem s 0 0 5 = some (gr, m) ∧ r.slot = some 0 ∧ getSlot s 0 = some sl) ∧
    (∃ s r, findReq s 1 0 = some r ∧ now s < r.since + getObj s Key.peerTimeout * 1000000) := by
  let r : PeerReq := { dev := 1, tag := 0, user := .core 0 0 5, since := 0, slot := some 0, agent := 0, firstLine := 0, lastLine := 0, half := 0, pkts := [] }
  let w : Machine.Group := { warp [] with mem := [{ memOp .load 4 with need := [2 ^ 60] }] }
  let s (t : Nat) : State := at_ t { holding w task with pool := { Pool.alone with reqs := [r] } }
  exact ⟨⟨linked { upLink with st := .retraining, attempts := 1 } up, by decide +kernel⟩, ⟨linked { upLink with st := .training, attempts := 2 } up, by decide +kernel⟩,
    by decide +kernel, by decide +kernel, ⟨s (10 ^ 12), r, w, { memOp .load 4 with need := [2 ^ 60] }, task, by decide +kernel⟩, ⟨s 0, r, by decide +kernel⟩⟩

/-! ### Packets of peers (R305 to R307, R316, R318 to R322) -/

/-- Packets of each type for this device; for another, at the second link and at the third; held in a Cistern-only reset; none. -/
theorem wit_RequestPackets :
    (∀ row ∈ packetRows, ∃ s p, frontPacket (getLink s 35) [row.1] = some (p, 0) ∧ p.dst = s.pool.device) ∧
    (∀ row ∈ packetRows, ∀ n ∈ [1, 2], ∃ s p, frontPacket (getLink s 35) [row.1] = some (p, 0) ∧ p.dst ≠ s.pool.device ∧ p.hops = n ∧
      isMember s p.dst = true ∧ Reaches (takeRx s 35 0) p.dst) ∧
    (∃ s p, frontPacket (getLink s 35) [.read] = some (p, 0) ∧ packetHeld s p = true) ∧ (frontPacket (getLink up 35) [.read] = none) := by
  refine ⟨?_, ?_, ⟨{ pooled up [pkt .read 0 []] with cistern := { Cistern.clear with reset := some ⟨1, 0, 0⟩ } }, pkt .read 0 [], by decide +kernel⟩, by decide +kernel⟩
  · intro row h
    refine ⟨pooled up [pkt row.1 0 []], pkt row.1 0 [], ?_⟩
    fin_cases h <;> decide +kernel
  · intro row h n hn
    refine ⟨pooled up [{ pkt row.1 0 [] with dst := 1, hops := n }], { pkt row.1 0 [] with dst := 1, hops := n }, ?_⟩
    fin_cases hn <;> fin_cases h <;> decide +kernel

/-- A full reduction queue in slice 0. -/
def fullQueue (s : State) : State :=
  { s with cistern := { s.cistern with slices := [(0, { Slice.empty with redq := List.replicate 512 ⟨req addOne, 0, false⟩ })] } }

/-- A packet of line 0 whose element mask selects the first element, or no element: a masked store, an ATOM of 4 bytes, a masked RED. -/
def masked (ty : PktType) (m : Nat) : Packet :=
  pkt ty 0 (if ty = .writeMasked then [BitVec.ofNat 8 m] else [0x20, 0, 0, 0, 0, 0, 0, 0, BitVec.ofNat 8 m])

/-- The bytes that a masked packet stores, and the lanes of an ATOM and of a masked reduction. -/
def storesNone (p : Packet) : Bool := [0, 1, 2, 3].all (fun k => bits (leAt p.payload 0 16) (32 * k + 31) (32 * k) == 0)

def selectsNone (p : Packet) : Bool := (selected 4 (leAt p.payload 8 16)).isEmpty

/-- Each request at its home, with an address that has one and one that has none; a READ of the end of the slot table; a RED to a full
queue; a masked store, an ATOM and a masked RED of one element and of none. -/
theorem wit_RequestPackets_home :
    (∀ ty ∈ [PktType.read, .write, .writeMasked, .atom, .red, .redMasked], ∃ s p, Arrived s 35 ty p 0 ∧ slotTableAt p.addr = none ∧
      p.sectors ≤ 6 ∧ p.addr % 32 = 0 ∧ homeRefusal s p.addr 128 = none ∧ bits (leAt p.payload 0 8) 6 4 = 2 ∧ redRoom s p = true) ∧
    (∀ ty ∈ [PktType.read, .write, .writeMasked, .atom, .red, .redMasked], ∃ s p, Arrived s 35 ty p 0 ∧ slotTableAt p.addr = none ∧
      homeRefusal s p.addr 32 = some Code.addressUnmapped ∧ Reaches (takeRx s 35 0) p.src ∧ bits (leAt p.payload 0 8) 6 4 = 2 ∧ redRoom s p = true) ∧
    (∃ s p off, Arrived s 35 .read p 0 ∧ slotTableAt p.addr = some off ∧ off + 32 * (p.sectors + 1) = 2 ^ 24 ∧ Reaches (takeRx s 35 0) p.src) ∧
    (∀ ty ∈ [PktType.red, .redMasked], ∃ s p, Arrived s 35 ty p 0 ∧ redRoom s p = false) := by
  refine ⟨?_, ?_, ⟨pooled up [pkt .read (slotBase + 2 ^ 24 - 32) []], pkt .read (slotBase + 2 ^ 24 - 32) [], 2 ^ 24 - 32, by decide +kernel⟩, ?_⟩
  · intro ty h
    refine ⟨mapped (pooled up [pkt ty 0 [0x20]]), pkt ty 0 [0x20], ?_⟩
    fin_cases h <;> decide +kernel
  · intro ty h
    refine ⟨pooled up [pkt ty 0 [0x20]], pkt ty 0 [0x20], ?_⟩
    fin_cases h <;> decide +kernel
  · intro ty h
    refine ⟨fullQueue (mapped (pooled up [pkt ty 0 []])), pkt ty 0 [], ?_⟩
    fin_cases h <;> decide +kernel

theorem wit_RequestPackets_masked : ∀ ty ∈ [PktType.writeMasked, .atom, .redMasked], ∀ m ∈ [0, 1], ∃ s p, Arrived s 35 ty p 0 ∧
    slotTableAt p.addr = none ∧ homeRefusal s p.addr 128 = none ∧ redRoom s p = true ∧ Reaches (takeRx s 35 0) p.src ∧
    (ty = .writeMasked → storesNone p = (m == 0)) ∧ (ty ≠ .writeMasked → selectsNone p = (m == 0) ∧ bits (leAt p.payload 0 8) 6 4 = 2) := by
  intro ty h m hm
  refine ⟨mapped (pooled up [masked ty m]), masked ty m, ?_⟩
  fin_cases h <;> fin_cases hm <;> decide +kernel

/-- A job of the host that waits for `left` answers and has got `got`. -/
def hostJob (who : JobFor) (left : Nat) (got : List Served) : Job := { id := 3, half := 0, port := portHost, cls := 0, who := who, left := left, got := got }

def jobbed (j : Job) (s : State) : State := { s with cistern := { s.cistern with jobs := [j] } }

/-- A job that waits, and jobs of posted writes, of BAR4 reads and of a peer's packets with good and with failed answers. -/
theorem wit_RequestPackets_jobs :
    (∃ s : State, s.cistern.jobs ≠ [] ∧ ∀ j ∈ s.cistern.jobs, j.left ≠ 0) ∧
    (∃ (s : State) (j : Job), s.cistern.jobs = [j] ∧ j.left = 0 ∧ j.who = .post) ∧
    (∀ f ∈ [false, true], ∃ (s : State) (j : Job), s.cistern.jobs = [j] ∧ j.left = 0 ∧ j.who = .bar4 1 0 4 ∧ (gotFailed j.got).isSome = f) ∧
    (∀ ty ∈ [PktType.read, .write, .atom], ∀ f ∈ [false, true], ∃ (s : State) (j : Job) (p : Packet), s.cistern.jobs = [j] ∧ j.left = 0 ∧
      j.who = .packet p ∧ p.ty = ty ∧ Reaches s p.src ∧ (gotFailed j.got).isSome = f) ∧
    (reachesHalf 1 (homeSlice up 0) = true) ∧ (reachesHalf 0 (homeSlice up 0) = false) := by
  let bad (f : Bool) : List Served := [{ sector := 0, data := List.replicate 32 0#8, failed := f, wtag := 0, code := 0 }]
  refine ⟨⟨jobbed (hostJob .post 1 []) up, by decide +kernel⟩, ⟨jobbed (hostJob .post 0 []) up, hostJob .post 0 [], rfl, rfl, rfl⟩, ?_, ?_, by decide +kernel, by decide +kernel⟩
  · intro f hf
    refine ⟨jobbed (hostJob (.bar4 1 0 4) 0 (bad f)) up, _, rfl, rfl, rfl, ?_⟩
    fin_cases hf <;> decide +kernel
  · intro ty h f hf
    refine ⟨jobbed (hostJob (.packet (pkt ty 0 [])) 0 (bad f)) (pooled up []), _, pkt ty 0 [], rfl, rfl, rfl, rfl, ?_⟩
    fin_cases h <;> fin_cases hf <;> decide +kernel

/-! ### Answers of peers, posted records, signals, dictionary fragments (R34, R48, R58, R307, R320, R370) -/

/-- A request of this device to device 1 that the packet of tag 9 answers. -/
def asked (user : PeerUser) : PeerReq :=
  { dev := 1, tag := 9, user := user, since := 0, slot := some 0, agent := 0, firstLine := 0, lastLine := 0, half := 0, pkts := [pkt .atom 0 []] }

/-- A move of copy slot 3 from device 1's address 0 to host address 0. -/
def move3 : CopyMove := { cc := 3, host := 0, pool := 2 ^ 58, bytes := 32, toPool := false }

def asking (s : State) (user : PeerUser) (p : Packet) : State :=
  let s1 := pooled s [p]
  { s1 with pool := { s1.pool with reqs := [asked user] } }

/-- A group with a memory instruction whose sectors or lines lie on device 1. -/
def outside (k : MemKind) : Machine.Group :=
  { warp [] with mem := [{ memOp k 4 with lanes := [⟨0, 2 ^ 58⟩], need := [2 ^ 61] }] }

theorem wit_ResponsePackets_stray : ∀ ty ∈ [PktType.readData, .writeAck, .atomData, .postResult, .refused], ∃ s p,
    Arrived s 35 ty p 0 ∧ findReq s p.src p.tag = none := by
  intro ty h
  refine ⟨pooled up [pkt ty 0 []], pkt ty 0 [], ?_⟩
  fin_cases h <;> decide +kernel

/-- READ_DATA for a load, for a running copy, and for a BAR4 read that waits for one packet, and for two. -/
theorem wit_ResponsePackets_read :
    (∃ s p r gr m, findReq s p.src p.tag = some r ∧ s.pool.waiting = [] ∧ Arrived s 35 .readData p 0 ∧ r.user = .core 0 0 5 ∧
      findMem s 0 0 5 = some (gr, m)) ∧
    (∃ s p r, findReq s p.src p.tag = some r ∧ s.pool.waiting = [] ∧ Arrived s 35 .readData p 0 ∧ r.user = .copy move3 ∧ (getCopy s 3).state = 3) ∧
    (∀ n ∈ [1, 2], ∃ s p r w, findReq s p.src p.tag = some r ∧ s.pool.waiting = [] ∧ Arrived s 35 .readData p 0 ∧ r.user = .bar4 7 false ∧
      s.port.bar4.find? (fun x => x.tag == 7) = some w ∧ w.left = n ∧ w.failed = false) := by
  refine ⟨⟨asking (holding (outside .load) task) (.core 0 0 5) (pkt .readData 0 []), pkt .readData 0 [], asked (.core 0 0 5), outside .load, _, by decide +kernel,
      by decide +kernel, by decide +kernel, by decide +kernel, rfl⟩,
    ⟨asking { up with port := { Port.reset with copies := [(3, ⟨3, 0, 0, 0, 0⟩)] } } (.copy move3) (pkt .readData 0 []), pkt .readData 0 [], asked (.copy move3), by decide +kernel⟩, ?_⟩
  intro n h
  refine ⟨asking { up with port := { Port.reset with bar4 := [⟨7, 0, 2 ^ 58, 32, n, [], false⟩] } } (.bar4 7 false) (pkt .readData 0 []), pkt .readData 0 [],
    asked (.bar4 7 false), ⟨7, 0, 2 ^ 58, 32, n, [], false⟩, ?_⟩
  fin_cases h <;> decide +kernel

/-- WRITE_ACK for a store, ATOM_DATA for an atomic, POST_RESULT for a SPAWN, REFUSED for a load and for a copy. -/
theorem wit_ResponsePackets_other :
    (∃ s p r gr m, findReq s p.src p.tag = some r ∧ s.pool.waiting = [] ∧ Arrived s 35 .writeAck p 0 ∧ r.user = .core 0 0 5 ∧
      findMem s 0 0 5 = some (gr, m) ∧ memBehind s 0 5 = some m ∧
      m.need.find? (fun k => decide (2 ^ 61 ≤ k) && !(m.accepted.contains k)) = some (2 ^ 61) ∧ r.slot = some 0 ∧ (getSlot s 0).isSome) ∧
    (∃ s p r gr m q, findReq s p.src p.tag = some r ∧ s.pool.waiting = [] ∧ Arrived s 35 .atomData p 0 ∧ r.user = .core 0 0 5 ∧
      findMem s 0 0 5 = some (gr, m) ∧ memBehind s 0 5 = some m ∧ r.pkts.head? = some q ∧ (atomIndex s m q).isSome) ∧
    (∃ s p r gr, findReq s p.src p.tag = some r ∧ s.pool.waiting = [] ∧ Arrived s 35 .postResult p 0 ∧ r.user = .spawn 0 0 2 ∧
      getGroup s 0 0 = some gr ∧ gr.spawns.find? (fun y => y.id == 2) = some ⟨2, 1, 1#32⟩) ∧
    (∃ s p r m sl, findReq s p.src p.tag = some r ∧ s.pool.waiting = [] ∧ Arrived s 35 .refused p 0 ∧ leAt p.payload 0 2 % 4096 ≠ Code.verticalAbort ∧
      r.user = .core 0 0 5 ∧ memBehind s 0 5 = some m ∧ r.slot = some 0 ∧ getSlot s 0 = some sl) ∧
    (∃ s p r, findReq s p.src p.tag = some r ∧ s.pool.waiting = [] ∧ Arrived s 35 .refused p 0 ∧ leAt p.payload 0 2 % 4096 ≠ Code.verticalAbort ∧
      r.user = .copy move3 ∧ (getCopy s 3).state = 3) := by
  let q := (redPackets (pooled up []) 1 0 0 2 4 true false [⟨0, 0, 0, 0⟩]).map (·.1)
  let r : PeerReq := { asked (.core 0 0 5) with pkts := q.take 1 }
  let m (k : MemKind) : MemOp := { memOp k 4 with lanes := [⟨0, 2 ^ 58⟩], need := [2 ^ 61] }
  let s2 := pooled (holding (outside .atom) task) [pkt .atomData 0 []]
  exact ⟨⟨asking (holding (outside .store) task) (.core 0 0 5) (pkt .writeAck 0 []), pkt .writeAck 0 [], asked (.core 0 0 5), outside .store, m .store, by decide +kernel⟩,
    ⟨{ s2 with pool := { s2.pool with reqs := [r] } }, pkt .atomData 0 [], r, outside .atom, m .atom, q.headD (bareFlit .atom), by decide +kernel⟩,
    ⟨asking (holding { warp [] with spawns := [⟨2, 1, 1#32⟩] } task) (.spawn 0 0 2) (pkt .postResult 0 []), pkt .postResult 0 [], asked (.spawn 0 0 2),
      { warp [] with spawns := [⟨2, 1, 1#32⟩] }, by decide +kernel⟩,
    ⟨asking (holding (outside .load) task) (.core 0 0 5) (pkt .refused 0 [1]), pkt .refused 0 [1], asked (.core 0 0 5), m .load, task, by decide +kernel⟩,
    ⟨asking { up with port := { Port.reset with copies := [(3, ⟨3, 0, 0, 0, 0⟩)] } } (.copy move3) (pkt .refused 0 [1]), pkt .refused 0 [1], asked (.copy move3), by decide +kernel⟩⟩

/-- A record's two halves: whole, of another tag, with the record bad, with no slot free; and held. -/
def halves (ws : List Word64) : List Packet :=
  let bs := ws.flatMap (fun w => leBytes 8 w.toNat)
  [pkt .postA 0 (bs.take 128), pkt .postB 0 (bs.drop 128)]

abbrev posts (s : State) (a b : Packet) : Prop :=
  Arrived s 35 .postA a 0 ∧ (((getLink s 35).rx.drop 1).zipIdx.find? (fun e => sameStream e.1 a)) = some (b, 0)

theorem wit_ResponsePackets_post :
    (∃ s a b, posts s a b ∧ b.ty = .postB ∧ b.tag ≠ a.tag) ∧
    (∀ ws ∈ [goodRecord, goodRecord.set 1 0#64], ∃ s a b, posts s a b ∧ b.ty = .postB ∧ b.tag = a.tag ∧ b.src = a.src ∧ fountainHeld s = false ∧
      Reaches (takeSpawn (takeRx (takeRx s 35 1) 35 0) (wordsOf 32 (slice a.payload 0 128 ++ slice b.payload 0 128)) true).2 a.src ∧
      recordFails (wordsOf 32 (slice a.payload 0 128 ++ slice b.payload 0 128)) = recordFails ws ∧ freeSpawnSlot s = some 49152) ∧
    (∃ s a b, posts s a b ∧ b.ty = .postB ∧ b.tag = a.tag ∧ b.src = a.src ∧ fountainHeld s = false ∧ freeSpawnSlot s = none) ∧
    (∃ s a b, posts s a b ∧ b.ty = .postB ∧ b.tag = a.tag ∧ b.src = a.src ∧ fountainHeld s = true) := by
  let a := pkt .postA 0 []
  let b := pkt .postB 0 []
  let h := pooled up [a, b]
  refine ⟨⟨pooled up [a, { b with tag := 8 }], a, { b with tag := 8 }, by decide +kernel⟩, ?_, ⟨withObj Key.hostSlots 65536 h, a, b, by decide +kernel⟩,
    ⟨{ h with keeper := { h.keeper with txn := { h.keeper.txn with holds := true } } }, a, b, by decide +kernel⟩⟩
  intro ws hw
  refine ⟨pooled up (halves ws), (halves ws).getD 0 a, (halves ws).getD 1 b, ?_⟩
  fin_cases hw <;> decide +kernel

/-- A signal that adds, one that sets the last counter, one that poisons; the fragments of a frame, one of two and one of one that is bad. -/
theorem wit_ResponsePackets_signal :
    (∀ e ∈ [2 ^ 63 + 1, 2 ^ 63 + 2 ^ 62 + 32767 * 2 ^ 32], ∃ s p, Arrived s 35 .signal p 0 ∧ NoPoisonDue s ∧ leAt p.payload 0 8 = e ∧
      bit (leAt p.payload 8 1) 0 = false ∧ Reaches (signalLocal (takeRx s 35 0) (sigCounter e) (sigSet e) (sigValue e)) p.src) ∧
    (∃ s p, Arrived s 35 .signal p 0 ∧ NoPoisonDue s ∧ bit (leAt p.payload 8 1) 0 = true ∧
      Reaches (evalWaits (poisonCounter (takeRx s 35 0) (sigCounter (leAt p.payload 0 8)))) p.src) ∧
    (∃ s p, Arrived s 35 .dict p 0 ∧ s.boot.warmWanted = none ∧ (∀ r ∈ s.keeper.relays, ¬(r.dev = p.src ∧ r.tag = fragTag p)) ∧ fragCount p = 2) ∧
    (∃ s p, Arrived s 35 .dict p 0 ∧ s.boot.warmWanted = none ∧ (∀ r ∈ s.keeper.relays, ¬(r.dev = p.src ∧ r.tag = fragTag p)) ∧ fragCount p = 1 ∧
      netUp s = true ∧ headerGood (headerOf false (assemble [p.payload.drop 4])) ((assemble [p.payload.drop 4]).drop 32) = false) := by
  let s (ty : PktType) (bs : List Byte) := pooled up [pkt ty 0 bs]
  refine ⟨?_, ⟨s .signal [0, 0, 0, 0, 0, 0, 0, 0x80, 1], pkt .signal 0 [0, 0, 0, 0, 0, 0, 0, 0x80, 1], by decide +kernel⟩,
    ⟨s .dict [2], pkt .dict 0 [2], by decide +kernel⟩, ⟨s .dict [1], pkt .dict 0 [1], by decide +kernel⟩⟩
  intro e h
  refine ⟨s .signal (leBytes 8 e), pkt .signal 0 (leBytes 8 e), ?_⟩
  fin_cases h <;> decide +kernel

/-! ### Pools (R324 to R328, R330, R331, R416) -/

/-- A device that forms a pool, with link 35 up and led to device 1's link 35. -/
def forming (f : Pool → Pool) : State := linked upLink { atStage 8 up with pool := f { Pool.alone with st := .forming } }

theorem wit_PoolLife_query :
    (∃ s : State, poolShape s = 0) ∧
    (∀ a ∈ [2, 4], ∃ (s : State) (answers : List (Nat × Nat)), poolShape s ≠ 0 ∧ s.boot.stage = 8 ∧ s.boot.stopped = false ∧ s.pool.st = .standalone ∧
      (7, a) ∈ answers ∧ s.flash.formation = none) ∧
    (∀ b ∈ [true, false], ∃ (s : State) (answers : List (Nat × Nat)), poolShape s ≠ 0 ∧ s.boot.stage = 8 ∧ s.boot.stopped = false ∧
      s.pool.st = .standalone ∧ (∀ x ∈ answers, ¬(2 ≤ x.2 ∧ x.2 ≤ 4)) ∧ (7, 1) ∈ answers ∧ s.port.up = b) ∧
    (∃ s : State, poolShape s ≠ 0 ∧ s.boot.stage = 8 ∧ s.boot.stopped = false ∧ s.pool.st = .standalone ∧ s.flash.formation = some ⟨21, 1, 1, 1⟩) := by
  refine ⟨⟨up, by decide +kernel⟩, ?_, ?_, ⟨{ atStage 8 up with flash := { Flash.blank with formation := some ⟨21, 1, 1, 1⟩ } }, by decide +kernel⟩⟩
  · intro a h; refine ⟨atStage 8 up, [(7, a)], ?_⟩; fin_cases h <;> decide +kernel
  · intro b h; refine ⟨{ atStage 8 up with port := { Port.reset with up := b } }, [(7, 1)], ?_⟩; fin_cases h <;> decide +kernel

/-- ASSIGN not obeyed, heard by a head, and obeyed where the link is cabled as R315 says and where it is not. -/
theorem wit_PoolLife_assign :
    (∃ s : State, s.pool.st = .forming ∧ (getLink s 35).st = .up ∧ s.pool.head = false ∧ s.pool.gotAssign = true) ∧
    (∃ s : State, s.pool.st = .forming ∧ (getLink s 35).st = .up ∧ s.pool.head = true) ∧
    (∀ b ∈ [true, false], ∃ (s : State) (x y z : Nat), s.pool.st = .forming ∧ (getLink s 35).st = .up ∧ s.pool.head = false ∧
      s.pool.gotAssign = false ∧ (getLink s 35).peerDev ≠ none ∧ (getLink s 35).peerLink ≠ none ∧
      decide (cabledTo (poolShape s) s.boot.tier (devAt x y z) 35 ≠ none ∧
        (cabledTo (poolShape s) s.boot.tier (devAt x y z) 35).map (·.1) = (getLink s 35).peerDev ∧
        (cabledTo (poolShape s) s.boot.tier (devAt x y z) 35).map (·.2) = (getLink s 35).peerLink) = b) := by
  refine ⟨⟨forming (fun p => { p with gotAssign := true }), by decide +kernel⟩, ⟨forming (fun p => { p with head := true }), by decide +kernel⟩, ?_⟩
  intro b h
  let c := (cabledTo 1 3 2 35).getD (0, 0)
  refine ⟨linked { upLink with peerDev := some (if b then c.1 else c.1 + 1), peerLink := some c.2 } (forming id), 2, 0, 0, ?_⟩
  fin_cases h <;> decide +kernel

theorem wit_PoolLife_join :
    (∃ s : State, s.pool.head = false ∧ s.pool.gotAssign = false) ∧
    (∃ s : State, s.pool.head = false ∧ s.pool.st = .forming ∧ s.pool.gotAssign = true ∧ s.pool.device = 0) ∧
    (∃ (s : State) (tier : Nat), s.pool.head = true ∧ s.pool.st = .forming ∧ tier ≠ s.boot.tier) ∧
    (∀ d ∈ [0, 63], ∃ s : State, s.pool.head = true ∧ s.pool.st = .forming ∧ s.boot.tier = 3 ∧ poolShape s = 1 ∧ d < 64 ∧ ∀ j ∈ s.pool.joined, j.device ≠ d) ∧
    (∃ s : State, s.pool.head = true ∧ s.pool.st = .forming ∧ s.boot.tier = 3 ∧ poolShape s = 1 ∧ ∃ j ∈ s.pool.joined, j.device = 5) := by
  refine ⟨⟨up, by decide +kernel⟩, ⟨forming (fun p => { p with gotAssign := true }), by decide +kernel⟩, ⟨forming (fun p => { p with head := true }), 1, by decide +kernel⟩, ?_,
    ⟨forming (fun p => { p with head := true, joined := [⟨5, 0, 0⟩] }), by decide +kernel⟩⟩
  intro d h; refine ⟨forming (fun p => { p with head := true }), ?_⟩; fin_cases h <;> decide +kernel

/-- The deadline not due; due with members that have no route; due with members that are valid. -/
theorem wit_PoolLife_deadline :
    (∃ s : State, s.pool.head = false) ∧
    (∃ s : State, s.pool.head = true ∧ s.pool.st = .forming ∧ s.pool.assignedAt = some 0 ∧ now s = 1999999999) ∧
    (∀ b ∈ [true, false], ∃ s : State, s.pool.head = true ∧ s.pool.st = .forming ∧ s.pool.assignedAt = some 0 ∧ now s = 2000000000 ∧
      membersValid s (maskOf (0 :: s.pool.joined.map (·.device))) = b) := by
  refine ⟨⟨up, by decide +kernel⟩, ⟨at_ 1999999999 (forming (fun p => { p with head := true, assignedAt := some 0 })), by decide +kernel⟩, ?_⟩
  intro b h
  refine ⟨at_ 2000000000 (forming (fun p => { p with head := true, assignedAt := some 0, joined := if b then [⟨1, 0, 0⟩] else [⟨1, 0, 0⟩, ⟨2, 0, 0⟩] })), ?_⟩
  fin_cases h <;> decide +kernel

theorem wit_PoolLife_members :
    (∃ s : State, ¬(poolShape s ≠ 0 ∧ 8 ≤ s.boot.stage ∧ s.pool.st ≠ .standalone)) ∧
    (∀ m ∈ [3, 2 ^ 64 - 2], ∃ (s : State) (sl : Slot), poolShape s ≠ 0 ∧ 8 ≤ s.boot.stage ∧ s.pool.st ≠ .standalone ∧ m < 2 ^ 64 ∧
      SlotsWf s ∧ (bit m s.pool.device = true ∨ bit s.pool.members s.pool.device = true) ∧ getSlot s 0 = some sl ∧ sl.state = 3) := by
  refine ⟨⟨up, by decide +kernel⟩, ?_⟩
  intro m h
  refine ⟨slotted { forming id with pool := { Pool.alone with st := .formed, members := 3 } } [task], task, ?_⟩
  fin_cases h <;> decide +kernel

/-- A loss of no pair of members, one of a pair of members; WITHDRAW; RESET. -/
theorem wit_PoolLife_loss :
    (∃ s : State, ¬(inPool s = true ∧ isMember s 0 = true ∧ isMember s 63 = true ∧ pairOf 0 63 ∉ s.pool.broken)) ∧
    (∃ s : State, inPool s = true ∧ isMember s 0 = true ∧ isMember s 63 = true ∧ pairOf 0 63 ∉ s.pool.broken ∧ linkWorking s 35 = true ∧
      (∀ e ∈ liveSlots s, spansPool s e.2 = false) ∧ s.pool.reqs = [] ∧ s.pool.waiting = [] ∧ s.port.copies = [] ∧ NoPoisonDue s) ∧
    (∃ s : State, (getLink s 35).st ≠ .up) ∧ (∃ s : State, (getLink s 35).st = .up ∧ (getLink s 35).egress = []) ∧
    (∃ s : State, ∀ e ∈ liveSlots s, ¬(1 ∈ e.2.peersWritten)) ∧
    (∀ st ∈ [3, 4, 7], ∃ (s : State) (sl : Slot), SlotsWf s ∧ getSlot s 0 = some sl ∧ 1 ∈ sl.peersWritten ∧ sl.state = st ∧ sl.ending = none ∧
      eligible s 0 sl = false) := by
  refine ⟨⟨up, by decide +kernel⟩,
    ⟨linked { upLink with peerDev := some 63 } { up with pool := { Pool.alone with st := .formed, members := 2 ^ 63 + 1 } }, by decide +kernel⟩,
    ⟨up, by decide +kernel⟩, ⟨linked upLink up, by decide +kernel⟩, ⟨slotted up [task], by decide +kernel⟩, ?_⟩
  intro st h
  refine ⟨slotted up [{ task with state := st, peersWritten := [1] }], { task with state := st, peersWritten := [1] }, ?_⟩
  fin_cases h <;> decide +kernel

/-- LINK_ENABLE staged at both values; its COMMIT where false would take the last link, where it withdraws, where true trains
again, and where nothing changes. -/
theorem wit_PoolLife_enable :
    (∀ v ∈ [0, 1], ∃ s w, WriteStaged s w (Key.linkEnable 35) v) ∧
    (∃ s req, CommitsOne s req 3 (Key.linkEnable 35) 0 ∧ lastLink s 35 = true) ∧
    (∃ s req, CommitsOne s req 3 (Key.linkEnable 35) 0 ∧ lastLink s 35 = false ∧ (getLink s 35).st = .up ∧ (getLink s 35).egress = []) ∧
    (∃ s req, CommitsOne s req 3 (Key.linkEnable 35) 1 ∧ (getLink s 35).st = .withdrawn) ∧
    (∃ s req, CommitsOne s req 3 (Key.linkEnable 35) 0 ∧ lastLink s 35 = false ∧ (getLink s 35).st ≠ .up) ∧
    (∃ s req, CommitsOne s req 3 (Key.linkEnable 35) 1 ∧ (getLink s 35).st ≠ .withdrawn) := by
  let t v := txn [(Key.linkEnable 35, .num v)] up
  refine ⟨?_, ⟨pooled (t 0) [], commitNow, by unfold CommitsOne; decide +kernel⟩, ⟨linked upLink (t 0), commitNow, by unfold CommitsOne; decide +kernel⟩,
    ⟨linked { upLink with st := .withdrawn } (t 1), commitNow, by unfold CommitsOne; decide +kernel⟩, ⟨t 0, commitNow, by unfold CommitsOne; decide +kernel⟩,
    ⟨t 1, commitNow, by unfold CommitsOne; decide +kernel⟩⟩
  intro v h
  refine ⟨txn [] up, wput (Key.linkEnable 35) v, stages_staged ?_⟩
  fin_cases h <;> decide +kernel

/-! ### The port's configuration and link (R334 to R340, R346 to R350, R447) -/

/-- A device whose port may train: S2 done, its link down. -/
def trainable (refclk : Bool) : State := { atStage 3 up with port := { Port.reset with refclk := refclk } }

theorem wit_PortConfiguration_requests :
    (∃ s : State, s.port.up = false) ∧ (∃ s : State, s.port.up = true ∧ portServes s = false) ∧
    (∀ r ∈ [0, 1, 2, 3, 4, 6, 8, 9, 10, 12, 14], ∀ w ∈ [some 0xFFFFFFFF, none], ∃ (s : State) (q : CfgReq), portServes s = true ∧ q.reg = r ∧ q.write = w ∧
      4 ≤ s.port.sizeGiB) := by
  refine ⟨⟨up, by decide +kernel⟩, ⟨{ up with boot := { up.boot with stage := 9 }, port := { Port.reset with up := true } }, by decide +kernel⟩, ?_⟩
  intro r _ w _
  exact ⟨hosted, { tag := 1, reg := r, write := w }, by decide +kernel, rfl, rfl, by decide +kernel⟩

/-- Training not allowed; at a supported rate and width, at both ends of the rates; unsupported by rate, by width, by FLIT mode. -/
theorem wit_PortConfiguration_training :
    (∃ s : State, portMayTrain s = false) ∧
    (∃ s : State, portMayTrain s = true ∧ s.port.refclk = true ∧ 1 ≤ getObj s Key.maxRate) := by
  exact ⟨⟨hosted, by decide +kernel⟩, ⟨trainable true, by decide +kernel⟩⟩

/-- A reset not noticed, and one with a copy that runs and one that does not; the reference clock's return, both ways. -/
theorem wit_PortConfiguration_reset :
    (∃ s : State, s.boot.powered = false) ∧ (∃ s : State, s.port.up = false) ∧
    (∃ s : State, ¬(s.boot.powered = false ∨ s.boot.resetLow = true ∨ s.port.up = false) ∧ (getCopy s 0).state = 3 ∧ (getCopy s 15).state ≠ 3) ∧
    (∃ s : State, s.port.refclk = true) ∧
    (∃ s : State, s.port.refclk = false ∧ s.boot.powered = true ∧ s.boot.resetLow = false ∧ s.time.runs = true ∧ portMayTrain s = false) ∧
    (∃ s : State, s.port.refclk = false ∧ s.boot.powered = true ∧ s.boot.resetLow = false ∧ portMayTrain s = true ∧ 1 ≤ getObj s Key.maxRate) := by
  refine ⟨⟨{ up with boot := { up.boot with powered := false } }, by decide +kernel⟩, ⟨up, by decide +kernel⟩,
    ⟨{ hosted with port := { hosted.port with copies := [(0, ⟨3, 0, 0, 0, 0⟩)] } }, by decide +kernel⟩, ⟨up, by decide +kernel⟩,
    ⟨{ trainable false with time := { Time.clear with runs := true }, boot := { up.boot with stage := 1, done := 1 } }, by decide +kernel⟩,
    ⟨trainable false, by decide +kernel⟩⟩

/-! ### The host's windows and copies (R323, R335, R340 to R346, R361 to R363) -/

def atBar (off n : Nat) : MemRd := { offset := off, len := n, tag := 7 }

abbrev aimed (s : State) (off : Nat) : Nat := getObj s Key.bar4Base / 2 ^ (30 + Nat.log2 s.port.sizeGiB) * 2 ^ (30 + Nat.log2 s.port.sizeGiB) + off

abbrev inside (s : State) (off n : Nat) : Prop := barOpen s 4 = true ∧ 0 < n ∧ off + n ≤ 2 ^ (30 + Nat.log2 s.port.sizeGiB)

/-- A host that reaches a device with a page of the Reservoir, and the same in a formed pool of two. -/
def hostedMem : State := mapped hosted
def hostedPool : State := { hostedMem with pool := { Pool.alone with st := .formed, members := 3 } }

/-- Reads past BAR4's end, of no memory, of a device out of reach, of the first bytes of a page and of the slot table, of a peer. -/
theorem wit_HostWindows_read :
    (∃ s, s.port.up = true ∧ ¬inside s (2 ^ 36 - 7) 8) ∧
    (∃ s, s.port.up = true ∧ inside s (2 ^ 36 - 8) 8 ∧ addrDevice (aimed s (2 ^ 36 - 8)) = s.pool.device ∧
      farReadable s (addrLocal (aimed s (2 ^ 36 - 8))) = false ∧ addrLocal (aimed s (2 ^ 36 - 8)) % 65536 + 8 ≤ 65536) ∧
    (∃ s, s.port.up = true ∧ addrDevice (aimed s 0) ≠ s.pool.device ∧ reachable s (addrDevice (aimed s 0)) = false) ∧
    (∀ b ∈ [true, false], ∃ s, inside s 0 8 ∧ addrDevice (aimed s 0) = s.pool.device ∧ addrLocal (aimed s 0) % 65536 + 8 ≤ 65536 ∧
      farReadable s (addrLocal (aimed s 0)) = true ∧ farReadable s (addrLocal (aimed s 0) + 7) = true ∧ (slotTableAt (addrLocal (aimed s 0))).isSome = b) ∧
    (∃ s, inside s 0 8 ∧ reachable s (addrDevice (aimed s 0)) = true) := by
  let b (n : Nat) (s : State) : State := setObj s Key.bar4Base n
  refine ⟨⟨hosted, by decide +kernel⟩, ⟨hosted, by decide +kernel⟩, ⟨b (2 ^ 58) hosted, by decide +kernel⟩, ?_, ⟨b (2 ^ 58) hostedPool, by decide +kernel⟩⟩
  intro x h
  refine ⟨b (if x then slotBase else 0) hostedMem, ?_⟩
  fin_cases h <;> decide +kernel

/-- A word of slot 0 that fails its check ends the task there, which had no groups yet, and poisons the read (R454, R455). -/
theorem test_bar4Read_failed_slot_word :
    let s := setObj (slotted hosted [waiting goodRecord]) Key.bar4Base slotBase
    ∃ t, exec (.bar4Read (atBar 0 8) .failed) s = .next t ∧ slotState t 0 = 6 ∧ (getSlot t 0).any (·.code == 0x40) = true ∧
      t.out.head?.any (fun o => match o with | .completion 7 .poisoned _ => true | _ => false) = true :=
  ⟨_, rfl, by decide +kernel⟩

theorem wit_HostWindows_write :
    (∃ s bs, s.port.up = true ∧ ¬inside s 0 (List.length (α := Byte) bs)) ∧
    (∃ s, s.port.up = true ∧ inside s (2 ^ 36 - 8) 8 ∧ addrDevice (aimed s (2 ^ 36 - 8)) = s.pool.device ∧
      hasHome s (addrLocal (aimed s (2 ^ 36 - 8))) = false ∧ addrLocal (aimed s (2 ^ 36 - 8)) % 65536 + 8 ≤ 65536) ∧
    (∃ s, inside s 0 8 ∧ addrDevice (aimed s 0) = s.pool.device ∧ hasHome s (addrLocal (aimed s 0)) = true ∧
      hasHome s (addrLocal (aimed s 0) + 7) = true ∧ addrLocal (aimed s 0) % 65536 + 8 ≤ 65536) ∧
    (∃ s, inside s 0 8 ∧ reachable s (addrDevice (aimed s 0)) = true) := by
  let b (n : Nat) (s : State) : State := setObj s Key.bar4Base n
  exact ⟨⟨hosted, [], by decide +kernel⟩, ⟨hosted, by decide +kernel⟩, ⟨hostedMem, by decide +kernel⟩, ⟨b (2 ^ 58) hostedPool, by decide +kernel⟩⟩

/-- The direct region's first and last shaped reads, the longest, and one without a shape. -/
theorem wit_HostWindows_direct :
    (∀ e ∈ [(0x80000, 8), (0xFFFF8, 8), (0xFFFFC, 4), (0x80000, 512)], ∃ (s : State) (rd : MemRd), rd.offset = e.1 ∧ rd.len = e.2 ∧ 0x80000 ≤ rd.offset ∧
      rd.offset + rd.len ≤ 2 ^ 20 ∧ 0 < rd.len ∧ barOpen s 0 = true ∧
      (((rd.len = 4 ∨ rd.len = 8) ∧ rd.offset % rd.len = 0) ∨ (rd.len ≤ 512 ∧ rd.offset % 8 = 0 ∧ rd.len % 8 = 0))) ∧
    (∃ (s : State) (rd : MemRd), rd.offset = 0x80004 ∧ rd.len = 8 ∧ barOpen s 0 = true) := by
  refine ⟨fun e h => ⟨hosted, atBar e.1 e.2, rfl, rfl, ?_⟩, ⟨hosted, atBar 0x80004 8, by decide +kernel⟩⟩
  fin_cases h <;> decide +kernel

/-- Submissions to a closed BAR, to no channel, poisoned, to a busy channel, of a bad length and of a bad frame at the last channel. -/
theorem wit_HostWindows_submit :
    (∃ s : State, s.port.up = true ∧ barOpen s 0 = false) ∧
    (∃ s : State, s.port.up = true ∧ barOpen s 0 = true ∧ s.boot.warmWanted = none ∧ (getChannel s 63).state ≠ 1 ∧ netUp s = true ∧
      ∃ rq : List Byte, 32 ≤ rq.length ∧ rq.length ≤ 1056 ∧ headerGood (headerOf false rq) (slice rq 32 (rq.length - 32)) = false) ∧
    (∃ s : State, barOpen s 0 = true ∧ s.boot.warmWanted = none ∧ (getChannel s 63).state = 1) :=
  ⟨⟨{ hosted with port := { hosted.port with command := 0 } }, by decide +kernel⟩,
    ⟨hosted, by decide +kernel, by decide +kernel, by decide +kernel, by decide +kernel, by decide +kernel, List.replicate 32 0#8, by decide +kernel⟩,
    ⟨{ hosted with port := { hosted.port with chans := [(63, { Chan.idle with state := 1 })] } }, by decide +kernel⟩⟩

/-- Accesses that BAR0 does not take: a write of the header, one of the reserved bytes, one across two channels; reads across two
regions, and of the reserved bytes. -/
theorem wit_HostWindows_invalid :
    (∀ o ∈ [0, 0xFFF, 0x41000, 0x1FFF], ∃ (s : State) (rd : MemRd), rd.offset = o ∧ barOpen s 0 = true ∧ rd.offset < 2 ^ 20 ∧ 0 < rd.len ∧
      (rd.offset < 0x1000 ∨ 0x41000 ≤ rd.offset ∨ bar0Region rd.offset ≠ bar0Region (rd.offset + rd.len - 1))) ∧
    (∃ (s : State) (rd : MemRd), barOpen s 0 = true ∧ rd.offset < 2 ^ 20 ∧ 0 < rd.len ∧ bar0Region rd.offset ≠ bar0Region (rd.offset + rd.len - 1)) ∧
    (∃ (s : State) (rd : MemRd), barOpen s 0 = true ∧ 0x41000 ≤ rd.offset ∧ rd.offset + rd.len = 0x80000 ∧
      bar0Region rd.offset = bar0Region (rd.offset + rd.len - 1)) := by
  refine ⟨fun o h => ⟨hosted, atBar o 2, rfl, ?_⟩, ⟨hosted, atBar 0x7FFFF 2, by decide +kernel⟩, ⟨hosted, atBar 0x41000 0x3F000, by decide +kernel⟩⟩
  fin_cases h <;> decide +kernel

/-- COPY_GO of the last slot that starts a copy, at its largest address, and while the Fountain is held; one that does not fit. -/
theorem wit_HostWindows_copy :
    (∃ s w, WriteTaken s w (Key.copyGo 15) 1 ∧ ¬(servesCopies s = true ∧ (getCopy s 15).state ≠ 3 ∧ copyFits s 15 = true)) ∧
    (∀ b ∈ [true, false], ∃ s w, WriteTaken s w (Key.copyGo 15) 1 ∧ servesCopies s = true ∧ (getCopy s 15).state ≠ 3 ∧ copyFits s 15 = true ∧
      fountainHeld s = b) := by
  let f := withObj (Key.copyHostAddr 15) (2 ^ 44 - 32) (withObj (Key.copyBytes 15) 32 up)
  refine ⟨⟨up, put (Key.copyGo 15) 1, takes_taken (by decide +kernel), by decide +kernel⟩, ?_⟩
  intro b h
  let s := { f with keeper := { f.keeper with txn := { f.keeper.txn with holds := b } } }
  refine ⟨s, put (Key.copyGo 15) 1, takes_taken ?_, ?_⟩ <;> fin_cases h <;> decide +kernel

/-- A move of 32 bytes of slot 3, in the direction and at the address given. -/
def move32 (toPool : Bool) (pool : Nat) : CopyMove := ⟨3, 0, pool, 32, toPool⟩

def copying (toPool : Bool) (pool : Nat) (s : State) : State :=
  { s with port := { s.port with queue := [.copy (move32 toPool pool)], copies := [(3, ⟨3, 0, 0, 0, pool⟩)] } }

/-- Moves that do not proceed; refused; to a peer out of reach and within reach; whose host data fails; carried out in each direction. -/
theorem wit_HostWindows_moves :
    (∃ s : State, nextCopyMove s = none) ∧
    (∃ (s : State) (m : CopyMove), nextCopyMove s = some m ∧ s.port.up = false) ∧
    (∃ (s : State) (m : CopyMove) (c : Nat), nextCopyMove s = some m ∧ s.port.up = true ∧ inCisReset s = false ∧ (getCopy s m.cc).state = 3 ∧
      addrDevice m.pool = s.pool.device ∧ homeRefusal s (addrLocal m.pool) m.bytes = some c) ∧
    (∀ r ∈ [true, false], ∃ (s : State) (m : CopyMove), nextCopyMove s = some m ∧ s.port.up = true ∧ inCisReset s = false ∧ (getCopy s m.cc).state = 3 ∧
      addrDevice m.pool ≠ s.pool.device ∧ reachable s (addrDevice m.pool) = r) ∧
    (∀ b ∈ [true, false], ∃ (s : State) (m : CopyMove), nextCopyMove s = some m ∧ s.port.up = true ∧ inCisReset s = false ∧ (getCopy s m.cc).state = 3 ∧
      addrDevice m.pool = s.pool.device ∧ homeRefusal s (addrLocal m.pool) m.bytes = none ∧ m.toPool = b) := by
  refine ⟨⟨up, by decide +kernel⟩, ⟨copying true 0 up, move32 true 0, by decide +kernel⟩, ⟨copying true 0 hosted, move32 true 0, Code.addressUnmapped, by decide +kernel⟩,
    ?_, ?_⟩
  · intro r h
    refine ⟨copying true (2 ^ 58) (if r then hostedPool else hosted), move32 true (2 ^ 58), ?_⟩
    fin_cases h <;> decide +kernel
  · intro b h
    refine ⟨copying b 0 hostedMem, move32 b 0, ?_⟩
    fin_cases h <;> decide +kernel

/-- A move in each direction whose home slices have answered. -/
theorem wit_HostWindows_answered : ∀ b ∈ [true, false], ∃ (s : State) (j : Job), s.cistern.jobs = [j] ∧ j.left = 0 ∧ j.who = .copy (move32 b 0) ∧
    (getCopy s (move32 b 0).cc).state = 3 := by
  intro b _
  let j : Job := { id := 3, half := 0, port := portHost, cls := 0, who := .copy (move32 b 0), left := 0, got := [] }
  exact ⟨{ copying b 0 hostedMem with cistern := { Cistern.clear with jobs := [j] } }, j, rfl, rfl, rfl, rfl⟩

/-! ### The SPDM mailbox and the SMBus target (R351, R486, R503) -/

theorem wit_MailboxAndSmbus :
    (∃ s : State, portServes s = false) ∧
    (∃ s : State, portServes s = true ∧
      0 < (leBytes 2 36 ++ leBytes 2 0 ++ sha256 s.flash.certRoot ++ s.flash.certRoot ++ s.flash.certIssuer ++ s.flash.cert).length) ∧
    (∃ s : State, ¬(s.boot.powered = true ∧ s.boot.resetLow = false ∧ (1 ≤ s.boot.done ∨ s.boot.stopped = true))) ∧
    (∃ s : State, s.boot.powered = true ∧ s.boot.resetLow = false ∧ s.boot.done = 1 ∧ s.boot.stopped = false) ∧
    (∃ s : State, s.boot.powered = true ∧ s.boot.resetLow = false ∧ s.boot.done = 0 ∧ s.boot.stopped = true) := by
  refine ⟨⟨up, by decide +kernel⟩, ⟨hosted, by decide +kernel, ?_⟩, ⟨State.reset, by decide +kernel⟩,
    ⟨{ up with boot := { up.boot with stage := 1, done := 1 } }, by decide +kernel⟩, ⟨{ up with boot := { up.boot with stage := 0, done := 0, stopped := true } }, by decide +kernel⟩⟩
  simp [leBytes]

/-! ### Messages to this device (R354 to R372) -/

/-- A request by the network. -/
def netAsk (magic : Nat) (linkLocal : Bool) : CasReq :=
  { ask 0 [] with via := .net { linkLocal := linkLocal, addr := 5, port := 1 }, hdr := { (ask 0 []).hdr with magic := magic } }

theorem wit_CasaroMessages_before :
    (∃ s : State, s.boot.warmWanted = none ∧ netUp s = false) ∧
    (∀ m ∈ [0, 0x4341], ∃ (s : State) (req : CasReq) (src : Source), s.boot.warmWanted = none ∧ netUp s = true ∧ req.via = .net src ∧
      (headerGood req.hdr req.body = false ∨ src.linkLocal = false) ∧ req.hdr.magic = m) ∧
    (∃ (s : State) (req : CasReq) (src : Source) (k : Kept), s.boot.warmWanted = none ∧ netUp s = true ∧ req.via = .net src ∧
      headerGood req.hdr req.body = true ∧ src.linkLocal = true ∧ inProgress s src req.hdr.tag = false ∧
      (recentKept s).find? (fun k => k.src.addr == src.addr && k.tag == req.hdr.tag) = some k) ∧
    (∃ (s : State) (req : CasReq), s.boot.warmWanted = none ∧ netUp s = true ∧ req.via = .chan 3 ∧ headerGood req.hdr req.body = true ∧
      targetsHere s req.hdr.target = false ∧ (inPool s = false ∨ 64 ≤ req.hdr.target ∨ bit s.pool.members req.hdr.target = false)) ∧
    (∃ (s : State) (req : CasReq), s.boot.warmWanted = none ∧ Asks s req 3 ∧ req.hdr.txn = 0 ∧ req.body = []) := by
  let q : CasReq := ask 0 []
  let src : Source := { linkLocal := true, addr := 5, port := 1 }
  refine ⟨⟨State.reset, by decide +kernel⟩, ?_,
    ⟨{ up with keeper := { up.keeper with kept := [{ src := src, tag := 7, at_ := 0, frame := [] }] } }, netAsk 0x4341 true, src, { src := src, tag := 7, at_ := 0, frame := [] }, by decide +kernel⟩,
    ⟨up, { q with hdr := { q.hdr with target := 63 } }, by decide +kernel⟩, ⟨up, q, by unfold Asks; decide +kernel⟩⟩
  intro m h
  refine ⟨up, netAsk m false, { linkLocal := false, addr := 5, port := 1 }, ?_⟩
  fin_cases h <;> decide +kernel

/-- Bodies of the requests to this device: nothing, one object read, one written, one listed, one described, one event asked for. -/
theorem wit_CasaroMessages_bodies : ∀ b ∈ [[], leBytes 2 1 ++ leBytes 2 0 ++ leBytes 4 Key.stage, leBytes 2 1 ++ leBytes 2 0 ++ oneItem Key.maxRate 1 0 (leBytes 1 3),
    leBytes 4 0 ++ leBytes 2 1 ++ leBytes 2 0, leBytes 4 Key.stage, leBytes 4 0xFFFFFFFF ++ leBytes 2 0xFFFF ++ leBytes 2 0],
    ∃ (s : State) (req : CasReq), Asks s req 3 ∧ req.hdr.txn = 0 ∧ req.body = b :=
  fun b _ => ⟨up, ask 0 b, ⟨rfl, by simp [ask, headerGood], by simp [ask, targetsHere], by decide +kernel, by decide +kernel, rfl⟩, rfl, rfl⟩

/-- An object that reads, one whose area is not ready, one that is write-only, none; a write that is refused and one that is not; an
object that is listed after 0 and none after the last; one that is described. -/
theorem wit_CasaroMessages_objects :
    (∃ r, objRow Key.stage = some r ∧ areaOpen up (keyArea Key.stage) r.flash = true ∧ r.acc ≠ .wo ∧ r.ty ≠ .bytes ∧ r.ty ≠ .text ∧ openObj up Key.stage = false ∧
      ¬(keyArea Key.stage = 0x50 ∧ (keyObj Key.stage = 1 ∨ keyObj Key.stage = 2))) ∧
    (∃ s r, objRow Key.intakeDrops = some r ∧ netUp s = true ∧ reducedResponder s = false ∧ s.boot.warmWanted = none ∧
      areaOpen s (keyArea Key.intakeDrops) r.flash = false) ∧
    (∃ r, objRow (Key.svcGo 0) = some r ∧ areaOpen up (keyArea (Key.svcGo 0)) r.flash = true ∧ r.acc = .wo) ∧
    objRow 0xFFFFFFFF = none ∧
    (∃ r, objRow Key.maxRate = some r ∧ r.ty ≠ .bytes ∧ r.ty ≠ .text ∧ 3 < 2 ^ (8 * r.ty.width) ∧ refusedBefore up Key.maxRate (.num 3) = 0 ∧
      (applyWrite up [] r Key.maxRate (.num 3)).2.boot.warmWanted = none) ∧
    (∃ r, objRow Key.stage = some r ∧ r.ty ≠ .bytes ∧ r.ty ≠ .text ∧ 3 < 2 ^ (8 * r.ty.width) ∧ refusedBefore up Key.stage (.num 3) ≠ 0) ∧
    (∃ j r, objNext 0 = some j ∧ objRow j = some r) ∧ objNext 0xFFFFFFFF = none := by
  have get {α} {o : Option α} {P : α → Prop} [DecidablePred P] (h : (match o with | none => false | some x => decide (P x)) = true) : ∃ x, o = some x ∧ P x := by
    split at h
    · cases h
    · exact ⟨_, rfl, by simpa using h⟩
  refine ⟨get (by decide +kernel), ?_, get (by decide +kernel), by decide +kernel, get (by decide +kernel), get (by decide +kernel), ?_, by decide +kernel⟩
  · obtain ⟨r, a, b⟩ : ∃ r, objRow Key.intakeDrops = some r ∧ areaOpen { up with boot := { up.boot with stage := 2, done := 2 } } (keyArea Key.intakeDrops) r.flash = false :=
      get (by decide +kernel)
    exact ⟨_, r, a, by decide +kernel, by decide +kernel, by decide +kernel, b⟩
  · obtain ⟨j, a, b⟩ : ∃ j, objNext 0 = some j ∧ (objRow j).isSome := get (by decide +kernel)
    obtain ⟨r, h⟩ := Option.isSome_iff_exists.mp b
    exact ⟨j, r, a, h⟩

/-! ### Transactions and relays (R370, R373 to R377) -/

/-- A transaction of identity 1 in state `st`, EVENT_RATE staged with `n`. -/
def inTxn (st : TxnSt) (n : Nat) (s : State) : State :=
  { s with keeper := { s.keeper with txn := { Txn.none with st := st, id := 1, staged := [(Key.eventRate, .num n)] } } }

theorem wit_CasaroTransactions_messages :
    (∀ b ∈ [[], List.replicate 8 0#8], ∃ (s : State) (req : CasReq), Asks s req 3 ∧ req.body = b ∧ txnCurrent s req.hdr.txn = false) ∧
    (∀ st ∈ [TxnSt.none, .open_], ∃ (s : State) (req : CasReq), Asks s req 3 ∧ req.hdr.txn = 0 ∧ req.body = [] ∧ s.keeper.txn.st = st) ∧
    (∀ st ∈ [TxnSt.open_, .prepared, .committing, .applying], ∃ (s : State) (req : CasReq), Asks s req 3 ∧ req.hdr.txn ≠ 0 ∧ txnCurrent s req.hdr.txn = true ∧
      req.body = [] ∧ s.keeper.txn.st = st ∧ (checkStaged s).1.1 = 0) ∧
    (∀ st ∈ [TxnSt.open_, .prepared], ∃ (s : State) (req : CasReq), Asks s req 3 ∧ req.hdr.txn ≠ 0 ∧ txnCurrent s req.hdr.txn = true ∧
      req.body = List.replicate 8 0#8 ∧ s.keeper.txn.st = st ∧ (checkStaged s).1.1 ≠ 0 ∧ (checkStaged s).1.1 < 4096) := by
  refine ⟨?_, ?_, ?_, ?_⟩ <;> intro x h
  · refine ⟨up, ask 2 x, ?_⟩; unfold Asks; fin_cases h <;> decide +kernel
  · refine ⟨inTxn x 5 up, ask 0 [], ?_⟩; unfold Asks; fin_cases h <;> decide +kernel
  · refine ⟨inTxn x 5 up, ask 1 [], ?_⟩; unfold Asks; fin_cases h <;> decide +kernel
  · let s := inTxn x 5 up
    let lost : State := { s with keeper := { s.keeper with txn := { s.keeper.txn with staged := [(Key.linkEnable 35, .num 0)] } } }
    refine ⟨pooled lost [], commitNow, ?_⟩; unfold Asks; fin_cases h <;> decide +kernel

/-- Timed commits: of a set not prepared, too early, too late, without PPS, and at both ends of what is taken. -/
theorem wit_CasaroTransactions_timed :
    (∃ (s : State) (req : CasReq), Asks s req 3 ∧ req.hdr.txn ≠ 0 ∧ txnCurrent s req.hdr.txn = true ∧ req.body = leBytes 8 1 ∧ s.keeper.txn.st = .open_) ∧
    (∀ e ∈ [(1, 9999999), (1, 60000000001), (0, 10000000)], ∃ (s : State) (req : CasReq), Asks s req 3 ∧ req.hdr.txn ≠ 0 ∧ txnCurrent s req.hdr.txn = true ∧
      req.body = leBytes 8 e.2 ∧ s.keeper.txn.st = .prepared ∧ s.time.pps = e.1 ∧ (s.time.pps ≠ 1 ∨ e.2 < stamp s + 10000000 ∨ stamp s + 60 * 1000000000 < e.2)) ∧
    (∀ n ∈ [10000000, 60000000000], ∃ (s : State) (req : CasReq), Asks s req 3 ∧ req.hdr.txn ≠ 0 ∧ txnCurrent s req.hdr.txn = true ∧
      req.body = leBytes 8 n ∧ s.keeper.txn.st = .prepared ∧ s.time.pps = 1 ∧ stamp s + 10000000 ≤ n ∧ n ≤ stamp s + 60 * 1000000000) := by
  let p (k : Nat) : State := { inTxn .prepared 5 up with time := { Time.clear with pps := k } }
  refine ⟨⟨inTxn .open_ 5 up, ask 1 (leBytes 8 1), by unfold Asks; decide +kernel⟩, ?_, ?_⟩ <;> intro x h
  · refine ⟨p x.1, ask 1 (leBytes 8 x.2), ?_⟩; unfold Asks; fin_cases h <;> decide +kernel
  · refine ⟨p 1, ask 1 (leBytes 8 x), ?_⟩; unfold Asks; fin_cases h <;> decide +kernel

/-- A commit of one write; a timeout not due and due; a commit's instant not due, due with a set that fails, due with one that does
not; a relay not found, not due and due. -/
theorem wit_CasaroTransactions_times :
    (∃ s req, CommitsOne s req 3 Key.eventRate 5) ∧
    (∃ s : State, s.keeper.txn.st = .open_ ∧ s.keeper.txn.activity + 30 * 1000000000 = now s + 1 ∧ netUp s = true) ∧
    (∀ st ∈ [TxnSt.open_, .prepared], ∃ s : State, s.keeper.txn.st = st ∧ s.keeper.txn.activity + 30 * 1000000000 = now s ∧ netUp s = true) ∧
    (∃ s : State, s.keeper.txn.st = .committing ∧ ¬(s.keeper.txn.instant ≤ stamp s)) ∧
    (∃ s : State, s.keeper.txn.st = .committing ∧ s.keeper.txn.instant ≤ stamp s ∧ netUp s = true ∧ s.boot.dark = .none ∧ (checkStaged s).1.1 ≠ 0) ∧
    (∃ s : State, s.keeper.txn.st = .committing ∧ s.keeper.txn.instant ≤ stamp s ∧ netUp s = true ∧ s.boot.dark = .none ∧ s.boot.warmWanted = none ∧ pinsPending s = false ∧
      s.keeper.txn.staged = [(Key.eventRate, .num 5)]) ∧
    (∃ s : State, s.keeper.relays.find? (fun r => r.dev == 1 && r.tag == 7) = none) ∧
    (∀ n ∈ [0, 1], ∃ (s : State) (r : Relay), s.keeper.relays.find? (fun r => r.dev == 1 && r.tag == 7) = some r ∧ r.via = .chan 3 ∧
      now s + 1 = r.since + getObj s Key.peerTimeout * 1000000 + n) := by
  let c := inTxn .committing 5 up
  let late : State := { c with keeper := { c.keeper with txn := { c.keeper.txn with instant := 1 } } }
  let bad : State := { c with keeper := { c.keeper with txn := { c.keeper.txn with staged := [(Key.linkEnable 35, .num 0)] } } }
  let r : Relay := { dev := 1, tag := 7, via := .chan 3, hdr := (ask 0 []).hdr, op := 1, since := 0, frags := [], count := 0 }
  refine ⟨⟨inTxn .open_ 5 up, commitNow, by unfold CommitsOne; decide +kernel⟩, ⟨at_ 29999999999 (inTxn .open_ 5 up), by decide +kernel⟩, ?_,
    ⟨late, by decide +kernel⟩, ⟨pooled bad [], by decide +kernel⟩, ⟨c, by decide +kernel⟩, ⟨up, by decide +kernel⟩, ?_⟩ <;> intro x h
  · refine ⟨at_ 30000000000 (inTxn x 5 up), ?_⟩; fin_cases h <;> decide +kernel
  · refine ⟨at_ (getObj up Key.peerTimeout * 1000000 + x - 1) { up with keeper := { up.keeper with relays := [r] } }, r, ?_⟩
    fin_cases h <;> decide +kernel

/-! ### Writes of dictionary objects (R43, R355, R357, R372, R374, R382, R430, R445, R450, R479) -/

/-- A write refused because its object is unknown, read-only, of another type, out of range, RWT, or staged. -/
theorem wit_ObjectWrites_refused : ∀ e ∈ [(0xFFFFFFFF, Val.num 0), (Key.stage, .num 0), (Key.eventRate, .bytes []), (Key.plcaNodeCount, .num 33),
    (Key.linkEnable 0, .num 0), (Key.minReset, .num 1)], ∃ (s : State) (w : ObjWrite), s.boot.warmWanted = none ∧ w.txn = 0 ∧ w.key = e.1 ∧ w.val = e.2 ∧
      refusedBefore s w.key w.val ≠ 0 := by
  intro e h
  refine ⟨txn [(Key.minReset, .num 1)] up, { key := e.1, val := e.2, txn := 0 }, ?_⟩
  fin_cases h <;> decide +kernel

/-- Writes staged: an object without a row of its own, and each of those with one. -/
theorem wit_ObjectWrites_staged : ∀ e ∈ [(Key.eventRate, 5), (Key.intakeError, 0xFFFFFFFF), (Key.eventQuery, 0), (Key.defectQuery, 0), (Key.minReset, 1),
    (Key.snapshot, 1), (Key.secondsLoad, 1), (Key.arithClock, 2)], ∃ s w, WriteStaged s w e.1 e.2 := by
  intro e h
  refine ⟨txn [] up, wput e.1 e.2, stages_staged ?_⟩
  fin_cases h <;> decide +kernel

/-- Writes taken outside a transaction: of each object with a row of its own, with false and true where they differ. -/
theorem wit_ObjectWrites_taken : ∀ e ∈ [(Key.intakeError, 0), (Key.intakeError, 0xFFFFFFFF), (Key.eventQuery, 0), (Key.defectQuery, 0), (Key.minReset, 0),
    (Key.minReset, 1), (Key.snapshot, 0), (Key.snapshot, 1), (Key.secondsLoad, 1), (Key.arithClock, 0), (Key.arithClock, 2)], ∃ s w, WriteTaken s w e.1 e.2 ∧
      s.power.step = 0 := by
  intro e h
  refine ⟨up, put e.1 e.2, takes_taken ?_, rfl⟩
  fin_cases h <;> decide +kernel

theorem wit_ObjectWrites_plain :
    (∃ s w r, WriteTaken s w Key.drainLimit 5 ∧ objRow Key.drainLimit = some r ∧ ownRow Key.drainLimit = false ∧ keyArea Key.drainLimit = 0x20 ∧ r.flash = false) ∧
    (∃ s w r, WriteTaken s w Key.plcaNodeCount 32 ∧ objRow Key.plcaNodeCount = some r ∧ ownRow Key.plcaNodeCount = false ∧
      keyArea Key.plcaNodeCount = 0x20 ∧ r.flash = true) ∧
    (∃ s w r, WriteTaken s w (Key.outstandingLimit 0) 5 ∧ objRow (Key.outstandingLimit 0) = some r ∧ ownRow (Key.outstandingLimit 0) = false ∧
      keyArea (Key.outstandingLimit 0) = 0x34) ∧
    (∃ (s : State) (w : ObjWrite), w.key = Key.svcArgs 6 ∧ w.val = .bytes [0#8] ∧ w.txn = 0 ∧ s.boot.warmWanted = none ∧ netUp s = true ∧ refusedBefore s w.key w.val = 0) ∧
    (∃ (s : State) (w : ObjWrite), s.boot.warmWanted = none ∧ w.key = Key.arithClock ∧ w.val = .num 1 ∧ w.txn = 0 ∧ deviceIdle s = false) := by
  have row {k : Nat} {b : Bool} (h : (objRow k).map (·.flash) = some b) : ∃ r, objRow k = some r ∧ r.flash = b := by simpa using h
  obtain ⟨r, a, b⟩ := row (k := Key.drainLimit) (b := false) (by decide +kernel)
  obtain ⟨r1, a1, b1⟩ := row (k := Key.plcaNodeCount) (b := true) (by decide +kernel)
  obtain ⟨r2, a2, -⟩ := row (k := Key.outstandingLimit 0) (b := false) (by decide +kernel)
  exact ⟨⟨up, put Key.drainLimit 5, r, takes_taken (by decide +kernel), a, by decide +kernel, by decide +kernel, b⟩,
    ⟨up, put Key.plcaNodeCount 32, r1, takes_taken (by decide +kernel), a1, by decide +kernel, by decide +kernel, b1⟩,
    ⟨up, put (Key.outstandingLimit 0) 5, r2, takes_taken (by decide +kernel), a2, by decide +kernel, by decide +kernel⟩,
    ⟨up, { key := Key.svcArgs 6, val := .bytes [0#8], txn := 0 }, by decide +kernel⟩, ⟨slotted up [task], put Key.arithClock 1, by decide +kernel⟩⟩

/-- An event and a record found, and not found; the instant of a snapshot not due, and due to the nanosecond. -/
theorem wit_ObjectWrites_answers :
    (∃ s w, WriteTaken s w Key.eventQuery 0 ∧ (findEvent s 0).isSome) ∧ findEvent up 0 = none ∧
    (∃ s w, WriteTaken s w Key.defectQuery 0 ∧ (s.flash.defects[0]?).isSome ∧ 0 < defectCount s) ∧ defectCount up ≤ 0 ∧
    (∃ s : State, getObj s Key.snapshotAt ≠ 0 ∧ getObj s Key.snapshotAt = stamp s + 1) ∧
    (∃ s : State, getObj s Key.snapshotAt ≠ 0 ∧ getObj s Key.snapshotAt ≤ stamp s) := by
  let e : Event := { seq := 0, code := 1, severity := 0, origin := 0, slot := 0, device := 0, tag := 0, stamp := 0, unit := 0, detail := [], sent := true }
  exact ⟨⟨{ up with keeper := { up.keeper with ring := [e], eventSeq := 1 } }, put Key.eventQuery 0, takes_taken (by decide +kernel), by decide +kernel⟩, by decide +kernel,
    ⟨recorded 1 0 up, put Key.defectQuery 0, takes_taken (by decide +kernel), by decide +kernel⟩, by decide +kernel,
    ⟨withObj Key.snapshotAt 1 up, by decide +kernel⟩, ⟨{ withObj Key.snapshotAt 1 up with time := { Time.clear with tb := 1 } }, by decide +kernel⟩⟩

/-! ### Enables, drains, resets and regulation (R68, R379 to R383, R402, R410, R413 to R415, R477) -/

/-- A device in service with every position enabled by its start, one group of a task at position 0. -/
def serving : State := { holding (warp []) task with boot := { up.boot with tier := 3 } }

/-- A drain of a function that ends at elapsed time `n`. -/
def draining (fn : DrainFn) (n : Nat) (s : State) : State :=
  { s with keeper := { s.keeper with drains := [{ fn := fn, deadline := n, deadlineTb := n }],
                                     cores := (match fn with | .core p => [(p, 2)] | _ => []), classes := (match fn with | .cls c => [(c, 1)] | _ => []) } }

theorem wit_EnablesAndResets_enables :
    (∀ e ∈ [(Key.coreEnable 543, 0), (Key.coreEnable 0, 1), (Key.classEnable 7, 0), (Key.classEnable 0, 1)], ∃ s w, WriteStaged s w e.1 e.2) ∧
    (∃ s req sl, CommitsOne s req 3 (Key.coreEnable 0) 0 ∧ coreState s 0 = 1 ∧ (∃ e ∈ coreGroups (getPos s 0), getSlot s e.2.slot = some sl) ∧ sl.state = 3 ∧ sl.ending = none) ∧
    (∃ s req, CommitsOne s req 3 (Key.coreEnable 543) 0 ∧ coreState s 543 ≠ 1) ∧
    (∃ s req, CommitsOne s req 3 (Key.coreEnable 0) 1 ∧ coreState s 0 = 4) ∧
    (∃ s req, CommitsOne s req 3 (Key.coreEnable 0) 1 ∧ coreState s 0 = 2 ∧ pendingExcludes s 0 = false) ∧
    (∃ s req, CommitsOne s req 3 (Key.coreEnable 0) 1 ∧ coreState s 0 = 3 ∧ pendingExcludes s 0 = false) ∧
    (∃ s req sl, CommitsOne s req 3 (Key.classEnable 0) 0 ∧ classState s 0 = 0 ∧ SlotsWf s ∧ getSlot s 0 = some sl ∧ recClass sl.words = 0 ∧ sl.state = 3 ∧ sl.ending = none) ∧
    (∃ s req, CommitsOne s req 3 (Key.classEnable 7) 0 ∧ classState s 7 ≠ 0) ∧ (∃ s req, CommitsOne s req 3 (Key.classEnable 7) 1 ∧ classState s 7 = 1) ∧
    (∃ s req, CommitsOne s req 3 (Key.classEnable 7) 1 ∧ classState s 7 = 2) := by
  let c (k v : Nat) (s : State) : State := txn [(k, .num v)] s
  let k (st : Nat) : State := { serving with keeper := { serving.keeper with cores := [(0, st), (543, st)] } }
  let e (st : Nat) : State := { serving with keeper := { serving.keeper with classes := [(7, st)] } }
  refine ⟨?_, ⟨c (Key.coreEnable 0) 0 (k 1), commitNow, task, by unfold CommitsOne; decide +kernel⟩, ⟨c (Key.coreEnable 543) 0 (k 2), commitNow, by unfold CommitsOne; decide +kernel⟩,
    ⟨c (Key.coreEnable 0) 1 (k 4), commitNow, by unfold CommitsOne; decide +kernel⟩, ⟨c (Key.coreEnable 0) 1 (k 2), commitNow, by unfold CommitsOne; decide +kernel⟩,
    ⟨c (Key.coreEnable 0) 1 (k 3), commitNow, by unfold CommitsOne; decide +kernel⟩, ⟨c (Key.classEnable 0) 0 (e 0), commitNow, task, by unfold CommitsOne; decide +kernel⟩,
    ⟨c (Key.classEnable 7) 0 (e 2), commitNow, by unfold CommitsOne; decide +kernel⟩, ⟨c (Key.classEnable 7) 1 (e 1), commitNow, by unfold CommitsOne; decide +kernel⟩,
    ⟨c (Key.classEnable 7) 1 (e 2), commitNow, by unfold CommitsOne; decide +kernel⟩⟩
  intro x h
  refine ⟨txn [] serving, wput x.1 x.2, stages_staged ?_⟩
  fin_cases h <;> decide +kernel

theorem wit_EnablesAndResets_deadline :
    (∃ s : State, ∃ d ∈ s.keeper.drains, d.fn = .core 0 ∧ now s + 1 = d.deadline ∧ ∀ x ∈ s.keeper.drains, x.fn = .core 0 → now s < x.deadline) ∧
    (∃ s : State, ∃ d ∈ s.keeper.drains, d.fn = .core 0 ∧ d.deadline = now s ∧ coreState s 0 = 2 ∧ ∃ e ∈ coreGroups (getPos s 0), (getSlot s e.2.slot).isSome) ∧
    (∃ s : State, ∃ d ∈ s.keeper.drains, d.fn = .cls 0 ∧ d.deadline = now s ∧ SlotsWf s ∧ getSlot s 0 = some task ∧ recClass task.words = 0 ∧ task.state = 3) :=
  ⟨⟨draining (.core 0) 1 serving, by decide +kernel⟩, ⟨draining (.core 0) 0 serving, by decide +kernel⟩, ⟨draining (.cls 0) 0 serving, by decide +kernel⟩⟩

theorem wit_EnablesAndResets_writes :
    (∃ s w, WriteTaken s w (Key.svcCancel 6) 1 ∧ (getSvc s 7).state ≠ 3) ∧ (∃ s w, WriteTaken s w (Key.svcCancel 6) 1 ∧ (getSvc s 7).state = 3) ∧
    (∃ s w, WriteTaken s w Key.acceptUntested 1 ∧ s.boot.stopped = false) ∧
    (∃ s w, WriteTaken s w Key.acceptUntested 1 ∧ s.boot.stopped = true ∧ s.boot.done = 2 ∧ getObj s (Key.stageResult 2) = Code.untestedPair ∧ s.boot.kind ≠ 2) ∧
    (∃ s w, WriteTaken s w Key.warmReset 0) ∧ (∃ s w, WriteTaken s w Key.warmReset 1) ∧
    (∃ s w, WriteTaken s w Key.cisternReset 1 ∧ inCisReset s = true) ∧
    (∃ s w, WriteTaken s w Key.cisternReset 1 ∧ inService s = true ∧ (getSvc s 1).state ≠ 3 ∧ inCisReset s = false) := by
  let waits : State := withObj (Key.stageResult 2) Code.untestedPair { up with boot := { up.boot with stage := 2, done := 2, stopped := true } }
  exact ⟨⟨up, put (Key.svcCancel 6) 1, takes_taken (by decide +kernel), by decide +kernel⟩, ⟨svcIn 7 3 up, put (Key.svcCancel 6) 1, takes_taken (by decide +kernel), by decide +kernel⟩,
    ⟨up, put Key.acceptUntested 1, takes_taken (by decide +kernel), by decide +kernel⟩, ⟨waits, put Key.acceptUntested 1, takes_taken (by decide +kernel), by decide +kernel⟩,
    ⟨up, put Key.warmReset 0, takes_taken (by decide +kernel)⟩, ⟨up, put Key.warmReset 1, takes_taken (by decide +kernel)⟩,
    ⟨{ serving with cistern := { Cistern.clear with reset := some ⟨0, 0, 0⟩ } }, put Key.cisternReset 1, takes_taken (by decide +kernel), by decide +kernel⟩,
    ⟨serving, put Key.cisternReset 1, takes_taken (by decide +kernel), by decide +kernel⟩⟩

/-- A request of class 7 that is held outside slice 127. -/
def heldReq : InReq := { port := 0, req := req .read, held := true, full := false }

theorem wit_EnablesAndResets_drain :
    (∃ s : State, s.cistern.reset = none) ∧ (∃ (s : State) (r : CisReset), s.cistern.reset = some r ∧ drained s = false ∧ now s + 1 = r.since + 2010000) ∧
    (∃ (s : State) (r : CisReset), s.cistern.reset = some r ∧ drained s = true ∧ SlotsWf s ∧ s.cistern.jobs = [] ∧ s.sluice.moves = [] ∧
      (∀ h, h < 2 → (getHalf s h).pagingOut = false) ∧ liveSlots s ≠ [] ∧ ∀ e ∈ liveSlots s, staging e.2 = false ∧ e.2.staging ≠ .listing) ∧
    (∃ (s : State) (r : CisReset), s.cistern.reset = some r ∧ r.since + 2010000 = now s ∧ SlotsWf s ∧
      getSlot s 0 = some { task with windowUser := true } ∧ task.state = 3) := by
  let r : CisReset := ⟨0, 0xFFFFFFFF, 0⟩
  let busy : State := { serving with cistern := { Cistern.clear with reset := some r } }
  exact ⟨⟨up, rfl⟩, ⟨at_ 2009999 (sliced { Slice.empty with inbox := [heldReq] } busy), r, by decide +kernel⟩,
    ⟨{ slotted up [task] with cistern := { Cistern.clear with reset := some r } }, r, by decide +kernel⟩,
    ⟨at_ 2010000 (slotted busy [{ task with windowUser := true }]), r, by decide +kernel⟩⟩

/-- Admissions with no rails, at no point, of a class at its limit, of a class below it, with nothing held, and of a link's egress. -/
theorem wit_EnablesAndResets_regulation :
    (∃ s : State, railsUp s = false) ∧
    (∃ s : State, railsUp s = true ∧ ((getSlice s 127).inbox.zipIdx.find? (fun e => e.1.held && e.1.req.cls == 7)) = some (heldReq, 0) ∧
      classLimit s 0 7 ≤ intakeCount (getSlice s 127) 7) ∧
    (∃ s : State, railsUp s = true ∧ ((getSlice s 127).inbox.zipIdx.find? (fun e => e.1.held && e.1.req.cls == 7)) = some (heldReq, 0) ∧
      intakeCount (getSlice s 127) 7 < classLimit s 0 7 ∧ (getSlice s 127).portLost = false ∧
      heldBy (markInbox s 127 0 (fun x => { x with held := false })) 127 heldReq.req = .none) ∧
    (∃ s : State, railsUp s = true ∧ (∀ e ∈ (getSlice s 127).inbox, ¬(e.held = true ∧ e.req.cls = 7)) ∧
      (∀ e ∈ s.cistern.slices, ∀ f ∈ e.2.fetches, ¬(f.held = true ∧ f.cls = 7)) ∧ Still (getLink s 35)) ∧
    (∃ (s : State) (x : SillXfer), railsUp s = true ∧ ((mapGet [] s.cistern.sill 1).zipIdx.find? (fun e => !e.1.sent && e.1.cls == 7)) = some (x, 0) ∧
      classLimit s 2 7 ≤ sillCount s 1 7) ∧
    (∃ (s : State) (x : SillXfer), railsUp s = true ∧ ((mapGet [] s.cistern.sill 1).zipIdx.find? (fun e => !e.1.sent && e.1.cls == 7)) = some (x, 0) ∧
      sillCount s 1 7 < classLimit s 2 7) := by
  let h : State := sliced { Slice.empty with inbox := [heldReq] } up
  let x : SillXfer := { item := .request (req .read) 127, cls := 7, bytes := 32, fails := 0, sent := false }
  let o (s : State) : State := { s with cistern := { s.cistern with sill := [(1, [x])] } }
  exact ⟨⟨{ up with boot := { up.boot with dark := .railTrip } }, by decide +kernel⟩, ⟨withObj (Key.outstandingLimit 7) 0 h, by decide +kernel⟩, ⟨h, by decide +kernel⟩,
    ⟨up, by decide +kernel⟩, ⟨withObj (Key.outstandingLimit 39) 0 (o up), x, by decide +kernel⟩, ⟨o up, x, by decide +kernel⟩⟩

/-! ### The sweep, the tests of cores and their packs (R382, R383, R406, R407, R412, R462, R466 to R469) -/

/-- SVC_GO false of each operation, and true of each that runs. -/
theorem wit_ServiceTests_go : ∀ op ∈ [1, 2, 3, 4, 5, 6, 7], (∃ s w, WriteTaken s w (Key.svcGo (op - 1)) 0) ∧
    (∃ s w, WriteTaken s w (Key.svcGo (op - 1)) 1 ∧ (getSvc s op).state = 3) := by
  intro op h
  refine ⟨⟨up, put (Key.svcGo (op - 1)) 0, takes_taken ?_⟩, ⟨svcIn op 3 up, put (Key.svcGo (op - 1)) 1, takes_taken ?_, ?_⟩⟩ <;> fin_cases h <;> decide +kernel

theorem wit_ServiceTests_sweep :
    (∃ s w, Goes s w 1 ∧ 1 < (svcArgs s 1).length) ∧ (∃ s w, Goes s w 1 ∧ (svcArgs s 1).length ≤ 1 ∧ deviceIdle s = false) ∧
    (∃ s w, Goes s w 1 ∧ (svcArgs s 1).length = 1 ∧ deviceIdle s = true ∧ inService s = true ∧ inCisReset s = false) :=
  ⟨⟨withArgs 1 [1#8, 0#8] up, go 1, goes_of (by decide +kernel), by decide +kernel⟩, ⟨slotted up [task], go 1, goes_of (by decide +kernel), by decide +kernel⟩,
    ⟨withArgs 1 [15#8] up, go 1, goes_of (by decide +kernel), by decide +kernel⟩⟩

/-- A sweep that has these blocks to do. -/
def sweepOf (todo : List Nat) (cancel : Bool) (s : State) : State :=
  { s with keeper := { s.keeper with svcs := [(1, { Svc.idle with state := 3, todo := todo, cancel := cancel })] } }

/-- A finding of each kind in the first and last block that can make it, among them the second bank of a depleted pair; a block with
others to follow, the last one, and one where a cancel waits. -/
theorem wit_ServiceTests_blocks :
    (∃ s : State, (getSvc s 1).state ≠ 3) ∧
    (∀ e ∈ [(0, 1, 0), (33, 1, 543), (0, 9, 15), (34, 2, 0), (49, 3, 127)], ∃ (s : State) (f : SweepFinding) (rest : List Nat), inService s = true ∧ (getSvc s 1).state = 3 ∧
      (getSvc s 1).todo = e.1 :: rest ∧ e.1 < 50 ∧ (getSvc s 1).args = [] ∧ f.kind = e.2.1 ∧ f.unit = e.2.2 ∧
      (if e.1 < 34 then f.unit / 16 = e.1 ∧ (f.kind = 1 ∨ f.kind = 9) else f.unit / 8 = e.1 - 34 ∧ (f.kind = 2 ∨ f.kind = 3)) ∧
      isNamed s f.kind f.unit f.detail = false ∧ s.flash.defects.length < 4096 ∧ ∀ x ∈ s.cistern.slices, x.2.retired = false) ∧
    (∃ (s : State) (f : SweepFinding), inService s = true ∧ (getSvc s 1).state = 3 ∧ (getSvc s 1).todo = [49] ∧ f.kind = 3 ∧ f.unit = 126 ∧
      (getSlice s (126 ^^^ 1)).retired = true ∧ isNamed s f.kind f.unit f.detail = false) ∧
    (∃ s : State, inService s = true ∧ (getSvc s 1).state = 3 ∧ (getSvc s 1).todo = [5, 6] ∧ (getSvc s 1).cancel = true) := by
  refine ⟨⟨up, by decide +kernel⟩, ?_, ⟨sweepOf [49] false (sliced { Slice.empty with retired := true } up), ⟨3, 126, 0, 1⟩, by decide +kernel⟩,
    ⟨sweepOf [5, 6] true up, by decide +kernel⟩⟩
  intro e h
  refine ⟨sweepOf [e.1] false up, ⟨e.2.1, e.2.2, 0, 1⟩, [], ?_⟩
  fin_cases h <;> decide +kernel

/-- SVC_ARGS of operation 3: mode, positions at once, offset or length, source, and a chunk. -/
def packArgs (mode n off src : Nat) (chunk : List Byte) (s : State) : State :=
  withArgs 3 (leBytes 1 mode ++ [0#8] ++ leBytes 2 n ++ leBytes 4 off ++ leBytes 8 src ++ chunk) s

theorem wit_ServiceTests_pack :
    (∀ m ∈ [0, 1, 2, 3], ∃ s w, Goes s w 3 ∧ packMode s = m ∧ 16 ≤ (svcArgs s 3).length) ∧
    (∀ off ∈ [2 ^ 22 + 111, 2 ^ 22 + 112], ∃ s w, Goes s w 3 ∧ packMode s = 0 ∧ leAt (svcArgs s 3) 4 4 = off ∧ ((svcArgs s 3).drop 16).length = 1) ∧
    (∃ s w, Goes s w 3 ∧ packMode s = 1 ∧ envValid s 4 s.keeper.pack = true ∧ envBodyLen s.keeper.pack ≤ 2 ^ 22) ∧
    (∃ s w, Goes s w 3 ∧ packMode s = 1 ∧ envValid s 4 s.keeper.pack = false) ∧
    (∃ s w, Goes s w 3 ∧ packMode s = 2 ∧ leAt (svcArgs s 3) 8 8 % 64 ≠ 0) ∧
    (∃ s w, Goes s w 3 ∧ packMode s = 2 ∧ leAt (svcArgs s 3) 8 8 = 0 ∧ leAt (svcArgs s 3) 4 4 = 112 ∧ addrDevice 0 = s.pool.device ∧ homeRefusal s 0 112 ≠ none) ∧
    (∃ s w, Goes s w 3 ∧ packMode s = 2 ∧ leAt (svcArgs s 3) 8 8 = 0 ∧ leAt (svcArgs s 3) 4 4 = 0 ∧ addrDevice 0 = s.pool.device) ∧
    (∃ s w, Goes s w 3 ∧ packMode s = 2 ∧ leAt (svcArgs s 3) 8 8 = 0 ∧ leAt (svcArgs s 3) 4 4 = 112 ∧ addrDevice 0 = s.pool.device ∧ homeRefusal s 0 112 = none ∧
      resMapped s 0 = resMapped s 111) ∧
    (∀ n ∈ [0, 65, 1, 64], ∃ s w, Goes s w 3 ∧ packMode s = 3 ∧ leAt (svcArgs s 3) 2 2 = n ∧ s.flash.pack = []) ∧
    (∃ s w, Goes s w 3 ∧ packMode s = 3 ∧ leAt (svcArgs s 3) 2 2 = 64 ∧ s.flash.pack ≠ [] ∧ coreState s 543 = 1) := by
  let inFlash (s : State) : State := { s with flash := { s.flash with pack := packObj }, keeper := { s.keeper with cores := [(543, 1)] } }
  let taken (e : List Byte) (s : State) : State := { s with keeper := { s.keeper with pack := e } }
  refine ⟨?_, ?_, ⟨taken packObj (packArgs 1 0 0 0 [] (keyed keysA up)), go 3, goes_of (by decide +kernel), by decide +kernel, packObj_valid rfl, by decide +kernel⟩,
    ⟨packArgs 1 0 0 0 [] up, go 3, goes_of (by decide +kernel), by decide +kernel⟩, ⟨packArgs 2 0 112 32 [] up, go 3, goes_of (by decide +kernel), by decide +kernel⟩,
    ⟨packArgs 2 0 112 0 [] up, go 3, goes_of (by decide +kernel), by decide +kernel⟩, ⟨packArgs 2 0 0 0 [] up, go 3, goes_of (by decide +kernel), by decide +kernel⟩,
    ⟨packArgs 2 0 112 0 [] (mapped up), go 3, goes_of (by decide +kernel), by decide +kernel⟩, ?_,
    ⟨packArgs 3 64 0 0 [] (inFlash up), go 3, goes_of (by decide +kernel), by decide +kernel⟩⟩
  · intro m h; refine ⟨packArgs m 1 0 0 [] up, go 3, goes_of ?_, ?_⟩ <;> fin_cases h <;> decide +kernel
  · intro m h; refine ⟨packArgs 0 1 m 0 [7#8] up, go 3, goes_of ?_, ?_⟩ <;> fin_cases h <;> decide +kernel
  · intro m h; refine ⟨packArgs 3 m 0 0 [] up, go 3, goes_of ?_, ?_⟩ <;> fin_cases h <;> decide +kernel

/-- An install that has read the pack of pool memory: cancelled, with a pack that is good, and with one that is not. -/
theorem wit_ServiceTests_pool : ∀ c ∈ [true, false], ∀ good ∈ [true, false], ∃ (s : State) (j : Job), s.cistern.jobs = [j] ∧ j.left = 0 ∧ j.who = .image 3 ∧
    (getSvc s 3).state = 3 ∧ (getSvc s 3).cancel = c ∧ leAt (getSvc s 3).args 8 8 = 0 ∧ leAt (getSvc s 3).args 4 4 = 112 ∧
    envBodyLen (gotBytes j.got 0 112) ≤ 2 ^ 22 ∧ envValid s 4 (gotBytes j.got 0 112) = good := by
  intro c hc good hg
  let v : Svc := { Svc.idle with state := 3, cancel := c, args := leBytes 1 2 ++ [0#8] ++ leBytes 2 0 ++ leBytes 4 112 ++ leBytes 8 0 }
  let s (e : List Byte) : State := imageJob 3 0 e { keyed keysA up with keeper := { up.keeper with svcs := [(3, v)] } }
  let zeros : List Byte := List.replicate 112 0#8
  have a : gotBytes (servedAt0 packObj) 0 112 = packObj := by decide +kernel
  have a0 : leAt v.args 8 8 = 0 ∧ leAt v.args 4 4 = 112 := by fin_cases hc <;> decide +kernel
  cases good
  · exact ⟨s zeros, _, rfl, rfl, rfl, rfl, rfl, a0.1, a0.2, by decide +kernel, by
      have z : envShape 4 (gotBytes (servedAt0 zeros) 0 112) = false := by decide +kernel
      show envValid (s zeros) 4 (gotBytes (servedAt0 zeros) 0 112) = false
      simp only [envValid, z]; rfl⟩
  · refine ⟨s packObj, _, rfl, rfl, rfl, rfl, rfl, a0.1, a0.2, ?_, ?_⟩
    · show envBodyLen (gotBytes (servedAt0 packObj) 0 112) ≤ 2 ^ 22
      rw [a]; decide +kernel
    · show envValid (s packObj) 4 (gotBytes (servedAt0 packObj) 0 112) = true
      rw [a]; exact packObj_valid rfl

/-- SVC_ARGS of operation 2: the positions, gap, iterations, share and wait. -/
def spotArgs (m runs share wait : Nat) (s : State) : State :=
  withArgs 2 (leBytes 68 m ++ leBytes 2 0 ++ leBytes 2 runs ++ leBytes 2 share ++ leBytes 2 wait) s

theorem wit_ServiceTests_spot :
    (∃ s w, Goes s w 2 ∧ (svcArgs s 2).length ≠ 76) ∧
    (∃ s w, Goes s w 2 ∧ (svcArgs s 2).length = 76 ∧ leAt (svcArgs s 2) 70 2 ≠ 0 ∧ leAt (svcArgs s 2) 72 2 = 1000 ∧ leAt (svcArgs s 2) 74 2 = 10000 ∧ s.flash.pack = []) ∧
    (∃ s w, Goes s w 2 ∧ (svcArgs s 2).length = 76 ∧ leAt (svcArgs s 2) 70 2 ≠ 0 ∧ leAt (svcArgs s 2) 72 2 = 1 ∧ leAt (svcArgs s 2) 74 2 ≤ 10000 ∧ s.flash.pack ≠ [] ∧
      named (leAt (svcArgs s 2) 0 68) = [0, 543] ∧ coreState s 0 ≠ 1 ∧ coreState s 543 ≠ 1) ∧
    (∃ s w, Goes s w 2 ∧ (svcArgs s 2).length = 76 ∧ leAt (svcArgs s 2) 70 2 ≠ 0 ∧ leAt (svcArgs s 2) 72 2 = 1 ∧ leAt (svcArgs s 2) 74 2 ≤ 10000 ∧ s.flash.pack ≠ [] ∧
      named (leAt (svcArgs s 2) 0 68) = [0] ++ 543 :: [] ∧ coreState s 0 ≠ 1 ∧ coreState s 543 = 1) := by
  let inFlash (st : Nat) (s : State) : State := { s with flash := { s.flash with pack := packObj }, keeper := { s.keeper with cores := [(543, st)] } }
  exact ⟨⟨up, go 2, goes_of (by decide +kernel), by decide +kernel⟩, ⟨spotArgs 1 1 1000 10000 up, go 2, goes_of (by decide +kernel), by decide +kernel⟩,
    ⟨spotArgs (2 ^ 543 + 1) 1 1 5 (inFlash 2 up), go 2, goes_of (by decide +kernel), by decide +kernel⟩,
    ⟨spotArgs (2 ^ 543 + 1) 1 1 5 (inFlash 1 up), go 2, goes_of (by decide +kernel), by decide +kernel⟩⟩

/-- A test of position 543 by operation `op`, at its last position. -/
def testing (op : Nat) (s : State) : State :=
  { s with keeper := { s.keeper with svcs := [(op, { Svc.idle with state := 3, busy := [543], args := leBytes 76 0, data := List.replicate 214 0#8 })], testing := [543] } }

/-- How a test of position 543 came out. -/
def outcome (failed : Nat) : CoreTest :=
  { position := 543, test := 0, runs := 1, failed := failed, expected := [], observed := [], mismatchAt := 0, expectedBytes := [], observedBytes := [], units := 0 }

/-- A test that is not awaited, one awaited on a position that groups hold, and outcomes of both kinds for each operation; a wait that is not
over, and one that is. -/
theorem wit_ServiceTests_outcomes :
    (∃ s : State, (getSvc s 2).state ≠ 3 ∧ (getSvc s 3).state ≠ 3) ∧
    (∀ op ∈ [2, 3], ∃ s : State, ∀ f ∈ [0, 1], inService s = true ∧ inCisReset s = false ∧ coreGroups (getPos s (outcome f).position) = [] ∧ (getSvc s op).state = 3 ∧
      (getSvc s op).busy = [(outcome f).position] ∧ (getSvc s op).todo = [] ∧ (getSvc s op).data.length = 214 ∧ isNamed s 1 (outcome f).position 0 = false ∧
      s.flash.defects.length < 4096 ∧ coreState s (outcome f).position ≠ 4 ∧ (op = 2 → (getSvc s 3).state ≠ 3)) ∧
    (∀ op ∈ [2, 3], ∃ s : State, inService s = true ∧ inCisReset s = false ∧ coreGroups (getPos s 543) = [] ∧ (getSvc s op).state = 3 ∧
      (getSvc s op).busy = [543] ∧ coreState s 543 = 4 ∧ (op = 2 → (getSvc s 3).state ≠ 3)) ∧
    (∃ s : State, (getSvc s 2).state = 3 ∧ 543 ∈ (getSvc s 2).busy ∧ coreGroups (getPos s 543) ≠ [] ∧
      mapGet 0 s.keeper.spotWait 543 + leAt (getSvc s 2).args 74 2 * 1000000 = now s + 1) ∧
    (∃ s : State, (getSvc s 2).state = 3 ∧ 543 ∈ (getSvc s 2).busy ∧ coreGroups (getPos s 543) ≠ [] ∧
      mapGet 0 s.keeper.spotWait 543 + leAt (getSvc s 2).args 74 2 * 1000000 = now s) := by
  let taken (n : Nat) : State :=
    at_ n { testing 2 up with cores := [(543, { Pos.idle with groups := [(0, some (warp []))] })], keeper := { (testing 2 up).keeper with spotWait := [(543, 1)] } }
  let core (op st : Nat) : State := { testing op up with keeper := { (testing op up).keeper with cores := [(543, st)] } }
  refine ⟨⟨up, by decide +kernel⟩, ?_, ?_, ⟨taken 0, by decide +kernel⟩, ⟨taken 1, by decide +kernel⟩⟩
  · intro op h
    refine ⟨core op 1, ?_⟩
    fin_cases h <;> decide +kernel
  · intro op h
    refine ⟨core op 4, ?_⟩
    fin_cases h <;> decide +kernel

/-! ### Updates, licences, signatures, tokens and stores (R14, R380, R382, R383, R389, R407, R409, R411, R469, R482, R488, R490) -/

/-- SVC_ARGS of a firmware update. -/
def updateArgs (kind flags len src : Nat) : List Byte := leBytes 1 kind ++ leBytes 1 flags ++ leBytes 2 0 ++ leBytes 4 len ++ leBytes 8 src

theorem wit_ServiceOperations_update :
    (∀ e ∈ [(3, 112, 0), (0, 0, 0), (0, 2 ^ 24 + 1, 0), (0, 112, 32)], ∃ s w, Goes s w 4 ∧ (svcArgs s 4).length = 16 ∧
      ¬(leAt (svcArgs s 4) 0 1 ≤ 2 ∧ 1 ≤ leAt (svcArgs s 4) 4 4 ∧ leAt (svcArgs s 4) 4 4 ≤ 2 ^ 24 ∧ leAt (svcArgs s 4) 8 8 % 64 = 0) ∧
      leAt (svcArgs s 4) 0 1 = e.1 ∧ leAt (svcArgs s 4) 4 4 = e.2.1) ∧
    (∀ n ∈ [1, 2 ^ 24], ∃ s w, Goes s w 4 ∧ (svcArgs s 4).length = 16 ∧ leAt (svcArgs s 4) 0 1 = 0 ∧ leAt (svcArgs s 4) 4 4 = n ∧ leAt (svcArgs s 4) 8 8 % 64 = 0 ∧
      reducedResponder s = false) ∧
    (∀ k ∈ [0, 1], ∃ s w, Goes s w 4 ∧ (svcArgs s 4).length = 16 ∧ leAt (svcArgs s 4) 0 1 = k ∧ leAt (svcArgs s 4) 4 4 = 112 ∧ leAt (svcArgs s 4) 8 8 = 0 ∧
      reducedResponder s = true) ∧
    (∀ b ∈ [true, false], ∃ s w, Goes s w 4 ∧ (svcArgs s 4).length = 16 ∧ leAt (svcArgs s 4) 0 1 = 0 ∧ leAt (svcArgs s 4) 4 4 = 112 ∧
      leAt (svcArgs s 4) 8 8 = 0 ∧ addrDevice 0 = s.pool.device ∧ reducedResponder s = false ∧ (homeRefusal s 0 112 = none ↔ b = true) ∧
      resMapped s 0 = resMapped s 111) := by
  let f (k n src : Nat) (s : State) : State := withArgs 4 (updateArgs k 0 n src) s
  let r : State := { up with boot := { up.boot with stage := 2, done := 2, stopped := true, keeperRuns := false } }
  refine ⟨?_, ?_, ?_, ?_⟩ <;> intro e h
  · refine ⟨f e.1 e.2.1 e.2.2 up, go 4, goes_of ?_, ?_⟩ <;> fin_cases h <;> decide +kernel
  · refine ⟨f 0 e 0 up, go 4, goes_of ?_, ?_⟩ <;> fin_cases h <;> decide +kernel
  · refine ⟨f e 112 0 r, go 4, goes_of ?_, ?_⟩ <;> fin_cases h <;> decide +kernel
  · refine ⟨f 0 112 0 (if e then mapped up else up), go 4, goes_of ?_, ?_⟩ <;> fin_cases h <;> decide +kernel

/-- An update that runs, in phase `n`. -/
def updating (n : Nat) (flags : Nat) (cancel : Bool) (data : List Byte) (s : State) : State :=
  { s with keeper := { s.keeper with svcs := [(4, { Svc.idle with state := 3, phase := n, cancel := cancel, args := updateArgs 0 flags 112 0, data := data })] } }

abbrev inPhase (s : State) (n : Nat) : Prop := (getSvc s 4).state = 3 ∧ netUp s = true ∧ (getSvc s 4).phase = n ∧ s.boot.warmWanted = none

abbrev imageAt0 (s : State) : Prop := leAt (getSvc s 4).args 8 8 = 0 ∧ leAt (getSvc s 4).args 4 4 = 112 ∧ leAt (getSvc s 4).args 0 1 = 0 ∧ addrDevice 0 = s.pool.device

abbrev jobFor4 (left : Nat) (e : List Byte) : Job := readJob (.image 4) left e

/-- An update that reads its image: its job, with `left` answers to come. -/
def reading (left : Nat) (c : Bool) (e : List Byte) : State := imageJob 4 left e (updating 1 0 c [] (keyed keysA up))

/-- Phase 1 with no job, with one that waits, with an image that is not valid, and with a valid one, with and without a cancel; the other
phases with each. -/
theorem wit_ServiceOperations_phases :
    (∃ s, inPhase s 1 ∧ jobOf s (.image 4) = none) ∧ (∃ s j, inPhase s 1 ∧ jobOf s (.image 4) = some j ∧ j.left ≠ 0) ∧
    (∃ s j, inPhase s 1 ∧ imageAt0 s ∧ jobOf s (.image 4) = some j ∧ j.left = 0 ∧ envValid s 1 (gotBytes j.got 0 112) = false) ∧
    (∀ c ∈ [true, false], ∃ s j, inPhase s 1 ∧ imageAt0 s ∧ jobOf s (.image 4) = some j ∧ j.left = 0 ∧ (getSvc s 4).cancel = c ∧
      envValid s 1 (gotBytes j.got 0 112) = true) ∧
    (∀ n ∈ [2, 3, 4], ∀ c ∈ [true, false], ∃ s, inPhase s n ∧ (getSvc s 4).cancel = c) ∧
    (∀ b ∈ [true, false], ∃ s, inPhase s 5 ∧ (leAt (getSvc s 4).args 1 1).testBit 0 = b) := by
  refine ⟨⟨updating 1 0 false [] up, by decide +kernel⟩, ⟨reading 1 false keeperObj, jobFor4 1 keeperObj, by decide +kernel⟩,
    ⟨reading 0 false (List.replicate 112 1#8), jobFor4 0 (List.replicate 112 1#8), by decide +kernel⟩, ?_, ?_, ?_⟩
  · intro c h
    have v : gotBytes (jobFor4 0 keeperObj).got 0 112 = keeperObj := by decide +kernel
    have r : inPhase (reading 0 c keeperObj) 1 ∧ imageAt0 (reading 0 c keeperObj) ∧ jobOf (reading 0 c keeperObj) (.image 4) = some (jobFor4 0 keeperObj) ∧
        (jobFor4 0 keeperObj).left = 0 ∧ (getSvc (reading 0 c keeperObj) 4).cancel = c := by fin_cases h <;> decide +kernel
    exact ⟨reading 0 c keeperObj, jobFor4 0 keeperObj, r.1, r.2.1, r.2.2.1, r.2.2.2.1, r.2.2.2.2, by rw [v]; exact keeperObj_valid rfl⟩
  · intro n hn c hc
    refine ⟨updating n 0 c (List.replicate 65537 0#8) up, ?_⟩
    fin_cases hn <;> fin_cases hc <;> decide +kernel
  · intro b h
    refine ⟨updating 5 (if b then 1 else 0) false [] up, ?_⟩
    fin_cases h <;> decide +kernel

theorem other_identity : noIdentity ≠ sha256 [1#8] := by decide +kernel

theorem tokenObj_valid {s : State} (h : s.boot.rootKeys = keysB) (i : s.flash.idPoint = []) : envValid s 6 tokenObj = true := by
  have a : envShape 6 tokenObj = true := by decide +kernel
  have b : (envBound tokenObj == noIdentity) = true := by decide +kernel
  have c : envSigned keysB tokenObj = true := by decide +kernel
  simp only [envValid, h, a, c, envBoundOk, identityDigest, i, no_identity, b]; rfl

/-- SVC_ARGS of a licence load with the licence. -/
def licensing (reduce : Nat) (s : State) : State := withArgs 5 (licenceObj ++ [BitVec.ofNat 8 reduce]) (keyed keysB s)

abbrev signedTier2 (s : State) : Prop :=
  (svcArgs s 5).length = 129 ∧ (svcArgs s 5).take 128 = licenceObj ∧ envShape 5 licenceObj = true ∧ envBodyLen licenceObj = 16 ∧ leAt licenceObj 48 1 = 2

/-- A licence of the wrong length, one that is not signed, one bound to another device, and a good one: not reduced, of a higher tier, in a formed
pool, and reduced with a core and a link to withdraw and without. -/
theorem wit_ServiceOperations_licence :
    (∃ s w, Goes s w 5 ∧ (svcArgs s 5).length ≠ 129) ∧
    (∃ s w, Goes s w 5 ∧ (svcArgs s 5).length = 129 ∧ envShape 5 ((svcArgs s 5).take 128) = false) ∧
    (∃ s w, Goes s w 5 ∧ signedTier2 s ∧ envSigned s.boot.rootKeys licenceObj = true ∧ envBound licenceObj ≠ identityDigest s) ∧
    (∃ s w, Goes s w 5 ∧ signedTier2 s ∧ envSigned s.boot.rootKeys licenceObj = true ∧ envBound licenceObj = identityDigest s ∧ (leAt (svcArgs s 5) 128 1).testBit 0 = false) ∧
    (∃ s w, Goes s w 5 ∧ signedTier2 s ∧ envSigned s.boot.rootKeys licenceObj = true ∧ envBound licenceObj = identityDigest s ∧ (leAt (svcArgs s 5) 128 1).testBit 0 = true ∧
      tierInForce s < 2) ∧
    (∀ st ∈ [PoolState.formed, .standalone, .waiting], ∃ s w, Goes s w 5 ∧ signedTier2 s ∧ envSigned s.boot.rootKeys licenceObj = true ∧ envBound licenceObj = identityDigest s ∧
      (leAt (svcArgs s 5) 128 1).testBit 0 = true ∧ tierInForce s = 3 ∧ s.pool.st = st ∧ (∀ e ∈ s.links, e.2.egress = []) ∧ (getLink s 35).st = .up) := by
  have b : envBound licenceObj = noIdentity := by decide +kernel
  let tier (n : Nat) (s : State) : State := { s with boot := { s.boot with tier := n } }
  let other (s : State) : State := { s with flash := { s.flash with idPoint := [1#8] } }
  refine ⟨⟨up, go 5, goes_of (by decide +kernel), by decide +kernel⟩, ⟨withArgs 5 (List.replicate 129 0#8) up, go 5, goes_of (by decide +kernel), by decide +kernel⟩,
    ⟨other (licensing 0 up), go 5, goes_of (by decide +kernel), by decide +kernel, licenceObj_signed, b ▸ other_identity⟩,
    ⟨licensing 0 up, go 5, goes_of (by decide +kernel), by decide +kernel, licenceObj_signed, b.trans no_identity.symm, by decide +kernel⟩,
    ⟨licensing 1 (tier 1 up), go 5, goes_of (by decide +kernel), by decide +kernel, licenceObj_signed, b.trans no_identity.symm, by decide +kernel⟩, ?_⟩
  intro st h
  refine ⟨linked upLink { licensing 1 (tier 3 (withObj Key.licenceState 0 up)) with pool := { Pool.alone with st := st } }, go 5, goes_of ?_, ?_, licenceObj_signed, b.trans no_identity.symm, ?_⟩ <;>
    fin_cases h <;> decide +kernel

/-- A signature of 999 bytes and one more. -/
def signatures (s : State) : State :=
  { s with flash := { s.flash with signatures := [⟨0, List.replicate 999 0#8, 0⟩, ⟨0, [0#8], 1⟩] } }

/-- SVC_ARGS of operation 7 with the token. -/
def clearing (ds : List DefRec) (s : State) : State :=
  withArgs 7 tokenObj { keyed keysB s with flash := { s.flash with defects := ⟨defectRecord 1 0 5 0 0 0 1, true⟩ :: ds } }

abbrev named0 (s : State) : Prop :=
  leAt (envBody (svcArgs s 7)) 0 2 = 1 ∧ (envBody (svcArgs s 7)).length = 16 ∧ leAt (envBody (svcArgs s 7)) 8 4 = 0 ∧ recCancelled s 0 = false ∧
    ∃ d, s.flash.defects[0]? = some d ∧ recTorn d.bytes = false ∧ recKind d.bytes ≠ 15 ∧ recCheck d.bytes = leAt (envBody (svcArgs s 7)) 12 4

/-- An export of a bad length, of no more than is asked, and of what the limit leaves; a token that is not valid, a valid one with the list full, and
with room. -/
theorem wit_ServiceOperations_export :
    (∃ s w, Goes s w 6 ∧ (svcArgs s 6).length ≠ 8) ∧ (∃ s w, Goes s w 6 ∧ (svcArgs s 6).length = 8 ∧ leAt (svcArgs s 6) 4 2 = 2 ∧ s.flash.signatures.length = 2) ∧
    (∃ s w, Goes s w 7 ∧ envValid s 6 (svcArgs s 7) = false) ∧
    (∃ s w, Goes s w 7 ∧ envValid s 6 (svcArgs s 7) = true ∧ named0 s ∧ s.flash.defects.length = 4096) ∧
    (∃ s w, Goes s w 7 ∧ envValid s 6 (svcArgs s 7) = true ∧ named0 s ∧ s.flash.defects.length = 4095) := by
  let d0 : DefRec := ⟨defectRecord 1 0 5 0 0 0 1, true⟩
  let full := clearing (List.replicate 4095 ⟨[], true⟩) up
  let room := clearing (List.replicate 4094 ⟨[], true⟩) up
  have a1 : svcArgs full 7 = tokenObj := by decide +kernel
  have a2 : svcArgs room 7 = tokenObj := by decide +kernel
  exact ⟨⟨up, go 6, goes_of (by decide +kernel), by decide +kernel⟩, ⟨withArgs 6 (leBytes 4 0 ++ leBytes 2 2 ++ leBytes 2 0) (signatures up), go 6, goes_of (by decide +kernel), by decide +kernel⟩,
    ⟨up, go 7, goes_of (by decide +kernel), by decide +kernel⟩,
    ⟨full, go 7, goes_of (by decide +kernel), a1 ▸ tokenObj_valid rfl rfl, ⟨by decide +kernel, by decide +kernel, by decide +kernel, by decide +kernel, d0, rfl, by decide +kernel⟩, by decide +kernel⟩,
    ⟨room, go 7, goes_of (by decide +kernel), a2 ▸ tokenObj_valid rfl rfl, ⟨by decide +kernel, by decide +kernel, by decide +kernel, by decide +kernel, d0, rfl, by decide +kernel⟩, by decide +kernel⟩⟩

/-- Stores: none, without power, of an object, of a record, of a licence. -/
theorem wit_ServiceOperations_stores :
    (∃ s : State, s.flash.stores = []) ∧ (∃ s : State, s.boot.powered = false) ∧
    (∃ (s : State) (r : ObjRow), s.boot.powered = true ∧ s.flash.stores = .obj Key.plcaNodeCount 32 :: [] ∧ objRow Key.plcaNodeCount = some r ∧ r.flash = true) ∧
    (∀ i ∈ [FlashItem.defect 4095, .licence], ∃ s : State, s.boot.powered = true ∧ s.flash.stores = [i]) := by
  have row {k : Nat} {b : Bool} (h : (objRow k).map (·.flash) = some b) : ∃ r, objRow k = some r ∧ r.flash = b := by simpa using h
  obtain ⟨r, a, b⟩ := row (k := Key.plcaNodeCount) (b := true) (by decide +kernel)
  let s (i : FlashItem) : State := { up with flash := { Flash.blank with stores := [i] } }
  exact ⟨⟨up, rfl⟩, ⟨{ up with boot := { up.boot with powered := false } }, rfl⟩, ⟨s (.obj Key.plcaNodeCount 32), r, by decide +kernel, rfl, a, b⟩,
    fun i _ => ⟨s i, rfl, rfl⟩⟩

/-! ### Starts and the stages S0 to S2 (R401 to R405, R408 to R410, R420, R427, R484, R491) -/

/-- RESET_N low or high as it is and not, on a device that takes the fast path, and one that does not because its list is full. -/
theorem wit_StartsAndFirmware_reset :
    (∃ s : State, s.boot.powered = false) ∧ (∃ s : State, s.boot.powered = true ∧ s.boot.resetLow = false) ∧
    (∃ s : State, s.boot.powered = true ∧ s.boot.resetLow = true ∧ mapGet (objDefault Key.fastPath) s.flash.obj Key.fastPath ≠ 0 ∧ s.boot.reachedS10 = true ∧
      s.boot.cleared = false ∧ s.flash.defects.length = 4095) ∧
    (∃ s : State, s.boot.powered = true ∧ s.boot.resetLow = true ∧ mapGet (objDefault Key.fastPath) s.flash.obj Key.fastPath ≠ 0 ∧ s.boot.reachedS10 = true ∧
      s.boot.cleared = false ∧ s.flash.defects.length = 4096 ∧ ∀ d ∈ s.flash.defects, d.stored = true) ∧
    (∃ s : State, s.boot.powered = true ∧ s.boot.resetLow = true ∧ s.boot.reachedS10 = false) := by
  let s (n : Nat) : State := { up with boot := { up.boot with resetLow := true, reachedS10 := true },
                                       flash := { Flash.blank with obj := [(Key.fastPath, 1)], defects := List.replicate n ⟨[], true⟩ } }
  exact ⟨⟨{ up with boot := { up.boot with powered := false } }, rfl⟩, ⟨up, by decide +kernel⟩, ⟨s 4095, by decide +kernel⟩, ⟨s 4096, rfl, rfl, by decide +kernel, rfl, rfl, List.length_replicate, fun d h => by rw [List.eq_of_mem_replicate h]⟩,
    ⟨{ up with boot := { up.boot with resetLow := true } }, by decide +kernel⟩⟩

theorem wit_StartsAndFirmware_stages :
    (∃ s : State, ¬(s.boot.powered = true ∧ s.boot.keeperRuns = true ∧ s.boot.resetLow = false)) ∧
    (∃ s : State, s.boot.powered = true ∧ s.boot.keeperRuns = true ∧ s.boot.resetLow = false ∧ s.boot.dark ≠ .railTrip ∧ s.boot.dark ≠ .clockLoss) ∧
    (∃ s : State, s.boot.powered = true ∧ s.boot.keeperRuns = true ∧ s.boot.resetLow = false ∧ s.boot.dark = .railTrip) ∧
    (∀ n ∈ [0, 1, 2], (∃ s : State, ¬InStage s n) ∧ ∃ s : State, InStage s n) := by
  refine ⟨⟨State.reset, by decide +kernel⟩, ⟨up, by decide +kernel⟩, ⟨{ up with boot := { up.boot with dark := .railTrip } }, by decide +kernel⟩, ?_⟩
  intro n h
  refine ⟨⟨up, ?_⟩, ⟨atStage n up, ?_⟩⟩ <;> unfold InStage <;> fin_cases h <;> decide +kernel

theorem fountainObj_valid {s : State} (h : s.boot.rootKeys = keysA) : envValid s 2 fountainObj = true := by
  have a : envShape 2 fountainObj = true := by decide +kernel
  have b : (envBound fountainObj == List.replicate 32 0#8) = true := by decide +kernel
  have c : envSigned keysA fountainObj = true := by decide +kernel
  simp only [envValid, h, c, a, envBoundOk, b]; rfl

theorem tableObj_valid {s : State} (h : s.boot.rootKeys = keysA) : envValid s 3 tableObj = true := by
  have a : envShape 3 tableObj = true := by decide +kernel
  have b : (envBound tableObj == List.replicate 32 0#8) = true := by decide +kernel
  have c : envSigned keysA tableObj = true := by decide +kernel
  simp only [envValid, h, c, a, envBoundOk, b]; rfl

/-- S2 with these images in slot A, and this table. -/
def imagesAre (kind : Nat) (k f c : List Byte) : State :=
  { keyed keysA (atStage 2 up) with boot := { (keyed keysA (atStage 2 up)).boot with kind := kind }, flash := { Flash.blank with keeperA := k, fountainA := f, compat := c } }

theorem listed_pair : pairInTable tableObj (envVersion keeperObj) (envVersion fountainObj) = true := by decide +kernel

/-- S2 with no Keeper image that is valid, no microcode, a pair that is not listed and not accepted, one that is accepted, and one that is listed, after
a cold start and on the fast path. -/
theorem wit_StartsAndFirmware_firmware :
    (∃ s : State, InStage s 2 ∧ envValid s 1 s.flash.keeperA = false ∧ envValid s 1 s.flash.keeperB = false) ∧
    (∃ s : State, InStage s 2 ∧ s.flash.prefKeeper = false ∧ envValid s 1 s.flash.keeperA = true ∧ envValid s 2 s.flash.fountainA = false ∧ envValid s 2 s.flash.fountainB = false) ∧
    (∃ s : State, InStage s 2 ∧ s.flash.prefKeeper = false ∧ envValid s 1 s.flash.keeperA = true ∧ envValid s 2 s.flash.fountainA = true ∧ envValid s 3 s.flash.compat = false ∧
      pairInTable [] (envVersion s.flash.keeperA) (envVersion s.flash.fountainA) = false ∧ getObj s Key.acceptUntested = 0) ∧
    (∃ s : State, InStage s 2 ∧ s.flash.prefKeeper = false ∧ envValid s 1 s.flash.keeperA = true ∧ envValid s 2 s.flash.fountainA = true ∧ envValid s 3 s.flash.compat = false ∧
      pairInTable [] (envVersion s.flash.keeperA) (envVersion s.flash.fountainA) = false ∧ getObj s Key.acceptUntested = 1) ∧
    (∀ kind ∈ [0, 2], ∃ s : State, InStage s 2 ∧ s.boot.kind = kind ∧ s.flash.prefKeeper = false ∧ envValid s 1 s.flash.keeperA = true ∧ envValid s 2 s.flash.fountainA = true ∧
      envValid s 3 s.flash.compat = true ∧ pairInTable s.flash.compat (envVersion s.flash.keeperA) (envVersion s.flash.fountainA) = true) := by
  have no (k : Nat) (s : State) : envValid s k [] = false := by simp [envValid, envShape, leAt, slice, leNat]
  have st (k : Nat) (a b c : List Byte) : InStage (imagesAre k a b c) 2 := ⟨rfl, rfl, rfl, rfl, rfl, rfl⟩
  exact ⟨⟨imagesAre 0 [] [] [], st _ _ _ _, no _ _, no _ _⟩, ⟨imagesAre 0 keeperObj [] [], st _ _ _ _, rfl, keeperObj_valid rfl, no _ _, no _ _⟩,
    ⟨imagesAre 0 keeperObj fountainObj [], st _ _ _ _, rfl, keeperObj_valid rfl, fountainObj_valid rfl, no _ _, by decide +kernel, by decide +kernel⟩,
    ⟨withObj Key.acceptUntested 1 (imagesAre 0 keeperObj fountainObj []), st 0 keeperObj fountainObj [], rfl, keeperObj_valid rfl, fountainObj_valid rfl, no _ _, by decide +kernel, by decide +kernel⟩,
    fun kind _ => ⟨imagesAre kind keeperObj fountainObj tableObj, st _ _ _ _, rfl, rfl, keeperObj_valid rfl, fountainObj_valid rfl, tableObj_valid rfl, listed_pair⟩⟩

/-! ### The stages S3 to S10 (R14, R15, R253, R255, R256, R303, R315, R403, R405, R406, R463, R489) -/

theorem wit_StagesOfAStart_stages : ∀ n ∈ [3, 4, 5, 6, 7, 8, 9, 10], (∃ s : State, ¬InStage s n) ∧ ∃ s : State, InStage s n := by
  intro n h
  refine ⟨⟨State.reset, ?_⟩, ⟨atStage n up, ?_⟩⟩ <;> unfold InStage <;> fin_cases h <;> decide +kernel

/-- The 128 spares of the path plane of position 543, all used. -/
def noSpare : State := { atStage 3 up with flash := { Flash.blank with defects := List.replicate 128 ⟨defectRecord 9 0 543 (2 ^ 30) 0 0 1, true⟩ } }

/-- S3 with both bonds of a signal lost, nothing found, a bond found with a spare left and without, one bond of a signal that has the other and of one
that has not. -/
theorem wit_StagesOfAStart_bonds :
    (∃ s, InStage s 3 ∧ ∀ p < 544, getObj s (Key.sparesUsed p) = 0) ∧
    (∃ s, InStage s 3 ∧ s.flash.defects.length < 4096 ∧ spareLeft s 543 1 = true ∧ ∀ x < 128, isNamed s 9 543 (bondDetail 1 0 x) = false) ∧
    (∃ s, InStage s 3 ∧ s.flash.defects.length < 4096 ∧ spareLeft s 543 1 = false ∧ isNamed s 1 543 0 = false) ∧
    (∃ s, InStage s 3 ∧ s.boot.shared.contains 7 = false) ∧ (∃ s, InStage s 3 ∧ s.boot.shared.contains 7 = true) := by
  have st : InStage (atStage 3 up) 3 := ⟨rfl, rfl, rfl, rfl, rfl, rfl⟩
  exact ⟨⟨atStage 3 up, st, by decide +kernel⟩, ⟨atStage 3 up, st, by decide +kernel⟩, ⟨noSpare, ⟨rfl, rfl, rfl, rfl, rfl, rfl⟩, by decide +kernel⟩, ⟨atStage 3 up, st, rfl⟩,
    ⟨{ atStage 3 up with boot := { (atStage 3 up).boot with shared := [7] } }, ⟨rfl, rfl, rfl, rfl, rfl, rfl⟩, rfl⟩⟩

/-- S4 with nothing retired, one slice, a pair, and five of a half; S5 with nothing failed, the last position, and with cores enough and too few. -/
theorem wit_StagesOfAStart_slices :
    (∀ fs ∈ [[], [127]], ∃ s, InStage s 4 ∧ liveRecords s 3 = [] ∧ (∀ g < 128, ¬(fs.contains g = true ∧ fs.contains (g ^^^ 1) = true)) ∧
      ∀ h < 2, (((List.range 64).map (· + 64 * h)).filter (fun g => fs.contains g)).length ≤ 4) ∧
    (∃ s, InStage s 4 ∧ liveRecords s 3 = [] ∧ [126, 127].contains 126 = true ∧ [126, 127].contains (126 ^^^ 1) = true) ∧
    (∃ s, InStage s 4 ∧ liveRecords s 3 = [] ∧ 4 < (((List.range 64).map (· + 64 * 1)).filter (fun g => [64, 66, 68, 70, 72].contains g)).length) ∧
    (∀ f ∈ [[], [543]], ∃ s : State, InStage s 5 ∧ (f.filter (fun p => !((badPositions s).contains p))) = f) := by
  refine ⟨?_, ⟨atStage 4 up, ⟨rfl, rfl, rfl, rfl, rfl, rfl⟩, by decide +kernel⟩, ⟨atStage 4 up, ⟨rfl, rfl, rfl, rfl, rfl, rfl⟩, by decide +kernel⟩, ?_⟩
  · intro fs h; refine ⟨atStage 4 up, ⟨rfl, rfl, rfl, rfl, rfl, rfl⟩, ?_⟩; fin_cases h <;> decide +kernel
  · intro f h; refine ⟨atStage 5 up, ⟨rfl, rfl, rfl, rfl, rfl, rfl⟩, ?_⟩; fin_cases h <;> decide +kernel

/-- S6 on a whole start and on the fast path, with stacks in both halves and with none in one; S7 without a pool and with one; S8 of a device that waits for
its pool, of one whose pool has formed, and of one without; S10. -/
theorem wit_StagesOfAStart_memories :
    (∀ k ∈ [0, 2], ∃ s : State, InStage s 6 ∧ s.boot.kind = k ∧ (∀ j < 8, stackState s j = 0) ∧ tierHasStack s.boot.tier 0 = true ∧ tierHasStack s.boot.tier 7 = true ∧
      liveRecords s 4 = []) ∧
    (∃ s : State, InStage s 7 ∧ s.boot.shape = 0) ∧
    (∃ s : State, InStage s 7 ∧ s.boot.shape ≠ 0 ∧ tierHasLink s.boot.tier 35 = true ∧ (linkSlot s.boot.shape s.boot.tier 35).isSome ∧ isDefect s 5 35 = false) ∧
    (∃ s : State, InStage s 7 ∧ s.boot.shape ≠ 0 ∧ tierHasLink s.boot.tier 35 = true ∧ isDefect s 5 35 = true) ∧
    (∀ n ∈ [10000, 10001], (trainOk (trainAs [3, 2, 1, 0] n) = true ↔ n = 10000)) ∧
    (∃ s : State, InStage s 7 ∧ s.boot.shape ≠ 0 ∧ tierHasLink s.boot.tier 17 = false) ∧
    (∃ s : State, InStage s 8 ∧ s.boot.shape ≠ 0 ∧ s.pool.st = .standalone) ∧ (∃ s : State, InStage s 8 ∧ s.boot.shape ≠ 0 ∧ s.pool.st = .formed) ∧
    (∃ s : State, InStage s 8 ∧ s.boot.shape = 0) := by
  let b (f : Boot → Boot) (s : State) : State := { s with boot := f s.boot }
  refine ⟨fun k h => ⟨b (fun x => { x with kind := k }) (atStage 6 up), ⟨rfl, rfl, rfl, rfl, rfl, rfl⟩, ?_⟩, ⟨b (fun x => { x with shape := 0 }) (atStage 7 up), ⟨rfl, rfl, rfl, rfl, rfl, rfl⟩, rfl⟩,
    ⟨atStage 7 up, ⟨rfl, rfl, rfl, rfl, rfl, rfl⟩, by decide +kernel⟩, ⟨recorded 5 35 (atStage 7 up), ⟨rfl, rfl, rfl, rfl, rfl, rfl⟩, by decide +kernel⟩,
    by decide +kernel, ⟨b (fun x => { x with tier := 1 }) (atStage 7 up), ⟨rfl, rfl, rfl, rfl, rfl, rfl⟩, by decide +kernel⟩,
    ⟨atStage 8 up, ⟨rfl, rfl, rfl, rfl, rfl, rfl⟩, by decide +kernel⟩, ⟨{ atStage 8 up with pool := { Pool.alone with st := .formed } }, ⟨rfl, rfl, rfl, rfl, rfl, rfl⟩, by decide +kernel⟩,
    ⟨b (fun x => { x with shape := 0 }) (atStage 8 up), ⟨rfl, rfl, rfl, rfl, rfl, rfl⟩, rfl⟩⟩
  fin_cases h <;> decide +kernel

theorem licenceObj_valid {s : State} (h : s.boot.rootKeys = keysB) (i : s.flash.idPoint = []) : envValid s 5 licenceObj = true := by
  have a : envShape 5 licenceObj = true := by decide +kernel
  have b : (envBound licenceObj == noIdentity) = true := by decide +kernel
  simp only [envValid, h, a, licenceObj_signed, envBoundOk, identityDigest, i, no_identity, b]; rfl

/-- S9 with a pending licence that is valid, with the licence in force alone, and with none. -/
theorem wit_StagesOfAStart_licences :
    (∃ s : State, InStage s 9 ∧ s.flash.pending ≠ [] ∧ s.flash.pendingTorn = false ∧ envValid s 5 s.flash.pending = true ∧ envBodyLen s.flash.pending = 16 ∧
      1 ≤ leAt s.flash.pending 48 1 ∧ leAt s.flash.pending 48 1 ≤ 3) ∧
    (∃ s : State, InStage s 9 ∧ s.flash.pending = [] ∧ envValid s 5 s.flash.licence = true ∧ envBodyLen s.flash.licence = 16 ∧
      1 ≤ leAt s.flash.licence 48 1 ∧ leAt s.flash.licence 48 1 ≤ 3) ∧
    (∃ s : State, InStage s 9 ∧ s.flash.pending = [] ∧ s.flash.licence = [] ∧ envValid s 5 [] = false) := by
  let s (p l : List Byte) : State := { keyed keysB (atStage 9 up) with flash := { Flash.blank with pending := p, licence := l } }
  exact ⟨⟨s licenceObj [], ⟨rfl, rfl, rfl, rfl, rfl, rfl⟩, by decide +kernel, rfl, licenceObj_valid rfl rfl, by decide +kernel⟩,
    ⟨s [] licenceObj, ⟨rfl, rfl, rfl, rfl, rfl, rfl⟩, rfl, licenceObj_valid rfl rfl, by decide +kernel⟩,
    ⟨s [] [], ⟨rfl, rfl, rfl, rfl, rfl, rfl⟩, rfl, rfl, by simp [envValid, envShape, leAt, slice, leNat]⟩⟩

/-! ### Rails, converters, regulators and the inlet (R329, R401, R402, R418 to R421, R423, R425, R439, R440, R494) -/

/-- A device that a thermal trip has stopped, its trips, and since when it has been cool. -/
def tripped (trips : List Nat) (cool : Option Nat) (s : State) : State :=
  { s with boot := { s.boot with dark := .thermalTrip }, power := { s.power with trips := trips, coolSince := cool } }

theorem wit_PowerAndRails_restart :
    (∃ s : State, s.boot.powered = true ∧ s.boot.dark = .thermalTrip ∧ s.power.trips[0]? = some 7200000000000 ∧ s.power.trips[2]? = some 3600000000000 ∧
      ∃ x, s.power.coolSince = some x ∧ x + 10000000000 ≤ now s) ∧
    (∃ s : State, s.boot.powered = true ∧ s.boot.dark = .thermalTrip ∧ s.power.trips[0]? = some 7200000000001 ∧ s.power.trips[2]? = some 3600000000000 ∧
      ∃ x, s.power.coolSince = some x ∧ x + 10000000000 = now s) ∧
    (∃ s : State, s.boot.powered = true ∧ s.boot.dark = .thermalTrip ∧ s.power.trips = [1] ∧ s.power.coolSince = some 0 ∧ now s = 9999999999) :=
  ⟨⟨at_ 10000000000 (tripped [7200000000000, 5, 3600000000000] (some 0) up), by decide +kernel, by decide +kernel, rfl, rfl, 0, rfl, by decide +kernel⟩,
    ⟨at_ 10000000000 (tripped [7200000000001, 5, 3600000000000] (some 0) up), by decide +kernel, by decide +kernel, rfl, rfl, 0, rfl, by decide +kernel⟩,
    ⟨at_ 9999999999 (tripped [1] (some 0) up), by decide +kernel⟩⟩

theorem wit_PowerAndRails_inlet :
    (∃ s : State, s.boot.powered = true ∧ s.boot.resetLow = false) ∧ (∃ s : State, s.boot.powered = false) ∧ (∃ s : State, s.boot.inletOut = false) ∧
    (∃ s : State, s.boot.inletOut = true ∧ s.boot.present = true) := by
  exact ⟨⟨up, by decide +kernel⟩, ⟨{ up with boot := { up.boot with powered := false } }, rfl⟩, ⟨up, by decide +kernel⟩,
    ⟨{ up with boot := { up.boot with powered := false, inletOut := true } }, by decide +kernel⟩⟩

/-- A first regulator of the last cluster, a second one with groups on its patch, and one of a patch that is dark. -/
theorem wit_PowerAndRails_regulators :
    (∃ s : State, 191 ∈ s.power.darkened) ∧
    (∃ s : State, ¬(railsUp s = false ∨ (mapGet 0 s.power.regOff 191).testBit 7 = true ∨ 191 ∈ s.power.darkened ∨ mapGet 0 s.power.clusterState 191 = 2) ∧
      mapGet 0 s.power.regOff 191 = 0) ∧
    (∃ s : State, ¬(railsUp s = false ∨ (mapGet 0 s.power.regOff 0).testBit 7 = true ∨ 0 ∈ s.power.darkened ∨ mapGet 0 s.power.clusterState 0 = 2) ∧
      mapGet 0 s.power.regOff 0 ≠ 0 ∧ mapGet 0 s.power.regOff 0 < 256 ∧ 0 ∈ patchOf 0 ∧ coreGroups (getPos s 0) ≠ []) :=
  ⟨⟨{ up with power := { Power.clear with darkened := [191] } }, by decide +kernel⟩, ⟨up, by decide +kernel⟩,
    ⟨{ holding (warp []) task with power := { Power.clear with regOff := [(0, 1)] } }, by decide +kernel⟩⟩

/-- Failed phases and lost sense lines, new and known; rails that trip in a start, in service, and on a device whose rails are off. -/
theorem wit_PowerAndRails_rails :
    (∃ s : State, s.boot.powered = true ∧ 7 ∈ s.power.failedPhases ∧ 7 ∈ s.power.senseLost) ∧
    (∀ n ∈ [1, 2, 3], ∃ s : State, s.boot.powered = true ∧ 7 ∉ s.power.failedPhases ∧ 7 ∉ s.power.senseLost ∧ s.power.failedPhases.length + 1 = n) ∧
    (∃ s : State, s.boot.powered = true ∧ s.boot.resetLow = false ∧ s.boot.dark = .railTrip) ∧
    (∀ d ∈ [0, 11], ∃ s : State, s.boot.powered = true ∧ s.boot.resetLow = false ∧ s.boot.dark = .none ∧ s.boot.done = d) ∧
    (∃ s : State, s.boot.powered = true ∧ s.boot.resetLow = false ∧ s.boot.dark = .thermalTrip) := by
  refine ⟨⟨{ up with power := { Power.clear with failedPhases := [7], senseLost := [7] } }, by decide +kernel⟩, ?_, ⟨{ up with boot := { up.boot with dark := .railTrip } }, by decide +kernel⟩, ?_,
    ⟨tripped [] none up, by decide +kernel⟩⟩ <;> intro n h
  · refine ⟨{ up with power := { Power.clear with failedPhases := List.range (n - 1) } }, ?_⟩; fin_cases h <;> decide +kernel
  · refine ⟨atStage n up, ?_⟩; fin_cases h <;> decide +kernel

/-! ### The housekeeping round (R249, R424, R425, R429 to R434, R436, R438, R440) -/

/-- A round that reads these diodes and sense points at an inlet of 48 V and a current in mA. -/
def round (ds : List DiodeReading) (ss : List SenseReading) (amp : Nat) : Round :=
  { diodes := ds, points := [], stackTemps := [(0, 85001), (7, 79999)], sense := ss, inletMicro := 48000000, inletMilliAmp := amp, railMicro := [], railAmp := [], clusterAmp := [] }

abbrev keeps (s : State) : Prop := s.boot.powered = true ∧ s.boot.keeperRuns = true ∧ s.boot.resetLow = false

/-- Rounds of a Keeper that does not run and of one that does, over the limit in force and not, with the step below, at and above what is needed. -/
theorem wit_HousekeepingRound_runs :
    (∃ s, ¬keeps s) ∧ (∃ (s : State) (r : Round), keeps s ∧ (∀ e ∈ r.stackTemps, e.1 < 8 ∧ ∀ x ∈ r.stackTemps, x.1 = e.1 → x = e) ∧ 85000 < 85001 ∧ (0, 85001) ∈ r.stackTemps) ∧
    (∀ k ∈ [0, 1, 3], ∃ (s : State) (r : Round), keeps s ∧ NoSensors s r ∧ OverLimit s r ∧ s.power.step = k ∧ powerLimit s < r.inletMicro * r.inletMilliAmp / 1000000 ∧
      s.power.unmetRounds = 99 ∧ s.power.unmetSent = false) ∧
    (∀ c ∈ [48, 49], ∃ (s : State) (r : Round), keeps s ∧ NoSensors s r ∧ ¬OverLimit s r ∧ 40000000 ≤ r.inletMicro ∧ s.power.step = 3 ∧ s.power.calm = c) := by
  let s (step calm : Nat) : State := { up with power := { Power.clear with step := step, calm := calm, unmetRounds := 99 } }
  refine ⟨⟨State.reset, by decide +kernel⟩, ⟨up, round [] [] 1000, by decide +kernel⟩, ?_, ?_⟩ <;> intro n h
  · refine ⟨s n 0, round [] [] 1000000, ?_⟩; unfold NoSensors OverLimit; fin_cases h <;> decide +kernel
  · refine ⟨s 3 n, round [] [] 1000, ?_⟩; unfold NoSensors OverLimit; fin_cases h <;> decide +kernel

/-- A regulator found off, a patch found dark after S6 and before it, a dark patch already taken up. -/
theorem wit_HousekeepingRound_clusters :
    (∃ (s : State) (r : Round), keeps s ∧ NoSensors s r ∧ s.power.darkened = [] ∧ s.power.failedMask = [] ∧ s.power.clusterState = [] ∧ s.power.regOff = [(191, 2 ^ 7)] ∧
      s.flash.defects.length < 4096 ∧ isNamed s 6 191 7 = false) ∧
    (∀ d ∈ [6, 7], ∃ (s : State) (r : Round), keeps s ∧ NoSensors s r ∧ s.power.darkened = [191] ∧ s.power.failedMask = s.power.regOff ∧
      (∀ j ∈ mapKeys s.power.regOff, mapGet 0 s.power.regOff j ≠ 0) ∧ s.flash.defects.length < 4096 ∧ isNamed s 7 191 0 = false ∧ s.boot.done = d) := by
  refine ⟨⟨{ up with power := { Power.clear with regOff := [(191, 2 ^ 7)] } }, round [] [] 1000, by unfold NoSensors; decide +kernel⟩, ?_⟩
  intro d h
  refine ⟨{ atStage d up with power := { Power.clear with regOff := [(191, 3)], failedMask := [(191, 3)], darkened := [191] } }, round [] [] 1000, ?_⟩
  unfold NoSensors; fin_cases h <;> decide +kernel

/-- Readings of the first and last points of each kind, with a lower minimum known and none. -/
theorem wit_HousekeepingRound_points : ∀ p ∈ [0, 191, 192, 319, 320, 337, 338, 341], ∀ m ∈ [none, some (MinRec.mk 700000 5)], ∃ (s : State) (r : Round) (x : SenseReading),
    keeps s ∧ NoSensors s r ∧ r.sense = [x] ∧ x.point = p ∧ x.point < 342 ∧ mapGet none s.power.railMin 1 = m ∧ mapGet false s.power.suspects x.point = false := by
  intro p hp m hm
  refine ⟨{ up with power := { Power.clear with railMin := mapSet none [] 1 m } }, round [] [⟨p, 710000, 4, 720000⟩] 1000, ⟨p, 710000, 4, 720000⟩, ?_⟩
  unfold NoSensors; fin_cases hp <;> fin_cases hm <;> decide +kernel

/-- One diode's reading, of a core's channel and of the last one, a safety channel: normal, at a warning, a demand and a trip, and rising; and one that breaks. -/
theorem wit_HousekeepingRound_diodes :
    (∀ c ∈ [0, 1151], ∀ t ∈ [-20000, 94999, 95000, 103000, 106000, 110000, 150000], ∀ past ∈ [[], [(91000 : Int)]], ∃ (s : State) (r : Round) (d : DiodeReading), keeps s ∧
      r.diodes = [d] ∧ r.points = [] ∧ d.channel = c ∧ d.channel < 1152 ∧ d.milli = t ∧ s.power.broken = [] ∧ s.power.temp = [] ∧
      s.power.history = (if past = [] then [] else [(0x1000 + d.channel, past)]) ∧ d.openOrShort = false ∧ mapGet 0 s.power.apart (0x1000 + d.channel) < 99 ∧ ¬OverLimit s r ∧
      40000000 ≤ r.inletMicro ∧ railsUp s = true) ∧
    (∀ c ∈ [0, 544, 735, 1151], ∃ (s : State) (r : Round) (d : DiodeReading), keeps s ∧ r.diodes = [d] ∧ r.points = [] ∧ d.channel = c ∧ d.channel < 1152 ∧ s.power.broken = [] ∧
      s.power.history = [] ∧ d.openOrShort = true ∧ isNamed s 8 d.channel 0 = false ∧ s.flash.defects.length < 4096) := by
  constructor
  · let st (c : Nat) (past : List Int) : State := { up with power := { Power.clear with history := (if past = [] then [] else [(0x1000 + c, past)]) } }
    have key : ∀ c ∈ [0, 1151], ∀ t ∈ [-20000, 94999, 95000, 103000, 106000, 110000, 150000], ∀ past ∈ [[], [(91000 : Int)]], keeps (st c past) ∧ c < 1152 ∧
        mapGet 0 (st c past).power.apart (0x1000 + c) < 99 ∧ ¬OverLimit (st c past) (round [⟨c, t, false⟩] [] 1000) ∧ railsUp (st c past) = true := by
      unfold OverLimit; decide +kernel
    intro c hc t ht past hp
    obtain ⟨a, b, d, e, f⟩ := key c hc t ht past hp
    exact ⟨st c past, round [⟨c, t, false⟩] [] 1000, ⟨c, t, false⟩, a, rfl, rfl, rfl, b, rfl, rfl, rfl, rfl, rfl, d, e, (by norm_num : 40000000 ≤ 48000000), f⟩
  · intro c hc
    refine ⟨up, round [⟨c, 0, true⟩] [] 1000, ⟨c, 0, true⟩, ?_⟩
    fin_cases hc <;> decide +kernel

/-! ### Time, clocks and vertical lanes (R447 to R450, R460 to R464, R469) -/

/-- The timebase running at `tb`, with the rest as given. -/
def ticking (tb : Nat) (f : Time → Time) : State := { up with time := f { Time.clear with runs := true, tb := tb, ns := 2000000000 } }

abbrev wholeSecond (x : Time) : Nat := (x.tb + 499999999) / 1000000000 * 1000000000
abbrev isNear (x : Time) : Prop := ((x.tb : Int) - wholeSecond x).natAbs ≤ 2000

theorem wit_ClockAndLanes_pulse :
    (∃ s : State, s.pending = [] ∧ (∀ e ∈ s.links, e.2.st ≠ .up ∧ e.2.st ≠ .withdrawn) ∧ s.time.runs = true ∧ s.time.trim = 0 ∧ s.time.frac = 0 ∧ s.time.tb = 2 ^ 64 - 1) ∧ (∃ s : State, s.pending = [] ∧ s.time.runs = false) ∧
    (∃ s : State, s.time.runs = true ∧ ∃ k, s.time.lastObeyed = some k ∧ s.time.ns + 1 = k + 100000000) ∧
    (∀ tb ∈ [999998000, 1000002000], ∀ l ∈ [none, some 5], ∃ s : State, s.time.runs = true ∧ (∀ k, s.time.lastObeyed = some k → ¬(s.time.ns < k + 100000000)) ∧ isNear s.time ∧
      s.time.tb = tb ∧ s.time.load = l ∧ s.time.pps = 0 ∧ s.time.inWindow = 0 ∧ s.time.lastEdge = some 1000000000) ∧
    (∃ s : State, s.time.runs = true ∧ s.time.lastObeyed = some (s.time.ns - 100000000) ∧ ¬isNear s.time ∧ s.time.pps = 0 ∧ s.time.lastEdge = none) ∧
    (∃ s : State, s.time.runs = true ∧ s.time.lastObeyed = none ∧ isNear s.time ∧ s.time.pps = 0 ∧ s.time.inWindow = 1) ∧
    (∀ p ∈ [1, 2, 3], (∃ s : State, s.time.runs = true ∧ s.time.lastObeyed = none ∧ isNear s.time ∧ s.time.pps = p) ∧
      ∃ s : State, s.time.runs = true ∧ s.time.lastObeyed = none ∧ ¬isNear s.time ∧ s.time.pps = p) := by
  refine ⟨⟨ticking (2 ^ 64 - 1) id, by decide +kernel⟩, ⟨State.reset, by decide +kernel⟩, ⟨ticking 0 (fun x => { x with lastObeyed := some 1900000001 }), by decide +kernel, 1900000001, rfl, by decide +kernel⟩, ?_,
    ⟨ticking 999997999 (fun x => { x with lastObeyed := some 1900000000 }), by decide +kernel⟩, ⟨ticking 0 (fun x => { x with inWindow := 1 }), by decide +kernel⟩, ?_⟩
  · intro tb ht l hl
    refine ⟨ticking tb (fun x => { x with load := l, lastEdge := some 1000000000 }), rfl, none_ok rfl, ?_⟩
    fin_cases ht <;> fin_cases hl <;> decide +kernel
  · intro p h
    refine ⟨⟨ticking 0 (fun x => { x with pps := p }), ?_⟩, ⟨ticking 500000001 (fun x => { x with pps := p }), ?_⟩⟩ <;> fin_cases h <;> decide +kernel

theorem wit_ClockAndLanes_missing :
    (∃ s : State, ¬(s.time.runs = true ∧ 2000 ≤ s.time.tb % 1000000000)) ∧
    (∀ p ∈ [0, 1], ∃ s : State, s.time.runs = true ∧ 2000 = s.time.tb % 1000000000 ∧ s.time.tb % 1000000000 < 500000000 ∧
      (∀ k, s.time.lastEdge = some k → k + s.time.tb % 1000000000 + 500000000 < s.time.ns) ∧ s.time.pps = p) := by
  refine ⟨⟨up, by decide +kernel⟩, ?_⟩
  intro p h
  refine ⟨ticking 1000002000 (fun x => { x with pps := p }), ?_, ?_, ?_, none_ok rfl, ?_⟩ <;> fin_cases h <;> decide +kernel

theorem wit_ClockAndLanes_locks :
    (∃ s : State, railsUp s = false) ∧ (∃ s : State, railsUp s = true ∧ s.boot.done = 1) ∧ (∃ s : State, railsUp s = true ∧ s.boot.done = 2 ∧ s.sluice.moves = []) ∧
    (∃ s : State, railsUp s = true ∧ 2 ≤ s.boot.done ∧ tierHasLink s.boot.tier 35 = true) ∧ (∃ s : State, railsUp s = true ∧ 2 ≤ s.boot.done ∧ tierHasLink s.boot.tier 35 = false) :=
  ⟨⟨{ up with boot := { up.boot with dark := .railTrip } }, by decide +kernel⟩, ⟨atStage 1 up, by decide +kernel⟩, ⟨atStage 2 up, by decide +kernel⟩, ⟨atStage 2 up, by decide +kernel⟩,
    ⟨up, by decide +kernel⟩⟩

/-- The path plane of position 543 in this health. -/
def laned (h : LaneHealth) (gs : Bool) : State :=
  { holding (warp []) task with cores := [(543, { Pos.idle with groups := (if gs then [(0, some (warp []))] else []), lanes := [(1, h)] })],
                                keeper := { up.keeper with cores := [(543, 1)] } }

/-- A bond of a position with a spare left, without one on a whole and a halved plane, with groups and without. -/
theorem wit_ClockAndLanes_positions :
    (∃ s : State, railsUp s = true ∧ spareLeft s 543 1 = true ∧ isNamed s 9 543 (bondDetail 1 0 127) = false ∧ s.flash.defects.length < 4096) ∧
    (∀ b ∈ [true, false], ∀ g ∈ [true, false], ∃ s : State, railsUp s = true ∧ (mapGet LaneHealth.good (getPos s 543).lanes 1).half = b ∧
      (decide (coreGroups (getPos s 543) ≠ [])) = g ∧ coreState s 543 = 1) := by
  refine ⟨⟨up, by decide +kernel⟩, ?_⟩
  intro b hb g hg
  refine ⟨laned { LaneHealth.good with half := b } g, ?_⟩
  fin_cases hb <;> fin_cases hg <;> decide +kernel

/-- A bond of a slice's port, whole, halved and gone; of a shared signal, with its other bond and without; a slice's retirement, beside a whole one and a
retired one. -/
theorem wit_ClockAndLanes_slices :
    (∃ s : State, railsUp s = true ∧ (getSlice s 127).retired = true) ∧
    (∀ b ∈ [true, false], ∃ s : State, railsUp s = true ∧ (getSlice s 127).retired = false ∧ (getSlice s 127).portLost = false ∧ (getSlice s 127).portHalf = b) ∧
    (∀ b ∈ [true, false], ∃ s : State, railsUp s = true ∧ s.boot.shared.contains 7 = b ∧ 191 ∉ s.power.darkened ∧ mapGet 0 s.power.clusterState 191 ≠ 2) ∧
    (∃ s : State, railsUp s = true ∧ (getSlice s 127).portLost = false) ∧
    (∃ s : State, railsUp s = true ∧ (getSlice s 127).portLost = true ∧ (∀ x ∈ s.cistern.slices, x.2.retired = false) ∧ (getSlice s 127).redq = [] ∧ (getSlice s 127).sets = []) ∧
    (∃ s : State, railsUp s = true ∧ (getSlice s 127).portLost = true ∧ (getSlice s (127 ^^^ 1)).retired = true) := by
  let lost : State := sliced { Slice.empty with portLost := true } up
  refine ⟨⟨sliced { Slice.empty with retired := true } up, by decide +kernel⟩, ?_, ?_, ⟨up, by decide +kernel⟩, ⟨lost, by decide +kernel⟩,
    ⟨{ lost with cistern := { lost.cistern with slices := [(126, { Slice.empty with retired := true }), (127, { Slice.empty with portLost := true })] } }, by decide +kernel⟩⟩ <;> intro b h
  · refine ⟨sliced { Slice.empty with portHalf := b } up, ?_⟩; fin_cases h <;> decide +kernel
  · refine ⟨{ up with boot := { up.boot with shared := (if b then [7] else []) } }, ?_⟩; fin_cases h <;> decide +kernel

/-! ### The patches of the clusters, the state after reset, and the invariant (R226, R402, R422) -/

theorem wit_RegulatorClusters : ∃ (s : State), 191 ∉ s.power.darkened ∧ mapGet 0 s.power.clusterState 191 ≠ 2 ∧ 543 ∈ patchOf 191 := ⟨up, by decide +kernel⟩

theorem wit_StepsKeepTheInvariant : Inv State.reset :=
  ⟨rfl, rfl, rfl, ⟨rfl, rfl, rfl⟩, by decide +kernel, by decide +kernel, by decide +kernel⟩

/-! ### Commands that are not well formed, and the manual's worked examples -/

/-- One command for each check, just past the last unit that it names. -/
theorem test_wellFormed_refuses : ∀ i ∈ ([.groupExit 544 0, .groupExit 0 64, .sliceIntake 128 0 .ok, .scrubRead 0 .stored, .arrayOpStart 0 4, .weirCommandComplete 0 2 .ok, .barrierRelease 0 0 16,
    .stagingAnswer 65536, .flitReceive 36 (List.replicate 272 0#8), .flitReceive 0 (List.replicate 271 0#8), .groupPlace 2, .reservoirReadReturn 8 0 true (some 0),
    .reservoirReadReturn 0 128 true (some 0), .poolJoin 64 0 0 0 0, .poolAssign 0 4 0 0, .poolAssign 0 0 4 0, .poolAssign 0 0 0 4, .seqRelease (put (2 ^ 32) 0),
    .bar2RecordWrite 0x4000000 [] false, .regulatorFailed 192 0] : List Instr), i.wellFormed = false := by decide +kernel

/-- The same at the last unit. -/
theorem test_wellFormed_allows : ∀ i ∈ ([.groupExit 543 63, .sliceIntake 127 0 .ok, .arrayOpStart 543 3, .weirCommandComplete 0 1 .ok, .barrierRelease 0 0 15,
    .stagingAnswer 65535, .flitReceive 35 (List.replicate 272 0#8), .groupPlace 1, .reservoirReadReturn 7 127 true (some 0), .poolJoin 63 0 0 0 0, .poolAssign 35 3 3 3,
    .seqRelease (put (2 ^ 32 - 1) 0), .bar2RecordWrite 0x3FFFFFF [] false, .regulatorFailed 191 0] : List Instr), i.wellFormed = true := by decide +kernel

/-- Chapter 4: `icmpi.gt.s p1, v9, 0`, which is 0x507C_0109_0000_0000, clears predicate 1 where register 9 holds −8: the comparison is signed. -/
theorem test_word_icmpi :
    let one (gr : Machine.Group) : Machine.Group := { gr with live := 1#32, paths := gr.paths.map (fun q => { q with lanes := 1#32 }) }
    let s := readyWith 0x50 (BitVec.ofNat 56 0x7C010900000000) (fun g => setPred (setReg (one g) 9 0 0xFFFFFFF8) 1 0 true)
    (match exec (.icmpi 0 0 (BitVec.ofNat 56 0x7C010900000000)) s with
     | .next t => (getGroup t 0 0).map (fun g => getPred g 1 0)
     | _ => none) = some false := by decide +kernel

/-- Chapter 4: the fields of `@p1 bra next, join done` at 0x68, 0x3810_FFFF_F800_0001, and of `@!p1 ld.b32.ro v12, [v4+0x180]`, 0x3092_0C04_0040_0180. -/
theorem test_word_fields :
    (let w : InstrBits := BitVec.ofNat 56 0x10FFFFF8000001
     (fPneg w, fPred w, fTarget w, fReconv w) = (false, 1, -8, 1)) ∧
    (let w : InstrBits := BitVec.ofNat 56 0x920C0400400180
     (fPneg w, fPred w, fMod w, fDst w, fSrcA w, fSize w, fOffset w) = (true, 1, 2, 0xC, 4, 2, 0x180)) := by decide +kernel

/-- Chapter 1: Basin B of position 301, and a task's address on device 37. -/
theorem test_addresses : basinAt 0x000002004B600000 = some (301, 0x200000) ∧ addrDevice 0x9400001234560000 = 37 ∧ addrLocal 0x9400001234560000 = 0x1234560000 := by
  decide +kernel

/-- Chapter 9: the place of a sector with all eight stacks working, and its slice (chapter 8). -/
theorem test_sector :
    let s : State := { up with reservoir := { Reservoir.unmapped with west := [0, 1, 2, 3], east := [4, 5, 6, 7] } }
    resLoc s 0x1234560080 = ⟨0, 2, 17, 30, 4660, 512⟩ ∧ homeSlice s 0x1234560080 = 5 := by decide +kernel

/-- Chapter 10: the sequence, page and byte of a reference. -/
theorem test_reference : (refSeq 0x0000281291BD1400, refPage 0x0000281291BD1400, refByte 0x0000281291BD1400) = (0x5025, 0x11BD, 0x1400) := by decide +kernel

/-- Chapter 12: the peers of device 5 in a pool of 64, and the cables of a store's three hops from device 0 to device 37. -/
theorem test_cables : peersOf 3 5 = [4, 6, 7, 1, 9, 13, 21, 37, 53] ∧ cabledTo 3 3 0 0 = some (1, 0) ∧ cabledTo 3 3 1 3 = some (5, 3) ∧ cabledTo 3 3 5 7 = some (37, 6) := by
  decide +kernel

/-- Chapter 17: the patch of cluster 4. -/
theorem test_patch : patchOf 4 = [12, 13, 14] := by decide +kernel

/-- Chapter 18: pulses 1 and 2 of the acquisition. -/
theorem test_pulse_first :
    let s : State := { up with time := { Time.clear with runs := true, tb := 5231400000, ns := 6000000000, load := some 1750000000 } }
    (match exec .ppsPulse s with
     | .next t => some (t.time.tb, t.time.offset, t.time.pps)
     | _ => none) = some (1750000000000000000, 231400000, 0) := by decide +kernel

theorem test_pulse_second :
    let s : State := { up with time := { Time.clear with runs := true, tb := 1750000001000030000, ns := 7000030000, lastObeyed := some 6000000000, lastEdge := some 6000000000 } }
    (match exec .ppsPulse s with
     | .next t => some (t.time.tb, t.time.offset, t.time.pps, t.time.trim)
     | _ => none) = some (1750000001000000000, 30000, 0, -30000) := by decide +kernel

/-- Chapter 6: one element of each kind, with its bytes, its scale and A's format. -/
theorem test_expanded :
    let rd (bs : List Nat) (j : Nat) : Byte := BitVec.ofNat 8 (bs.getD j 0)
    elemB false 0 9 (rd [0x3C]) (rd [0xE0, 0x3D, 0x08, 0]) 0 = (0x2E, false) ∧ elemB false 0 9 (rd [0x3C]) (rd [0xE0, 0x3D, 0x08, 0]) 1 = (0xB1, false) ∧
      elemB false 0 10 (rd [0x7A]) (rd [0x7C]) 0 = (0xA0, false) ∧ elemB false 0 10 (rd [0x7A]) (rd [0x7C]) 1 = (0x34, false) ∧
      elemB false 0 10 (rd [0x77]) (rd [0x86]) 0 = (0x7E, false) ∧ elemB false 0 11 (rd [0x2D, 0, 0]) (rd [0x80]) 0 = (0xC2, false) ∧
      elemB false 0 12 (rd [0x1B, 0, 0]) (rd [0x7F]) 0 = (0x4B, false) ∧ elemB false 3 10 (rd [0x77]) (rd [0x86]) 0 = (0x4440, false) := by decide +kernel

end Sys2Proof.Tests
end

section
/-! SUPPORT. Folds that leave a part of the state alone; the live slots as the slots that hold a record; and what evaluating
the waits of tasks can do where no poison is due. -/

namespace Sys2Proof.Machine

/-! ### Folds -/

/-- A reflexive and transitive relation that each step of a fold keeps holds from its beginning to its end. -/
theorem foldl_rel {σ α : Type} {R : σ → σ → Prop} (refl : ∀ s, R s s) (trans : ∀ {a b c}, R a b → R b c → R a c)
    {f : σ → α → σ} (xs : List α) (h : ∀ t, ∀ x ∈ xs, R t (f t x)) (s : σ) : R s (xs.foldl f s) := by
  induction xs generalizing s with
  | nil => exact refl s
  | cons x xs ih =>
    exact trans (h s x List.mem_cons_self) (ih (fun t y hy => h t y (List.mem_cons_of_mem x hy)) (f s x))

/-- What each step of a fold leaves alone, the fold leaves alone. -/
theorem foldl_keeps {σ α β : Type} (proj : σ → β) {f : σ → α → σ} (xs : List α)
    (h : ∀ t, ∀ x ∈ xs, proj (f t x) = proj t) (s : σ) : proj (xs.foldl f s) = proj s :=
  foldl_rel (R := fun a b => proj b = proj a) (fun _ => rfl) (fun h k => k.trans h) xs h s

/-! ### Canonical tables -/

/-- Every key that a canonical table lists lies above its bound. -/
theorem mapAbove_lt {α : Type} [DecidableEq α] {d : α} {m : Sparse α} {j k : Nat} {v : α} (ha : mapAbove j m = true)
    (hw : mapWf d m = true) (hk : (k, v) ∈ m) : j < k := by
  induction m generalizing j with
  | nil => cases hk
  | cons e m ih =>
    obtain ⟨i, w⟩ := e
    simp only [mapAbove, decide_eq_true_eq] at ha
    simp only [mapWf, Bool.and_eq_true] at hw
    rcases List.mem_cons.1 hk with h | h
    · cases h; exact ha
    · exact ha.trans (ih hw.1.2 hw.2 h)

/-- A canonical table lists exactly the keys whose value is not its default. -/
theorem mem_iff_mapGet {α : Type} [DecidableEq α] {d : α} {m : Sparse α} (h : mapWf d m = true) (k : Nat) (v : α) :
    (k, v) ∈ m ↔ v ≠ d ∧ mapGet d m k = v := by
  induction m with
  | nil => simp only [List.not_mem_nil, mapGet_nil, false_iff, not_and]; exact fun hv he => hv he.symm
  | cons e m ih =>
    obtain ⟨j, w⟩ := e
    simp only [mapWf, Bool.and_eq_true, decide_eq_true_eq] at h
    obtain ⟨⟨hw, ha⟩, hm⟩ := h
    rw [List.mem_cons, ih hm]
    by_cases hk : k = j
    · subst hk
      have hno : ¬(v ≠ d ∧ mapGet d m k = v) := fun hx => absurd (mapAbove_lt ha hm ((ih hm).2 hx)) (lt_irrefl _)
      simp only [mapGet, if_true, Prod.mk.injEq, true_and, hno, or_false]
      exact ⟨fun e => by subst e; exact ⟨hw, rfl⟩, fun e => e.2.symm⟩
    · simp [mapGet, hk]

/-- The live slots are the slots that hold a record. -/
theorem mem_liveSlots {s : State} (h : SlotsWf s) (n : Nat) (sl : Slot) : (n, sl) ∈ liveSlots s ↔ getSlot s n = some sl := by
  have key := mem_iff_mapGet h n (some sl)
  simp only [ne_eq, reduceCtorEq, not_false_eq_true, true_and] at key
  rw [getSlot, ← key]
  simp only [liveSlots, List.mem_filterMap, Prod.exists]
  constructor
  · rintro ⟨a, b, hm, hb⟩
    cases b with
    | none => cases hb
    | some x => cases hb; exact hm
  · exact fun hm => ⟨n, some sl, hm, rfl⟩

theorem slotsWf_setSlot {s : State} (h : SlotsWf s) (n : Nat) (x : Option Slot) : SlotsWf (setSlot s n x) :=
  mapWf_mapSet none s.fountain.slots n x h

theorem slotsWf_modSlot {s : State} (h : SlotsWf s) (n : Nat) (f : Slot → Slot) : SlotsWf (modSlot s n f) := by
  unfold modSlot
  split
  · exact h
  · exact slotsWf_setSlot h _ _

/-! ### Waking tasks -/

/-- A slot but for the moment at which its waits became satisfied, and for the producers that its re-run waits for. -/
def Slot.asleep (sl : Slot) : Slot := { sl with satisfied := none, replayWait := none }

/-- The states differ at most in the slots, and each slot at most in its waiting (R47, R50, R70). -/
structure Woken (s t : State) : Prop where
  rest : ∃ m, t = { s with fountain := { s.fountain with slots := m } }
  wf : SlotsWf s → SlotsWf t
  slot : ∀ n, (getSlot t n).map Slot.asleep = (getSlot s n).map Slot.asleep

theorem Woken.refl (s : State) : Woken s s := ⟨⟨_, rfl⟩, id, fun _ => rfl⟩

theorem Woken.trans {a b c : State} (h : Woken a b) (k : Woken b c) : Woken a c := by
  obtain ⟨⟨m, rfl⟩, hw, hs⟩ := h
  obtain ⟨⟨m', rfl⟩, kw, ks⟩ := k
  exact ⟨⟨_, rfl⟩, fun x => kw (hw x), fun n => (ks n).trans (hs n)⟩

/-- A change of a slot that touches its waiting alone. -/
theorem woken_modSlot (s : State) (n : Nat) {f : Slot → Slot} (h : ∀ sl, (f sl).asleep = sl.asleep) : Woken s (modSlot s n f) := by
  refine ⟨modSlot_eq s n f, fun hw => slotsWf_modSlot hw n f, fun k => ?_⟩
  rw [getSlot_modSlot]
  split
  · rename_i hk
    rw [hk, Option.map_map]
    exact congrArg (fun g => Option.map g (getSlot s n)) (funext h)
  · rfl

/-- A slot seen before the waking, for one seen after it. -/
theorem Woken.back {s t : State} (h : Woken s t) {n : Nat} {x : Slot} (hx : getSlot t n = some x) :
    ∃ y, getSlot s n = some y ∧ x.asleep = y.asleep := by
  have := h.slot n
  rw [hx] at this
  cases hy : getSlot s n with
  | none => rw [hy] at this; cases this
  | some y =>
    rw [hy] at this
    exact ⟨y, rfl, by simpa using this⟩

/-- A slot seen after the waking, for one seen before it. -/
theorem Woken.forth {s t : State} (h : Woken s t) {n : Nat} {y : Slot} (hy : getSlot s n = some y) :
    ∃ x, getSlot t n = some x ∧ x.asleep = y.asleep := by
  have := h.slot n
  rw [hy] at this
  cases hx : getSlot t n with
  | none => rw [hx] at this; cases this
  | some x =>
    rw [hx] at this
    exact ⟨x, rfl, by simpa using this⟩

theorem Woken.gone {s t : State} (h : Woken s t) {n : Nat} (hy : getSlot s n = none) : getSlot t n = none := by
  have := h.slot n
  rw [hy] at this
  cases hx : getSlot t n with
  | none => rfl
  | some x => rw [hx] at this; cases this

/-- What a slot's waiting does not touch. -/
theorem Slot.asleep_eq {x y : Slot} (h : x.asleep = y.asleep) :
    x.words = y.words ∧ x.state = y.state ∧ x.code = y.code ∧ x.progress = y.progress ∧ x.spawned = y.spawned ∧
      x.signalled = y.signalled ∧ x.silent = y.silent ∧ x.ending = y.ending :=
  ⟨(congrArg Slot.words h : x.asleep.words = y.asleep.words), (congrArg Slot.state h : x.asleep.state = y.asleep.state),
    (congrArg Slot.code h : x.asleep.code = y.asleep.code), (congrArg Slot.progress h : x.asleep.progress = y.asleep.progress),
    (congrArg Slot.spawned h : x.asleep.spawned = y.asleep.spawned), (congrArg Slot.signalled h : x.asleep.signalled = y.asleep.signalled),
    (congrArg Slot.silent h : x.asleep.silent = y.asleep.silent), (congrArg Slot.ending h : x.asleep.ending = y.asleep.ending)⟩

/-! ### Evaluating waits where no poison is due -/

/-- `NoPoisonDue`, said of the slots by number. -/
def Unpoisoned (s : State) : Prop :=
  ∀ n sl, getSlot s n = some sl → sl.state = 1 → sl.signalled = false → waitsPoisoned s sl.words = false

theorem unpoisoned_of_noPoisonDue {s : State} (hw : SlotsWf s) (h : NoPoisonDue s) : Unpoisoned s :=
  fun n sl hn h1 h2 => h (n, sl) ((mem_liveSlots hw n sl).2 hn) h1 h2

/-- Poison that does not spread: a state whose slots differ in their waiting alone, with no counter newly poisoned. -/
theorem Unpoisoned.woken {s t : State} (h : Unpoisoned s) (hs : ∀ n x, getSlot t n = some x → x.state = 1 → x.signalled = false →
      ∃ y, getSlot s n = some y ∧ y.words = x.words ∧ y.state = 1 ∧ y.signalled = false)
    (hc : ∀ k, (getCounter t k).poison = true → (getCounter s k).poison = true) : Unpoisoned t := by
  intro n x hx h1 h2
  obtain ⟨y, hy, hw, hst, hsg⟩ := hs n x hx h1 h2
  have := h n y hy hst hsg
  rw [hw] at this
  simp only [waitsPoisoned, List.any_eq_false, Bool.and_eq_true, not_and, Bool.not_eq_true] at this ⊢
  intro e he hv
  cases hp : (getCounter t (waitCounter e)).poison with
  | false => rfl
  | true => exact absurd (hc _ hp) (by rw [this e he hv]; exact Bool.false_ne_true)

/-- Where no task in state 1 waits on a poisoned counter, poison does not spread (R49). -/
theorem spreadPoison_idle {s : State} (hw : SlotsWf s) (h : Unpoisoned s) (k : Nat) : spreadPoison k s = s := by
  cases k with
  | zero => rfl
  | succ k =>
    have : (liveSlots s).find? (fun e => e.2.state == 1 && !e.2.signalled && waitsPoisoned s e.2.words) = none := by
      rw [List.find?_eq_none]
      rintro ⟨n, sl⟩ hm hp
      simp only [Bool.and_eq_true, beq_iff_eq, Bool.not_eq_true'] at hp
      obtain ⟨⟨h1, h2⟩, h3⟩ := hp
      rw [h n sl ((mem_liveSlots hw n sl).1 hm) h1 h2] at h3
      cases h3
    simp [spreadPoison, this]

/-- Where no poison is due, evaluating the waits only notes when they became satisfied (R47). -/
theorem evalWaits_woken {s : State} (hw : SlotsWf s) (h : Unpoisoned s) : Woken s (evalWaits s) := by
  unfold evalWaits
  rw [spreadPoison_idle hw h]
  refine foldl_rel Woken.refl Woken.trans _ (fun t e _ => ?_) s
  split
  · exact woken_modSlot t e.1 (fun _ => rfl)
  · exact Woken.refl t

theorem Woken.counter {s t : State} (h : Woken s t) (k : Nat) : getCounter t k = getCounter s k := by
  obtain ⟨m, rfl⟩ := h.rest; rfl

theorem Woken.unpoisoned {s t : State} (h : Woken s t) (hu : Unpoisoned s) : Unpoisoned t := by
  refine hu.woken (fun n x hx h1 h2 => ?_) (fun k hk => h.counter k ▸ hk)
  obtain ⟨y, hy, he⟩ := h.back hx
  obtain ⟨e1, e2, -, -, -, e6, -⟩ := Slot.asleep_eq he
  exact ⟨y, hy, e1.symm, e2.symm.trans h1, e6.symm.trans h2⟩

/-- Consumers that a producer's retirement wakes change in their waiting alone (R70). -/
theorem wakeConsumers_woken (s : State) (n : Nat) : Woken s (wakeConsumers s n) := by
  refine foldl_rel Woken.refl Woken.trans _ (fun t e _ => ?_) s
  split
  · dsimp only
    split
    · exact Woken.refl t
    · exact woken_modSlot t e.1 (fun sl => by split <;> rfl)
  · exact Woken.refl t

end Sys2Proof.Machine
end

section
/-! SUPPORT. What the Sluice's acts at the end of a task leave alone, and the retirement of a task. -/

namespace Sys2Proof.Machine

/-! ### Acts of the Sluice -/

/-- A change of every value of a table that keeps a part of each keeps that part of every entry. -/
theorem mapGet_map_keeps {α β : Type} (proj : α → β) {f : α → α} (h : ∀ x, proj (f x) = proj x) (d : α) (m : Sparse α) (k : Nat) :
    proj (mapGet d (m.map (fun e => (e.1, f e.2))) k) = proj (mapGet d m k) := by
  induction m with
  | nil => rfl
  | cons e m ih =>
    obtain ⟨j, v⟩ := e
    simp only [List.map_cons, mapGet]
    split
    · exact h v
    · exact ih

/-- What the Sluice's acts on buffers, sequences and pages leave alone: all but its own state, the walkers and the frames of
the cores, and the count of FREE entries that found no buffer (R262, R265, R280). -/
structure SluiceFrame (s t : State) : Prop where
  rest : { t with keeper := s.keeper, cores := s.cores, sluice := s.sluice } = s
  counts : ∀ k, k ≠ Key.freeMisses → getObj t k = getObj s k
  basin : ∀ q, (getPos t q).basin = (getPos s q).basin

theorem SluiceFrame.refl (s : State) : SluiceFrame s s := ⟨rfl, fun _ _ => rfl, fun _ => rfl⟩

theorem SluiceFrame.trans {a b c : State} (h : SluiceFrame a b) (k : SluiceFrame b c) : SluiceFrame a c :=
  { rest := by
      have := congrArg (fun u : State => { u with keeper := a.keeper, cores := a.cores, sluice := a.sluice }) k.rest
      exact this.trans h.rest
    counts := fun x hx => (k.counts x hx).trans (h.counts x hx)
    basin := fun q => (k.basin q).trans (h.basin q) }

/-- A change of the Sluice's own state alone. -/
theorem withSluice_sluiceFrame (s : State) (x : Sluice) : SluiceFrame s { s with sluice := x } := ⟨rfl, fun _ _ => rfl, fun _ => rfl⟩

theorem setHalf_sluiceFrame (s : State) (h : Nat) (y : HalfSpace) : SluiceFrame s (setHalf s h y) :=
  by unfold setHalf; split <;> exact withSluice_sluiceFrame s _

theorem setSeq_sluiceFrame (s : State) (n : Nat) (x : Option Seqn) : SluiceFrame s (setSeq s n x) := withSluice_sluiceFrame s _

theorem modPage_sluiceFrame (s : State) (n page : Nat) (f : Page → Page) : SluiceFrame s (modPage s n page f) := by
  unfold modPage
  split
  · exact .refl s
  · exact setSeq_sluiceFrame _ _ _

theorem giveZonePage_sluiceFrame (s : State) (half q : Nat) : SluiceFrame s (giveZonePage s half q) := setHalf_sluiceFrame _ _ _

theorem giveHostPage_sluiceFrame (s : State) (h : Option Nat) : SluiceFrame s (giveHostPage s h) := by
  cases h with
  | none => exact .refl s
  | some h => exact withSluice_sluiceFrame s _

theorem invalidatePage_sluiceFrame (s : State) (n page : Nat) : SluiceFrame s (invalidatePage s n page) :=
  ⟨rfl, fun _ _ => rfl, fun q => mapGet_map_keeps Pos.basin
    (f := fun c => { c with walker := c.walker.filter (fun w => !(w.seq == n && w.page == page)) }) (fun _ => rfl) Pos.idle s.cores q⟩

theorem setPos_sluiceFrame (s : State) (p : Nat) (c : Pos) (h : c.basin = (getPos s p).basin) : SluiceFrame s (setPos s p c) := by
  refine ⟨rfl, fun _ _ => rfl, fun q => ?_⟩
  by_cases hq : q = p
  · subst hq; rw [getPos_setPos_same, h]
  · rw [getPos_setPos_ne _ _ _ _ hq]

theorem dropFrame_sluiceFrame (s : State) (n page : Nat) : SluiceFrame s (dropFrame s n page) := by
  unfold dropFrame
  split
  · exact .refl s
  · split
    · exact .refl s
    · refine .trans (.trans (invalidatePage_sluiceFrame s n page) (setPos_sluiceFrame _ _ _ ?_)) (modPage_sluiceFrame _ _ _ _)
      rfl

theorem freePage_sluiceFrame (s : State) (n page half : Nat) (pg : Page) : SluiceFrame s (freePage s n page half pg) := by
  have h1 := (invalidatePage_sluiceFrame s n page).trans (dropFrame_sluiceFrame _ n page)
  have h2 := h1.trans (withSluice_sluiceFrame _ { (dropFrame (invalidatePage s n page) n page).sluice with
    hostCopies := (dropFrame (invalidatePage s n page) n page).sluice.hostCopies.filter (· != (n, page)) })
  unfold freePage
  dsimp only
  split
  · exact h2.trans (giveHostPage_sluiceFrame _ _)
  · exact h2.trans (withSluice_sluiceFrame _ _)
  · exact h2.trans (withSluice_sluiceFrame _ _)
  · exact h2.trans ((giveZonePage_sluiceFrame _ _ _).trans (giveHostPage_sluiceFrame _ _))

theorem freeSeq_sluiceFrame (s : State) (n : Nat) : SluiceFrame s (freeSeq s n) := by
  unfold freeSeq
  split
  · exact .refl s
  · exact .trans (.trans (foldl_rel .refl .trans _ (fun t _ _ => freePage_sluiceFrame t _ _ _ _) s) (withSluice_sluiceFrame _ _))
      (setSeq_sluiceFrame _ _ _)

theorem loseUsers_sluiceFrame (s : State) (n : Nat) : SluiceFrame s (loseUsers s n) := by
  unfold loseUsers
  split
  · exact .refl s
  · split
    · exact .refl s
    · split
      · exact freeSeq_sluiceFrame s n
      · refine (foldl_rel .refl .trans _ (fun t i _ => dropFrame_sluiceFrame t n i) s).trans
          (foldl_rel .refl .trans _ (fun t i _ => ?_) _)
        split
        · split
          · exact (invalidatePage_sluiceFrame _ _ _).trans (modPage_sluiceFrame _ _ _ _)
          · exact .refl t
        · exact .refl t

theorem dropUsers_sluiceFrame (s : State) (ns : List Nat) : SluiceFrame s (dropUsers s ns) :=
  foldl_rel .refl .trans _ (fun t n _ => loseUsers_sluiceFrame t n) s

theorem freeBuf_sluiceFrame (s : State) (b : Buf) : SluiceFrame s (freeBuf s b) := by
  unfold freeBuf
  dsimp only
  refine .trans ?_ (withSluice_sluiceFrame _ _)
  split <;> exact setHalf_sluiceFrame _ _ _

theorem freeScoped_sluiceFrame (s : State) (n : Nat) : SluiceFrame s (freeScoped s n) :=
  foldl_rel .refl .trans _ (fun t b _ => freeBuf_sluiceFrame t b) s

theorem getObj_bump_ne (s : State) (k n j : Nat) (h : j ≠ k) : getObj (bump s k n) j = getObj s j := getObj_setObj_ne _ _ _ _ h

theorem getObj_bump_same (s : State) (k n : Nat) : getObj (bump s k n) k = (getObj s k + n) % 2 ^ objBits k :=
  mapGet_mapSet_same _ _ _ _

theorem carryFrees_sluiceFrame (s : State) (n : Nat) : SluiceFrame s (carryFrees s n) := by
  unfold carryFrees
  split
  · exact .refl s
  · refine foldl_rel .refl .trans _ (fun t e _ => ?_) s
    split
    · exact freeBuf_sluiceFrame _ _
    · exact ⟨rfl, fun k hk => getObj_bump_ne _ _ _ _ hk, fun _ => rfl⟩

theorem closePages_sluiceFrame (s : State) (n old new : Nat) : SluiceFrame s (closePages s n old new) :=
  foldl_rel .refl .trans _ (fun t _ _ => invalidatePage_sluiceFrame t _ _) s

end Sys2Proof.Machine
end

section
/-! CERTIFICATE. The retirement of a task (R57, R60): its signals, the steps after them, and the statement O27. -/

namespace Sys2Proof.Machine

/-! ### What acts of the Fountain leave alone -/

theorem BelowFountain.refl (s : State) : BelowFountain s s := ⟨rfl, rfl, rfl, rfl, rfl, rfl, fun _ => rfl⟩

theorem BelowFountain.trans {a b c : State} (h : BelowFountain a b) (k : BelowFountain b c) : BelowFountain a c := by
  obtain ⟨h1, h2, h3, h4, h5, h6, h7⟩ := h
  obtain ⟨k1, k2, k3, k4, k5, k6, k7⟩ := k
  exact ⟨k1.trans h1, k2.trans h2, k3.trans h3, k4.trans h4, k5.trans h5, k6.trans h6, fun q => (k7 q).trans (h7 q)⟩

theorem SluiceFrame.below {s t : State} (h : SluiceFrame s t) : BelowFountain s t :=
  have e := h.rest
  ⟨(congrArg State.reservoir e : _), (congrArg State.time e : _), (congrArg State.boot e : _), (congrArg State.flash e : _),
    (congrArg State.power e : _), (congrArg State.port e : _), h.basin⟩

theorem SluiceFrame.fountain {s t : State} (h : SluiceFrame s t) : t.fountain = s.fountain := (congrArg State.fountain h.rest : _)

/-- What the end of the task in slot `n` leaves alone: what is below the Fountain, the counters, and every other task but for its
waiting. -/
structure TaskEnds (s t : State) (n : Nat) : Prop where
  below : BelowFountain s t
  counters : t.fountain.counters = s.fountain.counters
  wf : SlotsWf s → SlotsWf t
  others : ∀ k, k ≠ n → (getSlot t k).map Slot.asleep = (getSlot s k).map Slot.asleep

theorem TaskEnds.trans {a b c : State} {n : Nat} (h : TaskEnds a b n) (k : TaskEnds b c n) : TaskEnds a c n :=
  ⟨h.below.trans k.below, k.counters.trans h.counters, fun x => k.wf (h.wf x), fun j hj => (k.others j hj).trans (h.others j hj)⟩

theorem TaskEnds.refl (s : State) (n : Nat) : TaskEnds s s n := ⟨.refl s, rfl, id, fun _ _ => rfl⟩

theorem SluiceFrame.ends {s t : State} (h : SluiceFrame s t) (n : Nat) : TaskEnds s t n :=
  ⟨h.below, by rw [h.fountain], fun w => by unfold SlotsWf; rw [h.fountain]; exact w,
    fun k _ => by unfold getSlot; rw [h.fountain]⟩

theorem Woken.ends {s t : State} (h : Woken s t) (n : Nat) : TaskEnds s t n := by
  obtain ⟨⟨m, rfl⟩, hw, hs⟩ := h
  exact ⟨⟨rfl, rfl, rfl, rfl, rfl, rfl, fun _ => rfl⟩, rfl, hw, fun k _ => hs k⟩

theorem setSlot_ends (s : State) (n : Nat) (x : Option Slot) : TaskEnds s (setSlot s n x) n :=
  ⟨⟨rfl, rfl, rfl, rfl, rfl, rfl, fun _ => rfl⟩, rfl, fun w => slotsWf_setSlot w n x,
    fun k hk => by rw [getSlot_setSlot_ne _ _ _ _ hk]⟩

theorem modSlot_ends (s : State) (n : Nat) (f : Slot → Slot) : TaskEnds s (modSlot s n f) n := by
  unfold modSlot
  split
  · exact .refl s n
  · exact setSlot_ends s n _

theorem Logged.ends {s t : State} (h : Logged s t) (n : Nat) : TaskEnds s t n := by
  obtain ⟨_, _, _, _, _, rfl⟩ := h
  exact ⟨⟨rfl, rfl, rfl, rfl, rfl, rfl, fun _ => rfl⟩, rfl, id, fun _ _ => rfl⟩

/-- Where nobody waits on poison and the task in slot `n` waits no more, nobody waits on poison at its end. -/
theorem TaskEnds.unpoisoned {s t : State} {n : Nat} (h : TaskEnds s t n) (hu : Unpoisoned s)
    (hn : ∀ x, getSlot t n = some x → x.state ≠ 1) : Unpoisoned t := by
  refine hu.woken (fun k x hx h1 h2 => ?_) (fun k hk => by unfold getCounter at hk ⊢; rw [← h.counters]; exact hk)
  have hk : k ≠ n := fun e => hn x (e ▸ hx) h1
  have ho := h.others k hk
  rw [hx] at ho
  cases hy : getSlot s k with
  | none => rw [hy] at ho; cases ho
  | some y =>
    rw [hy] at ho
    obtain ⟨e1, e2, -, -, -, e6, -⟩ := Slot.asleep_eq (Option.some.inj ho)
    exact ⟨y, rfl, e1.symm, e2.symm.trans h1, e6.symm.trans h2⟩

/-! ### Signals -/

/-- The signals of a list that name this device, applied in order (R48). -/
def applyLocals (s : State) (es : List Nat) : State :=
  es.foldl (fun st e => if sigDevice e = st.pool.device then applySignal st (sigCounter e) (sigSet e) (sigValue e) else st) s

theorem Woken.applySignal {s t : State} (h : Woken s t) (c : Nat) (set : Bool) (v : Nat) :
    Woken (applySignal s c set v) (applySignal t c set v) := by
  obtain ⟨⟨m, rfl⟩, hw, hs⟩ := h
  exact ⟨⟨m, rfl⟩, hw, hs⟩

/-- A signal poisons nothing. -/
theorem applySignal_poison (s : State) (c : Nat) (set : Bool) (v k : Nat)
    (h : (getCounter (applySignal s c set v) k).poison = true) : (getCounter s k).poison = true := by
  unfold applySignal at h
  by_cases hk : k = c
  · subst hk
    rw [getCounter_setCounter_same] at h
    cases set with
    | true => cases h
    | false => exact h
  · rwa [getCounter_setCounter_ne _ _ _ _ hk] at h

theorem applySignal_unpoisoned {s : State} (h : Unpoisoned s) (c : Nat) (set : Bool) (v : Nat) : Unpoisoned (applySignal s c set v) :=
  h.woken (fun _ x hx h1 h2 => ⟨x, hx, rfl, h1, h2⟩) (applySignal_poison s c set v)

/-- Signals that all name this device, or devices outside the pool, are those to this device, and may wake tasks. -/
theorem doSignals_woken (n : Nat) (cls : Nat) (es : List Nat) {s t : State} (h : Woken s t) (hw : SlotsWf s) (hu : Unpoisoned s)
    (he : ∀ e ∈ es, sigDevice e = s.pool.device ∨ isMember s (sigDevice e) = false) :
    Woken (applyLocals s es) (es.foldl (fun st e =>
      if sigDevice e = st.pool.device then signalLocal st (sigCounter e) (sigSet e) (sigValue e)
      else if signalReaches st e then sendSignal st n e false cls
      else st) t) ∧ SlotsWf (applyLocals s es) ∧ Unpoisoned (applyLocals s es) := by
  induction es generalizing s t with
  | nil => exact ⟨h, hw, hu⟩
  | cons e es ih =>
    have hpool : t.pool = s.pool := by obtain ⟨m, rfl⟩ := h.rest; rfl
    simp only [applyLocals, List.foldl_cons]
    rw [hpool]
    by_cases hd : sigDevice e = s.pool.device
    · rw [if_pos hd, if_pos hd]
      have h1 := h.applySignal (sigCounter e) (sigSet e) (sigValue e)
      have hu1 := applySignal_unpoisoned hu (sigCounter e) (sigSet e) (sigValue e)
      have hw1 : SlotsWf (applySignal s (sigCounter e) (sigSet e) (sigValue e)) := hw
      exact ih (h1.trans (evalWaits_woken (h1.wf hw1) (h1.unpoisoned hu1))) hw1 hu1 (fun x hx => he x (List.mem_cons_of_mem e hx))
    · have hm : isMember t (sigDevice e) = false := by
        have := (he e List.mem_cons_self).resolve_left hd
        unfold isMember inPool at this ⊢
        rw [hpool]; exact this
      have hr : signalReaches t e = false := by
        unfold signalReaches
        rw [hpool]
        simp [hd, hm]
      rw [if_neg hd, if_neg hd, hr, if_neg Bool.false_ne_true]
      exact ih h hw hu (fun x hx => he x (List.mem_cons_of_mem e hx))

/-- Where every signal names this device, all of them are applied. -/
theorem applyLocals_all (es : List Nat) (s : State) (h : ∀ e ∈ es, sigDevice e = s.pool.device) :
    applyLocals s es = es.foldl (fun st e => applySignal st (sigCounter e) (sigSet e) (sigValue e)) s := by
  induction es generalizing s with
  | nil => rfl
  | cons e es ih =>
    simp only [applyLocals, List.foldl_cons]
    rw [if_pos (h e List.mem_cons_self)]
    exact ih _ (fun x hx => h x (List.mem_cons_of_mem e hx))

/-- Signals to this device change counters alone. -/
theorem applyLocals_eq (es : List Nat) (s : State) :
    ∃ m, applyLocals s es = { s with fountain := { s.fountain with counters := m } } := by
  induction es generalizing s with
  | nil => exact ⟨_, rfl⟩
  | cons e es ih =>
    simp only [applyLocals, List.foldl_cons]
    split
    · obtain ⟨m, hm⟩ := ih (applySignal s (sigCounter e) (sigSet e) (sigValue e))
      exact ⟨m, hm⟩
    · exact ih s

theorem applyLocals_below (es : List Nat) (s : State) : BelowFountain s (applyLocals s es) := by
  obtain ⟨m, hm⟩ := applyLocals_eq es s
  rw [hm]
  exact ⟨rfl, rfl, rfl, rfl, rfl, rfl, fun _ => rfl⟩

theorem applyLocals_slot (es : List Nat) (s : State) (n : Nat) : getSlot (applyLocals s es) n = getSlot s n := by
  obtain ⟨m, hm⟩ := applyLocals_eq es s
  rw [hm]; rfl

theorem applyLocals_obj (es : List Nat) (s : State) (k : Nat) : getObj (applyLocals s es) k = getObj s k := by
  obtain ⟨m, hm⟩ := applyLocals_eq es s
  rw [hm]; rfl

theorem applyLocals_pool (es : List Nat) (s : State) : (applyLocals s es).pool = s.pool := by
  obtain ⟨m, hm⟩ := applyLocals_eq es s
  rw [hm]

/-! ### The steps after the signals -/

theorem retireExtension_ends (s : State) (n : Nat) (x : Nat × Nat × Nat) :
    TaskEnds s (retireExtension s n x) n ∧ (∀ k, k ≠ Key.freeMisses → getObj (retireExtension s n x) k = getObj s k) := by
  unfold retireExtension
  split
  · exact ⟨.refl s n, fun _ _ => rfl⟩
  · rename_i q _
    have h := (setSeq_sluiceFrame s x.1 (some { q with writeFrom := x.2.1, length := x.2.2, retired := q.retired + 1 })).trans
      (closePages_sluiceFrame _ x.1 q.writeFrom x.2.1)
    refine ⟨(h.ends n).trans (modSlot_ends _ _ _), fun k hk => ?_⟩
    obtain ⟨m, hm⟩ := modSlot_eq (closePages (setSeq s x.1 (some { q with writeFrom := x.2.1, length := x.2.2, retired := q.retired + 1 })) x.1
      q.writeFrom x.2.1) n (fun sl => { sl with retired := sl.retired ++ [(x.1, q.retired + 1)] })
    rw [hm]
    exact h.counts k hk

/-- A slot but for the extensions that it has retired. -/
def Slot.unretired (sl : Slot) : Slot := { sl with retired := [] }

theorem retireExtension_slot (s : State) (n : Nat) (x : Nat × Nat × Nat) :
    (getSlot (retireExtension s n x) n).map Slot.unretired = (getSlot s n).map Slot.unretired := by
  unfold retireExtension
  split
  · rfl
  · rename_i q _
    have h := (setSeq_sluiceFrame s x.1 (some { q with writeFrom := x.2.1, length := x.2.2, retired := q.retired + 1 })).trans
      (closePages_sluiceFrame _ x.1 q.writeFrom x.2.1)
    rw [getSlot_modSlot, if_pos rfl, Option.map_map]
    unfold getSlot
    rw [h.fountain]
    rfl

/-- The extensions of a task retire: nothing below the Fountain changes, nor any other task, nor the task but for them (R266). -/
theorem retireSequences_ends (s : State) (n : Nat) :
    TaskEnds s (retireSequences s n) n ∧ (∀ k, k ≠ Key.freeMisses → getObj (retireSequences s n) k = getObj s k) ∧
      (getSlot (retireSequences s n) n).map Slot.unretired = (getSlot s n).map Slot.unretired := by
  unfold retireSequences
  split
  · exact ⟨.refl s n, fun _ _ => rfl, rfl⟩
  · split
    · exact ⟨foldl_rel (R := fun a b => TaskEnds a b n) (fun t => .refl t n) .trans _ (fun t x _ => (retireExtension_ends t n x).1) s,
        fun k hk => foldl_keeps (fun t => getObj t k) _ (fun t x _ => (retireExtension_ends t n x).2 k hk) s,
        foldl_keeps (fun t => (getSlot t n).map Slot.unretired) _ (fun t x _ => retireExtension_slot t n x) s⟩
    · exact ⟨.refl s n, fun _ _ => rfl, rfl⟩

/-- The buffers of a task are freed. -/
theorem frees_sluiceFrame (s : State) (n : Nat) : SluiceFrame s (carryFrees (freeScoped s n) n) :=
  (freeScoped_sluiceFrame s n).trans (carryFrees_sluiceFrame _ n)

/-- A task whose signals have all been delivered is done (R57). -/
theorem finishTask_done {s : State} {n : Nat} {sl : Slot} (hn : getSlot s n = some sl)
    (hl : (!sl.silent && (validSignals sl.words).any (fun e => !(signalReaches s e))) = false) :
    TaskEnds s (finishTask s n sl) n ∧ Counted s (finishTask s n sl) Key.tasksDone 1 ∧
      (sl.spawned = true → getSlot (finishTask s n sl) n = none) ∧
      (sl.spawned = false → ∃ x, getSlot (finishTask s n sl) n = some x ∧ x.state = 5 ∧ x.code = 0 ∧ x.progress = sl.progress ∧
        x.words = sl.words) := by
  have h0 := frees_sluiceFrame s n
  obtain ⟨h1, h1o, h1s⟩ := retireSequences_ends (carryFrees (freeScoped s n) n) n
  unfold finishTask
  dsimp only
  rw [hl, if_neg Bool.false_ne_true]
  generalize hs1 : retireSequences (carryFrees (freeScoped s n) n) n = s1 at *
  have h2 : TaskEnds s (bump s1 Key.tasksDone 1) n := ((h0.ends n).trans h1).trans ((logged_bump s1 _ _).ends n)
  have hc : getObj (bump s1 Key.tasksDone 1) Key.tasksDone = (getObj s Key.tasksDone + 1) % 2 ^ 64 := by
    rw [getObj_bump_same, h1o _ (by decide), h0.counts _ (by decide), show objBits Key.tasksDone = 64 by decide +kernel]
  -- the slot as the frees and the extensions leave it
  have hsl : ∃ y, getSlot (bump s1 Key.tasksDone 1) n = some y ∧ y.unretired = sl.unretired := by
    have : getSlot (carryFrees (freeScoped s n) n) n = some sl := by rw [← hn]; unfold getSlot; rw [h0.fountain]
    rw [this] at h1s
    rw [getSlot_bump]
    cases hy : getSlot s1 n with
    | none => rw [hy] at h1s; cases h1s
    | some y => rw [hy] at h1s; exact ⟨y, rfl, Option.some.inj h1s⟩
  obtain ⟨y, hy, hye⟩ := hsl
  -- what follows the change of the slot: users dropped, consumers woken
  have tail : ∀ u : State, TaskEnds u (wakeConsumers (dropUsers u (seqNames sl)) n) n ∧
      getObj (wakeConsumers (dropUsers u (seqNames sl)) n) Key.tasksDone = getObj u Key.tasksDone ∧
      (getSlot (wakeConsumers (dropUsers u (seqNames sl)) n) n).map Slot.asleep = (getSlot u n).map Slot.asleep := by
    intro u
    have d := dropUsers_sluiceFrame u (seqNames sl)
    have w := wakeConsumers_woken (dropUsers u (seqNames sl)) n
    refine ⟨(d.ends n).trans (w.ends n), ?_, ?_⟩
    · obtain ⟨m, hm⟩ := w.rest
      rw [hm]
      exact d.counts _ (by decide)
    · rw [w.slot]; unfold getSlot; rw [d.fountain]
  split
  · rename_i hsp
    obtain ⟨t1, t2, t3⟩ := tail (setSlot (bump s1 Key.tasksDone 1) n none)
    refine ⟨(h2.trans (setSlot_ends _ _ _)).trans t1, t2.trans hc, fun _ => ?_, fun h => by rw [h] at hsp; cases hsp⟩
    rw [getSlot_setSlot_same] at t3
    exact Option.map_eq_none_iff.1 t3
  · rename_i hsp
    obtain ⟨t1, t2, t3⟩ := tail (modSlot (bump s1 Key.tasksDone 1) n (fun t => { t with
      state := 5, code := 0, satisfied := none, dispatchable := none, staging := .none, reserved := [], signalled := false }))
    obtain ⟨m, hm⟩ := modSlot_eq (bump s1 Key.tasksDone 1) n (fun t => { t with
      state := 5, code := 0, satisfied := none, dispatchable := none, staging := .none, reserved := [], signalled := false })
    refine ⟨(h2.trans (modSlot_ends _ _ _)).trans t1, t2.trans (by rw [hm]; exact hc), fun h => absurd h hsp, fun _ => ?_⟩
    rw [getSlot_modSlot, if_pos rfl, hy] at t3
    obtain ⟨x, hx, hxe⟩ := Option.map_eq_some_iff.1 t3
    obtain ⟨e1, e2, e3, e4, -⟩ := Slot.asleep_eq hxe
    exact ⟨x, hx, e2, e3, e4.trans (congrArg Slot.progress hye : y.unretired.progress = _), e1.trans (congrArg Slot.words hye : y.unretired.words = _)⟩

/-- A task with a signal that cannot be delivered fails with PEER_LOST (R60). -/
theorem finishTask_lost {s : State} {n : Nat} {sl : Slot} (hn : getSlot s n = some sl)
    (hl : (!sl.silent && (validSignals sl.words).any (fun e => !(signalReaches s e))) = true) :
    TaskEnds s (finishTask s n sl) n ∧ TaskFailed (finishTask s n sl) n sl Code.peerLost := by
  have h0 := frees_sluiceFrame s n
  unfold finishTask
  dsimp only
  rw [hl, if_pos rfl]
  have hr := logged_raiseTask (carryFrees (freeScoped s n) n) n { code := Code.peerLost, sev := 2, origin := .fountain }
  generalize raiseTask (carryFrees (freeScoped s n) n) n { code := Code.peerLost, sev := 2, origin := .fountain } = s1 at *
  have hs1 : getSlot s1 n = some sl := by
    obtain ⟨_, _, _, _, _, rfl⟩ := hr
    rw [← hn]; unfold getSlot; exact congrArg (fun f : Fountain => mapGet none f.slots n) h0.fountain
  have h1 : TaskEnds s s1 n := (h0.ends n).trans (hr.ends n)
  have d : ∀ u : State, TaskEnds u (dropUsers u (seqNames sl)) n ∧ getSlot (dropUsers u (seqNames sl)) n = getSlot u n :=
    fun u => ⟨(dropUsers_sluiceFrame u _).ends n, by unfold getSlot; rw [(dropUsers_sluiceFrame u _).fountain]⟩
  have hb := h1.trans ((logged_bump s1 Key.tasksFaulted 1).ends n)
  simp only [writeFaulted, hs1]
  split
  · rename_i hsp
    obtain ⟨d1, d2⟩ := d (setSlot (bump s1 Key.tasksFaulted 1) n none)
    exact ⟨(hb.trans (setSlot_ends _ _ _)).trans d1, fun _ => by rw [d2, getSlot_setSlot_same], fun h => by rw [h] at hsp; cases hsp⟩
  · rename_i hsp
    obtain ⟨d1, d2⟩ := d (setSlot (bump s1 Key.tasksFaulted 1) n (some { sl with
        state := 6, code := Code.peerLost, satisfied := none, dispatchable := none, staging := .none, ending := none, reserved := [], replayWait := none }))
    exact ⟨(hb.trans (setSlot_ends _ _ _)).trans d1, fun h => absurd h hsp, fun _ => ⟨_, d2.trans (getSlot_setSlot_same _ _ _), rfl, rfl, rfl⟩⟩

/-! ### The statement -/

/-- The condition of R37 and R57 for a retirement. -/
theorem mayRetire_iff (s : State) (n : Nat) (sl : Slot) : mayRetire s n sl = true ↔ sl.ending = none ∧
    ((recTaskKind sl.words = 1 ∧ sl.state = 1 ∧ sl.satisfied ≠ none) ∨
      (recTaskKind sl.words = 0 ∧ (sl.state = 3 ∨ sl.state = 4) ∧ sl.exited = recGroups sl.words ∧ groupsOfTask s n = [] ∧
        storesAccepted s n = true)) := by
  simp only [mayRetire, Bool.and_eq_true, Bool.or_eq_true, beq_iff_eq, Option.isNone_iff_eq_none, List.isEmpty_iff, ne_eq,
    Option.isSome_iff_ne_none]
  tauto

/-- Where the task is ready and no signal of it is out, its signals are carried out and its last steps follow at once (R57). -/
theorem execTaskRetire_ready {s : State} {n : Nat} {sl : Slot} (hn : getSlot s n = some sl) (hw : SlotsWf s) (hu : Unpoisoned s)
    (hr : mayRetire s n sl = true) (h1 : sl.signalled = false) (h2 : sl.silent = false) (h3 : signalsOut s n = false)
    (he : ∀ e ∈ validSignals sl.words, sigDevice e = s.pool.device ∨ isMember s (sigDevice e) = false) :
    ∃ s1 sl1, exec (.taskRetire n) s = .next (evalWaits (finishTask s1 n sl1)) ∧ getSlot s1 n = some sl1 ∧
      TaskEnds (applyLocals s (validSignals sl.words)) s1 n ∧ SlotsWf s1 ∧ Unpoisoned (applyLocals s (validSignals sl.words)) ∧
      s1.pool = s.pool ∧ (∀ k, getObj s1 k = getObj s k) ∧
      sl1.words = sl.words ∧ sl1.progress = sl.progress ∧ sl1.spawned = sl.spawned ∧ sl1.silent = false := by
  obtain ⟨hk, hwa, hua⟩ := doSignals_woken n (recClass sl.words) (validSignals sl.words) (Woken.refl s) hw hu he
  have hsig : ∀ u : State, u.pool = s.pool → signalsOut u n = false := by
    intro u hp; rw [← h3]; unfold signalsOut; rw [hp]
  have hex : exec (.taskRetire n) s = execTaskRetire n s := rfl
  rw [hex]
  unfold execTaskRetire
  rw [hn]
  dsimp only
  rw [hr, h1, h2]
  simp only [Bool.not_true, Bool.false_eq_true, if_false, Bool.or_self, doSignals]
  generalize List.foldl _ s (validSignals sl.words) = d at *
  obtain ⟨y, hy, hye⟩ := hk.forth ((applyLocals_slot _ _ _).trans hn)
  obtain ⟨e1, -, -, e4, e5, -, e7, -⟩ := Slot.asleep_eq hye
  obtain ⟨m, hm⟩ := modSlot_eq d n (fun t => { t with signalled := true })
  obtain ⟨m', hm'⟩ := hk.rest
  have hpool : (modSlot d n (fun t => { t with signalled := true })).pool = s.pool := by
    rw [hm, hm']; exact applyLocals_pool _ _
  have hg : getSlot (modSlot d n (fun t => { t with signalled := true })) n = some { y with signalled := true } := by
    rw [getSlot_modSlot, if_pos rfl, hy]; rfl
  refine ⟨_, _, ?_, hg, (hk.ends n).trans (modSlot_ends d n _), slotsWf_modSlot (hk.wf hwa) _ _, hua, hpool, fun k => ?_, e1, e4, e5,
    e7.trans h2⟩
  · simp only [hsig _ hpool, Bool.false_eq_true, if_false, hg]
  · rw [hm, hm']; exact applyLocals_obj _ _ _

/-- Settles O27: the signals change counters and wake tasks, and the last steps touch the task's own slot and the Sluice. -/
theorem tasksRetire : Obligations.TasksRetire := by
  unfold Obligations.TasksRetire
  intro s n sl hn hw hp
  have hu := unpoisoned_of_noPoisonDue hw hp
  refine ⟨fun h => ?_, fun h0 hr h1 h2 h3 => ⟨fun he => ?_, fun he hx => ?_⟩⟩
  · have : mayRetire s n sl = false := by
      rw [← Bool.not_eq_true, mayRetire_iff]
      tauto
    show execTaskRetire n s = .next s
    simp [execTaskRetire, hn, this]
  · obtain ⟨s1, sl1, e0, e1, e2, e3, e4, e5, e6, e7, e8, e9, e10⟩ := execTaskRetire_ready hn hw hu
      ((mayRetire_iff s n sl).2 ⟨h0, hr⟩) h1 h2 h3 (fun e h => Or.inl (he e h))
    have hl : (!sl1.silent && (validSignals sl1.words).any (fun e => !(signalReaches s1 e))) = false := by
      rw [e7, Bool.and_eq_false_iff]
      right
      rw [List.any_eq_false]
      intro e h
      simp [signalReaches, e5, he e h]
    obtain ⟨f1, f2, f3, f4⟩ := finishTask_done e1 hl
    have hend := e2.trans f1
    have hst : ∀ x, getSlot (finishTask s1 n sl1) n = some x → x.state ≠ 1 := by
      intro x hx
      cases hsp : sl1.spawned with
      | true => rw [f3 hsp] at hx; cases hx
      | false =>
        obtain ⟨z, hz, hz5, -⟩ := f4 hsp
        rw [hz] at hx
        cases hx
        rw [hz5]; decide
    have hev := evalWaits_woken (f1.wf e3) (hend.unpoisoned e4 hst)
    have hcnt : ∀ k, getCounter (evalWaits (finishTask s1 n sl1)) k = getCounter (applyLocals s (validSignals sl.words)) k := by
      intro k
      rw [hev.counter]; unfold getCounter; rw [hend.counters]
    refine ⟨_, e0, ?_, ((applyLocals_below _ s).trans hend.below).trans (hev.ends n).below, fun k => ?_, fun h => ?_, fun h => ?_⟩
    · obtain ⟨m, hm⟩ := hev.rest
      rw [hm]
      show getObj (finishTask s1 n sl1) Key.tasksDone = _
      rw [f2, e6]
    · rw [hcnt, applyLocals_all _ _ he]
    · exact hev.gone (f3 (e9.trans h))
    · obtain ⟨x, hx, x1, x2, x3, x4⟩ := f4 (e9.trans h)
      obtain ⟨z, hz, hze⟩ := hev.forth hx
      obtain ⟨z1, z2, z3, z4, -⟩ := Slot.asleep_eq hze
      exact ⟨z, hz, z2.trans x1, z3.trans x2, (z4.trans x3).trans e8, (z1.trans x4).trans e7⟩
  · obtain ⟨s1, sl1, e0, e1, e2, e3, e4, e5, e6, e7, e8, e9, e10⟩ := execTaskRetire_ready hn hw hu
      ((mayRetire_iff s n sl).2 ⟨h0, hr⟩) h1 h2 h3 he
    have hl : (!sl1.silent && (validSignals sl1.words).any (fun e => !(signalReaches s1 e))) = true := by
      obtain ⟨e, hm, hd⟩ := hx
      have hmem := (he e hm).resolve_left hd
      rw [e7, e10, Bool.not_false, Bool.true_and, List.any_eq_true]
      refine ⟨e, hm, ?_⟩
      unfold isMember inPool at hmem
      simp only [signalReaches, isMember, inPool, e5]
      simp [hd, hmem]
    obtain ⟨f1, f2, f3⟩ := finishTask_lost e1 hl
    have hend := e2.trans f1
    have hst : ∀ x, getSlot (finishTask s1 n sl1) n = some x → x.state ≠ 1 := by
      intro x hx
      cases hsp : sl1.spawned with
      | true => rw [f2 hsp] at hx; cases hx
      | false =>
        obtain ⟨z, hz, hz6, -⟩ := f3 hsp
        rw [hz] at hx
        cases hx
        rw [hz6]; decide
    have hev := evalWaits_woken (f1.wf e3) (hend.unpoisoned e4 hst)
    refine ⟨_, e0, ⟨fun h => hev.gone (f2 (e9.trans h)), fun h => ?_⟩,
      ((applyLocals_below _ s).trans hend.below).trans (hev.ends n).below⟩
    obtain ⟨x, hx, x1, x2, x3⟩ := f3 (e9.trans h)
    obtain ⟨z, hz, hze⟩ := hev.forth hx
    obtain ⟨z1, z2, z3, -⟩ := Slot.asleep_eq hze
    exact ⟨z, hz, z2.trans x1, z3.trans x2, (z1.trans x3).trans e7⟩

end Sys2Proof.Machine
end

section
/-! SUPPORT. What sending on the links and across the Sill can change. -/

namespace Sys2Proof.Machine

/-! ### Sending on the links (R308, R310, R316) -/

/-- The states differ at most in counters of the Keeper, in the outputs and in the links. -/
def LinksOnly (s t : State) : Prop := ∃ ob o l, t = { s with keeper := { s.keeper with obj := ob }, out := o, links := l }

theorem LinksOnly.refl (s : State) : LinksOnly s s := ⟨_, _, _, rfl⟩

theorem LinksOnly.trans {a b c : State} (h : LinksOnly a b) (k : LinksOnly b c) : LinksOnly a c := by
  obtain ⟨_, _, _, rfl⟩ := h
  obtain ⟨_, _, _, rfl⟩ := k
  exact ⟨_, _, _, rfl⟩

theorem linksOnly_bump (s : State) (k n : Nat) : LinksOnly s (bump s k n) := ⟨_, _, _, rfl⟩
theorem linksOnly_emit (s : State) (o : Out) : LinksOnly s (emit s o) := ⟨_, _, _, rfl⟩
theorem linksOnly_setLink (s : State) (l : Nat) (k : Link) : LinksOnly s (setLink s l k) := ⟨_, _, _, rfl⟩

theorem linksOnly_sendFlit (s : State) (l : Nat) (p : Packet) : LinksOnly s (sendFlit s l p) :=
  .trans (.trans (.trans (linksOnly_setLink s l _) (linksOnly_bump _ _ _)) (linksOnly_bump _ _ _)) (linksOnly_emit _ _)

theorem linksOnly_sendBare (s : State) (l : Nat) (ty : PktType) : LinksOnly s (sendBare s l ty) :=
  .trans (linksOnly_setLink s l _) (linksOnly_emit _ _)

theorem linksOnly_pumpList (l : Nat) (pss : List (List Packet)) (s : State) (kept : List (List Packet)) :
    LinksOnly s (pumpList l pss s kept).1 := by
  induction pss generalizing s kept with
  | nil => exact .refl s
  | cons ps pss ih =>
    unfold pumpList
    split
    · exact ih s kept
    · split
      · exact .trans (foldl_rel .refl .trans _ (fun t q _ => linksOnly_sendFlit t l q) s) (ih _ kept)
      · exact ih s _

theorem linksOnly_pumpLink (s : State) (l : Nat) : LinksOnly s (pumpLink s l) := by
  have h := linksOnly_pumpList l (getLink s l).egress s []
  unfold pumpLink
  dsimp only
  split
  · exact .trans (h.trans (linksOnly_setLink _ _ _)) (foldl_rel .refl .trans _ (fun t _ _ => linksOnly_sendBare t l .null) _)
  · exact h.trans (linksOnly_setLink _ _ _)

theorem linksOnly_sendPacket (s : State) (half : Nat) (ps : List Packet) : LinksOnly s (sendPacket s half ps) := by
  unfold sendPacket
  split
  · exact .refl s
  · split
    · exact .refl s
    · rename_i p _ _ l other _
      dsimp only
      have h0 : LinksOnly s (if other = true then bump s Key.routeChoices 1 else s) := by
        split
        · exact linksOnly_bump _ _ _
        · exact .refl s
      generalize (if other = true then bump s Key.routeChoices 1 else s) = s0 at *
      refine .trans h0 (.trans ?_ (.trans (linksOnly_setLink _ _ _) (linksOnly_pumpLink _ _)))
      split
      · exact linksOnly_bump _ _ _
      · exact .refl s0

/-! ### Requests to peers (R307, R319) -/

/-- The states differ at most in counters of the Keeper, in the outputs, in the links and in the requests to peers. -/
def PeersOnly (s t : State) : Prop :=
  ∃ ob o l pl, t = { s with keeper := { s.keeper with obj := ob }, out := o, links := l, pool := pl }

theorem PeersOnly.refl (s : State) : PeersOnly s s := ⟨_, _, _, _, rfl⟩

theorem PeersOnly.trans {a b c : State} (h : PeersOnly a b) (k : PeersOnly b c) : PeersOnly a c := by
  obtain ⟨_, _, _, _, rfl⟩ := h
  obtain ⟨_, _, _, _, rfl⟩ := k
  exact ⟨_, _, _, _, rfl⟩

theorem LinksOnly.peers {s t : State} (h : LinksOnly s t) : PeersOnly s t := by
  obtain ⟨_, _, _, rfl⟩ := h
  exact ⟨_, _, _, _, rfl⟩

theorem peersOnly_withPool (s : State) (x : Pool) : PeersOnly s { s with pool := x } := ⟨_, _, _, _, rfl⟩

theorem peersOnly_launchReq (s : State) (r : PeerReq) : PeersOnly s (launchReq s r) :=
  .trans (peersOnly_withPool s _) (linksOnly_sendPacket _ _ _).peers

theorem peersOnly_pumpReqs (rs : List PeerReq) (s : State) (kept : List PeerReq) : PeersOnly s (pumpReqs rs s kept).1 := by
  induction rs generalizing s kept with
  | nil => exact .refl s
  | cons r rs ih =>
    unfold pumpReqs
    split
    · exact .trans (peersOnly_launchReq s r) (ih _ kept)
    · exact ih s _

theorem peersOnly_pumpPeers (s : State) : PeersOnly s (pumpPeers s) := by
  unfold pumpPeers
  exact .trans (.trans (peersOnly_withPool s _) (peersOnly_pumpReqs _ _ [])) (peersOnly_withPool _ _)

theorem peersOnly_peerRequests (s : State) (rs : List PeerReq) : PeersOnly s (peerRequests s rs) :=
  .trans (peersOnly_withPool s _) (peersOnly_pumpPeers _)

/-! ### Requests to the slices (R232) -/

/-- A request sent towards its home slice changes no slice but its inbox, and of the rest of the Cistern the Sill alone. -/
theorem sendReq_slices (s : State) (r : Req) :
    (∀ k, { getSlice (sendReq s r) k with inbox := [] } = { getSlice s k with inbox := [] }) ∧
      (sendReq s r).cistern.win = s.cistern.win := by
  unfold sendReq
  dsimp only
  split
  · refine ⟨fun k => ?_, rfl⟩
    by_cases hk : k = homeSlice s (r.sector * 32)
    · subst hk; rw [getSlice_setSlice_same]
    · rw [getSlice_setSlice_ne _ _ _ _ hk]
  · unfold sillSend
    dsimp only
    split
    · exact ⟨fun _ => rfl, rfl⟩
    · exact ⟨fun _ => rfl, rfl⟩

theorem sendReq_cores (s : State) (r : Req) : (sendReq s r).cores = s.cores :=
  (congrArg State.cores (sendReq_rest s r) : _)

end Sys2Proof.Machine
end


section
/-! O52: a firmware update takes a free value for its event (R383), which the statement's frame leaves out. -/

namespace Sys2Proof.Machine

/-- SVC_ARGS of an update of the Keeper (KIND 0) with an image of 32 bytes at address 0 of this device (R411). -/
def keeperUpdateArgs : List Byte := leBytes 4 0 ++ leBytes 4 32 ++ leBytes 8 0

/-- A device in service with one stack in the west and these arguments in SVC_ARGS. -/
def readyForUpdate : State :=
  { State.reset with
    boot := { State.reset.boot with powered := true, keeperRuns := true, stage := 10, done := 11 }
    reservoir := { Reservoir.unmapped with west := [0] }
    keeper := { Keeper.clear with objB := [(Key.svcArgs 3, keeperUpdateArgs)] } }

/-- The write that starts the update. -/
def startsUpdate : ObjWrite := { txn := 0, key := Key.svcGo 3, val := .num 1 }

theorem startsUpdate_goes : Goes readyForUpdate startsUpdate 4 := by
  refine ⟨⟨rfl, rfl, rfl, by decide +kernel, rfl, by decide +kernel, ?_⟩, by decide +kernel⟩
  exact ⟨(objRow (Key.svcGo 3)).get (by decide +kernel), by simp, by decide +kernel, by decide +kernel, by decide +kernel,
    by decide +kernel, by decide +kernel⟩

/-- The event of the operation's start took one free value. -/
theorem startsUpdate_takes_free : (runWrite readyForUpdate startsUpdate).free = readyForUpdate.free + 1 := by
  decide +kernel

/-- Refutes O52: a FIRMWARE_UPDATE whose source lies on this device begins with an event frame, and the frame's code is a free
value, so that the step takes one; the statement has it change nothing but the Keeper, the outputs and the job. -/
theorem not_serviceOperations : ¬ Obligations.ServiceOperations := by
  unfold Obligations.ServiceOperations
  intro h
  obtain ⟨hupdate, -⟩ := h
  obtain ⟨-, -, hhere⟩ := hupdate readyForUpdate startsUpdate startsUpdate_goes
  obtain ⟨t, s1, hexec, hframe, ht, -⟩ :=
    (hhere (by decide +kernel) (fun _ => by decide +kernel) (by decide +kernel)).2 (by decide +kernel) (by decide +kernel)
  have hrun : t = runWrite readyForUpdate startsUpdate := (Host.Outcome.next.inj hexec).symm
  have hfree : t.free = readyForUpdate.free := by
    rw [ht, startJob_free]
    have hsame := congrArg State.free hframe
    exact hsame
  rw [hrun, startsUpdate_takes_free] at hfree
  exact absurd hfree (Nat.succ_ne_self _)

end Sys2Proof.Machine
end


section
/-! O54: a defect record holds 32 bits of its unit's number (R407), so that a failing core 2^32 is listed as core 0. -/

namespace Sys2Proof.Machine

/-! ### The choice of cores (R14) -/

theorem mem_of_mem_dropFromRow {half row p : Nat} {on : List Nat} (h : p ∈ dropFromRow half row on) : p ∈ on := by
  unfold dropFromRow at h
  split at h
  · exact h
  · exact List.mem_of_mem_filter h

theorem mem_of_mem_dropSurplus {half p : Nat} (n : Nat) :
    ∀ {row want : Nat} {on : List Nat}, p ∈ dropSurplus half n row want on → p ∈ on := by
  induction n with
  | zero => exact fun h => h
  | succ n ih =>
    intro row want on h
    unfold dropSurplus at h
    split at h
    · exact h
    · exact mem_of_mem_dropFromRow (ih h)

/-- R14 enables good positions only. -/
theorem mem_of_mem_chooseOf {share p : Nat} {west east : List Nat} (h : p ∈ chooseOf share west east) : p ∈ west ∨ p ∈ east := by
  rcases List.mem_append.mp h with h | h
  · exact .inl (mem_of_mem_dropSurplus _ h)
  · exact .inr (mem_of_mem_dropSurplus _ h)

theorem not_bad_of_mem_goodPositions {s : State} {half p : Nat} (h : p ∈ goodPositions s half) : p ∉ badPositions s := by
  simpa using (List.mem_filter.mp h).2

theorem coreState_setCoreState (s : State) (p v q : Nat) :
    coreState (setCoreState s p v) q = if q = p then v else coreState s q := by
  unfold coreState setCoreState
  split
  · next h => rw [h]; exact mapGet_mapSet_same ..
  · next h => exact mapGet_mapSet_ne _ _ _ _ _ h

/-- A state written to each position of a list is that of its positions. -/
theorem coreState_foldl_setCoreState (f : Nat → Nat) {q : Nat} :
    ∀ (ps : List Nat) (s : State), coreState (ps.foldl (fun st p => setCoreState st p (f p)) s) q =
      if q ∈ ps then f q else coreState s q := by
  intro ps
  induction ps with
  | nil => simp
  | cons p ps ih =>
    intro s
    rw [List.foldl_cons, ih, coreState_setCoreState]
    by_cases hq : q ∈ ps
    · simp [hq]
    · by_cases hp : q = p <;> simp [hq, hp]

/-- The state that the choice of cores gives a position. -/
def chosenState (s : State) (p : Nat) : Nat :=
  if (chooseOf (tierCores s.boot.tier / 2) (goodPositions s 0) (goodPositions s 1)).contains p then 1
  else if (badPositions s).contains p then 4 else 0

theorem chooseEnabled_keeper (s : State) :
    (chooseEnabled s).keeper = (positions.foldl (fun st p => setCoreState st p (chosenState s p)) s).keeper := by
  unfold chooseEnabled chosenState
  dsimp only

/-- A bad position reads as retired once the enabled positions have been chosen. -/
theorem coreState_chooseEnabled_of_bad {s : State} {p : Nat} (hp : p < 544) (hbad : p ∈ badPositions s) :
    coreState (chooseEnabled s) p = 4 := by
  have hoff : p ∉ chooseOf (tierCores s.boot.tier / 2) (goodPositions s 0) (goodPositions s 1) := fun h =>
    (mem_of_mem_chooseOf h).elim (fun h => not_bad_of_mem_goodPositions h hbad) (fun h => not_bad_of_mem_goodPositions h hbad)
  have hfold := coreState_foldl_setCoreState (chosenState s) (q := p) positions s
  have hpos : p ∈ positions := List.mem_range.mpr hp
  rw [if_pos hpos] at hfold
  unfold coreState at hfold ⊢
  rw [chooseEnabled_keeper, hfold]
  simp [chosenState, hoff, hbad]

/-! ### The end of a stage leaves the positions' states -/

theorem logged_sendReport (s : State) (n : Nat) : Logged s (sendReport s n) := by
  unfold sendReport
  dsimp only
  split
  · exact logged_pushEvent _ _ _
  · exact (logged_countCode _ _).trans (logged_pushEvent _ _ _)

theorem sendReport_keeper_cores (s : State) (n : Nat) : (sendReport s n).keeper.cores = s.keeper.cores := by
  obtain ⟨_, _, _, _, _, h⟩ := logged_sendReport s n
  rw [h]

theorem sendHeld_keeper_cores (s : State) : (sendHeld s).keeper.cores = s.keeper.cores :=
  foldl_keeps (fun t => t.keeper.cores) s.boot.held (fun t n _ => sendReport_keeper_cores t n) s

theorem closeStage_keeper_cores (s : State) (n outcome code : Nat) (o : StageOut) :
    (closeStage s n outcome code o).keeper.cores = s.keeper.cores := by
  have hstore : ∀ a b c, (storeReport s n outcome code a b c o).keeper.cores = s.keeper.cores := fun _ _ _ => rfl
  unfold closeStage
  dsimp only
  by_cases hup : netUp (storeReport s n outcome code (if n ≤ 1 then s.boot.began - s.boot.romBase else s.boot.beganTb)
      (if n ≤ 1 then romCount s else stamp s) ((now s - s.boot.began) / 1000) o) = true
  · rw [if_pos hup, sendReport_keeper_cores, sendHeld_keeper_cores, hstore]
  · rw [if_neg hup]
    exact hstore _ _ _

theorem coreState_endStage (s : State) (n code : Nat) (o : StageOut) (p : Nat) :
    coreState (endStage s n code o) p = coreState s p :=
  congrArg (fun m => mapGet 0 m p) (closeStage_keeper_cores s n (if code = 0 then 0 else 1) code o)

/-! ### The refutation -/

/-- A licensed device of tier 3 at its stage S5. -/
def atCoreTests : State :=
  { State.reset with boot := { State.reset.boot with powered := true, keeperRuns := true, tier := 3, stage := 5, done := 5 } }

/-- The only core that the tests of S5 report: its number does not fit the UNIT field of a record. -/
def wrappingCore : List Nat := [2 ^ 32]

theorem atCoreTests_inStage : InStage atCoreTests 5 := ⟨rfl, rfl, rfl, rfl, rfl, rfl⟩

theorem zero_not_bad : 0 ∉ badPositions atCoreTests := by decide +kernel

/-- The record of core 2^32 names position 0. -/
theorem zero_bad_after_tests :
    0 ∈ badPositions { wrappingCore.foldl failSelftest atCoreTests with cores := [] } := by decide +kernel

theorem wrappingCore_fresh :
    wrappingCore.dedup.filter (fun p => !((badPositions atCoreTests).contains p)) = wrappingCore := by decide +kernel

/-- S5 with a failing core 2^32 retires position 0. -/
theorem stageS5_retires_zero {t : State} (h : exec (.stageS5 wrappingCore) atCoreTests = .next t) : coreState t 0 = 4 := by
  have hexec : execStageS5 wrappingCore atCoreTests = .next t := h
  unfold execStageS5 at hexec
  rw [if_neg (by decide +kernel)] at hexec
  dsimp only at hexec
  rw [wrappingCore_fresh] at hexec
  rw [← Host.Outcome.next.inj hexec, coreState_endStage]
  exact coreState_chooseEnabled_of_bad (by decide) zero_bad_after_tests

/-- Refutes O54: STAGE_S5 with a failing core 2^32 retires position 0, which neither was bad nor failed. -/
theorem not_stagesOfAStart : ¬ Obligations.StagesOfAStart := by
  unfold Obligations.StagesOfAStart
  intro h
  obtain ⟨-, -, hcores, -⟩ := h
  obtain ⟨t, d, entries, hexec, -, hchosen, -⟩ := (hcores atCoreTests wrappingCore).2 atCoreTests_inStage
  have hzero := hchosen 0 (by decide)
  rw [stageS5_retires_zero hexec, if_neg (c := 0 ∈ badPositions atCoreTests ∨ 0 ∈ wrappingCore)
    (by simp [zero_not_bad, wrappingCore])] at hzero
  split at hzero <;> exact absurd hzero (by decide)

end Sys2Proof.Machine
end


section
/-! SUPPORT for O26: the core and the slot that R53 and R73 pick, the staging units of a new group, and what placing and
removing a group leave alone. -/

namespace Sys2Proof.Machine

/-! ### The core of the next group (R53) -/

theorem betterCore_asymm {s : State} {home : Nat} {resident : Nat → Nat} {a b : Nat}
    (h : betterCore s home resident a b = true) : betterCore s home resident b a = false := by
  unfold betterCore at h ⊢
  dsimp only at h ⊢
  generalize (if posHalf a = home then 0 else 1) = ka at *
  generalize (if posHalf b = home then 0 else 1) = kb at *
  grind

theorem betterCore_irrefl (s : State) (home : Nat) (resident : Nat → Nat) (a : Nat) : betterCore s home resident a a = false := by
  simp [betterCore]

/-- One step of the search for the best core. -/
def keepBetter (s : State) (home : Nat) (resident : Nat → Nat) (acc : Option Nat) (p : Nat) : Option Nat :=
  match acc with
  | none => some p
  | some q => if betterCore s home resident p q then some p else some q

theorem bestCore_eq (s : State) (home : Nat) (resident : Nat → Nat) (ps : List Nat) :
    bestCore s home resident ps = ps.foldl (keepBetter s home resident) none := rfl

/-- A core that comes before every other of the list, once found, is kept. -/
theorem foldl_keepBetter_best {s : State} {home : Nat} {resident : Nat → Nat} {p : Nat} :
    ∀ {ps : List Nat}, (∀ q ∈ ps, q ≠ p → betterCore s home resident p q = true) →
      ps.foldl (keepBetter s home resident) (some p) = some p := by
  intro ps
  induction ps with
  | nil => exact fun _ => rfl
  | cons q ps ih =>
    intro hbest
    have hq : betterCore s home resident q p = false := by
      by_cases he : q = p
      · rw [he]; exact betterCore_irrefl ..
      · exact betterCore_asymm (hbest q List.mem_cons_self he)
    rw [List.foldl_cons, keepBetter, hq]
    exact ih (fun r hr => hbest r (List.mem_cons_of_mem q hr))

/-- A core that comes before every other of the list is the list's best. -/
theorem foldl_keepBetter_of_best {s : State} {home : Nat} {resident : Nat → Nat} {p : Nat} :
    ∀ {ps : List Nat} {acc : Option Nat}, p ∈ ps → (∀ q ∈ ps, q ≠ p → betterCore s home resident p q = true) →
      (∀ q ∈ acc, q ≠ p → betterCore s home resident p q = true) → ps.foldl (keepBetter s home resident) acc = some p := by
  intro ps
  induction ps with
  | nil => exact fun h => absurd h List.not_mem_nil
  | cons q ps ih =>
    intro acc hp hbest hacc
    rw [List.foldl_cons]
    have hrest : ∀ r ∈ ps, r ≠ p → betterCore s home resident p r = true := fun r hr => hbest r (List.mem_cons_of_mem q hr)
    by_cases hq : q = p
    · subst hq
      have hstep : keepBetter s home resident acc q = some q := by
        cases acc with
        | none => rfl
        | some r =>
          by_cases hr : r = q
          · subst hr
            simp [keepBetter]
          · simp [keepBetter, hacc r rfl hr]
      rw [hstep]
      exact foldl_keepBetter_best hrest
    · refine ih ((List.mem_cons.mp hp).resolve_left (Ne.symm hq)) hrest ?_
      intro r hr hne
      cases acc with
      | none =>
        rw [keepBetter, Option.mem_some_iff] at hr
        exact hr ▸ hbest q List.mem_cons_self hq
      | some x =>
        rw [keepBetter] at hr
        split at hr
        · rw [Option.mem_some_iff] at hr
          exact hr ▸ hbest q List.mem_cons_self hq
        · exact hacc r hr hne

/-- R53 picks the best core that the group fits. -/
theorem chooseCore_of_bestFit {s : State} {n : Nat} {sl : Slot} {p : Nat} (h : BestFit s n sl p) : chooseCore s n sl = some p := by
  obtain ⟨hopen, hfits, hbest⟩ := h
  unfold chooseCore
  dsimp only
  rw [bestCore_eq]
  refine foldl_keepBetter_of_best (List.mem_filter.mpr ⟨hopen, hfits⟩) (fun q hq hne => ?_) (fun q hq => by cases hq)
  exact hbest q (List.mem_filter.mp hq).1 hne (List.mem_filter.mp hq).2

/-! ### The group slot (R73) -/

/-- The groups of a pipeline that has no free slot are sixteen or more. -/
theorem pipeline_full {used : List Nat} {q : Nat} (hfull : ∀ i < 16, 4 * i + q ∈ used) (hq : q < 4) :
    16 ≤ (used.filter (fun g => g % 4 == q)).length := by
  have hsub : (List.range 16).map (fun i => 4 * i + q) ⊆ used.filter (fun g => g % 4 == q) := by
    intro g hg
    obtain ⟨i, hi, rfl⟩ := List.mem_map.mp hg
    refine List.mem_filter.mpr ⟨hfull i (List.mem_range.mp hi), ?_⟩
    simp only [beq_iff_eq]
    omega
  have hnodup : ((List.range 16).map (fun i => 4 * i + q)).Nodup :=
    List.nodup_range.map (fun a b h => by omega)
  have := (List.subperm_of_subset hnodup hsub).length_le
  simpa using this

/-- The four pipelines share the groups of a core. -/
theorem sum_pipelines (used : List Nat) :
    (used.filter (fun g => g % 4 == 0)).length + (used.filter (fun g => g % 4 == 1)).length +
      (used.filter (fun g => g % 4 == 2)).length + (used.filter (fun g => g % 4 == 3)).length = used.length := by
  induction used with
  | nil => rfl
  | cons g used ih =>
    have hg : g % 4 = 0 ∨ g % 4 = 1 ∨ g % 4 = 2 ∨ g % 4 = 3 := by omega
    rcases hg with h | h | h | h <;> simp [h] <;> omega

/-- The pipeline that takes the next group has no more groups than any other. -/
theorem least_of_foldl {load : Nat → Nat} {q : Nat}
    (h : [1, 2, 3].foldl (fun best q => if load q < load best then q else best) 0 = q) :
    q < 4 ∧ load q ≤ load 0 ∧ load q ≤ load 1 ∧ load q ≤ load 2 ∧ load q ≤ load 3 := by
  simp only [List.foldl_cons, List.foldl_nil] at h
  grind

/-- With a slot free in the core, the slot that R73 picks is free. -/
theorem chooseGroupSlot_free {c : Pos} (h : (coreGroups c).length < 64) : chooseGroupSlot c ∉ (coreGroups c).map (·.1) := by
  unfold chooseGroupSlot
  dsimp only
  generalize hused : (coreGroups c).map (·.1) = used
  have hlen : used.length < 64 := by rw [← hused, List.length_map]; exact h
  generalize hq : [1, 2, 3].foldl (fun best q =>
    if (used.filter (fun g => g % 4 == q)).length < (used.filter (fun g => g % 4 == best)).length then q else best) 0 = q
  obtain ⟨hlt, h0, h1, h2, h3⟩ := least_of_foldl (load := fun q => (used.filter (fun g => g % 4 == q)).length) hq
  cases hfind : ((List.range 16).map (fun i => 4 * i + q)).find? (fun g => !(used.contains g)) with
  | some g =>
    have := List.find?_some hfind
    simpa using this
  | none =>
    have hfull : ∀ i < 16, 4 * i + q ∈ used := by
      intro i hi
      have := List.find?_eq_none.mp hfind (4 * i + q) (List.mem_map.mpr ⟨i, List.mem_range.mpr hi, rfl⟩)
      simpa using this
    have := pipeline_full hfull hlt
    have := sum_pipelines used
    omega

/-- A value that a table of optional entries gives is listed. -/
theorem mem_of_mapGet_some {α : Type} {m : Sparse (Option α)} {k : Nat} {x : α} (h : mapGet none m k = some x) : (k, some x) ∈ m := by
  induction m with
  | nil => cases h
  | cons e m ih =>
    obtain ⟨j, w⟩ := e
    rw [mapGet] at h
    split at h
    · next hk => rw [hk, h]; exact List.mem_cons_self
    · exact List.mem_cons_of_mem _ (ih h)

theorem mem_coreGroups {s : State} {p g : Nat} {gr : Group} (h : getGroup s p g = some gr) : (g, gr) ∈ coreGroups (getPos s p) :=
  List.mem_filterMap.mpr ⟨(g, some gr), mem_of_mapGet_some h, rfl⟩

theorem getGroup_eq_none_of_not_mem {s : State} {p g : Nat} (h : g ∉ (coreGroups (getPos s p)).map (·.1)) :
    getGroup s p g = none := by
  cases hg : getGroup s p g with
  | none => rfl
  | some gr => exact absurd (List.mem_map.mpr ⟨(g, gr), mem_coreGroups hg, rfl⟩) h

/-! ### The staging units of a new group (R72, R75, R76) -/

theorem pick_mem (i : Nat) (v : Nat) (vs : List Nat) : (v :: vs).getD (i % (v :: vs).length) v ∈ v :: vs := by
  have hi : i % (v :: vs).length < (v :: vs).length := Nat.mod_lt _ (by simp)
  rw [List.getD_eq_getElem _ _ hi]
  exact List.getElem_mem hi

theorem mem_of_mem_pickUnits {seed u : Nat} (n : Nat) : ∀ {us : List Nat}, u ∈ pickUnits seed n us → u ∈ us := by
  induction n with
  | zero => exact fun h => absurd h List.not_mem_nil
  | succ n ih =>
    intro us h
    cases us with
    | nil => exact h
    | cons v vs =>
      rcases List.mem_cons.mp h with h | h
      · rw [h]; exact pick_mem _ _ _
      · exact List.mem_of_mem_erase (ih h)

theorem nodup_pickUnits {seed : Nat} (n : Nat) : ∀ {us : List Nat}, us.Nodup → (pickUnits seed n us).Nodup := by
  induction n with
  | zero => exact fun _ => List.nodup_nil
  | succ n ih =>
    intro us h
    cases us with
    | nil => exact List.nodup_nil
    | cons v vs =>
      refine List.nodup_cons.mpr ⟨fun hm => ?_, ih (h.erase _)⟩
      exact (List.Nodup.mem_erase_iff h).mp (mem_of_mem_pickUnits n hm) |>.1 rfl

theorem freeUnits_nodup (c : Pos) : (freeUnits c).Nodup := List.nodup_range.filter _

/-- Where a byte of the position's staging memory lies in the view of a group with these units. -/
def viewKey (units : List Nat) (k : Nat) : Option Nat := (units.idxOf? (k / 256)).map (fun i => i * 256 + k % 256)

theorem stgView_eq (mem : Sparse Byte) (units : List Nat) :
    stgView mem units = mem.foldl (fun m e => match viewKey units e.1 with
      | some k => mapSet 0#8 m k e.2
      | none => m) [] := by
  unfold stgView viewKey
  congr 1
  funext m e
  cases units.idxOf? (e.1 / 256) <;> rfl

/-- The byte of the `i`-th unit lies in the view where the unit stands, and no other byte does. -/
theorem viewKey_eq_iff {units : List Nat} (hnodup : units.Nodup) {i u o : Nat} (hu : units[i]? = some u) (ho : o < 256) (k : Nat) :
    viewKey units k = some (i * 256 + o) ↔ k = u * 256 + o := by
  obtain ⟨hi, hui⟩ := List.getElem?_eq_some_iff.mp hu
  unfold viewKey
  rw [Option.map_eq_some_iff]
  constructor
  · rintro ⟨j, hj, he⟩
    obtain ⟨hj', hget⟩ : ∃ h : j < units.length, units[j] = k / 256 := by
      rw [List.idxOf?_eq_some_iff] at hj
      exact ⟨hj.1, by simpa using hj.2.1⟩
    have hji : j = i := by omega
    subst hji
    rw [hui] at hget
    omega
  · rintro rfl
    refine ⟨i, ?_, by omega⟩
    have hdiv : (u * 256 + o) / 256 = u := by omega
    rw [hdiv, List.idxOf?_eq_some_iff]
    refine ⟨hi, by simp [hui], fun j hj => ?_⟩
    have : units[j] ≠ units[i] := fun he => absurd ((List.Nodup.getElem_inj_iff hnodup).mp he) (by omega)
    simpa [hui] using this

/-- A fold that writes the bytes of a canonical memory into a view gives each byte of it its place. -/
theorem mapGet_foldl_view {units : List Nat} (hnodup : units.Nodup) {i u o : Nat} (hu : units[i]? = some u) (ho : o < 256) :
    ∀ (mem acc : Sparse Byte), mapWf 0#8 mem = true →
      mapGet 0#8 (mem.foldl (fun m e => match viewKey units e.1 with
        | some k => mapSet 0#8 m k e.2
        | none => m) acc) (i * 256 + o) =
      if mapGet 0#8 mem (u * 256 + o) = 0#8 then mapGet 0#8 acc (i * 256 + o) else mapGet 0#8 mem (u * 256 + o) := by
  intro mem
  induction mem with
  | nil => intro acc _; simp
  | cons e mem ih =>
    obtain ⟨k, v⟩ := e
    intro acc hwf
    simp only [mapWf, Bool.and_eq_true, decide_eq_true_eq] at hwf
    obtain ⟨⟨hv, habove⟩, hmem⟩ := hwf
    rw [List.foldl_cons, ih _ hmem]
    by_cases hk : u * 256 + o = k
    · have habsent : mapGet 0#8 mem (u * 256 + o) = 0#8 := by
        by_contra hne
        have := (mem_iff_mapGet hmem (u * 256 + o) _).mpr ⟨hne, rfl⟩
        exact absurd (mapAbove_lt habove hmem this) (by omega)
      have hkey := (viewKey_eq_iff hnodup hu ho k).mpr hk.symm
      rw [habsent, if_pos rfl]
      simp [hkey, mapGet, hk, hv]
    · have hother : mapGet 0#8 (match viewKey units k with
          | some j => mapSet 0#8 acc j v
          | none => acc) (i * 256 + o) = mapGet 0#8 acc (i * 256 + o) := by
        split
        · next j hj =>
          refine mapGet_mapSet_ne _ _ _ _ _ (fun he => hk ?_)
          exact ((viewKey_eq_iff hnodup hu ho k).mp (he ▸ hj)).symm
        · rfl
      simp only [hother, mapGet, if_neg hk]

/-- A group sees in its units what their last user left there (R75, R76). -/
theorem stgByte_stgView {mem : Sparse Byte} (hwf : mapWf 0#8 mem = true) {units : List Nat} (hnodup : units.Nodup) {i u o : Nat}
    (hu : units[i]? = some u) (ho : o < 256) : stgByte (stgView mem units) (i * 256 + o) = mapGet 0#8 mem (u * 256 + o) := by
  unfold stgByte
  rw [stgView_eq, mapGet_foldl_view hnodup hu ho mem [] hwf]
  split
  · next h => rw [h]; rfl
  · rfl

end Sys2Proof.Machine
end


section
/-! O26: groups are placed and leave (R53, R73, R76, R77). -/

namespace Sys2Proof.Machine

/-! ### Placing a group -/

/-- The staging units that the next group of a task takes on a core. -/
def placedUnits (s : State) (sl : Slot) (p : Nat) : List Nat :=
  pickUnits s.free (recStaging sl.words) (freeUnits (getPos s p))

/-- The group that is placed. -/
def placedGroup (s : State) (n : Nat) (sl : Slot) (p : Nat) : Group :=
  newGroup n sl.nextGroup sl.words (placedUnits s sl p) (stgView (getPos s p).stgMem (placedUnits s sl p))

/-- The task once its next group has been placed. -/
def placedSlot (s : State) (sl : Slot) (p : Nat) : Slot :=
  let next := { sl with nextGroup := sl.nextGroup + 1, reserved := sl.reserved.drop 1 }
  if sl.nextGroup == 0 then
    { next with state := if coreState s p = 1 && !(classShut s sl.words) then 3 else sl.state, runStart := now s,
                peersWritten := [], peerUser := false, windowUser := false }
  else next

/-- Placing a group changes its place, its task's slot, and counters; the first one also drops the task's holds. -/
theorem placeGroup_eq (s : State) (n : Nat) (sl : Slot) (p : Nat) :
    ∃ k c z, placeGroup s n sl p =
        { setSlot (setGroup s p (chooseGroupSlot (getPos s p)) (some (placedGroup s n sl p))) n (some (placedSlot s sl p)) with
          free := s.free + 1, keeper := k, cistern := c, sluice := z } ∧
      (sl.nextGroup ≠ 0 → c = s.cistern ∧ z = s.sluice) := by
  unfold placeGroup placedSlot
  cases h : sl.nextGroup == 0
  · simp only [Bool.false_eq_true, if_false]
    exact ⟨_, _, _, rfl, fun _ => ⟨rfl, rfl⟩⟩
  · simp only [if_true]
    exact ⟨_, _, _, rfl, fun hne => absurd (eq_of_beq h) hne⟩

/-- The step that GROUP_PLACE takes where the first task in order is not COSCHED and fits a core of the half. -/
theorem execGroupPlace_eq {s : State} {half n p : Nat} {sl : Slot} {rest : List (Nat × Slot)} (hserv : inService s = true)
    (hreset : inCisReset s = false) (horder : dispatchOrder s = (n, sl) :: rest) (hco : recCosched sl.words = false)
    (hcore : chooseCore s n sl = some p) (hhalf : posHalf p = half) :
    ∃ u, (u = s ∨ u = bump s Key.schedTiebreaks 1) ∧ exec (.groupPlace half) s = .next (placeGroup u n sl p) := by
  have hunfit : unfit s sl.words = false := by simp [unfit, hco]
  have hfirst : firstFitting s ((n, sl) :: rest) = some (n, sl, p) := by
    simp [firstFitting, hco, nextPlace, hcore]
  refine ⟨if (dispatchOrder s).any (fun e => e.1 != n && dispatchKeys s e.2 sl == .eq) then bump s Key.schedTiebreaks 1 else s,
    by split <;> simp, ?_⟩
  show execGroupPlace half s = _
  unfold execGroupPlace
  simp only [hserv, hreset, Bool.not_true, Bool.or_self, Bool.false_eq_true, if_false]
  split
  · next he => rw [he] at horder; cases horder
  · next m tl rest' he =>
    rw [he] at horder
    cases horder
    simp only [hunfit, Bool.false_and, Bool.false_eq_true, if_false, hfirst, hco, hhalf, ne_eq, not_true_eq_false, he]

theorem execGroupPlace_nothing {s : State} (half : Nat) (h : inService s = false ∨ inCisReset s = true ∨ dispatchOrder s = []) :
    exec (.groupPlace half) s = .next s := by
  show execGroupPlace half s = _
  unfold execGroupPlace
  rcases h with h | h | h
  · simp [h]
  · simp [h]
  · simp [h]

/-- What GROUP_PLACE leaves, whether or not it counted a tie (R52). -/
theorem placeGroup_tie_eq {s u : State} (hu : u = s ∨ u = bump s Key.schedTiebreaks 1) (n : Nat) (sl : Slot) (p : Nat) :
    ∃ k c z, placeGroup u n sl p =
        { setSlot (setGroup s p (chooseGroupSlot (getPos s p)) (some (placedGroup s n sl p))) n (some (placedSlot s sl p)) with
          free := s.free + 1, keeper := k, cistern := c, sluice := z } ∧
      (sl.nextGroup ≠ 0 → c = s.cistern ∧ z = s.sluice) := by
  rcases hu with rfl | rfl
  · exact placeGroup_eq _ n sl p
  · obtain ⟨k, c, z, h, hsame⟩ := placeGroup_eq (bump s Key.schedTiebreaks 1) n sl p
    exact ⟨k, c, z, h.trans rfl, hsame⟩

theorem basin_setGroup (s : State) (p g q : Nat) (x : Option Group) : (getPos (setGroup s p g x) q).basin = (getPos s q).basin := by
  by_cases h : q = p
  · rw [h, setGroup, getPos_setPos_same]
  · rw [setGroup, getPos_setPos_ne _ _ _ _ h]

theorem placedSlot_nextGroup (s : State) (sl : Slot) (p : Nat) : (placedSlot s sl p).nextGroup = sl.nextGroup + 1 := by
  unfold placedSlot
  dsimp only
  split <;> rfl

theorem placedSlot_words (s : State) (sl : Slot) (p : Nat) : (placedSlot s sl p).words = sl.words := by
  unfold placedSlot
  dsimp only
  split <;> rfl

theorem placedSlot_first {s : State} {sl : Slot} {p : Nat} (h : sl.nextGroup = 0) : (placedSlot s sl p).runStart = now s ∧
    (coreState s p = 1 → classShut s sl.words = false → (placedSlot s sl p).state = 3) := by
  unfold placedSlot
  simp only [h, beq_self_eq_true, if_true]
  exact ⟨trivial, fun hc hs => by simp [hc, hs]⟩

theorem placedSlot_later {s : State} {sl : Slot} {p : Nat} (h : sl.nextGroup ≠ 0) : (placedSlot s sl p).state = sl.state := by
  unfold placedSlot
  simp only [beq_iff_eq, h, if_false]

/-! ### Removing a group -/

theorem getPos_removeGroup_ne {s : State} {p q gs : Nat} {g : Group} (h : q ≠ p) : getPos (removeGroup s p gs g) q = getPos s q :=
  getPos_setPos_ne _ _ _ _ h

/-- A position without a group, as its late list, its groups, its Basin and its lanes show it. -/
theorem getPos_removeGroup_same (s : State) (p gs : Nat) (g : Group) :
    (getPos (removeGroup s p gs g) p).groups = mapSet none (getPos s p).groups gs none ∧
      (getPos (removeGroup s p gs g) p).late =
        (getPos s p).late ++ (g.mem.filter (fun m => !(returnsData m))).map (fun m => (g.slot, m)) ∧
      (getPos (removeGroup s p gs g) p).latePubs = (getPos s p).latePubs ++ g.pubs.map (fun u => (g.slot, u)) ∧
      (getPos (removeGroup s p gs g) p).basin = (getPos s p).basin ∧ (getPos (removeGroup s p gs g) p).lanes = (getPos s p).lanes := by
  unfold removeGroup
  dsimp only
  rw [getPos_setPos_same]
  split <;> exact ⟨rfl, rfl, rfl, rfl, rfl⟩

theorem getGroup_removeGroup_same (s : State) (p gs : Nat) (g : Group) : getGroup (removeGroup s p gs g) p gs = none := by
  unfold getGroup
  rw [(getPos_removeGroup_same s p gs g).1]
  exact mapGet_mapSet_same _ _ _ _

theorem getGroup_removeGroup_ne {s : State} {p gs q h : Nat} {g : Group} (hne : ¬(q = p ∧ h = gs)) :
    getGroup (removeGroup s p gs g) q h = getGroup s q h := by
  unfold getGroup
  by_cases hq : q = p
  · subst hq
    rw [(getPos_removeGroup_same s q gs g).1]
    exact mapGet_mapSet_ne _ _ _ _ _ (fun he => hne ⟨rfl, he⟩)
  · rw [getPos_removeGroup_ne hq]

/-- Settling the draining of a task changes its slot alone, from state 4 to state 3. -/
theorem settleDraining_eq (s : State) (n : Nat) : settleDraining s n = s ∨
    ∃ sl, getSlot s n = some sl ∧ sl.state = 4 ∧ settleDraining s n = setSlot s n (some { sl with state := 3 }) := by
  unfold settleDraining
  split
  · exact .inl rfl
  · next sl hsl =>
    split
    · next h => exact .inr ⟨sl, hsl, h.1, rfl⟩
    · exact .inl rfl

theorem laneLost_congr {c d : Pos} (h : c.lanes = d.lanes) : laneLost c = laneLost d := by
  rw [laneLost, laneLost, h]

/-- The task counts the group that has left, and may leave state 4 with it (R64). -/
theorem countExit_eq {u : State} {n : Nat} {sl : Slot} (hsl : getSlot u n = some sl) (index : Nat) :
    ∃ m y, settleDraining (modSlot u n (fun sl => { sl with exited := sl.exited + 1, tbar := sl.tbar.filter (· != index) })) n =
        { u with fountain := { u.fountain with slots := m } } ∧ mapGet none m n = some y ∧ y.exited = sl.exited + 1 ∧
      (y.state = sl.state ∨ sl.state = 4 ∧ y.state = 3) ∧ ∀ k, k ≠ n → mapGet none m k = getSlot u k := by
  have hmod : modSlot u n (fun sl => { sl with exited := sl.exited + 1, tbar := sl.tbar.filter (· != index) }) =
      setSlot u n (some { sl with exited := sl.exited + 1, tbar := sl.tbar.filter (· != index) }) := by
    simp only [modSlot, hsl]
  rw [hmod]
  rcases settleDraining_eq (setSlot u n (some { sl with exited := sl.exited + 1, tbar := sl.tbar.filter (· != index) })) n with
    hd | ⟨y, hy, hstate, hd⟩
  · exact ⟨_, _, hd, mapGet_mapSet_same _ _ _ _, rfl, .inl rfl, fun k hk => mapGet_mapSet_ne _ _ _ _ _ hk⟩
  · rw [getSlot_setSlot_same, Option.some_inj] at hy
    subst hy
    exact ⟨_, _, hd, mapGet_mapSet_same _ _ _ _, rfl, .inr ⟨hstate, rfl⟩,
      fun k hk => (mapGet_mapSet_ne _ _ _ _ _ hk).trans (getSlot_setSlot_ne _ _ _ _ hk)⟩

theorem retireIfEmpty_sound {s : State} {p : Nat} (h : laneLost (getPos s p) = false) : retireIfEmpty s p = s := by
  unfold retireIfEmpty
  simp [h]

/-- Work that has started is work of an engine. -/
theorem endedBusy_of_idle {c : Pos} {g : Nat} (harr : arrayBusy c g = false) (heng : engineBusy c g = false) :
    endedBusy c g = false := by
  simp only [arrayBusy, engineBusy, endedBusy, List.any_eq_false, Bool.or_eq_false_iff] at *
  grind

/-- A group that has exited, or has been ended, with nothing outstanding leaves its core. -/
theorem execGroupExit_eq {s : State} {p g : Nat} {gr : Group} (hg : getGroup s p g = some gr) (hlive : gr.live = 0#32)
    (hmem : gr.mem.any returnsData = false) (harr : arrayBusy (getPos s p) g = false) (heng : engineBusy (getPos s p) g = false) :
    exec (.groupExit p g) s = .next (retireIfEmpty (settleDraining (modSlot (removeGroup s p g gr) gr.slot (fun sl =>
      { sl with exited := sl.exited + 1, tbar := sl.tbar.filter (· != gr.index) })) gr.slot) p) := by
  show execGroupExit p g s = _
  unfold execGroupExit
  simp only [hg]
  simp [hlive, hmem, harr, heng, endedBusy_of_idle harr heng]

theorem execGroupExit_stays {s : State} {p g : Nat} {gr : Group} (hg : getGroup s p g = some gr)
    (h : (gr.live ≠ 0#32 ∧ gr.ended = false) ∨ gr.mem.any returnsData = true) : exec (.groupExit p g) s = .next s := by
  show execGroupExit p g s = _
  unfold execGroupExit
  simp only [hg]
  rcases h with ⟨hlive, hended⟩ | hmem
  · simp [hlive, hended]
  · simp [hmem]

/-! ### The obligation -/

/-- GROUP_PLACE of the first task in order. -/
theorem groupPlaced {s : State} {half n p : Nat} {sl : Slot} {rest : List (Nat × Slot)} (hserv : inService s = true)
    (hreset : inCisReset s = false) (horder : dispatchOrder s = (n, sl) :: rest) (hco : recCosched sl.words = false)
    (hbest : BestFit s n sl p) (hhalf : posHalf p = half) :
    let c := getPos s p
    let g := chooseGroupSlot c
    ∃ t, exec (.groupPlace half) s = .next t ∧ BelowFountain s t ∧
      (∃ gr, getGroup t p g = some gr ∧ FreshGroup n sl gr ∧ (∀ u ∈ gr.units, u ∈ freeUnits c) ∧ gr.units.Nodup ∧
        (mapWf 0#8 c.stgMem = true → ∀ i u o, gr.units[i]? = some u → o < 256 →
          stgByte gr.stg (i * 256 + o) = mapGet 0#8 c.stgMem (u * 256 + o))) ∧
      (∀ q h, ¬(q = p ∧ h = g) → getGroup t q h = getGroup s q h) ∧
      (∃ x, getSlot t n = some x ∧ x.nextGroup = sl.nextGroup + 1 ∧ x.words = sl.words ∧
        (sl.nextGroup = 0 → x.runStart = now s ∧ (coreState s p = 1 → classShut s sl.words = false → x.state = 3)) ∧
        (sl.nextGroup ≠ 0 → x.state = sl.state ∧ t.cistern = s.cistern ∧ t.sluice = s.sluice)) ∧
      (∀ m, m ≠ n → getSlot t m = getSlot s m) := by
  intro c g
  obtain ⟨u, hu, hexec⟩ := execGroupPlace_eq hserv hreset horder hco (chooseCore_of_bestFit hbest) hhalf
  obtain ⟨k, z, w, ht, hsame⟩ := placeGroup_tie_eq hu n sl p
  have hnodup : (placedUnits s sl p).Nodup := nodup_pickUnits _ (freeUnits_nodup _)
  refine ⟨_, hexec, ?_⟩
  rw [ht]
  refine ⟨⟨rfl, rfl, rfl, rfl, rfl, rfl, fun q => basin_setGroup s p g q _⟩, ⟨placedGroup s n sl p, ?_, ?_, ?_, hnodup, ?_⟩,
    ?_, ⟨placedSlot s sl p, ?_, ?_, ?_, ?_, ?_⟩, ?_⟩
  · exact getGroup_setGroup_same s p g _
  · exact ⟨rfl, rfl, rfl, rfl, rfl, rfl, rfl, rfl, rfl, rfl, rfl, rfl⟩
  · exact fun v hv => mem_of_mem_pickUnits _ hv
  · exact fun hwf i v o hv ho => stgByte_stgView hwf hnodup hv ho
  · exact fun q h hne => getGroup_setGroup_ne s p g q h _ hne
  · exact getSlot_setSlot_same _ _ _
  · exact placedSlot_nextGroup s sl p
  · exact placedSlot_words s sl p
  · exact placedSlot_first
  · exact fun hne => ⟨placedSlot_later hne, hsame hne⟩
  · exact fun m hm => getSlot_setSlot_ne _ _ _ _ hm

/-- GROUP_EXIT of a group with nothing outstanding. -/
theorem groupLeaves {s : State} {p g : Nat} {gr : Group} (hg : getGroup s p g = some gr) (hlive : gr.live = 0#32)
    (hmem : ∀ m ∈ gr.mem, m.kind = .store ∨ m.kind = .red) (harr : arrayBusy (getPos s p) g = false)
    (heng : engineBusy (getPos s p) g = false) (hlanes : laneLost (getPos s p) = false) {sl : Slot}
    (hsl : getSlot s gr.slot = some sl) :
    ∃ t, exec (.groupExit p g) s = .next t ∧ getGroup t p g = none ∧ BelowFountain s t ∧
      (getPos t p).late = (getPos s p).late ++ gr.mem.map (fun m => (gr.slot, m)) ∧
      (getPos t p).latePubs = (getPos s p).latePubs ++ gr.pubs.map (fun u => (gr.slot, u)) ∧
      (∀ q h, ¬(q = p ∧ h = g) → getGroup t q h = getGroup s q h) ∧
      (∃ x, getSlot t gr.slot = some x ∧ x.exited = sl.exited + 1 ∧ (x.state = sl.state ∨ sl.state = 4 ∧ x.state = 3)) ∧
      (∀ m, m ≠ gr.slot → getSlot t m = getSlot s m) ∧ t.cistern = s.cistern ∧ t.sluice = s.sluice := by
  have hnone : ∀ m ∈ gr.mem, returnsData m = false := fun m hm => by
    rcases hmem m hm with h | h <;> simp [returnsData, h]
  have hany : gr.mem.any returnsData = false := by simpa using hnone
  obtain ⟨hgroups, hlate, hpubs, hbasin, hsame⟩ := getPos_removeGroup_same s p g gr
  have hkept : gr.mem.filter (fun m => !(returnsData m)) = gr.mem :=
    List.filter_eq_self.mpr (fun m hm => by rw [hnone m hm]; rfl)
  rw [hkept] at hlate
  have hbasins : ∀ q, (getPos (removeGroup s p g gr) q).basin = (getPos s q).basin := fun q => by
    by_cases hq : q = p
    · rw [hq, hbasin]
    · rw [getPos_removeGroup_ne hq]
  obtain ⟨m, y, ht, hy, hexited, hstate, hothers⟩ := countExit_eq (u := removeGroup s p g gr) hsl (gr.index)
  refine ⟨_, execGroupExit_eq hg hlive hany harr heng, ?_⟩
  rw [ht, retireIfEmpty_sound (s := { removeGroup s p g gr with fountain := { (removeGroup s p g gr).fountain with slots := m } })
    ((laneLost_congr hsame).trans hlanes)]
  exact ⟨getGroup_removeGroup_same s p g gr, ⟨rfl, rfl, rfl, rfl, rfl, rfl, hbasins⟩, hlate, hpubs,
    fun q h hne => getGroup_removeGroup_ne hne, ⟨y, hy, hexited, hstate⟩, hothers, rfl, rfl⟩

/-- Settles O26: the next group goes to the best core and its slot, and a group that has exited leaves. -/
theorem groupsArePlacedAndExit : Obligations.GroupsArePlacedAndExit := by
  refine ⟨fun s half => ⟨execGroupPlace_nothing half, ?_⟩, fun s p g gr hg => ⟨?_, ?_, ?_⟩⟩
  · intro n sl rest p hserv hreset horder hco hbest hhalf _
    obtain ⟨t, hexec, hbelow, hgroup, hgroups, hslot, hslots⟩ := groupPlaced hserv hreset horder hco hbest hhalf
    exact ⟨t, hexec, hbelow, hgroup, hgroups, hslot, hslots,
      fun hlen _ _ => getGroup_eq_none_of_not_mem (chooseGroupSlot_free hlen)⟩
  · exact fun hlive hended => execGroupExit_stays hg (.inl ⟨hlive, hended⟩)
  · rintro ⟨m, hm, hkind⟩
    refine execGroupExit_stays hg (.inr (List.any_eq_true.mpr ⟨m, hm, ?_⟩))
    rcases hkind with h | h <;> simp [returnsData, h]
  · exact fun hlive hmem harr heng hlanes sl hsl => groupLeaves hg hlive hmem harr heng hlanes hsl

end Sys2Proof.Machine
end


section
/-! SUPPORT. What raising an error record shows and leaves alone (R464, R465), and packets that leave on a link (R308, R316). -/

namespace Sys2Proof.Machine

/-! ### Error records (R464, R465) -/

/-- An object that an event of this code does not count in. -/
def Unlogged (code k : Nat) : Prop :=
  k ≠ Key.errors ∧ k ≠ Key.codeCount code ∧ k ≠ Key.codeLast code ∧ k ≠ Key.framesTx ∧ k ≠ Key.eventsUnsent

theorem getObj_pushEvent_ne {s : State} {e : Event} {b : Bool} {k : Nat} (hf : k ≠ Key.framesTx) (hu : k ≠ Key.eventsUnsent) :
    getObj (pushEvent s e b) k = getObj s k := by
  unfold pushEvent
  dsimp only
  split
  · exact getObj_bump_ne _ _ _ _ hf
  · split
    · exact getObj_bump_ne _ _ _ _ hu
    · rfl

theorem getObj_raise_ne {s : State} {r : ErrRec} {k : Nat} (h : Unlogged r.code k) : getObj (raise s r) k = getObj s k := by
  obtain ⟨he, hc, hl, hf, hu⟩ := h
  unfold raise countCode
  rw [getObj_pushEvent_ne hf hu, getObj_setObj_ne _ _ _ _ hl, getObj_bump_ne _ _ _ _ hc, getObj_bump_ne _ _ _ _ he]

theorem getObj_raiseUnit_ne {s : State} {code sev : Nat} {origin : EvOrigin} {unit : Nat} {nums : List Nat} {k : Nat}
    (h : Unlogged code k) : getObj (raiseUnit s code sev origin unit nums) k = getObj s k := getObj_raise_ne h

/-- The newest event is the one just pushed. -/
theorem pushEvent_newest (s : State) (e : Event) (b : Bool) :
    ∃ q x es, (pushEvent s e b).keeper.ring = { e with seq := q, sent := x } :: es := by
  unfold pushEvent
  dsimp only
  split
  · exact ⟨_, _, _, rfl⟩
  · split <;> exact ⟨_, _, _, rfl⟩

/-- A raised record is the newest event, with its severity, its unit and its EXTRA. -/
theorem reportedUnit_raise (s : State) (r : ErrRec) : ReportedUnit (raise s r) r.code r.sev r.unit r.extra := by
  obtain ⟨q, x, es, h⟩ := pushEvent_newest (countCode (bump s Key.errors 1) r.code)
    { seq := 0, code := r.code, severity := r.sev, origin := r.origin.code, slot := r.slot, device := s.pool.device, tag := r.tag,
      stamp := stamp s, unit := r.unit, detail := errDetail r, sent := false } (r.sev == 3)
  exact ⟨_, es, h, rfl, rfl, rfl, rfl⟩

theorem reportedUnit_raiseUnit (s : State) (code sev : Nat) (origin : EvOrigin) (unit : Nat) (nums : List Nat) :
    ReportedUnit (raiseUnit s code sev origin unit nums) code sev unit (nums.flatMap (leBytes 4)) := reportedUnit_raise s _

/-! ### What is on its way on the links -/

/-- What link `k` holds of packets still stands in `k'`: its queue, and its flits without an acknowledgement. -/
def Link.Keeps (k k' : Link) : Prop := k'.egress = k.egress ∧ ∀ u ∈ k.unacked, u ∈ k'.unacked

theorem Link.Keeps.refl (k : Link) : k.Keeps k := ⟨rfl, fun _ h => h⟩

theorem Link.Keeps.trans {a b c : Link} (h : a.Keeps b) (k : b.Keeps c) : a.Keeps c :=
  ⟨k.1.trans h.1, fun u hu => k.2 u (h.2 u hu)⟩

/-- Every link still holds what it held. -/
def LinksKeep (s t : State) : Prop := ∀ j, (getLink s j).Keeps (getLink t j)

theorem LinksKeep.refl (s : State) : LinksKeep s s := fun _ => .refl _

theorem LinksKeep.trans {a b c : State} (h : LinksKeep a b) (k : LinksKeep b c) : LinksKeep a c := fun j => (h j).trans (k j)

theorem linksKeep_setLink {s : State} {l : Nat} {k : Link} (h : (getLink s l).Keeps k) : LinksKeep s (setLink s l k) := by
  intro j
  by_cases hj : j = l
  · rw [hj, getLink_setLink_same]; exact h
  · rw [getLink_setLink_ne _ _ _ _ hj]; exact .refl _

theorem takeCredit_keeps (k : Link) : k.Keeps (takeCredit k).2 := by
  unfold takeCredit
  split <;> exact .refl _

theorem takeCredit_egress (k : Link) : (takeCredit k).2.egress = k.egress := by
  unfold takeCredit
  split <;> rfl

theorem linksKeep_sendBare (s : State) (l : Nat) (ty : PktType) : LinksKeep s (sendBare s l ty) :=
  linksKeep_setLink (takeCredit_keeps _)

/-- A flit sent on a link is among those without an acknowledgement. -/
theorem getLink_sendFlit (s : State) (l : Nat) (p : Packet) (j : Nat) : ∃ u : Unacked, u.pkt = p ∧
    (getLink (sendFlit s l p) j).egress = (getLink s j).egress ∧
      (getLink (sendFlit s l p) j).unacked = if j = l then (getLink s l).unacked ++ [u] else (getLink s j).unacked := by
  refine ⟨{ seq := (getLink s l).nextSeq, pkt := p, sentAt := now s, resends := 0 }, rfl, ?_⟩
  show (getLink (setLink s l _) j).egress = _ ∧ (getLink (setLink s l _) j).unacked = _
  by_cases hj : j = l
  · rw [hj, getLink_setLink_same, if_pos rfl]
    exact ⟨takeCredit_egress _, rfl⟩
  · rw [getLink_setLink_ne _ _ _ _ hj, if_neg hj]
    exact ⟨rfl, rfl⟩

theorem linksKeep_sendFlit (s : State) (l : Nat) (p : Packet) : LinksKeep s (sendFlit s l p) := by
  intro j
  obtain ⟨u, -, he, hu⟩ := getLink_sendFlit s l p j
  refine ⟨he, fun x hx => ?_⟩
  rw [hu]
  split
  · next h => rw [h] at hx; exact List.mem_append_left _ hx
  · exact hx

/-- A link sends packets from its queue: each of them is sent or kept. -/
theorem pumpList_spec (l : Nat) (pss : List (List Packet)) :
    ∀ (s : State) (kept : List (List Packet)), LinksKeep s (pumpList l pss s kept).1 ∧
      (∀ ps ∈ kept, ps ∈ (pumpList l pss s kept).2) ∧
      ∀ q, [q] ∈ pss → [q] ∈ (pumpList l pss s kept).2 ∨ ∃ u ∈ (getLink (pumpList l pss s kept).1 l).unacked, u.pkt = q := by
  induction pss with
  | nil => exact fun s kept => ⟨.refl s, fun ps h => List.mem_reverse.mpr h, fun q h => absurd h List.not_mem_nil⟩
  | cons ps pss ih =>
    intro s kept
    unfold pumpList
    split
    · obtain ⟨hlinks, hkept, hsent⟩ := ih s kept
      exact ⟨hlinks, hkept, fun q hq => hsent q (by simpa using hq)⟩
    · next p ps =>
      split
      · obtain ⟨hlinks, hkept, hsent⟩ := ih ((p :: ps).foldl (fun st q => sendFlit st l q) s) kept
        have hfold : LinksKeep s ((p :: ps).foldl (fun st q => sendFlit st l q) s) :=
          foldl_rel .refl .trans _ (fun t q _ => linksKeep_sendFlit t l q) s
        refine ⟨hfold.trans hlinks, hkept, fun q hq => ?_⟩
        rcases List.mem_cons.mp hq with h | h
        · obtain ⟨rfl, rfl⟩ : q = p ∧ ps = [] := by simpa [eq_comm] using h
          obtain ⟨u, hu, -, hun⟩ := getLink_sendFlit s l q l
          refine .inr ⟨u, (hlinks l).2 u ?_, hu⟩
          rw [List.foldl_cons, List.foldl_nil, hun, if_pos rfl]
          exact List.mem_append_right _ List.mem_cons_self
        · exact hsent q h
      · obtain ⟨hlinks, hkept, hsent⟩ := ih s ((p :: ps) :: kept)
        refine ⟨hlinks, fun x hx => hkept x (List.mem_cons_of_mem _ hx), fun q hq => ?_⟩
        rcases List.mem_cons.mp hq with h | h
        · exact .inl (hkept _ (h ▸ List.mem_cons_self))
        · exact hsent q h

theorem sentOn_of_linksKeep {s t : State} (h : LinksKeep s t) {q : Packet} (hq : SentOn s q) : SentOn t q := by
  obtain ⟨j, hj⟩ := hq
  refine ⟨j, hj.imp (fun he => (h j).1 ▸ he) (fun ⟨u, hu, hp⟩ => ⟨u, (h j).2 u hu, hp⟩)⟩

theorem linksKeep_returnCredits {α : Type} (s : State) (l : Nat) (xs : List α) :
    LinksKeep s (xs.foldl (fun st _ => sendBare st l .null) s) :=
  foldl_rel .refl .trans xs (fun t _ _ => linksKeep_sendBare t l .null) s

/-- What has left on a link, or waits there, still does once the link has sent what it can. -/
theorem sentOn_pumpLink {s : State} (l : Nat) {q : Packet} (hq : SentOn s q) : SentOn (pumpLink s l) q := by
  obtain ⟨hlinks, -, hsent⟩ := pumpList_spec l (getLink s l).egress s []
  have hset : SentOn (setLink (pumpList l (getLink s l).egress s []).1 l
      { getLink (pumpList l (getLink s l).egress s []).1 l with egress := (pumpList l (getLink s l).egress s []).2 }) q := by
    obtain ⟨j, hj⟩ := hq
    refine ⟨j, ?_⟩
    by_cases hl : j = l
    · subst hl
      rw [getLink_setLink_same]
      rcases hj with hj | ⟨u, hu, hp⟩
      · exact hsent q hj
      · exact .inr ⟨u, (hlinks j).2 u hu, hp⟩
    · rw [getLink_setLink_ne _ _ _ _ hl]
      exact hj.imp (fun he => (hlinks j).1 ▸ he) (fun ⟨u, hu, hp⟩ => ⟨u, (hlinks j).2 u hu, hp⟩)
  unfold pumpLink
  dsimp only
  split
  · exact sentOn_of_linksKeep (linksKeep_returnCredits _ l _) hset
  · exact hset

/-! ### The link that a packet leaves on (R316, R317) -/

/-- The better of two links, in a search for the best. -/
def keepLower (rank : Nat → Nat) (acc : Option Nat) (l : Nat) : Option Nat :=
  match acc with
  | none => some l
  | some a => if rank l < rank a then some l else some a

theorem foldl_keepLower_isSome (rank : Nat → Nat) (ls : List Nat) (acc : Option Nat) (h : ls ≠ [] ∨ acc.isSome) :
    (ls.foldl (keepLower rank) acc).isSome := by
  induction ls generalizing acc with
  | nil => exact h.resolve_left (fun hn => hn rfl)
  | cons l ls ih =>
    refine ih _ (.inr ?_)
    unfold keepLower
    cases acc with
    | none => rfl
    | some a => dsimp only; split <;> rfl

/-- A packet whose destination a link leads towards has a link to leave on. -/
theorem chooseLink_isSome {s : State} {dst : Nat} (h : Reaches s dst) (addr vc half : Nat) :
    (chooseLink s dst addr vc half).isSome := by
  obtain ⟨l, hl, hcand⟩ := h
  have hne : (List.range 36).filter (isCandidate s dst) ≠ [] :=
    List.ne_nil_of_mem (List.mem_filter.mpr ⟨List.mem_range.mpr hl, hcand⟩)
  unfold chooseLink
  dsimp only
  generalize (List.range 36).filter (isCandidate s dst) = cands at hne ⊢
  have htied : cands.filter (fun l => linkScore s vc half l == (cands.map (linkScore s vc half)).min?.getD 0) ≠ [] := by
    obtain ⟨m, hm⟩ : ∃ m, (cands.map (linkScore s vc half)).min? = some m := by
      cases hmin : (cands.map (linkScore s vc half)).min? with
      | none => exact absurd (List.map_eq_nil_iff.mp (List.min?_eq_none_iff.mp hmin)) hne
      | some m => exact ⟨m, rfl⟩
    obtain ⟨a, ha, hscore⟩ := List.mem_map.mp (List.min?_mem hm)
    refine List.ne_nil_of_mem (a := a) (List.mem_filter.mpr ⟨ha, ?_⟩)
    rw [hm, Option.getD_some, hscore]
    exact beq_self_eq_true m
  have hfold := foldl_keepLower_isSome (tieRank s dst half) _ none (.inl htied)
  split
  · split
    · rfl
    · rw [Option.isSome_map]; exact hfold
  · rw [Option.isSome_map]; exact hfold

/-- A packet leaves for a destination that a link leads towards. -/
theorem sentOn_sendPacket {s : State} {p : Packet} (h : Reaches s p.dst) (half : Nat) : SentOn (sendPacket s half [p]) p := by
  unfold sendPacket
  dsimp only
  obtain ⟨⟨l, other⟩, hl⟩ := Option.isSome_iff_exists.mp (chooseLink_isSome h p.addr p.vc half)
  rw [hl]
  dsimp only
  refine sentOn_pumpLink l ⟨l, .inl ?_⟩
  rw [getLink_setLink_same]
  exact List.mem_append_right _ List.mem_cons_self

/-! ### What sending counts -/

/-- An object that sending on a link does not count in. -/
def Unsent (k : Nat) : Prop := (∀ l, k ≠ Key.bytesTx l) ∧ ∀ i, k ≠ Key.bytes i

theorem getObj_sendFlit_ne {k : Nat} (h : Unsent k) (s : State) (l : Nat) (p : Packet) : getObj (sendFlit s l p) k = getObj s k := by
  show getObj (bump (bump (setLink s l _) (Key.bytesTx l) 240) (Key.bytes (3 * 16 + p.cls)) 240) k = _
  rw [getObj_bump_ne _ _ _ _ (h.2 _), getObj_bump_ne _ _ _ _ (h.1 _), getObj_setLink]

theorem getObj_pumpList_ne {k : Nat} (h : Unsent k) (l : Nat) (pss : List (List Packet)) :
    ∀ (s : State) (kept : List (List Packet)), getObj (pumpList l pss s kept).1 k = getObj s k := by
  induction pss with
  | nil => exact fun _ _ => rfl
  | cons ps pss ih =>
    intro s kept
    unfold pumpList
    split
    · exact ih s kept
    · split
      · exact (ih _ kept).trans (foldl_keeps (fun t => getObj t k) _ (fun t q _ => getObj_sendFlit_ne h t l q) s)
      · exact ih s _

theorem getObj_pumpLink_ne {k : Nat} (h : Unsent k) (s : State) (l : Nat) : getObj (pumpLink s l) k = getObj s k := by
  have hlist := getObj_pumpList_ne h l (getLink s l).egress s []
  unfold pumpLink
  dsimp only
  split
  · exact (foldl_keeps (fun t => getObj t k) (f := fun st _ => sendBare st l .null) _ (fun t _ _ => rfl) _).trans hlist
  · exact hlist

end Sys2Proof.Machine
end


section
/-! O41: the request packets of peers (R305 to R307, R316, R318, R320, R322), and the jobs of the blocks that are not cores. -/

namespace Sys2Proof.Machine

/-! ### Bytes and bits -/

theorem bit_eq_testBit (x i : Nat) : bit x i = x.testBit i := by
  rw [Nat.testBit_eq_decide_div_mod_eq]
  rfl

/-- The `n` bytes from an offset on, zeros past the end. -/
theorem slice_eq_map (bs : List Byte) (off n : Nat) : slice bs off n = (List.range n).map (fun i => bs.getD (off + i) 0#8) := by
  unfold slice
  dsimp only
  apply List.ext_getElem
  · simp
  · intro i h1 h2
    have hi : i < n := by simpa using h2
    rw [List.getElem_map, List.getElem_range]
    by_cases hlt : off + i < bs.length
    · rw [List.getElem_append_left (by simp; omega)]
      rw [List.getD_eq_getElem _ _ hlt, List.getElem_take, List.getElem_drop]
    · rw [List.getElem_append_right (by simp; omega), List.getElem_replicate, List.getD_eq_default _ _ (by omega)]

theorem getD_slice {bs : List Byte} {off n i : Nat} (h : i < n) : (slice bs off n).getD i 0#8 = bs.getD (off + i) 0#8 := by
  rw [slice_eq_map, List.getD_eq_getElem _ _ (by simpa using h), List.getElem_map, List.getElem_range]

theorem slice_slice {bs : List Byte} {off n a k : Nat} (h : a + k ≤ n) : slice (slice bs off n) a k = slice bs (off + a) k := by
  rw [slice_eq_map _ a k, slice_eq_map _ (off + a) k]
  refine List.map_congr_left (fun i hi => ?_)
  have := List.mem_range.mp hi
  rw [getD_slice (by omega)]
  congr 1
  omega

theorem length_slice (bs : List Byte) (off n : Nat) : (slice bs off n).length = n := by
  rw [slice_eq_map, List.length_map, List.length_range]

theorem slice_self {bs : List Byte} {n : Nat} (h : bs.length = n) : slice bs 0 n = bs := by
  unfold slice
  simp [h, List.take_of_length_le (Nat.le_of_eq h)]

theorem take_slice {bs : List Byte} {off n k : Nat} (h : k ≤ n) : (slice bs off n).take k = slice bs off k := by
  rw [slice_eq_map, slice_eq_map, ← List.map_take, List.take_range, Nat.min_eq_left h]

theorem drop_slice (bs : List Byte) (off k n : Nat) : (slice bs off (k + n)).drop k = slice bs (off + k) n := by
  rw [slice_eq_map, slice_eq_map]
  apply List.ext_getElem
  · simp
  · intro i h1 h2
    simp [Nat.add_assoc]

/-! ### What a packet asks of its home slices -/

/-- A read of whole sectors asks for each of them. -/
theorem readOps_sectors {a : Nat} (h : a % 32 = 0) (n : Nat) :
    readOps a (32 * (n + 1)) = (List.range (n + 1)).map (fun k => (a / 32 + k, .read)) := by
  unfold readOps
  have hcount : (if 32 * (n + 1) = 0 then 0 else (a + 32 * (n + 1) - 1) / 32 - a / 32 + 1) = n + 1 := by
    rw [if_neg (by omega)]
    omega
  rw [hcount]

/-- A store of whole sectors writes each of them whole. -/
theorem storeOps_sectors (bs : List Byte) (m : Nat) : ∀ {fuel a off : Nat}, m ≤ fuel → a % 32 = 0 →
    storeOps fuel a (slice bs off (32 * m)) =
      (List.range m).map (fun k => (a / 32 + k, .write fullMask (slice bs (off + 32 * k) 32))) := by
  induction m with
  | zero =>
    intro fuel a off _ _
    have hempty : slice bs off 0 = [] := List.length_eq_zero_iff.mp (length_slice _ _ _)
    show storeOps fuel a (slice bs off 0) = []
    rw [hempty]
    cases fuel <;> rfl
  | succ m ih =>
    intro fuel a off hfuel ha
    obtain ⟨fuel, rfl⟩ : ∃ f, fuel = f + 1 := ⟨fuel - 1, by omega⟩
    have hlen : (slice bs off (32 * (m + 1))).length = 32 * (m + 1) := length_slice _ _ _
    have hne : (slice bs off (32 * (m + 1))).isEmpty = false := by
      rw [List.isEmpty_eq_false_iff, ← List.length_pos_iff, hlen]
      omega
    have hk : min (32 - 0) (32 * (m + 1)) = 32 := by omega
    have hmask : maskOf ((List.range 32).map (· + 0)) = fullMask := by decide +kernel
    have htake : (slice bs off (32 * (m + 1))).take 32 = slice bs off 32 := take_slice (by omega)
    have hdrop : (slice bs off (32 * (m + 1))).drop 32 = slice bs (off + 32) (32 * m) := by
      rw [show 32 * (m + 1) = 32 + 32 * m by omega]
      exact drop_slice _ _ _ _
    unfold storeOps
    rw [hne, if_neg Bool.false_ne_true]
    simp only [ha, hlen, hk, hmask, htake, hdrop, List.replicate_zero, List.nil_append]
    rw [slice_self (length_slice bs off 32), ih (by omega) (by omega), List.range_succ_eq_map, List.map_cons, List.map_map]
    refine congrArg₂ List.cons (by simp) (List.map_congr_left (fun k _ => ?_))
    simp only [Function.comp, Nat.succ_eq_add_one]
    rw [show (a + 32) / 32 + k = a / 32 + (k + 1) by omega, show off + 32 + 32 * k = off + 32 * (k + 1) by omega]

theorem filterMap_ite_eq {α β : Type} (p : α → Bool) (f : α → β) (l : List α) :
    l.filterMap (fun x => if p x then none else some (f x)) = (l.filter (fun x => !(p x))).map f := by
  induction l with
  | nil => rfl
  | cons x l ih => cases hp : p x <;> simp [hp, ih]

/-- A masked store writes the sectors of its line that its mask names a byte of. -/
theorem maskedOps_eq (line mask : Nat) (bs : List Byte) :
    maskedOps line mask (slice bs 16 128) = ([0, 1, 2, 3].filter (fun k => bits mask (32 * k + 31) (32 * k) != 0)).map (fun k =>
      (line * 4 + k, ReqOp.write (bits mask (32 * k + 31) (32 * k)) (slice bs (16 + 32 * k) 32))) := by
  have hmap := filterMap_ite_eq (fun k => bits mask (32 * k + 31) (32 * k) == 0)
    (fun k => (line * 4 + k, ReqOp.write (bits mask (32 * k + 31) (32 * k)) (slice (slice bs 16 128) (32 * k) 32))) [0, 1, 2, 3]
  simp only [beq_iff_eq] at hmap
  unfold maskedOps
  dsimp only
  rw [hmap]
  refine List.map_congr_left (fun k hk => ?_)
  have hk4 : k < 4 := by
    have := List.mem_of_mem_filter hk
    simp only [List.mem_cons, List.not_mem_nil, or_false] at this
    omega
  rw [slice_slice (by omega)]

theorem selected_eq_maskElems (size mask : Nat) : selected size mask = maskElems size mask :=
  List.filter_congr (fun o _ => (bit_eq_testBit mask o).symm)

theorem laneOps_eq_nil {op : RedOp} {returns : Bool} {lanes : List RedLane} : laneOps op returns lanes = [] ↔ lanes = [] := by
  unfold laneOps
  rw [List.map_eq_nil_iff, List.dedup_eq_nil, List.map_eq_nil_iff]

/-! ### A packet that has come (R316, R318) -/

theorem frontPacket_ty {k : Link} {ty : PktType} {p : Packet} {i : Nat} (h : frontPacket k [ty] = some (p, i)) : p.ty = ty := by
  have := List.find?_some h
  simp only [List.contains_cons, List.contains_nil, Bool.or_false, Bool.and_eq_true, beq_iff_eq] at this
  exact this.1

theorem onPacket_none {s : State} {ty : PktType} {l : Nat} {run : Packet → State → State} (h : frontPacket (getLink s l) [ty] = none) :
    onPacket [ty] l run s = s := by
  unfold onPacket
  rw [h]

theorem onPacket_held {s : State} {ty : PktType} {l i : Nat} {p : Packet} {run : Packet → State → State}
    (h : frontPacket (getLink s l) [ty] = some (p, i)) (hheld : packetHeld s p = true) : onPacket [ty] l run s = s := by
  unfold onPacket
  rw [h]
  simp only [hheld, if_true]

theorem onPacket_here {s : State} {ty : PktType} {l i : Nat} {p : Packet} {run : Packet → State → State}
    (h : Arrived s l ty p i) : onPacket [ty] l run s = pumpLink (run p (takeRx s l i)) l := by
  obtain ⟨hfront, hdst, hheld⟩ := h
  unfold onPacket
  rw [hfront]
  simp only [hheld, hdst, Bool.false_eq_true, if_false, if_true]

theorem packetHeld_far {s : State} {p : Packet} (h : p.dst ≠ s.pool.device) : packetHeld s p = false := by
  simp [packetHeld, h]

theorem onPacket_far {s : State} {ty : PktType} {l i : Nat} {p : Packet} {run : Packet → State → State}
    (h : frontPacket (getLink s l) [ty] = some (p, i)) (hdst : p.dst ≠ s.pool.device) :
    onPacket [ty] l run s = pumpLink (forward (takeRx s l i) l [p]) l := by
  unfold onPacket
  rw [h]
  simp only [packetHeld_far hdst, hdst, Bool.false_eq_true, if_false]

theorem onReduce_room {s : State} {ty : PktType} {l i : Nat} {p : Packet} (h : frontPacket (getLink s l) [ty] = some (p, i))
    (hroom : redRoom s p = true) : onReduce ty l s = onPacket [ty] l (serveMemory l .ok) s := by
  unfold onReduce
  rw [h]
  simp only [hroom, Bool.true_eq_false, and_false, if_false]

theorem onReduce_full {s : State} {ty : PktType} {l i : Nat} {p : Packet} (h : frontPacket (getLink s l) [ty] = some (p, i))
    (hdst : p.dst = s.pool.device) (hroom : redRoom s p = false) : onReduce ty l s = s := by
  unfold onReduce
  rw [h]
  simp only [hdst, hroom, and_self, if_true]

/-- Each row hands its packet on or to this device's own unit; a reduce packet for this device may stall. -/
theorem onReduce_eq (s : State) (ty : PktType) (l : Nat) :
    onReduce ty l s = onPacket [ty] l (serveMemory l .ok) s ∨
      onReduce ty l s = s ∧ ∃ p i, frontPacket (getLink s l) [ty] = some (p, i) ∧ p.dst = s.pool.device := by
  cases h : frontPacket (getLink s l) [ty] with
  | none => exact .inl (by rw [onPacket_none h]; unfold onReduce; rw [h])
  | some e =>
    obtain ⟨p, i⟩ := e
    cases hroom : redRoom s p with
    | true => exact .inl (onReduce_room h hroom)
    | false =>
      by_cases hdst : p.dst = s.pool.device
      · exact .inr ⟨onReduce_full h hdst hroom, p, i, rfl, hdst⟩
      · refine .inl ?_
        unfold onReduce
        rw [h]
        simp only [hdst, false_and, if_false]

theorem exec_packetRow {row : PktType × (Nat → Instr)} (h : row ∈ packetRows) (s : State) (l : Nat) :
    (∃ run, exec (row.2 l) s = .next (onPacket [row.1] l run s)) ∨
      exec (row.2 l) s = .next s ∧ ∃ p i, frontPacket (getLink s l) [row.1] = some (p, i) ∧ p.dst = s.pool.device := by
  have hred (ty : PktType) : (∃ run, (Host.Outcome.next (onReduce ty l s) : Host.Outcome State Fault Refusal) =
      .next (onPacket [ty] l run s)) ∨ (Host.Outcome.next (onReduce ty l s) : Host.Outcome State Fault Refusal) = .next s ∧
        ∃ p i, frontPacket (getLink s l) [ty] = some (p, i) ∧ p.dst = s.pool.device :=
    (onReduce_eq s ty l).imp (fun h => ⟨_, congrArg _ h⟩) (fun h => ⟨congrArg _ h.1, h.2⟩)
  simp only [packetRows, List.mem_cons, List.not_mem_nil, or_false] at h
  rcases h with rfl | rfl | rfl | rfl | rfl | rfl | rfl | rfl | rfl | rfl | rfl | rfl
  case inr.inr.inr.inr.inl => exact hred .red
  case inr.inr.inr.inr.inr.inl => exact hred .redMasked
  all_goals exact .inl ⟨_, rfl⟩

/-! ### What handling a packet leaves alone -/

theorem takeRx_eq (s : State) (l i : Nat) : ∃ ls, takeRx s l i = { s with links := ls } := by
  unfold takeRx
  dsimp only
  split
  · exact ⟨_, rfl⟩
  · exact ⟨_, rfl⟩

theorem SameMemory.trans {a b c : State} (h : SameMemory a b) (k : SameMemory b c) : SameMemory a c := by
  obtain ⟨h1, h2, h3, h4, h5, h6⟩ := h
  obtain ⟨k1, k2, k3, k4, k5, k6⟩ := k
  exact ⟨k1.trans h1, k2.trans h2, k3.trans h3, k4.trans h4, k5.trans h5, k6.trans h6⟩

theorem LinksOnly.sameMemory {s t : State} (h : LinksOnly s t) : SameMemory s t := by
  obtain ⟨_, _, _, rfl⟩ := h
  exact ⟨rfl, rfl, rfl, rfl, rfl, rfl⟩

theorem sameMemory_takeRx (s : State) (l i : Nat) : SameMemory s (takeRx s l i) := by
  obtain ⟨ls, h⟩ := takeRx_eq s l i
  rw [h]
  exact ⟨rfl, rfl, rfl, rfl, rfl, rfl⟩

theorem sameMemory_pumpLink (s : State) (l : Nat) : SameMemory s (pumpLink s l) := (linksOnly_pumpLink s l).sameMemory

theorem Logged.sameMemory {s t : State} (h : Logged s t) : SameMemory s t := by
  obtain ⟨_, _, _, _, _, rfl⟩ := h
  exact ⟨rfl, rfl, rfl, rfl, rfl, rfl⟩

theorem linkProtocol_logged (s : State) (l : Nat) : Logged s (linkProtocol s l) :=
  (logged_bump s _ _).trans (logged_raiseUnit _ _ _ _ _ _)

theorem protocolErrors_unsent : Unsent Key.protocolErrors := by
  refine ⟨fun l => ?_, fun i => ?_⟩ <;> simp only [Key.protocolErrors, Key.bytesTx, Key.bytes] <;> omega

theorem protocolErrors_unlogged : Unlogged Code.linkProtocol Key.protocolErrors := by
  unfold Unlogged
  decide +kernel

/-- A link that sends what it can leaves the report of an invalid flit the newest event. -/
theorem linkProtocol_counted (s : State) (l j : Nat) : Counted s (pumpLink (linkProtocol s l) j) Key.protocolErrors 1 := by
  have hbits : objBits Key.protocolErrors = 64 := by decide +kernel
  show getObj _ _ = _
  rw [getObj_pumpLink_ne protocolErrors_unsent]
  unfold linkProtocol
  rw [getObj_raiseUnit_ne protocolErrors_unlogged, getObj_bump_same, hbits]

theorem linkProtocol_reported (s : State) (l : Nat) : ReportedUnit (linkProtocol s l) Code.linkProtocol 1 l [] := by
  unfold linkProtocol
  exact reportedUnit_raiseUnit _ _ _ _ _ []

theorem reportedUnit_pumpLink {s : State} {code sev unit : Nat} {extra : List Byte} (h : ReportedUnit s code sev unit extra) (l : Nat) :
    ReportedUnit (pumpLink s l) code sev unit extra := by
  obtain ⟨_, _, _, ht⟩ := linksOnly_pumpLink s l
  rw [ht]
  exact h

/-! ### Packets for other devices -/

theorem forward_stops {s : State} {p : Packet} (h : 2 ≤ p.hops ∨ isMember s p.dst = false) (l : Nat) :
    forward s l [p] = linkProtocol s l := by
  unfold forward
  exact if_pos h

theorem forward_goes {s : State} {p : Packet} (hhops : p.hops < 2) (hmember : isMember s p.dst = true) (l : Nat) :
    forward s l [p] = sendPacket s (linkHalf l) [{ p with hops := p.hops + 1 }] := by
  unfold forward
  exact if_neg (by simp [hhops, hmember])

/-- A packet for another device. -/
theorem farPacket {s : State} {ty : PktType} {l i : Nat} {p : Packet} (run : Packet → State → State)
    (h : frontPacket (getLink s l) [ty] = some (p, i)) (hdst : p.dst ≠ s.pool.device) :
    ((2 ≤ p.hops ∨ isMember s p.dst = false) → Counted s (onPacket [ty] l run s) Key.protocolErrors 1 ∧
      ReportedUnit (onPacket [ty] l run s) Code.linkProtocol 1 l [] ∧ SameMemory s (onPacket [ty] l run s)) ∧
    (p.hops < 2 → isMember s p.dst = true → Reaches (takeRx s l i) p.dst →
      SentOn (onPacket [ty] l run s) { p with hops := p.hops + 1 } ∧ SameMemory s (onPacket [ty] l run s)) := by
  rw [onPacket_far h hdst]
  obtain ⟨ls, hrx⟩ := takeRx_eq s l i
  constructor
  · intro hstop
    have hstop' : 2 ≤ p.hops ∨ isMember (takeRx s l i) p.dst = false := by rw [hrx]; exact hstop
    rw [forward_stops hstop' l]
    refine ⟨?_, reportedUnit_pumpLink (linkProtocol_reported _ l) l, (sameMemory_takeRx s l i).trans
      ((linkProtocol_logged _ l).sameMemory.trans (sameMemory_pumpLink _ l))⟩
    have hobj : getObj s Key.protocolErrors = getObj (takeRx s l i) Key.protocolErrors := by rw [hrx]; rfl
    show getObj _ _ = _
    rw [hobj]
    exact linkProtocol_counted (takeRx s l i) l l
  · intro hhops hmember hreach
    have hmember' : isMember (takeRx s l i) p.dst = true := by rw [hrx]; exact hmember
    rw [forward_goes hhops hmember' l]
    exact ⟨sentOn_pumpLink l (sentOn_sendPacket (p := { p with hops := p.hops + 1 }) hreach _), (sameMemory_takeRx s l i).trans
      ((linksOnly_sendPacket _ _ _).sameMemory.trans (sameMemory_pumpLink _ l))⟩

/-! ### Packets for this device (R27, R252, R320) -/

/-- Why the home refuses a packet. -/
def packetRefusal (s : State) (p : Packet) : Option Nat :=
  if p.ty = .read then farRefusal s p.addr (packetSpan p) else homeRefusal s p.addr (packetSpan p)

theorem serveMemory_refused {s : State} {p : Packet} {c : Nat} (h : packetRefusal s p = some c) (l : Nat) (chk : Chk) :
    serveMemory l chk p s = refusePeer s p c := by
  unfold packetRefusal at h
  unfold serveMemory
  rw [h]

theorem serveMemory_taken {s : State} {p : Packet} (h : packetRefusal s p = none) (htable : slotTableAt p.addr = none)
    (hops : packetOps p ≠ []) (l : Nat) (chk : Chk) : serveMemory l chk p s =
      startJob s (linkHalf l) (portLink + l) p.cls (peerTag p) (.packet p) [] (packetOps p) := by
  unfold packetRefusal at h
  unfold serveMemory
  rw [h, htable]
  exact if_neg (by simpa using hops)

theorem serveMemory_done {s : State} {p : Packet} (h : packetRefusal s p = none) (htable : slotTableAt p.addr = none)
    (hops : packetOps p = []) (l : Nat) (chk : Chk) : serveMemory l chk p s = answerPacket s p [] := by
  unfold packetRefusal at h
  unfold serveMemory
  rw [h, htable]
  exact if_pos (by simp [hops])

theorem packetRefusal_takeRx (s : State) (l i : Nat) (p : Packet) : packetRefusal (takeRx s l i) p = packetRefusal s p := by
  obtain ⟨ls, h⟩ := takeRx_eq s l i
  rw [h]
  rfl

theorem packetRefusal_other {s : State} {p : Packet} (h : p.ty ≠ .read) : packetRefusal s p = homeRefusal s p.addr (packetSpan p) :=
  if_neg h

theorem packetRefusal_read {s : State} {p : Packet} (h : p.ty = .read) (htable : slotTableAt p.addr = none) :
    packetRefusal s p = homeRefusal s p.addr (packetSpan p) := by
  unfold packetRefusal farRefusal
  simp [h, htable]

theorem packetSpan_sectors {p : Packet} (h : p.ty = .read ∨ p.ty = .write ∨ p.ty = .red) : packetSpan p = 32 * (p.sectors + 1) := by
  unfold packetSpan
  rcases h with h | h | h <;> simp [h]

theorem packetSpan_line {p : Packet} (h : p.ty = .writeMasked ∨ p.ty = .atom ∨ p.ty = .redMasked) : packetSpan p = 128 := if_pos h

/-- An answer of the home leaves for the requester. -/
theorem respond_done {s : State} {p : Packet} (ty : PktType) (sectors half : Nat) (payload : List Byte) (h : Reaches s p.src) (l : Nat) :
    SentOn (pumpLink (respond s p ty sectors half payload) l) (answerOf s p ty sectors payload) ∧
      SameMemory s (pumpLink (respond s p ty sectors half payload) l) :=
  ⟨sentOn_pumpLink l (sentOn_sendPacket (p := answerOf s p ty sectors payload) h half),
    (linksOnly_sendPacket s half [answerOf s p ty sectors payload]).sameMemory.trans (sameMemory_pumpLink _ l)⟩

theorem answerOf_takeRx (s : State) (l i : Nat) (p : Packet) (ty : PktType) (n : Nat) (payload : List Byte) :
    answerOf (takeRx s l i) p ty n payload = answerOf s p ty n payload := by
  obtain ⟨ls, h⟩ := takeRx_eq s l i
  rw [h]
  rfl

section
variable {s : State} {l k : Nat} {p : Packet} {ty : PktType} {i : Instr} {chk : Chk}

/-- A row that serves its packets at the home. -/
def ServesHome (i : Instr) (s : State) (l : Nat) (ty : PktType) (chk : Chk) : Prop :=
  exec i s = .next (onPacket [ty] l (serveMemory l chk) s)

theorem servesHome_refused (hrow : ServesHome i s l ty chk) (harrived : Arrived s l ty p k) {n : Nat}
    (hrefusal : packetRefusal s p = homeRefusal s p.addr n) : RefusedAt i s l k p n := by
  intro c hc hreach
  refine ⟨_, hrow, ?_⟩
  rw [onPacket_here harrived, serveMemory_refused ((packetRefusal_takeRx s l k p).trans (hrefusal.trans hc)), ← answerOf_takeRx s l k]
  obtain ⟨hsent, hsame⟩ := respond_done .refused 0 0 (leBytes 2 c) hreach l
  exact ⟨hsent, (sameMemory_takeRx s l k).trans hsame⟩

theorem servesHome_taken (hrow : ServesHome i s l ty chk) (harrived : Arrived s l ty p k) (hrefusal : packetRefusal s p = none)
    (htable : slotTableAt p.addr = none) {ops : List (Nat × ReqOp)} (hops : packetOps p = ops) (hne : ops ≠ []) :
    TakenAtHome i s l k p ops := by
  refine hrow.trans (congrArg _ ?_)
  rw [onPacket_here harrived, serveMemory_taken ((packetRefusal_takeRx s l k p).trans hrefusal) htable (hops ▸ hne), hops]

theorem servesHome_done (hrow : ServesHome i s l ty chk) (harrived : Arrived s l ty p k) (hrefusal : packetRefusal s p = none)
    (htable : slotTableAt p.addr = none) (hops : packetOps p = []) {half n : Nat} {payload : List Byte} {aty : PktType}
    (hanswer : answerPacket (takeRx s l k) p [] = respond (takeRx s l k) p aty n half payload) :
    DoneAtHome i s (takeRx s l k) (answerOf s p aty n payload) := by
  intro hreach
  refine ⟨_, hrow, ?_⟩
  rw [onPacket_here harrived, serveMemory_done ((packetRefusal_takeRx s l k p).trans hrefusal) htable hops, hanswer,
    ← answerOf_takeRx s l k]
  exact respond_done aty n half payload hreach l

end

/-! ### The rows -/

section
variable {s : State} {l i : Nat} {p : Packet}

theorem readPacket_row (s : State) (l : Nat) (chk : Chk) : ServesHome (.readPacket l chk) s l .read chk := rfl
theorem writePacket_row (s : State) (l : Nat) : ServesHome (.writePacket l) s l .write .ok := rfl
theorem writeMaskedPacket_row (s : State) (l : Nat) : ServesHome (.writeMaskedPacket l) s l .writeMasked .ok := rfl
theorem atomPacket_row (s : State) (l : Nat) : ServesHome (.atomPacket l) s l .atom .ok := rfl

theorem redPacket_row (h : frontPacket (getLink s l) [.red] = some (p, i)) (hroom : redRoom s p = true) :
    ServesHome (.redPacket l) s l .red .ok := congrArg Host.Outcome.next (onReduce_room h hroom)

theorem redMaskedPacket_row (h : frontPacket (getLink s l) [.redMasked] = some (p, i)) (hroom : redRoom s p = true) :
    ServesHome (.redMaskedPacket l) s l .redMasked .ok := congrArg Host.Outcome.next (onReduce_room h hroom)

theorem isSome_slotTableAt_of_room {a off n : Nat} (h : slotTableAt a = some off) (hroom : off + n ≤ 2 ^ 24) (hn : 0 < n) :
    (slotTableAt (a + n - 1)).isSome := by
  unfold slotTableAt at h ⊢
  split at h
  · next ha =>
    have hoff : a - slotBase = off := Option.some.inj h
    rw [if_pos (by omega)]
    rfl
  · cases h

/-- A read of the slot table is not refused. -/
theorem packetRefusal_table {off : Nat} (hty : p.ty = .read) (h : slotTableAt p.addr = some off)
    (hroom : off + 32 * (p.sectors + 1) ≤ 2 ^ 24) : packetRefusal s p = none := by
  have hlast := isSome_slotTableAt_of_room h hroom (by omega)
  unfold packetRefusal farRefusal
  rw [packetSpan_sectors (.inl hty), if_pos hty, if_pos (by simp [h, hlast])]

theorem serveMemory_table {off : Nat} (hty : p.ty = .read) (h : slotTableAt p.addr = some off)
    (hroom : off + 32 * (p.sectors + 1) ≤ 2 ^ 24) (chk : Chk) : serveMemory l chk p s =
      if chk = .failed then refusePeer (readSlot s (off / 256) chk) p Code.checkFailed
      else respond (readSlot s (off / 256) chk) p .readData p.sectors 0 (tableBytes s off (32 * (p.sectors + 1))) := by
  have hnone := packetRefusal_table (s := s) hty h hroom
  unfold packetRefusal at hnone
  unfold serveMemory
  rw [hnone, h, packetSpan_sectors (.inl hty)]

theorem readSlot_ok (s : State) (n : Nat) : readSlot s n .ok = s := by
  simp [readSlot, noteTransient]

theorem tableBytes_takeRx (s : State) (l i off n : Nat) : tableBytes (takeRx s l i) off n = tableBytes s off n := by
  obtain ⟨ls, h⟩ := takeRx_eq s l i
  rw [h]
  rfl

/-- READ_PACKET. -/
theorem readPacket_home (chk : Chk) (h : Arrived s l .read p i) : let n := 32 * (p.sectors + 1)
    (slotTableAt p.addr = none → RefusedAt (.readPacket l chk) s l i p n) ∧
    (∀ off, slotTableAt p.addr = some off → off + n ≤ 2 ^ 24 → chk = .failed → exec (.readPacket l chk) s =
      .next (pumpLink (refusePeer (readSlot (takeRx s l i) (off / 256) .failed) p Code.checkFailed) l)) ∧
    (∀ off, slotTableAt p.addr = some off → off + n ≤ 2 ^ 24 → chk = .ok →
      DoneAtHome (.readPacket l chk) s (takeRx s l i) (answerOf s p .readData p.sectors
        ((List.range n).map (fun k => (slotBytes s ((off + k) / 256)).getD ((off + k) % 256) 0#8)))) ∧
    (slotTableAt p.addr = none → homeRefusal s p.addr n = none → p.addr % 32 = 0 →
      TakenAtHome (.readPacket l chk) s l i p ((List.range (p.sectors + 1)).map (fun k => (p.addr / 32 + k, .read)))) := by
  intro n
  have hty : p.ty = .read := frontPacket_ty h.1
  have hspan : packetSpan p = n := packetSpan_sectors (.inl hty)
  have hrow := readPacket_row s l chk
  refine ⟨fun htable => ?_, fun off htable hroom hchk => ?_, fun off htable hroom hchk => ?_, fun htable hnone halign => ?_⟩
  · exact servesHome_refused hrow h (by rw [packetRefusal_read hty htable, hspan])
  · refine hrow.trans (congrArg _ ?_)
    rw [onPacket_here h, serveMemory_table hty htable hroom, if_pos hchk, hchk]
  · intro hreach
    refine ⟨_, hrow, ?_⟩
    rw [onPacket_here h, serveMemory_table hty htable hroom, hchk, if_neg (by decide), readSlot_ok, tableBytes_takeRx,
      ← answerOf_takeRx s l i]
    exact respond_done .readData p.sectors 0 _ hreach l
  · refine servesHome_taken hrow h (by rw [packetRefusal_read hty htable, hspan, hnone]) htable ?_ (by simp)
    unfold packetOps
    rw [hty]
    dsimp only
    rw [hspan]
    exact readOps_sectors halign p.sectors

/-- WRITE_PACKET. -/
theorem writePacket_home (h : Arrived s l .write p i) : RefusedAt (.writePacket l) s l i p (32 * (p.sectors + 1)) ∧
    (homeRefusal s p.addr (32 * (p.sectors + 1)) = none → slotTableAt p.addr = none → p.sectors ≤ 6 → p.addr % 32 = 0 →
      TakenAtHome (.writePacket l) s l i p
        ((List.range (p.sectors + 1)).map (fun k => (p.addr / 32 + k, .write fullMask (slice p.payload (32 * k) 32))))) := by
  have hty : p.ty = .write := frontPacket_ty h.1
  have hspan := packetSpan_sectors (.inr (.inl hty))
  have hrefusal : packetRefusal s p = homeRefusal s p.addr (32 * (p.sectors + 1)) := by
    rw [packetRefusal_other (by simp [hty]), hspan]
  refine ⟨servesHome_refused (writePacket_row s l) h hrefusal, fun hnone htable hsectors halign => ?_⟩
  refine servesHome_taken (writePacket_row s l) h (hrefusal.trans hnone) htable ?_ (by simp)
  unfold packetOps
  rw [hty]
  dsimp only
  rw [hspan, storeOps_sectors p.payload (p.sectors + 1) (by omega) halign]
  simp only [Nat.zero_add]

/-- WRITE_MASKED_PACKET. -/
theorem writeMaskedPacket_home (h : Arrived s l .writeMasked p i) :
    let mask (k : Nat) : Nat := bits (leAt p.payload 0 16) (32 * k + 31) (32 * k)
    let ops := ([0, 1, 2, 3].filter (fun k => mask k != 0)).map (fun k =>
      (p.addr / 128 * 4 + k, ReqOp.write (mask k) (slice p.payload (16 + 32 * k) 32)))
    RefusedAt (.writeMaskedPacket l) s l i p 128 ∧
    (homeRefusal s p.addr 128 = none → slotTableAt p.addr = none →
      (ops ≠ [] → TakenAtHome (.writeMaskedPacket l) s l i p ops) ∧
      (ops = [] → DoneAtHome (.writeMaskedPacket l) s (takeRx s l i) (answerOf s p .writeAck 0 []))) := by
  intro mask ops
  have hty : p.ty = .writeMasked := frontPacket_ty h.1
  have hrefusal : packetRefusal s p = homeRefusal s p.addr 128 := by
    rw [packetRefusal_other (by simp [hty]), packetSpan_line (.inl hty)]
  have hops : packetOps p = ops := by
    unfold packetOps
    rw [hty]
    exact maskedOps_eq _ _ _
  refine ⟨servesHome_refused (writeMaskedPacket_row s l) h hrefusal, fun hnone htable => ⟨fun hne => ?_, fun hnil => ?_⟩⟩
  · exact servesHome_taken (writeMaskedPacket_row s l) h (hrefusal.trans hnone) htable hops hne
  · refine servesHome_done (half := homeHalfOf (takeRx s l i) p.addr) (writeMaskedPacket_row s l) h (hrefusal.trans hnone) htable
      (hops.trans hnil) ?_
    unfold answerPacket
    simp only [gotFailed, List.find?_nil, hty]

/-- The lanes of an ATOM or RED_MASKED packet. -/
theorem pktLanes_eq (p : Packet) (cas : Bool) : pktLanes p cas = (selected (pktSize p) (leAt p.payload 8 16)).map (fun o =>
    if cas then { lane := o / pktSize p, addr := p.addr + o, opnd := leAt p.payload (24 + o % 64) (pktSize p),
                  swap := leAt p.payload (88 + o % 64) (pktSize p) }
    else { lane := o / pktSize p, addr := p.addr + o, opnd := leAt p.payload (24 + o) (pktSize p), swap := 0 }) := by
  rw [selected_eq_maskElems]
  rfl

theorem atomLine_nil {p : Packet} (h : atomLanes p = []) (got : List Served) : atomLine p got = List.replicate 128 0#8 := by
  unfold atomLine
  rw [h]
  rfl

/-- ATOM_PACKET. -/
theorem atomPacket_home (h : Arrived s l .atom p i) (hsize : bits (leAt p.payload 0 8) 6 4 = 2) :
    let v := bits (leAt p.payload 0 8) 3 0
    let mask := leAt p.payload 8 16
    let lane (o : Nat) : RedLane := if v = 10
      then { lane := o / 4, addr := p.addr + o, opnd := leAt p.payload (24 + o % 64) 4, swap := leAt p.payload (88 + o % 64) 4 }
      else { lane := o / 4, addr := p.addr + o, opnd := leAt p.payload (24 + o) 4, swap := 0 }
    let ops := laneOps (atomOp v) true ((selected 4 mask).map lane)
    RefusedAt (.atomPacket l) s l i p 128 ∧
    (homeRefusal s p.addr 128 = none → slotTableAt p.addr = none →
      (ops ≠ [] → TakenAtHome (.atomPacket l) s l i p ops) ∧
      (ops = [] → DoneAtHome (.atomPacket l) s (takeRx s l i) (answerOf s p .atomData 3 (leBytes 16 mask ++ List.replicate 128 0#8)))) := by
  intro v mask lane ops
  have hty : p.ty = .atom := frontPacket_ty h.1
  have hrefusal : packetRefusal s p = homeRefusal s p.addr 128 := by
    rw [packetRefusal_other (by simp [hty]), packetSpan_line (.inr (.inl hty))]
  have hfour : pktSize p = 4 := by
    unfold pktSize
    rw [hsize]
    rfl
  have hlanes : atomLanes p = (selected 4 mask).map lane := by
    unfold atomLanes
    rw [pktLanes_eq, hfour]
    refine List.map_congr_left (fun o _ => ?_)
    show (if (v == 10) = true then _ else _) = if v = 10 then _ else _
    simp only [beq_iff_eq]
  have hops : packetOps p = ops := by
    unfold packetOps
    rw [hty]
    show laneOps (atomOp v) true (atomLanes p) = ops
    rw [hlanes]
  refine ⟨servesHome_refused (atomPacket_row s l) h hrefusal, fun hnone htable => ⟨fun hne => ?_, fun hnil => ?_⟩⟩
  · exact servesHome_taken (atomPacket_row s l) h (hrefusal.trans hnone) htable hops hne
  · refine servesHome_done (half := homeHalfOf (takeRx s l i) p.addr) (atomPacket_row s l) h (hrefusal.trans hnone) htable
      (hops.trans hnil) ?_
    have hnolane : atomLanes p = [] := hlanes.trans (laneOps_eq_nil.mp hnil)
    unfold answerPacket
    simp only [gotFailed, List.find?_nil, hty, atomLine_nil hnolane]
    rfl

/-- RED_PACKET. -/
theorem redPacket_home (h : Arrived s l .red p i) :
    let v := bits (leAt p.payload 0 8) 3 0
    let size := 2 ^ bits (leAt p.payload 0 8) 6 4
    let n := 32 * (p.sectors + 1)
    let lanes : List RedLane := (List.range (n / size)).map (fun k =>
      { lane := k, addr := p.addr + k * size, opnd := leAt p.payload (8 + k * size) size, swap := 0 })
    (redRoom s p = false → exec (.redPacket l) s = .next s) ∧
    (redRoom s p = true → RefusedAt (.redPacket l) s l i p n) ∧
    (redRoom s p = true → homeRefusal s p.addr n = none → slotTableAt p.addr = none → lanes ≠ [] →
      TakenAtHome (.redPacket l) s l i p (laneOps (redOp v) false lanes)) := by
  intro v size n lanes
  have hty : p.ty = .red := frontPacket_ty h.1
  have hrefusal : packetRefusal s p = homeRefusal s p.addr n := by
    rw [packetRefusal_other (by simp [hty]), packetSpan_sectors (.inr (.inr hty))]
  refine ⟨fun hfull => congrArg _ (onReduce_full h.1 h.2.1 hfull), fun hroom => ?_, fun hroom hnone htable hne => ?_⟩
  · exact servesHome_refused (redPacket_row h.1 hroom) h hrefusal
  · refine servesHome_taken (redPacket_row h.1 hroom) h (hrefusal.trans hnone) htable ?_ (fun hnil => hne (laneOps_eq_nil.mp hnil))
    unfold packetOps
    rw [hty]
    rfl

/-- RED_MASKED_PACKET. -/
theorem redMaskedPacket_home (h : Arrived s l .redMasked p i) :
    let v := bits (leAt p.payload 0 8) 3 0
    let size := 2 ^ bits (leAt p.payload 0 8) 6 4
    let ops := laneOps (redOp v) false ((selected size (leAt p.payload 8 16)).map (fun o =>
      { lane := o / size, addr := p.addr + o, opnd := leAt p.payload (24 + o) size, swap := 0 }))
    (redRoom s p = false → exec (.redMaskedPacket l) s = .next s) ∧
    (redRoom s p = true → RefusedAt (.redMaskedPacket l) s l i p 128) ∧
    (redRoom s p = true → homeRefusal s p.addr 128 = none → slotTableAt p.addr = none →
      (ops ≠ [] → TakenAtHome (.redMaskedPacket l) s l i p ops) ∧
      (ops = [] → DoneAtHome (.redMaskedPacket l) s (takeRx s l i) (answerOf s p .writeAck 0 []))) := by
  intro v size ops
  have hty : p.ty = .redMasked := frontPacket_ty h.1
  have hrefusal : packetRefusal s p = homeRefusal s p.addr 128 := by
    rw [packetRefusal_other (by simp [hty]), packetSpan_line (.inr (.inr hty))]
  have hops : packetOps p = ops := by
    unfold packetOps
    rw [hty]
    dsimp only
    rw [pktLanes_eq]
    rfl
  refine ⟨fun hfull => congrArg _ (onReduce_full h.1 h.2.1 hfull), fun hroom => ?_, fun hroom hnone htable => ⟨fun hne => ?_, fun hnil => ?_⟩⟩
  · exact servesHome_refused (redMaskedPacket_row h.1 hroom) h hrefusal
  · exact servesHome_taken (redMaskedPacket_row h.1 hroom) h (hrefusal.trans hnone) htable hops hne
  · refine servesHome_done (half := homeHalfOf (takeRx s l i) p.addr) (redMaskedPacket_row h.1 hroom) h (hrefusal.trans hnone) htable
      (hops.trans hnil) ?_
    unfold answerPacket
    simp only [gotFailed, List.find?_nil, hty]

end

/-! ### Jobs (R19) -/

theorem endJob_waiting {s : State} {j : Job} (h : j.left ≠ 0) : endJob s j = s := if_pos h

theorem runJobs_waiting {s : State} (h : ∀ j ∈ s.cistern.jobs, j.left ≠ 0) : runJobs s = s :=
  foldl_keeps id s.cistern.jobs (fun _ j hj => endJob_waiting (h j hj)) s

theorem runJobs_single {s : State} {j : Job} (h : s.cistern.jobs = [j]) : runJobs s = endJob s j := by
  unfold runJobs
  rw [h]
  rfl

/-- A request that reaches its slice from this half stands at the end of the slice's inbox. -/
theorem sendReq_near {s : State} {r : Req} {g : Nat} (hg : homeSlice s (r.sector * 32) = g) (h : originHalf g r.origin = g / 64) :
    sendReq s r = setSlice s g { getSlice s g with inbox := (getSlice s g).inbox ++ [⟨originPort r.origin, r, false, false⟩] } := by
  unfold sendReq
  subst hg
  exact if_pos h

/-- A request for the other half is put on the Sill. -/
theorem sendReq_far {s : State} {r : Req} {g : Nat} (hg : homeSlice s (r.sector * 32) = g) (h : originHalf g r.origin ≠ g / 64) :
    (sendReq s r).cistern.slices = s.cistern.slices ∧ (sendReq s r).cistern.jobs = s.cistern.jobs ∧
      (sendReq s r).cistern.nextJob = s.cistern.nextJob ∧
      ∃ x, mapGet [] (sendReq s r).cistern.sill (originHalf g r.origin) =
        mapGet [] s.cistern.sill (originHalf g r.origin) ++ [x] ∧ x.item = .request r g ∧ x.cls = r.cls := by
  subst hg
  unfold sendReq
  rw [if_neg h]
  unfold sillSend
  dsimp only
  split
  · exact ⟨rfl, rfl, rfl, _, mapGet_mapSet_same _ _ _ _, rfl, rfl⟩
  · exact ⟨rfl, rfl, rfl, _, mapGet_mapSet_same _ _ _ _, rfl, rfl⟩

theorem originHalf_job (g half port id : Nat) : originHalf g (.job half port id) = g / 64 ↔ reachesHalf half g = true := by
  unfold originHalf reachesHalf
  dsimp only
  split
  · next h => simp [h]
  · next h => simp [h]

/-- A job with one request. -/
theorem startJob_single (s : State) (half port cls wtag sector : Nat) (who : JobFor) (op : ReqOp) :
    let t := startJob s half port cls wtag who [] [(sector, op)]
    let g := homeSlice s (sector * 32)
    let r : Req := { origin := .job half port s.cistern.nextJob, cls := cls, sector := sector, wtag := wtag, op := op }
    t.cistern.jobs = s.cistern.jobs ++ [⟨s.cistern.nextJob, half, port, cls, who, 1, []⟩] ∧ t.cistern.nextJob = s.cistern.nextJob + 1 ∧
      (reachesHalf half g = true → getSlice t g = { getSlice s g with inbox := (getSlice s g).inbox ++ [⟨port, r, false, false⟩] } ∧
        t.cistern.sill = s.cistern.sill ∧ ∀ k, k ≠ g → getSlice t k = getSlice s k) ∧
      (reachesHalf half g = false → t.cistern.slices = s.cistern.slices ∧ ∃ x, mapGet [] t.cistern.sill half =
        mapGet [] s.cistern.sill half ++ [x] ∧ x.item = .request r g ∧ x.cls = cls) := by
  intro t g r
  obtain ⟨u, hu⟩ : ∃ u : State, u = { s with cistern := { s.cistern with
    jobs := s.cistern.jobs ++ [⟨s.cistern.nextJob, half, port, cls, who, 1, []⟩], nextJob := s.cistern.nextJob + 1 } } := ⟨_, rfl⟩
  have ht : t = sendReq u r := by rw [hu]; rfl
  have hg : homeSlice u (r.sector * 32) = g := by rw [hu]; rfl
  have hslices : u.cistern.slices = s.cistern.slices := by rw [hu]
  have hslice : ∀ k, getSlice u k = getSlice s k := fun k => by rw [hu]; rfl
  have hjobs : u.cistern.jobs = s.cistern.jobs ++ [⟨s.cistern.nextJob, half, port, cls, who, 1, []⟩] := by rw [hu]
  have hnext : u.cistern.nextJob = s.cistern.nextJob + 1 := by rw [hu]
  have hsill : u.cistern.sill = s.cistern.sill := by rw [hu]
  rw [ht]
  cases hreach : reachesHalf half g with
  | true =>
    rw [sendReq_near hg ((originHalf_job g half port _).mpr hreach)]
    refine ⟨hjobs, hnext, fun _ => ⟨?_, hsill, fun k hk => ?_⟩, fun h => absurd h (by decide)⟩
    · rw [getSlice_setSlice_same, hslice]
      rfl
    · rw [getSlice_setSlice_ne _ _ _ _ hk, hslice]
  | false =>
    have hfar : originHalf g r.origin ≠ g / 64 := fun he => by
      have := (originHalf_job g half port _).mp he
      rw [hreach] at this
      cases this
    have hhalf : originHalf g r.origin = half := by
      unfold reachesHalf at hreach
      simp only [Bool.or_eq_false_iff, beq_eq_false_iff_ne] at hreach
      exact if_neg hreach.1
    obtain ⟨hs, hj, hn, x, hx, hitem, hcls⟩ := sendReq_far hg hfar
    rw [hhalf, hsill] at hx
    exact ⟨hj.trans hjobs, hn.trans hnext, fun h => absurd h (by decide), fun _ => ⟨hs.trans hslices, x, hx, hitem, hcls⟩⟩

theorem portSend_logged (s : State) (n : Nat) : Logged s (portSend s n) ∧ (portSend s n).out = s.out := by
  unfold portSend
  split
  · exact ⟨(logged_bump s _ _).trans (logged_bump _ _ _), rfl⟩
  · exact ⟨.refl _, rfl⟩

/-- A BAR4 read completes, and nothing of the Cistern changes. -/
theorem completeBar4_spec (s : State) (tag : Nat) (data : List Byte) (bad : Bool) :
    (completeBar4 s tag data bad).cistern = s.cistern ∧
      (completeBar4 s tag data bad).out = .completion tag (if bad then .poisoned else .success) data :: s.out := by
  obtain ⟨⟨_, _, _, _, _, hlog⟩, hout⟩ := portSend_logged (emit s (.completion tag (if bad then .poisoned else .success) data)) data.length
  have hcistern : (portSend (emit s (.completion tag (if bad then .poisoned else .success) data)) data.length).cistern = s.cistern := by
    rw [hlog]
    rfl
  unfold completeBar4
  cases bad
  · exact ⟨hcistern, hout⟩
  · exact ⟨hcistern, hout⟩

theorem linksOnly_respond (s : State) (p : Packet) (ty : PktType) (n half : Nat) (payload : List Byte) :
    LinksOnly s (respond s p ty n half payload) :=
  linksOnly_sendPacket _ _ _

theorem linksOnly_answerPacket (s : State) (p : Packet) (got : List Served) : LinksOnly s (answerPacket s p got) := by
  unfold answerPacket
  dsimp only
  split
  · exact linksOnly_respond _ _ _ _ _ _
  · split <;> exact linksOnly_respond _ _ _ _ _ _

/-- A peer's request whose home slices have all answered is answered. -/
theorem answerPacket_sent {s : State} {p : Packet} (h : Reaches s p.src) (got : List Served) :
    (gotFailed got = none → p.ty = .read →
      SentOn (answerPacket s p got) (answerOf s p .readData p.sectors (gotBytes got p.addr (packetSpan p)))) ∧
    (gotFailed got = none → p.ty = .atom →
      SentOn (answerPacket s p got) (answerOf s p .atomData 3 (leBytes 16 (leAt p.payload 8 16) ++ atomLine p got))) ∧
    (gotFailed got = none → p.ty ≠ .read → p.ty ≠ .atom → SentOn (answerPacket s p got) (answerOf s p .writeAck 0 [])) ∧
    (∀ v, gotFailed got = some v →
      SentOn (answerPacket s p got) (answerOf s p .refused 0 (leBytes 2 (if v.code = 0 then Code.checkFailed else v.code)))) := by
  have hrespond (ty : PktType) (n half : Nat) (payload : List Byte) : SentOn (respond s p ty n half payload) (answerOf s p ty n payload) :=
    sentOn_sendPacket (p := answerOf s p ty n payload) h half
  unfold answerPacket
  refine ⟨fun hgot hty => ?_, fun hgot hty => ?_, fun hgot hread hatom => ?_, fun v hgot => ?_⟩
  · simp only [hgot, hty]
    exact hrespond _ _ _ _
  · simp only [hgot, hty]
    exact hrespond _ _ _ _
  · simp only [hgot]
    exact hrespond _ _ _ _
  · simp only [hgot]
    exact hrespond _ _ _ _

/-- A job that has all its answers is over, and what it was for goes on. -/
theorem runJobs_done {s : State} {j : Job} (hjobs : s.cistern.jobs = [j]) (hleft : j.left = 0) :
    (j.who = .post → runJobs s = dropJob s j.id) ∧
    (∀ tag a n, j.who = .bar4 tag a n → (runJobs s).cistern = (dropJob s j.id).cistern ∧
      (runJobs s).out = .completion tag (if (gotFailed j.got).isSome then .poisoned else .success) (gotBytes j.got a n) :: s.out) ∧
    (∀ p, j.who = .packet p → Reaches s p.src → (runJobs s).cistern.jobs = [] ∧
      (gotFailed j.got = none → p.ty = .read → SentOn (runJobs s) (answerOf s p .readData p.sectors (gotBytes j.got p.addr (packetSpan p)))) ∧
      (gotFailed j.got = none → p.ty = .atom →
        SentOn (runJobs s) (answerOf s p .atomData 3 (leBytes 16 (leAt p.payload 8 16) ++ atomLine p j.got))) ∧
      (gotFailed j.got = none → p.ty ≠ .read → p.ty ≠ .atom → SentOn (runJobs s) (answerOf s p .writeAck 0 [])) ∧
      (∀ v, gotFailed j.got = some v →
        SentOn (runJobs s) (answerOf s p .refused 0 (leBytes 2 (if v.code = 0 then Code.checkFailed else v.code))))) := by
  rw [runJobs_single hjobs]
  unfold endJob
  rw [if_neg (by simp [hleft])]
  refine ⟨fun hwho => ?_, fun tag a n hwho => ?_, fun p hwho hreach => ?_⟩
  · rw [hwho]
  · simp only [hwho]
    exact completeBar4_spec (dropJob s j.id) tag (gotBytes j.got a n) (gotFailed j.got).isSome
  · simp only [hwho]
    refine ⟨?_, answerPacket_sent (s := dropJob s j.id) hreach j.got⟩
    rw [(linksOnly_answerPacket (dropJob s j.id) p j.got).sameMemory.1]
    simp [dropJob, hjobs]

/-! ### The obligation -/

/-- A row's packet: nothing has come, or it waits, or it is another device's. -/
theorem packetRow_spec {row : PktType × (Nat → Instr)} (hrow : row ∈ packetRows) (s : State) (l : Nat) :
    (frontPacket (getLink s l) [row.1] = none → exec (row.2 l) s = .next s) ∧
    (∀ p i, frontPacket (getLink s l) [row.1] = some (p, i) →
      (packetHeld s p = true → exec (row.2 l) s = .next s) ∧
      (p.dst ≠ s.pool.device → (2 ≤ p.hops ∨ isMember s p.dst = false) →
        ∃ t, exec (row.2 l) s = .next t ∧ Counted s t Key.protocolErrors 1 ∧ ReportedUnit t Code.linkProtocol 1 l [] ∧ SameMemory s t) ∧
      (p.dst ≠ s.pool.device → p.hops < 2 → isMember s p.dst = true → Reaches (takeRx s l i) p.dst →
        ∃ t, exec (row.2 l) s = .next t ∧ SentOn t { p with hops := p.hops + 1 } ∧ SameMemory s t)) := by
  rcases exec_packetRow hrow s l with ⟨run, hexec⟩ | ⟨hexec, q, k, hq, hdst⟩
  · refine ⟨fun h => by rw [hexec, onPacket_none h], fun p i h => ⟨fun hheld => by rw [hexec, onPacket_held h hheld], ?_, ?_⟩⟩
    · exact fun hfar hstop => ⟨_, hexec, (farPacket run h hfar).1 hstop⟩
    · exact fun hfar hhops hmember hreach => ⟨_, hexec, (farPacket run h hfar).2 hhops hmember hreach⟩
  · refine ⟨fun _ => hexec, fun p i h => ?_⟩
    obtain ⟨rfl, rfl⟩ : q = p ∧ k = i := by simpa [hq] using h
    exact ⟨fun _ => hexec, fun hfar => absurd hdst hfar, fun hfar => absurd hdst hfar⟩

/-- Settles O41: each type of request packet, and each end of a job, by what the home of the packet does with it. -/
theorem requestPackets : Obligations.RequestPackets :=
  ⟨fun _ hrow s l _ => packetRow_spec hrow s l, fun _ _ _ _ chk h => readPacket_home chk h, fun _ _ _ _ h => writePacket_home h,
    fun _ _ _ _ h => writeMaskedPacket_home h, fun _ _ _ _ h hsize => atomPacket_home h hsize, fun _ _ _ _ h => redPacket_home h,
    fun _ _ _ _ h => redMaskedPacket_home h, fun _ h => runJobs_waiting h,
    fun s half port cls wtag sector who op => startJob_single s half port cls wtag sector who op,
    fun _ _ hjobs hleft => runJobs_done hjobs hleft⟩

end Sys2Proof.Machine
end


section
/-! SUPPORT. A slice's lines, sectors and ways, and what the acts of a slice leave alone (R222 to R229). -/

namespace Sys2Proof.Machine

/-! ### Lines and sectors -/

theorem findLine_tag {sl : Slice} {line : Nat} {l : Line} (h : findLine sl line = some l) : l.tag = line := by
  simpa using List.find?_some h

/-- A line put into its set is the line found there. -/
theorem findLine_putLine (sl : Slice) (l : Line) : findLine (putLine sl l) l.tag = some l := by
  have hothers : (((mapGet [] sl.sets (homeSet (l.tag * 128))).filter (fun m => m.tag != l.tag)).filter
      (fun m => decide (m.way < l.way))).find? (fun m => m.tag == l.tag) = none := by
    simp only [List.find?_eq_none, List.mem_filter]
    intro m hm
    simpa using hm.1.2
  unfold findLine putLine mapMod
  rw [mapGet_mapSet_same]
  dsimp only
  rw [List.find?_append, hothers]
  simp

/-- The acts on one line change nothing of a slice but its sets and its clock of uses. -/
theorem touchLine_eq (sl : Slice) (line : Nat) : ∃ ss c, touchLine sl line = { sl with sets := ss, useClock := c } := by
  unfold touchLine
  split
  · exact ⟨_, _, rfl⟩
  · exact ⟨_, _, rfl⟩

theorem modSector_eq (sl : Slice) (n : Nat) (f : Sector → Sector) : ∃ ss, modSector sl n f = { sl with sets := ss } := by
  unfold modSector
  split
  · exact ⟨_, rfl⟩
  · exact ⟨_, rfl⟩

theorem findLine_touchLine (sl : Slice) (line : Nat) : ∃ c, findLine (touchLine sl line) line = (findLine sl line).map (fun l => { l with use := c }) := by
  unfold touchLine
  cases h : findLine sl line with
  | none => exact ⟨0, h⟩
  | some l =>
    obtain rfl := findLine_tag h
    exact ⟨sl.useClock + 1, findLine_putLine sl { l with use := sl.useClock + 1 }⟩

/-- A use of a sector's line leaves the sectors of the line. -/
theorem getSector_touchLine {sl : Slice} {line n : Nat} (h : lineOf n = line) : getSector (touchLine sl line) n = getSector sl n := by
  subst h
  obtain ⟨c, h⟩ := findLine_touchLine sl (lineOf n)
  unfold getSector
  rw [h]
  cases findLine sl (lineOf n) <;> rfl

theorem findLine_modSector {sl : Slice} {n line : Nat} {l : Line} (hline : lineOf n = line) (h : findLine sl line = some l)
    (f : Sector → Sector) : findLine (modSector sl n f) line = some { l with sectors := (List.range 4).map (fun i =>
      if i = secIndex n then f (l.sectors.getD i Sector.absent) else l.sectors.getD i Sector.absent) } := by
  subst hline
  unfold modSector
  rw [h]
  obtain hl := findLine_tag h
  rw [← hl]
  exact findLine_putLine sl _

/-- A change of a sector of a line that is there changes that sector of it alone. -/
theorem getSector_modSector {sl : Slice} {n m : Nat} (hline : lineOf m = lineOf n) (h : (findLine sl (lineOf n)).isSome = true)
    (f : Sector → Sector) : getSector (modSector sl n f) m = if m = n then f (getSector sl m) else getSector sl m := by
  obtain ⟨l, hl⟩ := Option.isSome_iff_exists.mp h
  have hindex : secIndex m = secIndex n ↔ m = n := by
    unfold lineOf at hline
    unfold secIndex
    omega
  have hlt : secIndex m < 4 := Nat.mod_lt _ (by decide)
  unfold getSector
  rw [hline, findLine_modSector rfl hl, hl]
  simp only [List.getD_eq_getElem?_getD, List.getElem?_map, List.getElem?_range hlt, Option.map_some, Option.getD_some, hindex]

theorem findLine_modSector_isSome {sl : Slice} {n line : Nat} (hline : lineOf n = line) (h : (findLine sl line).isSome = true)
    (f : Sector → Sector) : (findLine (modSector sl n f) line).isSome = true := by
  obtain ⟨l, hl⟩ := Option.isSome_iff_exists.mp h
  rw [findLine_modSector hline hl]
  rfl

theorem findLine_touchLine_isSome {sl : Slice} {line : Nat} (h : (findLine sl line).isSome = true) :
    (findLine (touchLine sl line) line).isSome = true := by
  obtain ⟨c, hc⟩ := findLine_touchLine sl line
  rw [hc, Option.isSome_map, h]

/-- A sector that is there belongs to a line that is there. -/
theorem findLine_of_secPresent {sl : Slice} {n : Nat} (h : secPresent (getSector sl n) = true) : (findLine sl (lineOf n)).isSome = true := by
  cases hl : findLine sl (lineOf n) with
  | some l => rfl
  | none => simp [getSector, hl, secPresent, Sector.absent] at h

/-! ### Ways -/

theorem takeWay_eq {sl : Slice} {line ways cls : Nat} {e : Slice × Nat} (h : takeWay sl line ways cls = some e) :
    ∃ ss wb vs, e.1 = { sl with sets := ss, wb := wb, victims := vs } := by
  unfold takeWay at h
  dsimp only at h
  split at h
  · obtain rfl := (Option.some.inj h).symm
    dsimp only
    split
    · exact ⟨_, _, _, rfl⟩
    · exact ⟨_, _, _, rfl⟩
  · split at h
    · exact absurd h (by simp)
    · obtain ⟨l, -, rfl⟩ := Option.map_eq_some_iff.mp h
      exact ⟨_, _, _, rfl⟩

/-- A line that has been given a way is there; beside the sets, the writeback buffers and the victims, its slice is as before. -/
theorem placeLine_spec {sl x : Slice} {line ways cls : Nat} (h : placeLine sl line ways cls = some x) :
    (findLine x line).isSome = true ∧ ∃ ss wb vs, x = { sl with sets := ss, wb := wb, victims := vs } := by
  unfold placeLine at h
  split at h
  · next l hl =>
    obtain rfl := Option.some.inj h
    exact ⟨by rw [hl]; rfl, _, _, _, rfl⟩
  · obtain ⟨e, he, rfl⟩ := Option.map_eq_some_iff.mp h
    obtain ⟨ss, wb, vs, hx⟩ := takeWay_eq he
    refine ⟨?_, ?_⟩
    · rw [findLine_putLine e.1 { way := e.2, tag := line, sectors := List.replicate 4 Sector.absent, held := [], use := e.1.useClock, cls := cls }]
      rfl
    · rw [hx]
      exact ⟨_, _, _, rfl⟩

/-- The same slice, with another inbox and another time of its last completion. -/
def Slice.reInbox (sl : Slice) (xs : List InReq) (ld : Nat) : Slice := { sl with inbox := xs, lastDone := ld }

theorem takeWay_reInbox (sl : Slice) (xs : List InReq) (ld line ways cls : Nat) :
    takeWay (sl.reInbox xs ld) line ways cls = (takeWay sl line ways cls).map (fun e => (e.1.reInbox xs ld, e.2)) := by
  have hway : invalidWay (sl.reInbox xs ld) (homeSet (line * 128)) ways = invalidWay sl (homeSet (line * 128)) ways := rfl
  have hlru : lruLine (sl.reInbox xs ld) (homeSet (line * 128)) ways = lruLine sl (homeSet (line * 128)) ways := rfl
  have hwb : wbLines (sl.reInbox xs ld) = wbLines sl := rfl
  have hsets : (sl.reInbox xs ld).sets = sl.sets := rfl
  unfold takeWay
  dsimp only
  rw [hway, hlru, hwb, hsets]
  cases invalidWay sl (homeSet (line * 128)) ways with
  | some w =>
    dsimp only
    cases (mapGet [] sl.sets (homeSet (line * 128))).find? (fun l => l.way == w) <;> rfl
  | none =>
    dsimp only
    split
    · rfl
    · cases lruLine sl (homeSet (line * 128)) ways <;> rfl

/-- The way of a line does not rest on the inbox. -/
theorem placeLine_reInbox (sl : Slice) (xs : List InReq) (ld line ways cls : Nat) :
    placeLine (sl.reInbox xs ld) line ways cls = (placeLine sl line ways cls).map (·.reInbox xs ld) := by
  have hfind : findLine (sl.reInbox xs ld) line = findLine sl line := rfl
  unfold placeLine
  rw [hfind, takeWay_reInbox]
  cases findLine sl line with
  | some l => rfl
  | none => cases takeWay sl line ways cls <;> rfl

/-! ### What a slice's own act leaves alone -/

/-- An act of slice `g` up to its answers: the slice, window bytes, counters and free values alone have changed. -/
def SliceAct (s t : State) (g : Nat) : Prop :=
  ∃ f ob ss w wt wb, t = { s with
      free := f, keeper := { s.keeper with obj := ob },
      cistern := { s.cistern with slices := ss, win := w, winTag := wt, winBad := wb } } ∧
    ∀ k, k ≠ g → mapGet Slice.empty ss k = getSlice s k

theorem SliceAct.refl (s : State) (g : Nat) : SliceAct s s g := ⟨_, _, _, _, _, _, rfl, fun _ _ => rfl⟩

theorem SliceAct.trans {a b c : State} {g : Nat} (h : SliceAct a b g) (k : SliceAct b c g) : SliceAct a c g := by
  obtain ⟨_, _, _, _, _, _, rfl, ho⟩ := h
  obtain ⟨_, _, _, _, _, _, rfl, hk⟩ := k
  exact ⟨_, _, _, _, _, _, rfl, fun j hj => (hk j hj).trans (ho j hj)⟩

theorem sliceAct_setSlice (s : State) (g : Nat) (x : Slice) : SliceAct s (setSlice s g x) g :=
  ⟨_, _, _, _, _, _, rfl, fun k hk => getSlice_setSlice_ne s g k x hk⟩

theorem sliceAct_setObj (s : State) (g k n : Nat) : SliceAct s (setObj s k n) g := ⟨_, _, _, _, _, _, rfl, fun _ _ => rfl⟩

theorem sliceAct_bump (s : State) (g k n : Nat) : SliceAct s (bump s k n) g := sliceAct_setObj s g _ _

theorem sliceAct_setSectorNow (s : State) (g n : Nat) (data : List Byte) (tag : Nat) (bad : Bool) :
    SliceAct s (setSectorNow s g n data tag bad) g := by
  unfold setSectorNow
  split
  · exact ⟨_, _, _, _, _, _, rfl, fun _ _ => rfl⟩
  · exact sliceAct_setSlice _ _ _

theorem SliceAct.now {s t : State} {g : Nat} (h : SliceAct s t g) : now t = now s := by
  obtain ⟨_, _, _, _, _, _, rfl, -⟩ := h
  rfl

theorem SliceAct.cores {s t : State} {g : Nat} (h : SliceAct s t g) : t.cores = s.cores := by
  obtain ⟨_, _, _, _, _, _, rfl, -⟩ := h
  rfl

theorem SliceAct.jobs {s t : State} {g : Nat} (h : SliceAct s t g) : t.cistern.jobs = s.cistern.jobs := by
  obtain ⟨_, _, _, _, _, _, rfl, -⟩ := h
  rfl

/-- Answers on their way: the cores' memory instructions, the jobs and the Sill, with its counters, alone have changed. -/
def Delivered (t u : State) : Prop :=
  ∃ cs ob js si, u = { t with
      cores := cs, keeper := { t.keeper with obj := ob }, cistern := { t.cistern with jobs := js, sill := si } } ∧
    (∀ q, (mapGet Pos.idle cs q).basin = (getPos t q).basin) ∧
    ∀ k, (∀ c, k ≠ Key.bytes (2 * 16 + c)) → (∀ c, k ≠ Key.limitHolds (2 * 16 + c)) → mapGet (objDefault k) ob k = getObj t k

theorem Delivered.refl (s : State) : Delivered s s := ⟨_, _, _, _, rfl, fun _ => rfl, fun _ _ _ => rfl⟩

theorem Delivered.trans {a b c : State} (h : Delivered a b) (k : Delivered b c) : Delivered a c := by
  obtain ⟨_, _, _, _, rfl, hb, ho⟩ := h
  obtain ⟨_, _, _, _, rfl, kb, ko⟩ := k
  exact ⟨_, _, _, _, rfl, fun q => (kb q).trans (hb q), fun j h1 h2 => (ko j h1 h2).trans (ho j h1 h2)⟩

theorem delivered_setPos (s : State) (p : Nat) (c : Pos) (h : c.basin = (getPos s p).basin) : Delivered s (setPos s p c) := by
  refine ⟨_, _, _, _, rfl, fun q => ?_, fun _ _ _ => rfl⟩
  show (getPos (setPos s p c) q).basin = _
  by_cases hq : q = p
  · rw [hq, getPos_setPos_same, h]
  · rw [getPos_setPos_ne _ _ _ _ hq]

theorem delivered_modMem (s : State) (p id : Nat) (f : MemOp → MemOp) : Delivered s (modMem s p id f) := delivered_setPos _ _ _ rfl

theorem delivered_modJob (s : State) (id : Nat) (f : Job → Job) : Delivered s (modJob s id f) :=
  ⟨_, _, _, _, rfl, fun _ => rfl, fun _ _ _ => rfl⟩

theorem delivered_withSill (s : State) (x : Sparse (List SillXfer)) : Delivered s { s with cistern := { s.cistern with sill := x } } :=
  ⟨_, _, _, _, rfl, fun _ => rfl, fun _ _ _ => rfl⟩

theorem delivered_countBytes (s : State) (cls n : Nat) : Delivered s (countBytes s 2 cls n) :=
  ⟨_, _, _, _, rfl, fun _ => rfl, fun k hb _ => getObj_bump_ne _ _ _ k (hb cls)⟩

theorem delivered_countHold (s : State) (cls : Nat) : Delivered s (countHold s 2 cls) :=
  ⟨_, _, _, _, rfl, fun _ => rfl, fun k _ hl => getObj_bump_ne _ _ _ k (hl cls)⟩

theorem delivered_sillSend (s : State) (dir : Nat) (item : SillItem) (cls bytes : Nat) : Delivered s (sillSend s dir item cls bytes) := by
  have hput := delivered_withSill s
  unfold sillSend
  dsimp only
  split <;> split
  · exact (hput _).trans (delivered_countBytes _ _ _)
  · exact (hput _).trans (delivered_countHold _ _)
  · exact (hput _).trans (delivered_countBytes _ _ _)
  · exact (hput _).trans (delivered_countHold _ _)

theorem delivered_deliverAns (s : State) (g : Nat) (a : Ans) : Delivered s (deliverAns s g a) := by
  unfold deliverAns
  split
  · split
    · exact delivered_modMem _ _ _ _
    · exact delivered_sillSend _ _ _ _ _
  · split
    · exact delivered_modJob _ _ _
    · exact delivered_sillSend _ _ _ _ _
  · exact .refl s

theorem delivered_deliverAll (s : State) (g : Nat) (as : List Ans) : Delivered s (deliverAll s g as) :=
  foldl_rel .refl .trans _ (fun t a _ => delivered_deliverAns t g a) s

theorem delivered_acceptReq (s : State) (g : Nat) (r : Req) : Delivered s (acceptReq s g r) := by
  unfold acceptReq
  split
  · exact .refl s
  · exact .refl s
  · split
    · exact delivered_modMem _ _ _ _
    · exact delivered_sillSend _ _ _ _ _
  · exact .refl s
  · split
    · exact delivered_modJob _ _ _
    · exact delivered_sillSend _ _ _ _ _
  · exact .refl s

theorem Delivered.slice {t u : State} (h : Delivered t u) (g : Nat) : getSlice u g = getSlice t g := by
  obtain ⟨_, _, _, _, rfl, -⟩ := h
  rfl

theorem Delivered.sector {t u : State} (h : Delivered t u) (g n : Nat) : sectorNow u g n = sectorNow t g n := by
  obtain ⟨_, _, _, _, rfl, -⟩ := h
  rfl

/-- A slice's act and the answers that it sends leave what `SliceFrame` names. -/
theorem SliceAct.frame {s t u : State} {g : Nat} (h : SliceAct s t g) (k : Delivered t u) : SliceFrame s u g := by
  obtain ⟨_, _, _, _, _, _, rfl, ho⟩ := h
  obtain ⟨_, _, _, _, rfl, hb, -⟩ := k
  exact ⟨ho, rfl, rfl, rfl, rfl, rfl, hb⟩

/-! ### What an answer finds -/

theorem getGroup_modMem_same (s : State) (p id k : Nat) (f : MemOp → MemOp) : getGroup (modMem s p id f) p k =
    (getGroup s p k).map (fun gr => { gr with mem := gr.mem.map (fun m => if m.id = id then f m else m) }) := by
  show mapGet none (getPos (setPos s p _) p).groups k = _
  rw [getPos_setPos_same]
  show mapGet none ((getPos s p).groups.map _) k = Option.map _ (mapGet none (getPos s p).groups k)
  induction (getPos s p).groups with
  | nil => rfl
  | cons e m ih =>
    obtain ⟨j, v⟩ := e
    simp only [List.map_cons, mapGet]
    split
    · rfl
    · exact ih

/-- The memory instruction that an answer names has the answer. -/
theorem findMem_deliverData {s : State} {p k id : Nat} {gr : Group} {m : MemOp} (h : findMem s p k id = some (gr, m)) (sv : Served) :
    ∃ gr', findMem (deliverData s p id sv) p k id = some (gr', { m with got := m.got ++ [sv] }) := by
  obtain ⟨x, hx, hfind⟩ := Option.bind_eq_some_iff.mp h
  obtain ⟨y, hy, he⟩ := Option.map_eq_some_iff.mp hfind
  obtain ⟨rfl, rfl⟩ := Prod.mk.inj he
  have hid : y.id = id := by simpa using List.find?_some hy
  have hkeeps : (fun m : MemOp => m.id == id) ∘ (fun m : MemOp => if m.id = id then { m with got := m.got ++ [sv] } else m) =
      fun m => m.id == id := by
    funext m
    simp only [Function.comp]
    split <;> rfl
  unfold findMem deliverData
  rw [getGroup_modMem_same, hx]
  refine ⟨{ x with mem := x.mem.map (fun m => if m.id = id then { m with got := m.got ++ [sv] } else m) }, ?_⟩
  simp only [Option.map_some, Option.bind_some, List.find?_map, hkeeps, hy, if_pos hid]

/-- Whoever asked for a sector and is answered at the slice has the answer. -/
theorem answers_deliverAns {s t : State} (hcores : t.cores = s.cores) (hjobs : t.cistern.jobs = s.cistern.jobs) (g : Nat) (r : Req)
    (cls : Nat) (v : Served) : Answers s (deliverAns t g ⟨r.origin, cls, v⟩) g r v := by
  refine ⟨fun p k id gr m ho hhalf hfind => ?_, fun half port id ho hreach j hj hid => ?_⟩
  · have hfind' : findMem t p k id = some (gr, m) := by
      unfold findMem getGroup getPos at hfind ⊢
      rw [hcores]
      exact hfind
    obtain ⟨gr', h⟩ := findMem_deliverData hfind' v
    refine ⟨gr', { m with got := m.got ++ [v] }, ?_, List.mem_append_right _ (List.mem_singleton.mpr rfl), rfl⟩
    unfold deliverAns
    simp only [ho, if_pos hhalf]
    exact h
  · unfold deliverAns
    simp only [ho, if_pos hreach]
    refine ⟨{ j with left := j.left - 1, got := j.got ++ [v] }, ?_, hid, rfl, List.mem_append_right _ (List.mem_singleton.mpr rfl)⟩
    refine List.mem_map.mpr ⟨j, hjobs ▸ hj, if_pos hid⟩

end Sys2Proof.Machine
end


section
/-! A slice takes a request of its inbox (R224, R225, R229, R477). -/

namespace Sys2Proof.Machine

/-! ### The bytes, tag and flag of a sector after a write -/

theorem sectorNow_setSlice {s : State} {g n : Nat} {x : Slice} (h : getSector x n = getSector (getSlice s g) n) :
    sectorNow (setSlice s g x) g n = sectorNow s g n := by
  unfold sectorNow
  rw [getSlice_setSlice_same, h]
  rfl

theorem getElem_mapGetList (m : Sparse Byte) : ∀ (n k i : Nat) (h : i < (mapGetList 0#8 m k n).length),
    (mapGetList 0#8 m k n)[i] = mapGet 0#8 m (k + i)
  | 0, _, _, h => absurd h (Nat.not_lt_zero _)
  | _ + 1, _, 0, _ => rfl
  | n + 1, k, i + 1, h => by
    have := getElem_mapGetList m n (k + 1) i (Nat.lt_of_succ_lt_succ h)
    rw [Nat.add_assoc, Nat.add_comm 1 i] at this
    exact this

theorem mapGetList_mapSetList (m : Sparse Byte) (k : Nat) (bs : List Byte) : mapGetList 0#8 (mapSetList 0#8 m k bs) k bs.length = bs := by
  refine List.ext_getElem (mapGetList_length _ _ _ _) fun i h1 h2 => ?_
  rw [getElem_mapGetList]
  exact mapGet_mapSetList_in _ _ _ _ _ h2

/-- A sector that has been written reads as it was written, and is DIRTY. -/
theorem sectorNow_setSectorNow {s : State} {g n : Nat} (h : isWin n = true ∨ (findLine (getSlice s g) (lineOf n)).isSome = true)
    (data : List Byte) (tag : Nat) (bad : Bool) : sectorNow (setSectorNow s g n data tag bad) g n = ⟨.dirty, slice data 0 32, tag, bad⟩ := by
  unfold sectorNow setSectorNow
  by_cases hw : isWin n = true
  · have hwrite := mapGetList_mapSetList s.cistern.win (n * 32 - winBase) (slice data 0 32)
    rw [length_slice] at hwrite
    simp only [if_pos hw, mapGet_mapSet_same, hwrite]
  · rw [if_neg hw, if_neg hw, getSlice_setSlice_same, getSector_touchLine rfl, getSector_modSector rfl (h.resolve_left hw), if_pos rfl]

theorem isPresent_cases {s : State} {g n : Nat} (h : isPresent s g n = true) :
    isWin n = true ∨ (findLine (getSlice s g) (lineOf n)).isSome = true :=
  (Bool.or_eq_true_iff.mp h).imp_right findLine_of_secPresent

theorem slice_mergeBytes (mask : Nat) (old new : List Byte) : slice (mergeBytes mask old new) 0 32 = mergeBytes mask old new :=
  slice_self (by simp [mergeBytes])

/-! ### What serving a request keeps of the slice -/

/-- An act of slice `g` that takes nothing from its inbox and moves no bytes of point 0. -/
structure Serves (s t : State) (g : Nat) : Prop where
  act : SliceAct s t g
  inbox : (getSlice t g).inbox = (getSlice s g).inbox
  bytes : ∀ c < 8, getObj t (Key.bytes c) = getObj s (Key.bytes c)

theorem Serves.refl (s : State) (g : Nat) : Serves s s g := ⟨.refl s g, rfl, fun _ _ => rfl⟩

theorem Serves.trans {a b c : State} {g : Nat} (h : Serves a b g) (k : Serves b c g) : Serves a c g :=
  ⟨h.act.trans k.act, k.inbox.trans h.inbox, fun i hi => (k.bytes i hi).trans (h.bytes i hi)⟩

theorem serves_setSlice {s : State} {g : Nat} {x : Slice} (h : x.inbox = (getSlice s g).inbox) : Serves s (setSlice s g x) g :=
  ⟨sliceAct_setSlice s g x, by rw [getSlice_setSlice_same, h], fun _ _ => rfl⟩

theorem serves_setObj {s : State} {g k : Nat} (n : Nat) (h : ∀ c < 8, Key.bytes c ≠ k) : Serves s (setObj s k n) g :=
  ⟨sliceAct_setObj s g k n, rfl, fun c hc => getObj_setObj_ne _ _ _ _ (h c hc)⟩

theorem serves_bump {s : State} {g k : Nat} (n : Nat) (h : ∀ c < 8, Key.bytes c ≠ k) : Serves s (bump s k n) g := serves_setObj _ h

/-- The counters of the slices lie above those of the classes. -/
theorem bytes_ne {c k : Nat} (hc : c < 8) (hk : 0x48000000 ≤ k) : Key.bytes c ≠ k := by
  dsimp only [Key.bytes]
  omega

theorem serves_bump_slice (s : State) (g : Nat) {k : Nat} (n : Nat) (hk : 0x48000000 ≤ k) : Serves s (bump s k n) g :=
  serves_bump n fun _ hc => bytes_ne hc hk

theorem serves_bump_hits (s : State) (g n : Nat) : Serves s (bump s (Key.hits g) n) g :=
  serves_bump_slice s g n (by dsimp only [Key.hits]; omega)

theorem serves_setSectorNow (s : State) (g n : Nat) (data : List Byte) (tag : Nat) (bad : Bool) : Serves s (setSectorNow s g n data tag bad) g := by
  refine ⟨sliceAct_setSectorNow s g n data tag bad, ?_, fun _ _ => ?_⟩
  · unfold setSectorNow
    split
    · rfl
    · obtain ⟨ss, h⟩ := modSector_eq (getSlice s g) n (fun _ => { st := .dirty, data := slice data 0 32, wtag := tag, bad := bad })
      obtain ⟨ss', c, h'⟩ := touchLine_eq { getSlice s g with sets := ss } (lineOf n)
      rw [getSlice_setSlice_same, h, h']
  · unfold setSectorNow
    split <;> rfl

/-! ### Registers and fetches (R229) -/

/-- The miss registers, by their lines and waiters. -/
def Slice.regs (sl : Slice) : List (Nat × List Req) := sl.mrs.map (fun m => (m.line, m.waiters))

/-- The slice, as the acts of a miss on the line leave it: the sectors of the line are there, and read as `sector` says. -/
structure LineAt (sl : Slice) (line : Nat) (sector : Nat → Sector) : Prop where
  there : (findLine sl line).isSome = true
  reads : ∀ m, lineOf m = line → getSector sl m = sector m

theorem lineAt_touchLine {sl : Slice} {line : Nat} {f : Nat → Sector} (h : LineAt sl line f) : LineAt (touchLine sl line) line f :=
  ⟨findLine_touchLine_isSome h.there, fun m hm => (getSector_touchLine hm).trans (h.reads m hm)⟩

/-- A request that has joined its line's register is among its waiters. -/
theorem joinRegister_spec {s : State} {g : Nat} {r : Req} {f : Nat → Sector} (h : LineAt (getSlice s g) (lineOf r.sector) f) :
    Serves s (joinRegister s g r) g ∧ LineAt (getSlice (joinRegister s g r) g) (lineOf r.sector) f ∧
      (∃ e ∈ (getSlice (joinRegister s g r) g).regs, e.1 = lineOf r.sector ∧ r ∈ e.2) ∧
      (mrOf (getSlice s g) (lineOf r.sector) = none →
        (getSlice (joinRegister s g r) g).regs = (getSlice s g).regs ++ [(lineOf r.sector, [r])]) := by
  obtain ⟨ss, c, htouch⟩ := touchLine_eq (getSlice s g) (lineOf r.sector)
  have hline := lineAt_touchLine h
  have hmr : mrOf (touchLine (getSlice s g) (lineOf r.sector)) (lineOf r.sector) = mrOf (getSlice s g) (lineOf r.sector) := by rw [htouch]; rfl
  have hmrs : (touchLine (getSlice s g) (lineOf r.sector)).mrs = (getSlice s g).mrs := by rw [htouch]
  have hinbox : (touchLine (getSlice s g) (lineOf r.sector)).inbox = (getSlice s g).inbox := by rw [htouch]
  unfold joinRegister
  dsimp only
  rw [hmr]
  cases hm : mrOf (getSlice s g) (lineOf r.sector) with
  | some m =>
    dsimp only
    rw [getSlice_setSlice_same]
    have hbump : Serves s (bump s (Key.merges g) 1) g := serves_bump_slice s g 1 (by dsimp only [Key.merges]; omega)
    refine ⟨hbump.trans (serves_setSlice hinbox), ⟨hline.there, hline.reads⟩, ?_, fun h => absurd h (by simp)⟩
    have hmem : m ∈ (touchLine (getSlice s g) (lineOf r.sector)).mrs := hmrs ▸ List.mem_of_find?_eq_some hm
    have hat : m.line = lineOf r.sector := by simpa using List.find?_some hm
    refine ⟨(m.line, m.waiters ++ [r]), ?_, hat, List.mem_append_right _ (List.mem_singleton.mpr rfl)⟩
    unfold Slice.regs
    refine List.mem_map.mpr ⟨{ m with waiters := m.waiters ++ [r] }, List.mem_map.mpr ⟨m, hmem, if_pos hat⟩, rfl⟩
  | none =>
    dsimp only
    rw [getSlice_setSlice_same]
    have hpeak : ∀ n, Serves s (if getObj s (Key.mrPeak g) < n then setObj s (Key.mrPeak g) n else s) g := fun n => by
      split
      · exact serves_setObj _ fun _ hc => bytes_ne hc (by dsimp only [Key.mrPeak]; omega)
      · exact .refl s g
    have hsame : ∀ n, getSlice (if getObj s (Key.mrPeak g) < n then setObj s (Key.mrPeak g) n else s) g = getSlice s g := fun n => by
      split <;> rfl
    have hregs : (Slice.regs { touchLine (getSlice s g) (lineOf r.sector) with
        mrs := (touchLine (getSlice s g) (lineOf r.sector)).mrs ++ [{ line := lineOf r.sector, waiters := [r], fetches := [] }] }) =
        (getSlice s g).regs ++ [(lineOf r.sector, [r])] := by
      unfold Slice.regs
      simp [hmrs]
    refine ⟨(hpeak _).trans (serves_setSlice ?_), ⟨hline.there, hline.reads⟩, ?_, fun _ => hregs⟩
    · rw [hsame]
      exact hinbox
    · rw [hregs]
      exact ⟨_, List.mem_append_right _ (List.mem_singleton.mpr rfl), rfl, List.mem_singleton.mpr rfl⟩

/-- A sector that is wanted is PENDING, and asked for if it was not. -/
theorem wantSector_spec {s : State} {g n cls line : Nat} {f : Nat → Sector} (hn : lineOf n = line) (h : LineAt (getSlice s g) line f) :
    let t := wantSector s g (getSlice s g) n cls
    Serves s t g ∧ (getSlice t g).regs = (getSlice s g).regs ∧
      (∃ x : Sector, x.st = .pending ∧ LineAt (getSlice t g) line (fun m => if m = n then x else f m)) ∧
      ((f n).st ≠ .pending → ∃ e ∈ (getSlice t g).fetches, e.sector = n ∧ e.sent = false) := by
  intro t
  have hread := h.reads n hn
  by_cases hp : (getSector (getSlice s g) n).st = .pending
  · have ht : t = setSlice s g (getSlice s g) := if_pos hp
    rw [ht, getSlice_setSlice_same]
    refine ⟨serves_setSlice rfl, rfl, ⟨f n, by rw [← hread]; exact hp, h.there, fun m hm => ?_⟩, fun hne => absurd (hread ▸ hp) hne⟩
    rw [h.reads m hm]
    split
    · next he => rw [he]
    · rfl
  · obtain ⟨ss, hmod⟩ := modSector_eq (getSlice s g) n (fun x => { x with st := .pending })
    have hmrs : (modSector (getSlice s g) n (fun x => { x with st := .pending })).mrs = (getSlice s g).mrs := by rw [hmod]
    have hinbox : (modSector (getSlice s g) n (fun x => { x with st := .pending })).inbox = (getSlice s g).inbox := by rw [hmod]
    obtain ⟨x, hx, hregs, hsets, hfetch, ht⟩ : ∃ x : Slice, x.inbox = (getSlice s g).inbox ∧ x.regs = (getSlice s g).regs ∧
        x.sets = (modSector (getSlice s g) n (fun x => { x with st := .pending })).sets ∧
        (∃ e ∈ x.fetches, e.sector = n ∧ e.sent = false) ∧ t = bump (setSlice s g x) (Key.misses g) 1 := by
      refine ⟨_, ?_, ?_, ?_, ?_, if_neg hp⟩
      · exact hinbox
      · unfold Slice.regs
        simp only [hmrs, List.map_map]
        refine List.map_congr_left fun m _ => ?_
        simp only [Function.comp]
        split <;> rfl
      · rfl
      · exact ⟨_, List.mem_append_right _ (List.mem_singleton.mpr rfl), rfl, rfl⟩
    have hslice : getSlice t g = x := by
      rw [ht]
      exact getSlice_setSlice_same _ _ _
    have hfind : ∀ k, findLine x k = findLine (modSector (getSlice s g) n (fun x => { x with st := .pending })) k := fun k => by
      unfold findLine
      rw [hsets]
    have hthere : (findLine (getSlice s g) (lineOf n)).isSome = true := hn ▸ h.there
    rw [hslice]
    refine ⟨?_, hregs, ⟨{ f n with st := .pending }, rfl, ?_, fun m hm => ?_⟩, fun _ => hfetch⟩
    · rw [ht]
      exact (serves_setSlice hx).trans (serves_bump_slice _ g 1 (by dsimp only [Key.misses]; omega))
    · rw [hfind]
      exact findLine_modSector_isSome hn h.there _
    · have : getSector x m = getSector (modSector (getSlice s g) n (fun x => { x with st := .pending })) m := by
        unfold getSector
        rw [hfind]
      rw [this, getSector_modSector (hm.trans hn.symm) hthere, h.reads m hm]
      split
      · next he => rw [he]
      · rfl

/-- Sectors that are wanted one after another are all PENDING. -/
theorem wantSectors_spec {g cls line : Nat} (ns : List Nat) (hns : ∀ n ∈ ns, lineOf n = line) :
    ∀ {s : State} {f : Nat → Sector}, LineAt (getSlice s g) line f →
      let t := ns.foldl (fun st n => wantSector st g (getSlice st g) n cls) s
      Serves s t g ∧ (getSlice t g).regs = (getSlice s g).regs ∧
        ∃ f', LineAt (getSlice t g) line f' ∧ ∀ m, ((f m).st = .pending ∨ m ∈ ns) → (f' m).st = .pending := by
  induction ns with
  | nil => exact fun h => ⟨.refl _ _, rfl, _, h, fun m hm => hm.resolve_right List.not_mem_nil⟩
  | cons n ns ih =>
    intro s f h
    obtain ⟨hserves, hregs, ⟨x, hx, hline⟩, -⟩ := wantSector_spec (cls := cls) (hns n (List.mem_cons_self ..)) h
    obtain ⟨hserves', hregs', f', hline', hpending⟩ := ih (fun m hm => hns m (List.mem_cons_of_mem _ hm)) hline
    refine ⟨hserves.trans hserves', hregs'.trans hregs, f', hline', fun m hm => hpending m ?_⟩
    by_cases hmn : m = n
    · rw [if_pos hmn]
      exact .inl hx
    · rw [if_neg hmn]
      exact hm.imp_right fun hmem => (List.mem_cons.mp hmem).resolve_left hmn

/-- A miss: the request is among its register's waiters, and its sector has been asked for (R229). -/
theorem joinMiss_spec {s : State} {g : Nat} {r : Req} {f : Nat → Sector} (h : LineAt (getSlice s g) (lineOf r.sector) f) :
    Serves s (joinMiss s g r) g ∧ (∃ e ∈ (getSlice (joinMiss s g r) g).regs, e.1 = lineOf r.sector ∧ r ∈ e.2) ∧
      (getSector (getSlice (joinMiss s g r) g) r.sector).st = .pending ∧
      ((f r.sector).st ≠ .pending → ∃ e ∈ (getSlice (joinMiss s g r) g).fetches, e.sector = r.sector ∧ e.sent = false) := by
  obtain ⟨hjoin, hline, hregs, -⟩ := joinRegister_spec h
  obtain ⟨hwant, hregs', ⟨x, hx, hline'⟩, hfetch⟩ := wantSector_spec (cls := r.cls) rfl hline
  unfold joinMiss
  rw [hregs']
  refine ⟨hjoin.trans hwant, hregs, ?_, hfetch⟩
  rw [hline'.reads _ rfl, if_pos rfl]
  exact hx

/-- The four sectors of a line that begins at an ordinary sector are ordinary. -/
theorem isWin_line {n k : Nat} (hn : n % 4 = 0) (h : isWin n = false) (hk : k < 4) : isWin (n + k) = false := by
  simp only [isWin, decide_eq_false_iff_not, winBase] at h ⊢
  omega

theorem mem_lineSectors {n k : Nat} (hn : n % 4 = 0) (hk : k < 4) : n + k ∈ lineSectors (lineOf n) := by
  have hbase : lineOf n * 4 = n := by
    unfold lineOf
    omega
  refine List.mem_map.mpr ⟨k, ?_, by rw [hbase]⟩
  have : k = 0 ∨ k = 1 ∨ k = 2 ∨ k = 3 := by omega
  simpa using this

theorem lineOf_of_mem {n line : Nat} (h : n ∈ lineSectors line) : lineOf n = line := by
  obtain ⟨k, hk, rfl⟩ := List.mem_map.mp h
  have : k < 4 := by
    simp only [List.mem_cons, List.not_mem_nil, or_false] at hk
    omega
  unfold lineOf
  omega

/-- The sectors of a line that are not there. -/
def missingSectors (s : State) (g line : Nat) : List Nat := (lineSectors line).filter (fun n => !(isPresent s g n))

/-- The hits of a read of a line of which `n` sectors are not there. -/
def countThere (s : State) (g n : Nat) : State := if n < 4 then bump s (Key.hits g) (4 - n) else s

theorem serveLine_eq (s : State) (g : Nat) (r : Req) : serveLine s g r =
    let ms := missingSectors s g (lineOf r.sector)
    let s1 := countThere s g ms.length
    if ms.isEmpty then setSlice s1 g (touchLine (getSlice s1 g) (lineOf r.sector))
    else ms.foldl (fun st n => wantSector st g (getSlice st g) n r.cls) (joinRegister s1 g r) := rfl

theorem countThere_spec (s : State) (g n : Nat) : Serves s (countThere s g n) g ∧ getSlice (countThere s g n) g = getSlice s g := by
  unfold countThere
  split
  · exact ⟨serves_bump_hits _ _ _, rfl⟩
  · exact ⟨.refl s g, rfl⟩

/-- A read of a whole line waits for each of its sectors that is not there; it is one waiter (R229, R273). -/
theorem serveLine_spec {s : State} {g : Nat} {r : Req} {f : Nat → Sector} (h : LineAt (getSlice s g) (lineOf r.sector) f)
    (hn : r.sector % 4 = 0) (hwin : isWin r.sector = false) :
    Serves s (serveLine s g r) g ∧
      (∀ k < 4, secPresent (f (r.sector + k)) = false → (getSector (getSlice (serveLine s g r) g) (r.sector + k)).st = .pending) ∧
      (isPresent s g r.sector = false → mrOf (getSlice s g) (lineOf r.sector) = none →
        (getSlice (serveLine s g r) g).regs = (getSlice s g).regs ++ [(lineOf r.sector, [r])]) := by
  rw [serveLine_eq]
  obtain ⟨ms, hms⟩ : ∃ ms, missingSectors s g (lineOf r.sector) = ms := ⟨_, rfl⟩
  have hmissing : ∀ n, n ∈ lineSectors (lineOf r.sector) → isPresent s g n = false → n ∈ ms := fun n hmem habsent =>
    hms ▸ List.mem_filter.mpr ⟨hmem, by rw [habsent]; rfl⟩
  have hat : ∀ m ∈ ms, lineOf m = lineOf r.sector := fun m hm => by
    rw [← hms] at hm
    exact lineOf_of_mem (List.mem_of_mem_filter hm)
  obtain ⟨s1, hs1⟩ : ∃ s1, countThere s g ms.length = s1 := ⟨_, rfl⟩
  obtain ⟨hserves1, hslice1⟩ := hs1 ▸ countThere_spec s g ms.length
  dsimp only
  rw [hms, hs1]
  have hline1 : LineAt (getSlice s1 g) (lineOf r.sector) f := hslice1 ▸ h
  have habsent : ∀ k < 4, secPresent (f (r.sector + k)) = false → r.sector + k ∈ ms := fun k hk hp => by
    have hmem := mem_lineSectors hn hk
    refine hmissing _ hmem ?_
    unfold isPresent
    rw [isWin_line hn hwin hk, h.reads _ (lineOf_of_mem hmem), hp]
    rfl
  cases hempty : ms.isEmpty with
  | true =>
    rw [if_pos rfl]
    obtain rfl := List.isEmpty_iff.mp hempty
    obtain ⟨ss, c, htouch⟩ := touchLine_eq (getSlice s1 g) (lineOf r.sector)
    refine ⟨hserves1.trans (serves_setSlice (by rw [htouch])), fun k hk hp => absurd (habsent k hk hp) List.not_mem_nil, fun hp => ?_⟩
    exact absurd (hmissing _ (mem_lineSectors hn (k := 0) (by decide)) hp) List.not_mem_nil
  | false =>
    rw [if_neg Bool.false_ne_true]
    obtain ⟨hjoin, hline2, -, hnew⟩ := joinRegister_spec hline1
    obtain ⟨hwant, hregs, f', hline3, hpending⟩ := wantSectors_spec (cls := r.cls) ms hat hline2
    refine ⟨hserves1.trans (hjoin.trans hwant), fun k hk hp => ?_, fun _ hmr => ?_⟩
    · have hmem := habsent k hk hp
      rw [hline3.reads _ (hat _ hmem)]
      exact hpending _ (.inr hmem)
    · rw [hregs, hnew (hslice1 ▸ hmr), hslice1]

/-! ### Entering the intake -/

/-- Once it is carried out, a request of the Sluice has its line held: the line's sectors are as before (R223, R274). -/
theorem markHeld_spec (s : State) (g : Nat) (r : Req) : Serves s (markHeld s g r) g ∧ (markHeld s g r).keeper = s.keeper ∧
    (∃ ss, getSlice (markHeld s g r) g = { getSlice s g with sets := ss }) ∧
    ∀ m, lineOf m = lineOf r.sector →
      getSector (getSlice (markHeld s g r) g) m = getSector (getSlice s g) m ∧ sectorNow (markHeld s g r) g m = sectorNow s g m := by
  unfold markHeld
  split
  · dsimp only
    split
    · next w ws l hwho hl =>
      have htag := findLine_tag hl
      have hsame : ∀ m, lineOf m = lineOf r.sector →
          getSector (putLine (getSlice s g) { l with held := w :: ws }) m = getSector (getSlice s g) m := fun m hm => by
        have hput : findLine (putLine (getSlice s g) { l with held := w :: ws }) (lineOf r.sector) = some { l with held := w :: ws } := by
          rw [← htag]
          exact findLine_putLine _ _
        unfold getSector
        rw [hm, hput, hl]
      refine ⟨serves_setSlice rfl, rfl, ⟨_, getSlice_setSlice_same _ _ _⟩, fun m hm => ⟨?_, sectorNow_setSlice (hsame m hm)⟩⟩
      rw [getSlice_setSlice_same]
      exact hsame m hm
    · exact ⟨.refl s g, rfl, ⟨_, rfl⟩, fun _ _ => ⟨rfl, rfl⟩⟩
  · exact ⟨.refl s g, rfl, ⟨_, rfl⟩, fun _ _ => ⟨rfl, rfl⟩⟩

/-- The device when a request has entered the intake and its bytes have been counted; the inbox is now `xs`. -/
structure Entered (s t : State) (g : Nat) (r : Req) (xs : List InReq) : Prop where
  act : SliceAct s t g
  slice : ∃ ld, getSlice t g = (getSlice s g).reInbox xs ld
  win : t.cistern.win = s.cistern.win ∧ t.cistern.winTag = s.cistern.winTag ∧ t.cistern.winBad = s.cistern.winBad
  keeps : ∀ k, k ≠ Key.reduceArbitrations → k ≠ Key.bytes r.cls → getObj t k = getObj s k
  bytes : r.cls < 8 → Counted s t (Key.bytes r.cls) (reqBytes r)

theorem Entered.sector {s t : State} {g : Nat} {r : Req} {xs : List InReq} (h : Entered s t g r xs) (n : Nat) :
    sectorNow t g n = sectorNow s g n := by
  obtain ⟨ld, hslice⟩ := h.slice
  obtain ⟨hwin, htag, hbad⟩ := h.win
  unfold sectorNow
  rw [hslice, hwin, htag, hbad]
  rfl

theorem Entered.present {s t : State} {g : Nat} {r : Req} {xs : List InReq} (h : Entered s t g r xs) (n : Nat) :
    isPresent t g n = isPresent s g n := by
  obtain ⟨ld, hslice⟩ := h.slice
  unfold isPresent
  rw [hslice]
  rfl

theorem objBits_bytes : ∀ c < 8, objBits (Key.bytes c) = 64 := by decide +kernel

theorem counted_countBytes {s : State} {c : Nat} (hc : c < 8) (n : Nat) : Counted s (countBytes s 0 c n) (Key.bytes c) n := by
  unfold Counted countBytes
  rw [Nat.zero_mul, Nat.zero_add, getObj_bump_same, objBits_bytes c hc]

/-- A request whose line has none waiting for a way is carried out when it enters. -/
theorem enterIntake_enters {s : State} {g : Nat} {r : Req} (h : lineWaits (getSlice s g) (lineOf r.sector) = false) (chk : Chk) :
    ∃ t, Entered s t g r (getSlice s g).inbox ∧
      enterIntake s g r chk = (markHeld (serveReq t g r chk).1 g r, (serveReq t g r chk).2) := by
  have hkeep : ∀ (u : State) k, k ≠ Key.bytes r.cls → getObj (countBytes u 0 r.cls (reqBytes r)) k = getObj u k := fun u k hk =>
    getObj_bump_ne u _ _ k (by rwa [Nat.zero_mul, Nat.zero_add])
  have hact : ∀ u, SliceAct u (countBytes u 0 r.cls (reqBytes r)) g := fun u => sliceAct_bump u g _ _
  unfold enterIntake
  dsimp only
  rw [h, if_neg Bool.false_ne_true]
  refine ⟨_, ?_, rfl⟩
  split
  · exact ⟨(sliceAct_setSlice s g _).trans (hact _), ⟨_, getSlice_setSlice_same _ _ _⟩, ⟨rfl, rfl, rfl⟩,
      fun k _ hk => hkeep _ k hk, fun hc => counted_countBytes hc _⟩
  · exact ⟨hact s, ⟨_, rfl⟩, ⟨rfl, rfl, rfl⟩, fun k _ hk => hkeep s k hk, fun hc => counted_countBytes hc _⟩

/-- The count of an arbitration of reductions, which may or may not be made (R473). -/
def arbitrated (s : State) (rival : Bool) : State :=
  if rival then
    let (k, st) := takeFree s
    if Config.freeBit k then bump st Key.reduceArbitrations 1 else st
  else s

theorem arbitrated_eq (s : State) (b : Bool) : ∃ f ob, arbitrated s b = { s with free := f, keeper := { s.keeper with obj := ob } } ∧
    ∀ k, k ≠ Key.reduceArbitrations → mapGet (objDefault k) ob k = getObj s k := by
  unfold arbitrated
  cases b
  · exact ⟨_, _, rfl, fun _ _ => rfl⟩
  · rw [if_pos rfl]
    dsimp only
    split
    · exact ⟨_, _, rfl, fun k hk => getObj_bump_ne _ _ _ k hk⟩
    · exact ⟨_, _, rfl, fun _ _ => rfl⟩

theorem takeInbox_eq (s : State) (g i : Nat) (q : InReq) (chk : Chk) : ∃ b, takeInbox s g i q chk =
    let a := enterIntake (arbitrated (setSlice s g { getSlice s g with inbox := (getSlice s g).inbox.eraseIdx i }) b) g q.req chk
    acceptReq (deliverAll a.1 g a.2) g q.req := ⟨_, rfl⟩

/-- A request that is taken leaves the inbox and enters. -/
theorem takeInbox_enters {s : State} {g i : Nat} {q : InReq} (h : lineWaits (getSlice s g) (lineOf q.req.sector) = false) (chk : Chk) :
    ∃ t, Entered s t g q.req ((getSlice s g).inbox.eraseIdx i) ∧ takeInbox s g i q chk =
      acceptReq (deliverAll (markHeld (serveReq t g q.req chk).1 g q.req) g (serveReq t g q.req chk).2) g q.req := by
  obtain ⟨b, htake⟩ := takeInbox_eq s g i q chk
  obtain ⟨f, ob, heq, hob⟩ := arbitrated_eq (setSlice s g { getSlice s g with inbox := (getSlice s g).inbox.eraseIdx i }) b
  obtain ⟨u, hu⟩ : ∃ u, arbitrated (setSlice s g { getSlice s g with inbox := (getSlice s g).inbox.eraseIdx i }) b = u := ⟨_, rfl⟩
  rw [hu] at heq htake
  have hslice : getSlice u g = { getSlice s g with inbox := (getSlice s g).inbox.eraseIdx i } := by
    rw [heq]
    exact getSlice_setSlice_same _ _ _
  have hact : SliceAct s u g := by
    rw [heq]
    exact (sliceAct_setSlice s g _).trans ⟨_, _, _, _, _, _, rfl, fun _ _ => rfl⟩
  obtain ⟨t, hent, henter⟩ := enterIntake_enters (s := u) (g := g) (r := q.req) (by rw [hslice]; exact h) chk
  obtain ⟨ld, hld⟩ := hent.slice
  obtain ⟨hwin, htag, hbad⟩ := hent.win
  have hobj : ∀ k, k ≠ Key.reduceArbitrations → getObj u k = getObj s k := fun k hk => by
    rw [heq]
    exact hob k hk
  refine ⟨t, ⟨hact.trans hent.act, ⟨ld, by rw [hld, hslice]; rfl⟩, ?_, fun k hk hb => (hent.keeps k hk hb).trans (hobj k hk), fun hc => ?_⟩, ?_⟩
  · rw [hwin, htag, hbad, heq]
    exact ⟨rfl, rfl, rfl⟩
  · have hcount := hent.bytes hc
    unfold Counted at hcount ⊢
    rw [hcount, hobj _ (by dsimp only [Key.bytes, Key.reduceArbitrations]; omega)]
  · rw [htake, henter]

end Sys2Proof.Machine
end


section
/-! What a request finds that a slice takes: a present sector, a line with a way, or neither (R224, R225, R229). -/

namespace Sys2Proof.Machine

/-! ### Carrying out a request -/

theorem applySector_idle {s : State} {g n : Nat} (h : ∀ e ∈ (getSlice s g).redq, e.req.sector ≠ n) : applySector s g n = (s, []) := by
  have hnone : (getSlice s g).redq.filter (fun e => e.req.sector == n) = [] := by
    rw [List.filter_eq_nil_iff]
    exact fun e he => by simpa using h e he
  unfold applySector
  rw [hnone]
  split <;> rfl

section
variable {s : State} {g : Nat} {r : Req}

theorem serveReq_read (hp : isPresent s g r.sector = true) (hq : ∀ e ∈ (getSlice s g).redq, e.req.sector ≠ r.sector) (hop : r.op = .read) :
    serveReq s g r .ok =
      (setSlice (bump s (Key.hits g) 1) g { touchLine (getSlice s g) (lineOf r.sector) with lastDone := now s },
        [⟨r.origin, r.cls, ⟨r.sector, (sectorNow s g r.sector).data, (sectorNow s g r.sector).bad, (sectorNow s g r.sector).wtag, 0⟩⟩]) := by
  have hchk : (Chk.ok == Chk.failed) = false := rfl
  unfold serveReq readPresent
  rw [if_pos hp, hop, applySector_idle hq]
  simp only [reduceCtorEq, false_and, if_false, noteTransient, Bool.false_eq_true, List.nil_append, hchk, Bool.or_false]
  rfl

theorem serveReq_write {mask : Nat} {data : List Byte} (hp : isPresent s g r.sector = true)
    (hq : ∀ e ∈ (getSlice s g).redq, e.req.sector ≠ r.sector) (hop : r.op = .write mask data) (hbad : (sectorNow s g r.sector).bad = false) :
    ∃ u, u = setSectorNow s g r.sector (mergeBytes mask (sectorNow s g r.sector).data data) (writtenTag (sectorNow s g r.sector) r.wtag) false ∧
      serveReq s g r .ok = (bump (setSlice u g { getSlice u g with lastDone := now s }) (Key.hits g) 1, []) := by
  refine ⟨_, rfl, ?_⟩
  unfold serveReq writePresent
  rw [if_pos hp, hop]
  simp only [hbad, reduceCtorEq, Bool.false_eq_true, or_self, false_and, if_false, noteTransient]
  rw [applySector_idle hq]
  simp only [hbad, Bool.false_and]

theorem serveReq_reduce (hp : isPresent s g r.sector = true) (hop : isReduce r = true) :
    serveReq s g r .ok = (bump (setSlice s g (touchLine (enqueueRed (getSlice s g) r) (lineOf r.sector))) (Key.hits g) 1, []) := by
  unfold serveReq
  rw [if_pos hp]
  unfold isReduce at hop
  split at hop
  · next h => rw [h]
  · exact absurd hop Bool.false_ne_true

theorem serveReq_line (hp : isPresent s g r.sector = true) (hop : r.op = .line) : serveReq s g r .ok = (serveLine s g r, []) := by
  unfold serveReq
  rw [if_pos hp, hop]

/-- The request must wait for a way. -/
def mustWait (s : State) (g : Nat) (r : Req) : State :=
  bump (setSlice s g { getSlice s g with waits := (getSlice s g).waits ++ [⟨r, now s⟩] }) (Key.fillWaits g) 1

theorem serveReq_waits (hp : isPresent s g r.sector = false) (hway : placeLine (getSlice s g) (lineOf r.sector) (ordinaryWays s g) r.cls = none) :
    serveReq s g r .ok = (mustWait s g r, []) := by
  unfold serveReq
  rw [hp, if_neg Bool.false_ne_true, hway]
  rfl

variable {x : Slice}

theorem serveReq_fresh {data : List Byte} (hp : isPresent s g r.sector = false)
    (hway : placeLine (getSlice s g) (lineOf r.sector) (ordinaryWays s g) r.cls = some x) (hop : r.op = .write fullMask data)
    (habsent : (getSector x r.sector).st = .absent) : ∃ u, u = setSectorNow (setSlice s g x) g r.sector data r.wtag false ∧
      serveReq s g r .ok = (bump (setSlice u g { getSlice u g with lastDone := now s }) (Key.hits g) 1, []) := by
  refine ⟨_, rfl, ?_⟩
  unfold serveReq
  rw [hp, if_neg Bool.false_ne_true, hway]
  simp only [hop, habsent, and_self, if_true]

/-- A request that misses: a read, a store of a part of the sector, or a reduction, which also enters the queue. -/
theorem serveReq_miss (hp : isPresent s g r.sector = false)
    (hway : placeLine (getSlice s g) (lineOf r.sector) (ordinaryWays s g) r.cls = some x)
    (hop : r.op = .read ∨ isReduce r = true ∨ ∃ mask data, r.op = .write mask data ∧ mask ≠ fullMask) :
    ∃ y u, serveReq s g r .ok = (joinMiss u g r, []) ∧ Serves s u g ∧ getSlice u g = y ∧ y.inbox = (getSlice s g).inbox ∧ y.sets = x.sets := by
  obtain ⟨-, ss, wb, vs, hx⟩ := placeLine_spec hway
  have hplace : Serves s (setSlice s g x) g := serves_setSlice (by rw [hx])
  have hinbox : x.inbox = (getSlice s g).inbox := by rw [hx]
  unfold serveReq
  rw [hp, if_neg Bool.false_ne_true, hway]
  rcases hop with hop | hop | ⟨mask, data, hop, hmask⟩
  · simp only [hop]
    exact ⟨x, setSlice s g x, rfl, hplace, getSlice_setSlice_same _ _ _, hinbox, rfl⟩
  · unfold isReduce at hop
    split at hop
    · next op returns lanes h =>
      simp only [h]
      refine ⟨enqueueRed x r, setSlice (setSlice s g x) g (enqueueRed x r), rfl, hplace.trans (serves_setSlice ?_),
        getSlice_setSlice_same _ _ _, hinbox, rfl⟩
      rw [getSlice_setSlice_same]
      rfl
    · exact absurd hop Bool.false_ne_true
  · simp only [hop, hmask, false_and, if_false]
    exact ⟨x, setSlice s g x, rfl, hplace, getSlice_setSlice_same _ _ _, hinbox, rfl⟩

theorem serveReq_missLine (hp : isPresent s g r.sector = false)
    (hway : placeLine (getSlice s g) (lineOf r.sector) (ordinaryWays s g) r.cls = some x) (hop : r.op = .line) :
    serveReq s g r .ok = (serveLine (setSlice s g x) g r, []) := by
  unfold serveReq
  rw [hp, if_neg Bool.false_ne_true, hway]
  simp only [hop]

end

/-! ### A request that is taken -/

/-- The device `u` after a request has left place `i` of the inbox, been carried out, leaving `t`, and its sender told. -/
structure Taken (s t u : State) (g : Nat) (r : Req) (i : Nat) : Prop where
  frame : SliceFrame s u g
  inbox : (getSlice u g).inbox = (getSlice s g).inbox.eraseIdx i
  bytes : r.cls < 8 → Counted s u (Key.bytes r.cls) (reqBytes r)
  slice : ∃ ss, getSlice u g = { getSlice t g with sets := ss }
  sectors : ∀ m, lineOf m = lineOf r.sector → getSector (getSlice u g) m = getSector (getSlice t g) m ∧ sectorNow u g m = sectorNow t g m
  keeps : ∀ k, (∀ c, k ≠ Key.bytes (2 * 16 + c)) → (∀ c, k ≠ Key.limitHolds (2 * 16 + c)) → getObj u k = getObj t k

theorem Delivered.keeps {t u : State} (h : Delivered t u) {k : Nat} (hb : ∀ c, k ≠ Key.bytes (2 * 16 + c))
    (hl : ∀ c, k ≠ Key.limitHolds (2 * 16 + c)) : getObj u k = getObj t k := by
  obtain ⟨_, _, _, _, rfl, -, ho⟩ := h
  exact ho k hb hl

/-- What a request that has entered leaves, once it has been carried out. -/
theorem Entered.taken {s t0 t1 : State} {g i : Nat} {r : Req} (h : Entered s t0 g r ((getSlice s g).inbox.eraseIdx i))
    (hserves : Serves t0 t1 g) (as : List Ans) :
    Taken s t1 (acceptReq (deliverAll (markHeld t1 g r) g as) g r) g r i := by
  obtain ⟨hheld, hkeeper, ⟨ss, hss⟩, hsectors⟩ := markHeld_spec t1 g r
  have hdeliver : Delivered (markHeld t1 g r) (acceptReq (deliverAll (markHeld t1 g r) g as) g r) :=
    (delivered_deliverAll _ _ _).trans (delivered_acceptReq _ _ _)
  obtain ⟨ld, hld⟩ := h.slice
  have hobj : ∀ k, getObj (markHeld t1 g r) k = getObj t1 k := fun k => by unfold getObj; rw [hkeeper]
  refine ⟨(h.act.trans (hserves.trans hheld).act).frame hdeliver, ?_, fun hc => ?_, ⟨ss, by rw [hdeliver.slice, hss]⟩, fun m hm => ?_,
    fun k hb hl => (hdeliver.keeps hb hl).trans (hobj k)⟩
  · rw [hdeliver.slice, hheld.inbox, hserves.inbox, hld]
    rfl
  · unfold Counted
    rw [hdeliver.keeps (by intro c; dsimp only [Key.bytes]; omega) (by intro c; dsimp only [Key.bytes, Key.limitHolds]; omega), hobj,
      hserves.bytes _ hc]
    exact h.bytes hc
  · rw [hdeliver.slice, hdeliver.sector]
    exact hsectors m hm

theorem objBits_slice : ∀ g < 128, objBits (Key.hits g) = 64 ∧ objBits (Key.fillWaits g) = 64 := by decide +kernel

/-- A count of the slice that carrying out the request makes is made. -/
theorem Taken.counted {s t0 t1 u : State} {g i k : Nat} {r : Req} (h : Taken s t1 u g r i)
    (hent : Entered s t0 g r ((getSlice s g).inbox.eraseIdx i)) (hg : g < 128) (hc : r.cls < 8) (hk : k = Key.hits g ∨ k = Key.fillWaits g)
    (hcount : getObj t1 k = (getObj t0 k + 1) % 2 ^ objBits k) : Counted s u k 1 := by
  obtain ⟨hhits, hwaits⟩ := objBits_slice g hg
  have hbits : objBits k = 64 := by rcases hk with rfl | rfl <;> assumption
  have hk' : k = 0x48100000 + g * 0x100 ∨ k = 0x48100008 + g * 0x100 := hk
  unfold Counted
  rw [h.keeps k (by intro c; dsimp only [Key.bytes]; omega) (by intro c; dsimp only [Key.limitHolds]; omega), hcount, hbits,
    hent.keeps k (by dsimp only [Key.reduceArbitrations]; omega) (bytes_ne hc (by omega)).symm]

/-! ### The intake of a slice (R224, R228, R477) -/

theorem noteFull_none {s : State} {g : Nat} (h : ∀ e ∈ (getSlice s g).inbox, e.full = true ∨ heldBy s g e.req ≠ .register) (port : Nat) :
    noteFull s g port = s := by
  have hnone : (getSlice s g).inbox.zipIdx.find? (fun e => e.1.port == port && !e.1.full && heldBy s g e.1.req == .register) = none := by
    rw [List.find?_eq_none]
    intro e he hfound
    simp only [Bool.and_eq_true, Bool.not_eq_true', beq_iff_eq] at hfound
    rcases h e.1 (List.fst_mem_of_mem_zipIdx he) with hf | hr
    · rw [hf] at hfound
      exact absurd hfound.1.2 (by decide)
    · exact hr hfound.2
  unfold noteFull
  rw [hnone]

/-- A request marked as held by a full register is the same request. -/
theorem noteFull_spec (s : State) (g port : Nat) : SliceAct s (noteFull s g port) g ∧
    (getSlice (noteFull s g port) g).inbox.map (·.req) = (getSlice s g).inbox.map (·.req) ∧
    (getSlice (noteFull s g port) g).sets = (getSlice s g).sets ∧ (getSlice (noteFull s g port) g).portLost = (getSlice s g).portLost := by
  unfold noteFull
  split
  · exact ⟨.refl s g, rfl, rfl, rfl⟩
  · next i _ =>
    have hslice : getSlice (bump (markInbox s g i (fun x => { x with full := true })) (Key.mrFullHolds g) 1) g =
        { getSlice s g with inbox := (getSlice s g).inbox.modify i (fun x => { x with full := true }) } := getSlice_setSlice_same _ _ _
    rw [hslice]
    refine ⟨(sliceAct_setSlice s g _).trans (sliceAct_bump _ g _ _), ?_, rfl, rfl⟩
    apply List.ext_getElem?
    intro j
    simp only [List.getElem?_map, List.getElem?_modify]
    cases (getSlice s g).inbox[j]? with
    | none => rfl
    | some x =>
      show some (InReq.req (if i = j then _ else _)) = _
      split <;> rfl

theorem exec_sliceIntake (g port : Nat) (chk : Chk) (u : State) : exec (.sliceIntake g port chk) u = .next (runJobs (sliceIntake g port chk u)) := rfl

theorem settleWaits_none {s : State} {g : Nat} (h : (getSlice s g).waits = []) : settleWaits s g = s := by
  unfold settleWaits
  rw [h]
  rfl

/-- A request that waits for a way, and can be given none, waits on. -/
theorem settleWaits_waits {s : State} {g : Nat} {w : WayWait} (h : (getSlice s g).waits = [w]) (hp : reqPresent s g w.req = false)
    (hway : placeLine { getSlice s g with waits := [] } (lineOf w.req.sector) (ordinaryWays s g) w.req.cls = none) :
    (getSlice (settleWaits s g) g).waits = [w] := by
  have hslice : getSlice (setSlice s g { getSlice s g with waits := [] }) g = { getSlice s g with waits := [] } := getSlice_setSlice_same _ _ _
  have hpresent : ∀ n, isPresent (setSlice s g { getSlice s g with waits := [] }) g n = isPresent s g n := fun n => by
    unfold isPresent
    rw [hslice]
    rfl
  have hp' : reqPresent (setSlice s g { getSlice s g with waits := [] }) g w.req = false := by
    rw [← hp]
    unfold reqPresent
    rw [show isPresent (setSlice s g { getSlice s g with waits := [] }) g = isPresent s g from funext hpresent]
  have hretry : retryList g [w] (setSlice s g { getSlice s g with waits := [] }) [] =
      (setSlice (setSlice s g { getSlice s g with waits := [] }) g { getSlice s g with waits := [w] }, []) := by
    have hways : ordinaryWays (setSlice s g { getSlice s g with waits := [] }) g = ordinaryWays s g := rfl
    unfold retryList
    dsimp only
    rw [hslice, hp', hways, hway]
    rfl
  have hall : retryWaits s g =
      let a := retryList g (getSlice s g).waits (setSlice s g { getSlice s g with waits := [] }) []
      (setSlice a.1 g { getSlice a.1 g with forced := (getSlice a.1 g).forced.filter (forceLasts (getSlice a.1 g)) }, a.2) := rfl
  rw [h, hretry] at hall
  unfold settleWaits
  rw [h, if_neg (by simp), hall]
  show (getSlice (setSlice _ g _) g).waits = [w]
  rw [getSlice_setSlice_same, getSlice_setSlice_same]

/-- The first request of the port that may be taken is taken when its class is below the limit. -/
theorem sliceIntake_takes {u : State} {g port i : Nat} {q : InReq} (h : Offered (settleWaits u g) g port q i) (chk : Chk) :
    sliceIntake g port chk u = takeInbox (settleWaits u g) g i q chk := by
  obtain ⟨hport, hfirst, hfull, hlimit⟩ := h
  unfold sliceIntake
  dsimp only
  rw [noteFull_none hfull, hport, if_neg Bool.false_ne_true, hfirst]
  exact if_neg (Nat.not_le.mpr hlimit)

theorem sliceIntake_none {u : State} {g port : Nat} (h : (getSlice (settleWaits u g) g).portLost = true ∨
    firstOffered (noteFull (settleWaits u g) g port) g port = none) (chk : Chk) :
    sliceIntake g port chk u = noteFull (settleWaits u g) g port := by
  obtain ⟨-, -, -, hport⟩ := noteFull_spec (settleWaits u g) g port
  unfold sliceIntake
  dsimp only
  rw [hport]
  rcases h with h | h
  · rw [h, if_pos rfl]
  · rw [h, ite_self]

theorem objBits_limitHolds : ∀ c < 8, objBits (Key.limitHolds c) = 64 := by decide +kernel

/-- A request whose class is at the limit stays, marked and counted (R477). -/
theorem sliceIntake_limit {u : State} {g port i : Nat} {q : InReq} (hport : (getSlice (settleWaits u g) g).portLost = false)
    (hfirst : firstOffered (settleWaits u g) g port = some (q, i))
    (hfull : ∀ e ∈ (getSlice (settleWaits u g) g).inbox, e.full = true ∨ heldBy (settleWaits u g) g e.req ≠ .register)
    (hlimit : classLimit (settleWaits u g) 0 q.req.cls ≤ intakeCount (getSlice (settleWaits u g) g) q.req.cls) (chk : Chk) :
    sliceIntake g port chk u = countHold (markInbox (settleWaits u g) g i (fun x => { x with held := true })) 0 q.req.cls := by
  unfold sliceIntake
  dsimp only
  rw [noteFull_none hfull, hport, if_neg Bool.false_ne_true, hfirst]
  exact if_pos hlimit

/-! ### Each request, by what it finds -/

theorem mem_mrs_of_mem_regs {sl : Slice} {e : Nat × List Req} (he : e ∈ sl.regs) : ∃ m ∈ sl.mrs, m.line = e.1 ∧ m.waiters = e.2 := by
  obtain ⟨m, hm, rfl⟩ := List.mem_map.mp he
  exact ⟨m, hm, rfl, rfl⟩

/-- A sector that is not there is not there when its line has been given a way. -/
theorem placeLine_absent {sl x : Slice} {n ways cls : Nat} (h : placeLine sl (lineOf n) ways cls = some x)
    (habsent : secPresent (getSector sl n) = false) : secPresent (getSector x n) = false := by
  unfold placeLine at h
  split at h
  · rw [← Option.some.inj h]
    exact habsent
  · obtain ⟨e, -, rfl⟩ := Option.map_eq_some_iff.mp h
    unfold getSector
    rw [findLine_putLine e.1 { way := e.2, tag := lineOf n, sectors := List.replicate 4 Sector.absent, held := [], use := e.1.useClock, cls := cls }]
    show secPresent ((List.replicate 4 Sector.absent).getD (secIndex n) Sector.absent) = false
    rw [List.getD_eq_getElem?_getD, List.getElem?_getD_replicate_default_eq]
    rfl

section
variable {s t0 : State} {g i : Nat} {q : InReq}

/-- A slice whose inbox alone has changed has the rest as before. -/
theorem Entered.same {α : Type} (h : Entered s t0 g q.req ((getSlice s g).inbox.eraseIdx i)) (f : Slice → α)
    (hf : ∀ sl xs ld, f (Slice.reInbox sl xs ld) = f sl) : f (getSlice t0 g) = f (getSlice s g) := by
  obtain ⟨ld, hslice⟩ := h.slice
  rw [hslice, hf]

theorem Entered.ways (h : Entered s t0 g q.req ((getSlice s g).inbox.eraseIdx i)) (hg : g < 128) (hc : q.req.cls < 8) :
    ordinaryWays t0 g = ordinaryWays s g := by
  have hobj : getObj t0 (Key.pinWays (g / 64)) = getObj s (Key.pinWays (g / 64)) :=
    h.keeps _ (by dsimp only [Key.pinWays, Key.reduceArbitrations]; omega) (bytes_ne hc (by dsimp only [Key.pinWays]; omega)).symm
  have hpin : pinWays t0 (g / 64) = pinWays s (g / 64) := by
    obtain ⟨_, _, _, _, _, _, rfl, -⟩ := h.act
    rfl
  unfold ordinaryWays
  rw [hobj, hpin]

theorem Entered.placed (h : Entered s t0 g q.req ((getSlice s g).inbox.eraseIdx i)) (hg : g < 128) (hc : q.req.cls < 8) :
    ∃ ld, placeLine (getSlice t0 g) (lineOf q.req.sector) (ordinaryWays t0 g) q.req.cls =
      (placeLine (getSlice s g) (lineOf q.req.sector) (ordinaryWays s g) q.req.cls).map
        (·.reInbox ((getSlice s g).inbox.eraseIdx i) ld) := by
  obtain ⟨ld, hslice⟩ := h.slice
  exact ⟨ld, by rw [hslice, h.ways hg hc, placeLine_reInbox]⟩

/-- What `takeInbox` makes of a request that has entered, for the outcome `x` of carrying it out. -/
def told (g : Nat) (r : Req) (x : State × List Ans) : State := acceptReq (deliverAll (markHeld x.1 g r) g x.2) g r

variable (h : Entered s t0 g q.req ((getSlice s g).inbox.eraseIdx i)) (hg : g < 128) (hc : q.req.cls < 8)
include h hg hc

theorem read_hits (hp : isPresent s g q.req.sector = true) (hq : ∀ e ∈ (getSlice s g).redq, e.req.sector ≠ q.req.sector)
    (hop : q.req.op = .read) :
    let u := told g q.req (serveReq t0 g q.req .ok)
    let x := sectorNow s g q.req.sector
    (∃ t1, Taken s t1 u g q.req i) ∧ Counted s u (Key.hits g) 1 ∧ sectorNow u g q.req.sector = x ∧
      Answers s u g q.req ⟨q.req.sector, x.data, x.bad, x.wtag, 0⟩ := by
  obtain ⟨ss, c, htouch⟩ := touchLine_eq (getSlice t0 g) (lineOf q.req.sector)
  have hserve := serveReq_read ((h.present _).trans hp) (by rw [h.same Slice.redq fun _ _ _ => rfl]; exact hq) hop
  obtain ⟨t1, ht1⟩ : ∃ t1, setSlice (bump t0 (Key.hits g) 1) g
    { touchLine (getSlice t0 g) (lineOf q.req.sector) with lastDone := now t0 } = t1 := ⟨_, rfl⟩
  rw [ht1, h.sector] at hserve
  have hserves : Serves t0 t1 g := by
    rw [← ht1]
    exact (serves_bump_hits t0 g 1).trans (serves_setSlice (by rw [htouch]; rfl))
  have hsector : sectorNow t1 g q.req.sector = sectorNow t0 g q.req.sector := by
    rw [← ht1]
    exact sectorNow_setSlice (s := bump t0 (Key.hits g) 1) (getSector_touchLine rfl)
  rw [hserve]
  have htaken := h.taken hserves [⟨q.req.origin, q.req.cls, ⟨q.req.sector, (sectorNow s g q.req.sector).data, (sectorNow s g q.req.sector).bad,
    (sectorNow s g q.req.sector).wtag, 0⟩⟩]
  refine ⟨⟨_, htaken⟩, htaken.counted h hg hc (.inl rfl) ?_, ?_, ?_⟩
  · rw [← ht1]
    exact getObj_bump_same _ _ _
  · exact (htaken.sectors _ rfl).2.trans (hsector.trans (h.sector _))
  · have hact := h.act.trans (hserves.trans (markHeld_spec t1 g q.req).1).act
    unfold told acceptReq
    simp only [hop]
    exact answers_deliverAns hact.cores hact.jobs g q.req _ _

theorem write_hits {mask : Nat} {data : List Byte} (hp : isPresent s g q.req.sector = true)
    (hq : ∀ e ∈ (getSlice s g).redq, e.req.sector ≠ q.req.sector) (hop : q.req.op = .write mask data)
    (hbad : (sectorNow s g q.req.sector).bad = false) :
    let u := told g q.req (serveReq t0 g q.req .ok)
    (∃ t1, Taken s t1 u g q.req i) ∧ Counted s u (Key.hits g) 1 ∧
      (sectorNow u g q.req.sector).data = mergeBytes mask (sectorNow s g q.req.sector).data data ∧
      (sectorNow u g q.req.sector).st = .dirty := by
  have hp0 : isPresent t0 g q.req.sector = true := (h.present _).trans hp
  obtain ⟨v, hv, hserve⟩ := serveReq_write (s := t0) hp0 (by rw [h.same Slice.redq fun _ _ _ => rfl]; exact hq) hop (by rw [h.sector]; exact hbad)
  have hvs : Serves t0 v g := hv ▸ serves_setSectorNow _ _ _ _ _ _
  have hvobj : ∀ k, getObj v k = getObj t0 k := fun k => by
    rw [hv]
    unfold setSectorNow
    split <;> rfl
  have hsector := sectorNow_setSectorNow (isPresent_cases hp0) (mergeBytes mask (sectorNow t0 g q.req.sector).data data)
    (writtenTag (sectorNow t0 g q.req.sector) q.req.wtag) false
  rw [← hv, slice_mergeBytes, h.sector] at hsector
  obtain ⟨t1, ht1⟩ : ∃ t1, bump (setSlice v g { getSlice v g with lastDone := now t0 }) (Key.hits g) 1 = t1 := ⟨_, rfl⟩
  rw [ht1] at hserve
  have hserves : Serves t0 t1 g := by
    rw [← ht1]
    exact (hvs.trans (serves_setSlice (x := { getSlice v g with lastDone := now t0 }) rfl)).trans (serves_bump_hits _ _ _)
  have hsector1 : sectorNow t1 g q.req.sector = sectorNow v g q.req.sector := by
    rw [← ht1]
    exact sectorNow_setSlice (s := v) rfl
  rw [hserve]
  have htaken := h.taken hserves []
  have hend := (htaken.sectors _ rfl).2.trans (hsector1.trans hsector)
  refine ⟨⟨_, htaken⟩, htaken.counted h hg hc (.inl rfl) ?_, ?_, ?_⟩
  · rw [← ht1, getObj_bump_same]
    show (getObj v _ + 1) % _ = _
    rw [hvobj]
  · exact congrArg Sector.data hend
  · exact congrArg Sector.st hend

theorem reduce_hits (hp : isPresent s g q.req.sector = true) (hop : isReduce q.req = true) :
    let u := told g q.req (serveReq t0 g q.req .ok)
    (∃ t1, Taken s t1 u g q.req i) ∧ Counted s u (Key.hits g) 1 ∧ sectorNow u g q.req.sector = sectorNow s g q.req.sector ∧
      (getSlice u g).redq = (getSlice s g).redq ++ [{ req := q.req, seq := (getSlice s g).nextRed, pinned := isWin q.req.sector }] := by
  obtain ⟨ss, c, htouch⟩ := touchLine_eq (enqueueRed (getSlice t0 g) q.req) (lineOf q.req.sector)
  have hserve := serveReq_reduce ((h.present _).trans hp) hop
  obtain ⟨t1, ht1⟩ : ∃ t1, bump (setSlice t0 g (touchLine (enqueueRed (getSlice t0 g) q.req) (lineOf q.req.sector))) (Key.hits g) 1 = t1 := ⟨_, rfl⟩
  rw [ht1] at hserve
  have hserves : Serves t0 t1 g := by
    rw [← ht1]
    exact (serves_setSlice (by rw [htouch]; rfl)).trans (serves_bump_hits _ _ _)
  have hsector : sectorNow t1 g q.req.sector = sectorNow t0 g q.req.sector := by
    rw [← ht1]
    exact sectorNow_setSlice (s := t0) (getSector_touchLine rfl)
  have hredq : (getSlice t1 g).redq = (getSlice t0 g).redq ++ [{ req := q.req, seq := (getSlice t0 g).nextRed, pinned := isWin q.req.sector }] := by
    have hslice : getSlice t1 g = touchLine (enqueueRed (getSlice t0 g) q.req) (lineOf q.req.sector) := by
      rw [← ht1]
      exact getSlice_setSlice_same _ _ _
    rw [hslice, htouch]
    rfl
  rw [hserve]
  have htaken := h.taken hserves []
  obtain ⟨ss', hslice⟩ := htaken.slice
  refine ⟨⟨_, htaken⟩, htaken.counted h hg hc (.inl rfl) ?_, ?_, ?_⟩
  · rw [← ht1]
    exact getObj_bump_same _ _ _
  · exact (htaken.sectors _ rfl).2.trans (hsector.trans (h.sector _))
  · show (getSlice (acceptReq _ g q.req) g).redq = _
    rw [hslice]
    rw [h.same Slice.redq fun _ _ _ => rfl, h.same Slice.nextRed fun _ _ _ => rfl] at hredq
    exact hredq

omit hg hc in
theorem line_hits (hp : isPresent s g q.req.sector = true) (hop : q.req.op = .line) (hn : q.req.sector % 4 = 0)
    (hwin : isWin q.req.sector = false) :
    let u := told g q.req (serveReq t0 g q.req .ok)
    (∃ t1, Taken s t1 u g q.req i) ∧ ∀ k < 4, secPresent (getSector (getSlice s g) (q.req.sector + k)) = false →
      (getSector (getSlice u g) (q.req.sector + k)).st = .pending := by
  have hp0 : isPresent t0 g q.req.sector = true := (h.present _).trans hp
  have hthere := (isPresent_cases hp0).resolve_left (by rw [hwin]; exact Bool.false_ne_true)
  obtain ⟨hserves, hpending, -⟩ := serveLine_spec (s := t0) (g := g) (r := q.req) ⟨hthere, fun _ _ => rfl⟩ hn hwin
  rw [serveReq_line hp0 hop]
  have htaken := h.taken hserves []
  refine ⟨⟨_, htaken⟩, fun k hk habsent => ?_⟩
  have hline : lineOf (q.req.sector + k) = lineOf q.req.sector := lineOf_of_mem (mem_lineSectors hn hk)
  have hsame : getSector (getSlice t0 g) (q.req.sector + k) = getSector (getSlice s g) (q.req.sector + k) :=
    h.same (getSector · (q.req.sector + k)) fun _ _ _ => rfl
  refine (congrArg Sector.st (htaken.sectors _ hline).1).trans (hpending k hk ?_)
  rw [hsame]
  exact habsent

theorem request_waits (hp : isPresent s g q.req.sector = false)
    (hway : placeLine (getSlice s g) (lineOf q.req.sector) (ordinaryWays s g) q.req.cls = none) :
    let u := told g q.req (serveReq t0 g q.req .ok)
    (∃ t1, Taken s t1 u g q.req i) ∧ Counted s u (Key.fillWaits g) 1 ∧ (getSlice u g).waits = (getSlice s g).waits ++ [⟨q.req, now s⟩] := by
  obtain ⟨ld, hplace⟩ := h.placed hg hc
  rw [hway] at hplace
  have hserves : Serves t0 (mustWait t0 g q.req) g :=
    (serves_setSlice (x := { getSlice t0 g with waits := (getSlice t0 g).waits ++ [⟨q.req, now t0⟩] }) rfl).trans
      (serves_bump_slice (k := Key.fillWaits g) _ g 1 (by dsimp only [Key.fillWaits]; omega))
  rw [serveReq_waits ((h.present _).trans hp) hplace]
  have htaken := h.taken hserves []
  obtain ⟨ss, hslice⟩ := htaken.slice
  refine ⟨⟨_, htaken⟩, htaken.counted h hg hc (.inr rfl) (getObj_bump_same _ _ _), ?_⟩
  have hwaits : (getSlice (mustWait t0 g q.req) g).waits = (getSlice t0 g).waits ++ [⟨q.req, now t0⟩] :=
    congrArg Slice.waits (getSlice_setSlice_same t0 g _)
  show (getSlice (acceptReq _ g q.req) g).waits = _
  rw [hslice]
  rw [h.same Slice.waits fun _ _ _ => rfl, h.act.now] at hwaits
  exact hwaits

/-- A line that has its way in the slice that the request has entered has it in the slice as it was. -/
theorem placed_some {l : Slice} (hway : placeLine (getSlice s g) (lineOf q.req.sector) (ordinaryWays s g) q.req.cls = some l) :
    ∃ x, placeLine (getSlice t0 g) (lineOf q.req.sector) (ordinaryWays t0 g) q.req.cls = some x ∧ x.sets = l.sets ∧
      x.fetches = (getSlice s g).fetches ∧ x.regs = (getSlice s g).regs ∧ mrOf x = mrOf (getSlice s g) ∧ x.inbox = (getSlice t0 g).inbox ∧
      LineAt x (lineOf q.req.sector) (getSector l) := by
  obtain ⟨ld, hplace⟩ := h.placed hg hc
  obtain ⟨hthere, ss, wb, vs, hl⟩ := placeLine_spec hway
  obtain ⟨_, hslice⟩ := h.slice
  rw [hway] at hplace
  refine ⟨_, hplace, rfl, ?_, ?_, ?_, ?_, hthere, fun _ _ => rfl⟩
  · rw [hl]
    rfl
  · rw [hl]
    rfl
  · rw [hl]
    rfl
  · rw [hslice]
    rfl

theorem freshStore_hits {l : Slice} {data : List Byte} (hp : isPresent s g q.req.sector = false)
    (hway : placeLine (getSlice s g) (lineOf q.req.sector) (ordinaryWays s g) q.req.cls = some l)
    (hop : q.req.op = .write fullMask data) (habsent : (getSector l q.req.sector).st = .absent) :
    let u := told g q.req (serveReq t0 g q.req .ok)
    (∃ t1, Taken s t1 u g q.req i) ∧ Counted s u (Key.hits g) 1 ∧ (getSlice u g).fetches = (getSlice s g).fetches ∧
      sectorNow u g q.req.sector = ⟨.dirty, slice data 0 32, q.req.wtag, false⟩ := by
  obtain ⟨x, hplace, hsets, hfetches, -, -, hinbox, hline⟩ := placed_some h hg hc hway
  obtain ⟨v, hv, hserve⟩ := serveReq_fresh (s := t0) ((h.present _).trans hp) hplace hop (by rw [hline.reads _ rfl]; exact habsent)
  have hplaced : Serves t0 (setSlice t0 g x) g := serves_setSlice hinbox
  have hthere : (findLine (getSlice (setSlice t0 g x) g) (lineOf q.req.sector)).isSome = true := by
    rw [getSlice_setSlice_same]
    exact hline.there
  have hordinary : isWin q.req.sector = false := (Bool.or_eq_false_iff.mp hp).1
  have hvs : Serves t0 v g := hplaced.trans (hv ▸ serves_setSectorNow _ _ _ _ _ _)
  have hsector := sectorNow_setSectorNow (.inr hthere) data q.req.wtag false
  rw [← hv] at hsector
  have hvslice : (getSlice v g).fetches = x.fetches := by
    obtain ⟨ss, hmod⟩ := modSector_eq x q.req.sector (fun _ => { st := .dirty, data := slice data 0 32, wtag := q.req.wtag, bad := false })
    obtain ⟨ss', c, htouch⟩ := touchLine_eq { x with sets := ss } (lineOf q.req.sector)
    rw [hv]
    unfold setSectorNow
    rw [hordinary, if_neg Bool.false_ne_true, getSlice_setSlice_same, getSlice_setSlice_same, hmod, htouch]
  have hvobj : ∀ k, getObj v k = getObj t0 k := fun k => by
    rw [hv]
    unfold setSectorNow
    split <;> rfl
  obtain ⟨t1, ht1⟩ : ∃ t1, bump (setSlice v g { getSlice v g with lastDone := now t0 }) (Key.hits g) 1 = t1 := ⟨_, rfl⟩
  rw [ht1] at hserve
  have hserves : Serves t0 t1 g := by
    rw [← ht1]
    exact (hvs.trans (serves_setSlice (x := { getSlice v g with lastDone := now t0 }) rfl)).trans (serves_bump_hits _ _ _)
  have hslice1 : getSlice t1 g = { getSlice v g with lastDone := now t0 } := by
    rw [← ht1]
    exact getSlice_setSlice_same _ _ _
  have hsector1 : sectorNow t1 g q.req.sector = sectorNow v g q.req.sector := by
    rw [← ht1]
    exact sectorNow_setSlice (s := v) rfl
  rw [hserve]
  have htaken := h.taken hserves []
  obtain ⟨ss, hslice⟩ := htaken.slice
  refine ⟨⟨_, htaken⟩, htaken.counted h hg hc (.inl rfl) ?_, ?_, (htaken.sectors _ rfl).2.trans (hsector1.trans hsector)⟩
  · rw [← ht1, getObj_bump_same]
    show (getObj v _ + 1) % _ = _
    rw [hvobj]
  · show (getSlice (acceptReq _ g q.req) g).fetches = _
    rw [hslice, hslice1]
    exact hvslice.trans hfetches

theorem request_misses {l : Slice} (hp : isPresent s g q.req.sector = false)
    (hway : placeLine (getSlice s g) (lineOf q.req.sector) (ordinaryWays s g) q.req.cls = some l)
    (hop : q.req.op = .read ∨ isReduce q.req = true ∨ ∃ mask data, q.req.op = .write mask data ∧ mask ≠ fullMask) :
    let u := told g q.req (serveReq t0 g q.req .ok)
    (∃ t1, Taken s t1 u g q.req i) ∧ (∃ m ∈ (getSlice u g).mrs, m.line = lineOf q.req.sector ∧ q.req ∈ m.waiters) ∧
      (getSector (getSlice u g) q.req.sector).st = .pending ∧
      ((getSector l q.req.sector).st ≠ .pending → ∃ f ∈ (getSlice u g).fetches, f.sector = q.req.sector ∧ f.sent = false) := by
  obtain ⟨x, hplace, -, -, -, -, -, hline⟩ := placed_some h hg hc hway
  obtain ⟨y, v, hserve, hvs, hslice, -, hsets⟩ := serveReq_miss (s := t0) ((h.present _).trans hp) hplace hop
  have hfind : ∀ k, findLine (getSlice v g) k = findLine x k := fun k => by
    unfold findLine
    rw [hslice, hsets]
  have hline' : LineAt (getSlice v g) (lineOf q.req.sector) (getSector l) := by
    refine ⟨by rw [hfind]; exact hline.there, fun m hm => ?_⟩
    rw [← hline.reads m hm]
    unfold getSector
    rw [hfind]
  obtain ⟨hjoin, ⟨e, he, hat, hmem⟩, hpending, hfetch⟩ := joinMiss_spec hline'
  rw [hserve]
  have htaken := h.taken (hvs.trans hjoin) []
  obtain ⟨ss, hu⟩ := htaken.slice
  obtain ⟨m, hm, hmline, hmw⟩ := mem_mrs_of_mem_regs he
  refine ⟨⟨_, htaken⟩, ⟨m, ?_, hmline.trans hat, hmw ▸ hmem⟩, (congrArg Sector.st (htaken.sectors _ rfl).1).trans hpending, fun hne => ?_⟩
  · show m ∈ (getSlice (acceptReq _ g q.req) g).mrs
    rw [hu]
    exact hm
  · show ∃ f ∈ (getSlice (acceptReq _ g q.req) g).fetches, _
    rw [hu]
    exact hfetch hne

theorem line_misses {l : Slice} (hp : isPresent s g q.req.sector = false)
    (hway : placeLine (getSlice s g) (lineOf q.req.sector) (ordinaryWays s g) q.req.cls = some l)
    (hop : q.req.op = .line) (hn : q.req.sector % 4 = 0) :
    let u := told g q.req (serveReq t0 g q.req .ok)
    (∃ t1, Taken s t1 u g q.req i) ∧
      (∀ k < 4, secPresent (getSector l (q.req.sector + k)) = false → (getSector (getSlice u g) (q.req.sector + k)).st = .pending) ∧
      (mrOf (getSlice s g) (lineOf q.req.sector) = none → (getSlice u g).regs = (getSlice s g).regs ++ [(lineOf q.req.sector, [q.req])]) := by
  obtain ⟨x, hplace, -, -, hregs, hmr, hinbox, hline⟩ := placed_some h hg hc hway
  have hordinary : isWin q.req.sector = false := (Bool.or_eq_false_iff.mp hp).1
  have hslice : getSlice (setSlice t0 g x) g = x := getSlice_setSlice_same _ _ _
  have hplaced : Serves t0 (setSlice t0 g x) g := serves_setSlice hinbox
  obtain ⟨hserves, hpending, hnew⟩ := serveLine_spec (s := setSlice t0 g x) (g := g) (r := q.req) (hslice.symm ▸ hline) hn hordinary
  rw [serveReq_missLine (s := t0) ((h.present _).trans hp) hplace hop]
  have htaken := h.taken (hplaced.trans hserves) []
  obtain ⟨ss, hu⟩ := htaken.slice
  refine ⟨⟨_, htaken⟩, fun k hk habsent => ?_, fun hnone => ?_⟩
  · exact (congrArg Sector.st (htaken.sectors _ (lineOf_of_mem (mem_lineSectors hn hk))).1).trans (hpending k hk habsent)
  · show (getSlice (acceptReq _ g q.req) g).regs = _
    have habsent : isPresent (setSlice t0 g x) g q.req.sector = false := by
      unfold isPresent
      rw [hslice, hordinary, hline.reads _ rfl]
      exact placeLine_absent hway (Bool.or_eq_false_iff.mp hp).2
    rw [hu, ← hregs]
    rw [hslice] at hnew
    exact hnew habsent (hmr ▸ hnone)

end

/-! ### The obligation -/

/-- Settles O34: the requests that wait are tried first; then the first request of the port enters, by what it finds. -/
theorem slicesTakeRequests : Obligations.SlicesTakeRequests := by
  refine ⟨fun s g => ⟨settleWaits_none, fun w h hp hway => settleWaits_waits h hp hway⟩, fun u g port hg => ?_⟩
  intro s sl
  refine ⟨fun h chk => ?_, fun q i hport hfirst hc hfull hlimit chk => ?_, fun q i hoff hc hline => ?_⟩
  · obtain ⟨hact, hinbox, hsets, -⟩ := noteFull_spec s g port
    exact ⟨_, by rw [exec_sliceIntake, sliceIntake_none h], hinbox, hsets, hact.frame (.refl _)⟩
  · refine ⟨_, by rw [exec_sliceIntake, sliceIntake_limit hport hfirst hfull hlimit], ?_, ?_, ?_, ?_⟩
    · exact ((sliceAct_setSlice s g _).trans (sliceAct_bump _ g _ _)).frame (.refl _)
    · show (getSlice (setSlice s g _) g).sets = _
      rw [getSlice_setSlice_same]
    · show (getSlice (setSlice s g _) g).inbox = _
      rw [getSlice_setSlice_same]
    · unfold Counted countHold
      rw [Nat.zero_mul, Nat.zero_add, getObj_bump_same, objBits_limitHolds _ hc]
      rfl
  · obtain ⟨t0, hent, htake⟩ := takeInbox_enters (i := i) hline .ok
    have hexec : exec (.sliceIntake g port .ok) u = .next (runJobs (told g q.req (serveReq t0 g q.req .ok))) := by
      rw [exec_sliceIntake, sliceIntake_takes hoff, htake]
      rfl
    intro n x taken
    have htaken : ∀ {t1}, Taken s t1 (told g q.req (serveReq t0 g q.req .ok)) g q.req i → taken (told g q.req (serveReq t0 g q.req .ok)) :=
      fun h => ⟨hexec, h.frame, h.inbox, h.bytes hc⟩
    refine ⟨fun hp hq => ⟨fun hop => ?_, fun mask data hop hbad => ?_, fun hop => ?_, fun hop hn hwin => ?_⟩,
      fun hp => ⟨fun hway => ?_, fun l hway => ⟨fun data hop habsent => ?_, fun hop => ?_, fun hop hn => ?_⟩⟩⟩
    · obtain ⟨⟨_, ht⟩, hrest⟩ := read_hits hent hg hc hp hq hop
      exact ⟨_, htaken ht, hrest⟩
    · obtain ⟨⟨_, ht⟩, hrest⟩ := write_hits hent hg hc hp hq hop hbad
      exact ⟨_, htaken ht, hrest⟩
    · obtain ⟨⟨_, ht⟩, hrest⟩ := reduce_hits hent hg hc hp hop
      exact ⟨_, htaken ht, hrest⟩
    · obtain ⟨⟨_, ht⟩, hrest⟩ := line_hits hent hp hop hn hwin
      exact ⟨_, htaken ht, hrest⟩
    · obtain ⟨⟨_, ht⟩, hrest⟩ := request_waits hent hg hc hp hway
      exact ⟨_, htaken ht, hrest⟩
    · obtain ⟨⟨_, ht⟩, hrest⟩ := freshStore_hits hent hg hc hp hway hop habsent
      exact ⟨_, htaken ht, hrest⟩
    · obtain ⟨⟨_, ht⟩, hrest⟩ := request_misses hent hg hc hp hway hop
      exact ⟨_, htaken ht, hrest⟩
    · obtain ⟨⟨_, ht⟩, hrest⟩ := line_misses hent hg hc hp hway hop hn
      exact ⟨_, htaken ht, hrest⟩

end Sys2Proof.Machine
end


section
/-! SUPPORT. What the ends of tasks, of requests to peers and of copies leave alone of the pool and of running tasks
(R66, R312, R326 to R328, R346). -/

namespace Sys2Proof.Machine

/-! ### The pool -/

/-- An object that tells of a broken pair (R327). -/
def BrokenKey (k : Nat) : Prop := k = Key.brokenPair ∨ k = Key.brokenTime

/-- The pool is as before but for its requests; what has been sent stays sent; the objects of a broken pair are as before. -/
structure PoolKept (s t : State) : Prop where
  pool : ∃ rs ws n, t.pool = { s.pool with reqs := rs, waiting := ws, nextTag := n }
  out : s.out <:+ t.out
  objs : ∀ k, BrokenKey k → getObj t k = getObj s k

theorem PoolKept.trans {a b c : State} (h : PoolKept a b) (k : PoolKept b c) : PoolKept a c := by
  obtain ⟨_, _, _, hp⟩ := h.pool
  obtain ⟨_, _, _, kp⟩ := k.pool
  exact ⟨⟨_, _, _, by rw [kp, hp]⟩, h.out.trans k.out, fun j hj => (k.objs j hj).trans (h.objs j hj)⟩

/-- An act that touches neither the pool, nor the outputs, nor the objects. -/
theorem poolKept_of_eq {s t : State} (hpool : t.pool = s.pool) (hout : t.out = s.out) (hobj : t.keeper.obj = s.keeper.obj) : PoolKept s t :=
  ⟨⟨_, _, _, hpool⟩, hout ▸ List.suffix_refl _, fun k _ => by unfold getObj; rw [hobj]⟩

/-- Before an act that keeps the pool, one that touches neither the pool, nor the outputs, nor the objects. -/
theorem PoolKept.from_eq {s t u : State} (h : PoolKept t u) (hpool : t.pool = s.pool) (hout : t.out = s.out)
    (hobj : t.keeper.obj = s.keeper.obj) : PoolKept s u := (poolKept_of_eq hpool hout hobj).trans h

theorem PoolKept.refl (s : State) : PoolKept s s := poolKept_of_eq rfl rfl rfl

theorem poolKept_emit (s : State) (o : Out) : PoolKept s (emit s o) := ⟨⟨_, _, _, rfl⟩, List.suffix_cons _ _, fun _ _ => rfl⟩

theorem poolKept_setObj {s : State} {k : Nat} (n : Nat) (h : ¬BrokenKey k) : PoolKept s (setObj s k n) :=
  ⟨⟨_, _, _, rfl⟩, List.suffix_refl _, fun _ hj => getObj_setObj_ne _ _ _ _ fun e => h (e ▸ hj)⟩

theorem poolKept_bump {s : State} {k : Nat} (n : Nat) (h : ¬BrokenKey k) : PoolKept s (bump s k n) := poolKept_setObj _ h

theorem poolKept_withRequests (s : State) (rs ws : List PeerReq) (n : Nat) :
    PoolKept s { s with pool := { s.pool with reqs := rs, waiting := ws, nextTag := n } } :=
  ⟨⟨_, _, _, rfl⟩, List.suffix_refl _, fun _ _ => rfl⟩

/-- The objects of a broken pair lie on whole hundreds: a counter of another place in its unit is none of them. -/
theorem not_brokenKey {k : Nat} (h : k % 256 ≠ 0 ∨ k / 2 ^ 24 ≠ 0x58) : ¬BrokenKey k := by
  rintro (rfl | rfl) <;> revert h <;> decide

theorem not_brokenKey_bytes (i : Nat) : ¬BrokenKey (Key.bytes i) := not_brokenKey (.inl (by dsimp only [Key.bytes]; omega))
theorem not_brokenKey_limitHolds (i : Nat) : ¬BrokenKey (Key.limitHolds i) := not_brokenKey (.inl (by dsimp only [Key.limitHolds]; omega))
theorem not_brokenKey_bytesTx (i : Nat) : ¬BrokenKey (Key.bytesTx i) := not_brokenKey (.inl (by dsimp only [Key.bytesTx]; omega))
theorem not_brokenKey_svcEnded (i : Nat) : ¬BrokenKey (Key.svcEnded i) := not_brokenKey (.inl (by dsimp only [Key.svcEnded]; omega))

theorem SluiceFrame.poolKept {s t : State} (h : SluiceFrame s t) : PoolKept s t := by
  have hpool : t.pool = s.pool := by
    have := congrArg State.pool h.rest
    exact this
  have hout : t.out = s.out := by
    have := congrArg State.out h.rest
    exact this
  exact ⟨⟨_, _, _, hpool⟩, hout ▸ List.suffix_refl _, fun k hk => h.counts k fun e => not_brokenKey (.inl (by decide)) (e ▸ hk)⟩

theorem Delivered.poolKept {s t : State} (h : Delivered s t) : PoolKept s t := by
  obtain ⟨_, _, _, _, rfl, -, ho⟩ := h
  refine ⟨⟨_, _, _, rfl⟩, List.suffix_refl _, fun k hk => ho k (fun c e => ?_) (fun c e => ?_)⟩
  · exact not_brokenKey_bytes _ (e ▸ hk)
  · exact not_brokenKey_limitHolds _ (e ▸ hk)

/-! #### Sending (R308, R310, R316, R319) -/

theorem poolKept_setLink (s : State) (l : Nat) (k : Link) : PoolKept s (setLink s l k) := poolKept_of_eq rfl rfl rfl

theorem poolKept_sendFlit (s : State) (l : Nat) (p : Packet) : PoolKept s (sendFlit s l p) :=
  (((poolKept_setLink s l _).trans (poolKept_bump _ (not_brokenKey_bytesTx l))).trans (poolKept_bump _ (not_brokenKey_bytes _))).trans
    (poolKept_emit _ _)

theorem poolKept_sendBare (s : State) (l : Nat) (ty : PktType) : PoolKept s (sendBare s l ty) := (poolKept_setLink s l _).trans (poolKept_emit _ _)

theorem poolKept_pumpList (l : Nat) (pss : List (List Packet)) (s : State) (kept : List (List Packet)) : PoolKept s (pumpList l pss s kept).1 := by
  induction pss generalizing s kept with
  | nil => exact .refl s
  | cons ps pss ih =>
    unfold pumpList
    split
    · exact ih s kept
    · split
      · exact .trans (foldl_rel .refl .trans _ (fun t q _ => poolKept_sendFlit t l q) s) (ih _ kept)
      · exact ih s _

theorem poolKept_pumpLink (s : State) (l : Nat) : PoolKept s (pumpLink s l) := by
  have h := poolKept_pumpList l (getLink s l).egress s []
  unfold pumpLink
  dsimp only
  split
  · exact .trans (h.trans (poolKept_setLink _ _ _)) (foldl_rel .refl .trans _ (fun t _ _ => poolKept_sendBare t l .null) _)
  · exact h.trans (poolKept_setLink _ _ _)

theorem poolKept_sendPacket (s : State) (half : Nat) (ps : List Packet) : PoolKept s (sendPacket s half ps) := by
  unfold sendPacket
  split
  · exact .refl s
  · split
    · exact .refl s
    · next p _ _ l other _ =>
      dsimp only
      have h0 : PoolKept s (if other = true then bump s Key.routeChoices 1 else s) := by
        split
        · exact poolKept_bump _ (not_brokenKey (.inl (by decide)))
        · exact .refl s
      generalize (if other = true then bump s Key.routeChoices 1 else s) = s0 at *
      refine .trans h0 (.trans ?_ (.trans (poolKept_setLink _ _ _) (poolKept_pumpLink _ _)))
      split
      · exact poolKept_bump _ (not_brokenKey_limitHolds _)
      · exact .refl s0

theorem poolKept_pumpReqs (rs : List PeerReq) (s : State) (kept : List PeerReq) : PoolKept s (pumpReqs rs s kept).1 := by
  induction rs generalizing s kept with
  | nil => exact .refl s
  | cons r rs ih =>
    unfold pumpReqs
    split
    · exact .trans (.trans (poolKept_withRequests s _ _ _) (poolKept_sendPacket _ _ _)) (ih _ kept)
    · exact ih s _

theorem poolKept_peerRequests (s : State) (rs : List PeerReq) : PoolKept s (peerRequests s rs) := by
  unfold peerRequests pumpPeers
  exact .trans (.trans (poolKept_withRequests s _ _ _) (.trans (poolKept_withRequests _ _ _ _) (poolKept_pumpReqs _ _ [])))
    (poolKept_withRequests _ _ _ _)

/-! #### Events, slices and service operations -/

theorem poolKept_pushEvent (s : State) (e : Event) (b : Bool) : PoolKept s (pushEvent s e b) := by
  have hsent : ¬BrokenKey Key.framesTx := not_brokenKey (.inl (by decide))
  have hunsent : ¬BrokenKey Key.eventsUnsent := not_brokenKey (.inr (by decide))
  unfold pushEvent
  dsimp only
  split
  · exact PoolKept.from_eq (.trans (poolKept_emit _ _) (poolKept_bump 1 hsent)) rfl rfl rfl
  · split
    · exact PoolKept.from_eq (poolKept_bump 1 hunsent) rfl rfl rfl
    · exact poolKept_of_eq rfl rfl rfl

/-- Codes are numbers of 12 bits (R366). -/
theorem poolKept_raise {s : State} {r : ErrRec} (h : r.code < 4096) : PoolKept s (raise s r) := by
  have hcount : ¬BrokenKey (Key.codeCount r.code) := not_brokenKey (.inr (by dsimp only [Key.codeCount]; omega))
  have hlast : ¬BrokenKey (Key.codeLast r.code) := not_brokenKey (.inl (by dsimp only [Key.codeLast]; omega))
  unfold raise countCode
  exact .trans (.trans (.trans (poolKept_bump _ (not_brokenKey (.inr (by decide)))) (poolKept_bump _ hcount)) (poolKept_setObj _ hlast))
    (poolKept_pushEvent _ _ _)

theorem poolKept_raiseTask {s : State} {n : Nat} {r : ErrRec} (h : r.code < 4096) : PoolKept s (raiseTask s n r) := by
  unfold raiseTask
  split <;> exact poolKept_raise h

theorem poolKept_sendReq (s : State) (r : Req) : PoolKept s (sendReq s r) := by
  unfold sendReq
  dsimp only
  split
  · exact poolKept_of_eq rfl rfl rfl
  · exact (delivered_sillSend _ _ _ _ _).poolKept

theorem poolKept_startJob (s : State) (half port cls wtag : Nat) (who : JobFor) (pre : List Served) (ops : List (Nat × ReqOp)) :
    PoolKept s (startJob s half port cls wtag who pre ops) := by
  unfold startJob
  refine PoolKept.from_eq (foldl_rel PoolKept.refl PoolKept.trans ops (fun t _ _ => poolKept_sendReq t _) _) ?_ ?_ ?_ <;> rfl

theorem poolKept_feedEngines (s : State) : PoolKept s (feedEngines s) := by
  unfold feedEngines
  refine PoolKept.from_eq (foldl_rel PoolKept.refl PoolKept.trans _ (fun t m _ => ?_) _) ?_ ?_ ?_
  · unfold readPageOut
    split
    · exact .refl t
    · exact poolKept_startJob _ _ _ _ _ _ _ _
  all_goals rfl

theorem poolKept_failCopy (s : State) (cc code : Nat) : PoolKept s (failCopy s cc code) := by
  unfold failCopy
  dsimp only
  split
  · exact .refl s
  · refine .trans ?_ (poolKept_feedEngines _)
    exact ⟨⟨_, _, _, rfl⟩, List.suffix_refl _, fun _ _ => rfl⟩

theorem poolKept_svcEvent (s : State) (code : Nat) : PoolKept s (svcEvent s code) := by
  unfold svcEvent
  exact PoolKept.from_eq (poolKept_pushEvent (takeFree s).2 _ _) rfl rfl rfl

theorem poolKept_endSvc (s : State) (op state code : Nat) : PoolKept s (endSvc s op state code) := by
  unfold endSvc
  dsimp only
  refine .trans (.trans ?_ (poolKept_svcEvent _ code)) (poolKept_of_eq rfl rfl rfl)
  exact PoolKept.from_eq (poolKept_setObj _ (not_brokenKey_svcEnded _)) rfl rfl rfl

theorem poolKept_portUr (s : State) : PoolKept s (portUr s) := by
  unfold portUr
  split
  · exact poolKept_bump _ (not_brokenKey (.inr (by decide)))
  · exact .refl s

theorem poolKept_completeUr (s : State) (tag : Nat) : PoolKept s (completeUr s tag) := by
  unfold completeUr
  split
  · exact .trans (poolKept_bump _ (not_brokenKey (.inr (by decide)))) (poolKept_emit _ _)
  · exact .refl s

theorem poolKept_portSend (s : State) (n : Nat) : PoolKept s (portSend s n) := by
  unfold portSend countBytes
  split
  · exact .trans (poolKept_bump _ (not_brokenKey (.inr (by decide)))) (poolKept_bump _ (not_brokenKey_bytes _))
  · exact .refl s

theorem poolKept_completeBar4 (s : State) (tag : Nat) (data : List Byte) (bad : Bool) : PoolKept s (completeBar4 s tag data bad) := by
  have hpoisoned : ¬BrokenKey Key.poisonedTx := not_brokenKey (.inr (by decide))
  have h := (poolKept_emit s (.completion tag (if bad then .poisoned else .success) data)).trans (poolKept_portSend _ data.length)
  unfold completeBar4
  cases bad
  · exact h
  · exact h.trans (poolKept_bump 1 hpoisoned)

theorem poolKept_bar4Part (s : State) (tag : Nat) (put : Bar4Wait → Bar4Wait) : PoolKept s (bar4Part s tag put) := by
  unfold bar4Part
  split
  · exact .refl s
  · dsimp only
    split
    · split
      · exact PoolKept.from_eq (poolKept_completeUr _ _) rfl rfl rfl
      · exact PoolKept.from_eq (poolKept_completeBar4 _ _ _ _) rfl rfl rfl
    · exact poolKept_of_eq rfl rfl rfl

/-! #### Ends of tasks -/

theorem poolKept_modSlot (s : State) (n : Nat) (f : Slot → Slot) : PoolKept s (modSlot s n f) := poolKept_of_eq (by simp) (by simp) (by simp)

theorem poolKept_faultTask {s : State} {n : Nat} {r : ErrRec} (h : r.code < 4096) : PoolKept s (faultTask s n r) := by
  unfold faultTask
  exact .trans (.trans (poolKept_raiseTask h) (poolKept_modSlot _ _ _)) (poolKept_of_eq rfl rfl rfl)

theorem poolKept_poisonSignals (s : State) (n : Nat) (sl : Slot) : PoolKept s (poisonSignals s n sl) := by
  unfold poisonSignals
  split
  · exact .refl s
  · refine foldl_rel .refl .trans _ (fun t e _ => ?_) s
    split
    · exact poolKept_of_eq rfl rfl rfl
    · split
      · exact poolKept_peerRequests _ _
      · exact .refl t

theorem poolKept_writeFaulted (s : State) (n code : Nat) : PoolKept s (writeFaulted s n code) := by
  unfold writeFaulted
  split
  · exact .refl s
  · dsimp only
    split
    · exact .trans (poolKept_bump _ (not_brokenKey (.inr (by decide)))) (poolKept_of_eq rfl rfl rfl)
    · exact .trans (poolKept_bump _ (not_brokenKey (.inr (by decide)))) (poolKept_of_eq rfl rfl rfl)

theorem poolKept_failCore {s : State} {n : Nat} {r : ErrRec} (h : r.code < 4096) : PoolKept s (failCore s n r) := by
  unfold failCore
  split
  · exact .refl s
  · exact .trans (.trans (poolKept_raiseTask h) (poolKept_poisonSignals _ _ _)) (poolKept_writeFaulted _ _ _)

theorem poolKept_leaveFaulted {s : State} {n : Nat} {r : ErrRec} (h : r.code < 4096) : PoolKept s (leaveFaulted s n r) := by
  unfold leaveFaulted
  split
  · exact .refl s
  · exact .trans (.trans (.trans (freeScoped_sluiceFrame s n).poolKept (poolKept_of_eq (t := endStaging _ n) rfl rfl rfl)) (poolKept_failCore h))
      (dropUsers_sluiceFrame _ _).poolKept

theorem poolKept_failConsumers (k : Nat) : ∀ s, PoolKept s (failConsumers k s) := by
  induction k with
  | zero => exact .refl
  | succ k ih =>
    intro s
    unfold failConsumers
    split
    · exact .refl s
    · exact .trans (poolKept_leaveFaulted (by decide)) (ih _)

theorem poolKept_endTask {s : State} {n : Nat} {r : ErrRec} (h : r.code < 4096) : PoolKept s (endTask s n r) := by
  unfold endTask
  split
  · exact .refl s
  · split
    · exact .trans (poolKept_leaveFaulted h) (poolKept_failConsumers _ _)
    · split
      · exact poolKept_faultTask h
      · exact .refl s

theorem poolKept_evalWaits (s : State) : PoolKept s (evalWaits s) := by
  have hspread : ∀ (k : Nat) (t : State), PoolKept t (spreadPoison k t) := by
    intro k
    induction k with
    | zero => exact .refl
    | succ k ih =>
      intro t
      unfold spreadPoison
      split
      · exact .refl t
      · exact .trans (poolKept_failCore (by decide)) (ih _)
  unfold evalWaits
  refine .trans (hspread _ s) (foldl_rel .refl .trans _ (fun t e _ => ?_) _)
  split
  · exact poolKept_modSlot _ _ _
  · exact .refl t

theorem peerLost_lt : Code.peerLost < 4096 := by decide

theorem poolKept_endTasksWhere (s : State) (p : Slot → Bool) : PoolKept s (endTasksWhere s p) := by
  unfold endTasksWhere
  refine PoolKept.trans ?_ (poolKept_evalWaits _)
  exact foldl_rel PoolKept.refl PoolKept.trans _ (fun t e _ => poolKept_endTask peerLost_lt) s

theorem poolKept_acceptNext (s : State) (p id : Nat) : PoolKept s (acceptNext s p id) := by
  unfold acceptNext
  split
  · exact .refl s
  · split
    · exact .refl s
    · exact poolKept_of_eq rfl rfl rfl

theorem endTaskReq_fault {s : State} {slot code : Nat} {r : ErrRec} (h : code ≠ Code.verticalAbort) :
    endTaskReq s slot code r = faultTask s slot { r with code := code } := if_neg h

/-- A request that ends with PEER_LOST. -/
theorem poolKept_failReq (s : State) (r : PeerReq) : PoolKept s (failReq s r Code.peerLost) := by
  have hfault : ∀ (t : State) (n : Nat) (x : ErrRec), PoolKept t (endTaskReq t n Code.peerLost x) := fun t n x => by
    rw [endTaskReq_fault (by decide)]
    exact poolKept_faultTask peerLost_lt
  unfold failReq
  dsimp only
  split
  · split
    · exact .trans (poolKept_acceptNext _ _ _) (hfault _ _ _)
    · exact .refl s
  · split
    · split
      · exact hfault _ _ _
      · exact .refl s
    · exact .refl s
  · split
    · exact hfault _ _ _
    · exact .refl s
  · split
    · exact poolKept_portUr s
    · exact poolKept_bar4Part _ _ _
  · exact poolKept_failCopy _ _ _
  · split
    · exact poolKept_endSvc _ _ _ _
    · exact .refl s

theorem poolKept_endAllReqs (s : State) : PoolKept s (endAllReqs s Code.peerLost) :=
  .trans (poolKept_withRequests s _ _ _) (foldl_rel .refl .trans _ (fun t r _ => poolKept_failReq t r) _)

theorem poolKept_endFarCopies (s : State) (gone : Nat → Bool) : PoolKept s (endFarCopies s gone) := by
  refine foldl_rel .refl .trans _ (fun t cc _ => ?_) s
  dsimp only
  split
  · exact poolKept_failCopy _ _ _
  · exact .refl t

end Sys2Proof.Machine
end


section
/-! SUPPORT. What the ends of tasks and of requests to peers do to the tasks that run (R66, R326, R328). -/

namespace Sys2Proof.Machine

/-- The ending of a task that a lost peer ends. -/
def lostPeer : Ending := { code := Code.peerLost, replay := none }

/-- A task in state 3 stays in state 3: it goes on as before, or is being ended with PEER_LOST. -/
def TasksLast (s t : State) : Prop :=
  SlotsWf s → SlotsWf t ∧ ∀ n y, getSlot s n = some y → y.state = 3 → ∃ z, getSlot t n = some z ∧ z.state = 3 ∧
    (z.ending = y.ending ∨ (y.ending = none ∧ z.ending = some lostPeer))

theorem tasksLast_of_slots {s t : State} (h : t.fountain.slots = s.fountain.slots) : TasksLast s t := by
  have hslot : ∀ n, getSlot t n = getSlot s n := fun n => by unfold getSlot; rw [h]
  exact fun hw => ⟨by unfold SlotsWf; rw [h]; exact hw, fun n y hy h3 => ⟨y, (hslot n).trans hy, h3, .inl rfl⟩⟩

theorem TasksLast.refl (s : State) : TasksLast s s := tasksLast_of_slots rfl

theorem TasksLast.trans {a b c : State} (h : TasksLast a b) (k : TasksLast b c) : TasksLast a c := by
  intro hw
  obtain ⟨hwb, hb⟩ := h hw
  obtain ⟨hwc, hc⟩ := k hwb
  refine ⟨hwc, fun n x hx h3 => ?_⟩
  obtain ⟨y, hy, hy3, hxy⟩ := hb n x hx h3
  obtain ⟨z, hz, hz3, hyz⟩ := hc n y hy hy3
  refine ⟨z, hz, hz3, ?_⟩
  rcases hxy with he | ⟨hnone, he⟩
  · rw [← he]
    exact hyz
  · rcases hyz with hk | ⟨hnone', -⟩
    · exact .inr ⟨hnone, hk.trans he⟩
    · rw [he] at hnone'
      exact absurd hnone' (by simp)

/-- The task in slot `n` is in state 3 and being ended. -/
def EndsWith (s : State) (n : Nat) (e : Ending) : Prop := ∃ z, getSlot s n = some z ∧ z.state = 3 ∧ z.ending = some e

theorem TasksLast.ends {s t : State} (h : TasksLast s t) (hw : SlotsWf s) {n : Nat} {e : Ending} (hn : EndsWith s n e) : EndsWith t n e := by
  obtain ⟨y, hy, h3, he⟩ := hn
  obtain ⟨z, hz, hz3, hyz⟩ := (h hw).2 n y hy h3
  refine ⟨z, hz, hz3, ?_⟩
  rcases hyz with hk | ⟨hnone, -⟩
  · rw [hk, he]
  · rw [he] at hnone
    exact absurd hnone (by simp)

theorem SluiceFrame.slots {s t : State} (h : SluiceFrame s t) : t.fountain.slots = s.fountain.slots := by rw [h.fountain]

theorem Logged.slots {s t : State} (h : Logged s t) : t.fountain.slots = s.fountain.slots := by
  obtain ⟨_, _, _, _, _, rfl⟩ := h
  rfl

theorem PeersOnly.slots {s t : State} (h : PeersOnly s t) : t.fountain.slots = s.fountain.slots := by
  obtain ⟨_, _, _, _, rfl⟩ := h
  rfl

theorem poisonSignals_slots (s : State) (n : Nat) (sl : Slot) : (poisonSignals s n sl).fountain.slots = s.fountain.slots := by
  unfold poisonSignals
  split
  · rfl
  · refine foldl_keeps (fun t => t.fountain.slots) _ (fun t e _ => ?_) s
    split
    · rfl
    · split
      · exact (peersOnly_peerRequests t _).slots
      · rfl

/-- No task runs in slot `n`. -/
def Idle (s : State) (n : Nat) : Prop := ∀ y, getSlot s n = some y → y.state ≠ 3

theorem Idle.of_slots {s t : State} {n : Nat} (h : Idle s n) (hs : t.fountain.slots = s.fountain.slots) : Idle t n := by
  unfold Idle getSlot
  rw [hs]
  exact h

/-- A change of a slot in which no task runs. -/
theorem tasksLast_setSlot {s : State} {n : Nat} (h : Idle s n) (x : Option Slot) : TasksLast s (setSlot s n x) := by
  refine fun hw => ⟨slotsWf_setSlot hw n x, fun k y hy h3 => ?_⟩
  have hk : k ≠ n := fun e => h y (e ▸ hy) h3
  exact ⟨y, (getSlot_setSlot_ne _ _ _ _ hk).trans hy, h3, .inl rfl⟩

theorem tasksLast_writeFaulted {s : State} {n : Nat} (h : Idle s n) (code : Nat) : TasksLast s (writeFaulted s n code) := by
  have hb : Idle (bump s Key.tasksFaulted 1) n := h
  unfold writeFaulted
  split
  · exact .refl s
  · dsimp only
    split
    · exact .trans (tasksLast_of_slots (t := bump s Key.tasksFaulted 1) rfl) (tasksLast_setSlot hb _)
    · exact .trans (tasksLast_of_slots (t := bump s Key.tasksFaulted 1) rfl) (tasksLast_setSlot hb _)

theorem tasksLast_failCore {s : State} {n : Nat} (h : Idle s n) (r : ErrRec) : TasksLast s (failCore s n r) := by
  unfold failCore
  split
  · exact .refl s
  · next sl _ =>
    have hs := (poisonSignals_slots (raiseTask s n r) n sl).trans (logged_raiseTask s n r).slots
    exact .trans (tasksLast_of_slots hs) (tasksLast_writeFaulted (h.of_slots hs) _)

theorem tasksLast_leaveFaulted {s : State} {n : Nat} (h : Idle s n) (r : ErrRec) : TasksLast s (leaveFaulted s n r) := by
  unfold leaveFaulted
  split
  · exact .refl s
  · have hs : (endStaging (freeScoped s n) n).fountain.slots = s.fountain.slots := (freeScoped_sluiceFrame s n).slots
    exact .trans (tasksLast_of_slots hs) (.trans (tasksLast_failCore (h.of_slots hs) r) (tasksLast_of_slots (dropUsers_sluiceFrame _ _).slots))

theorem idle_of_mem {s : State} (hw : SlotsWf s) {e : Nat × Slot} (he : e ∈ liveSlots s) (h : e.2.state ≠ 3) : Idle s e.1 := fun y hy => by
  have := (mem_liveSlots hw e.1 e.2).mp he
  rw [hy] at this
  rw [Option.some.inj this]
  exact h

theorem tasksLast_failConsumers (k : Nat) : ∀ s, TasksLast s (failConsumers k s) := by
  induction k with
  | zero => exact .refl
  | succ k ih =>
    intro s hw
    unfold failConsumers
    split
    · exact TasksLast.refl s hw
    · next e he =>
      have hgone := List.find?_some he
      have h7 : e.2.state ≠ 3 := fun h3 => by simp [waitsOnGone, h3] at hgone
      exact TasksLast.trans (tasksLast_leaveFaulted (idle_of_mem hw (List.mem_of_find?_eq_some he) h7) _) (ih _) hw

theorem getSlot_endGroups (s : State) (n k : Nat) : getSlot (endGroups s n) k = getSlot s k := rfl

/-- A fault with PEER_LOST: the first fault of a task gives its code. -/
theorem getSlot_faultTask (s : State) (n k : Nat) (r : ErrRec) : getSlot (faultTask s n r) k =
    if k = n then (getSlot s n).map (fun sl => { sl with
      faults := sl.faults + 1, ending := some (sl.ending.getD { code := r.code, replay := none }) }) else getSlot s k := by
  have hr : ∀ j, getSlot (raiseTask s n r) j = getSlot s j := fun j => by unfold getSlot; rw [(logged_raiseTask s n r).slots]
  unfold faultTask
  rw [getSlot_endGroups, getSlot_modSlot]
  simp only [hr]
  split
  · congr 1
    funext sl
    cases sl.ending <;> rfl
  · rfl

theorem slotsWf_faultTask {s : State} (hw : SlotsWf s) (n : Nat) (r : ErrRec) : SlotsWf (faultTask s n r) := by
  have hr : SlotsWf (raiseTask s n r) := by unfold SlotsWf; rw [(logged_raiseTask s n r).slots]; exact hw
  exact slotsWf_modSlot (s := raiseTask s n r) hr n _

theorem tasksLast_faultTask (s : State) (n : Nat) {r : ErrRec} (h : r.code = Code.peerLost) : TasksLast s (faultTask s n r) := by
  refine fun hw => ⟨slotsWf_faultTask hw n r, fun k y hy h3 => ?_⟩
  rw [getSlot_faultTask]
  by_cases hk : k = n
  · subst hk
    rw [if_pos rfl, hy]
    refine ⟨_, rfl, h3, ?_⟩
    cases he : y.ending with
    | none =>
      refine .inr ⟨rfl, ?_⟩
      show some (y.ending.getD { code := r.code, replay := none }) = some lostPeer
      rw [he, h]
      rfl
    | some e =>
      refine .inl ?_
      show some (y.ending.getD { code := r.code, replay := none }) = some e
      rw [he]
      rfl
  · rw [if_neg hk]
    exact ⟨y, hy, h3, .inl rfl⟩

theorem faultTask_ends {s : State} {n : Nat} {sl : Slot} (h : getSlot s n = some sl) (h3 : sl.state = 3) (r : ErrRec) :
    EndsWith (faultTask s n r) n (sl.ending.getD { code := r.code, replay := none }) := by
  refine ⟨{ sl with faults := sl.faults + 1, ending := some (sl.ending.getD { code := r.code, replay := none }) }, ?_, h3, rfl⟩
  rw [getSlot_faultTask, if_pos rfl, h]
  rfl

theorem tasksLast_endTask (s : State) (n : Nat) {r : ErrRec} (h : r.code = Code.peerLost) : TasksLast s (endTask s n r) := by
  unfold endTask
  split
  · exact .refl s
  · next sl hsl =>
    split
    · next hstate =>
      have hidle : Idle s n := fun y hy h3 => by
        rw [hsl] at hy
        obtain rfl := Option.some.inj hy
        simp [h3] at hstate
      exact .trans (tasksLast_leaveFaulted hidle r) (tasksLast_failConsumers _ _)
    · split
      · exact tasksLast_faultTask s n h
      · exact .refl s

theorem endTask_running {s : State} {n : Nat} {sl : Slot} (h : getSlot s n = some sl) (h3 : sl.state = 3) (r : ErrRec) :
    endTask s n r = faultTask s n r := by
  unfold endTask
  simp [h, h3]

theorem tasksLast_evalWaits (s : State) : TasksLast s (evalWaits s) := by
  have hspread : ∀ (k : Nat) (t : State), TasksLast t (spreadPoison k t) := by
    intro k
    induction k with
    | zero => exact .refl
    | succ k ih =>
      intro t hw
      unfold spreadPoison
      split
      · exact TasksLast.refl t hw
      · next n sl he =>
        have hfound := List.find?_some he
        have h1 : sl.state ≠ 3 := fun h3 => by simp [h3] at hfound
        exact TasksLast.trans (tasksLast_failCore (idle_of_mem hw (List.mem_of_find?_eq_some he) h1) _) (ih _) hw
  unfold evalWaits
  refine .trans (hspread _ s) (foldl_rel TasksLast.refl TasksLast.trans _ (fun t e _ => ?_) _)
  split
  · refine fun hw => ⟨slotsWf_modSlot hw _ _, fun k y hy h3 => ?_⟩
    rw [getSlot_modSlot]
    split
    · next hk =>
      subst hk
      rw [hy]
      exact ⟨_, rfl, h3, .inl rfl⟩
    · exact ⟨y, hy, h3, .inl rfl⟩
  · exact .refl t

/-- A task that runs, and that the condition picks, is being ended; one that was being ended already keeps its code. -/
theorem endTasksWhere_ends {s : State} (hw : SlotsWf s) {p : Slot → Bool} {n : Nat} {sl : Slot} (h : getSlot s n = some sl)
    (h3 : sl.state = 3) (hp : p sl = true) : SlotsWf (endTasksWhere s p) ∧ EndsWith (endTasksWhere s p) n (sl.ending.getD lostPeer) := by
  have hmem : (n, sl) ∈ (liveSlots s).filter (fun e => p e.2 && (decide (1 ≤ e.2.state ∧ e.2.state ≤ 4) || e.2.state == 7)) :=
    List.mem_filter.mpr ⟨(mem_liveSlots hw n sl).mpr h, by simp [hp, h3]⟩
  obtain ⟨xs, ys, hsplit⟩ := List.append_of_mem hmem
  have hfold : ∀ (zs : List (Nat × Slot)) (t : State), TasksLast t (zs.foldl (fun st e =>
      endTask st e.1 { code := Code.peerLost, sev := 2, origin := .fountain }) t) := fun zs t =>
    foldl_rel TasksLast.refl TasksLast.trans zs (fun u e _ => tasksLast_endTask u e.1 rfl) t
  unfold endTasksWhere
  rw [hsplit, List.foldl_append, List.foldl_cons]
  obtain ⟨hw1, hlast⟩ := hfold xs s hw
  obtain ⟨y, hy, hy3, hye⟩ := hlast n sl h h3
  have hends := faultTask_ends hy hy3 { code := Code.peerLost, sev := 2, origin := .fountain }
  rw [← endTask_running hy hy3] at hends
  have he : y.ending.getD lostPeer = sl.ending.getD lostPeer := by
    rcases hye with he | ⟨hnone, he⟩
    · rw [he]
    · rw [he, hnone]
      rfl
  have hw2 := (tasksLast_endTask _ n (r := { code := Code.peerLost, sev := 2, origin := .fountain }) rfl hw1).1
  have hw3 := (hfold ys _ hw2).1
  refine ⟨(tasksLast_evalWaits _ hw3).1, (tasksLast_evalWaits _).ends hw3 ((hfold ys _).ends hw2 ?_)⟩
  rw [← he]
  exact hends

/-! ### Requests and copies -/

theorem Delivered.slots {s t : State} (h : Delivered s t) : t.fountain.slots = s.fountain.slots := by
  obtain ⟨_, _, _, _, rfl, -⟩ := h
  rfl

theorem feedEngines_slots (s : State) : (feedEngines s).fountain.slots = s.fountain.slots := by
  unfold feedEngines
  dsimp only
  refine foldl_keeps (fun t : State => t.fountain.slots) _ (fun t m _ => ?_) _
  unfold readPageOut
  split
  · rfl
  · exact congrArg Fountain.slots (startJob_fountain _ _ _ _ _ _ _ _)

theorem failCopy_slots (s : State) (cc code : Nat) : (failCopy s cc code).fountain.slots = s.fountain.slots := by
  unfold failCopy
  dsimp only
  split
  · rfl
  · exact feedEngines_slots _

theorem tasksLast_failReq (s : State) (r : PeerReq) : TasksLast s (failReq s r Code.peerLost) := by
  have hfault : ∀ (t : State) (n : Nat) (x : ErrRec), TasksLast t (endTaskReq t n Code.peerLost x) := fun t n x => by
    rw [endTaskReq_fault (by decide)]
    exact tasksLast_faultTask t n rfl
  unfold failReq
  dsimp only
  split
  · split
    · refine .trans (tasksLast_of_slots ?_) (hfault _ _ _)
      unfold acceptNext
      split
      · rfl
      · split <;> rfl
    · exact .refl s
  · split
    · split
      · exact hfault _ _ _
      · exact .refl s
    · exact .refl s
  · split
    · exact hfault _ _ _
    · exact .refl s
  · refine tasksLast_of_slots ?_
    split
    · unfold portUr
      split <;> rfl
    · unfold bar4Part
      split
      · rfl
      · dsimp only
        split
        · split
          · unfold completeUr
            split <;> rfl
          · unfold completeBar4 portSend
            dsimp only
            split <;> split <;> rfl
        · rfl
  · exact tasksLast_of_slots (failCopy_slots _ _ _)
  · split
    · refine tasksLast_of_slots ?_
      exact (logged_pushEvent _ _ _).slots
    · exact .refl s

theorem tasksLast_endAllReqs (s : State) : TasksLast s (endAllReqs s Code.peerLost) := by
  unfold endAllReqs
  refine .trans (b := { s with pool := { s.pool with reqs := [], waiting := [] } }) (tasksLast_of_slots rfl) ?_
  exact foldl_rel TasksLast.refl TasksLast.trans _ (fun t r _ => tasksLast_failReq t r) _

theorem tasksLast_endFarCopies (s : State) (gone : Nat → Bool) : TasksLast s (endFarCopies s gone) := by
  refine foldl_rel TasksLast.refl TasksLast.trans _ (fun t cc _ => ?_) s
  dsimp only
  split
  · exact tasksLast_of_slots (failCopy_slots _ _ _)
  · exact .refl t

/-! ### Where nothing spans the pool -/

/-- Waits that are evaluated where no poison spreads change slots alone. -/
theorem evalWaits_slots {s : State} (h : NoPoisonDue s) : ∃ m, evalWaits s = { s with fountain := { s.fountain with slots := m } } := by
  have hspread : ∀ k, spreadPoison k s = s := by
    intro k
    cases k with
    | zero => rfl
    | succ k =>
      have hnone : (liveSlots s).find? (fun e => e.2.state == 1 && !e.2.signalled && waitsPoisoned s e.2.words) = none := by
        rw [List.find?_eq_none]
        intro e he hdue
        simp only [Bool.and_eq_true, beq_iff_eq, Bool.not_eq_true'] at hdue
        rw [h e he hdue.1.1 hdue.1.2] at hdue
        exact absurd hdue.2 Bool.false_ne_true
      unfold spreadPoison
      rw [hnone]
  have hmod : ∀ (t : State) (n : Nat) (f : Slot → Slot), ∃ m, modSlot t n f = { t with fountain := { t.fountain with slots := m } } := modSlot_eq
  unfold evalWaits
  dsimp only
  rw [hspread]
  refine foldl_rel (R := fun a b => ∃ m, b = { a with fountain := { a.fountain with slots := m } }) (fun a => ⟨_, rfl⟩) ?_ _ (fun t e _ => ?_) s
  · rintro a b c ⟨m, rfl⟩ ⟨m', rfl⟩
    exact ⟨m', rfl⟩
  · split
    · exact hmod _ _ _
    · exact ⟨_, rfl⟩

end Sys2Proof.Machine
end


section
/-! The pool as it forms: the state query, coordinates, joins and memberships (R324 to R326, R416). -/

namespace Sys2Proof.Machine

/-! ### Messages on the links -/

theorem foldl_emit (f : Nat → Out) (ls : List Nat) : ∀ s : State,
    ls.foldl (fun st l => emit st (f l)) s = { s with out := (ls.map f).reverse ++ s.out } := by
  induction ls with
  | nil => exact fun _ => rfl
  | cons l ls ih =>
    intro s
    rw [List.foldl_cons, ih]
    simp [emit]

/-- A message on every trained link: it goes out on each, and nothing else changes. -/
theorem tellTrained (f : Nat → Out) (s : State) : let t := (trainedLinks s).foldl (fun st l => emit st (f l)) s
    { t with out := s.out } = s ∧ s.out <:+ t.out ∧ ∀ l < 36, (getLink s l).st = .up → f l ∈ t.out := by
  intro t
  have ht : t = _ := foldl_emit f (trainedLinks s) s
  rw [ht]
  refine ⟨rfl, List.suffix_append _ _, fun l hl hup => List.mem_append_left _ (List.mem_reverse.mpr (List.mem_map.mpr ⟨l, ?_, rfl⟩))⟩
  exact List.mem_filter.mpr ⟨List.mem_range.mpr hl, by simp [hup]⟩

/-! ### The cables (R315, R324) -/

/-- The link is cabled as R315 has it, as far as its training tells. -/
def cableRight (s : State) (l : Nat) : Bool :=
  cabledTo (poolShape s) s.boot.tier s.pool.device l == (match (getLink s l).peerDev, (getLink s l).peerLink with
    | some d, some j => some (d, j)
    | _, _ => none)

/-- The check of one trained link's cable. -/
def checkCable (s : State) (l : Nat) : State :=
  if cableRight s l then s
  else noteS8 (raiseUnit (setLink s l { getLink s l with st := .miscabled }) Code.cableMismatch 1 .link l []) Code.cableMismatch

theorem checkCables_eq (s : State) : checkCables s = (trainedLinks s).foldl checkCable s := rfl

/-- What the check of cables leaves alone: all but the links' states, the warning, and what it logs. -/
structure CablesKept (s t : State) : Prop where
  boot : t.boot = s.boot
  pool : ∃ c, t.pool = { s.pool with s8code := c }
  out : s.out <:+ t.out
  objs : ∀ k, Unlogged Code.cableMismatch k → getObj t k = getObj s k
  links : ∀ j, getLink t j = { getLink s j with st := (getLink t j).st }

theorem CablesKept.refl (s : State) : CablesKept s s := ⟨rfl, ⟨_, rfl⟩, List.suffix_refl _, fun _ _ => rfl, fun _ => rfl⟩

theorem CablesKept.trans {a b c : State} (h : CablesKept a b) (k : CablesKept b c) : CablesKept a c := by
  obtain ⟨_, hp⟩ := h.pool
  obtain ⟨_, kp⟩ := k.pool
  refine ⟨k.boot.trans h.boot, ⟨_, by rw [kp, hp]⟩, h.out.trans k.out, fun j hj => (k.objs j hj).trans (h.objs j hj), fun j => ?_⟩
  rw [k.links j, h.links j]

theorem noteS8_eq (s : State) (c : Nat) : noteS8 s c = { s with pool := { s.pool with s8code := if s.pool.s8code = 0 then c else s.pool.s8code } } := by
  unfold noteS8
  split <;> rfl

theorem noteS8_boot (s : State) (c : Nat) : (noteS8 s c).boot = s.boot := by rw [noteS8_eq]
theorem noteS8_out (s : State) (c : Nat) : (noteS8 s c).out = s.out := by rw [noteS8_eq]
theorem getObj_noteS8 (s : State) (c k : Nat) : getObj (noteS8 s c) k = getObj s k := by rw [noteS8_eq]; rfl
theorem getLink_noteS8 (s : State) (c j : Nat) : getLink (noteS8 s c) j = getLink s j := by rw [noteS8_eq]; rfl

theorem raise_suffix (s : State) (r : ErrRec) : s.out <:+ (raise s r).out := by
  have h : s.out <:+ (countCode (bump s Key.errors 1) r.code).out := List.suffix_refl _
  exact h.trans (poolKept_pushEvent _ _ _).out

theorem raise_getLink (s : State) (r : ErrRec) (j : Nat) : getLink (raise s r) j = getLink s j := by
  obtain ⟨_, _, _, _, _, h⟩ := logged_raise s r
  rw [h]
  rfl

theorem checkCable_links (s : State) (l j : Nat) : getLink (checkCable s l) j =
    if j = l ∧ cableRight s l = false then { getLink s j with st := .miscabled } else getLink s j := by
  unfold checkCable
  cases h : cableRight s l with
  | true => simp
  | false =>
    rw [if_neg Bool.false_ne_true, getLink_noteS8]
    unfold raiseUnit
    rw [raise_getLink]
    by_cases hj : j = l
    · rw [hj, getLink_setLink_same, if_pos ⟨rfl, rfl⟩]
    · rw [getLink_setLink_ne _ _ _ _ hj, if_neg (fun hx => hj hx.1)]

theorem cablesKept_checkCable (s : State) (l : Nat) : CablesKept s (checkCable s l) := by
  have hlinks : ∀ j, getLink (checkCable s l) j = { getLink s j with st := (getLink (checkCable s l) j).st } := fun j => by
    rw [checkCable_links]
    split <;> rfl
  cases h : cableRight s l with
  | true =>
    have he : checkCable s l = s := if_pos h
    rw [he]
    exact .refl s
  | false =>
    obtain ⟨u, hu⟩ : ∃ u, setLink s l { getLink s l with st := .miscabled } = u := ⟨_, rfl⟩
    have he : checkCable s l = noteS8 (raiseUnit u Code.cableMismatch 1 .link l []) Code.cableMismatch := by
      rw [← hu]
      exact if_neg (by rw [h]; exact Bool.false_ne_true)
    have hboot : u.boot = s.boot := by rw [← hu]; rfl
    have hpool : u.pool = s.pool := by rw [← hu]; rfl
    have hout : u.out = s.out := by rw [← hu]; rfl
    have hobj : ∀ k, getObj u k = getObj s k := fun k => by rw [← hu]; rfl
    obtain ⟨-, -, -, hboot', -, -, -, -, -, -, -, -, hpool', -⟩ := (logged_raiseUnit u Code.cableMismatch 1 .link l []).rest
    have hp : (checkCable s l).pool = { s.pool with s8code := if s.pool.s8code = 0 then Code.cableMismatch else s.pool.s8code } := by
      rw [he, noteS8_eq, hpool', hpool]
    refine ⟨?_, ⟨_, hp⟩, ?_, fun k hk => ?_, hlinks⟩
    · rw [he, noteS8_boot]
      exact hboot'.trans hboot
    · rw [he, noteS8_out, ← hout]
      exact raise_suffix u _
    · rw [he, getObj_noteS8]
      exact (getObj_raiseUnit_ne hk).trans (hobj k)

/-- A link's cable is judged by what the check of the others keeps. -/
theorem CablesKept.right {s t : State} (h : CablesKept s t) (j : Nat) : cableRight t j = cableRight s j := by
  obtain ⟨_, hp⟩ := h.pool
  unfold cableRight poolShape
  rw [h.boot, hp, h.links j]

/-- After the check, the links of those checked that are not cabled right are MISCABLED, and the others are as before. -/
theorem checkCables_links (ls : List Nat) : ∀ s j, CablesKept s (ls.foldl checkCable s) ∧ getLink (ls.foldl checkCable s) j =
    if j ∈ ls ∧ cableRight s j = false then { getLink s j with st := .miscabled } else getLink s j := by
  induction ls with
  | nil => exact fun s j => ⟨.refl s, by simp⟩
  | cons l ls ih =>
    intro s j
    obtain ⟨hkept, hlink⟩ := ih (checkCable s l) j
    have hone := cablesKept_checkCable s l
    refine ⟨hone.trans hkept, ?_⟩
    rw [List.foldl_cons, hlink, hone.right, checkCable_links]
    by_cases hj : j = l
    · subst hj
      by_cases hr : cableRight s j = false
      · simp [hr]
      · simp [hr]
    · simp [hj]

theorem cablesKept_checkCables (s : State) : CablesKept s (checkCables s) := (checkCables_links (trainedLinks s) s 0).1

theorem mem_trainedLinks {s : State} {l : Nat} : l ∈ trainedLinks s ↔ l < 36 ∧ (getLink s l).st = .up := by
  unfold trainedLinks
  rw [List.mem_filter, List.mem_range, beq_iff_eq]

theorem getLink_checkCables {s : State} {j : Nat} (hj : j < 36) (hup : (getLink s j).st = .up) : getLink (checkCables s) j =
    if cableRight s j = false then { getLink s j with st := .miscabled } else getLink s j := by
  rw [checkCables_eq, (checkCables_links (trainedLinks s) s j).2]
  simp [mem_trainedLinks, hj, hup]

/-! ### Coordinates (R22, R324) -/

/-- The coordinates of the peer that link `l` should reach, as ASSIGN says them. -/
def assignOf (s : State) (l : Nat) : Option Out :=
  (cabledTo (poolShape s) s.boot.tier s.pool.device l).map (fun e => .pool l 0 [devX e.1, devY e.1, devZ e.1])

/-- One ASSIGN. -/
def sendAssign (skip : Option Nat) (s : State) (l : Nat) : State :=
  match cabledTo (poolShape s) s.boot.tier s.pool.device l with
  | some (q, _) => if skip = some l then s else emit s (.pool l 0 [devX q, devY q, devZ q])
  | none => s

theorem sendAssigns_eq (s : State) (skip : Option Nat) : sendAssigns s skip = (trainedLinks s).foldl (sendAssign skip) s := rfl

theorem sendAssign_spec (skip : Option Nat) (s : State) (l : Nat) : { sendAssign skip s l with out := s.out } = s ∧
    s.out <:+ (sendAssign skip s l).out ∧ (skip ≠ some l → ∀ o, assignOf s l = some o → o ∈ (sendAssign skip s l).out) := by
  unfold sendAssign assignOf
  cases cabledTo (poolShape s) s.boot.tier s.pool.device l with
  | none => exact ⟨rfl, List.suffix_refl _, fun _ o ho => absurd ho (by simp)⟩
  | some e =>
    dsimp only
    split
    · next hskip => exact ⟨rfl, List.suffix_refl _, fun hne => absurd hskip hne⟩
    · refine ⟨rfl, List.suffix_cons _ _, fun _ o ho => ?_⟩
      obtain rfl := Option.some.inj ho
      exact List.mem_cons_self

theorem sendAssigns_spec (skip : Option Nat) (ls : List Nat) : ∀ s, { ls.foldl (sendAssign skip) s with out := s.out } = s ∧
    s.out <:+ (ls.foldl (sendAssign skip) s).out ∧
    ∀ l ∈ ls, skip ≠ some l → ∀ o, assignOf s l = some o → o ∈ (ls.foldl (sendAssign skip) s).out := by
  induction ls with
  | nil => exact fun s => ⟨rfl, List.suffix_refl _, fun l hl => absurd hl List.not_mem_nil⟩
  | cons l ls ih =>
    intro s
    obtain ⟨hsame, hout, hsaid⟩ := sendAssign_spec skip s l
    obtain ⟨hsame', hout', hsaid'⟩ := ih (sendAssign skip s l)
    have hassign : ∀ j, assignOf (sendAssign skip s l) j = assignOf s j := fun j => by
      have := congrArg (assignOf · j) hsame
      exact this
    refine ⟨?_, hout.trans hout', fun j hj hskip o ho => ?_⟩
    · exact (congrArg (fun u : State => { u with out := s.out }) hsame').trans hsame
    · rcases List.mem_cons.mp hj with rfl | hj
      · exact hout'.subset (hsaid hskip o ho)
      · exact hsaid' j hj hskip o ((hassign j).trans ho)

end Sys2Proof.Machine
end


section
/-! A device finds its place in the pool, and the pool forms (R324 to R326, R416). -/

namespace Sys2Proof.Machine

/-- At S8, a device that has not begun to form (R324). -/
def asksPool (s : State) : Prop := poolShape s ≠ 0 ∧ s.boot.stage = 8 ∧ s.boot.stopped = false ∧ s.pool.st = .standalone

theorem poolStateQuery_idle {s : State} (h : ¬asksPool s) (answers : List (Nat × Nat)) : exec (.poolStateQuery answers) s = .next s := by
  refine if_pos ?_
  by_contra hc
  simp only [not_or, not_not, Bool.not_eq_true] at hc
  exact h ⟨hc.1, hc.2.1, hc.2.2.1, hc.2.2.2⟩

theorem poolStateQuery_asks {s : State} (h : asksPool s) (answers : List (Nat × Nat)) : exec (.poolStateQuery answers) s =
    let asked := (trainedLinks s).foldl (fun st l => emit st (.pool l 5 [])) s
    if answers.any (fun a => decide (2 ≤ a.2 ∧ a.2 ≤ 4)) then
      match s.flash.formation with
      | some f => .next { asked with pool := { s.pool with device := f.device, x := f.x, y := f.y, z := f.z, st := .waiting } }
      | none => .next { asked with pool := { s.pool with st := .waiting } }
    else if s.port.up then
      .next (sendAssigns (checkCables
        (takeCoords { asked with pool := { s.pool with head := true, st := .forming, assignedAt := some (now s) } } 0 0 0)) none)
    else .next { asked with pool := { s.pool with st := .forming } } := by
  obtain ⟨hshape, hstage, hstopped, hst⟩ := h
  refine if_neg ?_
  simp [hshape, hstage, hstopped, hst]

/-- A device asks on every trained link for the pool's state, and nothing else of it has changed but its place in the pool. -/
theorem asked_withPool (s : State) (x : Pool) :
    let t := { (trainedLinks s).foldl (fun st l => emit st (.pool l 5 [])) s with pool := x }
    { t with pool := s.pool, out := s.out } = s ∧ ∀ l < 36, (getLink s l).st = .up → .pool l 5 [] ∈ t.out := by
  obtain ⟨hsame, -, hsaid⟩ := tellTrained (fun l => .pool l 5 []) s
  refine ⟨?_, hsaid⟩
  have := congrArg (fun u : State => { u with pool := s.pool }) hsame
  exact this

theorem any_answers {answers : List (Nat × Nat)} : answers.any (fun a => decide (2 ≤ a.2 ∧ a.2 ≤ 4)) = true ↔
    ∃ a ∈ answers, 2 ≤ a.2 ∧ a.2 ≤ 4 := by simp

/-- A pool that exists is joined later: the device waits, with the place that its flash holds (R416). -/
theorem poolStateQuery_waits {s : State} (h : asksPool s) {answers : List (Nat × Nat)} (hex : ∃ a ∈ answers, 2 ≤ a.2 ∧ a.2 ≤ 4) :
    ∃ t, exec (.poolStateQuery answers) s = .next t ∧ t.pool.st = .waiting ∧
      ({ t with pool := s.pool, out := s.out } = s ∧ ∀ l < 36, (getLink s l).st = .up → .pool l 5 [] ∈ t.out) ∧
      (∀ f, s.flash.formation = some f → t.pool.device = f.device ∧ t.pool.x = f.x ∧ t.pool.y = f.y ∧ t.pool.z = f.z) ∧
      (s.flash.formation = none → t.pool = { s.pool with st := .waiting }) := by
  rw [poolStateQuery_asks h]
  dsimp only
  rw [any_answers.mpr hex, if_pos rfl]
  cases hf : s.flash.formation with
  | none => exact ⟨_, rfl, rfl, asked_withPool s _, fun f h => absurd h (by simp), fun _ => rfl⟩
  | some f =>
    refine ⟨_, rfl, rfl, asked_withPool s _, fun f' h' => ?_, fun h => absurd h (by simp)⟩
    obtain rfl := Option.some.inj h'
    exact ⟨rfl, rfl, rfl, rfl⟩

theorem sendAssigns_pool (s : State) (skip : Option Nat) : (sendAssigns s skip).pool = s.pool := by
  have h := congrArg State.pool (sendAssigns_spec skip (trainedLinks s) s).1
  exact h

/-- The check of the cables leaves the pool, but for the warning of S8. -/
theorem checkCables_pool (s : State) : ∃ c, (sendAssigns (checkCables s) none).pool = { s.pool with s8code := c } := by
  obtain ⟨c, hc⟩ := (cablesKept_checkCables s).pool
  exact ⟨c, (sendAssigns_pool _ _).trans hc⟩

/-- The device with the host begins as the head, at (0, 0, 0). -/
theorem poolStateQuery_heads {s : State} (h : asksPool s) {answers : List (Nat × Nat)} (hex : ¬∃ a ∈ answers, 2 ≤ a.2 ∧ a.2 ≤ 4)
    (hup : s.port.up = true) : ∃ t, exec (.poolStateQuery answers) s = .next t ∧ t.pool.head = true ∧ t.pool.st = .forming ∧
      t.pool.device = 0 ∧ t.pool.x = 0 ∧ t.pool.y = 0 ∧ t.pool.z = 0 ∧ t.pool.assignedAt = some (now s) := by
  rw [poolStateQuery_asks h]
  dsimp only
  rw [if_neg (fun he => hex (any_answers.mp he)), if_pos hup]
  refine ⟨_, rfl, ?_⟩
  obtain ⟨c, hc⟩ := checkCables_pool (takeCoords { (trainedLinks s).foldl (fun st l => emit st (.pool l 5 [])) s with
    pool := { s.pool with head := true, st := .forming, assignedAt := some (now s) } } 0 0 0)
  rw [hc]
  exact ⟨rfl, rfl, rfl, rfl, rfl, rfl, rfl⟩

theorem poolStateQuery_forms {s : State} (h : asksPool s) {answers : List (Nat × Nat)} (hex : ¬∃ a ∈ answers, 2 ≤ a.2 ∧ a.2 ≤ 4)
    (hup : s.port.up = false) : ∃ t, exec (.poolStateQuery answers) s = .next t ∧
      ({ t with pool := s.pool, out := s.out } = s ∧ ∀ l < 36, (getLink s l).st = .up → .pool l 5 [] ∈ t.out) ∧
      t.pool = { s.pool with st := .forming } := by
  rw [poolStateQuery_asks h]
  dsimp only
  rw [if_neg (fun he => hex (any_answers.mp he)), hup, if_neg Bool.false_ne_true]
  exact ⟨_, rfl, asked_withPool s _, rfl⟩

/-! ### ASSIGN and JOIN (R324) -/

theorem poolAssign_eq (s : State) (l x y z : Nat) : exec (.poolAssign l x y z) s =
    if s.pool.st ≠ .forming ∨ (getLink s l).st ≠ .up then .next s
    else if s.pool.head then .next (noteS8 { s with pool := { s.pool with st := .waiting } } Code.poolTwoHeads)
    else if s.pool.gotAssign then .next s
    else
      let s1 := checkCables (takeCoords { s with pool := { s.pool with gotAssign := true } } x y z)
      .next (emit (sendAssigns s1 (some l)) (.pool l 1 [s1.pool.device, s1.boot.tier, poolShape s1, runningKeeper s1, runningFountain s1])) := rfl

theorem poolAssign_idle {s : State} {l : Nat} (h : s.pool.st ≠ .forming ∨ (getLink s l).st ≠ .up ∨ (s.pool.head = false ∧ s.pool.gotAssign = true))
    (x y z : Nat) : exec (.poolAssign l x y z) s = .next s := by
  rw [poolAssign_eq]
  by_cases hidle : s.pool.st ≠ .forming ∨ (getLink s l).st ≠ .up
  · exact if_pos hidle
  · obtain ⟨hhead, hgot⟩ : s.pool.head = false ∧ s.pool.gotAssign = true := by
      rcases h with h | h | h
      · exact absurd (.inl h) hidle
      · exact absurd (.inr h) hidle
      · exact h
    rw [if_neg hidle, hhead, if_neg Bool.false_ne_true, if_pos hgot]

theorem poolAssign_twoHeads {s : State} {l : Nat} (hst : s.pool.st = .forming) (hup : (getLink s l).st = .up) (hhead : s.pool.head = true)
    (x y z : Nat) : exec (.poolAssign l x y z) s = .next { s with
      pool := { s.pool with st := .waiting, s8code := if s.pool.s8code = 0 then Code.poolTwoHeads else s.pool.s8code } } := by
  rw [poolAssign_eq, if_neg (by simp [hst, hup]), if_pos hhead, noteS8_eq]

/-- Versions are none of the objects that a log entry counts in. -/
theorem unlogged_version {b : Bool} : Unlogged Code.cableMismatch (Key.keeperVersion (if b then 1 else 0)) ∧
    Unlogged Code.cableMismatch (Key.fountainVersion (if b then 1 else 0)) := by
  cases b <;> (unfold Unlogged; decide)

/-- The link's training names the peer that R315 gives it. -/
theorem cableRight_iff {s : State} {j q k : Nat} (hq : (getLink s j).peerDev = some q) (hk : (getLink s j).peerLink = some k) :
    cableRight s j = true ↔ cabledTo (poolShape s) s.boot.tier s.pool.device j = some (q, k) := by
  unfold cableRight
  rw [hq, hk, beq_iff_eq]

/-- Link `j` of a device at these coordinates is trained with the peer and the link that R315 gives it. -/
def CabledAs (s : State) (x y z j : Nat) : Prop := cabledTo (poolShape s) s.boot.tier (devAt x y z) j ≠ none ∧
  (cabledTo (poolShape s) s.boot.tier (devAt x y z) j).map (·.1) = (getLink s j).peerDev ∧
  (cabledTo (poolShape s) s.boot.tier (devAt x y z) j).map (·.2) = (getLink s j).peerLink

/-- The device once it has heard its coordinates. -/
def hasCoords (s : State) (x y z : Nat) : State := takeCoords { s with pool := { s.pool with gotAssign := true } } x y z

theorem cableRight_hasCoords {s : State} {x y z j : Nat} (h : CabledAs s x y z j) : cableRight (hasCoords s x y z) j = true := by
  obtain ⟨hsome, hdev, hpeer⟩ := h
  obtain ⟨e, he⟩ := Option.ne_none_iff_exists'.mp hsome
  rw [he] at hdev hpeer
  exact (cableRight_iff (s := hasCoords s x y z) (q := e.1) (k := e.2) hdev.symm hpeer.symm).mpr he

theorem cableRight_hasCoords_false {s : State} {x y z j : Nat} (hdev : (getLink s j).peerDev ≠ none) (hpeer : (getLink s j).peerLink ≠ none)
    (h : ¬CabledAs s x y z j) : cableRight (hasCoords s x y z) j = false := by
  obtain ⟨q, hq⟩ := Option.ne_none_iff_exists'.mp hdev
  obtain ⟨k, hk⟩ := Option.ne_none_iff_exists'.mp hpeer
  rw [Bool.eq_false_iff]
  intro hright
  have hcabled : cabledTo (poolShape s) s.boot.tier (devAt x y z) j = some (q, k) :=
    (cableRight_iff (s := hasCoords s x y z) hq hk).mp hright
  exact h ⟨by rw [hcabled]; exact Option.some_ne_none _, by rw [hcabled, hq]; rfl, by rw [hcabled, hk]; rfl⟩

/-- The device once it has checked its cables at the coordinates that it has heard. -/
def atCoords (s : State) (x y z : Nat) : State := checkCables (hasCoords s x y z)

theorem atCoords_spec (s : State) (x y z : Nat) : (atCoords s x y z).boot = s.boot ∧
    (∃ c, (atCoords s x y z).pool = { s.pool with gotAssign := true, device := devAt x y z, x := x, y := y, z := z, s8code := c }) ∧
    runningKeeper (atCoords s x y z) = runningKeeper s ∧ runningFountain (atCoords s x y z) = runningFountain s ∧
    ∀ j < 36, (getLink s j).st = .up → getLink (atCoords s x y z) j =
      if cableRight (hasCoords s x y z) j = false then { getLink s j with st := .miscabled } else getLink s j := by
  have hkept := cablesKept_checkCables (hasCoords s x y z)
  obtain ⟨c, hpool⟩ := hkept.pool
  have hboot : (atCoords s x y z).boot = s.boot := hkept.boot
  refine ⟨hboot, ⟨c, hpool⟩, ?_, ?_, fun j hj hup => getLink_checkCables (s := hasCoords s x y z) hj hup⟩
  · unfold runningKeeper
    rw [hboot]
    exact hkept.objs _ unlogged_version.1
  · unfold runningFountain
    rw [hboot]
    exact hkept.objs _ unlogged_version.2

/-- What the device says and is, once it has passed its coordinates on. -/
theorem sendAssigns_atCoords (s : State) (l x y z : Nat) : let t := sendAssigns (atCoords s x y z) (some l)
    t.pool = (atCoords s x y z).pool ∧ (∀ j, getLink t j = getLink (atCoords s x y z) j) ∧
    ∀ j q, j < 36 → (getLink s j).st = .up → CabledAs s x y z j → j ≠ l → (getLink s j).peerDev = some q →
      .pool j 0 [devX q, devY q, devZ q] ∈ t.out := by
  intro t
  obtain ⟨hboot, ⟨c, hpool⟩, -, -, hlink⟩ := atCoords_spec s x y z
  obtain ⟨hsame, -, hsaid⟩ := sendAssigns_spec (some l) (trainedLinks (atCoords s x y z)) (atCoords s x y z)
  refine ⟨sendAssigns_pool _ _, fun j => ?_, fun j q hj hup hright hne hq => ?_⟩
  · have := congrArg (getLink · j) hsame
    exact this
  · refine hsaid j (mem_trainedLinks.mpr ⟨hj, ?_⟩) (fun e => hne (Option.some.inj e).symm) _ ?_
    · rw [hlink j hj hup, cableRight_hasCoords hright]
      exact hup
    · obtain ⟨hsome, hdev, -⟩ := hright
      obtain ⟨e, he⟩ := Option.ne_none_iff_exists'.mp hsome
      rw [he, hq] at hdev
      unfold assignOf
      rw [show cabledTo (poolShape (atCoords s x y z)) (atCoords s x y z).boot.tier (atCoords s x y z).pool.device j = some e by
        unfold poolShape
        rw [hboot, hpool]
        exact he, ← Option.some.inj hdev]
      rfl

theorem devAt_eq (x y z : Nat) : devAt x y z = x + 4 * y + 16 * z := rfl

/-- A device that learns its coordinates passes them on and joins (R324, steps 3 and 4). -/
theorem poolAssign_learns {s : State} {l : Nat} (hst : s.pool.st = .forming) (hup : (getLink s l).st = .up) (hhead : s.pool.head = false)
    (hgot : s.pool.gotAssign = false) (x y z : Nat) :
    ∃ t, exec (.poolAssign l x y z) s = .next t ∧ t.pool.device = x + 4 * y + 16 * z ∧ t.pool.x = x ∧ t.pool.y = y ∧ t.pool.z = z ∧
      t.pool.gotAssign = true ∧ t.pool.st = .forming ∧
      .pool l 1 [devAt x y z, s.boot.tier, poolShape s, runningKeeper s, runningFountain s] ∈ t.out ∧
      (∀ j q, j < 36 → (getLink s j).st = .up → CabledAs s x y z j → getLink t j = getLink s j ∧
        (j ≠ l → (getLink s j).peerDev = some q → .pool j 0 [devX q, devY q, devZ q] ∈ t.out)) ∧
      (∀ j, j < 36 → (getLink s j).st = .up → (getLink s j).peerDev ≠ none → (getLink s j).peerLink ≠ none → ¬CabledAs s x y z j →
        (getLink t j).st = .miscabled) := by
  obtain ⟨hboot, ⟨c, hpool⟩, hkeeper, hfountain, hlink⟩ := atCoords_spec s x y z
  obtain ⟨hsent, hlinks, hsaid⟩ := sendAssigns_atCoords s l x y z
  have hjoin : exec (.poolAssign l x y z) s = .next (emit (sendAssigns (atCoords s x y z) (some l))
      (.pool l 1 [devAt x y z, s.boot.tier, poolShape s, runningKeeper s, runningFountain s])) := by
    rw [poolAssign_eq, if_neg (by simp [hst, hup]), if_neg (by simp [hhead]), if_neg (by simp [hgot])]
    show Host.Outcome.next (emit (sendAssigns (atCoords s x y z) (some l)) (.pool l 1 [(atCoords s x y z).pool.device,
      (atCoords s x y z).boot.tier, poolShape (atCoords s x y z), runningKeeper (atCoords s x y z), runningFountain (atCoords s x y z)])) = _
    rw [hkeeper, hfountain, hpool]
    unfold poolShape
    rw [hboot]
  have hfinal := hsent.trans hpool
  refine ⟨_, hjoin, ?_, ?_, ?_, ?_, ?_, ?_, List.mem_cons_self, fun j q hj hjup hright => ⟨?_, fun hne hq => ?_⟩,
    fun j hj hjup hdev hpeer hwrong => ?_⟩
  · exact (congrArg Pool.device hfinal).trans (devAt_eq x y z)
  · exact congrArg Pool.x hfinal
  · exact congrArg Pool.y hfinal
  · exact congrArg Pool.z hfinal
  · exact congrArg Pool.gotAssign hfinal
  · exact (congrArg Pool.st hfinal).trans hst
  · refine (hlinks j).trans ?_
    rw [hlink j hj hjup, cableRight_hasCoords hright]
    rfl
  · exact List.mem_cons_of_mem _ (hsaid j q hj hjup hright hne hq)
  · refine (congrArg Link.st (hlinks j)).trans ?_
    rw [hlink j hj hjup, cableRight_hasCoords_false hdev hpeer hwrong]
    rfl

/-! ### JOIN (R324, step 4) -/

theorem poolJoin_eq (s : State) (d tier shape kv fv : Nat) : exec (.poolJoin d tier shape kv fv) s =
    if s.pool.st ≠ .forming ∨ 64 ≤ d then .next s
    else if s.pool.head = false then
      .next (if s.pool.gotAssign = true ∧ d = s.pool.device then
        noteS8 { s with pool := { s.pool with st := .waiting } } Code.poolMismatch else s)
    else if tier ≠ s.boot.tier ∨ shape ≠ poolShape s then
      .next (noteS8 ((trainedLinks s).foldl (fun st l => emit st (.pool l 7 [d])) s) Code.poolMismatch)
    else if s.pool.joined.any (fun j => j.device == d) then .next s
    else .next { s with pool := { s.pool with joined := s.pool.joined ++ [⟨d, kv, fv⟩] } } := rfl

section
variable {s : State} {d : Nat} (tier shape kv fv : Nat)

theorem poolJoin_idle (hhead : ¬(s.pool.head = true ∧ s.pool.st = .forming ∧ d < 64))
    (hback : ¬(s.pool.head = false ∧ s.pool.st = .forming ∧ d < 64 ∧ s.pool.gotAssign = true ∧ d = s.pool.device)) :
    exec (.poolJoin d tier shape kv fv) s = .next s := by
  rw [poolJoin_eq]
  by_cases hidle : s.pool.st ≠ .forming ∨ 64 ≤ d
  · exact if_pos hidle
  · obtain ⟨hst, hd⟩ := not_or.mp hidle
    rw [not_not] at hst
    have hno : s.pool.head = false := by
      rw [Bool.eq_false_iff]
      exact fun h => hhead ⟨h, hst, Nat.not_le.mp hd⟩
    rw [if_neg hidle, if_pos hno, if_neg fun hb => hback ⟨hno, hst, Nat.not_le.mp hd, hb.1, hb.2⟩]

theorem poolJoin_back (hback : s.pool.head = false ∧ s.pool.st = .forming ∧ d < 64 ∧ s.pool.gotAssign = true ∧ d = s.pool.device) :
    exec (.poolJoin d tier shape kv fv) s = .next { s with
      pool := { s.pool with st := .waiting, s8code := if s.pool.s8code = 0 then Code.poolMismatch else s.pool.s8code } } := by
  obtain ⟨hno, hst, hd, hgot, hdev⟩ := hback
  rw [poolJoin_eq, if_neg (by simp [hst, hd]), if_pos hno, if_pos ⟨hgot, hdev⟩, noteS8_eq]

theorem poolJoin_refused (hhead : s.pool.head = true ∧ s.pool.st = .forming ∧ d < 64) (hother : tier ≠ s.boot.tier ∨ shape ≠ poolShape s) :
    ∃ t, exec (.poolJoin d tier shape kv fv) s = .next t ∧
      { t with out := s.out } = { s with pool := { s.pool with s8code := if s.pool.s8code = 0 then Code.poolMismatch else s.pool.s8code } } ∧
      ∀ l < 36, (getLink s l).st = .up → .pool l 7 [d] ∈ t.out := by
  obtain ⟨hyes, hst, hd⟩ := hhead
  obtain ⟨hsame, -, hsaid⟩ := tellTrained (fun l => .pool l 7 [d]) s
  rw [poolJoin_eq, if_neg (by simp [hst, hd]), if_neg (by simp [hyes]), if_pos hother, noteS8_eq]
  refine ⟨_, rfl, ?_, hsaid⟩
  have := congrArg (fun u : State => { u with
    pool := { u.pool with s8code := if u.pool.s8code = 0 then Code.poolMismatch else u.pool.s8code } }) hsame
  exact this

theorem poolJoin_same (hhead : s.pool.head = true ∧ s.pool.st = .forming ∧ d < 64) :
    ((∃ j ∈ s.pool.joined, j.device = d) → exec (.poolJoin d s.boot.tier (poolShape s) kv fv) s = .next s) ∧
    ((∀ j ∈ s.pool.joined, j.device ≠ d) → exec (.poolJoin d s.boot.tier (poolShape s) kv fv) s = .next { s with
      pool := { s.pool with joined := s.pool.joined ++ [⟨d, kv, fv⟩] } }) := by
  obtain ⟨hyes, hst, hd⟩ := hhead
  rw [poolJoin_eq, if_neg (by simp [hst, hd]), if_neg (by simp [hyes]), if_neg (by simp)]
  refine ⟨fun hjoined => if_pos ?_, fun hnew => if_neg ?_⟩
  · simpa using hjoined
  · simpa using hnew

end

end Sys2Proof.Machine
end


section
/-! Memberships take effect, pairs of members are lost, and links are withdrawn (R324 to R328, R330, R331). -/

namespace Sys2Proof.Machine

/-! ### Memberships (R326) -/

/-- The device once its tasks and requests have ended for a new membership. -/
def endForMembers (s : State) (m : Nat) : State :=
  endFarCopies (if bit s.pool.members s.pool.device || bit m s.pool.device then
    endAllReqs (endTasksWhere s (fun _ => true)) Code.peerLost else s) (fun d => !(bit m d))

theorem applyMembers_eq (s : State) (m : Nat) : applyMembers s m =
    let u := endForMembers s m
    let t := { u with pool := { u.pool with members := m, broken := [], st := if bit m s.pool.device then .formed else .waiting } }
    if bit m s.pool.device then noteFormation t else t := rfl

theorem poolKept_endForMembers (s : State) (m : Nat) : PoolKept s (endForMembers s m) := by
  unfold endForMembers
  refine .trans ?_ (poolKept_endFarCopies _ _)
  split
  · exact (poolKept_endTasksWhere s _).trans (poolKept_endAllReqs _)
  · exact .refl s

/-- A membership makes a member FORMED, and another device WAITING. -/
theorem applyMembers_pool (s : State) (m : Nat) : (applyMembers s m).pool.members = m ∧ (applyMembers s m).pool.broken = [] ∧
    (applyMembers s m).pool.st = (if bit m s.pool.device then .formed else .waiting) ∧ s.out <:+ (applyMembers s m).out ∧
    (bit m s.pool.device = true → (applyMembers s m).flash.formation = some ⟨s.pool.device, s.pool.x, s.pool.y, s.pool.z⟩) := by
  have hkept := poolKept_endForMembers s m
  obtain ⟨_, _, _, hpool⟩ := hkept.pool
  have hdevice : (endForMembers s m).pool.device = s.pool.device := by rw [hpool]
  have hx : (endForMembers s m).pool.x = s.pool.x := by rw [hpool]
  have hy : (endForMembers s m).pool.y = s.pool.y := by rw [hpool]
  have hz : (endForMembers s m).pool.z = s.pool.z := by rw [hpool]
  rw [applyMembers_eq]
  dsimp only
  cases bit m s.pool.device with
  | true =>
    refine ⟨rfl, rfl, rfl, hkept.out, fun _ => ?_⟩
    rw [← hdevice, ← hx, ← hy, ← hz]
    rfl
  | false => exact ⟨rfl, rfl, rfl, hkept.out, fun h => absurd h Bool.false_ne_true⟩

theorem applyMembers_slots (s : State) (m : Nat) : (applyMembers s m).fountain.slots = (endForMembers s m).fountain.slots := by
  rw [applyMembers_eq]
  dsimp only
  split <;> rfl

theorem EndsWith.of_slots {s t : State} {n : Nat} {e : Ending} (h : EndsWith s n e) (hs : t.fountain.slots = s.fountain.slots) : EndsWith t n e := by
  unfold EndsWith getSlot at h ⊢
  rw [hs]
  exact h

/-- A membership that names the device, or has named it, ends the tasks that run with PEER_LOST. -/
theorem applyMembers_ends {s : State} (hw : SlotsWf s) {m n : Nat} {sl : Slot} (hnamed : bit m s.pool.device = true ∨ bit s.pool.members s.pool.device = true)
    (h : getSlot s n = some sl) (h3 : sl.state = 3) : (getSlot (applyMembers s m) n).map (·.ending) = some (some (sl.ending.getD lostPeer)) := by
  obtain ⟨hw1, hends⟩ := endTasksWhere_ends (p := fun _ => true) hw h h3 rfl
  have hw2 := (tasksLast_endAllReqs _ hw1).1
  have hall := (tasksLast_endFarCopies _ (fun d => !(bit m d))).ends hw2 ((tasksLast_endAllReqs _).ends hw1 hends)
  have hmembers : endForMembers s m = endFarCopies (endAllReqs (endTasksWhere s (fun _ => true)) Code.peerLost) (fun d => !(bit m d)) := by
    unfold endForMembers
    rw [if_pos (by rcases hnamed with h | h <;> simp [h])]
  obtain ⟨z, hz, -, he⟩ := EndsWith.of_slots (hmembers ▸ hall) (applyMembers_slots s m)
  rw [hz, Option.map_some, he]

theorem poolMembers_idle {s : State} (h : ¬(poolShape s ≠ 0 ∧ 8 ≤ s.boot.stage ∧ s.pool.st ≠ .standalone)) (m : Nat) :
    exec (.poolMembers m) s = .next s := by
  refine if_pos ?_
  by_contra hc
  simp only [not_or, not_lt] at hc
  exact h ⟨hc.1, hc.2.1, hc.2.2⟩

theorem poolMembers_applies {s : State} (h : poolShape s ≠ 0 ∧ 8 ≤ s.boot.stage ∧ s.pool.st ≠ .standalone) {m : Nat} (hm : m < 2 ^ 64) :
    exec (.poolMembers m) s = .next (applyMembers s m) := by
  obtain ⟨hshape, hstage, hst⟩ := h
  have he : exec (.poolMembers m) s = .next (applyMembers s (m % 2 ^ 64)) := if_neg (by simp [hshape, hst, hstage])
  rw [he, Nat.mod_eq_of_lt hm]

/-! ### The end of the formation (R324, step 5) -/

section
variable {s : State} {t0 : Nat}

theorem formationDeadline_idle (h : s.pool.head = false ∨ s.pool.st ≠ .forming ∨ s.pool.assignedAt = none) :
    exec .poolFormationDeadline s = .next s := by
  show execPoolFormationDeadline s = _
  unfold execPoolFormationDeadline
  rcases h with h | h | h
  · simp [h]
  · have : (s.pool.st == PoolState.forming) = false := by simpa using h
    simp [this]
  · rw [h]
    cases (s.pool.head && s.pool.st == PoolState.forming) <;> rfl

/-- The members that the head has counted. -/
def joinedMembers (s : State) : Nat := maskOf (0 :: s.pool.joined.map (·.device))

theorem formationDeadline_eq (hhead : s.pool.head = true) (hst : s.pool.st = .forming) (hat : s.pool.assignedAt = some t0) :
    exec .poolFormationDeadline s =
      if now s < t0 + 2000000000 then .next s
      else if membersValid s (joinedMembers s) then
        .next (applyMembers ((trainedLinks s).foldl (fun st l => emit st (.pool l 6 [joinedMembers s])) s) (joinedMembers s))
      else
        let s1 := (trainedLinks s).foldl (fun st l => emit st (.pool l 6 [0])) s
        .next (noteS8 { s1 with pool := { s1.pool with st := .waiting } } Code.poolWiring) := by
  show execPoolFormationDeadline s = _
  unfold execPoolFormationDeadline
  simp only [hhead, hst, hat, beq_self_eq_true, Bool.and_self]
  rfl

theorem formationDeadline_early (hhead : s.pool.head = true) (hst : s.pool.st = .forming) (hat : s.pool.assignedAt = some t0)
    (hdue : now s < t0 + 2000000000) : exec .poolFormationDeadline s = .next s := by
  rw [formationDeadline_eq hhead hst hat, if_pos hdue]

theorem formationDeadline_fails (hhead : s.pool.head = true) (hst : s.pool.st = .forming) (hat : s.pool.assignedAt = some t0)
    (hdue : t0 + 2000000000 ≤ now s) (hvalid : membersValid s (joinedMembers s) = false) :
    ∃ t, exec .poolFormationDeadline s = .next t ∧ { t with pool := s.pool, out := s.out } = s ∧
      (∀ l < 36, (getLink s l).st = .up → .pool l 6 [0] ∈ t.out) ∧
      t.pool.st = .waiting ∧ t.pool.s8code = if s.pool.s8code = 0 then Code.poolWiring else s.pool.s8code := by
  obtain ⟨hsame, -, hsaid⟩ := tellTrained (fun l => .pool l 6 [0]) s
  have hpool := congrArg State.pool hsame
  dsimp only at hpool
  rw [formationDeadline_eq hhead hst hat, if_neg (Nat.not_lt.mpr hdue), hvalid, if_neg Bool.false_ne_true]
  dsimp only
  rw [noteS8_eq]
  refine ⟨_, rfl, ?_, hsaid, rfl, ?_⟩
  · have := congrArg (fun u : State => { u with pool := s.pool }) hsame
    exact this
  · rw [hpool]

theorem formationDeadline_forms (hhead : s.pool.head = true) (hst : s.pool.st = .forming) (hat : s.pool.assignedAt = some t0)
    (hdue : t0 + 2000000000 ≤ now s) (hvalid : membersValid s (joinedMembers s) = true) :
    ∃ t, exec .poolFormationDeadline s = .next t ∧ t.pool.members = joinedMembers s ∧
      t.pool.broken = [] ∧ t.pool.st = (if bit (joinedMembers s) s.pool.device then .formed else .waiting) ∧
      ∀ l < 36, (getLink s l).st = .up → .pool l 6 [joinedMembers s] ∈ t.out := by
  obtain ⟨hsame, -, hsaid⟩ := tellTrained (fun l => .pool l 6 [joinedMembers s]) s
  have hpool := congrArg State.pool hsame
  dsimp only at hpool
  rw [formationDeadline_eq hhead hst hat, if_neg (Nat.not_lt.mpr hdue), hvalid, if_pos rfl]
  obtain ⟨hmembers, hbroken, hformed, hout, -⟩ := applyMembers_pool
    ((trainedLinks s).foldl (fun st l => emit st (.pool l 6 [joinedMembers s])) s) (joinedMembers s)
  rw [hpool] at hformed
  exact ⟨_, rfl, hmembers, hbroken, hformed, fun l hl hup => hout.subset (hsaid l hl hup)⟩

end

/-! ### A pair of members is lost (R327, R328) -/

/-- The pool, as far as this device knows, has these two members, and their pair is not broken yet. -/
def BreaksPair (s : State) (a b : Nat) : Prop :=
  inPool s = true ∧ isMember s a = true ∧ isMember s b = true ∧ pairOf a b ∉ s.pool.broken

theorem poolLoss_idle {s : State} {a b : Nat} (h : ¬BreaksPair s a b) : exec (.poolLoss a b) s = .next s := by
  show Host.Outcome.next (breakPool s a b) = _
  unfold breakPool
  rw [if_pos]
  by_contra hc
  simp only [Bool.or_eq_true, Bool.not_eq_true', List.contains_iff_mem, not_or, Bool.not_eq_false] at hc
  exact h ⟨hc.1.1.1, hc.1.1.2, hc.1.2, hc.2⟩

/-- The device when it has noted the broken pair. -/
def notePair (s : State) (a b : Nat) : State :=
  let s1 := { s with pool := { s.pool with broken := s.pool.broken ++ [pairOf a b], st := .broken } }
  let away := absentDevice s1 a || absentDevice s1 b
  setObj (setObj s1 Key.brokenPair ((pairOf a b).1 * 256 + (pairOf a b).2 + (if away then 2 ^ 31 else 0))) Key.brokenTime (stamp s)

/-- The device when it has reported the pair too. -/
def noteBroken (s : State) (a b : Nat) : State :=
  raiseUnit (notePair s a b) Code.poolBroken 2 .link ((pairOf a b).1 * 256 + (pairOf a b).2) []

theorem poolLoss_breaks {s : State} {a b : Nat} (h : BreaksPair s a b) : exec (.poolLoss a b) s =
    .next (endFarCopies (endAllReqs (endTasksWhere (floodPool (noteBroken s a b) 2 [a, b]) (spansPool (noteBroken s a b))) Code.peerLost)
      (fun _ => true)) := by
  obtain ⟨hin, ha, hb, hnew⟩ := h
  show Host.Outcome.next (breakPool s a b) = _
  unfold breakPool
  rw [if_neg (by simp [hin, ha, hb, hnew])]
  rfl

theorem floodPool_spec (s : State) (kind : Nat) (nums : List Nat) : { floodPool s kind nums with out := s.out } = s ∧ s.out <:+ (floodPool s kind nums).out ∧
    ∀ l < 36, linkWorking s l = true → .pool l kind nums ∈ (floodPool s kind nums).out := by
  have hflood : floodPool s kind nums = _ := foldl_emit (fun l => .pool l kind nums) ((List.range 36).filter (linkWorking s)) s
  rw [hflood]
  refine ⟨rfl, List.suffix_append _ _, fun l hl hworks => List.mem_append_left _ (List.mem_reverse.mpr (List.mem_map.mpr ⟨l, ?_, rfl⟩))⟩
  exact List.mem_filter.mpr ⟨List.mem_range.mpr hl, hworks⟩

theorem not_unlogged {k code : Nat} (h : BrokenKey k) (hcode : code < 4096) : Unlogged code k := by
  refine ⟨?_, ?_, ?_, ?_, ?_⟩ <;> (intro e; refine not_brokenKey ?_ (e ▸ h))
  · exact .inr (by decide)
  · exact .inr (by dsimp only [Key.codeCount]; omega)
  · exact .inl (by dsimp only [Key.codeLast]; omega)
  · exact .inl (by decide)
  · exact .inr (by decide)

theorem noteBroken_rest (s : State) (a b : Nat) : (noteBroken s a b).pool = { s.pool with broken := s.pool.broken ++ [pairOf a b], st := .broken } ∧
    (noteBroken s a b).links = s.links ∧ (noteBroken s a b).fountain = s.fountain ∧ (noteBroken s a b).cores = s.cores ∧
    (noteBroken s a b).reservoir = s.reservoir ∧ (noteBroken s a b).port = s.port := by
  obtain ⟨-, -, -, -, -, -, hfountain, hcores, -, hreservoir, -, hlinks, hpool, hport, -⟩ :=
    (logged_raiseUnit (notePair s a b) Code.poolBroken 2 .link ((pairOf a b).1 * 256 + (pairOf a b).2) []).rest
  unfold noteBroken
  rw [hpool, hlinks, hfountain, hcores, hreservoir, hport]
  unfold notePair
  dsimp only
  simp only [setObj_pool, setObj_links, setObj_fountain, setObj_cores, setObj_reservoir, setObj_port, and_self]

theorem noteBroken_objs {s : State} {a b : Nat} (ha : a < 64) (hb : b < 64) :
    getObj (noteBroken s a b) Key.brokenTime = stamp s ∧
    getObj (noteBroken s a b) Key.brokenPair % 2 ^ 31 = min a b * 256 + max a b := by
  have htime : Unlogged Code.poolBroken Key.brokenTime := not_unlogged (.inr rfl) (by decide)
  have hpair : Unlogged Code.poolBroken Key.brokenPair := not_unlogged (.inl rfl) (by decide)
  unfold noteBroken
  rw [getObj_raiseUnit_ne htime, getObj_raiseUnit_ne hpair]
  unfold notePair
  dsimp only
  rw [getObj_setObj_same, getObj_setObj_ne _ _ _ _ (by decide), getObj_setObj_same]
  refine ⟨rfl, ?_⟩
  show (min a b * 256 + max a b + _) % 2 ^ 31 = _
  have hmin : min a b < 64 := lt_of_le_of_lt (min_le_left a b) ha
  have hmax : max a b < 64 := max_lt ha hb
  split <;> omega

/-- An object of a link is none that the break changes. -/
theorem getObj_noteBroken_linkEnable (s : State) (a b : Nat) {l : Nat} (hl : l < 36) :
    getObj (noteBroken s a b) (Key.linkEnable l) = getObj s (Key.linkEnable l) := by
  have hlogged : Unlogged Code.poolBroken (Key.linkEnable l) := by
    unfold Unlogged
    dsimp only [Key.linkEnable, Key.errors, Key.codeCount, Key.codeLast, Key.framesTx, Key.eventsUnsent, Code.poolBroken]
    omega
  have h1 : Key.linkEnable l ≠ Key.brokenTime := by
    dsimp only [Key.linkEnable, Key.brokenTime]
    omega
  have h2 : Key.linkEnable l ≠ Key.brokenPair := by
    dsimp only [Key.linkEnable, Key.brokenPair]
    omega
  unfold noteBroken
  rw [getObj_raiseUnit_ne hlogged]
  unfold notePair
  dsimp only
  rw [getObj_setObj_ne _ _ _ _ h1, getObj_setObj_ne _ _ _ _ h2]
  unfold getObj
  rfl

theorem linkWorking_noteBroken {s : State} (hin : inPool s = true) (a b : Nat) {l : Nat} (hl : l < 36) :
    linkWorking (noteBroken s a b) l = linkWorking s l := by
  obtain ⟨hpool, hlinks, -⟩ := noteBroken_rest s a b
  have hlink : getLink (noteBroken s a b) l = getLink s l := by unfold getLink; rw [hlinks]
  have hin' : inPool (noteBroken s a b) = true := by
    unfold inPool
    rw [hpool]
    rfl
  have hdevice : (noteBroken s a b).pool.device = s.pool.device := by rw [hpool]
  have hmembers : (noteBroken s a b).pool.members = s.pool.members := by rw [hpool]
  have hmember : ∀ d, isMember (noteBroken s a b) d = isMember s d := fun d => by
    unfold isMember
    rw [hin', hin, hdevice, hmembers]
  unfold linkWorking
  rw [hlink, getObj_noteBroken_linkEnable s a b hl]
  simp only [hmember, hdevice]

/-- A pair of members that is lost breaks the pool once; it is flooded and reported. -/
theorem poolLoss_spec {s : State} {a b : Nat} (h : BreaksPair s a b) (ha : a < 64) (hb : b < 64) :
    ∃ t, exec (.poolLoss a b) s = .next t ∧ t.pool.st = .broken ∧ t.pool.broken = s.pool.broken ++ [pairOf a b] ∧
      getObj t Key.brokenTime = stamp s ∧ getObj t Key.brokenPair % 2 ^ 31 = min a b * 256 + max a b ∧
      (∀ l < 36, linkWorking s l = true → .pool l 2 [a, b] ∈ t.out) := by
  obtain ⟨hpool, -⟩ := noteBroken_rest s a b
  obtain ⟨htime, hpair⟩ := noteBroken_objs (s := s) ha hb
  obtain ⟨hsame, -, hsaid⟩ := floodPool_spec (noteBroken s a b) 2 [a, b]
  obtain ⟨f, hf⟩ : ∃ f, floodPool (noteBroken s a b) 2 [a, b] = f := ⟨_, rfl⟩
  rw [hf] at hsame hsaid
  have hfpool : f.pool = (noteBroken s a b).pool := by
    have := congrArg State.pool hsame
    exact this
  have hfobj : ∀ k, getObj f k = getObj (noteBroken s a b) k := fun k => by
    have := congrArg (getObj · k) hsame
    exact this
  have hkept : PoolKept f (endFarCopies (endAllReqs (endTasksWhere f (spansPool (noteBroken s a b))) Code.peerLost) (fun _ => true)) :=
    ((poolKept_endTasksWhere _ _).trans (poolKept_endAllReqs _)).trans (poolKept_endFarCopies _ _)
  obtain ⟨_, _, _, hp⟩ := hkept.pool
  rw [hfpool, hpool] at hp
  refine ⟨_, by rw [poolLoss_breaks h, hf], ?_, ?_, ?_, ?_, fun l hl hworks => hkept.out.subset (hsaid l hl ?_)⟩
  · rw [hp]
  · rw [hp]
  · rw [hkept.objs _ (.inr rfl), hfobj, htime]
  · rw [hkept.objs _ (.inl rfl), hfobj, hpair]
  · rw [linkWorking_noteBroken h.1 a b hl]
    exact hworks

/-- Where nothing spans the pool, a lost pair ends nothing: the break is reported, and the cores and the Reservoir are as before. -/
theorem poolLoss_quiet {s : State} {a b : Nat} (h : BreaksPair s a b) (hspan : ∀ e ∈ liveSlots s, spansPool s e.2 = false)
    (hreqs : s.pool.reqs = []) (hwaiting : s.pool.waiting = []) (hcopies : s.port.copies = []) (hdue : NoPoisonDue s) :
    ∃ t, exec (.poolLoss a b) s = .next t ∧ ReportedUnit t Code.poolBroken 2 (min a b * 256 + max a b) [] ∧
      t.cores = s.cores ∧ t.reservoir = s.reservoir := by
  obtain ⟨hpool, -, hfountain, hcores, hreservoir, hport⟩ := noteBroken_rest s a b
  obtain ⟨hsame, -, -⟩ := floodPool_spec (noteBroken s a b) 2 [a, b]
  obtain ⟨f, hf⟩ : ∃ f, floodPool (noteBroken s a b) 2 [a, b] = f := ⟨_, rfl⟩
  rw [hf] at hsame
  have hffountain : f.fountain = s.fountain := by
    have := congrArg State.fountain hsame
    exact Eq.trans this hfountain
  have hlive : liveSlots f = liveSlots s := by unfold liveSlots; rw [hffountain]
  have hspan' : ∀ e ∈ liveSlots f, spansPool (noteBroken s a b) e.2 = false := fun e he => by
    rw [hlive] at he
    have hs := hspan e he
    unfold spansPool namesPeers at hs ⊢
    rw [hpool]
    exact hs
  have hnone : (liveSlots f).filter (fun e => spansPool (noteBroken s a b) e.2 && (decide (1 ≤ e.2.state ∧ e.2.state ≤ 4) || e.2.state == 7)) = [] := by
    rw [List.filter_eq_nil_iff]
    intro e he
    rw [hspan' e he]
    exact Bool.false_ne_true
  have hdue' : NoPoisonDue f := fun e he h1 h2 => by
    rw [hlive] at he
    have hp := hdue e he h1 h2
    unfold waitsPoisoned getCounter at hp ⊢
    rw [hffountain]
    exact hp
  obtain ⟨m, hm⟩ := evalWaits_slots hdue'
  have hend : endTasksWhere f (spansPool (noteBroken s a b)) = { f with fountain := { f.fountain with slots := m } } := by
    unfold endTasksWhere
    rw [hnone]
    exact hm
  have hfpool : f.pool = { s.pool with broken := s.pool.broken ++ [pairOf a b], st := .broken } := by
    have := congrArg State.pool hsame
    exact Eq.trans this hpool
  have hfport : f.port.copies = [] := by
    have h1 := congrArg (fun u : State => u.port.copies) hsame
    exact Eq.trans h1 (by rw [hport]; exact hcopies)
  have hrequests : endAllReqs { f with fountain := { f.fountain with slots := m } } Code.peerLost =
      { f with fountain := { f.fountain with slots := m }, pool := { f.pool with reqs := [], waiting := [] } } := by
    unfold endAllReqs
    dsimp only
    rw [show f.pool.reqs ++ f.pool.waiting = [] by rw [hfpool]; simp [hreqs, hwaiting]]
    rfl
  have hfar : ∀ u : State, u.port.copies = [] → endFarCopies u (fun _ => true) = u := fun u hu => by
    unfold endFarCopies
    rw [hu]
    rfl
  refine ⟨_, by rw [poolLoss_breaks h, hf, hend, hrequests, hfar { f with
    fountain := { f.fountain with slots := m }, pool := { f.pool with reqs := [], waiting := [] } } hfport], ?_, ?_, ?_⟩
  · have hkeeper : f.keeper = (noteBroken s a b).keeper := by
      have := congrArg State.keeper hsame
      exact this
    have hrep : ReportedUnit (noteBroken s a b) Code.poolBroken 2 (min a b * 256 + max a b) [] := reportedUnit_raiseUnit _ _ _ _ _ _
    unfold ReportedUnit at hrep ⊢
    dsimp only
    rw [hkeeper]
    exact hrep
  · have := congrArg State.cores hsame
    exact Eq.trans this hcores
  · have := congrArg State.reservoir hsame
    exact Eq.trans this hreservoir

/-! ### A link is withdrawn (R330) -/

theorem foldl_keepLower_mem {rank : Nat → Nat} {x : Nat} (ls : List Nat) : ∀ acc : Option Nat, ls.foldl (keepLower rank) acc = some x →
    x ∈ ls ∨ acc = some x := by
  induction ls with
  | nil => exact fun acc h => .inr h
  | cons l ls ih =>
    intro acc h
    rcases ih _ h with hmem | hacc
    · exact .inl (List.mem_cons_of_mem _ hmem)
    · unfold keepLower at hacc
      cases acc with
      | none => exact .inl (Option.some.inj hacc ▸ List.mem_cons_self)
      | some a =>
        dsimp only at hacc
        split at hacc
        · exact .inl (Option.some.inj hacc ▸ List.mem_cons_self)
        · exact .inr hacc

/-- A packet leaves on a link that works. -/
theorem chooseLink_up {s : State} {dst addr vc half l : Nat} {other : Bool} (h : chooseLink s dst addr vc half = some (l, other)) :
    (getLink s l).st = .up := by
  have hcand : ∀ l, isCandidate s dst l = true → (getLink s l).st = .up := fun l hl => by
    unfold isCandidate linkWorking at hl
    simp only [Bool.and_eq_true, decide_eq_true_eq] at hl
    exact hl.1.1.1.1
  unfold chooseLink at h
  dsimp only at h
  have htied : ∀ {best x}, x ∈ ((List.range 36).filter (isCandidate s dst)).filter (fun l => linkScore s vc half l == best) →
      (getLink s x).st = .up := fun hx => hcand _ (List.mem_filter.mp (List.mem_filter.mp hx).1).2
  have hpicked : ∀ {best} {e : Nat × Bool}, ((((List.range 36).filter (isCandidate s dst)).filter (fun l => linkScore s vc half l == best)).foldl
      (keepLower (tieRank s dst half)) none).map (fun l => (l, true)) = some e → (getLink s e.1).st = .up := fun hp => by
    obtain ⟨x, hx, rfl⟩ := Option.map_eq_some_iff.mp hp
    exact htied ((foldl_keepLower_mem _ _ hx).resolve_right (by simp))
  split at h
  · split at h
    · next d hd hcontains =>
      obtain ⟨rfl, -⟩ := Prod.mk.inj (Option.some.inj h)
      exact htied (List.contains_iff_mem.mp hcontains)
    · exact hpicked h
  · exact hpicked h

theorem getLink_sendFlit_ne {l j : Nat} (hj : j ≠ l) (s : State) (p : Packet) : getLink (sendFlit s l p) j = getLink s j := by
  have hlinks : ∃ k, (sendFlit s l p).links = (setLink s l k).links := by
    unfold sendFlit sendWire
    dsimp only
    exact ⟨_, by rw [emit_links, bump_links, bump_links]⟩
  obtain ⟨k, hk⟩ := hlinks
  rw [← getLink_setLink_ne s l j k hj]
  unfold getLink
  rw [hk]

theorem getLink_pumpList_ne {l j : Nat} (hj : j ≠ l) (pss : List (List Packet)) :
    ∀ (s : State) (kept : List (List Packet)), getLink (pumpList l pss s kept).1 j = getLink s j := by
  induction pss with
  | nil => exact fun _ _ => rfl
  | cons ps pss ih =>
    intro s kept
    unfold pumpList
    split
    · exact ih s kept
    · split
      · exact (ih _ kept).trans (foldl_keeps (fun t => getLink t j) _ (fun t q _ => getLink_sendFlit_ne hj t q) s)
      · exact ih s _

theorem getLink_pumpLink_ne {s : State} {l j : Nat} (hj : j ≠ l) : getLink (pumpLink s l) j = getLink s j := by
  have hbare : ∀ t : State, getLink (sendBare t l .null) j = getLink t j := fun t => getLink_setLink_ne t l j _ hj
  have hlist := getLink_pumpList_ne hj (getLink s l).egress s []
  have hset : ∀ k, getLink (setLink (pumpList l (getLink s l).egress s []).1 l k) j = getLink s j := fun k =>
    (getLink_setLink_ne _ _ _ _ hj).trans hlist
  unfold pumpLink
  dsimp only
  split
  · exact (foldl_keeps (fun t => getLink t j) (f := fun st _ => sendBare st l .null) _ (fun t _ _ => hbare t) _).trans (hset _)
  · exact hset _

/-- Sending leaves alone a link that is not UP. -/
theorem getLink_sendPacket_down {s : State} {j : Nat} (h : (getLink s j).st ≠ .up) (half : Nat) (ps : List Packet) :
    getLink (sendPacket s half ps) j = getLink s j := by
  unfold sendPacket
  split
  · rfl
  · split
    · rfl
    · next p _ _ l other hl =>
      have hj : j ≠ l := fun e => h (e ▸ chooseLink_up hl)
      dsimp only
      rw [getLink_pumpLink_ne hj, getLink_setLink_ne _ _ _ _ hj]
      split <;> split <;> rfl

theorem poolWithdraw_idle {s : State} {l : Nat} (h : (getLink s l).st ≠ .up) : exec (.poolWithdraw l) s = .next s := by
  show Host.Outcome.next (if (getLink s l).st = .up then _ else s) = _
  rw [if_neg h]

theorem withdrawLink_up {s : State} {l : Nat} (h : (getLink s l).st = .up) : withdrawLink s l =
    (getLink s l).egress.foldl (fun st ps => sendPacket st (linkHalf l) ps) (setLink s l { getLink s l with st := .withdrawn, egress := [] }) := by
  unfold withdrawLink
  dsimp only
  rw [if_neg (not_not.mpr h)]

/-- A link that is withdrawn keeps what waits for an acknowledgement, and what was never sent on it is routed again. -/
theorem getLink_withdrawLink {s : State} {l : Nat} (h : (getLink s l).st = .up) :
    getLink (withdrawLink s l) l = { getLink s l with st := .withdrawn, egress := [] } := by
  rw [withdrawLink_up h]
  have hfold : ∀ (pss : List (List Packet)) (t : State), (getLink t l).st ≠ .up →
      getLink (pss.foldl (fun st ps => sendPacket st (linkHalf l) ps) t) l = getLink t l := by
    intro pss
    induction pss with
    | nil => exact fun _ _ => rfl
    | cons ps pss ih =>
      intro t ht
      have hone := getLink_sendPacket_down ht (linkHalf l) ps
      rw [List.foldl_cons, ih _ (by rw [hone]; exact ht), hone]
  rw [hfold _ _ (by rw [getLink_setLink_same]; show LinkSt.withdrawn ≠ LinkSt.up; decide), getLink_setLink_same]

theorem withdrawLink_empty {s : State} {l : Nat} (h : (getLink s l).st = .up) (hempty : (getLink s l).egress = []) :
    withdrawLink s l = setLink s l { getLink s l with st := .withdrawn } := by
  rw [withdrawLink_up h, hempty, List.foldl_nil]
  congr 1
  rw [← hempty]

theorem poolWithdraw_spec {s : State} {l : Nat} (h : (getLink s l).st = .up) :
    ∃ t, exec (.poolWithdraw l) s = .next t ∧ (getLink t l).st = .withdrawn ∧
      (getLink t l).unacked = (getLink s l).unacked ∧ (getLink t l).egress = [] ∧
      ((getLink s l).egress = [] → { t with links := s.links, out := s.out } = s ∧ t.out = .pool l 3 [] :: s.out ∧
        ∀ j, j ≠ l → getLink t j = getLink s j) := by
  have hup : (getLink (emit s (.pool l 3 [])) l).st = .up := h
  have hexec : exec (.poolWithdraw l) s = .next (withdrawLink (emit s (.pool l 3 [])) l) := by
    show Host.Outcome.next (if (getLink s l).st = .up then _ else s) = _
    rw [if_pos h]
  refine ⟨_, hexec, ?_, ?_, ?_, fun hempty => ?_⟩
  · rw [getLink_withdrawLink hup]
  · rw [getLink_withdrawLink hup]
    rfl
  · rw [getLink_withdrawLink hup]
  · rw [withdrawLink_empty hup hempty]
    exact ⟨rfl, rfl, fun j hj => getLink_setLink_ne _ _ _ _ hj⟩

/-! ### A member has been through a Cistern-only reset (R331) -/

/-- A task that runs has written to the device `d`, or has ended and may run again. -/
def WroteTo (d : Nat) (sl : Slot) : Prop := d ∈ sl.peersWritten ∧ (sl.state = 3 ∨ sl.state = 4 ∨ sl.state = 7)

theorem exec_poolReset (s : State) (d : Nat) : exec (.poolReset d) s =
    .next (((liveSlots s).filter (fun e => e.2.peersWritten.contains d && (e.2.state == 3 || e.2.state == 4 || e.2.state == 7))).foldl
      (fun st e => verticalAbort st e.1) s) := rfl

theorem wroteTo_iff {d : Nat} {sl : Slot} : (sl.peersWritten.contains d && (sl.state == 3 || sl.state == 4 || sl.state == 7)) = true ↔ WroteTo d sl := by
  unfold WroteTo
  simp [or_assoc]

theorem poolReset_idle {s : State} {d : Nat} (h : ∀ e ∈ liveSlots s, ¬WroteTo d e.2) : exec (.poolReset d) s = .next s := by
  have hnone : (liveSlots s).filter (fun e => e.2.peersWritten.contains d && (e.2.state == 3 || e.2.state == 4 || e.2.state == 7)) = [] := by
    rw [List.filter_eq_nil_iff]
    exact fun e he => fun hw => h e he (wroteTo_iff.mp hw)
  rw [exec_poolReset, hnone]
  rfl

/-- The device is as before but for slots other than `n`, the groups' ends and what has been logged. -/
def AbortsOthers (n : Nat) (s t : State) : Prop :=
  getSlot t n = getSlot s n ∧ t.sluice = s.sluice ∧ t.fountain.uses = s.fountain.uses

theorem raiseTask_others (n m : Nat) (s : State) (r : ErrRec) : AbortsOthers n s (raiseTask s m r) := by
  obtain ⟨-, -, -, -, -, -, hf, -, -, -, hs, -⟩ := (logged_raiseTask s m r).rest
  refine ⟨?_, hs, by rw [hf]⟩
  unfold getSlot
  rw [hf]

/-- The change of one slot, and the end of its groups, leave the Sluice and the counts of use as they are. -/
theorem endGroups_modSlot_rest (t : State) (m : Nat) (f : Slot → Slot) :
    (endGroups (modSlot t m f) m).sluice = t.sluice ∧ (endGroups (modSlot t m f) m).fountain.uses = t.fountain.uses := by
  obtain ⟨_, h⟩ := modSlot_eq t m f
  rw [h]
  exact ⟨rfl, rfl⟩

theorem verticalAbort_others {n m : Nat} (hm : n ≠ m) (s : State) : AbortsOthers n s (verticalAbort s m) := by
  have htrans : ∀ (r : ErrRec) (f : Slot → Slot), AbortsOthers n s (endGroups (modSlot (raiseTask s m r) m f) m) := fun r f => by
    obtain ⟨h1, h2, h3⟩ := raiseTask_others n m s r
    obtain ⟨k2, k3⟩ := endGroups_modSlot_rest (raiseTask s m r) m f
    exact ⟨by rw [getSlot_endGroups, getSlot_modSlot, if_neg hm, h1], k2.trans h2, k3.trans h3⟩
  unfold verticalAbort
  split
  · exact ⟨rfl, rfl, rfl⟩
  · dsimp only
    split
    · exact htrans _ _
    · exact htrans _ _

/-- VERTICAL_ABORT, for a task that may not run again. -/
def verticalEnding : Ending := { code := Code.verticalAbort, replay := none }

/-- Slot `n` holds the task `sl` still, being ended as `e` says; what its eligibility rests on is as it was. -/
def StillHolds (s : State) (n : Nat) (sl : Slot) (t : State) (e : Option Ending) : Prop :=
  t.sluice = s.sluice ∧ t.fountain.uses = s.fountain.uses ∧
    (∃ k, getSlot t n = some { sl with faults := k, ending := e }) ∧ (e = none ∨ e = some verticalEnding)

theorem StillHolds.sameEligible {s t : State} {n : Nat} {sl : Slot} {e : Option Ending} (h : StillHolds s n sl t e) (k : Nat) :
    eligible t n { sl with faults := k, ending := e } = eligible s n sl := by
  obtain ⟨hs, hu, -⟩ := h
  unfold Machine.eligible buffersKept seqTracked extensionLast getSeq
  rw [hs, hu]
  rfl

/-- An abort of a transfer of the task itself ends it; one of another task's leaves it. -/
theorem StillHolds.abort {s t : State} {n : Nat} {sl : Slot} {e : Option Ending} (h : StillHolds s n sl t e) (hel : eligible s n sl = false)
    (m : Nat) : StillHolds s n sl (verticalAbort t m) (if m = n then some verticalEnding else e) := by
  have hsame := h.sameEligible
  obtain ⟨hs, hu, ⟨k, hk⟩, he⟩ := h
  by_cases hm : m = n
  · subst hm
    rw [if_pos rfl]
    have habort : verticalAbort t m = faultTask t m { code := Code.verticalAbort, sev := 2, origin := .fountain } := by
      unfold verticalAbort
      rw [hk]
      dsimp only
      rw [hsame k, hel, if_neg Bool.false_ne_true]
    obtain ⟨-, hs', hu'⟩ := raiseTask_others m m t { code := Code.verticalAbort, sev := 2, origin := .fountain }
    rw [habort]
    obtain ⟨hs'', hu''⟩ : (faultTask t m { code := Code.verticalAbort, sev := 2, origin := .fountain }).sluice = _ ∧ _ :=
      endGroups_modSlot_rest (raiseTask t m { code := Code.verticalAbort, sev := 2, origin := .fountain }) m _
    refine ⟨(hs''.trans hs').trans hs, (hu''.trans hu').trans hu, ⟨k + 1, ?_⟩, .inr rfl⟩
    · rw [getSlot_faultTask, if_pos rfl, hk]
      rcases he with rfl | rfl <;> rfl
  · rw [if_neg hm]
    obtain ⟨h1, h2, h3⟩ := verticalAbort_others (Ne.symm hm) t
    exact ⟨h2.trans hs, h3.trans hu, ⟨k, h1.trans hk⟩, he⟩

theorem foldl_abort {s : State} {n : Nat} {sl : Slot} (hel : eligible s n sl = false) (es : List (Nat × Slot)) :
    ∀ (t : State) (e : Option Ending), StillHolds s n sl t e → ∃ e', StillHolds s n sl (es.foldl (fun st x => verticalAbort st x.1) t) e' ∧
      (e = some verticalEnding ∨ (∃ x ∈ es, x.1 = n) → e' = some verticalEnding) := by
  induction es with
  | nil => exact fun t e h => ⟨e, h, fun hx => hx.resolve_right (by simp)⟩
  | cons x es ih =>
    intro t e h
    obtain ⟨e', h', hend⟩ := ih _ _ (h.abort hel x.1)
    refine ⟨e', h', fun hx => hend ?_⟩
    by_cases hxn : x.1 = n
    · exact .inl (if_pos hxn)
    · rw [if_neg hxn]
      refine hx.imp_right fun ⟨y, hy, hyn⟩ => ⟨y, (List.mem_cons.mp hy).resolve_left (fun he => hxn (he ▸ hyn)), hyn⟩

/-- A task whose write a reset has lost, and that may not run again, ends with VERTICAL_ABORT. -/
theorem poolReset_aborts {s : State} (hw : SlotsWf s) {d n : Nat} {sl : Slot} (hn : getSlot s n = some sl) (hwrote : WroteTo d sl)
    (hending : sl.ending = none) (heligible : eligible s n sl = false) : ∃ t, exec (.poolReset d) s = .next t ∧
      (getSlot t n).map (·.ending) = some (some verticalEnding) := by
  have hmem : (n, sl) ∈ (liveSlots s).filter (fun e => e.2.peersWritten.contains d && (e.2.state == 3 || e.2.state == 4 || e.2.state == 7)) :=
    List.mem_filter.mpr ⟨(mem_liveSlots hw n sl).mpr hn, wroteTo_iff.mpr hwrote⟩
  have hstart : StillHolds s n sl s none := ⟨rfl, rfl, ⟨sl.faults, by rw [hn, ← hending]⟩, .inl rfl⟩
  obtain ⟨e, ⟨-, -, ⟨k, hk⟩, -⟩, hend⟩ := foldl_abort heligible _ s none hstart
  refine ⟨_, exec_poolReset s d, ?_⟩
  rw [hk, Option.map_some, hend (.inr ⟨_, hmem, rfl⟩)]

end Sys2Proof.Machine
end

section
/-! RULES of LINK_ENABLE (R330): its staged write (R374), and the COMMIT that applies it (R376, R377). -/

namespace Sys2Proof.Machine

/-! ### The object -/

/-- The row of LINK_ENABLE. -/
def linkEnableRow : ObjRow := ⟨0x1000, 36, 1, 1, .bool, .rwt, 0, 1, false, 1, "LINK_ENABLE"⟩

theorem objRow_linkEnable : ∀ l < 36, objRow (Key.linkEnable l) = some linkEnableRow := by decide +kernel

theorem key_linkEnable : ∀ l < 36, keyArea (Key.linkEnable l) = 0x58 ∧ keyObj (Key.linkEnable l) = 0x1000 + l ∧ keyElt (Key.linkEnable l) = 1 := by
  decide +kernel

/-! ### A staged write -/

theorem txnCurrent_touchTxn (s : State) (id : Nat) : txnCurrent (touchTxn s) id = txnCurrent s id := rfl

theorem writeOpen_touchTxn (s : State) (r : ObjRow) (k : Nat) : writeOpen (touchTxn s) r k = writeOpen s r k := rfl

/-- A write in the open transaction is staged, the message being the transaction's activity. -/
theorem runWrite_staged {s : State} {w : ObjWrite} {k n : Nat} (h : WriteStaged s w k n) : StagedAs s (runWrite s w) k n := by
  obtain ⟨hk, hv, htxn, hcur, hopen, hup, hwarm, hroom, r, hrow, hwo, hacc, hcode⟩ := h
  have hfull : ¬(1024 ≤ (touchTxn s).keeper.txn.staged.length ∧ (touchTxn s).keeper.txn.staged.all (fun e => e.1 != k) = true) := by
    rintro ⟨hlen, hall⟩
    rcases hroom with hlt | ⟨e, he, hek⟩
    · exact absurd hlen (Nat.not_le.mpr hlt)
    · exact absurd hek (by simpa using List.all_eq_true.mp hall e he)
  have hstage : stageWrite (touchTxn s) w.txn k (.num n) = (0, { touchTxn s with keeper := { (touchTxn s).keeper with
      txn := { (touchTxn s).keeper.txn with staged := mapPut (touchTxn s).keeper.txn.staged k (.num n) } } }) := by
    unfold stageWrite
    dsimp only
    rw [txnCurrent_touchTxn, hcur, if_neg (by decide), if_neg (not_not_intro (show (touchTxn s).keeper.txn.st = .open_ from hopen)), if_neg hfull]
  have hwrite : writeObj (touchTxn s) w.txn w.key w.val = stageWrite (touchTxn s) w.txn k (.num n) := by
    unfold writeObj
    rw [hk, hv, hrow]
    dsimp only
    rw [writeOpen_touchTxn, hwo, if_neg (by decide), if_neg hacc, if_neg (not_not_intro hcode), if_pos htxn]
  have hrun : runWrite s w = (stageWrite (touchTxn s) w.txn k (.num n)).2 := by
    unfold runWrite
    dsimp only
    rw [if_pos hup, if_pos ⟨htxn, hcur⟩, hwrite, hstage]
    unfold takeWarm
    dsimp only [touchTxn]
    rw [hwarm]
  rw [hrun, hstage]
  exact ⟨rfl, rfl, rfl⟩

theorem exec_linkEnable {s : State} {w : ObjWrite} {l : Nat} (hl : l < 36) (hw : w.key = Key.linkEnable l) :
    exec (.linkEnable w) s = .next (runWrite s w) := by
  obtain ⟨harea, hobj, helt⟩ := key_linkEnable l hl
  show Host.Outcome.next (if _ then _ else _) = _
  rw [hw, if_pos (by simp [harea, hobj, helt])]

/-! ### A COMMIT of one write -/

/-- The state in which the checks and the writes of a COMMIT find the device: the transaction has had activity. -/
theorem serve_commit {s : State} {req : CasReq} {c k n : Nat} (h : CommitsOne s req c k n) :
    serve s 0x12 req = match (commitNow (touchTxn s) (.chan c) req.hdr).1 with
      | none => (commitNow (touchTxn s) (.chan c) req.hdr).2
      | some (code, txn, out) => answer (commitNow (touchTxn s) (.chan c) req.hdr).2 (.chan c) req.hdr 0x12 code txn out := by
  obtain ⟨hvia, hgood, hhere, hbody, htxn, hcur, hst, -, hup, hred, -⟩ := h
  have hbusy : txnBusy (touchTxn s) = false := by
    unfold txnBusy
    rcases hst with h | h
    · rw [show (touchTxn s).keeper.txn.st = .open_ from h]; rfl
    · rw [show (touchTxn s).keeper.txn.st = .prepared from h]; rfl
  have hmsg : msgCommit (touchTxn s) (.chan c) req.hdr req.body = commitNow (touchTxn s) (.chan c) req.hdr := by
    unfold msgCommit
    dsimp only
    rw [hbody, if_neg (by simp), if_neg (by rw [txnCurrent_touchTxn, hcur]; decide), hbusy, if_neg (by decide), if_pos (by simp [viaBe]; decide)]
  have hcarry : carryOut (touchTxn s) (.chan c) 0x12 req.hdr req.body = commitNow (touchTxn s) (.chan c) req.hdr := by
    unfold carryOut
    dsimp only
    rw [show reducedResponder (touchTxn s) = false from hred, if_neg (by decide)]
    exact hmsg
  unfold serve
  rw [hup, if_neg (by decide), hvia]
  dsimp only
  rw [hgood, if_pos rfl]
  unfold route
  rw [hhere, if_pos rfl]
  unfold serveHere
  dsimp only
  rw [if_pos ⟨htxn, hcur⟩, hcarry]
  rfl

/-- An answer on a channel changes that channel alone. -/
theorem answer_chan (s : State) (c op code txn : Nat) (h : CasHdr) (body : List Byte) :
    ∃ x, answer s (.chan c) h op code txn body = setChannel s c x ∧ x.state = 2 ∧ x.code = code := ⟨_, rfl, rfl, rfl⟩

theorem endTxn_rest (y : State) (r : Nat) : (endTxn y r).links = y.links ∧ (endTxn y r).out = y.out ∧ (endTxn y r).boot = y.boot := by
  unfold endTxn
  simp only [setObj_links, setObj_out, setObj_boot, and_self]

/-- The end of a transaction, and its answer on a channel, leave the links and what has been told, and all other objects. -/
theorem answer_endTxn_rest (y : State) (c r op txn : Nat) (h : CasHdr) (body : List Byte) :
    (answer (endTxn y r) (.chan c) h op r txn body).links = y.links ∧ (answer (endTxn y r) (.chan c) h op r txn body).out = y.out ∧
      (answer (endTxn y r) (.chan c) h op r txn body).boot = y.boot ∧
      ∀ j, j ≠ Key.lastTxnId → j ≠ Key.lastTxnResult → j ≠ Key.lastTxnTime →
        getObj (answer (endTxn y r) (.chan c) h op r txn body) j = getObj y j := by
  obtain ⟨x, hx, -, -⟩ := answer_chan (endTxn y r) c op r txn h body
  obtain ⟨hlinks, hout, hboot⟩ := endTxn_rest y r
  rw [hx]
  refine ⟨hlinks, hout, hboot, fun j h1 h2 h3 => ?_⟩
  show getObj (setObj (setObj (setObj y Key.lastTxnId y.keeper.txn.id) Key.lastTxnResult r) Key.lastTxnTime (stamp y)) j = _
  rw [getObj_setObj_ne _ _ _ _ h3, getObj_setObj_ne _ _ _ _ h2, getObj_setObj_ne _ _ _ _ h1]

theorem txnEnded_answer {s y : State} (hid : y.keeper.txn.id = s.keeper.txn.id) (hstamp : stamp y = stamp s) (c r op txn : Nat) (h : CasHdr)
    (body : List Byte) : TxnEnded s (answer (endTxn y r) (.chan c) h op r txn body) c r := by
  obtain ⟨x, hx, hstate, hcode⟩ := answer_chan (endTxn y r) c op r txn h body
  have hobj : ∀ j, getObj (setChannel (endTxn y r) c x) j =
      getObj (setObj (setObj (setObj y Key.lastTxnId y.keeper.txn.id) Key.lastTxnResult r) Key.lastTxnTime (stamp y)) j := fun _ => rfl
  have hchan : getChannel (setChannel (endTxn y r) c x) c = x := mapGet_mapSet_same _ _ _ _
  rw [hx]
  refine ⟨rfl, ?_, ?_, ?_, ?_⟩
  · rw [hobj, getObj_setObj_ne _ _ _ _ (by decide), getObj_setObj_ne _ _ _ _ (by decide), getObj_setObj_same, hid]
  · rw [hobj, getObj_setObj_ne _ _ _ _ (by decide), getObj_setObj_same]
  · rw [hobj, getObj_setObj_same, hstamp]
  · rw [hchan]
    exact ⟨hstate, hcode⟩

theorem takeWarm_none {s : State} (h : s.boot.warmWanted = none) : takeWarm s = s := by
  unfold takeWarm
  rw [h]

/-- A COMMIT that is answered at once with the transaction's end. -/
theorem exec_casaroCommit {s y : State} {req : CasReq} {c k n r : Nat} (h : CommitsOne s req c k n)
    (hnow : commitNow (touchTxn s) (.chan c) req.hdr = (reply req.hdr r [], endTxn y r)) (hboot : y.boot = s.boot) :
    exec (.casaroCommit req) s = .next (answer (endTxn y r) (.chan c) req.hdr 0x12 r req.hdr.txn []) := by
  have hserve := serve_commit h
  rw [hnow] at hserve
  obtain ⟨-, -, -, -, -, -, -, -, -, -, hwarm, -⟩ := h
  show Host.Outcome.next (takeWarm (serve s 0x12 req)) = _
  rw [hserve]
  exact congrArg Host.Outcome.next (takeWarm_none (by rw [← hwarm, ← hboot]; rfl))

theorem condFor_linkEnable {s : State} {l : Nat} (hl : l < 36) (staged : Staged) (v : Nat) :
    condFor s staged linkEnableRow (Key.linkEnable l) v = (linkCode s staged l v, s) := by
  obtain ⟨harea, hobj, -⟩ := key_linkEnable l hl
  have hlow : 0x1000 + l ≠ 2 := by omega
  have hhigh : 0x1000 ≤ 0x1000 + l := Nat.le_add_right _ _
  unfold condFor condOf
  dsimp only
  rw [if_neg (fun h => absurd h.1 (by decide)), harea, hobj]
  show (if 0x1000 + l = 2 then _ else if 0x1000 ≤ 0x1000 + l then _ else _) = _
  rw [if_neg hlow, if_pos hhigh, Nat.add_sub_cancel_left]

theorem linkCode_alone (s : State) (l v : Nat) (val : Val) :
    linkCode s [(Key.linkEnable l, val)] l v = if v = 0 ∧ lastLink s l = true then Code.linkLast else 0 := by
  unfold linkCode
  simp

/-- The code that the checks give to a transaction which only writes LINK_ENABLE. -/
theorem checkStaged_linkEnable {s : State} {l v : Nat} (hl : l < 36) (hst : s.keeper.txn.staged = [(Key.linkEnable l, .num v)]) :
    checkStaged s = if v = 0 ∧ lastLink s l = true then ((Code.linkLast, Key.linkEnable l), s) else ((0, 0), s) := by
  unfold checkStaged
  rw [hst]
  unfold firstFailing
  rw [objRow_linkEnable l hl]
  dsimp only [valNat]
  rw [condFor_linkEnable hl, linkCode_alone]
  by_cases h : v = 0 ∧ lastLink s l = true
  · rw [if_pos h, if_pos h]
    rfl
  · rw [if_neg h, if_neg h]
    rfl

theorem applyNum_linkEnable {s : State} {l : Nat} (hl : l < 36) (r : ObjRow) (v : Nat) :
    applyNum s r (Key.linkEnable l) v = (0, applyLinkEnable s l v) := by
  obtain ⟨harea, hobj, -⟩ := key_linkEnable l hl
  have hlow : 0x1000 + l ≠ 2 := by omega
  have hhigh : 0x1000 ≤ 0x1000 + l := Nat.le_add_right _ _
  unfold applyNum
  dsimp only
  rw [harea, hobj]
  show (0, if 0x1000 + l = 2 then _ else if 0x1000 ≤ 0x1000 + l then _ else _) = _
  rw [if_neg hlow, if_pos hhigh, Nat.add_sub_cancel_left]

theorem applyAll_linkEnable {s : State} {l v : Nat} (hl : l < 36) (hlast : ¬(v = 0 ∧ lastLink s l = true)) :
    applyAll [(Key.linkEnable l, .num v)] [(Key.linkEnable l, .num v)] 0 s = (0, applyLinkEnable s l v) := by
  unfold applyAll applyWrite
  rw [objRow_linkEnable l hl]
  dsimp only
  rw [condFor_linkEnable hl, linkCode_alone, if_neg hlast, if_neg (not_not_intro rfl), applyNum_linkEnable hl]
  rfl

theorem CommitsOne.staged {s : State} {req : CasReq} {c k n : Nat} (h : CommitsOne s req c k n) : s.keeper.txn.staged = [(k, .num n)] := by
  obtain ⟨-, -, -, -, -, -, -, hst, -⟩ := h
  exact hst

theorem CommitsOne.pins {s : State} {req : CasReq} {c k n : Nat} (h : CommitsOne s req c k n) : pinsPending s = false := by
  obtain ⟨-, -, -, -, -, -, -, -, -, -, -, hpins⟩ := h
  exact hpins

/-- A COMMIT that would take a pair's last link is refused, and ends the transaction. -/
theorem commit_linkLast {s : State} {req : CasReq} {c l v : Nat} (hl : l < 36) (h : CommitsOne s req c (Key.linkEnable l) v)
    (hlast : v = 0 ∧ lastLink s l = true) : ∃ t, exec (.casaroCommit req) s = .next t ∧ TxnEnded s t c Code.linkLast ∧
      t.links = s.links ∧ getObj t (Key.linkEnable l) = getObj s (Key.linkEnable l) := by
  have hst : (touchTxn s).keeper.txn.staged = [(Key.linkEnable l, .num v)] := h.staged
  have hnow : commitNow (touchTxn s) (.chan c) req.hdr = (reply req.hdr Code.linkLast [], endTxn (touchTxn s) Code.linkLast) := by
    unfold commitNow
    dsimp only
    rw [checkStaged_linkEnable hl hst, if_pos (show v = 0 ∧ lastLink (touchTxn s) l = true from hlast),
      if_pos (show Code.linkLast ≠ 0 by decide)]
  obtain ⟨hlinks, -, -, hobj⟩ := answer_endTxn_rest (touchTxn s) c Code.linkLast 0x12 req.hdr.txn req.hdr []
  refine ⟨_, exec_casaroCommit h hnow rfl, txnEnded_answer (y := touchTxn s) rfl rfl c Code.linkLast 0x12 req.hdr.txn req.hdr [], hlinks, ?_⟩
  obtain ⟨harea, -, -⟩ := key_linkEnable l hl
  exact hobj _ (fun he => absurd (he ▸ harea) (by decide)) (fun he => absurd (he ▸ harea) (by decide)) (fun he => absurd (he ▸ harea) (by decide))

/-- The state with these links, and this that it has told. -/
def relinked (s : State) (links : Sparse Link) (out : List Out) : State := { s with links := links, out := out }

/-- The state with this transaction. -/
def withTxn (s : State) (txn : Txn) : State := { s with keeper := { s.keeper with txn := txn } }

/-- A write of LINK_ENABLE, applied to `s` whatever its transaction, gives these links and this that it has told. -/
def Applies (s : State) (l v : Nat) (links : Sparse Link) (out : List Out) : Prop :=
  ∀ txn, applyLinkEnable (withTxn s txn) l v = relinked (setObj (withTxn s txn) (Key.linkEnable l) v) links out

theorem pinsPending_linkEnable {s : State} {l v : Nat} (hl : l < 36) (links : Sparse Link) (out : List Out) :
    pinsPending (relinked (setObj s (Key.linkEnable l) v) links out) = pinsPending s := by
  obtain ⟨harea, -, -⟩ := key_linkEnable l hl
  have hobj : ∀ j, keyArea j = 0x48 → getObj (relinked (setObj s (Key.linkEnable l) v) links out) j = getObj s j := fun j hj =>
    getObj_setObj_ne s _ j v (fun he => absurd (hj.symm.trans ((congrArg keyArea he).trans harea)) (by decide))
  unfold pinsPending
  simp only [List.any_cons, List.any_nil, hobj (Key.pinWays 0) rfl, hobj (Key.pinWays 1) rfl, hobj (Key.poolPages 0) rfl, hobj (Key.poolPages 1) rfl]
  rfl

theorem commit_applies {s : State} {req : CasReq} {c l v : Nat} {links : Sparse Link} {out : List Out} (hl : l < 36)
    (h : CommitsOne s req c (Key.linkEnable l) v) (hlast : ¬(v = 0 ∧ lastLink s l = true)) (happly : Applies s l v links out) :
    ∃ t, exec (.casaroCommit req) s = .next t ∧ TxnEnded s t c 0 ∧ getObj t (Key.linkEnable l) = v ∧ t.links = links ∧ t.out = out := by
  have hst : (touchTxn s).keeper.txn.staged = [(Key.linkEnable l, .num v)] := h.staged
  have hpins : pinsPending s = false := h.pins
  obtain ⟨harea, -, -⟩ := key_linkEnable l hl
  obtain ⟨txn, htxn⟩ : ∃ txn : Txn, { (touchTxn s).keeper.txn with
      st := .applying, timed := false, reply := some (.chan c, req.hdr), instant := 0 } = txn := ⟨_, rfl⟩
  have hid : txn.id = s.keeper.txn.id ∧ txn.timed = false := by
    rw [← htxn]
    exact ⟨rfl, rfl⟩
  obtain ⟨y, hy⟩ : ∃ y : State, relinked (setObj (withTxn s txn) (Key.linkEnable l) v) links out = y := ⟨_, rfl⟩
  have hy' : y.keeper.txn = txn ∧ stamp y = stamp s ∧ y.boot = s.boot ∧ y.links = links ∧ y.out = out ∧ getObj y (Key.linkEnable l) = v ∧
      pinsPending y = false := by
    rw [← hy]
    exact ⟨rfl, rfl, rfl, rfl, rfl, getObj_setObj_same _ _ _, (pinsPending_linkEnable hl links out).trans hpins⟩
  obtain ⟨hytxn, hstamp, hboot, hlinks, hout, hobj, hyp⟩ := hy'
  have hbegin : beginApply (touchTxn s) false (some (.chan c, req.hdr)) = withTxn y { txn with result := 0, holds := false } := by
    have hall : applyAll [(Key.linkEnable l, .num v)] [(Key.linkEnable l, .num v)] 0 (withTxn s txn) = (0, y) := by
      rw [applyAll_linkEnable hl (show ¬(v = 0 ∧ lastLink (withTxn s txn) l = true) from hlast), happly, hy]
    have hstart : ∀ a : Applied, a = applyAll (touchTxn s).keeper.txn.staged (touchTxn s).keeper.txn.staged 0 (withTxn s txn) →
        beginApply (touchTxn s) false (some (.chan c, req.hdr)) =
          withTxn a.2 { a.2.keeper.txn with result := a.1, holds := pinsPending a.2 } := by
      rintro a rfl
      rw [← htxn]
      rfl
    rw [hstart (0, y) (by rw [hst, hall]), hytxn, hyp]
  have hnow : commitNow (touchTxn s) (.chan c) req.hdr = (reply req.hdr 0 [], endTxn (withTxn y { txn with result := 0, holds := false }) 0) := by
    unfold commitNow
    dsimp only
    rw [checkStaged_linkEnable hl hst, if_neg (show ¬(v = 0 ∧ lastLink (touchTxn s) l = true) from hlast), if_neg (not_not_intro rfl), hbegin,
      if_neg (by rw [show pinsPending (withTxn y { txn with result := 0, holds := false }) = false from hyp]; decide)]
    unfold finishTxn
    dsimp only [withTxn]
    rw [if_neg (fun h => h.2 rfl)]
  obtain ⟨z, hz⟩ : ∃ z : State, withTxn y { txn with result := 0, holds := false } = z := ⟨_, rfl⟩
  have hz' : z.links = y.links ∧ z.out = y.out ∧ z.boot = y.boot ∧ z.keeper.txn.id = s.keeper.txn.id ∧ stamp z = stamp y ∧
      ∀ j, getObj z j = getObj y j := by
    rw [← hz]
    exact ⟨rfl, rfl, rfl, hid.1, rfl, fun _ => rfl⟩
  obtain ⟨hzl, hzo, hzb, hzid, hzs, hzobj⟩ := hz'
  rw [hz] at hnow
  obtain ⟨hlinks', hout', -, hobj'⟩ := answer_endTxn_rest z c 0 0x12 req.hdr.txn req.hdr []
  refine ⟨_, exec_casaroCommit h hnow (hzb.trans hboot), txnEnded_answer hzid (hzs.trans hstamp) c 0 0x12 req.hdr.txn req.hdr [], ?_,
    hlinks'.trans (hzl.trans hlinks), hout'.trans (hzo.trans hout)⟩
  rw [hobj' _ (fun he => absurd (he ▸ harea) (by decide)) (fun he => absurd (he ▸ harea) (by decide)) (fun he => absurd (he ▸ harea) (by decide)),
    hzobj, hobj]

theorem applies_withdraws {s : State} {l : Nat} (hup : (getLink s l).st = .up) (hempty : (getLink s l).egress = []) :
    Applies s l 0 (setLink s l { getLink s l with st := .withdrawn }).links (.pool l 3 [] :: s.out) := by
  intro txn
  unfold applyLinkEnable
  dsimp only
  rw [if_pos rfl, if_pos (show (getLink (withTxn s txn) l).st = .up from hup),
    withdrawLink_empty (s := emit (setObj (withTxn s txn) (Key.linkEnable l) 0) (.pool l 3 [])) hup hempty]
  rfl

theorem applies_retrains {s : State} {l : Nat} (hst : (getLink s l).st = .withdrawn) :
    Applies s l 1 (setLink s l { getLink s l with st := .training, attempts := 0 }).links s.out := by
  intro txn
  unfold applyLinkEnable
  dsimp only
  rw [if_neg (by decide), if_pos (show (getLink (withTxn s txn) l).st = .withdrawn from hst)]
  rfl

theorem applies_shows {s : State} {l v : Nat} (hst : (v = 0 ∧ (getLink s l).st ≠ .up) ∨ (v = 1 ∧ (getLink s l).st ≠ .withdrawn)) :
    Applies s l v s.links s.out := by
  intro txn
  unfold applyLinkEnable
  dsimp only
  rcases hst with ⟨rfl, hst⟩ | ⟨rfl, hst⟩
  · rw [if_pos rfl, if_neg (show ¬(getLink (withTxn s txn) l).st = .up from hst)]
    rfl
  · rw [if_neg (by decide), if_neg (show ¬(getLink (withTxn s txn) l).st = .withdrawn from hst)]
    rfl

theorem onlyLink_of_links {s t : State} {l : Nat} {k : Link} (h : t.links = (setLink s l k).links) : OnlyLink s t l k := by
  intro j
  have hget : getLink t j = getLink (setLink s l k) j := by
    unfold getLink
    rw [h]
  rw [hget]
  split
  next hj => rw [hj, getLink_setLink_same]
  next hj => exact getLink_setLink_ne _ _ _ _ hj

end Sys2Proof.Machine
end

section
/-! O43: the life of the pool, one lemma for each row's part of the statement. -/

namespace Sys2Proof.Machine

theorem poolMembers_spec {s : State} (h : poolShape s ≠ 0 ∧ 8 ≤ s.boot.stage ∧ s.pool.st ≠ .standalone) {m : Nat} (hm : m < 2 ^ 64) :
    ∃ t, exec (.poolMembers m) s = .next t ∧ t.pool.members = m ∧ t.pool.broken = [] ∧
      t.pool.st = (if bit m s.pool.device then .formed else .waiting) ∧
      (bit m s.pool.device = true → t.flash.formation = some ⟨s.pool.device, s.pool.x, s.pool.y, s.pool.z⟩) ∧
      (∀ n sl, SlotsWf s → (bit m s.pool.device = true ∨ bit s.pool.members s.pool.device = true) → getSlot s n = some sl → sl.state = 3 →
        (getSlot t n).map (·.ending) = some (some (sl.ending.getD { code := Code.peerLost, replay := none }))) := by
  obtain ⟨hmem, hbroken, hst, -, hform⟩ := applyMembers_pool s m
  exact ⟨_, poolMembers_applies h hm, hmem, hbroken, hst, hform, fun n sl hw hnamed hn h3 =>
    applyMembers_ends hw hnamed hn h3⟩

/-- What a loss does, in a pool with work across it and in one without, is one step. -/
theorem poolLoss_breaks_spec {s : State} {a b : Nat} (h : BreaksPair s a b) (ha : a < 64) (hb : b < 64) :
    ∃ t, exec (.poolLoss a b) s = .next t ∧ t.pool.st = .broken ∧ t.pool.broken = s.pool.broken ++ [pairOf a b] ∧
      getObj t Key.brokenTime = stamp s ∧ getObj t Key.brokenPair % 2 ^ 31 = min a b * 256 + max a b ∧
      (∀ l < 36, linkWorking s l = true → .pool l 2 [a, b] ∈ t.out) ∧
      ((∀ e ∈ liveSlots s, spansPool s e.2 = false) → s.pool.reqs = [] → s.pool.waiting = [] → s.port.copies = [] → NoPoisonDue s →
        ReportedUnit t Code.poolBroken 2 (min a b * 256 + max a b) [] ∧ t.cores = s.cores ∧ t.reservoir = s.reservoir) := by
  obtain ⟨t, ht, hst, hbroken, htime, hpair, htold⟩ := poolLoss_spec h ha hb
  refine ⟨t, ht, hst, hbroken, htime, hpair, htold, fun hspan hreqs hwaiting hcopies hdue => ?_⟩
  obtain ⟨u, hu, hquiet⟩ := poolLoss_quiet h hspan hreqs hwaiting hcopies hdue
  obtain rfl : t = u := by
    rw [ht] at hu
    injection hu
  exact hquiet

theorem poolStateQuery_all (s : State) (answers : List (Nat × Nat)) : let exists_ := ∃ a ∈ answers, 2 ≤ a.2 ∧ a.2 ≤ 4
    let asked (t : State) : Prop := { t with pool := s.pool, out := s.out } = s ∧ ∀ l < 36, (getLink s l).st = .up → .pool l 5 [] ∈ t.out
    (¬asksPool s → exec (.poolStateQuery answers) s = .next s) ∧
    (asksPool s → exists_ → ∃ t, exec (.poolStateQuery answers) s = .next t ∧ t.pool.st = .waiting ∧ asked t ∧
      (∀ f, s.flash.formation = some f → t.pool.device = f.device ∧ t.pool.x = f.x ∧ t.pool.y = f.y ∧ t.pool.z = f.z) ∧
      (s.flash.formation = none → t.pool = { s.pool with st := .waiting })) ∧
    (asksPool s → ¬exists_ → s.port.up = true → ∃ t, exec (.poolStateQuery answers) s = .next t ∧ t.pool.head = true ∧ t.pool.st = .forming ∧
      t.pool.device = 0 ∧ t.pool.x = 0 ∧ t.pool.y = 0 ∧ t.pool.z = 0 ∧ t.pool.assignedAt = some (now s)) ∧
    (asksPool s → ¬exists_ → s.port.up = false → ∃ t, exec (.poolStateQuery answers) s = .next t ∧ asked t ∧
      t.pool = { s.pool with st := .forming }) :=
  ⟨fun h => poolStateQuery_idle h answers, fun h => poolStateQuery_waits h, fun h => poolStateQuery_heads h, fun h => poolStateQuery_forms h⟩

/-- A write of LINK_ENABLE that takes effect shows its value, and withdraws a link that is up or trains one that is withdrawn (R330). -/
theorem casaroCommit_linkEnable {s : State} {req : CasReq} {c l v : Nat} (hl : l < 36) (h : CommitsOne s req c (Key.linkEnable l) v) :
    (v = 0 → lastLink s l = true → ∃ t, exec (.casaroCommit req) s = .next t ∧ TxnEnded s t c Code.linkLast ∧ t.links = s.links ∧
      getObj t (Key.linkEnable l) = getObj s (Key.linkEnable l)) ∧
    (v = 0 → lastLink s l = false → (getLink s l).st = .up → (getLink s l).egress = [] → ∃ t, exec (.casaroCommit req) s = .next t ∧
      TxnEnded s t c 0 ∧ getObj t (Key.linkEnable l) = 0 ∧ OnlyLink s t l { getLink s l with st := .withdrawn } ∧ t.out = .pool l 3 [] :: s.out) ∧
    (v = 1 → (getLink s l).st = .withdrawn → ∃ t, exec (.casaroCommit req) s = .next t ∧ TxnEnded s t c 0 ∧ getObj t (Key.linkEnable l) = 1 ∧
      OnlyLink s t l { getLink s l with st := .training, attempts := 0 } ∧ t.out = s.out) ∧
    (((v = 0 ∧ lastLink s l = false ∧ (getLink s l).st ≠ .up) ∨ (v = 1 ∧ (getLink s l).st ≠ .withdrawn)) →
      ∃ t, exec (.casaroCommit req) s = .next t ∧ TxnEnded s t c 0 ∧ getObj t (Key.linkEnable l) = v ∧ t.links = s.links ∧ t.out = s.out) := by
  refine ⟨fun hv hlast => commit_linkLast hl h ⟨hv, hlast⟩, ?_, ?_, ?_⟩
  · rintro rfl hlast hup hempty
    obtain ⟨t, ht, hend, hobj, hlinks, hout⟩ := commit_applies hl h (by rw [hlast]; simp) (applies_withdraws hup hempty)
    exact ⟨t, ht, hend, hobj, onlyLink_of_links hlinks, hout⟩
  · rintro rfl hst
    obtain ⟨t, ht, hend, hobj, hlinks, hout⟩ := commit_applies hl h (by simp) (applies_retrains hst)
    exact ⟨t, ht, hend, hobj, onlyLink_of_links hlinks, hout⟩
  · intro hcase
    refine commit_applies hl h ?_ (applies_shows (hcase.imp_left fun h => ⟨h.1, h.2.2⟩))
    rintro ⟨rfl, hlast⟩
    rcases hcase with ⟨-, hnot, -⟩ | ⟨hv, -⟩
    · rw [hlast] at hnot
      cases hnot
    · cases hv

/-- Settles O43: each row is its own lemma; the ends of tasks follow through the restarts of the work that waited, and a COMMIT of
LINK_ENABLE is traced through the checks and the end of its transaction. -/
theorem poolLife : Obligations.PoolLife := by
  unfold Obligations.PoolLife
  refine ⟨poolStateQuery_all, ?_, ?_, ?_, ?_, ?_, ?_, ?_, ?_, ?_⟩
  · exact fun s l x y z _ => ⟨fun h => poolAssign_idle h x y z, fun hst hup hhead => poolAssign_twoHeads hst hup hhead x y z,
      fun hst hup hhead hgot => poolAssign_learns hst hup hhead hgot x y z⟩
  · intro s d tier shape kv fv
    refine ⟨fun h1 h2 => poolJoin_idle tier shape kv fv h1 h2, fun h => poolJoin_back tier shape kv fv h, fun h ho => poolJoin_refused tier shape kv fv h ho, ?_⟩
    rintro h rfl rfl
    exact poolJoin_same kv fv h
  · exact fun s t0 => ⟨fun h => formationDeadline_idle h, fun hhead hst hat => ⟨formationDeadline_early hhead hst hat,
      formationDeadline_fails hhead hst hat, formationDeadline_forms hhead hst hat⟩⟩
  · exact fun s m => ⟨fun h => poolMembers_idle h m, fun h hm => poolMembers_spec h hm⟩
  · exact fun s a b => ⟨fun h => poolLoss_idle h, fun h ha hb => poolLoss_breaks_spec h ha hb⟩
  · exact fun s l _ => ⟨fun h => poolWithdraw_idle h, fun h => poolWithdraw_spec h⟩
  · exact fun s d => ⟨fun h => poolReset_idle h, fun hw n sl hn hwrote hend hel => poolReset_aborts hw hn hwrote hend hel⟩
  · intro s w l v hl hstaged
    exact ⟨_, exec_linkEnable hl hstaged.1, runWrite_staged hstaged⟩
  · exact fun s req c l v hl h => casaroCommit_linkEnable hl h

end Sys2Proof.Machine
end

section
/-! RULES of the state that memory instructions share: what they leave alone, and what writes of bytes leave behind. -/

namespace Sys2Proof.Machine

/-! ### What a memory instruction leaves alone (R95, R98) -/

theorem GroupKept.trans {a b c : Option Group} (h : GroupKept a b) (k : GroupKept b c) : GroupKept a c := by
  unfold GroupKept at *
  rcases h with rfl | rfl
  · exact k
  · rcases k with rfl | rfl
    · exact .inr rfl
    · exact .inr (by rw [Option.map_map]; rfl)

theorem GroupKept.unmarked {a b : Option Group} (h : GroupKept a b) : GroupKept (a.map Group.unmarked) (b.map Group.unmarked) := by
  unfold GroupKept at *
  rcases h with rfl | rfl
  · exact .inl rfl
  · exact .inr (by rw [Option.map_map, Option.map_map]; rfl)

theorem MemFrame.refl (s : State) (p g : Nat) : MemFrame s s p g :=
  { time := rfl, boot := rfl, flash := rfl, power := rfl, reservoir := rfl, sluice := rfl, port := rfl, window := rfl, counters := rfl,
    intake := rfl, slices := fun _ => rfl, positions := fun _ _ => rfl, arrays := rfl, groups := fun _ _ _ => .inl rfl }

theorem MemFrame.trans {s t u : State} {p g : Nat} (a : MemFrame s t p g) (b : MemFrame t u p g) : MemFrame s u p g :=
  { time := b.time.trans a.time, boot := b.boot.trans a.boot, flash := b.flash.trans a.flash, power := b.power.trans a.power,
    reservoir := b.reservoir.trans a.reservoir, sluice := b.sluice.trans a.sluice, port := b.port.trans a.port, window := b.window.trans a.window,
    counters := b.counters.trans a.counters, intake := b.intake.trans a.intake, slices := fun k => (b.slices k).trans (a.slices k),
    positions := fun q hq => (b.positions q hq).trans (a.positions q hq), arrays := b.arrays.trans a.arrays,
    groups := fun q h hn => (a.groups q h hn).trans (b.groups q h hn) }

theorem unlogged_congr {c d : Pos} (h : c.arrays = d.arrays) : unlogged c = unlogged d := by
  unfold unlogged
  rw [h]

/-- What leaves the memories alone leaves alone what a memory instruction does. -/
theorem CoreFrame.memFrame {s t : State} {p g n : Nat} (h : CoreFrame s t p g n) : MemFrame s t p g := by
  have harrays : (getPos t p).arrays = (getPos s p).arrays := (congrArg Pos.arrays (h.position p) : _)
  exact
    { time := h.time, boot := h.boot, flash := h.flash, power := h.power, reservoir := h.reservoir, sluice := h.sluice, port := h.port,
      window := by rw [h.cistern],
      counters := (congrArg Fountain.counters h.fountain : _),
      intake := (congrArg Fountain.intake h.fountain : _),
      slices := fun k => by unfold getSlice; rw [h.cistern],
      positions := fun q _ => h.position q, arrays := unlogged_congr harrays, groups := fun q k hn => (h.groups q k hn).unmarked }

theorem memFrame_setGroup (s : State) (p g : Nat) (x : Option Group) : MemFrame s (setGroup s p g x) p g := (setGroup_frame s p g 0 x).memFrame

theorem memFrame_free (s : State) (n p g : Nat) : MemFrame s { s with free := n } p g :=
  { time := rfl, boot := rfl, flash := rfl, power := rfl, reservoir := rfl, sluice := rfl, port := rfl, window := rfl, counters := rfl,
    intake := rfl, slices := fun _ => rfl, positions := fun _ _ => rfl, arrays := rfl, groups := fun _ _ _ => .inl rfl }

/-- A position's own change: its groups are as they were but for the sectors kept from the read-only cache, its arrays but for the
writes noted with what runs. -/
theorem memFrame_setPos {s : State} {p g : Nat} {c : Pos}
    (hgroups : ∀ h, (mapGet none c.groups h).map Group.unmarked = (getGroup s p h).map Group.unmarked)
    (harrays : unlogged c = unlogged (getPos s p)) : MemFrame s (setPos s p c) p g :=
  { time := rfl, boot := rfl, flash := rfl, power := rfl, reservoir := rfl, sluice := rfl, port := rfl, window := rfl, counters := rfl,
    intake := rfl, slices := fun _ => rfl,
    positions := fun q hq => by rw [getPos_setPos_ne _ _ _ _ hq],
    arrays := by rw [getPos_setPos_same, harrays],
    groups := fun q h _ => by
      by_cases hq : q = p
      · subst hq
        refine .inl ?_
        unfold getGroup
        rw [getPos_setPos_same]
        exact hgroups h
      · refine .inl ?_
        unfold getGroup
        rw [getPos_setPos_ne _ _ _ _ hq] }

/-! ### Sending for a memory instruction -/

/-- The step sends: no core changes, nor anything that a memory instruction leaves alone. -/
def Sends (s t : State) : Prop := t.cores = s.cores ∧ ∀ p g, MemFrame s t p g

theorem Sends.refl (s : State) : Sends s s := ⟨rfl, MemFrame.refl s⟩

theorem Sends.trans {s t u : State} (a : Sends s t) (b : Sends t u) : Sends s u :=
  ⟨b.1.trans a.1, fun p g => (a.2 p g).trans (b.2 p g)⟩

theorem getPos_of_cores {s t : State} (h : t.cores = s.cores) (p : Nat) : getPos t p = getPos s p := by
  unfold getPos
  rw [h]

theorem getGroup_of_cores {s t : State} (h : t.cores = s.cores) (p g : Nat) : getGroup t p g = getGroup s p g := by
  unfold getGroup
  rw [getPos_of_cores h]

theorem sends_sendReq (s : State) (r : Req) : Sends s (sendReq s r) := by
  have hrest := sendReq_rest s r
  have hcores := sendReq_cores s r
  obtain ⟨hslices, hwin⟩ := sendReq_slices s r
  refine ⟨hcores, fun p g => ?_⟩
  exact
    { time := (congrArg State.time hrest : _), boot := (congrArg State.boot hrest : _), flash := (congrArg State.flash hrest : _),
      power := (congrArg State.power hrest : _), reservoir := (congrArg State.reservoir hrest : _), sluice := (congrArg State.sluice hrest : _),
      port := (congrArg State.port hrest : _), window := hwin,
      counters := (congrArg (fun u : State => u.fountain.counters) hrest : _),
      intake := (congrArg (fun u : State => u.fountain.intake) hrest : _),
      slices := hslices, positions := fun q _ => by rw [getPos_of_cores hcores], arrays := by rw [getPos_of_cores hcores],
      groups := fun q h _ => .inl (by rw [getGroup_of_cores hcores]) }

theorem PeersOnly.sends {s t : State} (h : PeersOnly s t) : Sends s t := by
  obtain ⟨_, _, _, _, rfl⟩ := h
  exact ⟨rfl, fun p g =>
    { time := rfl, boot := rfl, flash := rfl, power := rfl, reservoir := rfl, sluice := rfl, port := rfl, window := rfl, counters := rfl,
      intake := rfl, slices := fun _ => rfl, positions := fun _ _ => rfl, arrays := rfl, groups := fun _ _ _ => .inl rfl }⟩

/-- Requests to the slices, and then to the peers if there are any. -/
theorem sends_all {α : Type} (s : State) (ks : List α) (req : State → α → Req) (reqs : List PeerReq) :
    Sends s (if reqs.isEmpty then ks.foldl (fun st k => sendReq st (req st k)) s
      else peerRequests (ks.foldl (fun st k => sendReq st (req st k)) s) reqs) := by
  have hslices : Sends s (ks.foldl (fun st k => sendReq st (req st k)) s) :=
    foldl_rel .refl .trans ks (fun t k _ => sends_sendReq t (req t k)) s
  split
  · exact hslices
  · exact hslices.trans (peersOnly_peerRequests _ reqs).sends

theorem sends_askFar (s : State) (p g : Nat) (gr : Group) (id cls : Nat) (far : List Nat) : Sends s (askFar s p g gr id cls far) := by
  unfold askFar
  exact sends_all s _ (fun _ k => { origin := .core p g id, cls := cls, sector := k, wtag := taskTag s gr.slot, op := .read }) _

/-! ### A group's list of memory instructions -/

/-- The list with `m` in place of what has its identity. -/
def replaceMem (ms : List MemOp) (m : MemOp) : List MemOp := ms.map (fun x => if x.id = m.id then m else x)

theorem mem_replaceMem {ms : List MemOp} {m x : MemOp} (hx : x ∈ ms) (hid : x.id = m.id) : m ∈ replaceMem ms m :=
  List.mem_map.mpr ⟨x, hx, if_pos hid⟩

theorem find_replaceMem {ms : List MemOp} {m x : MemOp} (hx : x ∈ ms) (hid : x.id = m.id) :
    (replaceMem ms m).find? (fun y => y.id == m.id) = some m := by
  obtain ⟨y, hy⟩ : ∃ y, (replaceMem ms m).find? (fun y => y.id == m.id) = some y := by
    refine Option.isSome_iff_exists.mp (List.find?_isSome.mpr ⟨m, mem_replaceMem hx hid, beq_self_eq_true m.id⟩)
  have hyid : y.id = m.id := by simpa using List.find?_some hy
  obtain ⟨z, -, hz⟩ := List.mem_map.mp (List.mem_of_find?_eq_some hy)
  rw [hy, ← hz]
  split
  next => rfl
  next hne =>
    rw [if_neg hne] at hz
    exact absurd (hz ▸ hyid) hne

/-- An instruction of another identity is on the list as before. -/
theorem mem_map_unmarked_replaceMem (ms : List MemOp) (m : MemOp) {x : MemOp} (hx : x.id ≠ m.id) :
    x ∈ (replaceMem ms m).map MemOp.unmarked ↔ x ∈ ms.map MemOp.unmarked := by
  unfold replaceMem
  rw [List.map_map, List.mem_map, List.mem_map]
  constructor
  · rintro ⟨y, hy, rfl⟩
    by_cases hid : y.id = m.id
    · exact absurd (by simp only [Function.comp_apply, if_pos hid]; rfl) hx
    · exact ⟨y, hy, by simp only [Function.comp_apply, if_neg hid]⟩
  · rintro ⟨y, hy, rfl⟩
    have hid : y.id ≠ m.id := hx
    exact ⟨y, hy, by simp only [Function.comp_apply, if_neg hid]⟩

theorem putMem_eq {s : State} {p g : Nat} {gr : Group} (h : getGroup s p g = some gr) (m : MemOp) :
    putMem s p g m = setGroup s p g (some { gr with mem := replaceMem gr.mem m }) := by
  unfold putMem
  rw [h]
  rfl

theorem memFrame_putMem (s : State) (p g : Nat) (m : MemOp) : MemFrame s (putMem s p g m) p g := by
  unfold putMem
  split
  · exact .refl s p g
  · exact memFrame_setGroup s p g _

/-! ### Writes of bytes, one after another -/

/-- The table after these writes, in order. -/
def putAll (t : Sparse Byte) (ws : List (Nat × List Byte)) : Sparse Byte := ws.foldl (fun t w => mapSetList 0#8 t w.1 w.2) t

/-- The write covers the place. -/
def Covers (w : Nat × List Byte) (j : Nat) : Prop := w.1 ≤ j ∧ j < w.1 + w.2.length

theorem putAll_append (t : Sparse Byte) (ws : List (Nat × List Byte)) (w : Nat × List Byte) :
    putAll t (ws ++ [w]) = mapSetList 0#8 (putAll t ws) w.1 w.2 := List.foldl_concat _ _ _ _

theorem mapGet_putAll_out (t : Sparse Byte) (ws : List (Nat × List Byte)) {j : Nat} (h : ∀ w ∈ ws, ¬Covers w j) :
    mapGet 0#8 (putAll t ws) j = mapGet 0#8 t j := by
  induction ws using List.reverseRecOn with
  | nil => rfl
  | append_singleton ws w ih =>
    have hw : ¬Covers w j := h w (List.mem_append_right _ (List.mem_singleton_self w))
    rw [putAll_append, mapGet_mapSetList_out _ _ _ _ _ (by unfold Covers at hw; omega), ih (fun x hx => h x (List.mem_append_left _ hx))]

/-- A place that some write covers reads as a covering write put it. -/
theorem mapGet_putAll_in (t : Sparse Byte) (ws : List (Nat × List Byte)) {j : Nat} (h : ∃ w ∈ ws, Covers w j) :
    ∃ w ∈ ws, Covers w j ∧ mapGet 0#8 (putAll t ws) j = w.2.getD (j - w.1) 0#8 := by
  induction ws using List.reverseRecOn with
  | nil => simp at h
  | append_singleton ws w ih =>
    rw [putAll_append]
    by_cases hw : Covers w j
    · refine ⟨w, List.mem_append_right _ (List.mem_singleton_self w), hw, ?_⟩
      obtain ⟨hle, hlt⟩ := hw
      obtain ⟨i, rfl⟩ := Nat.exists_eq_add_of_le hle
      have hi : i < w.2.length := by omega
      rw [mapGet_mapSetList_in _ _ _ _ _ hi, Nat.add_sub_cancel_left, List.getD_eq_getElem _ _ hi]
    · obtain ⟨x, hx, hcov⟩ := h
      have hxs : x ∈ ws := (List.mem_append.mp hx).resolve_right (fun he => hw (List.mem_singleton.mp he ▸ hcov))
      obtain ⟨y, hy, hyj, hval⟩ := ih ⟨x, hxs, hcov⟩
      refine ⟨y, List.mem_append_left _ hy, hyj, ?_⟩
      rw [mapGet_mapSetList_out _ _ _ _ _ (by unfold Covers at hw; omega), hval]

/-- Two blocks of one size, each at a multiple of it, that cover one place are the same block. -/
theorem aligned_eq {a b n j : Nat} (ha : a % n = 0) (hb : b % n = 0) (haj : a ≤ j ∧ j < a + n) (hbj : b ≤ j ∧ j < b + n) : a = b := by
  obtain ⟨x, rfl⟩ := Nat.dvd_of_mod_eq_zero ha
  obtain ⟨y, rfl⟩ := Nat.dvd_of_mod_eq_zero hb
  have hx : j / n = x := Nat.div_eq_of_lt_le (by rw [Nat.mul_comm]; exact haj.1) (by rw [Nat.add_mul, Nat.one_mul, Nat.mul_comm]; exact haj.2)
  have hy : j / n = y := Nat.div_eq_of_lt_le (by rw [Nat.mul_comm]; exact hbj.1) (by rw [Nat.add_mul, Nat.one_mul, Nat.mul_comm]; exact hbj.2)
  rw [← hx, ← hy]

/-- Writes that are aligned blocks of one size, one at each address: each block's bytes are found there, and 0 past a short one. -/
theorem mapGet_putAll_aligned {ws : List (Nat × List Byte)} {n : Nat} (halign : ∀ w ∈ ws, w.1 % n = 0 ∧ w.2.length ≤ n)
    (hone : ∀ w ∈ ws, ∀ x ∈ ws, w.1 = x.1 → w.2 = x.2) {w : Nat × List Byte} (hw : w ∈ ws) {i : Nat} (hi : i < n) :
    mapGet 0#8 (putAll [] ws) (w.1 + i) = w.2.getD i 0#8 := by
  have hsame : ∀ x ∈ ws, Covers x (w.1 + i) → x.1 = w.1 ∧ x.2 = w.2 := by
    rintro x hx ⟨hle, hlt⟩
    have hlen := (halign x hx).2
    have haddr : x.1 = w.1 := aligned_eq (halign x hx).1 (halign w hw).1 ⟨hle, by omega⟩ ⟨Nat.le_add_right _ _, by omega⟩
    exact ⟨haddr, hone x hx w hw haddr⟩
  by_cases hcov : ∃ x ∈ ws, Covers x (w.1 + i)
  · obtain ⟨x, hx, hxj, hval⟩ := mapGet_putAll_in [] ws hcov
    obtain ⟨haddr, hbytes⟩ := hsame x hx hxj
    rw [hval, haddr, hbytes, Nat.add_sub_cancel_left]
  · have hshort : w.2.length ≤ i := by
      by_contra hlt
      exact hcov ⟨w, hw, Nat.le_add_right _ _, by omega⟩
    rw [mapGet_putAll_out _ _ (fun x hx hxj => hcov ⟨x, hx, hxj⟩), List.getD_eq_default _ _ hshort]
    rfl

end Sys2Proof.Machine
end

section
/-! RULES of a memory instruction's issue: the group that issues, the fault of a refused address, and the instruction on its group's
list before its addresses are looked at (R95, R98, R107, R119). -/

namespace Sys2Proof.Machine

/-! ### The group that issues -/

/-- A group that is ready is where the context says, and so are its path and its task. -/
theorem readyGroup_spec {s : State} {p g : Nat} {w : InstrBits} {c : Ctx} (h : readyGroup s p g w = some c) :
    c.p = p ∧ c.g = g ∧ c.w = w ∧ (∃ gr, getGroup s p g = some gr ∧ c.gr = { gr with hold := .none }) ∧ getSlot s c.gr.slot = some c.sl := by
  unfold readyGroup at h
  split at h
  next gr _ hgr =>
    split at h
    next q sl _ hsl =>
      split at h
      · cases h
      · obtain rfl := Option.some.inj h
        exact ⟨rfl, rfl, rfl, ⟨gr, hgr, rfl⟩, hsl⟩
    next => cases h
  next => cases h

/-- The fault that an instruction raises leaves its group as it was, but ended (R66). -/
theorem faultAt_faulted {s : State} {p g : Nat} {w : InstrBits} {c : Ctx} (h : readyGroup s p g w = some c) (code addr : Nat) :
    FaultedWith s (faultAt s c code addr) c code := by
  obtain ⟨rfl, rfl, -, ⟨gr, hgr, hcgr⟩, hsl⟩ := readyGroup_spec h
  unfold faultAt
  obtain ⟨hframe, hgroup⟩ := faultTask_frame s c.p c.g c.gr.slot
    { code := code, sev := 2, origin := .core, unit := c.p, group := c.gr.index, pc := c.path.pc, addr := addr }
  have hslot : gr.slot = c.gr.slot := by rw [hcgr]
  refine ⟨?_, ⟨{ gr with ended := true }, ?_, ?_⟩, hframe⟩
  · rw [getSlot_faultTask, if_pos rfl, hsl, Option.map_some]
    exact ⟨_, rfl, rfl, by cases c.sl.ending <;> rfl⟩
  · rw [hgroup, hgr, Option.map_some, if_pos hslot]
  · rw [hcgr]
    exact ⟨rfl, rfl, rfl, rfl, rfl⟩

/-! ### The objects that putting a group back leaves alone -/

theorem getObj_modSlot (s : State) (n : Nat) (f : Slot → Slot) (k : Nat) : getObj (modSlot s n f) k = getObj s k := by
  unfold getObj
  rw [modSlot_keeper]

theorem getObj_faultTask_ne {s : State} {n k : Nat} {r : ErrRec} (h : Unlogged r.code k) : getObj (faultTask s n r) k = getObj s k := by
  unfold faultTask
  dsimp only
  show getObj (modSlot _ _ _) k = _
  rw [getObj_modSlot]
  unfold raiseTask
  split <;> exact getObj_raise_ne h

theorem getObj_putGroup_ne {s : State} {p g k : Nat} {gr : Group} (h : Unlogged Code.barrierOrphan k) : getObj (putGroup s p g gr) k = getObj s k := by
  unfold putGroup
  dsimp only
  split
  · rw [getObj_modSlot, getObj_setGroup]
  · split
    · refine (getObj_faultTask_ne ?_).trans (getObj_setGroup s p g _ k)
      exact h
    · exact getObj_setGroup s p g _ k

/-! ### What a reader of the slot table sees (R28) -/

/-- Slots whose records, states and progress agree read alike. -/
theorem slotBytes_congr {s t : State} {n : Nat} (hboot : t.boot = s.boot)
    (h : (getSlot t n).map Slot.settled = (getSlot s n).map Slot.settled) : slotBytes t n = slotBytes s n := by
  have hbytes : ∀ u : State, slotBytes u n = match (getSlot u n).map Slot.settled with
      | none => List.replicate 256 0#8
      | some sl => leBytes 8 (statusWord u.boot.untested sl) ++ ((List.range 31).flatMap (fun i => leBytes 8 (recWord sl.words (i + 1)))) := by
    intro u
    unfold slotBytes
    cases getSlot u n <;> rfl
  rw [hbytes, hbytes, h, hboot]

theorem slotBytes_modSlot {s : State} {n : Nat} {f : Slot → Slot}
    (hf : ∀ sl, statusWord s.boot.untested (f sl) = statusWord s.boot.untested sl ∧ (f sl).words = sl.words) (k : Nat) :
    slotBytes (modSlot s n f) k = slotBytes s k := by
  have hboot : (modSlot s n f).boot = s.boot := by
    obtain ⟨_, hm⟩ := modSlot_eq s n f
    rw [hm]
  unfold slotBytes
  rw [getSlot_modSlot, hboot]
  by_cases hk : k = n
  · subst hk
    rw [if_pos rfl]
    cases getSlot s k with
    | none => rfl
    | some sl =>
      obtain ⟨hst, hw⟩ := hf sl
      simp only [Option.map_some, hst, hw]
  · rw [if_neg hk]

/-! ### Where an address lies -/

/-- What the places of addresses rest on, the group's own share of staging memory apart. -/
def SamePlaces (s t : State) : Prop := t.pool = s.pool ∧ t.reservoir = s.reservoir ∧ t.cistern = s.cistern ∧
  t.keeper.cores = s.keeper.cores ∧ sluiceFrames t = sluiceFrames s

theorem SamePlaces.whereIs {s t : State} (h : SamePlaces s t) {gr gr' : Group} (hg : gr'.staging = gr.staging) (p : Nat) (write : Bool) (a : Nat) :
    whereIs t p gr' write a = whereIs s p gr write a := by
  obtain ⟨hpool, hres, hcis, hcores, hframes⟩ := h
  unfold Machine.whereIs isMember inPool hasHome resMapped winMapped resTop pinWays onLostStack resMapped resTop resLoc halfStacks basinPlace taskRegionEnd coreState
  rw [hpool, hres, hcis, hcores, hframes, hg]

/-! ### A memory instruction begins -/

/-- The instruction `m` stands last on its group's list, the group at its next instruction, and nothing that the lanes' places or the
bytes there rest on has changed. -/
structure Begun (s t : State) (c : Ctx) (m : MemOp) (gr : Group) : Prop where
  group : getGroup t c.p c.g = some gr
  mem : gr.mem = c.gr.mem ++ [m]
  gpr : gr.gpr = c.gr.gpr
  preds : gr.preds = c.gr.preds
  rest : gr.rest = { c.gr with mem := c.gr.mem ++ [m] }.rest
  advanced : Advanced c gr
  position : { getPos t c.p with groups := [] } = { getPos s c.p with groups := [], nextMem := m.id + 1 }
  frame : MemFrame s t c.p c.g
  places : SamePlaces s t
  slots : ∀ n, slotBytes t n = slotBytes s n

/-- The state while a memory instruction begins, and the group at its next instruction. -/
theorem enterMem_begun (s : State) (c : Ctx) (m : MemOp) : ∃ gr, Begun s (enterMem c s m) c m gr := by
  obtain ⟨gr, hgroup, hgpr, hpreds, hrest, hadv, -, hframe⟩ := finishAt_spec s c { c.gr with mem := c.gr.mem ++ [m] } rfl rfl rfl
  have hunlogged : Unlogged Code.barrierOrphan Key.basinSluiceFrames := by
    refine ⟨by decide, by decide, by decide, by decide, by decide⟩
  have hobj : getObj (finishAt c { c.gr with mem := c.gr.mem ++ [m] } s) Key.basinSluiceFrames = getObj s Key.basinSluiceFrames :=
    getObj_putGroup_ne hunlogged
  unfold enterMem
  generalize finishAt c { c.gr with mem := c.gr.mem ++ [m] } s = s1 at *
  have hpos := hframe.position c.p
  refine ⟨gr, ?_⟩
  exact
    { group := by
        unfold getGroup
        rw [getPos_setPos_same]
        exact hgroup
      mem := congrArg Group.mem hrest
      gpr := hgpr
      preds := hpreds
      rest := hrest
      advanced := hadv
      position := by
        rw [getPos_setPos_same]
        exact congrArg (fun x : Pos => { x with nextMem := m.id + 1 }) hpos
      frame := hframe.memFrame.trans (memFrame_setPos (fun _ => rfl) rfl)
      places := ⟨hframe.pool, hframe.reservoir, hframe.cistern, (congrArg Keeper.cores hframe.keeper : _), hobj⟩
      slots := fun n => by
        refine slotBytes_congr (t := setPos s1 c.p _) hframe.boot ?_
        by_cases hn : n = c.gr.slot
        · rw [hn]
          exact hframe.slot
        · exact congrArg (Option.map Slot.settled) (hframe.slots n hn) }

/-- A change of a slot that no reader of the slot table sees. -/
theorem Begun.modSlot {s t : State} {c : Ctx} {m : MemOp} {gr : Group} (h : Begun s t c m gr) {n : Nat} {f : Slot → Slot}
    (hf : ∀ sl, statusWord t.boot.untested (f sl) = statusWord t.boot.untested sl ∧ (f sl).words = sl.words) : Begun s (modSlot t n f) c m gr := by
  obtain ⟨hgroup, hmem, hgpr, hpreds, hrest, hadv, hpos, hframe, hplaces, hslots⟩ := h
  have hbytes := slotBytes_modSlot (n := n) hf
  obtain ⟨x, hx⟩ := modSlot_eq t n f
  rw [hx] at hbytes ⊢
  have hsame : MemFrame t { t with fountain := { t.fountain with slots := x } } c.p c.g :=
    { time := rfl, boot := rfl, flash := rfl, power := rfl, reservoir := rfl, sluice := rfl, port := rfl, window := rfl, counters := rfl,
      intake := rfl, slices := fun _ => rfl, positions := fun _ _ => rfl, arrays := rfl, groups := fun _ _ _ => .inl rfl }
  exact ⟨hgroup, hmem, hgpr, hpreds, hrest, hadv, hpos, hframe.trans hsame, hplaces, fun k => (hbytes k).trans (hslots k)⟩

/-- Noting what a task has reached is such a change. -/
theorem Begun.noteReach {s t : State} {c : Ctx} {m : MemOp} {gr : Group} (h : Begun s t c m gr) (n : Nat) (as : List Nat) (ws : List Where) :
    Begun s (noteReach t n as ws) c m gr := by
  unfold Machine.noteReach
  dsimp only
  split
  · exact h.modSlot fun _ => ⟨rfl, rfl⟩
  · exact h

section
variable {s t : State} {c : Ctx} {m : MemOp} {gr : Group}

theorem Begun.whereIs (h : Begun s t c m gr) (write : Bool) (a : Nat) : Machine.whereIs t c.p gr write a = Machine.whereIs s c.p c.gr write a :=
  h.places.whereIs (congrArg Group.staging h.rest : _) c.p write a

theorem Begun.stg (h : Begun s t c m gr) : gr.stg = c.gr.stg := (congrArg Group.stg h.rest : _)

theorem Begun.basin (h : Begun s t c m gr) : (getPos t c.p).basin = (getPos s c.p).basin := (congrArg Pos.basin h.position : _)

theorem Begun.mem_last (h : Begun s t c m gr) : m ∈ gr.mem := by
  rw [h.mem]
  exact List.mem_append_right _ (List.mem_singleton_self m)

theorem Begun.mem_other (h : Begun s t c m gr) {x : MemOp} (hx : x.id ≠ m.id) :
    x ∈ gr.mem.map MemOp.unmarked ↔ x ∈ c.gr.mem.map MemOp.unmarked := by
  have hne : x ≠ m.unmarked := fun he => hx (by rw [he]; rfl)
  rw [h.mem, List.map_append, List.mem_append]
  simp [hne]

/-- The group keeps the instruction, its addresses now looked at, on its list: the instruction is outstanding. -/
theorem Begun.outstanding (h : Begun s t c m gr) {u : State} {m' : MemOp} {g1 : Group} {k : MemKind} {size : Nat}
    (hgroup : getGroup u c.p c.g = some { g1 with mem := replaceMem g1.mem m' }) (hg1 : g1.unmarked = { gr with stg := g1.stg }.unmarked)
    (hnext : (getPos u c.p).nextMem = m.id + 1) (hid : m.id = (getPos s c.p).nextMem)
    (hm : m'.id = m.id ∧ m'.kind = k ∧ m'.size = size ∧ m'.lanes = laneAddrs c ∧ m'.got = []) : Outstanding s u c k size m' := by
  obtain ⟨hid', hkind, hsize, hlanes, hgot⟩ := hm
  have hmems : g1.mem.map MemOp.unmarked = gr.mem.map MemOp.unmarked := (congrArg Group.mem hg1 : _)
  have hlast : m.unmarked ∈ g1.mem.map MemOp.unmarked := by
    rw [hmems]
    exact List.mem_map_of_mem h.mem_last
  obtain ⟨x, hx, hxm⟩ := List.mem_map.mp hlast
  have hxid : x.id = m'.id := ((congrArg MemOp.id hxm : _) : x.id = m.id).trans hid'.symm
  refine ⟨_, hgroup, mem_replaceMem hx hxid, fun y hy => ?_, hid'.trans hid, ?_, hkind, hsize, hlanes, hgot,
    ((congrArg Group.gpr hg1 : _) : g1.gpr = gr.gpr).trans h.gpr, ((congrArg Group.preds hg1 : _) : g1.preds = gr.preds).trans h.preds,
    ((congrArg Group.live hg1 : _) : g1.live = gr.live).trans (congrArg Group.live h.rest : _),
    ((congrArg Group.counters hg1 : _) : g1.counters = gr.counters).trans (congrArg Group.counters h.rest : _), ?_⟩
  · rw [mem_map_unmarked_replaceMem _ _ hy, hmems]
    exact h.mem_other (hid' ▸ hy)
  · rw [hnext, hid']
  · intro h1 h2 h3
    obtain ⟨hs, hp⟩ := h.advanced h1 h2 h3
    exact ⟨((congrArg Group.splits hg1 : _) : g1.splits = gr.splits).trans hs, ((congrArg Group.paths hg1 : _) : g1.paths = gr.paths).trans hp⟩

end

/-! ### What issuing does (R27, R95, R98, R119) -/

theorem lanesOf_ne_nil {x : LaneMask} (h : x ≠ 0#32) : lanesOf x ≠ [] := by
  intro hnone
  refine h (BitVec.eq_of_getLsbD_eq fun l hl => ?_)
  have hl' := List.filter_eq_nil_iff.mp hnone l (List.mem_range.mpr hl)
  simpa using hl'

section
variable {kind : MemKind} {size : Nat} {sext ro : Bool} {kept : Ctx → Sparse Byte} {start : State → Nat → Nat → Group → MemOp → Nat → State}
  {c : Ctx} {s : State}

theorem memFree_goes (hfree : MemFree s c (kind != .load) ro) :
    (memHeld s c (((farAddrs s c (kind != .load) ro ((lanesOf c.ex).map (laneAddr c))).map (· / 32)).dedup).length ||
    (decide (0 < chanBlocks (((lanesOf c.ex).map (laneAddr c)).map (whereIs s c.p c.gr (kind != .load)))) && chanFull s (getPos s c.p))) = false := by
  obtain ⟨hheld, hchan⟩ := hfree
  rw [hheld, Bool.false_or]
  rcases hchan with hnone | hroom
  · rw [hnone]
    rfl
  · rw [hroom, Bool.and_false]

theorem runMem_misaligned {refuse : State → Nat → Where → Option Nat} (hex : c.ex ≠ 0#32) (hfree : MemFree s c (kind != .load) ro)
    (hmis : ∃ l ∈ lanesOf c.ex, laneAddr c l % size ≠ 0) :
    ∃ a, runMem kind size sext ro kept refuse start c s = faultAt s c Code.misalignedAccess a := by
  obtain ⟨l, hl, hne⟩ := hmis
  obtain ⟨a, ha⟩ : ∃ a, ((lanesOf c.ex).map (laneAddr c)).find? (fun a => a % size != 0) = some a :=
    Option.isSome_iff_exists.mp (List.find?_isSome.mpr ⟨_, List.mem_map_of_mem hl, by simpa using hne⟩)
  refine ⟨a, ?_⟩
  unfold runMem
  dsimp only
  rw [if_neg (by simpa using lanesOf_ne_nil hex), if_neg (by rw [memFree_goes hfree]; decide), ha]

theorem runMem_begins (hex : c.ex ≠ 0#32) (hfree : MemFree s c (kind != .load) ro) (hplaced : AllPlaced s c (kind != .load) size) :
    ∃ s2 gr, Begun s s2 c (newMem c (getPos s c.p).nextMem kind (fDst c.w) size sext ro (kept c)) gr ∧
      runMem kind size sext ro kept refuseBad start c s =
        start s2 c.p c.g gr (newMem c (getPos s c.p).nextMem kind (fDst c.w) size sext ro (kept c)) (recClass c.sl.words) := by
  have haligned : ((lanesOf c.ex).map (laneAddr c)).find? (fun a => a % size != 0) = none := by
    rw [List.find?_eq_none]
    intro a ha
    obtain ⟨l, hl, rfl⟩ := List.mem_map.mp ha
    simpa using (hplaced l hl).1
  have hgood : (((lanesOf c.ex).map (laneAddr c)).zip (((lanesOf c.ex).map (laneAddr c)).map (whereIs s c.p c.gr (kind != .load)))).findSome?
      (fun e => (refuseBad s e.1 e.2).map (fun k => (k, e.1))) = none := by
    rw [List.findSome?_eq_none_iff]
    intro e he
    obtain ⟨l, hl, hw⟩ := List.mem_map.mp (List.of_mem_zip he).2
    obtain ⟨l', hl', rfl⟩ := List.mem_map.mp hl
    have hbad := (hplaced l' hl').2
    rw [Option.map_eq_none_iff, ← hw]
    unfold refuseBad
    split
    next k hk => exact absurd hk (hbad k)
    next => rfl
  obtain ⟨gr, hbegun⟩ := enterMem_begun s c (newMem c (getPos s c.p).nextMem kind (fDst c.w) size sext ro (kept c))
  have hnoted := hbegun.noteReach c.gr.slot ((lanesOf c.ex).map (laneAddr c))
    (((lanesOf c.ex).map (laneAddr c)).map (whereIs s c.p c.gr (kind != .load)))
  refine ⟨_, gr, hnoted, ?_⟩
  unfold runMem
  dsimp only
  rw [if_neg (by simpa using lanesOf_ne_nil hex), if_neg (by rw [memFree_goes hfree]; decide), haligned, hgood, hnoted.group]

end

end Sys2Proof.Machine
end

section
/-! RULES of a load's start: what it finds in the core, what it asks for, and what running engines show of their results (R95, R154). -/

namespace Sys2Proof.Machine

/-! ### The bytes in the core -/

theorem getD_stgBytes {t : Sparse Byte} {off n i : Nat} (hi : i < n) : (stgBytes t off n).getD i 0#8 = stgByte t (off + i) := by
  unfold stgBytes
  simp [List.getD_eq_getElem?_getD, hi]

theorem length_stgBytes (t : Sparse Byte) (off n : Nat) : (stgBytes t off n).length = n := by
  unfold stgBytes
  simp

/-- A lane finds no more bytes than the instruction's size. -/
theorem length_localAt {s : State} {p : Nat} {gr : Group} {ro : Bool} {size a : Nat} {w : Where} {bs : List Byte}
    (h : localAt s p gr ro size a w = some bs) : bs.length ≤ size := by
  have hslice : ∀ (x : List Byte) (k : Nat), (slice x k size).length ≤ size := fun x k => by
    rw [length_slice]
  have hhit : ∀ o : Option (List Byte), o.map (fun d => slice d (a % 32) size) = some bs → bs.length ≤ size := fun o ho => by
    obtain ⟨d, -, rfl⟩ := Option.map_eq_some_iff.mp ho
    exact hslice _ _
  unfold localAt at h
  cases w with
  | staging off => obtain rfl := Option.some.inj h; exact (length_stgBytes _ _ _).le
  | basin off => obtain rfl := Option.some.inj h; exact (mapGetList_length _ _ _ _).le
  | slot off => obtain rfl := Option.some.inj h; exact hslice _ _
  | home => cases ro with
    | true => exact hhit _ h
    | false => cases h
  | peer d => cases ro with
    | true => exact hhit _ h
    | false => cases h
  | bad k => cases h

/-- What each lane finds at once. -/
def foundAt (s : State) (p : Nat) (gr : Group) (m : MemOp) : List (Nat × Option (List Byte)) :=
  m.lanes.map (fun l => (l.addr, localAt s p gr m.ro m.size l.addr (whereIs s p gr false l.addr)))

/-- The bytes found, as writes at the lanes' addresses. -/
def foundWrites (s : State) (p : Nat) (gr : Group) (m : MemOp) : List (Nat × List Byte) :=
  (foundAt s p gr m).filterMap (fun e => e.2.map (fun bs => (e.1, bs)))

/-- The addresses of the lanes that find nothing at once. -/
def farLanes (s : State) (p : Nat) (gr : Group) (m : MemOp) : List Nat := ((foundAt s p gr m).filter (fun e => e.2.isNone)).map (·.1)

theorem foldl_found (es : List (Nat × Option (List Byte))) (t : Sparse Byte) : es.foldl (fun t e => match e.2 with
      | some bs => mapSetList 0#8 t e.1 bs
      | none => t) t = putAll t (es.filterMap (fun e => e.2.map (fun bs => (e.1, bs)))) := by
  induction es generalizing t with
  | nil => rfl
  | cons e es ih =>
    obtain ⟨a, o⟩ := e
    cases o with
    | none => exact ih t
    | some bs => exact ih _

theorem mem_foundWrites {s : State} {p : Nat} {gr : Group} {m : MemOp} {w : Nat × List Byte} : w ∈ foundWrites s p gr m ↔
    ∃ l ∈ m.lanes, l.addr = w.1 ∧ localAt s p gr m.ro m.size w.1 (whereIs s p gr false w.1) = some w.2 := by
  unfold foundWrites foundAt
  simp only [List.mem_filterMap, List.mem_map, Option.map_eq_some_iff]
  constructor
  · rintro ⟨e, ⟨l, hl, rfl⟩, bs, hbs, rfl⟩
    exact ⟨l, hl, rfl, hbs⟩
  · rintro ⟨l, hl, haddr, hbs⟩
    exact ⟨_, ⟨l, hl, rfl⟩, w.2, by rw [haddr]; exact hbs, by rw [haddr]⟩

/-- A lane that finds its bytes at once: they are kept at its address. -/
theorem mapGet_foundWrites {s : State} {p : Nat} {gr : Group} {m : MemOp} (halign : ∀ l ∈ m.lanes, l.addr % m.size = 0) {l : LaneAddr}
    (hl : l ∈ m.lanes) {bs : List Byte} (hbs : localAt s p gr m.ro m.size l.addr (whereIs s p gr false l.addr) = some bs) {i : Nat} (hi : i < m.size) :
    mapGet 0#8 (putAll [] (foundWrites s p gr m)) (l.addr + i) = bs.getD i 0#8 := by
  refine mapGet_putAll_aligned (n := m.size) (w := (l.addr, bs)) (fun w hw => ?_) (fun w hw x hx he => ?_) (mem_foundWrites.mpr ⟨l, hl, rfl, hbs⟩) hi
  · obtain ⟨l', hl', haddr, hw'⟩ := mem_foundWrites.mp hw
    exact ⟨haddr ▸ halign l' hl', length_localAt hw'⟩
  · obtain ⟨-, -, -, hw'⟩ := mem_foundWrites.mp hw
    obtain ⟨-, -, -, hx'⟩ := mem_foundWrites.mp hx
    rw [he, hx'] at hw'
    exact (Option.some.inj hw').symm

/-! ### The start of a load -/

/-- A load whose addresses have been looked at. -/
def looked (s : State) (p : Nat) (gr : Group) (m : MemOp) : MemOp :=
  { m with localBytes := putAll m.localBytes (foundWrites s p gr m), need := ((farLanes s p gr m).map (sectorKey s)).dedup }

/-- A position but for the read-only cache's record of use and the private channel's queue. -/
def Pos.used (c : Pos) : Pos := { c with ro := [], roUse := 0, chan := 0, chanAt := 0 }

theorem used_foldl_roTouch (s : State) (n task : Nat) (ls : List Nat) (c : Pos) :
    (ls.foldl (fun x l => roTouch x l task) (chanAdd s n c)).used = c.used :=
  foldl_keeps Pos.used (f := fun x l => roTouch x l task) ls (fun _ _ _ => rfl) (chanAdd s n c)

/-- The position when a load has looked at its addresses. -/
def lookedPos (s : State) (p : Nat) (gr : Group) (m : MemOp) : Pos :=
  (if m.ro then (((foundAt s p gr m).filter (fun e => e.2.isSome)).map (fun e => e.1 / 128)).dedup else []).foldl (fun x l => roTouch x l gr.slot)
    (chanAdd s (chanBlocks (m.lanes.map (fun l => whereIs s p gr false l.addr))) (getPos s p))

theorem startLoad_eq (s : State) (p g : Nat) (gr : Group) (m : MemOp) (cls : Nat) : startLoad s p g gr m cls =
    askFar (putMem (setPos s p (lookedPos s p gr m)) p g (looked s p gr m)) p g gr m.id cls (farLanes s p gr m) := by
  unfold looked foundWrites
  rw [← foldl_found]
  rfl

/-- A load's start puts it on the list with what it has found, marks uses and sends. -/
theorem startLoad_spec {s : State} {p g : Nat} {gr : Group} (hg : getGroup s p g = some gr) (m : MemOp) (cls : Nat) :
    getGroup (startLoad s p g gr m cls) p g = some { gr with mem := replaceMem gr.mem (looked s p gr m) } ∧
      { (getPos (startLoad s p g gr m cls) p).used with groups := [] } = { (getPos s p).used with groups := [] } ∧
      MemFrame s (startLoad s p g gr m cls) p g := by
  obtain ⟨c, hload, hc⟩ : ∃ c, startLoad s p g gr m cls =
      askFar (putMem (setPos s p c) p g (looked s p gr m)) p g gr m.id cls (farLanes s p gr m) ∧ c.used = (getPos s p).used :=
    ⟨_, startLoad_eq s p g gr m cls, used_foldl_roTouch s _ gr.slot _ (getPos s p)⟩
  obtain ⟨hcores, hframe⟩ := sends_askFar (putMem (setPos s p c) p g (looked s p gr m)) p g gr m.id cls (farLanes s p gr m)
  have hgroups : c.groups = (getPos s p).groups := (congrArg Pos.groups hc : _)
  have hg' : getGroup (setPos s p c) p g = some gr := by
    unfold getGroup at hg ⊢
    rw [getPos_setPos_same, hgroups, hg]
  have hput := putMem_eq hg' (looked s p gr m)
  rw [hload]
  refine ⟨?_, ?_, ?_⟩
  · rw [getGroup_of_cores hcores, hput, getGroup_setGroup_same]
  · rw [getPos_of_cores hcores, hput]
    have hpos := setGroup_position (setPos s p c) p g (some { gr with mem := replaceMem gr.mem (looked s p gr m) }) p
    rw [getPos_setPos_same] at hpos
    exact (congrArg Pos.used hpos : _).trans (congrArg (fun x : Pos => { x with groups := [] }) hc)
  · have harrays : c.arrays = (getPos s p).arrays := (congrArg Pos.arrays hc : _)
    have hset : MemFrame s (setPos s p c) p g := by
      refine memFrame_setPos (fun h => ?_) (unlogged_congr harrays)
      unfold getGroup
      rw [hgroups]
    exact (hset.trans (memFrame_putMem _ p g _)).trans (hframe p g)

/-! ### What running engines show of their results (R153, R154) -/

theorem basinPlace_cases (s : State) (k : Nat) : basinPlace s k = .basin k ∨ basinPlace s k = .bad Code.addressUnmapped := by
  unfold basinPlace
  split
  · exact .inl rfl
  · exact .inr rfl

/-- The ranges at which a core sees its own staging memory and its own Basins (R23). -/
def IsAlias (l : Nat) : Prop := (aliasStaging ≤ l ∧ l < aliasStaging + 0x40000) ∨ (aliasBasin ≤ l ∧ l < aliasBasin + 0x400000)

theorem whereIs_slot {s : State} {p : Nat} {gr : Group} {a off : Nat} (h : whereIs s p gr false a = .slot off) :
    ¬IsAlias (addrLocal a) ∧ slotTableAt (addrLocal a) = some off := by
  unfold whereIs at h
  dsimp only at h
  split at h
  · split at h
    · cases h
    · split at h <;> cases h
  · split at h
    · split at h <;> cases h
    · split at h
      · split at h <;> cases h
      · split at h
        · rcases basinPlace_cases s (addrLocal a - aliasBasin) with he | he <;> rw [he] at h <;> cases h
        · refine ⟨fun hal => hal.elim ‹_› ‹_›, ?_⟩
          split at h
          next o ho =>
            obtain rfl : o = off := Where.slot.inj h
            exact ho
          next q o _ _ =>
            split at h
            · rcases basinPlace_cases s o with he | he <;> rw [he] at h <;> cases h
            · split at h <;> cases h
          next => cases h

theorem whereIs_core {s : State} {p : Nat} {gr : Group} {a off : Nat}
    (h : whereIs s p gr false a = .staging off ∨ whereIs s p gr false a = .basin off) :
    IsAlias (addrLocal a) ∨ slotTableAt (addrLocal a) = none := by
  by_contra hc
  obtain ⟨hal, o, ho⟩ : ¬IsAlias (addrLocal a) ∧ ∃ o, slotTableAt (addrLocal a) = some o :=
    ⟨fun hal => hc (.inl hal), Option.ne_none_iff_exists'.mp fun hn => hc (.inr hn)⟩
  have hst : ¬(aliasStaging ≤ addrLocal a ∧ addrLocal a < aliasStaging + 0x40000) := fun hx => hal (.inl hx)
  have hba : ¬(aliasBasin ≤ addrLocal a ∧ addrLocal a < aliasBasin + 0x400000) := fun hx => hal (.inr hx)
  unfold whereIs at h
  dsimp only at h
  rw [if_neg hst, if_neg hba, ho] at h
  dsimp only at h
  split at h
  · split at h
    · rcases h with h | h <;> cases h
    · split at h <;> rcases h with h | h <;> cases h
  · split at h
    · split at h <;> rcases h with h | h <;> cases h
    · rcases h with h | h <;> cases h

/-- Some state and group see the address in staging memory or in the own Basins. -/
def OwnBytes (a : Nat) : Prop := ∃ s p gr off, whereIs s p gr false a = .staging off ∨ whereIs s p gr false a = .basin off

/-- An address in the slot table never lies in staging memory or a Basin. -/
theorem not_ownBytes_of_slot {s : State} {p : Nat} {gr : Group} {a off : Nat} (h : whereIs s p gr false a = .slot off) : ¬OwnBytes a := by
  obtain ⟨hal, hslot⟩ := whereIs_slot h
  rintro ⟨s', p', gr', off', hcore⟩
  rcases whereIs_core hcore with hal' | hnone
  · exact hal hal'
  · rw [hslot] at hnone
    cases hnone

/-- The lanes' places that running engines may show results in. -/
def earlyPut (s : State) (p g size : Nat) (t : Sparse Byte) (a : Nat) (basin : Bool) (off : Nat) : Sparse Byte :=
  mapSetList 0#8 t a ((List.range size).map (fun i => earlyByte s s.free 0 p g basin (off + i) (mapGet 0#8 t (a + i))))

def earlyFound (s : State) (p g : Nat) (gr : Group) (m : MemOp) : Sparse Byte :=
  m.lanes.foldl (fun t l => match whereIs s p gr false l.addr with
    | .staging off => earlyPut s p g m.size t l.addr false off
    | .basin off => earlyPut s p g m.size t l.addr true off
    | _ => t) m.localBytes

theorem mapGet_earlyPut {s : State} {p g size : Nat} {t : Sparse Byte} {a off j : Nat} {basin : Bool} (hj : ¬(a ≤ j ∧ j < a + size)) :
    mapGet 0#8 (earlyPut s p g size t a basin off) j = mapGet 0#8 t j := by
  unfold earlyPut
  refine mapGet_mapSetList_out _ _ _ _ _ ?_
  rw [List.length_map, List.length_range]
  omega

/-- A byte that no lane in staging memory or a Basin covers is found as it was. -/
theorem mapGet_earlyFound {s : State} {p g : Nat} {gr : Group} {m : MemOp} {j : Nat}
    (hj : ∀ l ∈ m.lanes, OwnBytes l.addr → ¬(l.addr ≤ j ∧ j < l.addr + m.size)) : mapGet 0#8 (earlyFound s p g gr m) j = mapGet 0#8 m.localBytes j := by
  refine foldl_keeps (fun t => mapGet 0#8 t j) m.lanes (fun t l hl => ?_) m.localBytes
  split
  next off hw => exact mapGet_earlyPut (hj l hl ⟨s, p, gr, off, .inl hw⟩)
  next off hw => exact mapGet_earlyPut (hj l hl ⟨s, p, gr, off, .inr hw⟩)
  next => rfl

theorem earlyLoad_runs {s : State} {p g id : Nat} {gr : Group} {m : MemOp} (h : engineRuns (getPos s p) = true) (hm : findMem s p g id = some (gr, m)) :
    earlyLoad p g id s = putMem { s with free := s.free + 10 } p g { m with localBytes := earlyFound s p g gr m } := by
  unfold earlyLoad
  rw [h, hm]
  rfl

theorem replaceMem_replaceMem (ms : List MemOp) {m n : MemOp} (h : n.id = m.id) : replaceMem (replaceMem ms m) n = replaceMem ms n := by
  unfold replaceMem
  rw [List.map_map]
  refine List.map_congr_left fun x _ => ?_
  by_cases hx : x.id = m.id
  · rw [Function.comp_apply, if_pos hx, h, if_pos rfl, if_pos hx]
  · rw [Function.comp_apply, if_neg hx]

/-- A load begun: it is on the list with what it has found, but that running engines may show of their results in staging memory and
the own Basins. -/
theorem startLoadEarly_spec {s : State} {p g : Nat} {gr : Group} (hg : getGroup s p g = some gr) {m : MemOp} (hm : m ∈ gr.mem) (cls : Nat) :
    ∃ lb, getGroup (startLoadEarly s p g gr m cls) p g = some { gr with mem := replaceMem gr.mem { looked s p gr m with localBytes := lb } } ∧
      { (getPos (startLoadEarly s p g gr m cls) p).used with groups := [] } = { (getPos s p).used with groups := [] } ∧
      MemFrame s (startLoadEarly s p g gr m cls) p g ∧
      (engineRuns (getPos s p) = false → lb = (looked s p gr m).localBytes) ∧
      ∀ j, (∀ l ∈ m.lanes, OwnBytes l.addr → ¬(l.addr ≤ j ∧ j < l.addr + m.size)) → mapGet 0#8 lb j = mapGet 0#8 (looked s p gr m).localBytes j := by
  obtain ⟨hgroup, hpos, hframe⟩ := startLoad_spec hg m cls
  unfold startLoadEarly
  generalize startLoad s p g gr m cls = t at *
  have hruns : engineRuns (getPos t p) = engineRuns (getPos s p) := by
    have h := congrArg engineRuns hpos
    exact h
  rcases hr : engineRuns (getPos t p) with _ | _
  · rw [earlyLoad_idle hr]
    exact ⟨_, hgroup, hpos, hframe, fun _ => rfl, fun _ _ => rfl⟩
  · have hid : (looked s p gr m).id = m.id := rfl
    have hfind : findMem t p g m.id = some ({ gr with mem := replaceMem gr.mem (looked s p gr m) }, looked s p gr m) := by
      unfold findMem
      rw [hgroup]
      show (List.find? (fun x => x.id == (looked s p gr m).id) (replaceMem gr.mem (looked s p gr m))).map _ = _
      rw [find_replaceMem hm hid.symm]
      rfl
    rw [earlyLoad_runs hr hfind]
    generalize hlb : earlyFound t p g { gr with mem := replaceMem gr.mem (looked s p gr m) } (looked s p gr m) = lb
    have hgroup' : getGroup { t with free := t.free + 10 } p g = some { gr with mem := replaceMem gr.mem (looked s p gr m) } := hgroup
    have hput := putMem_eq hgroup' { looked s p gr m with localBytes := lb }
    have htwice := replaceMem_replaceMem gr.mem (m := looked s p gr m) (n := { looked s p gr m with localBytes := lb }) rfl
    dsimp only at hput
    rw [htwice] at hput
    refine ⟨lb, ?_, ?_, ?_, fun hno => ?_, fun j hj => ?_⟩
    · rw [hput, getGroup_setGroup_same]
    · rw [hput]
      exact (congrArg Pos.used (setGroup_position _ p g _ p) : _).trans hpos
    · exact (hframe.trans (memFrame_free t _ p g)).trans (memFrame_putMem _ p g _)
    · rw [hruns, hno] at hr
      cases hr
    · rw [← hlb]
      exact mapGet_earlyFound hj

end Sys2Proof.Machine
end

section
/-! RULES of a store's start: the bytes of its lanes, in whichever order they are applied, and what its writes leave alone (R95, R97, R119, R154). -/

namespace Sys2Proof.Machine

/-! ### The bytes that a lane stores (R119) -/

theorem getD_leBytes : ∀ (n x i : Nat), i < n → (leBytes n x).getD i 0#8 = BitVec.ofNat 8 (x / 256 ^ i)
  | 0, _, _, h => absurd h (Nat.not_lt_zero _)
  | _ + 1, x, 0, _ => by rw [pow_zero, Nat.div_one]; rfl
  | n + 1, x, i + 1, h => by
    have ih := getD_leBytes n (x / 256) i (Nat.lt_of_succ_lt_succ h)
    rw [Nat.div_div_eq_div_mul, ← pow_succ'] at ih
    exact ih

theorem length_leBytes : ∀ (n x : Nat), (leBytes n x).length = n
  | 0, _ => rfl
  | n + 1, x => congrArg (· + 1) (length_leBytes n (x / 256))

/-- The number whose 32-bit words are `r 0`, `r 1`, … -/
def ofWords (r : Nat → Nat) (n : Nat) : Nat := ((List.range n).map (fun i => r i * 2 ^ (32 * i))).sum

theorem ofWords_succ (r : Nat → Nat) (n : Nat) : ofWords r (n + 1) = ofWords r n + r n * 2 ^ (32 * n) := by
  unfold ofWords
  rw [List.range_succ, List.map_append, List.sum_append]
  simp

theorem ofWords_lt {r : Nat → Nat} (hr : ∀ j, r j < 2 ^ 32) (n : Nat) : ofWords r n < 2 ^ (32 * n) := by
  induction n with
  | zero => exact Nat.one_pos
  | succ n ih =>
    have hpow : 2 ^ (32 * (n + 1)) = 2 ^ 32 * 2 ^ (32 * n) := by rw [Nat.mul_succ, Nat.add_comm, pow_add]
    have hle : r n * 2 ^ (32 * n) ≤ (2 ^ 32 - 1) * 2 ^ (32 * n) := Nat.mul_le_mul_right _ (by have := hr n; omega)
    rw [ofWords_succ, hpow]
    omega

theorem ofWords_word {r : Nat → Nat} (hr : ∀ j, r j < 2 ^ 32) {n q : Nat} (hq : q < n) : ofWords r n / 2 ^ (32 * q) % 2 ^ 32 = r q := by
  induction n with
  | zero => exact absurd hq (Nat.not_lt_zero _)
  | succ n ih =>
    rw [ofWords_succ]
    rcases Nat.lt_succ_iff_lt_or_eq.mp hq with hlt | rfl
    · obtain ⟨k, rfl⟩ := Nat.exists_eq_add_of_lt hlt
      have hpow : r (q + k + 1) * 2 ^ (32 * (q + k + 1)) = 2 ^ (32 * q) * (r (q + k + 1) * 2 ^ (32 * k) * 2 ^ 32) := by
        rw [show 32 * (q + k + 1) = 32 * q + 32 * k + 32 by omega, pow_add, pow_add]
        ring
      rw [hpow, Nat.add_mul_div_left _ _ (by positivity), Nat.add_mul_mod_self_right, ih hlt]
    · rw [Nat.add_mul_div_right _ _ (by positivity), Nat.div_eq_of_lt (ofWords_lt hr q), Nat.zero_add, Nat.mod_eq_of_lt (hr q)]

/-- A byte of a number is the byte of its 32-bit word. -/
theorem byte_of_word (x i : Nat) : BitVec.ofNat 8 (x / 256 ^ i) = BitVec.ofNat 8 (x / 2 ^ (32 * (i / 4)) % 2 ^ 32 / 2 ^ (8 * (i % 4))) := by
  have hpow : (256 : Nat) ^ i = 2 ^ (32 * (i / 4)) * 2 ^ (8 * (i % 4)) := by
    rw [← pow_add, show (256 : Nat) = 2 ^ 8 by rfl, ← pow_mul]
    congr 1
    omega
  rw [hpow, ← Nat.div_div_eq_div_mul]
  generalize x / 2 ^ (32 * (i / 4)) = y
  apply BitVec.eq_of_toNat_eq
  rw [BitVec.toNat_ofNat, BitVec.toNat_ofNat]
  have hk : i % 4 < 4 := Nat.mod_lt _ (by decide)
  interval_cases i % 4 <;> omega

theorem getReg_lt (gr : Group) (r l : Nat) : getReg gr r l < 2 ^ 32 := by
  unfold getReg
  split
  · decide
  · exact BitVec.isLt _

/-- A size of the instruction's SIZE field (R110). -/
def IsSize (n : Nat) : Prop := n = 1 ∨ n = 2 ∨ n = 4 ∨ n = 8 ∨ n = 16

theorem isSize_sizeBytes {w : InstrBits} (h : fSize w ≤ 4) : IsSize (sizeBytes w) := by
  unfold sizeBytes IsSize
  interval_cases fSize w <;> decide

/-- The bytes kept of a lane at issue, at the lane's place. -/
def laneWrite (size : Nat) (c : Ctx) (l : Nat) : Nat × List Byte :=
  (l * 16, leBytes size (ofWords (fun i => getReg c.gr (fDst c.w + i) l) (max 1 (size / 4))))

theorem keptStore_eq (size : Nat) (c : Ctx) : keptStore size c = putAll [] ((lanesOf c.ex).map (laneWrite size c)) := by
  unfold putAll
  rw [List.foldl_map]
  rfl

theorem keptStore_byte {size : Nat} (hsize : IsSize size) {c : Ctx} {l i : Nat} (hl : l ∈ lanesOf c.ex) (hi : i < size) :
    mapGet 0#8 (keptStore size c) (l * 16 + i) = storedByte c l i := by
  have h16 : size ≤ 16 := by rcases hsize with h | h | h | h | h <;> omega
  have hword : i / 4 < max 1 (size / 4) := by rcases hsize with rfl | rfl | rfl | rfl | rfl <;> omega
  rw [keptStore_eq]
  refine (mapGet_putAll_aligned (n := 16) (w := laneWrite size c l) (fun w hw => ?_) (fun w hw x hx he => ?_) (List.mem_map_of_mem hl)
    (by omega)).trans ?_
  · obtain ⟨k, -, rfl⟩ := List.mem_map.mp hw
    exact ⟨Nat.mul_mod_left k 16, by unfold laneWrite; rw [length_leBytes]; exact h16⟩
  · obtain ⟨k, -, rfl⟩ := List.mem_map.mp hw
    obtain ⟨j, -, rfl⟩ := List.mem_map.mp hx
    have hkj : k * 16 = j * 16 := he
    rw [show k = j by omega]
  · unfold laneWrite storedByte
    rw [getD_leBytes _ _ _ hi, byte_of_word, ofWords_word (fun j => getReg_lt _ _ _) hword]

/-- The bytes that a lane of a store writes, wherever its address lies. -/
theorem keptBytes_spec {size : Nat} (hsize : IsSize size) {c : Ctx} {m : MemOp} (hkept : m.localBytes = keptStore size c) {l : Nat} (hl : l ∈ lanesOf c.ex) :
    (keptBytes m l size).length = size ∧ ∀ i, i < size → (keptBytes m l size).getD i 0#8 = storedByte c l i := by
  unfold keptBytes
  refine ⟨mapGetList_length _ _ _ _, fun i hi => ?_⟩
  have hlen : i < (mapGetList 0#8 m.localBytes (l * 16) size).length := by rw [mapGetList_length]; exact hi
  rw [List.getD_eq_getElem _ _ hlen, getElem_mapGetList, hkept, keptStore_byte hsize hl hi]

/-! ### The order of the lanes (R97) -/

theorem mem_storeOrder {seed : Nat} {ls : List LaneAddr} {l : LaneAddr} : l ∈ storeOrder seed ls ↔ l ∈ ls := by
  unfold storeOrder
  split
  · rfl
  · exact List.mem_insertionSort _

/-- The writes of a store, in the order in which they are applied. -/
def storeWrites (s : State) (m : MemOp) : List (Nat × List Byte) :=
  (storeOrder s.free m.lanes).map (fun l => (l.addr, keptBytes m l.lane m.size))

theorem mem_storeWrites {s : State} {m : MemOp} {w : Nat × List Byte} :
    w ∈ storeWrites s m ↔ ∃ l ∈ m.lanes, (l.addr, keptBytes m l.lane m.size) = w := by
  unfold storeWrites
  rw [List.mem_map]
  exact exists_congr fun l => and_congr_left' mem_storeOrder

/-! ### What a write notes with what runs (R154) -/

theorem mapEach_mapEach {α : Type} [DecidableEq α] (d : α) {f g k : α → α} (hd : g d = d) (h : ∀ v, g (f v) = k v) (m : Sparse α) :
    mapEach d g (mapEach d f m) = mapEach d k m := by
  induction m with
  | nil => rfl
  | cons e m ih =>
    obtain ⟨i, v⟩ := e
    by_cases hf : f v = d
    · have hk : k v = d := by rw [← h v, hf, hd]
      simp only [mapEach, hf, hk, if_true, ih]
    · simp only [mapEach, hf, if_false, h v, ih]

theorem unlogged_logWrite (c : Pos) (g : Nat) (w : Written) : unlogged (logWrite c g w) = unlogged c := by
  have hop : ∀ o : Option RunningOp, (o.map (fun r => if w.basin || r.op.g == g then { r with log := r.log ++ [w] } else r)).map
      (fun r => { r with log := [] }) = o.map (fun r => { r with log := [] }) := by
    rintro (_ | r)
    · rfl
    · simp only [Option.map_some]
      split <;> rfl
  unfold unlogged logWrite
  dsimp only
  refine mapEach_mapEach ArrayUnit.idle rfl (fun u => ?_) c.arrays
  dsimp only
  rw [hop, hop]

theorem basinWrite_spec (c : Pos) (off tag : Nat) (bs : List Byte) : (basinWrite c off tag bs).basin = mapSetList 0#8 c.basin off bs ∧
    (basinWrite c off tag bs).groups = c.groups ∧ (basinWrite c off tag bs).nextMem = c.nextMem ∧ unlogged (basinWrite c off tag bs) = unlogged c := by
  unfold basinWrite
  split
  next h =>
    rw [List.isEmpty_iff.mp h]
    exact ⟨rfl, rfl, rfl, rfl⟩
  next =>
    refine ⟨rfl, rfl, rfl, ?_⟩
    exact unlogged_logWrite c goneSlot { basin := true, off := off, data := bs }

/-- The offset in staging memory, and in the own Basins, of a place. -/
def stagingOff : Where → Option Nat
  | .staging off => some off
  | _ => none

def basinOff : Where → Option Nat
  | .basin off => some off
  | _ => none

/-- The writes that fall where `off` says, at the offsets there. -/
def writesIn (off : Where → Option Nat) (place : Nat → Where) (ws : List (Nat × List Byte)) : List (Nat × List Byte) :=
  ws.filterMap (fun w => (off (place w.1)).map (fun o => (o, w.2)))

theorem writesIn_cons (off : Where → Option Nat) (place : Nat → Where) (w : Nat × List Byte) (ws : List (Nat × List Byte)) :
    writesIn off place (w :: ws) = match off (place w.1) with
      | some o => (o, w.2) :: writesIn off place ws
      | none => writesIn off place ws := by
  unfold writesIn
  rw [List.filterMap_cons]
  cases off (place w.1) <;> rfl

theorem mem_writesIn {off : Where → Option Nat} {place : Nat → Where} {ws : List (Nat × List Byte)} {x : Nat × List Byte} :
    x ∈ writesIn off place ws ↔ ∃ w ∈ ws, off (place w.1) = some x.1 ∧ w.2 = x.2 := by
  unfold writesIn
  simp only [List.mem_filterMap, Option.map_eq_some_iff]
  constructor
  · rintro ⟨w, hw, o, ho, rfl⟩
    exact ⟨w, hw, ho, rfl⟩
  · rintro ⟨w, hw, ho, he⟩
    exact ⟨w, hw, x.1, ho, by rw [he]⟩

theorem foldl_stgWrite (place : Nat → Where) (ws : List (Nat × List Byte)) (t : Sparse Byte) : ws.foldl (fun t w => match place w.1 with
      | .staging off => stgWrite t off w.2
      | _ => t) t = putAll t (writesIn stagingOff place ws) := by
  induction ws generalizing t with
  | nil => rfl
  | cons w ws ih =>
    rw [List.foldl_cons, ih, writesIn_cons]
    cases place w.1 <;> rfl

/-- One lane's write, as the position takes it. -/
def posWrite (g tag : Nat) (place : Nat → Where) (c : Pos) (w : Nat × List Byte) : Pos :=
  match place w.1 with
  | .basin off => basinWrite c off tag w.2
  | .staging off => logWrite c g { basin := false, off := off, data := w.2 }
  | _ => c

theorem foldl_posWrite (g tag : Nat) (place : Nat → Where) (ws : List (Nat × List Byte)) (c : Pos) : let d := ws.foldl (posWrite g tag place) c
    d.basin = putAll c.basin (writesIn basinOff place ws) ∧ d.groups = c.groups ∧ d.nextMem = c.nextMem ∧ unlogged d = unlogged c := by
  induction ws generalizing c with
  | nil => exact ⟨rfl, rfl, rfl, rfl⟩
  | cons w ws ih =>
    obtain ⟨hbasin, hgroups, hnext, hlog⟩ := ih (posWrite g tag place c w)
    have hone : (posWrite g tag place c w).basin = (match basinOff (place w.1) with
          | some o => mapSetList 0#8 c.basin o w.2
          | none => c.basin) ∧
        (posWrite g tag place c w).groups = c.groups ∧ (posWrite g tag place c w).nextMem = c.nextMem ∧ unlogged (posWrite g tag place c w) = unlogged c := by
      unfold posWrite
      cases place w.1 with
      | basin off => exact basinWrite_spec c off tag w.2
      | staging off => exact ⟨rfl, rfl, rfl, unlogged_logWrite c g _⟩
      | slot off => exact ⟨rfl, rfl, rfl, rfl⟩
      | home => exact ⟨rfl, rfl, rfl, rfl⟩
      | peer d => exact ⟨rfl, rfl, rfl, rfl⟩
      | bad k => exact ⟨rfl, rfl, rfl, rfl⟩
    obtain ⟨hb, hg, hn, hl⟩ := hone
    refine ⟨?_, hgroups.trans hg, hnext.trans hn, hlog.trans hl⟩
    show (ws.foldl (posWrite g tag place) (posWrite g tag place c w)).basin = _
    rw [hbasin, hb, writesIn_cons]
    cases basinOff (place w.1) <;> rfl

/-! ### The read-only cache (R102) -/

/-- A position but for the read-only cache and its groups. -/
def Pos.cached (c : Pos) : Pos := { c with ro := [], groups := [] }

theorem foldl_roInvalidate (as : List Nat) (c : Pos) : (as.foldl roInvalidate c).cached = c.cached ∧
    ∀ h, (mapGet none (as.foldl roInvalidate c).groups h).map Group.unmarked = (mapGet none c.groups h).map Group.unmarked := by
  refine ⟨foldl_keeps Pos.cached (f := roInvalidate) as (fun _ _ _ => rfl) c, fun h => ?_⟩
  refine foldl_keeps (fun d : Pos => (mapGet none d.groups h).map Group.unmarked) as (fun d a _ => ?_) c
  unfold roInvalidate
  refine mapGet_map_keeps (Option.map Group.unmarked) (fun o => ?_) none d.groups h
  rw [Option.map_map]
  refine congrArg (fun f => Option.map f o) (funext fun gr => ?_)
  unfold Group.unmarked
  simp only [Function.comp_apply, List.map_map]
  congr 1
  refine List.map_congr_left fun m _ => ?_
  simp only [Function.comp_apply]
  split <;> rfl

/-! ### The start of a store -/

/-- The stores that go to home slices, by local address. -/
def homeWrites (s : State) (p : Nat) (gr : Group) (m : MemOp) : List (Nat × List Byte) :=
  ((storeWrites s m).filter (fun w => whereIs s p gr true w.1 == .home)).map (fun w => (addrLocal w.1, w.2))

/-- The packets to each peer that the lanes' addresses name. -/
def peerWrites (s : State) (m : MemOp) (cls : Nat) : List (Nat × List Packet) :=
  (peersNamed s ((storeWrites s m).map (·.1))).map (fun d =>
    (d, writePackets s d cls (((storeWrites s m).filter (fun w => addrDevice w.1 == d)).map (fun w => (addrLocal w.1, w.2)))))

/-- A store whose addresses have been looked at. -/
def sentStore (s : State) (p : Nat) (gr : Group) (m : MemOp) (cls : Nat) : MemOp :=
  let sizes := ((peerWrites s m cls).flatMap (·.2)).map (fun q => q.sectors + 1)
  { m with need := sectorsOf ((homeWrites s p gr m).map (·.1)) ++ packetKeys 0 sizes.length, sizes := sizes }

/-- The position when the lanes' stores have been applied. -/
def storedPos (s : State) (p g : Nat) (gr : Group) (m : MemOp) : Pos :=
  (storeWrites s m).foldl (posWrite g (taskTag s gr.slot) (whereIs s p gr true))
    (chanAdd s (chanBlocks ((storeWrites s m).map (fun w => whereIs s p gr true w.1))) (((storeWrites s m).map (·.1)).foldl roInvalidate (getPos s p)))

/-- The device when the core has done its part of a store. -/
def storedHere (s : State) (p g : Nat) (gr : Group) (m : MemOp) (cls : Nat) : State :=
  putMem (modGroup (setPos { s with free := s.free + 1 } p (storedPos s p g gr m)) p g (fun x =>
    { x with stg := putAll gr.stg (writesIn stagingOff (whereIs s p gr true) (storeWrites s m)) })) p g (sentStore s p gr m cls)

/-- A store's request to the home slice of a sector. -/
def storeReq (s : State) (p g : Nat) (gr : Group) (m : MemOp) (cls k : Nat) : Req :=
  { origin := .core p g m.id, cls := cls, sector := k, wtag := taskTag s gr.slot,
    op := .write (blockWrite 32 k (homeWrites s p gr m)).1 (blockWrite 32 k (homeWrites s p gr m)).2 }

theorem startStore_eq (s : State) (p g : Nat) (gr : Group) (m : MemOp) (cls : Nat) : startStore s p g gr m cls =
    if ((peerWrites s m cls).flatMap (fun e => coreReqs p g m.id gr.slot e.1 e.2)).isEmpty then
      (sectorsOf ((homeWrites s p gr m).map (·.1))).foldl (fun st k => sendReq st (storeReq s p g gr m cls k)) (storedHere s p g gr m cls)
    else peerRequests ((sectorsOf ((homeWrites s p gr m).map (·.1))).foldl (fun st k => sendReq st (storeReq s p g gr m cls k)) (storedHere s p g gr m cls))
      ((peerWrites s m cls).flatMap (fun e => coreReqs p g m.id gr.slot e.1 e.2)) := by
  unfold storedHere
  rw [← foldl_stgWrite]
  rfl

theorem sends_startStore (s : State) (p g : Nat) (gr : Group) (m : MemOp) (cls : Nat) :
    Sends (storedHere s p g gr m cls) (startStore s p g gr m cls) := by
  rw [startStore_eq]
  exact sends_all (storedHere s p g gr m cls) _ (fun _ k => storeReq s p g gr m cls k) _

theorem storedPos_spec (s : State) (p g : Nat) (gr : Group) (m : MemOp) :
    (storedPos s p g gr m).basin = putAll (getPos s p).basin (writesIn basinOff (whereIs s p gr true) (storeWrites s m)) ∧
      (storedPos s p g gr m).nextMem = (getPos s p).nextMem ∧ unlogged (storedPos s p g gr m) = unlogged (getPos s p) ∧
      ∀ h, (mapGet none (storedPos s p g gr m).groups h).map Group.unmarked = (getGroup s p h).map Group.unmarked := by
  obtain ⟨hcached, hgroups⟩ := foldl_roInvalidate ((storeWrites s m).map (·.1)) (getPos s p)
  obtain ⟨hb, hg, hn, hl⟩ := foldl_posWrite g (taskTag s gr.slot) (whereIs s p gr true) (storeWrites s m)
    (chanAdd s (chanBlocks ((storeWrites s m).map (fun w => whereIs s p gr true w.1))) (((storeWrites s m).map (·.1)).foldl roInvalidate (getPos s p)))
  have hbasin : (((storeWrites s m).map (·.1)).foldl roInvalidate (getPos s p)).basin = (getPos s p).basin := (congrArg Pos.basin hcached : _)
  have harrays : (((storeWrites s m).map (·.1)).foldl roInvalidate (getPos s p)).arrays = (getPos s p).arrays := (congrArg Pos.arrays hcached : _)
  have hnext : (((storeWrites s m).map (·.1)).foldl roInvalidate (getPos s p)).nextMem = (getPos s p).nextMem := (congrArg Pos.nextMem hcached : _)
  refine ⟨hb.trans ?_, hn.trans hnext, hl.trans (unlogged_congr harrays), fun h => ?_⟩
  · rw [← hbasin]
    rfl
  · rw [show (storedPos s p g gr m).groups = (((storeWrites s m).map (·.1)).foldl roInvalidate (getPos s p)).groups from hg]
    exact hgroups h

/-- Positions that agree but for their groups. -/
theorem basin_nextMem_of_groups {c d : Pos} (h : { c with groups := [] } = { d with groups := [] }) : c.basin = d.basin ∧ c.nextMem = d.nextMem :=
  ⟨(congrArg Pos.basin h : _), (congrArg Pos.nextMem h : _)⟩

/-- A store's start applies its lanes' writes in the core, and keeps the instruction on the list while its sectors are sent. -/
theorem startStore_spec {s : State} {p g : Nat} {gr : Group} (hg : getGroup s p g = some gr) (m : MemOp) (cls : Nat) : ∃ g1 : Group,
    getGroup (startStore s p g gr m cls) p g = some { g1 with mem := replaceMem g1.mem (sentStore s p gr m cls) } ∧
      g1.unmarked = { gr with stg := g1.stg }.unmarked ∧
      g1.stg = putAll gr.stg (writesIn stagingOff (whereIs s p gr true) (storeWrites s m)) ∧
      (getPos (startStore s p g gr m cls) p).basin = putAll (getPos s p).basin (writesIn basinOff (whereIs s p gr true) (storeWrites s m)) ∧
      (getPos (startStore s p g gr m cls) p).nextMem = (getPos s p).nextMem ∧ MemFrame s (startStore s p g gr m cls) p g := by
  obtain ⟨hbasin, hnext, hlog, hgroups⟩ := storedPos_spec s p g gr m
  obtain ⟨hcores, hframe⟩ := sends_startStore s p g gr m cls
  obtain ⟨u, hu⟩ : ∃ u, setPos { s with free := s.free + 1 } p (storedPos s p g gr m) = u := ⟨_, rfl⟩
  have hpos : getPos u p = storedPos s p g gr m := by
    rw [← hu, getPos_setPos_same]
  have hframe' : MemFrame s u p g := by
    obtain ⟨v, hv⟩ : ∃ v : State, { s with free := s.free + 1 } = v := ⟨_, rfl⟩
    have hcores : v.cores = s.cores := by rw [← hv]
    have hfree : MemFrame s v p g := by
      rw [← hv]
      exact memFrame_free s _ p g
    rw [← hu, hv]
    exact hfree.trans (memFrame_setPos (fun k => by rw [getGroup_of_cores hcores]; exact hgroups k) (by rw [getPos_of_cores hcores]; exact hlog))
  obtain ⟨gr', hgr', hmark⟩ : ∃ gr', getGroup u p g = some gr' ∧ gr'.unmarked = gr.unmarked := by
    have h := hgroups g
    rw [← hpos, hg, Option.map_some, Option.map_eq_some_iff] at h
    unfold getGroup
    exact h
  obtain ⟨stg, hstg⟩ : ∃ stg, putAll gr.stg (writesIn stagingOff (whereIs s p gr true) (storeWrites s m)) = stg := ⟨_, rfl⟩
  have hmod : modGroup u p g (fun x => { x with stg := stg }) = setGroup u p g (some { gr' with stg := stg }) := by
    unfold modGroup
    rw [hgr']
    rfl
  have hgroup : getGroup (modGroup u p g (fun x => { x with stg := stg })) p g = some { gr' with stg := stg } := by
    rw [hmod, getGroup_setGroup_same]
  have hput := putMem_eq hgroup (sentStore s p gr m cls)
  have hhere : storedHere s p g gr m cls = putMem (modGroup u p g (fun x => { x with stg := stg })) p g (sentStore s p gr m cls) := by
    unfold storedHere
    rw [hu, hstg]
  have hset : { getPos (storedHere s p g gr m cls) p with groups := [] } = { storedPos s p g gr m with groups := [] } := by
    rw [hhere, hput, setGroup_position, hmod, setGroup_position, hpos]
  obtain ⟨hbasin', hnext'⟩ := basin_nextMem_of_groups hset
  refine ⟨{ gr' with stg := stg }, ?_, congrArg (fun x : Group => { x with stg := stg }) hmark, hstg.symm, ?_, ?_, ?_⟩
  · rw [getGroup_of_cores hcores, hhere, hput, getGroup_setGroup_same]
  · rw [getPos_of_cores hcores]
    exact hbasin'.trans hbasin
  · rw [getPos_of_cores hcores]
    exact hnext'.trans hnext
  · refine MemFrame.trans ?_ (hframe p g)
    rw [hhere]
    refine hframe'.trans (MemFrame.trans ?_ (memFrame_putMem _ p g _))
    rw [hmod]
    exact memFrame_setGroup u p g _

end Sys2Proof.Machine
end

section
/-! O18: LD and ST with ordinary addresses, from their issue to what the slices and the peers are asked. -/

namespace Sys2Proof.Machine

/-! ### LD -/

theorem exec_ld {s : State} {p g : Nat} {w : InstrBits} {c : Ctx} (h : Issues s p g 0x30 w (ldForm w) c) (hmod : fMod w ≤ 3) :
    exec (.ld p g w) s = .next (runMem .load (sizeBytes w) (fMod w % 2 == 1) (fMod w == 2 || fMod w == 3) (fun _ => []) refuseBad startLoadEarly c s) := by
  have hrun := issue_runs (fun c st => if 4 ≤ fMod w then runSeq .load (sizeBytes w) (fMod w % 2 == 1) (fun _ => []) c st
      else runMem .load (sizeBytes w) (fMod w % 2 == 1) (fMod w == 2 || fMod w == 3) (fun _ => []) refuseBad startLoadEarly c st) h (by decide)
  rw [if_neg (by omega)] at hrun
  exact congrArg Host.Outcome.next hrun

/-- What a lane's place gives at once is found at issue; the sector of a lane at home or at a peer is waited for. -/
theorem looked_found {s : State} {p : Nat} {gr : Group} {m : MemOp} (halign : ∀ l ∈ m.lanes, l.addr % m.size = 0) {l : LaneAddr} (hl : l ∈ m.lanes)
    (hbytes : m.localBytes = []) :
    (∀ bs, localAt s p gr m.ro m.size l.addr (whereIs s p gr false l.addr) = some bs → ∀ i, i < m.size →
      mapGet 0#8 (looked s p gr m).localBytes (l.addr + i) = bs.getD i 0#8) ∧
    (localAt s p gr m.ro m.size l.addr (whereIs s p gr false l.addr) = none → sectorKey s l.addr ∈ (looked s p gr m).need) := by
  refine ⟨fun bs hbs i hi => ?_, fun hnone => ?_⟩
  · unfold looked
    rw [hbytes]
    exact mapGet_foundWrites halign hl hbs hi
  · unfold looked farLanes foundAt
    refine List.mem_dedup.mpr (List.mem_map_of_mem (List.mem_map.mpr ⟨(l.addr, none), List.mem_filter.mpr ⟨?_, rfl⟩, rfl⟩))
    exact List.mem_map.mpr ⟨l, hl, by rw [hnone]⟩

theorem whereIs_home {s : State} {p : Nat} {gr : Group} {write : Bool} {a : Nat} (h : whereIs s p gr write a = .home) : addrDevice a = s.pool.device := by
  by_contra hne
  unfold whereIs at h
  dsimp only at h
  rw [if_pos hne] at h
  split at h
  · cases h
  · split at h <;> cases h

theorem whereIs_peer {s : State} {p : Nat} {gr : Group} {write : Bool} {a d : Nat} (h : whereIs s p gr write a = .peer d) : addrDevice a ≠ s.pool.device := by
  intro heq
  unfold whereIs at h
  dsimp only at h
  rw [if_neg (not_not_intro heq)] at h
  split at h
  · split at h <;> cases h
  · split at h
    · split at h <;> cases h
    · split at h
      · rcases basinPlace_cases s (addrLocal a - aliasBasin) with he | he <;> rw [he] at h <;> cases h
      · split at h
        · split at h <;> cases h
        · split at h
          · rename_i k _ _ _
            rcases basinPlace_cases s k with he | he <;> rw [he] at h <;> cases h
          · split at h <;> cases h
        · cases h

/-- What a load finds in each place is what the memories held when it was issued. -/
theorem found_at_issue {s t : State} {c : Ctx} {m : MemOp} {gr : Group} (h : Begun s t c m gr) (hlanes : m.lanes = laneAddrs c) (hbytes : m.localBytes = [])
    (halign : ∀ l ∈ lanesOf c.ex, laneAddr c l % m.size = 0) {lb : Sparse Byte}
    (hidle : engineRuns (getPos t c.p) = false → lb = (looked t c.p gr m).localBytes)
    (hearly : ∀ j, (∀ l ∈ m.lanes, OwnBytes l.addr → ¬(l.addr ≤ j ∧ j < l.addr + m.size)) → mapGet 0#8 lb j = mapGet 0#8 (looked t c.p gr m).localBytes j)
    {l : Nat} (hl : l ∈ lanesOf c.ex) : FoundAtIssue s c { looked t c.p gr m with localBytes := lb } l := by
  have hall : ∀ x ∈ m.lanes, x.addr % m.size = 0 := by
    intro x hx
    rw [hlanes] at hx
    obtain ⟨k, hk, rfl⟩ := List.mem_map.mp hx
    exact halign k hk
  have hmem : (⟨l, laneAddr c l⟩ : LaneAddr) ∈ m.lanes := by
    rw [hlanes]
    exact List.mem_map_of_mem hl
  obtain ⟨hfound, hneed⟩ := looked_found (s := t) (p := c.p) (gr := gr) hall hmem hbytes
  have hruns : engineRuns (getPos t c.p) = engineRuns (getPos s c.p) := (congrArg engineRuns h.position : _)
  have hdev : t.pool.device = s.pool.device := by rw [h.places.1]
  rw [h.whereIs] at hfound hneed
  unfold FoundAtIssue
  cases hw : whereIs s c.p c.gr false (laneAddr c l) with
  | staging off =>
    intro hno i hi
    rw [hw] at hfound
    rw [hidle (hruns.trans hno)]
    exact (hfound _ rfl i hi).trans ((getD_stgBytes hi).trans (by rw [h.stg]))
  | basin off =>
    intro hno i hi
    rw [hw] at hfound
    rw [hidle (hruns.trans hno)]
    have hlen : i < (mapGetList 0#8 (getPos t c.p).basin off m.size).length := by rw [mapGetList_length]; exact hi
    refine (hfound _ rfl i hi).trans ?_
    rw [List.getD_eq_getElem _ _ hlen, getElem_mapGetList, h.basin]
  | slot off =>
    intro i hi
    rw [hw] at hfound
    have hother : ∀ x ∈ m.lanes, OwnBytes x.addr → ¬(x.addr ≤ laneAddr c l + i ∧ laneAddr c l + i < x.addr + m.size) := by
      intro x hx hown hcov
      have hi' : i < m.size := hi
      have haddr := aligned_eq (hall x hx) (halign l hl) hcov ⟨Nat.le_add_right _ _, by omega⟩
      exact not_ownBytes_of_slot hw (haddr ▸ hown)
    refine (hearly _ hother).trans ((hfound _ rfl i hi).trans ((getD_slice hi).trans ?_))
    rw [h.slots]
  | home =>
    intro hro
    rw [hw] at hneed
    have hkey : sectorKey t (laneAddr c l) = addrLocal (laneAddr c l) / 32 := if_pos ((whereIs_home hw).trans hdev.symm)
    rw [← hkey]
    refine hneed ?_
    rw [show m.ro = false from hro]
    rfl
  | peer d =>
    intro hro
    rw [hw] at hneed
    have hkey : sectorKey t (laneAddr c l) = peerKey (laneAddr c l) := if_neg (hdev ▸ whereIs_peer hw)
    rw [← hkey]
    refine hneed ?_
    rw [show m.ro = false from hro]
    rfl
  | bad k => exact trivial

/-- A memory instruction as it begins: its identity is the position's next, its lanes are the executing ones, nothing has come. -/
def Fresh (s : State) (c : Ctx) (kind : MemKind) (size : Nat) (m : MemOp) : Prop :=
  m.id = (getPos s c.p).nextMem ∧ m.kind = kind ∧ m.size = size ∧ m.lanes = laneAddrs c ∧ m.got = []

theorem newMem_fresh (s : State) (c : Ctx) (kind : MemKind) (dst size : Nat) (sext ro : Bool) (kept : Sparse Byte) :
    Fresh s c kind size (newMem c (getPos s c.p).nextMem kind dst size sext ro kept) := ⟨rfl, rfl, rfl, rfl, rfl⟩

/-- A load that has begun and started is outstanding. -/
theorem load_outstanding {s s2 : State} {c : Ctx} {m : MemOp} {gr : Group} (h : Begun s s2 c m gr) {size : Nat} (hm : Fresh s c .load size m)
    (hbytes : m.localBytes = []) (halign : ∀ l ∈ lanesOf c.ex, laneAddr c l % size = 0) {t : State} (ht : startLoadEarly s2 c.p c.g gr m (recClass c.sl.words) = t) :
    MemFrame s t c.p c.g ∧ (getPos t c.p).basin = (getPos s c.p).basin ∧
      ∃ m', Outstanding s t c .load size m' ∧ (∀ gr, getGroup t c.p c.g = some gr → gr.stg = c.gr.stg) ∧
        m'.dst = m.dst ∧ m'.sext = m.sext ∧ m'.ro = m.ro ∧ ∀ l ∈ lanesOf c.ex, FoundAtIssue s c m' l := by
  obtain ⟨hid, hkind, rfl, hlanes, hgot⟩ := hm
  obtain ⟨lb, hgroup, hpos, hframe, hidle, hearly⟩ := startLoadEarly_spec h.group h.mem_last (recClass c.sl.words)
  rw [ht] at hgroup hpos hframe
  have hbasin : (getPos t c.p).basin = (getPos s2 c.p).basin := (congrArg Pos.basin hpos : _)
  have hnext : (getPos t c.p).nextMem = (getPos s2 c.p).nextMem := (congrArg Pos.nextMem hpos : _)
  have hnext' : (getPos s2 c.p).nextMem = m.id + 1 := (congrArg Pos.nextMem h.position : _)
  refine ⟨h.frame.trans hframe, hbasin.trans h.basin, { looked s2 c.p gr m with localBytes := lb },
    h.outstanding hgroup rfl (hnext.trans hnext') hid ⟨rfl, hkind, rfl, hlanes, hgot⟩, fun gr' hgr' => ?_, rfl, rfl, rfl,
    fun l hl => found_at_issue h hlanes hbytes halign hidle hearly hl⟩
  rw [hgroup] at hgr'
  obtain rfl := Option.some.inj hgr'
  exact h.stg

/-- The statement's part on LD. -/
theorem ld_issues {s : State} {p g : Nat} {w : InstrBits} {c : Ctx} (hex : c.ex ≠ 0#32) (h : Issues s p g 0x30 w (ldForm w) c) (hmod : fMod w ≤ 3)
    (hfree : MemFree s c false (fMod w == 2 || fMod w == 3)) : ∃ t, exec (.ld p g w) s = .next t ∧
      ((∃ l ∈ lanesOf c.ex, laneAddr c l % sizeBytes w ≠ 0) → FaultedWith s t c Code.misalignedAccess) ∧
      (AllPlaced s c false (sizeBytes w) → MemFrame s t p g ∧ (getPos t p).basin = (getPos s p).basin ∧
        ∃ m, Outstanding s t c .load (sizeBytes w) m ∧ (∀ gr, getGroup t p g = some gr → gr.stg = c.gr.stg) ∧
          m.dst = fDst w ∧ m.sext = (fMod w % 2 == 1) ∧ m.ro = (fMod w == 2 || fMod w == 3) ∧
          ∀ l ∈ lanesOf c.ex, FoundAtIssue s c m l) := by
  obtain ⟨rfl, rfl, rfl, -, -⟩ := readyGroup_spec h.1
  refine ⟨_, exec_ld h hmod, fun hmis => ?_, fun hplaced => ?_⟩
  · obtain ⟨a, ha⟩ := runMem_misaligned (kind := .load) (refuse := refuseBad) (sext := fMod c.w % 2 == 1) (kept := fun _ => [])
      (start := startLoadEarly) hex hfree hmis
    rw [ha]
    exact faultAt_faulted h.1 _ a
  · obtain ⟨s2, gr, hbegun, hrun⟩ := runMem_begins (kind := .load) (sext := fMod c.w % 2 == 1) (kept := fun _ => []) (start := startLoadEarly)
      hex hfree hplaced
    exact load_outstanding hbegun (newMem_fresh s c .load _ _ _ _ _) rfl (fun k hk => (hplaced k hk).1) hrun.symm

/-! ### ST -/

theorem exec_st {s : State} {p g : Nat} {w : InstrBits} {c : Ctx} (h : Issues s p g 0x31 w (stForm w) c) (hmod : fMod w = 0) :
    exec (.st p g w) s = .next (runMem .store (sizeBytes w) false false (keptStore (sizeBytes w)) refuseBad startStore c s) := by
  have hrun := issue_runs (fun c st => if fMod w = 4 then runSeq .store (sizeBytes w) false (keptStore (sizeBytes w)) c st
      else runMem .store (sizeBytes w) false false (keptStore (sizeBytes w)) refuseBad startStore c st) h (by decide)
  rw [if_neg (by omega)] at hrun
  exact congrArg Host.Outcome.next hrun

/-- The lanes' writes that fall where `off` says, at the offsets of the statement's `at_`. -/
theorem mem_writesIn_storeWrites {s t : State} {c : Ctx} {m : MemOp} {gr : Group} (h : Begun s t c m gr) (hlanes : m.lanes = laneAddrs c)
    (off : Where → Option Nat) {x : Nat × List Byte} : x ∈ writesIn off (whereIs t c.p gr true) (storeWrites t m) ↔
      ∃ l ∈ lanesOf c.ex, off (whereIs s c.p c.gr true (laneAddr c l)) = some x.1 ∧ keptBytes m l m.size = x.2 := by
  rw [mem_writesIn]
  constructor
  · rintro ⟨w, hw, ho, he⟩
    obtain ⟨k, hk, rfl⟩ := mem_storeWrites.mp hw
    rw [hlanes] at hk
    obtain ⟨l, hl, rfl⟩ := List.mem_map.mp hk
    rw [h.whereIs] at ho
    exact ⟨l, hl, ho, he⟩
  · rintro ⟨l, hl, ho, he⟩
    refine ⟨(laneAddr c l, keptBytes m l m.size), mem_storeWrites.mpr ⟨⟨l, laneAddr c l⟩, ?_, rfl⟩, ?_, he⟩
    · rw [hlanes]
      exact List.mem_map_of_mem hl
    · rw [h.whereIs]
      exact ho

/-- The bytes of a memory after a store: inside the lanes' stores as some covering lane stored them, outside as before. -/
theorem stored_bytes {s t : State} {c : Ctx} {m : MemOp} {gr : Group} (h : Begun s t c m gr) (hlanes : m.lanes = laneAddrs c)
    {size : Nat} (hsize : IsSize size) (hms : m.size = size) (hkept : m.localBytes = keptStore size c) (off : Where → Option Nat) (old : Sparse Byte) (j : Nat) :
    (Covered c size (fun l => off (whereIs s c.p c.gr true (laneAddr c l))) j →
      StoredAt c size (fun l => off (whereIs s c.p c.gr true (laneAddr c l))) j (mapGet 0#8 (putAll old (writesIn off (whereIs t c.p gr true) (storeWrites t m))) j)) ∧
    (¬Covered c size (fun l => off (whereIs s c.p c.gr true (laneAddr c l))) j →
      mapGet 0#8 (putAll old (writesIn off (whereIs t c.p gr true) (storeWrites t m))) j = mapGet 0#8 old j) := by
  have hmem := fun x => mem_writesIn_storeWrites h hlanes off (x := x)
  have hlen : ∀ l ∈ lanesOf c.ex, (keptBytes m l m.size).length = size := fun l hl => by
    rw [hms]
    exact (keptBytes_spec hsize hkept hl).1
  constructor
  · rintro ⟨l, hl, o, ho, hle, hlt⟩
    have hcov : ∃ w ∈ writesIn off (whereIs t c.p gr true) (storeWrites t m), Covers w j :=
      ⟨(o, keptBytes m l m.size), (hmem _).mpr ⟨l, hl, ho, rfl⟩, hle, by show j < o + (keptBytes m l m.size).length; rw [hlen l hl]; exact hlt⟩
    obtain ⟨x, hx, ⟨hxle, hxlt⟩, hval⟩ := mapGet_putAll_in old _ hcov
    obtain ⟨k, hk, hko, hkb⟩ := (hmem x).mp hx
    rw [← hkb, hlen k hk] at hxlt
    refine ⟨k, hk, x.1, hko, hxle, hxlt, ?_⟩
    rw [hval, ← hkb, hms]
    exact (keptBytes_spec hsize hkept hk).2 _ (by omega)
  · intro hnot
    refine mapGet_putAll_out old _ fun x hx ⟨hxle, hxlt⟩ => ?_
    obtain ⟨k, hk, hko, hkb⟩ := (hmem x).mp hx
    rw [← hkb, hlen k hk] at hxlt
    exact hnot ⟨k, hk, x.1, hko, hxle, hxlt⟩

theorem stagingAt_eq (s : State) (c : Ctx) : stagingAt s c = fun l => stagingOff (whereIs s c.p c.gr true (laneAddr c l)) := by
  funext l
  unfold stagingAt stagingOff
  rfl

theorem ownBasinAt_eq (s : State) (c : Ctx) : ownBasinAt s c = fun l => basinOff (whereIs s c.p c.gr true (laneAddr c l)) := by
  funext l
  unfold ownBasinAt basinOff
  rfl

theorem div_mem_sectorsOf {as : List Nat} {a : Nat} (h : a ∈ as) : a / 32 ∈ sectorsOf as := by
  unfold sectorsOf
  rw [List.mem_insertionSort, List.mem_dedup]
  exact List.mem_map_of_mem h

/-- A store that has begun and started is outstanding, and has written in the core what its lanes store there. -/
theorem store_outstanding {s s2 : State} {c : Ctx} {m : MemOp} {gr : Group} (h : Begun s s2 c m gr) {size : Nat} (hsize : IsSize size)
    (hm : Fresh s c .store size m) (hkept : m.localBytes = keptStore size c) {t : State} (ht : startStore s2 c.p c.g gr m (recClass c.sl.words) = t) :
    MemFrame s t c.p c.g ∧ ∃ m gr, Outstanding s t c .store size m ∧ getGroup t c.p c.g = some gr ∧
      (∀ off, (Covered c size (stagingAt s c) off → StoredAt c size (stagingAt s c) off (stgByte gr.stg off)) ∧
        (¬Covered c size (stagingAt s c) off → stgByte gr.stg off = stgByte c.gr.stg off)) ∧
      (∀ off, (Covered c size (ownBasinAt s c) off → StoredAt c size (ownBasinAt s c) off (mapGet 0#8 (getPos t c.p).basin off)) ∧
        (¬Covered c size (ownBasinAt s c) off → mapGet 0#8 (getPos t c.p).basin off = mapGet 0#8 (getPos s c.p).basin off)) ∧
      (∀ l ∈ lanesOf c.ex, whereIs s c.p c.gr true (laneAddr c l) = .home → addrLocal (laneAddr c l) / 32 ∈ m.need) := by
  obtain ⟨hid, hkind, hms, hlanes, hgot⟩ := hm
  obtain ⟨g1, hgroup, hmark, hstg, hbasin, hnext, hframe⟩ := startStore_spec h.group m (recClass c.sl.words)
  rw [ht] at hgroup hbasin hnext hframe
  have hnext' : (getPos s2 c.p).nextMem = m.id + 1 := (congrArg Pos.nextMem h.position : _)
  refine ⟨h.frame.trans hframe, sentStore s2 c.p gr m (recClass c.sl.words), _,
    h.outstanding hgroup hmark (hnext.trans hnext') hid ⟨rfl, hkind, hms, hlanes, hgot⟩, hgroup, fun off => ?_, fun off => ?_, fun l hl hhome => ?_⟩
  · rw [stagingAt_eq]
    show (_ → StoredAt c size _ off (stgByte g1.stg off)) ∧ (_ → stgByte g1.stg off = _)
    rw [hstg, ← h.stg]
    exact stored_bytes h hlanes hsize hms hkept stagingOff gr.stg off
  · rw [ownBasinAt_eq, hbasin, ← h.basin]
    exact stored_bytes h hlanes hsize hms hkept basinOff (getPos s2 c.p).basin off
  · unfold sentStore
    refine List.mem_append_left _ (div_mem_sectorsOf ?_)
    rw [← h.whereIs] at hhome
    refine List.mem_map.mpr ⟨(addrLocal (laneAddr c l), keptBytes m l m.size), List.mem_map.mpr ⟨(laneAddr c l, keptBytes m l m.size), ?_, rfl⟩, rfl⟩
    refine List.mem_filter.mpr ⟨mem_storeWrites.mpr ⟨⟨l, laneAddr c l⟩, ?_, rfl⟩, beq_iff_eq.mpr hhome⟩
    rw [hlanes]
    exact List.mem_map_of_mem hl

/-- The statement's part on ST. -/
theorem st_issues {s : State} {p g : Nat} {w : InstrBits} {c : Ctx} (hex : c.ex ≠ 0#32) (h : Issues s p g 0x31 w (stForm w) c) (hmod : fMod w = 0)
    (hfree : MemFree s c true false) : ∃ t, exec (.st p g w) s = .next t ∧
      ((∃ l ∈ lanesOf c.ex, laneAddr c l % sizeBytes w ≠ 0) → FaultedWith s t c Code.misalignedAccess) ∧
      (AllPlaced s c true (sizeBytes w) → MemFrame s t p g ∧ ∃ m gr, Outstanding s t c .store (sizeBytes w) m ∧ getGroup t p g = some gr ∧
        (∀ off, (Covered c (sizeBytes w) (stagingAt s c) off → StoredAt c (sizeBytes w) (stagingAt s c) off (stgByte gr.stg off)) ∧
          (¬Covered c (sizeBytes w) (stagingAt s c) off → stgByte gr.stg off = stgByte c.gr.stg off)) ∧
        (∀ off, (Covered c (sizeBytes w) (ownBasinAt s c) off →
            StoredAt c (sizeBytes w) (ownBasinAt s c) off (mapGet 0#8 (getPos t p).basin off)) ∧
          (¬Covered c (sizeBytes w) (ownBasinAt s c) off → mapGet 0#8 (getPos t p).basin off = mapGet 0#8 (getPos s p).basin off)) ∧
        (∀ l ∈ lanesOf c.ex, whereIs s p c.gr true (laneAddr c l) = .home → addrLocal (laneAddr c l) / 32 ∈ m.need)) := by
  obtain ⟨rfl, rfl, rfl, -, -⟩ := readyGroup_spec h.1
  have hsize : fSize c.w ≤ 4 := by
    have hvalid := h.2.2.1
    unfold stForm at hvalid
    simp only [Bool.and_eq_true, decide_eq_true_eq] at hvalid
    exact hvalid.1.2
  refine ⟨_, exec_st h hmod, fun hmis => ?_, fun hplaced => ?_⟩
  · obtain ⟨a, ha⟩ := runMem_misaligned (kind := .store) (refuse := refuseBad) (sext := false) (kept := keptStore (sizeBytes c.w))
      (start := startStore) hex hfree hmis
    rw [ha]
    exact faultAt_faulted h.1 _ a
  · obtain ⟨s2, gr, hbegun, hrun⟩ := runMem_begins (kind := .store) (sext := false) (kept := keptStore (sizeBytes c.w)) (start := startStore)
      hex hfree hplaced
    exact store_outstanding hbegun (isSize_sizeBytes hsize) (newMem_fresh s c .store _ _ _ _ _) rfl hrun.symm

/-- Settles O18: the group that issues puts the instruction on its list; a load keeps what its lanes' places hold, writes at aligned
addresses, and a store's bytes are those of the last lane that covers a place. -/
theorem loadsAndStoresIssue : Obligations.LoadsAndStoresIssue := by
  unfold Obligations.LoadsAndStoresIssue
  exact fun s p g w c hex => ⟨fun h hmod hfree => ld_issues hex h hmod hfree, fun h hmod hfree => st_issues hex h hmod hfree⟩

end Sys2Proof.Machine
end

section
/-! SUPPORT. The invariant, read off a state that leaves alone what it speaks of; through conditionals, options and folds;
and what it is for a command to keep it. -/

namespace Sys2Proof.Machine

/-- A state that agrees with one that meets the invariant on all that it speaks of meets it too. -/
theorem Inv.same {s t : State} (h : Inv s) (hmem : t.reservoir.mem = s.reservoir.mem := by rfl)
    (hslots : t.fountain.slots = s.fountain.slots := by rfl) (hseqs : t.sluice.seqs = s.sluice.seqs := by rfl)
    (hrom : t.boot.romBytes = s.boot.romBytes := by rfl) (hkeys : t.boot.rootKeys = s.boot.rootKeys := by rfl)
    (hrev : t.boot.siliconRev = s.boot.siliconRev := by rfl) (hring : t.keeper.ring = s.keeper.ring := by rfl)
    (hdefects : t.flash.defects = s.flash.defects := by rfl) (hsigs : t.flash.signatures = s.flash.signatures := by rfl) :
    Inv t :=
  ⟨hmem ▸ h.memory, hslots ▸ h.slots, hseqs ▸ h.seqs, hrom ▸ hkeys ▸ hrev ▸ h.rom, hring ▸ h.ring, hdefects ▸ h.defects,
    hsigs ▸ h.signatures⟩

/-- The parts of the state that the invariant does not speak of may change at will. -/
theorem Inv.frame {s : State} {pending : List Instr} {free : Nat} {out : List Out} {time : Time} {power : Power} {cores : Sparse Pos}
    {cistern : Cistern} {links : Sparse Link} {pool : Pool} {port : Port} (h : Inv s) :
    Inv { s with pending := pending, free := free, out := out, time := time, power := power, cores := cores, cistern := cistern,
                 links := links, pool := pool, port := port } := { h with }

theorem Inv.withBoot {s : State} {b : Boot} (h : Inv s) (hrom : b.romBytes = s.boot.romBytes := by rfl)
    (hkeys : b.rootKeys = s.boot.rootKeys := by rfl) (hrev : b.siliconRev = s.boot.siliconRev := by rfl) : Inv { s with boot := b } :=
  { h with rom := hrom ▸ hkeys ▸ hrev ▸ h.rom }

theorem Inv.withFlash {s : State} {f : Flash} (h : Inv s) (hdefects : f.defects = s.flash.defects := by rfl)
    (hsigs : f.signatures = s.flash.signatures := by rfl) : Inv { s with flash := f } :=
  { h with defects := hdefects ▸ h.defects, signatures := hsigs ▸ h.signatures }

theorem Inv.withKeeper {s : State} {k : Keeper} (h : Inv s) (hring : k.ring = s.keeper.ring := by rfl) : Inv { s with keeper := k } :=
  { h with ring := hring ▸ h.ring }

theorem Inv.withFountain {s : State} {f : Fountain} (h : Inv s) (hslots : f.slots = s.fountain.slots := by rfl) : Inv { s with fountain := f } :=
  { h with slots := hslots ▸ h.slots }

theorem Inv.withReservoir {s : State} {r : Reservoir} (h : Inv s) (hmem : r.mem = s.reservoir.mem := by rfl) : Inv { s with reservoir := r } :=
  { h with memory := hmem ▸ h.memory }

theorem Inv.withSluice {s : State} {u : Sluice} (h : Inv s) (hseqs : u.seqs = s.sluice.seqs := by rfl) : Inv { s with sluice := u } :=
  { h with seqs := hseqs ▸ h.seqs }

/-- The command answers a next state, and that meets the invariant. -/
def KeepsInv (o : Host.Outcome State Fault Refusal) : Prop := ∃ t, o = .next t ∧ Inv t

variable {s : State}

protected theorem KeepsInv.next (h : Inv s) : KeepsInv (.next s) := ⟨s, rfl, h⟩

theorem Inv.next (h : Inv s) : KeepsInv (.next s) := ⟨s, rfl, h⟩

theorem Inv.ite {t : State} {c : Prop} [Decidable c] (hs : Inv s) (ht : Inv t) : Inv (if c then s else t) := by
  split <;> assumption

theorem KeepsInv.ite {a b : Host.Outcome State Fault Refusal} {c : Prop} [Decidable c] (ha : KeepsInv a) (hb : KeepsInv b) :
    KeepsInv (if c then a else b) := by
  split <;> assumption

/-- What holds of every image holds of what an option is mapped to. -/
theorem forall_mem_map {α β : Type} {P : β → Prop} {o : Option α} {f : α → β} (h : ∀ a ∈ o, P (f a)) : ∀ b ∈ o.map f, P b := by
  intro b hb
  obtain ⟨a, ha, rfl⟩ := Option.mem_map.1 hb
  exact h a ha

theorem Inv.bind {α : Type} {o : Option α} {f : α → Option State} (h : ∀ a ∈ o, ∀ t ∈ f a, Inv t) : ∀ t ∈ o.bind f, Inv t := by
  intro t ht
  obtain ⟨a, ha, hta⟩ := Option.bind_eq_some_iff.1 ht
  exact h a ha t hta

theorem Inv.getD {o : Option State} (h : Inv s) (ho : ∀ t ∈ o, Inv t) : Inv (o.getD s) := by
  cases o with
  | none => exact h
  | some t => exact ho t rfl

theorem Inv.ite_fst {α : Type} {t : State} {x y : α} {c : Prop} [Decidable c] (hs : Inv s) (ht : Inv t) :
    Inv (if c then (s, x) else (t, y)).1 := by
  split <;> assumption

theorem Inv.ite_snd {α : Type} {t : State} {x y : α} {c : Prop} [Decidable c] (hs : Inv s) (ht : Inv t) :
    Inv (if c then (x, s) else (y, t)).2 := by
  split <;> assumption

theorem Inv.when {t : State} {c : Prop} [Decidable c] (h : Inv s) (ht : Inv s → Inv t) : Inv (if c then t else s) := .ite (ht h) h

theorem Inv.unless {t : State} {c : Prop} [Decidable c] (h : Inv s) (ht : Inv s → Inv t) : Inv (if c then s else t) := .ite h (ht h)

/-- A fold that carries a state keeps the invariant of it where each of its steps does. -/
theorem Inv.foldl_on {α β : Type} (state : β → State) {f : β → α → β} {xs : List α} {b : β} (h : Inv (state b))
    (hf : ∀ b x, Inv (state b) → Inv (state (f b x))) : Inv (state (xs.foldl f b)) := by
  induction xs generalizing b with
  | nil => exact h
  | cons x xs ih => exact ih (hf b x h)

theorem Inv.foldl {α : Type} {f : State → α → State} {xs : List α} (h : Inv s) (hf : ∀ t x, Inv t → Inv (f t x)) : Inv (xs.foldl f s) :=
  Inv.foldl_on id h hf

end Sys2Proof.Machine
end

section
/-! SUPPORT. The functions of the model's files Ops, Task, Rill, Signal, Check, Home and Report
keep the invariant, each by those that it is made of. -/

namespace Sys2Proof.Machine

-- One theorem after another: elaborated side by side, each holds a thread of its own.
set_option Elab.async false

variable {s : State}

/-! ### Machine/Ops.lean -/

protected theorem Inv.takeFree (h : Inv s) : Inv (takeFree s).2 := h.same

protected theorem Inv.emit {o : Out} (h : Inv s) : Inv (emit s o) := h.same

protected theorem Inv.setObj {k v : Nat} (h : Inv s) : Inv (setObj s k v) := h.same

protected theorem Inv.bump {k n : Nat} (h : Inv s) : Inv (bump s k n) := h.setObj

protected theorem Inv.setBytes {k : Nat} {v : List Byte} (h : Inv s) : Inv (setBytes s k v) := h.same

protected theorem Inv.pushEvent {e : Event} {always : Bool} (h : Inv s) : Inv (pushEvent s e always) := by
  have hpushed {k : Keeper} (hk : k.ring.length ≤ 1024) : Inv { s with keeper := k } := { h with ring := hk }
  unfold pushEvent
  exact .ite (hpushed (List.length_take_le ..)).emit.bump ((hpushed (List.length_take_le ..)).when fun h => h.bump)

protected theorem Inv.countCode {code : Nat} (h : Inv s) : Inv (countCode s code) := h.bump.setObj

protected theorem Inv.raise {r : ErrRec} (h : Inv s) : Inv (raise s r) := h.bump.countCode.pushEvent

protected theorem Inv.raiseUnit {code sev : Nat} {origin : EvOrigin} {unit : Nat} {nums : List Nat} (h : Inv s) : Inv (raiseUnit s code sev origin unit nums) :=
  h.raise

protected theorem Inv.setPos {p : Nat} {c : Pos} (h : Inv s) : Inv (setPos s p c) := h.same

protected theorem Inv.setGroup {p g : Nat} {x : Option Group} (h : Inv s) : Inv (setGroup s p g x) := h.setPos

protected theorem Inv.modGroup {p g : Nat} {f : Group → Group} (h : Inv s) : Inv (modGroup s p g f) := h.setGroup

protected theorem Inv.setSlot {n : Nat} {x : Option Slot} (h : Inv s) : Inv (setSlot s n x) :=
  { h with slots := mapWf_mapSet none s.fountain.slots n x h.slots }

protected theorem Inv.setCounter {c : Nat} {x : Counter} (h : Inv s) : Inv (setCounter s c x) := h.same

protected theorem Inv.setSlice {g : Nat} {x : Slice} (h : Inv s) : Inv (setSlice s g x) := h.same

protected theorem Inv.setChan {st ch : Nat} {x : Channel} (h : Inv s) : Inv (setChan s st ch x) := h.same

protected theorem Inv.setLink {l : Nat} {x : Link} (h : Inv s) : Inv (setLink s l x) := h.same

protected theorem Inv.setSeq {n : Nat} {x : Option Seqn} (h : Inv s) : Inv (setSeq s n x) :=
  { h with seqs := mapWf_mapSet none s.sluice.seqs n x h.seqs }

protected theorem Inv.setHalf {h : Nat} {x : HalfSpace} (hi : Inv s) : Inv (setHalf s h x) := by
  unfold setHalf
  exact .ite hi.same hi.same

protected theorem Inv.setCoreState {p v : Nat} (h : Inv s) : Inv (setCoreState s p v) := h.same

protected theorem Inv.setClassState {c v : Nat} (h : Inv s) : Inv (setClassState s c v) := h.same

protected theorem Inv.forEach {α : Type} {xs : List α} {f : State → α → State} (h : Inv s) (hf : ∀ {t a1}, Inv t → Inv (f t a1)) : Inv (forEach xs s f) :=
  h.foldl fun _ _ k => hf k

protected theorem Inv.storeObj {k v : Nat} (h : Inv s) : Inv (storeObj s k v) := h.same

/-- A defect is listed only while fewer than 4,096 are (R407). -/
protected theorem Inv.appendFound {kind source unit detail code at_ : Nat} (h : Inv s) :
    Inv (appendFound s kind source unit detail code at_) := by
  unfold appendFound
  split
  · exact h
  split
  · exact h.raiseUnit
  · next hroom => exact { h with defects := by simp only [List.length_append, List.length_singleton]; omega }

protected theorem Inv.appendDefect {kind source unit detail code : Nat} (h : Inv s) : Inv (appendDefect s kind source unit detail code) :=
  h.appendFound

/-! ### Machine/Task.lean -/

protected theorem Inv.modSlot {n : Nat} {f : Slot → Slot} (h : Inv s) : Inv (modSlot s n f) := by
  unfold modSlot
  split
  · exact h
  · exact h.setSlot

protected theorem Inv.noteFlush {n : Nat} {flushed : Bool} (h : Inv s) : Inv (noteFlush s n flushed) := by
  unfold noteFlush
  exact .ite h.modSlot h

protected theorem Inv.placeRecord {n : Nat} {sl : Slot} (h : Inv s) : Inv (placeRecord s n sl) :=
  h.setSlot.withFountain

protected theorem Inv.raiseTask {n : Nat} {r : ErrRec} (h : Inv s) : Inv (raiseTask s n r) := by
  unfold raiseTask
  split
  · exact h.raise
  · exact h.raise

protected theorem Inv.endGroups {n : Nat} (h : Inv s) : Inv (endGroups s n) := h.same

protected theorem Inv.faultTask {n : Nat} {r : ErrRec} (h : Inv s) : Inv (faultTask s n r) :=
  h.raiseTask.modSlot.endGroups

/-! ### Machine/Rill.lean -/

protected theorem Inv.sendWire {l : Nat} {flit : List Byte} (h : Inv s) : Inv (sendWire s l flit) := h.emit

protected theorem Inv.sendFlit {l : Nat} {p : Packet} (h : Inv s) : Inv (sendFlit s l p) :=
  h.setLink.bump.bump.sendWire

protected theorem Inv.sendBare {l : Nat} {ty : PktType} (h : Inv s) : Inv (sendBare s l ty) := h.setLink.sendWire

protected theorem Inv.pumpList {l : Nat} {waiting kept : List (List Packet)} (h : Inv s) : Inv (pumpList l waiting s kept).1 := by
  induction waiting generalizing s kept with
  | nil => exact h
  | cons ps rest ih =>
    unfold pumpList
    split
    · exact ih h
    split
    · exact ih (h.foldl fun _ _ k => k.sendFlit)
    · exact ih h

protected theorem Inv.pumpLink {l : Nat} (h : Inv s) : Inv (pumpLink s l) := by
  unfold pumpLink
  exact .ite (h.pumpList.setLink.foldl fun _ _ k => k.sendBare) h.pumpList.setLink

protected theorem Inv.sendPacket {half : Nat} {pkts : List Packet} (h : Inv s) : Inv (sendPacket s half pkts) := by
  unfold sendPacket
  split
  · exact h
  split
  · exact h
  · exact .pumpLink (.setLink (.ite (.bump (.ite h.bump h)) (.ite h.bump h)))

protected theorem Inv.launchReq {r : PeerReq} (h : Inv s) : Inv (launchReq s r) := h.same.sendPacket

protected theorem Inv.pumpReqs {waiting kept : List PeerReq} (h : Inv s) : Inv (pumpReqs waiting s kept).1 := by
  induction waiting generalizing s kept with
  | nil => exact h
  | cons r rest ih =>
    unfold pumpReqs
    split
    · exact ih h.launchReq
    · exact ih h

protected theorem Inv.pumpPeers (h : Inv s) : Inv (pumpPeers s) := h.same.pumpReqs.frame

protected theorem Inv.peerRequests {rs : List PeerReq} (h : Inv s) : Inv (peerRequests s rs) := h.same.pumpPeers

protected theorem Inv.sendSignal {slot entry : Nat} {poison : Bool} {cls : Nat} (h : Inv s) : Inv (sendSignal s slot entry poison cls) :=
  h.peerRequests

/-! ### Machine/Signal.lean -/

protected theorem Inv.applySignal {c : Nat} {set : Bool} {v : Nat} (h : Inv s) : Inv (applySignal s c set v) :=
  h.setCounter

protected theorem Inv.poisonCounter {c : Nat} (h : Inv s) : Inv (poisonCounter s c) := h.setCounter

protected theorem Inv.poisonSignals {n : Nat} {sl : Slot} (h : Inv s) : Inv (poisonSignals s n sl) := by
  unfold poisonSignals
  exact .ite h (h.foldl fun _ _ k => .ite k.poisonCounter (.ite k.sendSignal k))

protected theorem Inv.writeFaulted {n code : Nat} (h : Inv s) : Inv (writeFaulted s n code) := by
  unfold writeFaulted
  split
  · exact h
  · exact .ite h.bump.setSlot h.bump.setSlot

protected theorem Inv.failCore {n : Nat} {r : ErrRec} (h : Inv s) : Inv (failCore s n r) := by
  unfold failCore
  split
  · exact h
  · exact h.raiseTask.poisonSignals.writeFaulted

protected theorem Inv.spreadPoison {fuel : Nat} (h : Inv s) : Inv (spreadPoison fuel s) := by
  induction fuel generalizing s with
  | zero => exact h
  | succ fuel ih =>
    unfold spreadPoison
    split
    · exact h
    · exact ih h.failCore

protected theorem Inv.evalWaits (h : Inv s) : Inv (evalWaits s) := by
  unfold evalWaits
  exact h.spreadPoison.foldl fun _ _ k => .ite k.modSlot k

protected theorem Inv.failNow {n : Nat} {r : ErrRec} (h : Inv s) : Inv (failNow s n r) := h.failCore.evalWaits

protected theorem Inv.signalLocal {c : Nat} {set : Bool} {v : Nat} (h : Inv s) : Inv (signalLocal s c set v) :=
  h.applySignal.evalWaits

protected theorem Inv.enterRecord {n : Nat} {ws : List Word64} {spawned posted : Bool} (h : Inv s) : Inv (enterRecord s n ws spawned posted) := by
  dsimp only [enterRecord]
  split
  · exact h.placeRecord.failNow
  · exact h.placeRecord.evalWaits

protected theorem Inv.takeSpawn {ws : List Word64} {posted : Bool} (h : Inv s) : Inv (takeSpawn s ws posted).2 := by
  unfold takeSpawn
  refine .ite_snd h.raise ?_
  split
  · exact h
  · exact h.enterRecord

/-! ### Machine/Check.lean -/

protected theorem Inv.endForReplay {n code : Nat} {producers : List (Nat × Nat)} (h : Inv s) : Inv (endForReplay s n code producers) :=
  h.modSlot.endGroups

protected theorem Inv.replayProducer {n : Nat} (h : Inv s) : Inv (replayProducer s n) := h.bump.modSlot

protected theorem Inv.badExtra {b : BadWord} (h : Inv s) : Inv (badExtra s b).2 := h.same

protected theorem Inv.dirtyFail {n : Nat} {r : ErrRec} {b : BadWord} (h : Inv s) : Inv (dirtyFail s n r b) := by
  dsimp only [dirtyFail]
  split
  · exact h.same.faultTask.bump
  · exact h.same.raiseTask.endForReplay.when fun h => h.replayProducer

protected theorem Inv.verticalAbort {n : Nat} (h : Inv s) : Inv (verticalAbort s n) := by
  unfold verticalAbort
  split
  · exact h
  · exact .ite h.raiseTask.endForReplay h.faultTask

protected theorem Inv.noteTransient {chk : Chk} (h : Inv s) : Inv (noteTransient s chk) := by
  unfold noteTransient
  exact .ite h.countCode h

/-! ### Machine/Home.lean -/

protected theorem Inv.resWrite {sector : Nat} {data : List Byte} {mark : Bool} (h : Inv s) : Inv (resWrite s sector data mark) :=
  { h with memory := mapWf_mapSetList 0#8 s.reservoir.mem (sector * 32) (slice data 0 32) h.memory }

protected theorem Inv.notePageWriter {sector wtag : Nat} (h : Inv s) : Inv (notePageWriter s sector wtag) := h.same

protected theorem Inv.countBytes {point cls n : Nat} (h : Inv s) : Inv (countBytes s point cls n) := h.bump

protected theorem Inv.portRead {n : Nat} (h : Inv s) : Inv (portRead s n) := by
  unfold portRead
  exact .ite h.bump.countBytes h

protected theorem Inv.portSend {n : Nat} (h : Inv s) : Inv (portSend s n) := by
  unfold portSend
  exact .ite h.bump.countBytes h

protected theorem Inv.countHold {point cls : Nat} (h : Inv s) : Inv (countHold s point cls) := h.bump

/-! ### Machine/Report.lean -/

protected theorem Inv.sendReport {n : Nat} (h : Inv s) : Inv (sendReport s n) := by
  unfold sendReport
  exact .pushEvent (.ite h h.countCode)

protected theorem Inv.storeReport {n outcome code from_ till micros : Nat} {o : StageOut} (h : Inv s) : Inv (storeReport s n outcome code from_ till micros o) :=
  h.setBytes.setObj.setObj

protected theorem Inv.sendHeld (h : Inv s) : Inv (sendHeld s) :=
  { (h.foldl fun _ _ k => k.sendReport : Inv (s.boot.held.foldl sendReport s)) with rom := h.rom }

protected theorem Inv.driveFault (h : Inv s) : Inv (driveFault s) := h.same

protected theorem Inv.closeStage {n outcome code : Nat} {o : StageOut} (h : Inv s) : Inv (closeStage s n outcome code o) := by
  unfold closeStage
  exact .ite h.storeReport.sendHeld.sendReport h.storeReport.withBoot

protected theorem Inv.endStage {n code : Nat} {o : StageOut} (h : Inv s) : Inv (endStage s n code o) :=
  h.closeStage.withBoot

protected theorem Inv.stopStage {n code : Nat} {o : StageOut} (h : Inv s) : Inv (stopStage s n code o) :=
  h.same.closeStage.driveFault

protected theorem Inv.skipStage {n : Nat} (h : Inv s) : Inv (skipStage s n) := h.same.storeReport.sendReport

end Sys2Proof.Machine
end

section
/-! SUPPORT. The functions of the model's files Cistern
keep the invariant, each by those that it is made of. -/

namespace Sys2Proof.Machine

-- One theorem after another: elaborated side by side, each holds a thread of its own.
set_option Elab.async false

variable {s : State}

/-! ### Machine/Cistern.lean -/

protected theorem Inv.setSectorNow {g sector : Nat} {data : List Byte} {wtag : Nat} {bad : Bool} (h : Inv s) : Inv (setSectorNow s g sector data wtag bad) := by
  unfold setSectorNow
  exact .ite h.same h.setSlice

protected theorem Inv.failWriter {r : Req} {x : Sector} (h : Inv s) : Inv (failWriter s r x) := by
  unfold failWriter
  exact .ite h.dirtyFail h

protected theorem Inv.applyEntry {g : Nat} {e : RedEntry} (h : Inv s) : Inv (applyEntry s g e).1 := by
  unfold applyEntry
  split
  · extract_lets x s1 sl s2 s3
    have hwritten : Inv s1 := .ite h h.setSectorNow
    have hcounted : Inv s3 := .ite hwritten.setSlice hwritten.setSlice.bump
    refine .ite_fst hcounted ?_
    exact .ite hcounted.failWriter hcounted
  · exact h.setSlice

protected theorem Inv.applyEntries {g : Nat} {es : List RedEntry} {acc : List Ans} (h : Inv s) : Inv (applyEntries g es s acc).1 := by
  induction es generalizing s acc with
  | nil => exact h
  | cons e es ih => exact ih h.applyEntry

protected theorem Inv.applySector {g sector : Nat} (h : Inv s) : Inv (applySector s g sector).1 := by
  unfold applySector
  exact .ite_fst h.applyEntries h

protected theorem Inv.markBad {g sector : Nat} (h : Inv s) : Inv (markBad s g sector) := by
  unfold markBad
  exact .ite h.same h.setSlice

protected theorem Inv.forgetClean {g sector : Nat} (h : Inv s) : Inv (forgetClean s g sector) :=
  h.setSlice.bump.bump

protected theorem Inv.readPresent {g : Nat} {r : Req} {chk : Chk} (h : Inv s) : Inv (readPresent s g r chk).1 := by
  unfold readPresent
  exact .ite_fst h.applySector (h.applySector.noteTransient.bump.setSlice.when fun h => h.markBad)

protected theorem Inv.writePresent {g : Nat} {r : Req} {mask : Nat} {data : List Byte} (h : Inv s) : Inv (writePresent s g r mask data).1 :=
  h.applySector.setSectorNow.setSlice

protected theorem Inv.wantSector {g : Nat} {sl : Slice} {sector cls : Nat} (h : Inv s) : Inv (wantSector s g sl sector cls) := by
  unfold wantSector
  exact .ite h.setSlice h.setSlice.bump

protected theorem Inv.joinRegister {g : Nat} {r : Req} (h : Inv s) : Inv (joinRegister s g r) := by
  dsimp only [joinRegister]
  split
  · exact h.bump.setSlice
  · exact .setSlice (.ite h.setObj h)

protected theorem Inv.joinMiss {g : Nat} {r : Req} (h : Inv s) : Inv (joinMiss s g r) := h.joinRegister.wantSector

protected theorem Inv.serveLine {g : Nat} {r : Req} (h : Inv s) : Inv (serveLine s g r) := by
  unfold serveLine
  exact .ite (.setSlice (.ite h.bump h)) (.foldl (.joinRegister (.ite h.bump h)) fun _ _ k => k.wantSector)

protected theorem Inv.serveReq {g : Nat} {r : Req} {chk : Chk} (h : Inv s) : Inv (serveReq s g r chk).1 := by
  unfold serveReq
  refine .ite_fst ?_ ?_
  · split
    · refine .ite_fst ?_ ?_
      · exact h.readPresent.forgetClean.joinMiss
      · exact h.readPresent
    · refine .ite_fst ?_ ?_
      · refine .ite_fst ?_ ?_
        · exact h.forgetClean.joinMiss
        · exact h.markBad.failWriter
      · exact h.noteTransient.writePresent.bump
    · exact h.setSlice.bump
    · exact h.serveLine
  split
  · exact h.setSlice.bump
  split <;> dsimp only
  · refine .ite_fst ?_ ?_
    · exact h.setSlice.setSectorNow.setSlice.bump
    · exact h.setSlice.joinMiss
  · exact h.setSlice.setSlice.joinMiss
  · exact h.setSlice.joinMiss
  · exact h.setSlice.serveLine

protected theorem Inv.markHeld {g : Nat} {r : Req} (h : Inv s) : Inv (markHeld s g r) := by
  unfold markHeld
  split
  · dsimp only
    split
    · exact h.setSlice
    · exact h
  · exact h

protected theorem Inv.enterIntake {g : Nat} {r : Req} {chk : Chk} (h : Inv s) : Inv (enterIntake s g r chk).1 := by
  unfold enterIntake
  refine .ite_fst ?_ ?_
  · exact .setSlice (.countBytes (.ite h.setSlice h))
  · exact .markHeld (.serveReq (.countBytes (.ite h.setSlice h)))

protected theorem Inv.retryList {g : Nat} {ws : List WayWait} {acc : List Ans} (h : Inv s) : Inv (retryList g ws s acc).1 := by
  induction ws generalizing s acc with
  | nil => exact h
  | cons w ws ih =>
    unfold retryList
    refine .ite_fst ?_ ?_
    · exact ih h.setSlice
    · exact ih h.serveReq.markHeld

protected theorem Inv.retryWaits {g : Nat} (h : Inv s) : Inv (retryWaits s g).1 := h.setSlice.retryList.setSlice

protected theorem Inv.serveWaiters {g : Nat} {rs kept : List Req} {acc : List Ans} (h : Inv s) : Inv (serveWaiters g rs s kept acc).1 := by
  induction rs generalizing s kept acc with
  | nil => exact h
  | cons r rs ih =>
    unfold serveWaiters
    refine .ite_fst ?_ ?_
    · split
      · exact ih h
      · exact ih h
      · exact ih h.writePresent
      · split
        · exact ih h.applyEntry
        · exact ih h
    · exact ih h

protected theorem Inv.failSector {g sector : Nat} {data : List Byte} (h : Inv s) : Inv (failSector s g sector data).1 := by
  unfold failSector
  exact h.setSlice.foldl fun _ _ k => k.failWriter

protected theorem Inv.fillSector {g sector : Nat} {data : List Byte} {failed : Bool} (h : Inv s) : Inv (fillSector s g sector data failed).1 := by
  unfold fillSector
  refine .retryWaits (.setSlice ?_)
  refine .ite_fst ?_ ?_
  · exact .setSlice (.failSector (.setSlice (.ite h.bump h)))
  · exact .setSlice (.serveWaiters (.setSlice (.setSlice (.ite h.bump h))))

protected theorem Inv.modMem {p id : Nat} {f : MemOp → MemOp} (h : Inv s) : Inv (modMem s p id f) := h.setPos

protected theorem Inv.deliverData {p id : Nat} {sv : Served} (h : Inv s) : Inv (deliverData s p id sv) := h.modMem

protected theorem Inv.deliverAccept {p id sector : Nat} (h : Inv s) : Inv (deliverAccept s p id sector) := h.modMem

protected theorem Inv.acceptNext {p id : Nat} (h : Inv s) : Inv (acceptNext s p id) := by
  unfold acceptNext
  split
  · exact h
  split
  · exact h
  · exact h.deliverAccept

protected theorem Inv.modJob {id : Nat} {f : Job → Job} (h : Inv s) : Inv (modJob s id f) := h.same

protected theorem Inv.jobAnswer {id : Nat} {sv : Served} (h : Inv s) : Inv (jobAnswer s id sv) := h.modJob

protected theorem Inv.jobAccept {id : Nat} (h : Inv s) : Inv (jobAccept s id) := h.modJob

protected theorem Inv.sillSend {dir : Nat} {item : SillItem} {cls bytes : Nat} (h : Inv s) : Inv (sillSend s dir item cls bytes) := by
  unfold sillSend
  exact .ite h.same.countBytes h.same.countHold

protected theorem Inv.deliverAns {g : Nat} {a : Ans} (h : Inv s) : Inv (deliverAns s g a) := by
  unfold deliverAns
  split
  · exact .ite h.deliverData h.sillSend
  · exact .ite h.jobAnswer h.sillSend
  · exact h

protected theorem Inv.deliverAll {g : Nat} {as : List Ans} (h : Inv s) : Inv (deliverAll s g as) :=
  h.foldl fun _ _ k => k.deliverAns

protected theorem Inv.acceptReq {g : Nat} {r : Req} (h : Inv s) : Inv (acceptReq s g r) := by
  unfold acceptReq
  split
  · exact h
  · exact h
  · exact .ite h.deliverAccept h.sillSend
  · exact h
  · exact .ite h.jobAccept h.sillSend
  · exact h

protected theorem Inv.sendReq {r : Req} (h : Inv s) : Inv (sendReq s r) := by
  unfold sendReq
  exact .ite h.setSlice h.sillSend

protected theorem Inv.startJob {half port cls wtag : Nat} {who : JobFor} {pre : List Served} {ops : List (Nat × ReqOp)} (h : Inv s) : Inv (startJob s half port cls wtag who pre ops) :=
  h.same.foldl fun _ _ k => k.sendReq

protected theorem Inv.dropJob {id : Nat} (h : Inv s) : Inv (dropJob s id) := h.same

protected theorem Inv.dropJobsFor {who : JobFor → Bool} (h : Inv s) : Inv (dropJobsFor s who) := h.same

protected theorem Inv.takeInbox {g i : Nat} {q : InReq} {chk : Chk} (h : Inv s) : Inv (takeInbox s g i q chk) := by
  unfold takeInbox
  exact .acceptReq (.deliverAll (.enterIntake (.ite (h.setSlice.frame.when fun h => h.bump) h.setSlice)))

protected theorem Inv.markInbox {g i : Nat} {f : InReq → InReq} (h : Inv s) : Inv (markInbox s g i f) := h.setSlice

protected theorem Inv.noteFull {g port : Nat} (h : Inv s) : Inv (noteFull s g port) := by
  unfold noteFull
  split
  · exact h
  · exact h.markInbox.bump

protected theorem Inv.settleWaits {g : Nat} (h : Inv s) : Inv (settleWaits s g) := by
  unfold settleWaits
  exact .ite h h.retryWaits.deliverAll

protected theorem Inv.sliceIntake {g port : Nat} {chk : Chk} (h : Inv s) : Inv (sliceIntake g port chk s) := by
  dsimp only [sliceIntake]
  split
  · exact h.settleWaits.noteFull
  · exact .ite h.settleWaits.noteFull.markInbox.countHold h.settleWaits.noteFull.takeInbox

protected theorem Inv.sectorFill {g line sector : Nat} (h : Inv s) : Inv (sectorFill g line sector s) := by
  dsimp only [sectorFill]
  split
  · exact h
  · exact h.fillSector.deliverAll

protected theorem Inv.refetchEntries {g sector : Nat} (h : Inv s) : Inv (refetchEntries s g sector) :=
  h.forgetClean.foldl fun _ _ k => k.joinMiss

protected theorem Inv.reductionApply {g : Nat} {chk : Chk} (h : Inv s) : Inv (reductionApply g chk s) := by
  unfold reductionApply
  split
  · exact h
  · exact .ite h.refetchEntries (.deliverAll (.retryWaits (.applySector (.ite h.markBad h.noteTransient))))

protected theorem Inv.reduceForce {g set : Nat} (h : Inv s) : Inv (reduceForce g set s) := by
  dsimp only [reduceForce]
  split
  · refine .ite h (.deliverAll (.retryWaits ?_))
    refine Inv.foldl_on Prod.fst h.setSlice.bump fun _ _ k => ?_
    exact k.applySector
  · exact h

protected theorem Inv.thrashSlice {g : Nat} (h : Inv s) : Inv (thrashSlice s g) :=
  h.setSlice.when fun h => h.setObj.raiseUnit

protected theorem Inv.execThrashWindowEnd (h : Inv s) : KeepsInv (execThrashWindowEnd s) := by
  unfold execThrashWindowEnd
  exact .ite ((h.same.foldl fun _ _ k => k.thrashSlice).next) h.next

protected theorem Inv.cisResetEvent {sev cause unit : Nat} (h : Inv s) : Inv (cisResetEvent s sev cause unit) :=
  h.raise

protected theorem Inv.svcEvent {code : Nat} (h : Inv s) : Inv (svcEvent s code) := h.same.pushEvent

protected theorem Inv.setSvc {op : Nat} {v : Svc} (h : Inv s) : Inv (setSvc s op v) := h.same

protected theorem Inv.syncTesting (h : Inv s) : Inv (syncTesting s) := h.same

protected theorem Inv.endSvc {op state code : Nat} (h : Inv s) : Inv (endSvc s op state code) := by
  unfold endSvc
  exact h.setSvc.syncTesting.setObj.svcEvent.dropJobsFor

protected theorem Inv.settleLicence (h : Inv s) : Inv (settleLicence s) := by
  unfold settleLicence
  exact .ite h.endSvc h

protected theorem Inv.requestCisReset {cause unit code : Nat} (h : Inv s) : Inv (requestCisReset s cause unit code) := by
  unfold requestCisReset
  exact .ite h (.ite (.ite h h.stopStage) (.cisResetEvent (.frame (.ite h.same.endSvc h))))

protected theorem Inv.cisternWatchdog {g : Nat} (h : Inv s) : Inv (cisternWatchdog g s) := by
  unfold cisternWatchdog
  exact .ite h.raiseUnit.requestCisReset h

protected theorem Inv.sillReceive {x : SillXfer} (h : Inv s) : Inv (sillReceive s x) := by
  unfold sillReceive
  split
  · exact h.setSlice
  · exact h.deliverData
  · exact h.jobAnswer
  · exact h.deliverAccept
  · exact h.jobAccept
  · exact h
  · exact h

protected theorem Inv.sillTransfer {dir : Nat} {ok : Bool} (h : Inv s) : Inv (sillTransfer dir ok s) := by
  dsimp only [sillTransfer]
  split
  · exact h
  · exact .ite h.same.bump.sillReceive (h.same.bump.when fun h => h.raiseUnit.requestCisReset)

protected theorem Inv.writeBackLine {g : Nat} {l : Line} (h : Inv s) : Inv (writeBackLine s g l) := by
  unfold writeBackLine
  exact .ite h.setSlice h

protected theorem Inv.dropWindow {half j : Nat} (h : Inv s) : Inv (dropWindow s half j) := h.same

protected theorem Inv.pinWaysApply {half : Nat} (h : Inv s) : Inv (pinWaysApply half s) := by
  unfold pinWaysApply
  refine .ite h (.ite ?_ ?_)
  · exact .ite (h.foldl fun _ _ k => k.foldl fun _ _ k => k.writeBackLine) h
  · exact .frame (.dropWindow (.ite (h.foldl fun _ _ k => k.foldl fun _ _ k => k.writeBackLine) h))

protected theorem Inv.poolPagesApply {half : Nat} (h : Inv s) : Inv (poolPagesApply half s) := by
  unfold poolPagesApply
  exact .ite h h.setHalf

end Sys2Proof.Machine
end

section
/-! SUPPORT. The functions of the model's files Reservoir, Sluice and PortOps
keep the invariant, each by those that it is made of. -/

namespace Sys2Proof.Machine

-- One theorem after another: elaborated side by side, each holds a thread of its own.
set_option Elab.async false

variable {s : State}

/-! ### Machine/Reservoir.lean -/

protected theorem Inv.modFetch {g id : Nat} {f : Fetch → Fetch} (h : Inv s) : Inv (modFetch s g id f) := h.setSlice

protected theorem Inv.sendFetch {g : Nat} {f : Fetch} (h : Inv s) : Inv (sendFetch s g f) := by
  unfold sendFetch
  exact .ite h.modFetch h.setChan.modFetch.countBytes

protected theorem Inv.execReservoirReadRequest {g id : Nat} (h : Inv s) : KeepsInv (execReservoirReadRequest g id s) := by
  dsimp only [execReservoirReadRequest]
  split
  · exact h.next
  · exact .ite h.next (.ite h.sendFetch.next (.ite h.next (.ite h.modFetch.countHold.next h.sendFetch.next)))

protected theorem Inv.recoverPage {sector : Nat} (h : Inv s) : Inv (recoverPage s sector) := h.same

protected theorem Inv.noteRecovered (h : Inv s) : Inv (noteRecovered s) := h.bump.bump

protected theorem Inv.endRead {stack ch : Nat} {r : ChRead} {data : List Byte} {failed : Bool} (h : Inv s) : Inv (endRead s stack ch r data failed) := by
  unfold endRead
  exact .ite h.setChan.recoverPage.modFetch (h.setChan.modFetch.when fun h => h.noteRecovered)

protected theorem Inv.finishRead {stack ch : Nat} {r : ChRead} {failed : Bool} (h : Inv s) : Inv (finishRead s stack ch r failed) := by
  unfold finishRead
  exact .endRead (.setChan (.bump (.ite h.bump h)))

protected theorem Inv.noteFail {stack ch : Nat} (h : Inv s) : Inv (noteFail s stack ch) := h.setChan

protected theorem Inv.execReservoirReadReturn {stack ch : Nat} {ok : Bool} {ecc : Option Nat} (h : Inv s) : KeepsInv (execReservoirReadReturn stack ch ok ecc s) := by
  dsimp only [execReservoirReadReturn]
  split
  · exact h.next
  · exact h.endRead.next
  split
  · refine .ite ?_ ?_
    · exact h.bump.bump.finishRead.next
    · exact .ite h.bump.finishRead.next (.ite h.bump.noteFail.finishRead.next h.bump.noteFail.setChan.bump.next)
  · exact h.next

protected theorem Inv.queueWrite {w : WbSector} (h : Inv s) : Inv (queueWrite s w) := by
  unfold queueWrite
  exact .notePageWriter (.countBytes (.ite h h.setChan))

protected theorem Inv.writeRequest {g : Nat} (h : Inv s) : Inv (writeRequest g s) := by
  dsimp only [writeRequest]
  split
  · exact h
  · exact .ite h.setSlice.queueWrite.bump.retryWaits.deliverAll h

protected theorem Inv.execReservoirWriteDrain {stack ch : Nat} (h : Inv s) : KeepsInv (execReservoirWriteDrain stack ch s) :=
  h.setChan.next

protected theorem Inv.dropStack {stack : Nat} (h : Inv s) : Inv (dropStack s stack) :=
  h.foldl fun _ _ k => (k.foldl fun _ _ k => k.modFetch).setChan

protected theorem Inv.stackLost {stack ch : Nat} (h : Inv s) : Inv (stackLost s stack ch) := by
  unfold stackLost
  exact .ite h h.same.dropStack.setObj.setObj.appendDefect.raiseUnit

protected theorem Inv.execReservoirWriteBurstComplete {stack ch : Nat} {ok : Bool} (h : Inv s) : KeepsInv (execReservoirWriteBurstComplete stack ch ok s) := by
  dsimp only [execReservoirWriteBurstComplete]
  split
  · exact .ite h.setChan.resWrite.bump.next (.ite h.stackLost.next h.noteFail.setChan.bump.next)
  · exact h.next

protected theorem Inv.execRefresh {stack ch : Nat} (h : Inv s) : KeepsInv (execRefresh stack ch s) := by
  unfold execRefresh
  exact .ite h.setChan.next h.setChan.bump.next

protected theorem Inv.execChannelRetrain {stack ch : Nat} (h : Inv s) : KeepsInv (execChannelRetrain stack ch s) := by
  unfold execChannelRetrain
  exact .ite h.setChan.bump.next h.next

protected theorem Inv.execChannelRetrainComplete {stack ch : Nat} {ok : Bool} (h : Inv s) : KeepsInv (execChannelRetrainComplete stack ch ok s) := by
  unfold execChannelRetrainComplete
  exact .ite h.next (.ite h.setChan.next h.setChan.stackLost.next)

/-! ### Machine/Sluice.lean -/

protected theorem Inv.takeZonePage {half : Nat} (h : Inv s) : ∀ r ∈ takeZonePage s half, Inv r.2 := by
  dsimp only [takeZonePage]
  split
  · rintro _ ⟨⟩
    exact h.setHalf
  · exact forall_mem_map fun _ _ => h.setHalf

protected theorem Inv.giveZonePage {half q : Nat} (h : Inv s) : Inv (giveZonePage s half q) := h.setHalf

protected theorem Inv.modPage {n page : Nat} {f : Page → Page} (h : Inv s) : Inv (modPage s n page f) := by
  unfold modPage
  split
  · exact h
  · exact h.setSeq

protected theorem Inv.invalidatePage {n page : Nat} (h : Inv s) : Inv (invalidatePage s n page) := h.same

protected theorem Inv.dropFrame {n page : Nat} (h : Inv s) : Inv (dropFrame s n page) := by
  unfold dropFrame
  split
  · exact h
  split
  · exact h
  · exact h.invalidatePage.setPos.modPage

protected theorem Inv.takeHostPage (h : Inv s) : ∀ r ∈ takeHostPage s, Inv r.2 := by
  unfold takeHostPage
  split
  · rintro _ ⟨⟩
    exact h.same
  split
  · rintro _ ⟨⟩
    exact h.same
  · rintro _ ⟨⟩

protected theorem Inv.giveHostPage {h : Option Nat} (hi : Inv s) : Inv (giveHostPage s h) := by
  unfold giveHostPage
  split
  · exact hi
  · exact hi.same

protected theorem Inv.dropHostCopy {n page : Nat} (h : Inv s) : Inv (dropHostCopy s n page) := by
  unfold dropHostCopy
  split
  · exact h
  · exact h.giveHostPage.modPage.withSluice

protected theorem Inv.reclaimHostPage (h : Inv s) : ∀ r ∈ reclaimHostPage s, Inv r.2 := by
  unfold reclaimHostPage
  split
  · rintro _ ⟨⟩
  · exact h.dropHostCopy.takeHostPage

protected theorem Inv.someHostPage (h : Inv s) : ∀ r ∈ someHostPage s, Inv r.2 := by
  unfold someHostPage
  split
  · next hr =>
    rintro _ ⟨⟩
    exact h.takeHostPage _ hr
  · exact h.reclaimHostPage

protected theorem Inv.freePage {n page half : Nat} {pg : Page} (h : Inv s) : Inv (freePage s n page half pg) := by
  dsimp only [freePage]
  split
  · exact h.invalidatePage.dropFrame.withSluice.giveHostPage
  · exact h.invalidatePage.dropFrame.withSluice.withSluice
  · exact h.invalidatePage.dropFrame.withSluice.withSluice
  · exact h.invalidatePage.dropFrame.withSluice.giveZonePage.giveHostPage

protected theorem Inv.freeSeq {n : Nat} (h : Inv s) : Inv (freeSeq s n) := by
  unfold freeSeq
  split
  · exact h
  · exact ((h.foldl fun _ _ k => k.freePage).withSluice).setSeq

protected theorem Inv.loseUsers {n : Nat} (h : Inv s) : Inv (loseUsers s n) := by
  unfold loseUsers
  split
  · exact h
  refine .ite h (.ite h.freeSeq ?_)
  refine (h.foldl fun _ _ k => k.dropFrame).foldl fun _ _ k => ?_
  split
  · exact .ite k.invalidatePage.modPage k
  · exact k

protected theorem Inv.dropUsers {ns : List Nat} (h : Inv s) : Inv (dropUsers s ns) :=
  h.foldl fun _ _ k => k.loseUsers

protected theorem Inv.releaseSeq {n : Nat} (h : Inv s) : Inv (releaseSeq s n) := by
  unfold releaseSeq
  split
  · exact h
  · exact .ite (.ite h.setSeq h.freeSeq) h

protected theorem Inv.takeFrom {level half k : Nat} (h : Inv s) : ∀ r ∈ takeFrom s level half k, Inv r.2 := by
  unfold takeFrom
  split
  · exact forall_mem_map fun _ _ => h.setHalf
  · exact forall_mem_map fun _ _ => h.setHalf

protected theorem Inv.freeBuf {b : Buf} (h : Inv s) : Inv (freeBuf s b) := by
  unfold freeBuf
  exact .withSluice (.ite h.setHalf h.setHalf)

protected theorem Inv.setArg {n k v : Nat} (h : Inv s) : Inv (setArg s n k v) := h.modSlot

protected theorem Inv.allocBuf {n home e : Nat} (h : Inv s) : ∀ t ∈ allocBuf s n home e, Inv t := by
  dsimp only [allocBuf]
  split
  · next hr =>
    rintro _ ⟨⟩
    exact (h.takeFrom _ hr).withSluice.setArg
  · exact forall_mem_map fun r hr => (h.takeFrom r hr).withSluice.setArg

protected theorem Inv.freeScoped {n : Nat} (h : Inv s) : Inv (freeScoped s n) := h.foldl fun _ _ k => k.freeBuf

protected theorem Inv.carryFrees {n : Nat} (h : Inv s) : Inv (carryFrees s n) := by
  unfold carryFrees
  split
  · exact h
  refine h.foldl fun _ _ k => ?_
  split
  · exact k.freeBuf
  · exact k.bump

protected theorem Inv.readPageOut {m : Nat × Nat × Bool} (h : Inv s) : Inv (readPageOut s m) := by
  unfold readPageOut
  exact .ite h h.startJob

protected theorem Inv.feedEngines (h : Inv s) : Inv (feedEngines s) := h.same.foldl fun _ _ k => k.readPageOut

protected theorem Inv.addMove {m : Nat × Nat × Bool} (h : Inv s) : Inv (addMove s m) := h.same.feedEngines

protected theorem Inv.endMove {m : Nat × Nat × Bool} (h : Inv s) : Inv (endMove s m) := h.same.feedEngines

protected theorem Inv.pageOut {half : Nat} {e : Nat × Nat} (h : Inv s) : Inv (pageOut s half e) := by
  dsimp only [pageOut]
  split
  · exact h
  refine .ite h.invalidatePage.giveZonePage.modPage.withSluice (.ite h ?_)
  split
  · exact h
  · next hr => exact (h.someHostPage _ hr).invalidatePage.modPage.addMove

protected theorem Inv.continuePageout {half : Nat} (h : Inv s) : Inv (continuePageout s half) := by
  unfold continuePageout
  exact .ite h (.ite ((h.foldl fun _ _ k => .ite k k.pageOut).setHalf) (h.foldl fun _ _ k => .ite k k.pageOut))

protected theorem Inv.goOnPaging (h : Inv s) : Inv (goOnPaging s) := h.continuePageout.continuePageout

protected theorem Inv.cancelPageOut {e : Nat × Nat} (h : Inv s) : Inv (cancelPageOut s e) := by
  unfold cancelPageOut
  split
  · exact h
  · exact .ite h h.invalidatePage.giveHostPage.modPage.dropJobsFor.endMove.bump.goOnPaging

protected theorem Inv.growSeq {n half k : Nat} (h : Inv s) : ∀ t ∈ growSeq n half k s, Inv t := by
  induction k generalizing s with
  | zero => rintro _ ⟨⟩; exact h
  | succ k ih =>
    unfold growSeq
    split
    · rintro _ ⟨⟩
    · next hr =>
      have htaken := h.takeZonePage _ hr
      split
      · exact ih htaken
      · exact ih htaken.setSeq

protected theorem Inv.extendSeq {x : Nat × Nat} (h : Inv s) : ∀ t ∈ extendSeq s x, Inv t := by
  unfold extendSeq
  extract_lets q p p' dirs chains s1
  split
  · rintro _ ⟨⟩
  · have hused : Inv { s with sluice := { s.sluice with dirsUsed := dirs, chainsUsed := chains } } := h.same
    exact hused.setSeq.growSeq

protected theorem Inv.reserveAll {α : Type} {f : State → α → Option State} {xs : List α} (h : Inv s)
    (hf : ∀ {t x}, Inv t → ∀ u ∈ f t x, Inv u) : ∀ t ∈ reserveAll f xs s, Inv t := by
  induction xs generalizing s with
  | nil => rintro _ ⟨⟩; exact h
  | cons x xs ih => exact Inv.bind fun u hu => ih (hf h u hu)

protected theorem Inv.beginPageIn {ahead : Bool} {e : Nat × Nat} (h : Inv s) : ∀ t ∈ beginPageIn ahead s e, Inv t := by
  unfold beginPageIn
  split
  · split
    · rintro _ ⟨⟩; exact h
    · exact forall_mem_map fun r hr => (h.takeZonePage r hr).modPage.addMove
  · rintro _ ⟨⟩; exact h

protected theorem Inv.fetchPage {cls : Nat} {e : Nat × Nat} (h : Inv s) : Inv (fetchPage s cls e) :=
  h.foldl fun _ _ k => k.sendReq

protected theorem Inv.holdPage {n : Nat} {lenient : Bool} {e : Nat × Nat} (h : Inv s) : ∀ t ∈ holdPage n lenient s e, Inv t := by
  have hheld : Inv { s with sluice := { s.sluice with holds := s.sluice.holds ++ [⟨n, e.1, e.2⟩] } } := h.same
  unfold holdPage
  split
  · split
    · rintro _ ⟨⟩; exact h
    extract_lets held put
    split
    · rintro _ ⟨⟩; exact hheld
    split
    · rintro _ ⟨⟩; exact h
    split
    · split
      · rintro _ ⟨⟩; exact h
      · rintro _ ⟨⟩
    · rintro _ ⟨⟩; exact hheld
  · rintro _ ⟨⟩; exact h

protected theorem Inv.bringUp {cls : Nat} {e : Nat × Nat} (h : Inv s) : Inv (bringUp cls s e) := by
  unfold bringUp
  split
  · exact h
  split
  · exact h.invalidatePage.modPage.fetchPage
  · exact h.cancelPageOut
  · exact h.modPage
  · exact h

protected theorem Inv.reserveStaging {n : Nat} {sl : Slot} (h : Inv s) : ∀ t ∈ reserveStaging s n sl, Inv t := by
  unfold reserveStaging
  extract_lets exts
  split
  · rintro _ ⟨⟩
  refine Inv.bind fun s1 h1 => Inv.bind fun s2 h2 => Inv.bind fun s3 h3 => forall_mem_map fun s4 h4 => ?_
  have hextended := h.reserveAll (fun k => k.extendSeq) s1 h1
  have hbuffers := hextended.reserveAll (fun k => k.allocBuf) s2 h2
  have hpages := hbuffers.reserveAll (fun k => k.beginPageIn) s3 h3
  have hheld := hpages.reserveAll (fun k => k.holdPage) s4 h4
  refine .modSlot (.foldl (hheld.foldl fun _ _ k => k.bringUp) fun _ _ k => ?_)
  split
  · exact k.setSeq
  · exact k

protected theorem Inv.releaseHold {n : Nat} (h : Inv s) : Inv (releaseHold s n) := h.same.frame

protected theorem Inv.endStaging {n : Nat} (h : Inv s) : Inv (endStaging s n) := h.same.releaseHold

protected theorem Inv.leaveFaulted {n : Nat} {r : ErrRec} (h : Inv s) : Inv (leaveFaulted s n r) := by
  unfold leaveFaulted
  split
  · exact h
  · exact h.freeScoped.endStaging.failCore.dropUsers

protected theorem Inv.failConsumers {fuel : Nat} (h : Inv s) : Inv (failConsumers fuel s) := by
  induction fuel generalizing s with
  | zero => exact h
  | succ fuel ih =>
    unfold failConsumers
    split
    · exact h
    · exact ih h.leaveFaulted

protected theorem Inv.failStaged {n : Nat} {r : ErrRec} (h : Inv s) : Inv (failStaged s n r) :=
  h.leaveFaulted.failConsumers

protected theorem Inv.refuseStaging {n code : Nat} (h : Inv s) : Inv (refuseStaging s n code) := h.bump.failStaged

protected theorem Inv.considerStaging {n : Nat} (h : Inv s) : Inv (considerStaging s n) := by
  unfold considerStaging
  split
  · exact h
  split
  · exact h.refuseStaging
  split
  · next hs => exact (h.reserveStaging _ hs).withSluice
  · exact .ite h h.bump.modSlot.withSluice

protected theorem Inv.retryDeferred (h : Inv s) : Inv (retryDeferred s) := h.foldl fun _ _ k => k.considerStaging

protected theorem Inv.withList {n : Nat} {list : List Word64} (h : Inv s) : Inv (withList s n list) :=
  h.modSlot.retryDeferred.considerStaging

protected theorem Inv.requestStaging {n : Nat} (h : Inv s) : Inv (requestStaging s n) := by
  unfold requestStaging
  split
  · exact h
  refine .ite h.withList ?_
  split
  · exact h.refuseStaging
  · exact h.modSlot.startJob

protected theorem Inv.takeSeqList {n gen : Nat} {got : List Served} (h : Inv s) : Inv (takeSeqList s n gen got) := by
  unfold takeSeqList
  split
  · exact h
  · exact .ite h (.ite h.refuseStaging h.withList)

protected theorem Inv.execStagingAnswer {slot : Nat} (h : Inv s) : KeepsInv (execStagingAnswer slot s) := by
  unfold execStagingAnswer
  split
  · exact h.next
  · exact .ite h.setSlot.bump.next h.next

protected theorem Inv.execDeferredRetry (h : Inv s) : KeepsInv (execDeferredRetry s) := by
  unfold execDeferredRetry
  exact .ite h.retryDeferred.evalWaits.next h.next

protected theorem Inv.execSluiceStarved {slot : Nat} (h : Inv s) : KeepsInv (execSluiceStarved slot s) := by
  unfold execSluiceStarved
  split
  · exact h.next
  · exact .ite h.same.raiseTask.next h.next

protected theorem Inv.closePages {n old new : Nat} (h : Inv s) : Inv (closePages s n old new) :=
  h.foldl fun _ _ k => k.invalidatePage

protected theorem Inv.retireExtension {n : Nat} {x : Nat × Nat × Nat} (h : Inv s) : Inv (retireExtension s n x) := by
  unfold retireExtension
  split
  · exact h
  · exact h.setSeq.closePages.modSlot

protected theorem Inv.retireSequences {n : Nat} (h : Inv s) : Inv (retireSequences s n) := by
  unfold retireSequences
  split
  · exact h
  · exact .ite (h.foldl fun _ _ k => k.retireExtension) h

protected theorem Inv.execHostLookahead (h : Inv s) : KeepsInv (execHostLookahead s) := by
  unfold execHostLookahead
  refine .ite h.next (.next (h.foldl fun _ _ k => ?_))
  exact k.getD k.beginPageIn

protected theorem Inv.endOrphan {o : Orphan} (h : Inv s) : Inv (endOrphan s o) := h.same.giveZonePage.giveHostPage

protected theorem Inv.refuseFor {e : Nat × Nat} (h : Inv s) : Inv (refuseFor s e) :=
  h.foldl fun _ _ k => k.refuseStaging

protected theorem Inv.failWalks {e : Nat × Nat} (h : Inv s) : Inv (failWalks s e) := h.same

protected theorem Inv.noteMoveFailed {seq page : Nat} (h : Inv s) : Inv (noteMoveFailed s seq page) := h.raiseUnit

protected theorem Inv.landPage {seq page : Nat} {good : Bool} (h : Inv s) : Inv (landPage seq page good s) := by
  unfold landPage
  refine .goOnPaging ?_
  split
  · exact h.endMove.endOrphan
  split
  · refine .ite ?_ ?_
    · exact .ite h.endMove.invalidatePage.giveHostPage.modPage h.endMove.invalidatePage.modPage.withSluice
    · exact h.endMove.giveZonePage.modPage.failWalks.refuseFor.evalWaits
  · exact h.endMove

protected theorem Inv.finishPageIn {seq page : Nat} {data : Option (List Byte)} (h : Inv s) : Inv (finishPageIn seq page data s) := by
  unfold finishPageIn
  refine .ite h ?_
  split
  · exact h.bump.portRead.startJob
  · exact h.noteMoveFailed.landPage

protected theorem Inv.execPageInComplete {seq page : Nat} {data : Option (List Byte)} (h : Inv s) : KeepsInv (execPageInComplete seq page data s) :=
  h.finishPageIn.next

protected theorem Inv.execPageoutStart {half : Nat} (h : Inv s) : KeepsInv (execPageoutStart half s) := by
  unfold execPageoutStart
  exact .ite h.next h.setHalf.continuePageout.next

protected theorem Inv.sendPage {hostPage : Nat} {data : List Byte} (h : Inv s) : Inv (sendPage s hostPage data) := by
  unfold sendPage
  exact .ite h.bump.portSend.emit h.bump.emit

protected theorem Inv.finishPageOut {seq page : Nat} {ok : Bool} (h : Inv s) : Inv (finishPageOut seq page ok s) := by
  unfold finishPageOut
  split
  · refine .ite h ?_
    dsimp only
    split
    · exact .goOnPaging (.endOrphan (.endMove (.ite (.sendPage (.dropJob (.ite h h.noteMoveFailed))) (.dropJob (.ite h h.noteMoveFailed)))))
    split
    · refine .ite ?_ ?_
      · exact .goOnPaging (.modPage (.giveZonePage (.invalidatePage (.endMove (.sendPage (.dropJob (.ite h h.noteMoveFailed)))))))
      · exact .cancelPageOut (.dropJob (.ite h h.noteMoveFailed))
    · exact .endMove (.dropJob (.ite h h.noteMoveFailed))
  · exact h

protected theorem Inv.execPageoutComplete {seq page : Nat} {ok : Bool} (h : Inv s) : KeepsInv (execPageoutComplete seq page ok s) :=
  h.finishPageOut.next

/-! ### Machine/PortOps.lean -/

protected theorem Inv.portUr (h : Inv s) : Inv (portUr s) := by
  unfold portUr
  exact .ite h.bump h

protected theorem Inv.completeUr {tag : Nat} (h : Inv s) : Inv (completeUr s tag) := by
  unfold completeUr
  exact .ite h.bump.emit h

protected theorem Inv.portUncorrectableError {aerBit : Nat} (h : Inv s) : Inv (portUncorrectableError s aerBit) :=
  h.same.frame.bump.setObj.emit.pushEvent

protected theorem Inv.portPoisonedRx (h : Inv s) : Inv (portPoisonedRx s) := by
  unfold portPoisonedRx
  exact .ite h.bump.portUncorrectableError.frame h

protected theorem Inv.dropFramesOf {p : Nat} (h : Inv s) : Inv (dropFramesOf s p) :=
  h.foldl fun _ _ k => k.dropFrame

protected theorem Inv.darkRegion {r : Nat} (h : Inv s) : Inv (darkRegion s r) := by
  unfold darkRegion
  exact .ite h.same h

protected theorem Inv.leaveService {p : Nat} (h : Inv s) : Inv (leaveService s p) := by
  unfold leaveService
  exact (h.setCoreState.dropFramesOf.setPos.dropJobsFor.same.when fun h => h.darkRegion).settleLicence

protected theorem Inv.retireCore {p source code : Nat} (h : Inv s) : Inv (retireCore s p source code) :=
  h.appendDefect.leaveService

protected theorem Inv.retireIfEmpty {p : Nat} (h : Inv s) : Inv (retireIfEmpty s p) := by
  unfold retireIfEmpty
  exact .ite h.retireCore h

end Sys2Proof.Machine
end

section
/-! SUPPORT. The functions of the model's files Fountain, Operands, Memory and Control
keep the invariant, each by those that it is made of. -/

namespace Sys2Proof.Machine

-- One theorem after another: elaborated side by side, each holds a thread of its own.
set_option Elab.async false

variable {s : State}

/-! ### Machine/Fountain.lean -/

protected theorem Inv.noteDrop {flag offset : Nat} (h : Inv s) : Inv (noteDrop s flag offset) :=
  h.setObj.bump.setObj.setObj

protected theorem Inv.dropRecord {code flag offset slot tag : Nat} (h : Inv s) : Inv (dropRecord s code flag offset slot tag) :=
  h.noteDrop.raise

protected theorem Inv.execBar2RecordWrite {offset : Nat} {data : List Byte} {ep : Bool} (h : Inv s) : KeepsInv (execBar2RecordWrite offset data ep s) := by
  unfold execBar2RecordWrite
  refine .ite h.portUr.next (.ite ?_ ?_)
  · exact h.portPoisonedRx.bump.next
  · exact .ite h.bump.dropRecord.next (.ite h.bump.dropRecord.next h.bump.withFountain.next)

protected theorem Inv.execBar2Read {rd : MemRd} (h : Inv s) : KeepsInv (execBar2Read rd s) := h.completeUr.next

protected theorem Inv.execIntakeTake {chk : Chk} (h : Inv s) : KeepsInv (execIntakeTake chk s) := by
  unfold execIntakeTake
  split
  · refine .ite (((h.same.when fun h => h.countCode).dropRecord).next) ?_
    refine .ite (((h.same.when fun h => h.countCode).dropRecord).next) (.ite ?_ ?_)
    · exact ((h.same.when fun h => h.countCode).enterRecord).next
    · exact ((h.same.when fun h => h.countCode).dropRecord).next
  · exact h.next

protected theorem Inv.execAgeLimitExpiry {slot : Nat} (h : Inv s) : KeepsInv (execAgeLimitExpiry slot s) := h.next

protected theorem Inv.placeGroup {n : Nat} {sl : Slot} {p : Nat} (h : Inv s) : Inv (placeGroup s n sl p) :=
  h.same.setGroup.setSlot.bump.when fun h => h.releaseHold

protected theorem Inv.execGroupPlace {half : Nat} (h : Inv s) : KeepsInv (execGroupPlace half s) := by
  unfold execGroupPlace
  refine .ite h.next ?_
  split
  · exact h.next
  refine .ite h.failStaged.evalWaits.next ?_
  split
  · exact h.next
  · exact .ite h.faultTask.next (.ite h.next (.next (.placeGroup (.ite h.bump h))))

protected theorem Inv.removeGroup {p gs : Nat} {g : Group} (h : Inv s) : Inv (removeGroup s p gs g) := h.setPos

protected theorem Inv.settleDraining {n : Nat} (h : Inv s) : Inv (settleDraining s n) := by
  unfold settleDraining
  split
  · exact h
  · exact .ite h.setSlot h

protected theorem Inv.execGroupExit {p g : Nat} (h : Inv s) : KeepsInv (execGroupExit p g s) := by
  unfold execGroupExit
  split
  · exact h.next
  · exact .ite h.next h.removeGroup.modSlot.settleDraining.retireIfEmpty.next

protected theorem Inv.doSignals {n : Nat} {ws : List Word64} (h : Inv s) : Inv (doSignals s n ws) := by
  unfold doSignals
  exact h.foldl fun _ _ k => .ite k.signalLocal (.ite k.sendSignal k)

protected theorem Inv.wakeConsumers {n : Nat} (h : Inv s) : Inv (wakeConsumers s n) := by
  unfold wakeConsumers
  refine h.foldl fun _ _ k => ?_
  split
  · exact .ite k k.modSlot
  · exact k

protected theorem Inv.finishTask {n : Nat} {sl : Slot} (h : Inv s) : Inv (finishTask s n sl) := by
  unfold finishTask
  refine .ite ?_ ?_
  · exact h.freeScoped.carryFrees.raiseTask.writeFaulted.dropUsers
  · exact .wakeConsumers (.dropUsers (.ite h.freeScoped.carryFrees.retireSequences.bump.setSlot h.freeScoped.carryFrees.retireSequences.bump.modSlot))

protected theorem Inv.execTaskRetire {slot : Nat} (h : Inv s) : KeepsInv (execTaskRetire slot s) := by
  unfold execTaskRetire
  split
  · exact h.next
  refine .ite h.next (.ite (.next (.ite h h.doSignals.modSlot)) ?_)
  split
  · exact .next (.ite h h.doSignals.modSlot)
  · exact .next (.evalWaits (.finishTask (.ite h h.doSignals.modSlot)))

protected theorem Inv.removeGroups {n : Nat} (h : Inv s) : Inv (removeGroups s n) := by
  unfold removeGroups
  refine h.same.foldl fun _ _ k => ?_
  split
  · exact k
  · exact k.removeGroup.retireIfEmpty

protected theorem Inv.enterReplay {n code : Nat} {producers : List (Nat × Nat)} (h : Inv s) : Inv (enterReplay s n code producers) := by
  unfold enterReplay
  exact .ite h.freeScoped.endStaging.failStaged (.ite h.freeScoped.endStaging.bump.modSlot h.freeScoped.endStaging.bump.modSlot)

protected theorem Inv.forgetReq {r : Req} (h : Inv s) : Inv (forgetReq s r) := by
  unfold forgetReq
  split
  · exact h.modMem
  · exact h
  · exact h.modJob

protected theorem Inv.discardIntake {n g : Nat} (h : Inv s) : Inv (discardIntake n s g) :=
  h.setSlice.foldl fun _ _ k => k.forgetReq

protected theorem Inv.discardSill {n dir : Nat} (h : Inv s) : Inv (discardSill n s dir) :=
  h.same.foldl fun _ _ k => k.forgetReq

protected theorem Inv.forgetPeer {r : PeerReq} (h : Inv s) : Inv (forgetPeer s r) := by
  dsimp only [forgetPeer]
  split
  · exact h.same.acceptNext
  · exact h.same

protected theorem Inv.discardEgress {n l : Nat} (h : Inv s) : Inv (discardEgress n s l) := by
  unfold discardEgress
  refine .setLink (Inv.foldl_on Prod.snd h fun _ _ k => ?_)
  split
  · exact k.forgetPeer
  · exact k

protected theorem Inv.discardHeld {n : Nat} (h : Inv s) : Inv (discardHeld s n) := by
  unfold discardHeld
  exact ((h.foldl fun _ _ k => k.discardIntake).foldl fun _ _ k => k.discardSill).foldl fun _ _ k => k.discardEgress

protected theorem Inv.execTaskFaultSettle {slot : Nat} (h : Inv s) : KeepsInv (execTaskFaultSettle slot s) := by
  unfold execTaskFaultSettle
  split
  · exact h.next
  split
  · exact h.next
  refine .ite h.discardHeld.next ?_
  dsimp only
  split
  · exact h.discardHeld.removeGroups.enterReplay.next
  · exact h.discardHeld.removeGroups.poisonSignals.freeScoped.endStaging.writeFaulted.dropUsers.failConsumers.evalWaits.next

protected theorem Inv.execTaskTimeout {slot : Nat} (h : Inv s) : KeepsInv (execTaskTimeout slot s) := by
  unfold execTaskTimeout
  split
  · exact h.next
  · exact .ite h.faultTask.next h.next

protected theorem Inv.endTask {n : Nat} {r : ErrRec} (h : Inv s) : Inv (endTask s n r) := by
  unfold endTask
  split
  · exact h
  · exact .ite h.failStaged (.ite h.faultTask h)

protected theorem Inv.execDrainDeadline {fn : DrainFn} (h : Inv s) : KeepsInv (execDrainDeadline fn s) := by
  unfold execDrainDeadline
  split
  · exact h.next
  dsimp only
  split
  · exact .next (.settleLicence (.ite ((h.same.foldl fun _ _ k => k.faultTask).setCoreState) (h.same.foldl fun _ _ k => k.faultTask)))
  · exact ((h.same.foldl fun _ _ k => k.faultTask).setClassState).next

/-! ### Machine/Operands.lean -/

protected theorem Inv.putGroup {p g : Nat} {gr0 : Group} (h : Inv s) : Inv (putGroup s p g gr0) := by
  unfold putGroup
  exact .ite h.setGroup.modSlot (h.setGroup.when fun h => h.faultTask)

protected theorem Inv.faultAt {c : Ctx} {code addr : Nat} (h : Inv s) : Inv (faultAt s c code addr) := h.faultTask

protected theorem Inv.issue {p g op : Nat} {w : InstrBits} {f : Form} {run : Ctx → State → State} (h : Inv s) (hrun : ∀ {a0 t}, Inv t → Inv (run a0 t)) : Inv (issue p g op w f run s) := by
  unfold issue
  split
  · exact h
  split
  · exact h
  · exact .ite h.faultAt (.ite h (.ite h.faultAt (.ite h.faultAt (.ite h (hrun h)))))

protected theorem Inv.finishAt {c : Ctx} {gr : Group} (h : Inv s) : Inv (finishAt c gr s) := h.putGroup

protected theorem Inv.runReg {f : Ctx → Nat → Nat} {c : Ctx} (h : Inv s) : Inv (runReg f c s) := h.finishAt

protected theorem Inv.runPred {f : Ctx → Nat → Bool} {c : Ctx} (h : Inv s) : Inv (runPred f c s) := h.finishAt

protected theorem Inv.runFloat {f : Ctx → Nat → Flushed} {c : Ctx} (h : Inv s) : Inv (runFloat f c s) :=
  h.noteFlush.finishAt

protected theorem Inv.runFloatPred {f : Ctx → Nat → Bool × Bool} {c : Ctx} (h : Inv s) : Inv (runFloatPred f c s) :=
  h.noteFlush.finishAt

/-! ### Machine/Memory.lean -/

protected theorem Inv.dropMem {p g id : Nat} (h : Inv s) : Inv (dropMem s p g id) := by
  unfold dropMem
  split
  · exact h
  · exact h.setGroup

protected theorem Inv.faultMem {p : Nat} {gr : Group} {m : MemOp} {code addr : Nat} (h : Inv s) : Inv (faultMem s p gr m code addr) :=
  h.faultTask

protected theorem Inv.addProgress {n sum : Nat} (h : Inv s) : Inv (addProgress s n sum) := by
  unfold addProgress
  exact .ite h h.modSlot

protected theorem Inv.runPubs {p g : Nat} (h : Inv s) : Inv (runPubs s p g) := by
  unfold runPubs
  split
  · exact h
  · exact h.setGroup.addProgress

protected theorem Inv.runLatePubs {p : Nat} (h : Inv s) : Inv (runLatePubs s p) :=
  h.setPos.foldl fun _ _ k => k.addProgress

protected theorem Inv.putMem {p g : Nat} {m : MemOp} (h : Inv s) : Inv (putMem s p g m) := by
  unfold putMem
  split
  · exact h
  · exact h.setGroup

protected theorem Inv.noteReach {n : Nat} {as : List Nat} {ws : List Where} (h : Inv s) : Inv (noteReach s n as ws) := by
  unfold noteReach
  exact .ite h.modSlot h

protected theorem Inv.askFar {p g : Nat} {gr : Group} {id cls : Nat} {far : List Nat} (h : Inv s) : Inv (askFar s p g gr id cls far) := by
  unfold askFar
  exact .ite (h.foldl fun _ _ k => k.sendReq) ((h.foldl fun _ _ k => k.sendReq).peerRequests)

protected theorem Inv.startLoad {p g : Nat} {gr : Group} {m : MemOp} {cls : Nat} (h : Inv s) : Inv (startLoad s p g gr m cls) :=
  h.setPos.putMem.askFar

protected theorem Inv.startStore {p g : Nat} {gr : Group} {m : MemOp} {cls : Nat} (h : Inv s) : Inv (startStore s p g gr m cls) := by
  unfold startStore
  refine .ite ?_ ?_
  · exact h.same.setPos.modGroup.putMem.foldl fun _ _ k => k.sendReq
  · exact (h.same.setPos.modGroup.putMem.foldl fun _ _ k => k.sendReq).peerRequests

protected theorem Inv.startRed {op : RedOp} {variant p g : Nat} {gr : Group} {m : MemOp} {cls : Nat} (h : Inv s) : Inv (startRed op variant s p g gr m cls) := by
  unfold startRed
  exact .ite (h.setPos.putMem.foldl fun _ _ k => k.sendReq) ((h.setPos.putMem.foldl fun _ _ k => k.sendReq).peerRequests)

protected theorem Inv.beginWalk {p seq page : Nat} {write : Bool} {who : Walker} (h : Inv s) : Inv (beginWalk s p seq page write who).2 :=
  h.setPos.bump

protected theorem Inv.startSeqLoad {p g : Nat} {gr : Group} {m : MemOp} {cls : Nat} (h : Inv s) : Inv (startSeqLoad s p g gr m cls) :=
  h.setPos.putMem.foldl fun _ _ k => k.sendReq

protected theorem Inv.translateMem {p g id : Nat} (h : Inv s) : Inv (translateMem s p g id) := by
  unfold translateMem
  split
  · exact h
  dsimp only
  split
  · exact h.setPos.bump.putMem
  refine .ite h.dropMem.faultMem (.ite h.dropMem.faultMem ?_)
  split
  · exact h.setPos.putMem
  · exact .ite h.setPos.putMem.startStore h.setPos.putMem.startSeqLoad

protected theorem Inv.enterMem {c : Ctx} {m : MemOp} (h : Inv s) : Inv (enterMem c s m) := h.finishAt.setPos

protected theorem Inv.runMem {kind : MemKind} {size : Nat} {sext ro : Bool} {kept : Ctx → Sparse Byte} {refuse : State → Nat → Where → Option Nat} {start : State → Nat → Nat → Group → MemOp → Nat → State} {c : Ctx} (h : Inv s) (hstart : ∀ {t a1 a2 a3 a4 a5}, Inv t → Inv (start t a1 a2 a3 a4 a5)) : Inv (runMem kind size sext ro kept refuse start c s) := by
  unfold runMem
  refine .ite h.finishAt (.ite h ?_)
  split
  · exact h.faultAt
  split
  · exact h.faultAt
  dsimp only
  split
  · exact h.enterMem.noteReach
  · exact hstart h.enterMem.noteReach

protected theorem Inv.runSeq {kind : MemKind} {size : Nat} {sext : Bool} {kept : Ctx → Sparse Byte} {c : Ctx} (h : Inv s) : Inv (runSeq kind size sext kept c s) := by
  unfold runSeq
  refine .ite h.finishAt (.ite h ?_)
  split
  · exact h.faultAt
  · exact h.faultAt
  · exact h.enterMem.translateMem

protected theorem Inv.execSt {p g : Nat} {w : InstrBits} (h : Inv s) : KeepsInv (execSt p g w s) := by
  unfold execSt
  exact (h.issue (fun k => .ite k.runSeq (k.runMem (fun k => k.startStore)))).next

protected theorem Inv.execAtom {p g : Nat} {w : InstrBits} (h : Inv s) : KeepsInv (execAtom p g w s) := by
  unfold execAtom
  exact (h.issue (fun k => k.runMem (fun k => k.startRed))).next

protected theorem Inv.execRed {p g : Nat} {w : InstrBits} (h : Inv s) : KeepsInv (execRed p g w s) := by
  unfold execRed
  exact (h.issue (fun k => k.runMem (fun k => k.startRed))).next

protected theorem Inv.roRefetch {p g : Nat} {gr : Group} {m : MemOp} {a : Nat} (h : Inv s) : Inv (roRefetch s p g gr m a) :=
  h.bump.putMem.setPos.askFar

protected theorem Inv.slotFailed {p g : Nat} {gr : Group} {m : MemOp} {x : Nat × Nat} (h : Inv s) : Inv (slotFailed s p g gr m x) :=
  h.dropMem.endTask.evalWaits.faultMem.bump

protected theorem Inv.execLoadDataReturn {p g id : Nat} {chk : Chk} (h : Inv s) : KeepsInv (execLoadDataReturn p g id chk s) := by
  unfold execLoadDataReturn
  split
  · exact h.next
  refine .ite h.next (.ite h.roRefetch.next (.ite h.slotFailed.next ?_))
  dsimp only
  split
  · exact .ite h.noteTransient.dropMem.faultMem.next h.noteTransient.dropMem.dirtyFail.next
  · exact h.noteTransient.dropMem.dirtyFail.next
  split
  · exact (h.noteTransient.dropMem.when fun h => h.bump).next
  refine .next ?_
  refine .runPubs ?_
  refine .ite ?_ ?_
  · exact ((h.noteTransient.dropMem.when fun h => h.bump).setGroup).setPos
  · exact (h.noteTransient.dropMem.when fun h => h.bump).setGroup

protected theorem Inv.execWriteAcceptance {p g id : Nat} (h : Inv s) : KeepsInv (execWriteAcceptance p g id s) := by
  dsimp only [execWriteAcceptance]
  split
  · exact .ite h.dropMem.runPubs.next h.next
  · exact h.setPos.runLatePubs.next

protected theorem Inv.fetchLine {p g cls line : Nat} (h : Inv s) : Inv (fetchLine s p g cls line) := by
  unfold fetchLine
  exact .ite h h.startJob

protected theorem Inv.takeFetch {p g line : Nat} {got : List Served} (h : Inv s) : Inv (takeFetch s p g line got) := by
  dsimp only [takeFetch]
  split
  · exact h.setPos.when fun h => h.dirtyFail
  · exact h.setPos

protected theorem Inv.execFetchLineReturn {p g : Nat} {chk : Chk} (h : Inv s) : KeepsInv (execFetchLineReturn p g chk s) := by
  unfold execFetchLineReturn
  split
  · split
    · exact h.next
    refine .ite h.next ?_
    split
    · exact h.faultTask.next
    · exact .ite h.fetchLine.next (.ite h.bump.setPos.fetchLine.next h.setPos.setGroup.fetchLine.next)
  · exact h.next

/-! ### Machine/Control.lean -/

protected theorem Inv.branchTo {c : Ctx} {gr : Group} {target : Nat → Nat} (h : Inv s) : Inv (branchTo c gr target s) := by
  unfold branchTo
  split
  · exact h.finishAt
  · exact h.putGroup
  refine .ite h.faultAt ?_
  split
  · exact h.faultAt
  · exact h.putGroup

protected theorem Inv.execBra {p g : Nat} {w : InstrBits} (h : Inv s) : KeepsInv (execBra p g w s) := by
  unfold execBra
  exact (h.issue (fun k => k.branchTo)).next

protected theorem Inv.execBrx {p g : Nat} {w : InstrBits} (h : Inv s) : KeepsInv (execBrx p g w s) := by
  unfold execBrx
  exact (h.issue (fun k => .ite k.faultAt k.branchTo)).next

protected theorem Inv.parkAt {st : PathState} {c : Ctx} (h : Inv s) : Inv (parkAt st c s) := by
  unfold parkAt
  refine .ite h.finishAt (.ite h.putGroup ?_)
  dsimp only
  split
  · exact h.faultAt
  · exact h.putGroup

protected theorem Inv.execBar {p g : Nat} {w : InstrBits} (h : Inv s) : KeepsInv (execBar p g w s) := by
  unfold execBar
  exact (h.issue (fun k => k.parkAt)).next

protected theorem Inv.execTbar {p g : Nat} {w : InstrBits} (h : Inv s) : KeepsInv (execTbar p g w s) := by
  unfold execTbar
  exact (h.issue (fun k => .ite k.faultAt k.parkAt)).next

protected theorem Inv.execExit {p g : Nat} {w : InstrBits} (h : Inv s) : KeepsInv (execExit p g w s) := by
  unfold execExit
  exact (h.issue (fun k => k.putGroup)).next

protected theorem Inv.execBarrierRelease {p g b : Nat} (h : Inv s) : KeepsInv (execBarrierRelease p g b s) := by
  unfold execBarrierRelease
  split
  · exact h.next
  · exact .ite h.putGroup.next h.next

protected theorem Inv.execTaskBarrierRelease {slot : Nat} (h : Inv s) : KeepsInv (execTaskBarrierRelease slot s) := by
  unfold execTaskBarrierRelease
  split
  · exact h.next
  refine .ite ?_ h.next
  refine .next ?_
  refine h.setSlot.foldl fun _ _ k => ?_
  split
  · exact k.putGroup
  · exact k

protected theorem Inv.execCwait {p g : Nat} {w : InstrBits} (h : Inv s) : KeepsInv (execCwait p g w s) := by
  unfold execCwait
  exact (h.issue (fun k => k.finishAt)).next

protected theorem Inv.execFence {p g : Nat} {w : InstrBits} (h : Inv s) : KeepsInv (execFence p g w s) := by
  unfold execFence
  exact (h.issue (fun k => k.finishAt)).next

protected theorem Inv.spawnTo {c : Ctx} {dev : Nat} {bs : List Byte} (h : Inv s) : Inv (spawnTo c dev bs s) := by
  unfold spawnTo
  exact .ite h.takeSpawn.finishAt (.ite h.setPos.finishAt.modSlot.peerRequests h.finishAt)

protected theorem Inv.execSpawn {p g : Nat} {w : InstrBits} (h : Inv s) : KeepsInv (execSpawn p g w s) := by
  unfold execSpawn
  exact (h.issue (fun k => .ite k.finishAt (.ite k (.ite k.faultAt (.ite k.faultAt k.spawnTo))))).next

protected theorem Inv.execPub {p g : Nat} {w : InstrBits} (h : Inv s) : KeepsInv (execPub p g w s) := by
  unfold execPub
  exact (h.issue (fun k => .ite k.finishAt k.finishAt.runPubs)).next

protected theorem Inv.execSrd {p g : Nat} {w : InstrBits} (h : Inv s) : KeepsInv (execSrd p g w s) := by
  unfold execSrd
  exact (h.issue (fun k => k.finishAt)).next

end Sys2Proof.Machine
end

section
/-! SUPPORT. The functions of the model's files Arrays, Drain, Weir and Walk
keep the invariant, each by those that it is made of. -/

namespace Sys2Proof.Machine

-- One theorem after another: elaborated side by side, each holds a thread of its own.
set_option Elab.async false

variable {s : State}

/-! ### Machine/Arrays.lean -/

protected theorem Inv.setArray {p a : Nat} {u : ArrayUnit} (h : Inv s) : Inv (setArray s p a u) := h.setPos

protected theorem Inv.fallCount {p g slot k : Nat} (h : Inv s) : Inv (fallCount s p g slot k) := by
  unfold fallCount
  split
  · exact h
  · exact .ite h.setGroup h

protected theorem Inv.execMma {p g : Nat} {w : InstrBits} (h : Inv s) : KeepsInv (execMma p g w s) := by
  unfold execMma
  refine .next ?_
  refine h.issue fun k => ?_
  refine .ite k.finishAt ?_
  split
  · exact k
  refine .ite k (.ite k.faultAt (.ite k.faultAt ?_))
  dsimp only
  split
  · exact k.faultAt
  · exact k.setArray.finishAt

protected theorem Inv.execArrayOpStart {p a : Nat} (h : Inv s) : KeepsInv (execArrayOpStart p a s) := by
  dsimp only [execArrayOpStart]
  split
  · exact h.next
  · exact .ite h.setArray.next (.ite h.next h.same.setArray.next)

protected theorem Inv.writeAt {p g a wtag : Nat} {bs : List Byte} (h : Inv s) : Inv (writeAt s p g a wtag bs) := by
  unfold writeAt
  split
  · split
    · exact h
    · exact h.setPos.setGroup
  · exact h.setPos
  · exact h

protected theorem Inv.noteWorkFlush {slot use : Nat} {flushed : Bool} (h : Inv s) : Inv (noteWorkFlush s slot use flushed) :=
  h.noteFlush

protected theorem Inv.workFail {slot use : Nat} {r : ErrRec} {b : BadWord} (h : Inv s) : Inv (workFail s slot use r b) := by
  unfold workFail
  exact .ite h.dirtyFail h.same.raise.bump

protected theorem Inv.storedFail {n use : Nat} {r : ErrRec} {addr : Nat} {word : List Byte} (h : Inv s) : Inv (storedFail s n use r addr word) := by
  unfold storedFail
  exact .bump (.ite h.same.faultTask h.same.raise)

protected theorem Inv.execMfrag {p g : Nat} {w : InstrBits} (h : Inv s) : KeepsInv (execMfrag p g w s) := by
  unfold execMfrag
  exact (h.issue (fun k => .ite k.faultAt (.ite k k.setArray.finishAt))).next

protected theorem Inv.execMfragWindowStart {p a : Nat} (h : Inv s) : KeepsInv (execMfragWindowStart p a s) := by
  dsimp only [execMfragWindowStart]
  split
  · exact h.setArray.next
  · exact .ite h.setArray.next (.ite h.next h.setArray.next)

protected theorem Inv.execMfragComplete {p a : Nat} {chk : Chk} (h : Inv s) : KeepsInv (execMfragComplete p a chk s) := by
  dsimp only [execMfragComplete]
  split
  · exact h.next
  split
  · exact h.noteTransient.frame.setArray.next
  refine .ite h.noteTransient.frame.setArray.next (.ite ?_ ?_)
  · exact h.noteTransient.frame.setArray.dirtyFail.next
  · exact h.noteTransient.frame.setArray.setGroup.noteFlush.fallCount.next

/-! ### Machine/Drain.lean -/

protected theorem Inv.beginDrain {fn : DrainFn} (h : Inv s) : Inv (beginDrain s fn) := h.same

protected theorem Inv.beginDraining {n : Nat} (h : Inv s) : Inv (beginDraining s n) := h.modSlot

protected theorem Inv.withdrawCore {p : Nat} (h : Inv s) : Inv (withdrawCore s p) := by
  unfold withdrawCore
  exact .ite h (h.setCoreState.beginDrain.foldl fun _ _ k => k.beginDraining)

protected theorem Inv.withdrawTask {n : Nat} (h : Inv s) : Inv (withdrawTask s n) := by
  unfold withdrawTask
  split
  · exact h
  · exact .ite h.beginDraining (.ite h.endTask h)

protected theorem Inv.withdrawClass {c : Nat} (h : Inv s) : Inv (withdrawClass s c) := by
  unfold withdrawClass
  exact .ite h ((h.setClassState.beginDrain.foldl fun _ _ k => k.withdrawTask).evalWaits)

protected theorem Inv.reserveFail {chk : ReserveChk} (h : Inv s) : Inv (reserveFail s chk) := by
  unfold reserveFail
  split
  · exact h
  · exact h.bump
  · exact ((h.raiseUnit.foldl fun _ _ k => k.endTask).freeSeq).evalWaits
  · exact h.raiseUnit.withSluice.foldl fun _ _ k => k.withdrawClass

protected theorem Inv.execStagingWindowEntry {rs : ReserveChk} (h : Inv s) : KeepsInv (execStagingWindowEntry rs s) := by
  unfold execStagingWindowEntry
  refine .ite h.next ?_
  split
  · exact h.next
  · exact .ite h.modSlot.reserveFail.requestStaging.evalWaits.next h.modSlot.reserveFail.next

/-! ### Machine/Weir.lean -/

protected theorem Inv.setEngine {p unit : Nat} {e : Engine} (h : Inv s) : Inv (setEngine s p unit e) := h.setPos

protected theorem Inv.execWeir {p g : Nat} {w : InstrBits} (h : Inv s) : KeepsInv (execWeir p g w s) := by
  unfold execWeir
  refine .next ?_
  refine h.issue fun k => ?_
  refine .ite k.finishAt (.ite k (.ite k.faultAt (.ite k.faultAt ?_)))
  dsimp only
  split
  · exact k.faultAt
  · exact k.setEngine.finishAt

protected theorem Inv.endRun {p unit : Nat} (h : Inv s) : Inv (endRun s p unit) := h.setEngine.bump

protected theorem Inv.faultCmd {p unit : Nat} {o : WeirCmd} {code : Nat} (h : Inv s) : Inv (faultCmd s p unit o code) := by
  unfold faultCmd
  exact .ite h.faultTask h.raise.endRun

protected theorem Inv.resolveCmd {p unit a : Nat} (h : Inv s) : Inv (resolveCmd s p unit a) := by
  dsimp only [resolveCmd]
  split
  · exact h
  · exact h.setEngine.when fun h => h.startJob

protected theorem Inv.translateCmd {p unit : Nat} {o : WeirCmd} {ref : Nat} (h : Inv s) : Inv (translateCmd s p unit o ref) := by
  unfold translateCmd
  refine .ite h.faultCmd ?_
  split
  · exact .ite h.faultCmd (.ite h.faultCmd h.setPos.resolveCmd)
  · exact h.beginWalk

protected theorem Inv.startCmd {p unit : Nat} {want : List Nat → Bool} (h : Inv s) : Inv (startCmd s p unit want) := by
  dsimp only [startCmd]
  split
  · refine .ite h.setEngine (.ite h ?_)
    split
    · exact h.same.setEngine
    · exact h.same.setEngine.translateCmd
  · exact h

protected theorem Inv.execLxuExpand {p : Nat} (h : Inv s) : KeepsInv (execLxuExpand p s) := h.startCmd.next

protected theorem Inv.execLytTranspose {p : Nat} (h : Inv s) : KeepsInv (execLytTranspose p s) := h.startCmd.next

protected theorem Inv.execLytIngest {p : Nat} (h : Inv s) : KeepsInv (execLytIngest p s) := h.startCmd.next

protected theorem Inv.stopCmd {p unit : Nat} {rd : Bool → Nat → Byte} {o : WeirCmd} {lat : Nat → Byte} {page : Option Nat} (h : Inv s) : Inv (stopCmd s p unit rd o lat page) := by
  dsimp only [stopCmd]
  split
  · refine .ite ?_ ?_
    · exact ((((h.same.when fun h => h.setEngine.noteWorkFlush).foldl fun _ _ k => k.writeAt).setPos).dropJobsFor).startJob
    · exact (((h.same.when fun h => h.setEngine.noteWorkFlush).foldl fun _ _ k => k.writeAt).setPos).dropJobsFor
  · exact (((h.same.when fun h => h.setEngine.noteWorkFlush).foldl fun _ _ k => k.writeAt).setPos).dropJobsFor

protected theorem Inv.endCmd {p unit : Nat} {o : WeirCmd} (h : Inv s) : Inv (endCmd s p unit o) := by
  unfold endCmd
  split
  · exact h
  · exact h.setEngine.fallCount

protected theorem Inv.finishExpand {p : Nat} {rd : Bool → Nat → Byte} {r : RunningCmd} {lat : Sparse (Option Byte)} (h : Inv s) : Inv (finishExpand s p rd r lat) := by
  unfold finishExpand
  exact (((h.foldl fun _ _ k => k.writeAt).noteWorkFlush).setEngine).endCmd

protected theorem Inv.finishLayout {p : Nat} {rd : Bool → Nat → Byte} {e : Engine} {r : RunningCmd} (h : Inv s) : Inv (finishLayout s p rd e r) := by
  dsimp only [finishLayout]
  split
  · exact .ite h.dropJobsFor.endCmd h.setEngine.startJob
  · exact (h.foldl fun _ _ k => k.writeAt).endCmd

/-! ### Machine/Walk.lean -/

protected theorem Inv.endWalk {p id : Nat} (h : Inv s) : Inv (endWalk s p id) := h.setPos

protected theorem Inv.markWalk {p id : Nat} {st : WalkState} (h : Inv s) : Inv (markWalk s p id st) := h.setPos

protected theorem Inv.resumeWalk {p : Nat} {w : Walk} (h : Inv s) : Inv (resumeWalk s p w) := by
  unfold resumeWalk
  split
  · split
    · exact h
    · exact h.putMem.translateMem
  split
  · exact h
  split
  · exact h
  · exact h.translateCmd

protected theorem Inv.answerWalk {p : Nat} {w : Walk} {loc : PageLoc} (h : Inv s) : Inv (answerWalk s p w loc) :=
  h.endWalk.setPos.resumeWalk

protected theorem Inv.faultWalk {p : Nat} {w : Walk} {code : Nat} (h : Inv s) : Inv (faultWalk s p w code) := by
  dsimp only [faultWalk]
  split
  · split
    · exact h.endWalk
    · exact h.endWalk.dropMem.faultMem
  split
  · exact h.endWalk
  · exact h.endWalk.faultCmd

protected theorem Inv.execPageWalk {s0 : State} {p id : Nat} {rs : ReserveChk} (h : Inv s0) : KeepsInv (execPageWalk p id rs s0) := by
  dsimp only [execPageWalk]
  split
  · exact .next (.ite h.reserveFail h)
  refine .ite (.next (.ite h.reserveFail h)) ?_
  split
  · refine .ite (.next (.answerWalk (.ite h.reserveFail h))) ?_
    refine .ite ?_ (.next (.markWalk (.ite h.reserveFail h)))
    split
    · exact .next (.answerWalk (.ite h.reserveFail h))
    · exact .next (.answerWalk (.ite h.reserveFail h))
  · exact .next (.markWalk (.ite h.reserveFail h))

protected theorem Inv.execDemandFault {p id : Nat} (h : Inv s) : KeepsInv (execDemandFault p id s) := by
  unfold execDemandFault
  split
  · exact h.next
  refine .ite h.next ?_
  split
  · exact h.faultWalk.next
  split
  · exact h.faultWalk.next
  refine .ite h.faultWalk.next (.ite h.faultWalk.next (.ite h.faultWalk.next (.ite h.faultWalk.next ?_)))
  split
  · exact .next (.answerWalk (.ite h h.bump))
  · exact .next (.answerWalk (.ite h.bump h))
  · exact .next (.answerWalk (.fetchPage (.modPage (.invalidatePage (.ite h.bump (.ite h h.bump))))))
  · exact h.cancelPageOut.answerWalk.next
  · exact .ite h.next h.modPage.markWalk.next
  split
  · exact h.next
  · next hs => exact (h.beginPageIn _ hs).markWalk.next

protected theorem Inv.execWalkerInvalidate {seq page : Nat} (h : Inv s) : KeepsInv (execWalkerInvalidate seq page s) :=
  h.invalidatePage.next

protected theorem Inv.execPromoteRequest {p seq page : Nat} (h : Inv s) : KeepsInv (execPromoteRequest p seq page s) := by
  dsimp only [execPromoteRequest]
  split
  · refine .ite h.next (.next ?_)
    refine .startJob (.setPos ?_)
    split
    · exact h.dropFrame
    · exact h
  · exact h.next

protected theorem Inv.execPromotionCopyComplete {p : Nat} (h : Inv s) : KeepsInv (execPromotionCopyComplete p s) := by
  dsimp only [execPromotionCopyComplete]
  split
  · exact h.next
  split
  · exact h.setPos.next
  · exact .ite h.next (.ite h.setPos.dropJob.next h.setPos.dropJob.setPos.bump.modPage.next)

protected theorem Inv.scrubReport {p off : Nat} (h : Inv s) : Inv (scrubReport s p off) := h.raise

protected theorem Inv.takeScrub {p off seq page : Nat} {got : List Served} (h : Inv s) : Inv (takeScrub s p off seq page got) := by
  unfold takeScrub
  exact .ite h (.ite h.scrubReport h.setPos.bump)

protected theorem Inv.scrubFailed {p off : Nat} (h : Inv s) : Inv (scrubFailed s p off) := by
  dsimp only [scrubFailed]
  split
  · exact h.bump.setObj.setObj.unless fun h => h.startJob
  · exact h.bump.setObj.setObj.scrubReport

protected theorem Inv.execScrubRead {p : Nat} {chk : Chk} (h : Inv s) : KeepsInv (execScrubRead p chk s) := by
  unfold execScrubRead
  refine .ite h.next (.next ?_)
  refine .ite ?_ ?_
  · refine .bump (.setPos ?_)
    split
    · exact h
    · exact h.bump
    · exact h.scrubFailed
    · exact h
  refine .setPos ?_
  split
  · exact h
  · exact h.bump
  · exact h.scrubFailed
  · exact h

end Sys2Proof.Machine
end

section
/-! SUPPORT. The functions of the model's files Packets, Links and Time
keep the invariant, each by those that it is made of. -/

namespace Sys2Proof.Machine

-- One theorem after another: elaborated side by side, each holds a thread of its own.
set_option Elab.async false

variable {s : State}

/-! ### Machine/Packets.lean -/

protected theorem Inv.takeRx {l i : Nat} (h : Inv s) : Inv (takeRx s l i) := by
  dsimp only [takeRx]
  split
  · exact h
  · exact h.setLink

protected theorem Inv.linkProtocol {l : Nat} (h : Inv s) : Inv (linkProtocol s l) := h.bump.raiseUnit

protected theorem Inv.forward {l : Nat} {ps : List Packet} (h : Inv s) : Inv (forward s l ps) := by
  unfold forward
  split
  · exact h
  · exact .ite h.linkProtocol h.sendPacket

protected theorem Inv.onPacket {tys : List PktType} {l : Nat} {run : Packet → State → State} (h : Inv s) (hrun : ∀ {a0 t}, Inv t → Inv (run a0 t)) : Inv (onPacket tys l run s) := by
  unfold onPacket
  split
  · exact h
  · exact .ite h (.pumpLink (.ite (hrun h.takeRx) h.takeRx.forward))

protected theorem Inv.respond {p : Packet} {ty : PktType} {sectors half : Nat} {payload : List Byte} (h : Inv s) : Inv (respond s p ty sectors half payload) :=
  h.sendPacket

protected theorem Inv.refusePeer {p : Packet} {code : Nat} (h : Inv s) : Inv (refusePeer s p code) := h.respond

protected theorem Inv.answerPacket {p : Packet} {got : List Served} (h : Inv s) : Inv (answerPacket s p got) := by
  dsimp only [answerPacket]
  split
  · exact h.refusePeer
  split
  · exact h.respond
  · exact h.respond
  · exact h.respond

protected theorem Inv.readSlot {n : Nat} {chk : Chk} (h : Inv s) : Inv (readSlot s n chk) := by
  unfold readSlot
  exact .ite h.endTask.evalWaits h.noteTransient

protected theorem Inv.serveMemory {l : Nat} {chk : Chk} {p : Packet} (h : Inv s) : Inv (serveMemory l chk p s) := by
  unfold serveMemory
  split
  · exact h.refusePeer
  · exact .ite h.readSlot.refusePeer h.readSlot.respond
  · exact .ite h.answerPacket h.startJob

protected theorem Inv.refuseTaken (h : Inv s) : Inv (refuseTaken s) :=
  h.dropJobsFor.foldl fun _ _ k => k.refusePeer

protected theorem Inv.serveSignal {p : Packet} (h : Inv s) : Inv (serveSignal p s) := by
  unfold serveSignal
  exact .respond (.ite h.poisonCounter.evalWaits h.signalLocal)

protected theorem Inv.servePost {p : Packet} {bs : List Byte} (h : Inv s) : Inv (servePost p bs s) :=
  h.takeSpawn.respond

protected theorem Inv.execReadPacket {link : Nat} {chk : Chk} (h : Inv s) : KeepsInv (execReadPacket link chk s) := by
  unfold execReadPacket
  exact (h.onPacket (fun k => k.serveMemory)).next

protected theorem Inv.execWritePacket {link : Nat} (h : Inv s) : KeepsInv (execWritePacket link s) := by
  unfold execWritePacket
  exact (h.onPacket (fun k => k.serveMemory)).next

protected theorem Inv.execWriteMaskedPacket {link : Nat} (h : Inv s) : KeepsInv (execWriteMaskedPacket link s) := by
  unfold execWriteMaskedPacket
  exact (h.onPacket (fun k => k.serveMemory)).next

protected theorem Inv.execAtomPacket {link : Nat} (h : Inv s) : KeepsInv (execAtomPacket link s) := by
  unfold execAtomPacket
  exact (h.onPacket (fun k => k.serveMemory)).next

protected theorem Inv.onReduce {ty : PktType} {l : Nat} (h : Inv s) : Inv (onReduce ty l s) := by
  unfold onReduce
  split
  · exact h
  · exact .ite h (h.onPacket (fun k => k.serveMemory))

protected theorem Inv.execRedPacket {link : Nat} (h : Inv s) : KeepsInv (execRedPacket link s) := h.onReduce.next

protected theorem Inv.execRedMaskedPacket {link : Nat} (h : Inv s) : KeepsInv (execRedMaskedPacket link s) :=
  h.onReduce.next

protected theorem Inv.execSignalPacket {link : Nat} (h : Inv s) : KeepsInv (execSignalPacket link s) := by
  unfold execSignalPacket
  exact (h.onPacket (fun k => k.serveSignal)).next

protected theorem Inv.execPostPacket {link : Nat} (h : Inv s) : KeepsInv (execPostPacket link s) := by
  dsimp only [execPostPacket]
  split
  · exact h.next
  split
  · exact h.next
  refine .ite ?_ ?_
  · exact h.takeRx.linkProtocol.next
  · exact .ite h.next (.next (.pumpLink (.ite h.takeRx.takeRx.servePost h.takeRx.takeRx.forward)))

protected theorem Inv.dropReq {dev tag : Nat} (h : Inv s) : Inv (dropReq s dev tag) := h.same.pumpPeers

protected theorem Inv.noteWritten {slot : Option Nat} {dev : Nat} (h : Inv s) : Inv (noteWritten s slot dev) := by
  unfold noteWritten
  split
  · exact h
  · exact h.modSlot

protected theorem Inv.endSpawn {p g id v : Nat} (h : Inv s) : Inv (endSpawn s p g id v) := by
  unfold endSpawn
  split
  · exact h
  split
  · exact h
  · exact h.setGroup

protected theorem Inv.completeBar4 {tag : Nat} {data : List Byte} {bad : Bool} (h : Inv s) : Inv (completeBar4 s tag data bad) :=
  h.emit.portSend.when fun h => h.bump

protected theorem Inv.bar4Part {tag : Nat} {put : Bar4Wait → Bar4Wait} (h : Inv s) : Inv (bar4Part s tag put) := by
  unfold bar4Part
  split
  · exact h
  · exact .ite (.ite h.same.completeUr h.same.completeBar4) h.same

protected theorem Inv.setCopy {cc : Nat} {x : CopySlot} (h : Inv s) : Inv (setCopy s cc x) := h.same

protected theorem Inv.freeEngine {m : CopyMove} (h : Inv s) : Inv (freeEngine s m) := h.same.feedEngines

protected theorem Inv.advanceCopy {cc n : Nat} (h : Inv s) : Inv (advanceCopy s cc n) := by
  unfold advanceCopy
  exact .ite h h.setCopy

protected theorem Inv.advanceMove {m : CopyMove} {n : Nat} (h : Inv s) : Inv (advanceMove s m n) := by
  unfold advanceMove
  exact .advanceCopy (.ite h h.freeEngine)

protected theorem Inv.failCopy {cc code : Nat} (h : Inv s) : Inv (failCopy s cc code) := by
  unfold failCopy
  exact .ite h h.setCopy.dropJobsFor.frame.feedEngines

protected theorem Inv.cutCopies (h : Inv s) : Inv (cutCopies s) := by
  unfold cutCopies
  exact h.foldl fun _ _ k => .ite k.failCopy k

protected theorem Inv.imagePart {op : Nat} {p : Packet} (h : Inv s) : Inv (imagePart s op p) := by
  unfold imagePart
  split
  · exact h
  · exact h.modJob

protected theorem Inv.withReset {f : State → State} (h : Inv s) (hf : ∀ {t}, Inv t → Inv (f t)) : Inv (withReset f s) := by
  unfold withReset
  exact .ite (((hf h).refuseTaken).cutCopies) (hf h)

protected theorem Inv.endTaskReq {slot code : Nat} {r : ErrRec} (h : Inv s) : Inv (endTaskReq s slot code r) := by
  unfold endTaskReq
  exact .ite h.verticalAbort h.faultTask

protected theorem Inv.failReq {r : PeerReq} {code : Nat} (h : Inv s) : Inv (failReq s r code) := by
  dsimp only [failReq]
  split
  · split
    · exact h.acceptNext.endTaskReq
    · exact h
  · split
    · exact .ite h.endTaskReq h
    · exact h
  · exact .ite h.endTaskReq h
  · exact .ite h.portUr h.bar4Part
  · exact h.failCopy
  · exact .ite h.endSvc h

protected theorem Inv.onAnswer {ty : PktType} {run : PeerReq → Packet → State → State} {l : Nat} (h : Inv s) (hrun : ∀ {a0 a1 t}, Inv t → Inv (run a0 a1 t)) : Inv (onAnswer ty run l s) := by
  unfold onAnswer
  refine h.onPacket fun k => ?_
  split
  · exact k
  · exact hrun k.dropReq

protected theorem Inv.takeReadData {r : PeerReq} {p : Packet} (h : Inv s) : Inv (takeReadData r p s) := by
  dsimp only [takeReadData]
  split
  · exact h.foldl fun _ _ k => k.deliverData
  · exact h.bar4Part
  · exact h.portSend.emit.advanceMove
  · exact h.imagePart
  · exact h

protected theorem Inv.execReadDataPacket {link : Nat} (h : Inv s) : KeepsInv (execReadDataPacket link s) := by
  unfold execReadDataPacket
  exact (h.onAnswer (fun k => k.takeReadData)).next

protected theorem Inv.takeWriteAck {r : PeerReq} {p : Packet} (h : Inv s) : Inv (takeWriteAck r p s) := by
  unfold takeWriteAck
  split
  · exact h.acceptNext.noteWritten
  · exact h.advanceMove
  · exact h

protected theorem Inv.execWriteAckPacket {link : Nat} (h : Inv s) : KeepsInv (execWriteAckPacket link s) := by
  unfold execWriteAckPacket
  exact (h.onAnswer (fun k => k.takeWriteAck)).next

protected theorem Inv.takeAtomData {r : PeerReq} {p : Packet} (h : Inv s) : Inv (takeAtomData r p s) := by
  unfold takeAtomData
  split
  · split
    · split
      · exact h
      · exact h.deliverData.deliverAccept.noteWritten
    · exact h
  · exact h

protected theorem Inv.execAtomDataPacket {link : Nat} (h : Inv s) : KeepsInv (execAtomDataPacket link s) := by
  unfold execAtomDataPacket
  exact (h.onAnswer (fun k => k.takeAtomData)).next

protected theorem Inv.takePostResult {r : PeerReq} {p : Packet} (h : Inv s) : Inv (takePostResult r p s) := by
  unfold takePostResult
  split
  · exact h.endSpawn
  · exact h

protected theorem Inv.execPostResultPacket {link : Nat} (h : Inv s) : KeepsInv (execPostResultPacket link s) := by
  unfold execPostResultPacket
  exact (h.onAnswer (fun k => k.takePostResult)).next

protected theorem Inv.execRefusedPacket {link : Nat} (h : Inv s) : KeepsInv (execRefusedPacket link s) := by
  unfold execRefusedPacket
  exact (h.onAnswer (fun k => k.failReq)).next

protected theorem Inv.execPeerTimeout {peer tag : Nat} (h : Inv s) : KeepsInv (execPeerTimeout peer tag s) := by
  unfold execPeerTimeout
  split
  · exact h.next
  · exact .ite h.dropReq.failReq.next h.next

/-! ### Machine/Links.lean -/

protected theorem Inv.takeHeader {l h : Nat} (hi : Inv s) : Inv (takeHeader s l h) := hi.setLink

protected theorem Inv.noteGap {l : Nat} (h : Inv s) : Inv (noteGap s l) := by
  unfold noteGap
  exact .ite h.setLink.sendBare h

protected theorem Inv.acceptFlit {l : Nat} {p : Option Packet} {seq key : Nat} (h : Inv s) : Inv (acceptFlit s l p seq key) := by
  dsimp only [acceptFlit]
  split
  · exact .ite h.setLink.bump.setLink h.setLink.bump.setLink.linkProtocol
  · exact h.setLink.bump.setLink.linkProtocol

protected theorem Inv.takeFlit {l : Nat} {f : List Byte} (h : Inv s) : Inv (takeFlit s l f) := by
  dsimp only [takeFlit]
  split
  · refine .ite ?_ (.ite h.takeHeader.acceptFlit h.takeHeader.noteGap)
    refine .ite ?_ ?_
    · exact .ite h.takeHeader.setLink h.takeHeader.linkProtocol
    · exact .noteGap (.ite h.takeHeader.setLink h.takeHeader.linkProtocol)
  · exact .ite h.takeHeader.acceptFlit h.takeHeader.noteGap

protected theorem Inv.execFlitReceive {link : Nat} {frame : List Byte} (h : Inv s) : KeepsInv (execFlitReceive link frame s) := by
  unfold execFlitReceive
  refine .ite h.next ?_
  split
  · exact h.noteGap.next
  · exact .next (.pumpLink (.takeFlit (.ite h.bump h)))

protected theorem Inv.resendAll {l : Nat} (h : Inv s) : Inv (resendAll s l) := by
  unfold resendAll
  exact ((h.foldl fun _ _ k => k.sendWire).setLink).bump

protected theorem Inv.execRetryReqPacket {link : Nat} (h : Inv s) : KeepsInv (execRetryReqPacket link s) := by
  unfold execRetryReqPacket
  split
  · exact h.next
  · exact (h.takeRx.when fun h => h.resendAll.pumpLink).next

protected theorem Inv.execNullPacket {link : Nat} (h : Inv s) : KeepsInv (execNullPacket link s) := by
  unfold execNullPacket
  split
  · exact h.next
  · exact h.takeRx.pumpLink.next

protected theorem Inv.execReplayTimeout {link : Nat} (h : Inv s) : KeepsInv (execReplayTimeout link s) := by
  unfold execReplayTimeout
  split
  · exact .ite h.resendAll.next h.next
  · exact h.next

protected theorem Inv.openEvent {sev : Nat} {origin : EvOrigin} {unit : Nat} (h : Inv s) : Inv (openEvent s sev origin unit) :=
  h.same.pushEvent

protected theorem Inv.sendIdle (h : Inv s) : Inv (sendIdle s) := h.foldl fun _ _ k => k.sendBare

protected theorem Inv.execLinkRetrain {cause : RetrainCause} (h : Inv s) : KeepsInv (execLinkRetrain cause s) := by
  unfold execLinkRetrain
  exact .ite h.setLink.bump.openEvent.next h.next

protected theorem Inv.endTasksWhere {p : Slot → Bool} (h : Inv s) : Inv (endTasksWhere s p) := by
  unfold endTasksWhere
  exact (h.foldl fun _ _ k => k.endTask).evalWaits

protected theorem Inv.endAllReqs {code : Nat} (h : Inv s) : Inv (endAllReqs s code) :=
  h.same.foldl fun _ _ k => k.failReq

protected theorem Inv.endFarCopies {gone : Nat → Bool} (h : Inv s) : Inv (endFarCopies s gone) := by
  unfold endFarCopies
  exact h.foldl fun _ _ k => .ite k.failCopy k

protected theorem Inv.floodPool {kind : Nat} {nums : List Nat} (h : Inv s) : Inv (floodPool s kind nums) :=
  h.foldl fun _ _ k => k.emit

protected theorem Inv.breakPool {a b : Nat} (h : Inv s) : Inv (breakPool s a b) := by
  unfold breakPool
  exact .ite h h.same.setObj.setObj.raiseUnit.floodPool.endTasksWhere.endAllReqs.endFarCopies

protected theorem Inv.execPoolLoss {a b : Nat} (h : Inv s) : KeepsInv (execPoolLoss a b s) := h.breakPool.next

protected theorem Inv.lostFlit {half : Nat} {p : Packet} (h : Inv s) : Inv (lostFlit s half p) := by
  unfold lostFlit
  refine .ite h (.ite h.sendPacket (.ite ?_ h.sendPacket))
  split
  · exact h
  · exact h.dropReq.failReq

protected theorem Inv.linkGoesDown {l : Nat} (h : Inv s) : Inv (linkGoesDown s l) := by
  dsimp only [linkGoesDown]
  split
  · exact (h.setLink.setObj.raiseUnit.foldl fun _ _ k => k.lostFlit).foldl fun _ _ k => k.sendPacket
  refine .ite ?_ ?_
  · exact (h.setLink.setObj.raiseUnit.foldl fun _ _ k => k.lostFlit).foldl fun _ _ k => k.sendPacket
  · exact ((h.setLink.setObj.raiseUnit.foldl fun _ _ k => k.lostFlit).foldl fun _ _ k => k.sendPacket).breakPool

protected theorem Inv.execLinkDownTimeout {link : Nat} (h : Inv s) : KeepsInv (execLinkDownTimeout link s) := by
  unfold execLinkDownTimeout
  exact .ite h.linkGoesDown.next h.next

protected theorem Inv.relockLink (h : Inv s) : Inv (relockLink s) := by
  unfold relockLink
  exact .ite h.same h

protected theorem Inv.execLinkRetrainComplete {train : LinkTrain} (h : Inv s) : KeepsInv (execLinkRetrainComplete train s) := by
  unfold execLinkRetrainComplete
  refine .ite ?_ ?_
  · exact h.next
  · exact .ite h.setObj.setLink.relockLink.resendAll.pumpLink.next (.ite h.linkGoesDown.next h.setLink.next)

protected theorem Inv.withdrawLink {l : Nat} (h : Inv s) : Inv (withdrawLink s l) := by
  unfold withdrawLink
  exact .ite h (h.setLink.foldl fun _ _ k => k.sendPacket)

protected theorem Inv.execPoolWithdraw {link : Nat} (h : Inv s) : KeepsInv (execPoolWithdraw link s) := by
  unfold execPoolWithdraw
  exact .next (.ite h.emit.withdrawLink h)

protected theorem Inv.applyLinkEnable {l v : Nat} (h : Inv s) : Inv (applyLinkEnable s l v) := by
  unfold applyLinkEnable
  exact .ite (h.setObj.when fun h => h.emit.withdrawLink) (h.setObj.when fun h => h.setLink)

protected theorem Inv.noteFormation (h : Inv s) : Inv (noteFormation s) := h.same

protected theorem Inv.applyMembers {m : Nat} (h : Inv s) : Inv (applyMembers s m) := by
  unfold applyMembers
  refine .ite ?_ ?_
  · exact .noteFormation (.frame (.endFarCopies (.ite h.endTasksWhere.endAllReqs h)))
  · exact .frame (.endFarCopies (.ite h.endTasksWhere.endAllReqs h))

protected theorem Inv.execPoolMembers {members : Nat} (h : Inv s) : KeepsInv (execPoolMembers members s) := by
  unfold execPoolMembers
  exact .ite h.next h.applyMembers.next

protected theorem Inv.noteS8 {code : Nat} (h : Inv s) : Inv (noteS8 s code) := by
  unfold noteS8
  exact .ite h.same h

protected theorem Inv.checkCables (h : Inv s) : Inv (checkCables s) := by
  unfold checkCables
  exact h.foldl fun _ _ k => .ite k k.setLink.raiseUnit.noteS8

protected theorem Inv.takeCoords {x y z : Nat} (h : Inv s) : Inv (takeCoords s x y z) := h.same

protected theorem Inv.sendAssigns {skip : Option Nat} (h : Inv s) : Inv (sendAssigns s skip) := by
  unfold sendAssigns
  refine h.foldl fun _ _ k => ?_
  split
  · exact .ite k k.emit
  · exact k

protected theorem Inv.execPoolStateQuery {answers : List (Nat × Nat)} (h : Inv s) : KeepsInv (execPoolStateQuery answers s) := by
  unfold execPoolStateQuery
  refine .ite h.next (.ite ?_ ?_)
  · split
    · exact ((h.foldl fun _ _ k => k.emit).frame).next
    · exact ((h.foldl fun _ _ k => k.emit).frame).next
  refine .ite ?_ ?_
  · exact (((((h.foldl fun _ _ k => k.emit).frame).takeCoords).checkCables).sendAssigns).next
  · exact ((h.foldl fun _ _ k => k.emit).frame).next

protected theorem Inv.execPoolAssign {link x y z : Nat} (h : Inv s) : KeepsInv (execPoolAssign link x y z s) := by
  unfold execPoolAssign
  exact .ite h.next (.ite h.same.noteS8.next (.ite h.next h.same.takeCoords.checkCables.sendAssigns.emit.next))

protected theorem Inv.execPoolJoin {device tier shape keeper fountain : Nat} (h : Inv s) : KeepsInv (execPoolJoin device tier shape keeper fountain s) := by
  unfold execPoolJoin
  refine .ite h.next (.ite ?_ ?_)
  · exact .next (.ite h.same.noteS8 h)
  · exact .ite (((h.foldl fun _ _ k => k.emit).noteS8).next) (.ite h.next h.same.next)

protected theorem Inv.execPoolFormationDeadline (h : Inv s) : KeepsInv (execPoolFormationDeadline s) := by
  unfold execPoolFormationDeadline
  split
  · refine .ite h.next (.ite ?_ ?_)
    · exact ((h.foldl fun _ _ k => k.emit).applyMembers).next
    · exact (((h.foldl fun _ _ k => k.emit).frame).noteS8).next
  · exact h.next

protected theorem Inv.execPoolReset {device : Nat} (h : Inv s) : KeepsInv (execPoolReset device s) := by
  unfold execPoolReset
  exact (h.foldl fun _ _ k => k.verticalAbort).next

/-! ### Machine/Time.lean -/

protected theorem Inv.tick (h : Inv s) : Inv (tick s) := h.same

protected theorem Inv.obeyPulse {state window : Nat} (h : Inv s) : Inv (obeyPulse s state window) :=
  h.takeFree.frame

protected theorem Inv.refusePulse (h : Inv s) : Inv (refusePulse s) := h.same.unless fun h => h.frame.raiseUnit

protected theorem Inv.execPpsPulse (h : Inv s) : KeepsInv (execPpsPulse s) := by
  unfold execPpsPulse
  exact .next (.ite h (.ite h.same (.ite (.ite h.obeyPulse (.ite h.obeyPulse h.obeyPulse)) (.ite h.obeyPulse h.refusePulse))))

protected theorem Inv.execPpsMissing (h : Inv s) : KeepsInv (execPpsMissing s) := by
  unfold execPpsMissing
  exact .next (.ite h (h.same.when fun h => h.frame.raiseUnit))

protected theorem Inv.snapshot (h : Inv s) : Inv (snapshot s) := by
  unfold snapshot
  exact ((h.foldl fun _ _ k => k.setObj).setObj).setObj

protected theorem Inv.execSnapshotAt (h : Inv s) : KeepsInv (execSnapshotAt s) := by
  unfold execSnapshotAt
  exact .next (.ite h h.snapshot.setObj)

end Sys2Proof.Machine
end

section
/-! SUPPORT. The functions of the model's files Dict, Down, Power, Integrity and Start
keep the invariant, each by those that it is made of. -/

namespace Sys2Proof.Machine

-- One theorem after another: elaborated side by side, each holds a thread of its own.
set_option Elab.async false

variable {s : State}

/-! ### Machine/Dict.lean -/

protected theorem Inv.readRow {r : ObjRow} {k : Nat} (h : Inv s) : Inv (readRow s r k).2 := by
  unfold readRow
  split
  · exact h
  · exact h
  · exact .ite_snd h.same h

protected theorem Inv.readObj {k : Nat} (h : Inv s) : Inv (readObj s k).2 := by
  unfold readObj
  split
  · exact h
  · exact .ite_snd h (.ite_snd h h.readRow)

/-! ### Machine/Down.lean -/

protected theorem Inv.resetPort (h : Inv s) : Inv (resetPort s) := by
  unfold resetPort
  exact (((((h.foldl fun _ _ k => k.failCopy).foldl fun _ _ k => .ite k.finishPageIn k.finishPageOut).dropJobsFor).frame).setObj).setObj

protected theorem Inv.leavePool (h : Inv s) : Inv (leavePool s) := h.foldl fun _ _ k => k.breakPool

protected theorem Inv.railsOff {why : Dark} (h : Inv s) : Inv (railsOff s why) := by
  unfold railsOff
  have hoff : Inv { s with
      sluice := Sluice.clear, cores := [], fountain := Fountain.clear, cistern := Cistern.clear,
      reservoir := Reservoir.unmapped, links := [], pool := { s.pool with reqs := [], waiting := [] } } :=
    { h with memory := rfl, slots := rfl, seqs := rfl }
  exact hoff.resetPort.same.leavePool.driveFault

protected theorem Inv.settleFlash (h : Inv s) : Inv (settleFlash s) :=
  { h with defects := (List.length_filterMap_le ..).trans (by simpa using h.defects) }

protected theorem Inv.clearAll {trips : List Nat} (h : Inv s) : Inv (clearAll s trips) :=
  { memory := rfl
    slots := rfl
    seqs := rfl
    rom := h.rom
    ring := Nat.zero_le _
    defects := h.settleFlash.defects
    signatures := h.signatures }

protected theorem Inv.restart {cause : Nat} (h : Inv s) : Inv (restart s cause) := by
  have hclear : Inv (clearAll s (if cause = 0 then [] else s.power.trips)) := h.clearAll
  exact { hclear with }

protected theorem Inv.powerOff (h : Inv s) : Inv (powerOff s) := h.clearAll.withBoot

protected theorem Inv.execColdStart (h : Inv s) : KeepsInv (execColdStart s) := h.restart.next

protected theorem Inv.execInletFault (h : Inv s) : KeepsInv (execInletFault s) := by
  unfold execInletFault
  exact .next (.ite h.powerOff h.same)

protected theorem Inv.execInletRestored (h : Inv s) : KeepsInv (execInletRestored s) := by
  unfold execInletRestored
  exact .next (.ite h.restart h)

protected theorem Inv.execPresentNRelease (h : Inv s) : KeepsInv (execPresentNRelease s) := by
  unfold execPresentNRelease
  exact .next (.withBoot (.ite h.powerOff h))

protected theorem Inv.execResetN {level : Bool} (h : Inv s) : KeepsInv (execResetN level s) := by
  unfold execResetN
  exact .next (.ite h (.ite (.ite h.restart h) (.ite h h.clearAll.withBoot)))

protected theorem Inv.execKeeperWatchdog (h : Inv s) : KeepsInv (execKeeperWatchdog s) := by
  unfold execKeeperWatchdog
  exact .next (.ite h.restart h)

protected theorem Inv.execThermalRestart (h : Inv s) : KeepsInv (execThermalRestart s) := by
  unfold execThermalRestart
  exact .next (.ite h.restart h)

protected theorem Inv.execFlashStore {ok : Bool} (h : Inv s) : KeepsInv (execFlashStore ok s) := by
  unfold execFlashStore
  split
  · exact h.next
  refine .ite h.next ?_
  split
  · exact h.same.next
  · exact .next { h with defects := by simpa using h.defects }
  · exact h.same.next
  · exact h.same.raiseUnit.next
  · exact h.same.raiseUnit.next
  · exact h.same.raiseUnit.next

/-! ### Machine/Power.lean -/

protected theorem Inv.execConverterFailed {phase : Nat} (h : Inv s) : KeepsInv (execConverterFailed phase s) := by
  unfold execConverterFailed
  exact .next (.ite h h.same.raiseUnit)

protected theorem Inv.execSenseLost {phase : Nat} (h : Inv s) : KeepsInv (execSenseLost phase s) := by
  unfold execSenseLost
  exact .next (.ite h h.same.raiseUnit)

protected theorem Inv.tripRail {rail : Nat} (h : Inv s) : Inv (tripRail s rail) := by
  unfold tripRail
  exact .ite h.stopStage.railsOff h.raiseUnit.railsOff

protected theorem Inv.execRailFault {rail : Nat} (h : Inv s) : KeepsInv (execRailFault rail s) := by
  unfold execRailFault
  exact .next (.ite h (.ite h.powerOff.withBoot (.ite h.tripRail h)))

protected theorem Inv.clampCore {p : Nat} (h : Inv s) : Inv (clampCore s p) :=
  h.setPos.dropJobsFor.withBoot.foldl fun _ _ k => k.faultTask

protected theorem Inv.darkenPatch {k : Nat} (h : Inv s) : Inv (darkenPatch s k) := by
  unfold darkenPatch
  exact .ite h (h.same.foldl fun _ _ k => k.clampCore)

protected theorem Inv.execRegulatorFailed {cluster reg : Nat} (h : Inv s) : KeepsInv (execRegulatorFailed cluster reg s) := by
  unfold execRegulatorFailed
  exact .next (.ite h (h.same.when fun h => h.darkenPatch))

protected theorem Inv.settleDark {k : Nat} (h : Inv s) : Inv (settleDark s k) := by
  unfold settleDark
  refine .ite ?_ ?_
  · exact ((h.same.foldl fun _ _ k => k.leaveService).raiseUnit).frame
  · exact ((h.same.foldl fun _ _ k => k.leaveService).raiseUnit).appendDefect

protected theorem Inv.settleRegulator {k : Nat} (h : Inv s) : Inv (settleRegulator s k) :=
  h.same.raiseUnit.appendDefect

protected theorem Inv.roundClusters (h : Inv s) : Inv (roundClusters s) := by
  unfold roundClusters
  exact (h.same.foldl fun _ _ k => k.settleDark).foldl fun _ _ k => k.settleRegulator

protected theorem Inv.breakSensor {obj : Nat} (h : Inv s) : Inv (breakSensor s obj) := by
  dsimp only [breakSensor]
  split
  · exact (h.same.raiseUnit.when fun h => h.appendDefect).darkenPatch
  · exact h.same.raiseUnit.when fun h => h.appendDefect

protected theorem Inv.roundBreaks {r : Round} {temps : Sparse Int} (h : Inv s) : Inv (roundBreaks s r temps) := by
  unfold roundBreaks
  exact (h.same.foldl fun _ _ k => k.breakSensor).foldl fun _ _ k => k.breakSensor

protected theorem Inv.roundSensor {temps : Sparse Int} {acc : State × List (Nat × Demand)} {obj : Nat} (h : Inv acc.1) :
    Inv (roundSensor temps acc obj).1 := by
  unfold roundSensor
  exact .when h.frame fun h => h.raiseUnit

protected theorem Inv.roundSense {x : SenseReading} (h : Inv s) : Inv (roundSense s x) := h.same

protected theorem Inv.roundCrack {p : Nat} (h : Inv s) : Inv (roundCrack s p) := by
  unfold roundCrack
  exact .ite h h.bump.setObj.setObj.frame.raiseUnit

protected theorem Inv.roundVolts {r : Round} (h : Inv s) : Inv (roundVolts s r) := by
  unfold roundVolts
  exact (h.same.foldl fun _ _ k => k.roundSense).foldl fun _ _ k => k.roundCrack

protected theorem Inv.roundRefresh {e : Nat × Int} (h : Inv s) : Inv (roundRefresh s e) := by
  unfold roundRefresh
  exact .ite h.setObj (.ite h.setObj h)

protected theorem Inv.setStep {step : Nat} (h : Inv s) : Inv (setStep s step) := by
  unfold setStep
  exact .ite h h.same.raiseUnit

protected theorem Inv.roundThrottle {ds : List (Nat × Demand)} (h : Inv s) : Inv (roundThrottle s ds) := by
  unfold roundThrottle
  refine .ite ?_ ?_
  · exact .raiseUnit (.frame (.frame (.ite h.setStep (.ite h.setStep h.same))))
  · exact .frame (.ite h.setStep (.ite h.setStep h.same))

protected theorem Inv.roundTrip {ds : List (Nat × Demand)} (h : Inv s) : Inv (roundTrip s ds) := by
  unfold roundTrip
  split
  · exact h
  · exact .ite h h.raiseUnit.frame.railsOff

protected theorem Inv.roundCool (h : Inv s) : Inv (roundCool s) := by
  unfold roundCool
  exact .ite h.same h

protected theorem Inv.execHousekeepingRound {r : Round} (h : Inv s) : KeepsInv (execHousekeepingRound r s) := by
  unfold execHousekeepingRound
  refine .next (.ite h ?_)
  extract_lets temps s1
  have hs1 : Inv s1 := h.roundVolts.roundBreaks.roundClusters
  clear_value s1
  have hs2 : Inv ((sensorsRead s1 r).foldl (roundSensor temps) (s1, [])).1 :=
    Inv.foldl_on Prod.fst (b := (s1, [])) hs1 fun _ _ k => k.roundSensor
  exact (hs2.foldl fun _ _ k => k.roundRefresh).roundThrottle.roundTrip.roundCool

/-! ### Machine/Integrity.lean -/

protected theorem Inv.storeSignature {u : SigUnit} {code : Nat} {t : Option CoreTest} (h : Inv s) : Inv (storeSignature s u code t) := by
  unfold storeSignature
  generalize sigRecord s _ u code t = bytes
  exact { h with signatures := by simp only [List.length_drop]; omega }

protected theorem Inv.laneEvent {code sev unit detail : Nat} (h : Inv s) : Inv (laneEvent s code sev unit detail) :=
  h.raiseUnit

protected theorem Inv.substituteBond {unit detail : Nat} (h : Inv s) : Inv (substituteBond s unit detail) :=
  h.appendDefect.laneEvent

protected theorem Inv.abortCore {p : Nat} (h : Inv s) : Inv (abortCore s p) :=
  h.setPos.dropJobsFor.foldl fun _ _ k => k.verticalAbort

protected theorem Inv.loseLane {p plane bond : Nat} {control : Bool} (h : Inv s) : Inv (loseLane s p plane bond control) := by
  unfold loseLane
  refine .ite ?_ ?_
  · exact h.laneEvent.storeSignature.setPos.abortCore.unless fun h => h.retireCore
  · exact (h.laneEvent.storeSignature.setPos.when fun h => h.setCoreState).retireIfEmpty

protected theorem Inv.losePort {g : Nat} (h : Inv s) : Inv (losePort s g) := by
  unfold losePort
  exact .ite h (.ite (h.setSlice.foldl fun _ _ k => k.verticalAbort) h.setSlice.appendDefect.laneEvent)

protected theorem Inv.handOver {g : Nat} (h : Inv s) : Inv (handOver s g) := by
  unfold handOver
  exact ((h.foldl fun _ _ k => k.applySector.deliverAll).setSlice).setSlice

protected theorem Inv.execSliceRetired {g : Nat} (h : Inv s) : KeepsInv (execSliceRetired g s) := by
  unfold execSliceRetired
  exact .next (.ite h (h.handOver.appendDefect.laneEvent.storeSignature.when fun h => h.raiseUnit.railsOff))

protected theorem Inv.loseClock {locks : Nat} {stops : Bool} (h : Inv s) : Inv (loseClock s locks stops) :=
  h.same.raiseUnit.railsOff

protected theorem Inv.retireAtOnce {p : Nat} (h : Inv s) : Inv (retireAtOnce s p) :=
  h.clampCore.unless fun h => h.retireCore

protected theorem Inv.loseShared {kind : SharedKind} (h : Inv s) : Inv (loseShared s kind) := by
  unfold loseShared
  split
  · exact h.darkenPatch
  · exact h.foldl fun _ _ k => k.retireAtOnce
  · exact h.loseClock

protected theorem Inv.execVerticalLaneTest {path : VPath} {finding : LaneFinding} {serves : SharedKind} (h : Inv s) : KeepsInv (execVerticalLaneTest path finding serves s) := by
  unfold execVerticalLaneTest
  refine .next ?_
  refine .ite h ?_
  split
  · exact h.foldl fun _ _ k => k.countCode
  split
  · refine .ite h ?_
    split
    · exact .ite h.substituteBond.bump h.loseLane
    · exact h.loseLane
  · refine .ite h ?_
    split
    · exact .ite h.substituteBond.bump h.loseLane
    · exact h.loseLane
  · split
    · exact h.substituteBond
    · exact h.losePort
  · exact .ite h.loseShared h.same.appendDefect.laneEvent

/-! ### Machine/Start.lean -/

protected theorem Inv.passTo {n : Nat} (h : Inv s) : Inv (passTo s n) := h.same

protected theorem Inv.execStageS0 {obs : S0Obs} (h : Inv s) : KeepsInv (execStageS0 obs s) := by
  unfold execStageS0
  refine .next ?_
  refine .ite h ?_
  dsimp only
  split
  · exact ((h.same.foldl fun _ _ k => k.same.raiseUnit).powerOff).withBoot
  · exact ((h.same.foldl fun _ _ k => k.same.raiseUnit).stopStage).railsOff
  · exact (((h.same.foldl fun _ _ k => k.same.raiseUnit).frame).foldl fun _ _ k => k.darkenPatch).endStage

protected theorem Inv.execStageS1 {locks : Nat} (h : Inv s) : KeepsInv (execStageS1 locks s) := by
  unfold execStageS1
  exact .next (.ite h (.ite h.same.same.endStage h.same.stopStage))

protected theorem Inv.makeIdentity {random : Nat} (h : Inv s) : Inv (makeIdentity s random) := by
  unfold makeIdentity
  exact .ite h h.same

protected theorem Inv.settleHostLink {rate width : Nat} {flit : Bool} (h : Inv s) : Inv (settleHostLink s rate width flit) := by
  unfold settleHostLink
  exact .ite h (h.same.setObj.setObj.unless fun h => h.raiseUnit)

protected theorem Inv.noteFirmware {k f : Bool} (h : Inv s) : Inv (noteFirmware s k f) :=
  h.setObj.setObj.setObj.setObj.setObj.withBoot

protected theorem Inv.finishS2 (h : Inv s) : Inv (finishS2 s) := by
  unfold finishS2
  exact .ite ((h.endStage.foldl fun _ _ k => k.skipStage).passTo) h.endStage

protected theorem Inv.checkPair (h : Inv s) : Inv (checkPair s) := by
  unfold checkPair
  exact .ite ((h.same.unless fun h => h.setObj.storeObj).finishS2) (.ite h.same.stopStage h.same.finishS2)

protected theorem Inv.execStageS2 {random linkRate linkWidth : Nat} (h : Inv s) : KeepsInv (execStageS2 random linkRate linkWidth s) := by
  unfold execStageS2
  refine .next ?_
  refine .ite h ?_
  split
  · have hlink : Inv (settleHostLink s linkRate linkWidth true) := h.settleHostLink
    exact .stopStage { hlink with rom := h.rom }
  dsimp only
  split
  · exact h.makeIdentity.noteFirmware.settleHostLink.stopStage
  · exact h.makeIdentity.noteFirmware.settleHostLink.checkPair

protected theorem Inv.resumeUntested (h : Inv s) : Inv (resumeUntested s) := by
  unfold resumeUntested
  exact .ite h.same.finishS2 h

protected theorem Inv.countSpares (h : Inv s) : Inv (countSpares s) := by
  unfold countSpares
  exact h.foldl fun _ _ k => .ite k.bump k

protected theorem Inv.testBond {acc : State × List Nat} {b : Nat × Nat × Nat} (h : Inv acc.1) : Inv (testBond acc b).1 := by
  obtain ⟨p, plane, bond⟩ := b
  unfold testBond
  exact .ite_fst h.same.appendDefect.bump h.appendDefect.withBoot

protected theorem Inv.testShared {i : Nat} (h : Inv s) : Inv (testShared s i) := h.same.appendDefect.laneEvent

protected theorem Inv.execStageS3 {obs : S3Obs} (h : Inv s) : KeepsInv (execStageS3 obs s) := by
  unfold execStageS3
  refine .next ?_
  refine .ite h ?_
  have hbonds : ∀ xs : List (Nat × Nat × Nat), Inv (xs.foldl testBond (countSpares s, [])).1 := fun xs =>
    Inv.foldl_on Prod.fst (b := (countSpares s, [])) h.countSpares fun _ _ k => k.testBond
  refine .ite ?_ ?_
  · exact ((hbonds _).foldl fun _ _ k => k.testShared).endStage
  · exact ((hbonds _).foldl fun _ _ k => k.testShared).stopStage

protected theorem Inv.fillCistern {retired halved : List Nat} (h : Inv s) : Inv (fillCistern s retired halved) := by
  have hclear : Inv { s with cistern := Cistern.clear, fountain := Fountain.clear, sluice := Sluice.clear } :=
    { h with slots := rfl, seqs := rfl }
  exact (hclear.foldl fun _ _ k => k.setSlice).foldl fun _ _ k => k.setSlice

protected theorem Inv.failSlice {g : Nat} (h : Inv s) : Inv (failSlice s g) := h.appendDefect.storeSignature

protected theorem Inv.execStageS4 {obs : S4Obs} (h : Inv s) : KeepsInv (execStageS4 obs s) := by
  unfold execStageS4
  refine .next ?_
  refine .ite h (.ite ?_ ?_)
  · exact ((h.fillCistern.foldl fun _ _ k => k.failSlice).foldl fun _ _ k => k.appendDefect).stopStage
  · exact ((h.fillCistern.foldl fun _ _ k => k.failSlice).foldl fun _ _ k => k.appendDefect).endStage

protected theorem Inv.chooseEnabled (h : Inv s) : Inv (chooseEnabled s) := by
  unfold chooseEnabled
  extract_lets share on bad s1
  have hs1 : Inv s1 := h.foldl fun _ _ k => k.setCoreState
  clear_value s1
  exact hs1.withBoot

protected theorem Inv.failSelftest {p : Nat} (h : Inv s) : Inv (failSelftest s p) :=
  h.appendDefect.withBoot.storeSignature

protected theorem Inv.execStageS5 {failedCores : List Nat} (h : Inv s) : KeepsInv (execStageS5 failedCores s) := by
  unfold execStageS5
  exact .next (.ite h ((((h.foldl fun _ _ k => k.failSelftest).frame).chooseEnabled).endStage))

protected theorem Inv.trainStack {t : StackTrain} (h : Inv s) : Inv (trainStack s t) := by
  unfold trainStack
  refine .ite h.setObj ?_
  split
  · exact h.setObj.setObj.appendDefect
  · exact h.setObj.setObj.withFlash

protected theorem Inv.markStack {k : Nat} (h : Inv s) : Inv (markStack s k) := by
  unfold markStack
  refine .ite h.setObj ?_
  split
  · exact h.setObj.setObj
  · exact h

protected theorem Inv.fitZones {acc : State × Bool} {half : Nat} (h : Inv acc.1) : Inv (fitZones acc half).1 := by
  unfold fitZones
  exact .ite_fst h h.setObj.storeObj.setObj.storeObj

protected theorem Inv.openZones {half : Nat} (h : Inv s) : Inv (openZones s half) := h.setHalf

protected theorem Inv.noteDarkPatches (h : Inv s) : Inv (noteDarkPatches s) := h.foldl fun _ _ k => k.appendFound

protected theorem Inv.fastFills (h : Inv s) : Inv (fastFills s) := h.fillCistern.frame.countSpares.chooseEnabled

protected theorem Inv.execStageS6 {trains : List StackTrain} (h : Inv s) : KeepsInv (execStageS6 trains s) := by
  unfold execStageS6
  refine .next (.ite h ?_)
  have hfits : ∀ acc half, Inv acc.1 → Inv (fitZones acc half).1 := fun _ _ k => k.fitZones
  generalize fitZones = fits at hfits ⊢
  -- `id` keeps the kernel from putting the fit of concrete zones back and evaluating it.
  revert fits
  refine id ?_
  intro fits hfits
  extract_lets s1 tried s2 works west east bad unmapped s3
  have hs1 : Inv s1 := (Inv.when h fun h => h.fastFills).foldl fun _ _ k => k.markStack
  have hs2 : Inv s2 := by
    refine hs1.foldl fun _ _ k => ?_
    split <;> exact k.trainStack
  have hs3 : Inv s3 := { hs2 with memory := rfl }
  have hs4 : Inv ([0, 1].foldl fits (s3, false)).1 := Inv.foldl_on Prod.fst (b := (s3, false)) hs3 hfits
  generalize [0, 1].foldl fits (s3, false) = fitted at hs4 ⊢
  obtain ⟨s4, replaced⟩ := fitted
  have hs5 : Inv (noteDarkPatches ([0, 1].foldl openZones s4)) := (hs4.foldl fun _ _ k => k.openZones).noteDarkPatches
  exact .ite hs5.stopStage hs5.endStage

protected theorem Inv.markLink {l : Nat} (h : Inv s) : Inv (markLink s l) := by
  unfold markLink
  exact .ite h.setLink (.ite h.setLink h)

protected theorem Inv.trainLink {t : LinkTrain} (h : Inv s) : Inv (trainLink s t) := h.setLink.setObj

protected theorem Inv.failTrain {l : Nat} (h : Inv s) : Inv (failTrain s l) := h.setLink

protected theorem Inv.execStageS7 {trains : List LinkTrain} (h : Inv s) : KeepsInv (execStageS7 trains s) := by
  unfold execStageS7
  refine .next ?_
  refine .ite h (.ite ?_ ?_)
  · exact h.skipStage.passTo
  · exact (((h.foldl fun _ _ k => k.markLink).foldl fun _ _ k => k.trainLink).foldl fun _ _ k => k.failTrain).endStage

protected theorem Inv.execStageS8 (h : Inv s) : KeepsInv (execStageS8 s) := by
  unfold execStageS8
  exact .next (.ite h (.ite h h.endStage))

protected theorem Inv.execStageS9 (h : Inv s) : KeepsInv (execStageS9 s) := by
  unfold execStageS9
  exact .next (.ite h (.ite h.same.setObj.setObj.withBoot.endStage h.same.setObj.setObj.withBoot.stopStage))

protected theorem Inv.numberCores (h : Inv s) : Inv (numberCores s) := by
  unfold numberCores
  extract_lets on
  clear_value on
  exact h.withBoot

protected theorem Inv.execStageS10 (h : Inv s) : KeepsInv (execStageS10 s) := by
  unfold execStageS10
  refine .next (.ite h ?_)
  extract_lets s1
  have hs1 : Inv s1 := h.numberCores.foldl fun _ _ k => k.darkRegion
  clear_value s1
  exact hs1.same.endStage

end Sys2Proof.Machine
end

section
/-! SUPPORT. The functions of the model's files CisReset, Service, DictWrite and Casaro
keep the invariant, each by those that it is made of. -/

namespace Sys2Proof.Machine

-- One theorem after another: elaborated side by side, each holds a thread of its own.
set_option Elab.async false

variable {s : State}

/-! ### Machine/CisReset.lean -/

protected theorem Inv.endGone (h : Inv s) : Inv (endGone s) := by
  unfold endGone
  refine h.foldl fun _ _ k => ?_
  refine k.foldl fun _ _ k => ?_
  split
  · exact .ite k k.endRun
  · exact k

protected theorem Inv.cutAll (h : Inv s) : Inv (cutAll s) :=
  h.dropJobsFor.endGone.frame.foldl fun _ _ k => k.verticalAbort

protected theorem Inv.finishChannel {key : Nat} {c : Channel} (h : Inv s) : Inv (finishChannel s key c) := by
  unfold finishChannel
  exact (h.foldl fun _ _ k => k.resWrite.bump).withReservoir

protected theorem Inv.putBack {g : Nat} {w : WbSector} (h : Inv s) : Inv (putBack s g w) := by
  unfold putBack
  exact .ite h h.resWrite.bump.countBytes.notePageWriter

protected theorem Inv.markSector {sector : Nat} (h : Inv s) : Inv (markSector s sector) := by
  unfold markSector
  exact .ite h h.same

protected theorem Inv.applyQueued {g : Nat} (h : Inv s) : Inv (applyQueued s g) :=
  h.setSlice.foldl fun _ _ k => k.applySector.deliverAll

protected theorem Inv.emptySlice {g : Nat} (h : Inv s) : Inv (emptySlice s g) := by
  unfold emptySlice
  exact ((h.applyQueued.foldl fun _ _ k => k.putBack).foldl fun _ _ k => k.markSector).setSlice

protected theorem Inv.emptyCistern (h : Inv s) : Inv (emptyCistern s) := by
  unfold emptyCistern
  exact ((h.foldl fun _ _ k => k.finishChannel).foldl fun _ _ k => k.emptySlice).frame

protected theorem Inv.restagePage {n cls : Nat} {e : Nat × Nat} (h : Inv s) : Inv (restagePage n cls s e) := by
  unfold restagePage
  split
  · exact h
  refine .ite h (.bringUp ?_)
  exact .getD h.modPage h.modPage.holdPage

protected theorem Inv.restage {e : Nat × Slot} (h : Inv s) : Inv (restage s e) := by
  unfold restage
  exact .ite h (h.modSlot.foldl fun _ _ k => k.restagePage)

protected theorem Inv.relist {e : Nat × Slot} (h : Inv s) : Inv (relist s e) := by
  unfold relist
  exact .ite h.requestStaging h

protected theorem Inv.pinLost {b : Buf} (h : Inv s) : Inv (pinLost s b) := by
  unfold pinLost
  exact .ite h.modSlot h

protected theorem Inv.rebuildSluice (h : Inv s) : Inv (rebuildSluice s) := by
  unfold rebuildSluice
  exact ((((h.foldl fun _ _ k => k.cancelPageOut).withSluice).foldl fun _ _ k => k.restage).foldl fun _ _ k => k.relist).foldl fun _ _ k => k.pinLost

protected theorem Inv.cutUpdate (h : Inv s) : Inv (cutUpdate s) := by
  unfold cutUpdate
  exact .ite (.endSvc (.ite h.endSvc h)) (.ite h.endSvc h)

protected theorem Inv.rereadJob {j : Job} (h : Inv s) : Inv (rereadJob s j) := by
  unfold rereadJob
  refine .ite h ?_
  split
  · exact h.dropJob.startJob
  · exact .ite h.dropJob.startJob h
  · exact h

protected theorem Inv.reread (h : Inv s) : Inv (reread s) := h.foldl fun _ _ k => k.rereadJob

protected theorem Inv.resumeDevice {r : CisReset} (h : Inv s) : Inv (resumeDevice s r) := by
  unfold resumeDevice
  exact (h.same.bump.when fun h => h.floodPool).cisResetEvent

protected theorem Inv.execCisternResetDrainEnd (h : Inv s) : KeepsInv (execCisternResetDrainEnd s) := by
  unfold execCisternResetDrainEnd
  split
  · exact h.next
  refine .ite ?_ ?_
  · exact h.next
  · exact ((((((h.cutAll.cutUpdate.foldl fun _ _ k => k.verticalAbort).emptyCistern).rebuildSluice).resumeDevice).reread).evalWaits).next

protected theorem Inv.admitIntake {g cls : Nat} (h : Inv s) : Inv (admitIntake s g cls) := by
  unfold admitIntake
  split
  · exact h
  · exact .ite h (h.markInbox.when fun h => h.takeInbox)

protected theorem Inv.admitFetch {chan cls : Nat} (h : Inv s) : Inv (admitFetch s chan cls) := by
  dsimp only [admitFetch]
  split
  · exact h
  · exact .ite h h.sendFetch

protected theorem Inv.admitSill {dir cls : Nat} (h : Inv s) : Inv (admitSill s dir cls) := by
  dsimp only [admitSill]
  split
  · exact h
  · exact .ite h h.same.countBytes

protected theorem Inv.regulationAdmit {point inst cls : Nat} (h : Inv s) : Inv (regulationAdmit point inst cls s) := by
  unfold regulationAdmit
  exact .ite h (.ite h.admitIntake (.ite h.admitFetch (.ite h.admitSill (.ite h.pumpLink h))))

/-! ### Machine/Service.lean -/

protected theorem Inv.setResult {op : Nat} {r : List Byte} (h : Inv s) : Inv (setResult s op r) := h.setBytes

protected theorem Inv.beginSvc {op : Nat} {result : List Byte} (h : Inv s) : Inv (beginSvc s op result) :=
  h.setSvc.setResult.setObj.svcEvent

protected theorem Inv.setProgress {op n : Nat} (h : Inv s) : Inv (setProgress s op n) := h.setSvc

protected theorem Inv.instantSvc {op progress : Nat} {result : List Byte} {state code : Nat} (h : Inv s) : Inv (instantSvc s op progress result state code) :=
  h.beginSvc.setProgress.setResult.endSvc

protected theorem Inv.readSource {op addr len : Nat} (h : Inv s) : ∀ t ∈ readSource s op addr len, Inv t := by
  intro t ht
  dsimp only [readSource] at ht
  split_ifs at ht
  · cases ht
  · cases ht
    exact h.startJob
  · cases ht
  · cases ht
    exact h.frame.peerRequests
  · cases ht

protected theorem Inv.applyFinding {f : SweepFinding} (h : Inv s) : Inv (applyFinding s f) := by
  unfold applyFinding
  refine .ite h ?_
  dsimp only
  split
  · exact h.appendDefect.storeSignature.leaveService
  · exact h.appendDefect.setSlice
  · exact h.appendDefect.handOver.storeSignature
  · exact h.appendDefect.bump

protected theorem Inv.wipeBlock {b : Nat} (h : Inv s) : Inv (wipeBlock s b) := by
  unfold wipeBlock
  exact .ite (h.foldl fun _ _ k => k.setPos) (h.foldl fun _ _ k => k.setSlice)

protected theorem Inv.closeSweep (h : Inv s) : Inv (closeSweep s) := by
  unfold closeSweep
  exact (((h.foldl fun _ _ k => k.wipeBlock).frame).rebuildSluice).bump

protected theorem Inv.execSweepBlockCommit {found : List SweepFinding} (h : Inv s) : KeepsInv (execSweepBlockCommit found s) := by
  unfold execSweepBlockCommit
  refine .next ?_
  dsimp only
  split
  · exact h
  refine .ite h ?_
  refine .ite (((((h.wipeBlock.foldl fun _ _ k => k.applyFinding).setSvc).setResult).raiseUnit).railsOff) ?_
  refine .ite (((((h.wipeBlock.foldl fun _ _ k => k.applyFinding).setSvc).setResult).closeSweep).endSvc) ?_
  refine .ite ?_ ?_
  · exact ((((h.wipeBlock.foldl fun _ _ k => k.applyFinding).setSvc).setResult).closeSweep).endSvc
  · exact ((h.wipeBlock.foldl fun _ _ k => k.applyFinding).setSvc).setResult

protected theorem Inv.publishTest {op : Nat} {d : List Byte} (h : Inv s) : Inv (publishTest s op d) :=
  h.setSvc.setResult

protected theorem Inv.feedTests {op n : Nat} (h : Inv s) : Inv (feedTests op n s) := by
  induction n generalizing s with
  | zero => exact h
  | succ n ih =>
    unfold feedTests
    dsimp only
    split
    · exact h
    refine .ite h (.ite ?_ ?_)
    · exact ih h.setSvc.publishTest
    · exact ih h.setSvc.setSvc.syncTesting.withKeeper

protected theorem Inv.noteCore {d : List Byte} {p : Nat} (h : Inv s) : Inv (noteCore d s p) := by
  unfold noteCore
  exact .ite h.setObj.setObj h

protected theorem Inv.endTests {op state code : Nat} (h : Inv s) : Inv (endTests s op state code) := by
  unfold endTests
  refine .endSvc ?_
  refine .ite ?_ ?_
  · exact ((((h.foldl fun _ _ k => k.appendFound).foldl fun _ _ k => k.noteCore).setObj).setObj).setObj
  · exact (((h.foldl fun _ _ k => k.appendFound).foldl fun _ _ k => k.noteCore).setObj).setObj

protected theorem Inv.goOnTests {op : Nat} (h : Inv s) : Inv (goOnTests s op) := by
  unfold goOnTests
  exact .ite h.endTests (h.feedTests.when fun h => h.endTests)

protected theorem Inv.startTests {op : Nat} {ps : List Nat} (h : Inv s) : Inv (startTests s op ps) := by
  unfold startTests
  exact .ite h.beginSvc.endSvc h.beginSvc.setSvc.goOnTests

protected theorem Inv.finishTest {op p : Nat} {e : TestEnd} (h : Inv s) : Inv (finishTest s op p e) := by
  unfold finishTest
  exact ((h.setSvc.syncTesting.when fun h => h.withKeeper).publishTest).goOnTests

protected theorem Inv.failTest {t : CoreTest} (h : Inv s) : Inv (failTest s t) :=
  h.raiseUnit.storeSignature.leaveService.bump

protected theorem Inv.execCoreTestComplete {t : CoreTest} (h : Inv s) : KeepsInv (execCoreTestComplete t s) := by
  unfold execCoreTestComplete
  refine .next ?_
  split
  · exact h
  · exact .ite h (.ite h.finishTest (.ite h.finishTest h.failTest.finishTest))

protected theorem Inv.execSpotTestWaitMsExpiry {p : Nat} (h : Inv s) : KeepsInv (execSpotTestWaitMsExpiry p s) := by
  unfold execSpotTestWaitMsExpiry
  exact .next (.ite h h.finishTest)

protected theorem Inv.appendPack {a : List Byte} (h : Inv s) : Inv (appendPack s a) := by
  unfold appendPack
  exact .ite h.instantSvc h.same.instantSvc

protected theorem Inv.closePack {e : List Byte} (h : Inv s) : Inv (closePack s e) := by
  unfold closePack
  exact .ite h.same.endSvc h.endSvc

protected theorem Inv.installPack {e : List Byte} (h : Inv s) : Inv (installPack s e) := h.beginSvc.closePack

protected theorem Inv.installPoolPack {a : List Byte} (h : Inv s) : Inv (installPoolPack s a) := by
  dsimp only [installPoolPack]
  split
  case h_1 => exact h.beginSvc.endSvc
  case h_2 t ht => exact h.beginSvc.readSource t ht

protected theorem Inv.takePack {got : List Served} (h : Inv s) : Inv (takePack s got) := by
  unfold takePack
  exact .ite h (.ite h.endSvc h.closePack)

protected theorem Inv.putTarget {kind : Nat} {e : List Byte} (h : Inv s) : Inv (putTarget s kind e) := by
  unfold putTarget
  exact .ite (.ite h.same h.same) (.ite (.ite h.same h.same) h.same)

protected theorem Inv.showVersion {kind v : Nat} (h : Inv s) : Inv (showVersion s kind v) := by
  unfold showVersion
  exact .ite h.setObj (.ite h.setObj h)

protected theorem Inv.selectNew {kind : Nat} (h : Inv s) : Inv (selectNew s kind) := by
  unfold selectNew
  exact .ite h.same (.ite h.same h.same.setObj)

protected theorem Inv.enterPhase {phase : Nat} (h : Inv s) : Inv (enterPhase s phase) := by
  unfold enterPhase
  exact .ite h.endSvc h.setSvc.setResult

protected theorem Inv.verifyUpdate (h : Inv s) : Inv (verifyUpdate s) := by
  dsimp only [verifyUpdate]
  split
  · exact h
  · exact .ite h (.ite h.dropJob.endSvc h.dropJob.setSvc.setResult.enterPhase)

protected theorem Inv.writeUpdate {kind : Nat} (h : Inv s) : Inv (writeUpdate s kind) := by
  unfold writeUpdate
  exact .ite (h.putTarget.setProgress.when fun h => h.endSvc) h.putTarget.setProgress.enterPhase

protected theorem Inv.selectUpdate {kind : Nat} (h : Inv s) : Inv (selectUpdate s kind) :=
  h.selectNew.showVersion.setSvc.setResult.endSvc.when fun h => h.withBoot

protected theorem Inv.takeWarm (h : Inv s) : Inv (takeWarm s) := by
  unfold takeWarm
  split
  · exact h.restart
  · exact h

protected theorem Inv.execFirmwareUpdatePhase (h : Inv s) : KeepsInv (execFirmwareUpdatePhase s) := by
  unfold execFirmwareUpdatePhase
  refine .next ?_
  refine .ite h ?_
  split
  · exact h.verifyUpdate
  · exact h.putTarget.showVersion.enterPhase
  · exact h.writeUpdate
  · exact h.enterPhase
  · exact h.selectUpdate.takeWarm

protected theorem Inv.disableCore {p : Nat} (h : Inv s) : Inv (disableCore s p) := h.setObj.withdrawCore

protected theorem Inv.reduceNow {tier : Nat} (h : Inv s) : Inv (reduceNow s tier) := by
  unfold reduceNow
  exact ((((h.foldl fun _ _ k => k.disableCore).foldl fun _ _ k => k.applyLinkEnable).withBoot).setSvc).settleLicence

protected theorem Inv.storePending {e : List Byte} (h : Inv s) : Inv (storePending s e) := h.same.setObj

protected theorem Inv.refuseFree (h : Inv s) : Inv (refuseFree s).2 := h.same

protected theorem Inv.goSweep (h : Inv s) : Inv (goSweep s).2 := by
  unfold goSweep
  exact .ite_snd h.refuseFree (.ite_snd h h.beginSvc.setSvc)

protected theorem Inv.goSpot (h : Inv s) : Inv (goSpot s).2 := by
  unfold goSpot
  exact .ite_snd h.refuseFree h.startTests

protected theorem Inv.goPack (h : Inv s) : Inv (goPack s).2 := by
  unfold goPack
  refine .ite_snd h.refuseFree ?_
  split
  · exact h.appendPack
  · exact h.installPack
  · exact .ite_snd h.refuseFree h.installPoolPack
  · exact .ite_snd h.refuseFree h.startTests
  · exact h.refuseFree

protected theorem Inv.goUpdate (h : Inv s) : Inv (goUpdate s).2 := by
  unfold goUpdate
  refine .ite_snd h.refuseFree (.ite_snd h ?_)
  dsimp only
  split
  case h_1 => exact h.beginSvc.endSvc
  case h_2 t ht => exact h.beginSvc.setSvc.readSource t ht

protected theorem Inv.goLicence (h : Inv s) : Inv (goLicence s).2 := by
  unfold goLicence
  refine .ite_snd h.refuseFree ?_
  refine .ite_snd h.instantSvc (.ite_snd h.instantSvc (.ite_snd h.instantSvc (.ite_snd h.instantSvc ?_)))
  exact .ite h.storePending.beginSvc.setResult.reduceNow h.storePending.beginSvc.setResult.endSvc

protected theorem Inv.goExport (h : Inv s) : Inv (goExport s).2 := by
  unfold goExport
  exact .ite_snd h.refuseFree h.instantSvc

protected theorem Inv.goClear (h : Inv s) : Inv (goClear s).2 := by
  unfold goClear
  extract_lets a b n es left todo first
  have hs1 : Inv (todo.foldl (fun st e => appendDefect st 15 0x23 e.1 0 0) s) := h.foldl fun _ _ k => k.appendDefect
  clear_value first todo left
  split
  · exact h.instantSvc
  split
  · exact h.instantSvc
  · exact .instantSvc (.ite hs1 hs1.withBoot)

protected theorem Inv.goSvc {op : Nat} (h : Inv s) : Inv (goSvc s op).2 := by
  unfold goSvc
  refine .ite_snd h ?_
  split
  · exact h.goSweep
  · exact h.goSpot
  · exact h.goPack
  · exact h.goUpdate
  · exact h.goLicence
  · exact h.goExport
  · exact h.goClear

protected theorem Inv.cancelSvc {op : Nat} (h : Inv s) : Inv (cancelSvc s op).2 := by
  unfold cancelSvc
  exact .ite h.setSvc h

/-! ### Machine/DictWrite.lean -/

protected theorem Inv.hostPoolCond {staged : Staged} (h : Inv s) : Inv (hostPoolCond s staged).2 := by
  unfold hostPoolCond
  exact .ite_snd h.refuseFree (.ite_snd h h)

protected theorem Inv.copyCond {cc v : Nat} (h : Inv s) : Inv (copyCond s cc v).2 := by
  unfold copyCond
  exact .ite_snd h (.ite_snd h.refuseFree (.ite_snd h h))

protected theorem Inv.membersCond {v : Nat} (h : Inv s) : Inv (membersCond s v).2 := by
  unfold membersCond
  have hfree : Inv (takeFree s).2 := h.same
  exact .ite_snd h.refuseFree (.ite_snd h (.ite_snd h (.ite_snd hfree hfree.refuseFree)))

protected theorem Inv.condOf {staged : Staged} {k v : Nat} (h : Inv s) : Inv (condOf s staged k v).2 := by
  dsimp only [condOf]
  split
  · exact .ite_snd h h
  · exact .ite_snd h h
  · exact h
  · exact .ite_snd h h
  · exact .ite_snd h (.ite_snd h.hostPoolCond (.ite_snd h (.ite_snd h h)))
  · exact .ite_snd h.membersCond (.ite_snd h h)
  · exact .ite_snd h.copyCond h
  · exact .ite_snd h h
  · exact h

protected theorem Inv.condFor {staged : Staged} {r : ObjRow} {k v : Nat} (h : Inv s) : Inv (condFor s staged r k v).2 := by
  unfold condFor
  exact .ite_snd h h.condOf

protected theorem Inv.setKept {r : ObjRow} {k v : Nat} (h : Inv s) : Inv (setKept s r k v) :=
  h.setObj.when fun h => h.storeObj

protected theorem Inv.loadSeconds {v : Nat} (h : Inv s) : Inv (loadSeconds s v) := h.same

protected theorem Inv.restartMins (h : Inv s) : Inv (restartMins s) := h.same

protected theorem Inv.clearIntake {v : Nat} (h : Inv s) : Inv (clearIntake s v) := h.setObj

protected theorem Inv.writeClass {c v : Nat} (h : Inv s) : Inv (writeClass s c v) := by
  unfold writeClass
  exact .ite h.setObj.withdrawClass (h.setObj.when fun h => h.setClassState.evalWaits)

protected theorem Inv.writeCore {p v : Nat} (h : Inv s) : Inv (writeCore s p v) := by
  unfold writeCore
  exact .ite h.disableCore (h.setObj.when fun h => h.setCoreState)

protected theorem Inv.writeFrames {v : Nat} (h : Inv s) : Inv (writeFrames s v) := by
  unfold writeFrames
  exact (h.foldl fun _ _ k => k.foldl fun _ _ k => k.dropFrame).setObj

protected theorem Inv.startCopy {cc : Nat} (h : Inv s) : Inv (startCopy s cc) := h.setCopy.frame.feedEngines

protected theorem Inv.writeMembers {v : Nat} (h : Inv s) : Inv (writeMembers s v) := by
  unfold writeMembers
  exact (h.foldl fun _ _ k => k.emit).applyMembers

protected theorem Inv.acceptUntested {r : ObjRow} {v : Nat} (h : Inv s) : Inv (acceptUntested s r v) :=
  h.setKept.when fun h => h.resumeUntested

protected theorem Inv.freshHostPool (h : Inv s) : Inv (freshHostPool s) := h.same

protected theorem Inv.applyNum {r : ObjRow} {k v : Nat} (h : Inv s) : Inv (applyNum s r k v).2 := by
  dsimp only [applyNum]
  split
  · exact .ite h.loadSeconds h.setKept
  · exact .ite_snd h (.ite_snd h.goSvc h.cancelSvc)
  · exact .ite (.ite h h.restartMins) h.setKept
  · exact .ite h.clearIntake (.ite h.writeClass h.setKept)
  · exact .ite (.ite h h.snapshot.setObj) h.setKept
  · exact h.writeCore
  · exact .ite h.writeFrames h.setKept
  · exact .ite h h.setKept
  · exact .ite h.releaseSeq.evalWaits (.ite h.setKept.freshHostPool (.ite h.setKept.feedEngines h.setKept))
  · exact .ite h.writeMembers (.ite h.applyLinkEnable h.setKept)
  · exact .ite (.ite h h.startCopy) h.setKept
  · exact .ite (.ite h h.withBoot) (.ite (.ite h (h.withReset fun k => k.requestCisReset)) (.ite h.acceptUntested h.setKept))
  · exact h.setKept

protected theorem Inv.applyWrite {staged : Staged} {r : ObjRow} {k : Nat} {v : Val} (h : Inv s) : Inv (applyWrite s staged r k v).2 := by
  unfold applyWrite
  split
  · exact h.setBytes
  · exact .ite_snd h.condFor h.condFor.applyNum

protected theorem Inv.stageWrite {id k : Nat} {v : Val} (h : Inv s) : Inv (stageWrite s id k v).2 := by
  unfold stageWrite
  exact .ite_snd h (.ite_snd h (.ite_snd h h.withKeeper))

protected theorem Inv.applyAll {all xs : Staged} {code : Nat} (h : Inv s) : Inv (applyAll all xs code s).2 := by
  induction xs generalizing s code with
  | nil => exact h
  | cons x rest ih =>
    obtain ⟨k, v⟩ := x
    unfold applyAll
    split
    · exact ih h
    · exact ih h.applyWrite

protected theorem Inv.writeObj {txn k : Nat} {v : Val} (h : Inv s) : Inv (writeObj s txn k v).2 := by
  unfold writeObj
  split
  · exact h
  · exact .ite_snd h (.ite_snd h (.ite_snd h (.ite_snd h.stageWrite (.ite_snd h (.ite_snd h h.applyWrite)))))

protected theorem Inv.touchTxn (h : Inv s) : Inv (touchTxn s) := h.same

protected theorem Inv.endTxn {result : Nat} (h : Inv s) : Inv (endTxn s result) :=
  h.setObj.setObj.setObj.withKeeper

protected theorem Inv.firstFailing {all xs : Staged} (h : Inv s) : Inv (firstFailing s all xs).2 := by
  induction xs generalizing s with
  | nil => exact h
  | cons x rest ih =>
    obtain ⟨k, v⟩ := x
    unfold firstFailing
    split
    · exact ih h
    · exact .ite_snd h.condFor (ih h.condFor)

protected theorem Inv.checkStaged (h : Inv s) : Inv (checkStaged s).2 := h.firstFailing

protected theorem Inv.beginApply {timed : Bool} {reply : Option (Via × CasHdr)} (h : Inv s) : Inv (beginApply s timed reply) := by
  unfold beginApply
  exact h.withKeeper.applyAll.withKeeper

protected theorem Inv.txnEvent {code : Nat} (h : Inv s) : Inv (txnEvent s code) := h.raiseUnit

protected theorem Inv.execTxnTimeout (h : Inv s) : KeepsInv (execTxnTimeout s) := by
  unfold execTxnTimeout
  exact .next (.ite h.endTxn.txnEvent h)

protected theorem Inv.runWrite {w : ObjWrite} (h : Inv s) : Inv (runWrite s w) := by
  unfold runWrite
  exact .ite (.takeWarm (.writeObj (.ite h.touchTxn h))) h

protected theorem Inv.runOwn {own : Nat → Bool} {w : ObjWrite} (h : Inv s) : KeepsInv (runOwn own w s) := by
  unfold runOwn
  exact .next (.ite h.runWrite h)

protected theorem Inv.execObjectWrite {w : ObjWrite} (h : Inv s) : KeepsInv (execObjectWrite w s) := h.runOwn

protected theorem Inv.execSeqRelease {w : ObjWrite} (h : Inv s) : KeepsInv (execSeqRelease w s) := h.runOwn

protected theorem Inv.execSeqQuery {w : ObjWrite} (h : Inv s) : KeepsInv (execSeqQuery w s) := h.runOwn

protected theorem Inv.execLinkEnable {w : ObjWrite} (h : Inv s) : KeepsInv (execLinkEnable w s) := h.runOwn

protected theorem Inv.execCopyGo {w : ObjWrite} (h : Inv s) : KeepsInv (execCopyGo w s) := h.runOwn

protected theorem Inv.execIntakeErrorWrite {w : ObjWrite} (h : Inv s) : KeepsInv (execIntakeErrorWrite w s) :=
  h.runOwn

protected theorem Inv.execEventQuery {w : ObjWrite} (h : Inv s) : KeepsInv (execEventQuery w s) := h.runOwn

protected theorem Inv.execDefectQuery {w : ObjWrite} (h : Inv s) : KeepsInv (execDefectQuery w s) := h.runOwn

protected theorem Inv.execCoreEnable {w : ObjWrite} (h : Inv s) : KeepsInv (execCoreEnable w s) := h.runOwn

protected theorem Inv.execClassEnable {w : ObjWrite} (h : Inv s) : KeepsInv (execClassEnable w s) := h.runOwn

protected theorem Inv.execMinReset {w : ObjWrite} (h : Inv s) : KeepsInv (execMinReset w s) := h.runOwn

protected theorem Inv.execSnapshot {w : ObjWrite} (h : Inv s) : KeepsInv (execSnapshot w s) := h.runOwn

protected theorem Inv.execSecondsLoad {w : ObjWrite} (h : Inv s) : KeepsInv (execSecondsLoad w s) := h.runOwn

protected theorem Inv.execArithClock {w : ObjWrite} (h : Inv s) : KeepsInv (execArithClock w s) := h.runOwn

protected theorem Inv.execAcceptUntested {w : ObjWrite} (h : Inv s) : KeepsInv (execAcceptUntested w s) := h.runOwn

protected theorem Inv.execWarmReset {w : ObjWrite} (h : Inv s) : KeepsInv (execWarmReset w s) := h.runOwn

protected theorem Inv.execCisternReset {w : ObjWrite} (h : Inv s) : KeepsInv (execCisternReset w s) := h.runOwn

protected theorem Inv.execSvcCancel {w : ObjWrite} (h : Inv s) : KeepsInv (execSvcCancel w s) := h.runOwn

protected theorem Inv.execDefectSweep {w : ObjWrite} (h : Inv s) : KeepsInv (execDefectSweep w s) := h.runOwn

protected theorem Inv.execSpotTest {w : ObjWrite} (h : Inv s) : KeepsInv (execSpotTest w s) := h.runOwn

protected theorem Inv.execTestPackAppend {w : ObjWrite} (h : Inv s) : KeepsInv (execTestPackAppend w s) := h.runOwn

protected theorem Inv.execTestPackInstall {w : ObjWrite} (h : Inv s) : KeepsInv (execTestPackInstall w s) :=
  h.runOwn

protected theorem Inv.execTestPackInstallPool {w : ObjWrite} (h : Inv s) : KeepsInv (execTestPackInstallPool w s) :=
  h.runOwn

protected theorem Inv.execTestPackRun {w : ObjWrite} (h : Inv s) : KeepsInv (execTestPackRun w s) := h.runOwn

protected theorem Inv.execFirmwareUpdate {w : ObjWrite} (h : Inv s) : KeepsInv (execFirmwareUpdate w s) := h.runOwn

protected theorem Inv.execLicenceLoad {w : ObjWrite} (h : Inv s) : KeepsInv (execLicenceLoad w s) := h.runOwn

protected theorem Inv.execFailureSignatureExport {w : ObjWrite} (h : Inv s) : KeepsInv (execFailureSignatureExport w s) :=
  h.runOwn

protected theorem Inv.execDefectEntryClearing {w : ObjWrite} (h : Inv s) : KeepsInv (execDefectEntryClearing w s) :=
  h.runOwn

/-! ### Machine/Casaro.lean -/

protected theorem Inv.setChannel {c : Nat} {x : Chan} (h : Inv s) : Inv (setChannel s c x) := h.same

protected theorem Inv.sendDict {dev tag : Nat} {frame : List Byte} (h : Inv s) : Inv (sendDict s dev tag frame) :=
  h.foldl fun _ _ k => k.sendPacket

protected theorem Inv.sendFrame {via : Via} {code tag : Nat} {frame : List Byte} (h : Inv s) : Inv (sendFrame s via code tag frame) := by
  unfold sendFrame
  split
  · exact h.emit.bump.withKeeper
  · exact h.setChannel
  · exact h.emit.sendDict

protected theorem Inv.answer {via : Via} {h : CasHdr} {op code txn : Nat} {body : List Byte} (hi : Inv s) : Inv (answer s via h op code txn body) :=
  hi.sendFrame

protected theorem Inv.readItem {be : Bool} {staged : Staged} {k : Nat} (h : Inv s) : Inv (readItem s be staged k).2.2 := by
  dsimp only [readItem]
  split
  · exact h.readObj
  · exact h.readObj
  · exact h.readObj

protected theorem Inv.readItems {be : Bool} {staged : Staged} {ks : List Nat} {room : Nat} (h : Inv s) :
    Inv (readItems be staged ks room s).2.2.2 := by
  induction ks generalizing s room with
  | nil => exact h
  | cons k ks ih =>
    unfold readItems
    extract_lets i rest
    split
    · exact h
    · exact ih h.readItem

protected theorem Inv.msgRead {be : Bool} {h : CasHdr} {body : List Byte} (hi : Inv s) : Inv (msgRead s be h body).2 := by
  unfold msgRead
  split
  · exact hi
  · exact .ite_snd hi hi.readItems

protected theorem Inv.writeItem {be : Bool} {txn : Nat} {i : Item} (h : Inv s) : Inv (writeItem s be txn i).2 := by
  unfold writeItem
  split
  · exact h.writeObj
  · split
    · exact .ite_snd h (.ite_snd h h)
    · exact h.writeObj

protected theorem Inv.writeItems {be : Bool} {txn : Nat} {xs : List Item} (h : Inv s) : Inv (writeItems be txn xs s).2.2 := by
  induction xs generalizing s with
  | nil => exact h
  | cons x rest ih => exact ih h.writeItem

protected theorem Inv.msgWrite {be : Bool} {h : CasHdr} {body : List Byte} (hi : Inv s) : Inv (msgWrite s be h body).2 := by
  unfold msgWrite
  split
  · exact hi
  · exact .ite_snd hi hi.writeItems

protected theorem Inv.msgList {be : Bool} {h : CasHdr} {body : List Byte} (hi : Inv s) : Inv (msgList s be h body).2 := by
  unfold msgList
  exact .ite_snd hi hi

protected theorem Inv.msgDescribe {be : Bool} {h : CasHdr} {body : List Byte} (hi : Inv s) : Inv (msgDescribe s be h body).2 := by
  unfold msgDescribe
  refine .ite_snd hi ?_
  dsimp only
  split
  · exact hi
  · exact hi

protected theorem Inv.msgBegin {h : CasHdr} {body : List Byte} (hi : Inv s) : Inv (msgBegin s h body).2 := by
  unfold msgBegin
  exact .ite_snd hi (.ite_snd hi hi.same)

protected theorem Inv.msgPrepare {be : Bool} {h : CasHdr} {body : List Byte} (hi : Inv s) : Inv (msgPrepare s be h body).2 := by
  unfold msgPrepare
  exact .ite_snd hi (.ite_snd hi (.ite_snd hi hi.checkStaged.withKeeper))

protected theorem Inv.finishTxn (h : Inv s) : Inv (finishTxn s) := h.endTxn.when fun h => h.txnEvent

protected theorem Inv.commitNow {via : Via} {h : CasHdr} (hi : Inv s) : Inv (commitNow s via h).2 := by
  unfold commitNow
  exact .ite_snd hi.checkStaged.endTxn (.ite_snd hi.checkStaged.beginApply hi.checkStaged.beginApply.finishTxn)

protected theorem Inv.commitAt {h : CasHdr} {t : Nat} (hi : Inv s) : Inv (commitAt s h t).2 := by
  unfold commitAt
  exact .ite_snd hi (.ite_snd hi hi.same)

protected theorem Inv.msgCommit {via : Via} {h : CasHdr} {body : List Byte} (hi : Inv s) : Inv (msgCommit s via h body).2 := by
  unfold msgCommit
  exact .ite_snd hi (.ite_snd hi (.ite_snd hi (.ite_snd hi.commitNow hi.commitAt)))

protected theorem Inv.msgRollback {h : CasHdr} {body : List Byte} (hi : Inv s) : Inv (msgRollback s h body).2 := by
  unfold msgRollback
  exact .ite_snd hi (.ite_snd hi (.ite_snd hi hi.endTxn))

protected theorem Inv.msgHello {be : Bool} {h : CasHdr} {body : List Byte} (hi : Inv s) : Inv (msgHello s be h body).2 := by
  unfold msgHello
  exact .ite_snd hi hi

protected theorem Inv.msgResend {be : Bool} {h : CasHdr} {body : List Byte} (hi : Inv s) : Inv (msgResend s be h body).2 := by
  unfold msgResend
  exact .ite_snd hi hi

protected theorem Inv.sendResent {be : Bool} {op : Nat} {body : List Byte} (h : Inv s) : Inv (sendResent s be op body) := by
  unfold sendResent
  exact .ite (h.foldl fun _ _ k => k.emit.bump) h

protected theorem Inv.carryOut {via : Via} {op : Nat} {h : CasHdr} {body : List Byte} (hi : Inv s) : Inv (carryOut s via op h body).2 := by
  unfold carryOut
  refine .ite_snd hi ?_
  split
  · exact hi.msgRead
  · exact hi.msgWrite
  · exact hi.msgList
  · exact hi.msgDescribe
  · exact hi.msgBegin
  · exact hi.msgPrepare
  · exact hi.msgCommit
  · exact hi.msgRollback
  · exact hi.msgHello
  · exact hi.msgResend
  · exact hi

protected theorem Inv.serveHere {via : Via} {op : Nat} {h : CasHdr} {body : List Byte} (hi : Inv s) : Inv (serveHere s via op h body) := by
  dsimp only [serveHere]
  split
  · exact .carryOut (.ite hi.touchTxn hi)
  · exact .sendResent (.answer (.carryOut (.ite hi.touchTxn hi)))

protected theorem Inv.relayTo {via : Via} {op : Nat} {h : CasHdr} {body : List Byte} (hi : Inv s) : Inv (relayTo s via op h body) :=
  hi.same.sendDict

protected theorem Inv.route {via : Via} {op : Nat} {h : CasHdr} {body : List Byte} (hi : Inv s) : Inv (route s via op h body) := by
  unfold route
  refine .ite hi.serveHere ?_
  split
  · exact hi.answer
  · exact .ite hi.relayTo hi.answer

protected theorem Inv.serve {op : Nat} {r : CasReq} (h : Inv s) : Inv (serve s op r) := by
  unfold serve
  refine .ite h ?_
  split
  · refine .ite h.bump.bump (.ite h.bump ?_)
    split
    · exact h.bump.emit.bump
    · exact h.bump.route
  · exact .ite h.route h.answer

protected theorem Inv.runMessage {op : Nat} {r : CasReq} (h : Inv s) : KeepsInv (runMessage op r s) :=
  h.serve.takeWarm.next

protected theorem Inv.execCasaroRead {req : CasReq} (h : Inv s) : KeepsInv (execCasaroRead req s) := h.runMessage

protected theorem Inv.execCasaroWrite {req : CasReq} (h : Inv s) : KeepsInv (execCasaroWrite req s) := h.runMessage

protected theorem Inv.execCasaroList {req : CasReq} (h : Inv s) : KeepsInv (execCasaroList req s) := h.runMessage

protected theorem Inv.execCasaroDescribe {req : CasReq} (h : Inv s) : KeepsInv (execCasaroDescribe req s) :=
  h.runMessage

protected theorem Inv.execCasaroBegin {req : CasReq} (h : Inv s) : KeepsInv (execCasaroBegin req s) := h.runMessage

protected theorem Inv.execCasaroPrepare {req : CasReq} (h : Inv s) : KeepsInv (execCasaroPrepare req s) :=
  h.runMessage

protected theorem Inv.execCasaroCommit {req : CasReq} (h : Inv s) : KeepsInv (execCasaroCommit req s) :=
  h.runMessage

protected theorem Inv.execCasaroRollback {req : CasReq} (h : Inv s) : KeepsInv (execCasaroRollback req s) :=
  h.runMessage

protected theorem Inv.execCasaroHello {req : CasReq} (h : Inv s) : KeepsInv (execCasaroHello req s) := h.runMessage

protected theorem Inv.execCasaroResend {req : CasReq} (h : Inv s) : KeepsInv (execCasaroResend req s) :=
  h.runMessage

protected theorem Inv.returnRelay {r : Relay} {frame : List Byte} (h : Inv s) : Inv (returnRelay s r frame) :=
  h.same.sendFrame

protected theorem Inv.takeReturn {r : Relay} {p : Packet} (h : Inv s) : Inv (takeReturn s r p) := by
  unfold takeReturn
  exact .ite h.returnRelay h.same

protected theorem Inv.takeRequest {p : Packet} (h : Inv s) : Inv (takeRequest s p) := by
  unfold takeRequest
  exact .ite h.same.serve h.same

protected theorem Inv.takeDict {p : Packet} (h : Inv s) : Inv (takeDict p s) := by
  unfold takeDict
  split
  · exact h.takeReturn
  · exact h.takeRequest

protected theorem Inv.execDictPacket {link : Nat} (h : Inv s) : KeepsInv (execDictPacket link s) := by
  unfold execDictPacket
  exact ((h.onPacket (fun k => k.takeDict)).takeWarm).next

protected theorem Inv.execDictRelayTimeout {dev tag : Nat} (h : Inv s) : KeepsInv (execDictRelayTimeout dev tag s) := by
  unfold execDictRelayTimeout
  refine .next ?_
  split
  · exact h
  · exact .ite h h.same.answer

protected theorem Inv.execTimedCommitInstant (h : Inv s) : KeepsInv (execTimedCommitInstant s) := by
  unfold execTimedCommitInstant
  exact .next (.ite h (.ite h.checkStaged.endTxn.txnEvent ((h.checkStaged.beginApply.unless fun h => h.finishTxn).takeWarm)))

protected theorem Inv.settleTxn (h : Inv s) : Inv (settleTxn s) := by
  unfold settleTxn
  refine .ite h ?_
  split
  · exact h.finishTxn.takeWarm
  · exact h.finishTxn.answer.takeWarm

protected theorem Inv.execPinWaysApply {half : Nat} (h : Inv s) : KeepsInv (execPinWaysApply half s) := by
  unfold execPinWaysApply
  exact .next (.ite h.pinWaysApply.settleTxn h)

protected theorem Inv.execPoolPagesApply {half : Nat} (h : Inv s) : KeepsInv (execPoolPagesApply half s) := by
  unfold execPoolPagesApply
  exact .next (.ite h.poolPagesApply.settleTxn h)

end Sys2Proof.Machine
end

section
/-! SUPPORT. The functions of the model's files Early, HostPort, Jobs, Lanes, Spdm and Smbus
keep the invariant, each by those that it is made of. -/

namespace Sys2Proof.Machine

-- One theorem after another: elaborated side by side, each holds a thread of its own.
set_option Elab.async false

variable {s : State}

/-! ### Machine/Early.lean -/

protected theorem Inv.earlyView {p g : Nat} {rd : Nat → Bool → Nat → Byte} (h : Inv s) : Inv (earlyView s p g rd).2 := by
  unfold earlyView
  exact .ite_snd h.same h

protected theorem Inv.earlyLoad {p g id : Nat} (h : Inv s) : Inv (earlyLoad p g id s) := by
  unfold earlyLoad
  split
  · exact h.same.putMem
  · exact h

protected theorem Inv.startLoadEarly {p g : Nat} {gr : Group} {m : MemOp} {cls : Nat} (h : Inv s) : Inv (startLoadEarly s p g gr m cls) :=
  h.startLoad.earlyLoad

protected theorem Inv.execLd {p g : Nat} {w : InstrBits} (h : Inv s) : KeepsInv (execLd p g w s) := by
  unfold execLd
  exact (h.issue (fun k => .ite k.runSeq (k.runMem (fun k => k.startLoadEarly)))).next

protected theorem Inv.stopOp {p a : Nat} {o : ArrayOp} {run : Nat → ArrayRun} (h : Inv s) : Inv (stopOp s p a o run) := by
  unfold stopOp
  exact h.same.setArray.noteWorkFlush.bump.foldl fun _ _ k => k.writeAt

protected theorem Inv.finishOp {p a : Nat} {o : ArrayOp} {x : ArrayRun} (h : Inv s) : Inv (finishOp s p a o x) := by
  unfold finishOp
  exact (((h.setArray.foldl fun _ _ k => k.writeAt).bump).noteWorkFlush).fallCount

protected theorem Inv.execArrayOpComplete {p a : Nat} {chk : Chk} (h : Inv s) : KeepsInv (execArrayOpComplete p a chk s) := by
  dsimp only [execArrayOpComplete]
  split
  · exact h.next
  refine .ite h.noteTransient.setArray.earlyView.stopOp.next ?_
  refine .ite h.noteTransient.setArray.earlyView.stopOp.workFail.next (.ite ?_ ?_)
  · exact h.noteTransient.setArray.earlyView.stopOp.storedFail.next
  · exact ((h.noteTransient.setArray.earlyView.when fun h => h.bump).finishOp).next

protected theorem Inv.execWeirCommandComplete {p unit : Nat} {chk : Chk} (h : Inv s) : KeepsInv (execWeirCommandComplete p unit chk s) := by
  dsimp only [execWeirCommandComplete]
  split
  · exact h.next
  refine .ite h.noteTransient.endRun.earlyView.stopCmd.next ?_
  refine .ite h.next (.ite h.noteTransient.endRun.earlyView.stopCmd.workFail.next ?_)
  refine .ite ?_ h.noteTransient.endRun.earlyView.finishLayout.next
  split
  · exact h.noteTransient.endRun.earlyView.stopCmd.workFail.next
  split
  · exact h.noteTransient.endRun.earlyView.stopCmd.storedFail.next
  · exact (((h.noteTransient.endRun.earlyView.when fun h => h.bump).dropJobsFor).finishExpand).next

/-! ### Machine/HostPort.lean -/

protected theorem Inv.readCfg {reg : Nat} (h : Inv s) : Inv (readCfg s reg).2 := by
  unfold readCfg
  split
  · exact h
  · exact h.takeFree

protected theorem Inv.writeCfg {reg v : Nat} (h : Inv s) : Inv (writeCfg s reg v) := by
  unfold writeCfg
  refine .ite ?_ ?_
  · exact h.same
  · exact .ite h.same (.ite h (.ite (.ite h.same (.ite h.same h)) (.ite (.ite h.same h) (.ite (.ite h.same h) (.ite h.same h)))))

protected theorem Inv.execPcieConfigRequest {req : CfgReq} (h : Inv s) : KeepsInv (execPcieConfigRequest req s) := by
  unfold execPcieConfigRequest
  refine .next ?_
  refine .ite h (.ite h.emit ?_)
  split
  · exact h.writeCfg.emit
  · exact h.readCfg.emit

protected theorem Inv.execHostLinkTrained {rate width : Nat} {flit : Bool} (h : Inv s) : KeepsInv (execHostLinkTrained rate width flit s) := by
  unfold execHostLinkTrained
  exact .next (.ite h.settleHostLink h)

protected theorem Inv.countedReset (h : Inv s) : Inv (countedReset s) := h.resetPort.bump

protected theorem Inv.execPortReset {cause : PortCause} (h : Inv s) : KeepsInv (execPortReset cause s) := by
  unfold execPortReset
  exact .next (.ite h h.countedReset)

protected theorem Inv.execPcieRefclkReturn {rate width : Nat} {flit : Bool} (h : Inv s) : KeepsInv (execPcieRefclkReturn rate width flit s) := by
  unfold execPcieRefclkReturn
  exact .next (.ite h (h.same.when fun h => h.settleHostLink))

protected theorem Inv.execClockLock {clock : ClockId} (h : Inv s) : KeepsInv (execClockLock clock s) := by
  unfold execClockLock
  refine .next ?_
  refine .ite h ?_
  split
  · exact h.loseClock
  · exact h.loseClock
  · exact h.loseClock
  · exact .ite h.same.setLink h
  · exact h.same.countedReset.frame

protected theorem Inv.completeData {tag : Nat} {data : List Byte} (h : Inv s) : Inv (completeData s tag data) :=
  h.emit.portSend

protected theorem Inv.bar0Read {rd : MemRd} (h : Inv s) : Inv (bar0Read rd s) := by
  unfold bar0Read
  refine .ite ?_ ?_
  · exact h.completeUr
  · exact .ite h.completeData (.ite h.completeData (.ite (.ite h.completeData h.completeUr) h.takeFree.completeData))

protected theorem Inv.execBar0DirectRead {rd : MemRd} (h : Inv s) : KeepsInv (execBar0DirectRead rd s) :=
  h.bar0Read.next

protected theorem Inv.submitFrame {c len : Nat} (h : Inv s) : Inv (submitFrame s c len) := by
  unfold submitFrame
  exact .ite h.bump (.ite h.takeFree.setChannel h.setChannel.serve)

protected theorem Inv.putRequest {c off : Nat} {bs : List Byte} (h : Inv s) : Inv (putRequest s c off bs) :=
  h.setChannel

protected theorem Inv.execBar0ChannelSubmit {chan : Nat} {request : List Byte} {len : Nat} {ep : Bool} (h : Inv s) : KeepsInv (execBar0ChannelSubmit chan request len ep s) := by
  unfold execBar0ChannelSubmit
  exact .next (.ite h.portUr (.ite h.portPoisonedRx h.bump.putRequest.submitFrame.takeWarm))

protected theorem Inv.bar0Write {off : Nat} {bs : List Byte} (h : Inv s) : Inv (bar0Write off bs s) := by
  unfold bar0Write
  exact .ite h.portUr (.ite h.bump.submitFrame.takeWarm (h.bump.when fun h => h.putRequest))

protected theorem Inv.execBar0InvalidAccess {rd : MemRd} {write : Option (List Byte)} (h : Inv s) : KeepsInv (execBar0InvalidAccess rd write s) := by
  unfold execBar0InvalidAccess
  refine .next ?_
  split
  · exact h.bar0Write
  · exact h.bar0Read

protected theorem Inv.readHere {tag cls a len : Nat} {chk : Chk} (h : Inv s) : Inv (readHere s tag cls a len chk) := by
  unfold readHere
  refine .ite ?_ ?_
  · refine .completeBar4 ?_
    split
    · exact h.readSlot
    · exact h
  refine .startJob ?_
  split
  · exact h.readSlot
  · exact h

protected theorem Inv.execBar4Read {rd : MemRd} {chk : Chk} (h : Inv s) : KeepsInv (execBar4Read rd chk s) := by
  unfold execBar4Read
  exact .next (.ite h.completeUr (.ite (.ite h.completeUr h.readHere) (.ite h.same.peerRequests h.completeUr)))

protected theorem Inv.execBar4Write {offset : Nat} {data : List Byte} {ep : Bool} (h : Inv s) : KeepsInv (execBar4Write offset data ep s) := by
  unfold execBar4Write
  exact .next (.ite h.portUr (.ite h.portPoisonedRx (.ite (.ite h.portUr h.bump.startJob) (.ite h.bump.peerRequests h.portUr))))

protected theorem Inv.moveToPool {m : CopyMove} {data : List Byte} (h : Inv s) : Inv (moveToPool s m data) := by
  unfold moveToPool
  exact .ite h.portRead.startJob h.portRead.peerRequests

protected theorem Inv.moveToHost {m : CopyMove} (h : Inv s) : Inv (moveToHost s m) := by
  unfold moveToHost
  exact .ite h.startJob h.peerRequests

protected theorem Inv.endMoveHere {m : CopyMove} {got : List Served} (h : Inv s) : Inv (endMoveHere s m got) := by
  unfold endMoveHere
  exact .advanceCopy (.freeEngine (.ite h (h.portSend.emit.when fun h => h.bump)))

protected theorem Inv.execHostCopyMoveComplete {ok : Bool} {data : List Byte} (h : Inv s) : KeepsInv (execHostCopyMoveComplete ok data s) := by
  unfold execHostCopyMoveComplete
  refine .next ?_
  split
  · exact h
  · exact .ite h (.ite h.failCopy (.ite h.failCopy (.ite (.ite h.moveToPool h.failCopy) h.moveToHost)))

/-! ### Machine/Jobs.lean -/

protected theorem Inv.endJob {j : Job} (h : Inv s) : Inv (endJob s j) := by
  unfold endJob
  refine .ite h ?_
  dsimp only
  split
  · exact h.dropJob
  · exact h.dropJob.completeBar4
  · exact h.dropJob.answerPacket
  · exact h.dropJob.endMoveHere
  · exact h.dropJob.landPage
  · exact h.dropJob.takeFetch
  · exact h.dropJob.takeSeqList.evalWaits
  · exact h.dropJob.takeScrub
  · exact h.dropJob.takePack
  · exact h
  · exact h
  · exact h
  · exact h

protected theorem Inv.runJobs (h : Inv s) : Inv (runJobs s) := h.foldl fun _ _ k => k.endJob

protected theorem Inv.execSliceIntake {g port : Nat} {chk : Chk} (h : Inv s) : KeepsInv (execSliceIntake g port chk s) :=
  h.sliceIntake.runJobs.next

protected theorem Inv.execSectorFill {g line sector : Nat} (h : Inv s) : KeepsInv (execSectorFill g line sector s) :=
  h.sectorFill.runJobs.next

protected theorem Inv.execReductionApply {g : Nat} {chk : Chk} (h : Inv s) : KeepsInv (execReductionApply g chk s) :=
  h.reductionApply.runJobs.next

protected theorem Inv.execReduceForce {g set : Nat} (h : Inv s) : KeepsInv (execReduceForce g set s) :=
  h.reduceForce.runJobs.next

protected theorem Inv.execReservoirWriteRequest {g : Nat} (h : Inv s) : KeepsInv (execReservoirWriteRequest g s) := by
  unfold execReservoirWriteRequest
  exact h.writeRequest.runJobs.next

protected theorem Inv.execSillTransfer {dir : Nat} {ok : Bool} (h : Inv s) : KeepsInv (execSillTransfer dir ok s) := by
  unfold execSillTransfer
  exact ((h.withReset (fun k => k.sillTransfer)).runJobs).next

protected theorem Inv.execCisternWatchdog {g : Nat} (h : Inv s) : KeepsInv (execCisternWatchdog g s) := by
  unfold execCisternWatchdog
  exact (h.withReset (fun k => k.cisternWatchdog)).next

protected theorem Inv.execRegulationAdmit {point inst cls : Nat} (h : Inv s) : KeepsInv (execRegulationAdmit point inst cls s) :=
  h.regulationAdmit.runJobs.next

/-! ### Machine/Lanes.lean -/

protected theorem Inv.execNop {p g : Nat} {w : InstrBits} (h : Inv s) : KeepsInv (execNop p g w s) := by
  unfold execNop
  exact (h.issue (fun k => k.finishAt)).next

protected theorem Inv.execIadd {p g : Nat} {w : InstrBits} (h : Inv s) : KeepsInv (execIadd p g w s) := by
  unfold execIadd
  exact (h.issue (fun k => k.runReg)).next

protected theorem Inv.execIsub {p g : Nat} {w : InstrBits} (h : Inv s) : KeepsInv (execIsub p g w s) := by
  unfold execIsub
  exact (h.issue (fun k => k.runReg)).next

protected theorem Inv.execImul {p g : Nat} {w : InstrBits} (h : Inv s) : KeepsInv (execImul p g w s) := by
  unfold execImul
  exact (h.issue (fun k => k.runReg)).next

protected theorem Inv.execImulhi {p g : Nat} {w : InstrBits} (h : Inv s) : KeepsInv (execImulhi p g w s) := by
  unfold execImulhi
  exact (h.issue (fun k => k.runReg)).next

protected theorem Inv.execImad {p g : Nat} {w : InstrBits} (h : Inv s) : KeepsInv (execImad p g w s) := by
  unfold execImad
  exact (h.issue (fun k => k.runReg)).next

protected theorem Inv.execImin {p g : Nat} {w : InstrBits} (h : Inv s) : KeepsInv (execImin p g w s) := by
  unfold execImin
  exact (h.issue (fun k => k.runReg)).next

protected theorem Inv.execImax {p g : Nat} {w : InstrBits} (h : Inv s) : KeepsInv (execImax p g w s) := by
  unfold execImax
  exact (h.issue (fun k => k.runReg)).next

protected theorem Inv.execAndOp {p g : Nat} {w : InstrBits} (h : Inv s) : KeepsInv (execAndOp p g w s) := by
  unfold execAndOp
  exact (h.issue (fun k => k.runReg)).next

protected theorem Inv.execOrOp {p g : Nat} {w : InstrBits} (h : Inv s) : KeepsInv (execOrOp p g w s) := by
  unfold execOrOp
  exact (h.issue (fun k => k.runReg)).next

protected theorem Inv.execXorOp {p g : Nat} {w : InstrBits} (h : Inv s) : KeepsInv (execXorOp p g w s) := by
  unfold execXorOp
  exact (h.issue (fun k => k.runReg)).next

protected theorem Inv.execShl {p g : Nat} {w : InstrBits} (h : Inv s) : KeepsInv (execShl p g w s) := by
  unfold execShl
  exact (h.issue (fun k => k.runReg)).next

protected theorem Inv.execShr {p g : Nat} {w : InstrBits} (h : Inv s) : KeepsInv (execShr p g w s) := by
  unfold execShr
  exact (h.issue (fun k => k.runReg)).next

protected theorem Inv.execPopc {p g : Nat} {w : InstrBits} (h : Inv s) : KeepsInv (execPopc p g w s) := by
  unfold execPopc
  exact (h.issue (fun k => k.runReg)).next

protected theorem Inv.execClz {p g : Nat} {w : InstrBits} (h : Inv s) : KeepsInv (execClz p g w s) := by
  unfold execClz
  exact (h.issue (fun k => k.runReg)).next

protected theorem Inv.execIcmp {p g : Nat} {w : InstrBits} (h : Inv s) : KeepsInv (execIcmp p g w s) := by
  unfold execIcmp
  exact (h.issue (fun k => k.runPred)).next

protected theorem Inv.execSel {p g : Nat} {w : InstrBits} (h : Inv s) : KeepsInv (execSel p g w s) := by
  unfold execSel
  exact (h.issue (fun k => k.runReg)).next

protected theorem Inv.execMov {p g : Nat} {w : InstrBits} (h : Inv s) : KeepsInv (execMov p g w s) := by
  unfold execMov
  exact (h.issue (fun k => k.runReg)).next

protected theorem Inv.execMovi {p g : Nat} {w : InstrBits} (h : Inv s) : KeepsInv (execMovi p g w s) := by
  unfold execMovi
  exact (h.issue (fun k => k.runReg)).next

protected theorem Inv.execPlop {p g : Nat} {w : InstrBits} (h : Inv s) : KeepsInv (execPlop p g w s) := by
  unfold execPlop
  exact (h.issue (fun k => k.runPred)).next

protected theorem Inv.execShfl {p g : Nat} {w : InstrBits} (h : Inv s) : KeepsInv (execShfl p g w s) := by
  unfold execShfl
  exact (h.issue (fun k => k.runReg)).next

protected theorem Inv.execVote {p g : Nat} {w : InstrBits} (h : Inv s) : KeepsInv (execVote p g w s) := by
  unfold execVote
  exact (h.issue (fun k => .ite k.runReg k.runPred)).next

protected theorem Inv.execFadd {p g : Nat} {w : InstrBits} (h : Inv s) : KeepsInv (execFadd p g w s) := by
  unfold execFadd
  exact (h.issue (fun k => k.runFloat)).next

protected theorem Inv.execFmul {p g : Nat} {w : InstrBits} (h : Inv s) : KeepsInv (execFmul p g w s) := by
  unfold execFmul
  exact (h.issue (fun k => k.runFloat)).next

protected theorem Inv.execFfma {p g : Nat} {w : InstrBits} (h : Inv s) : KeepsInv (execFfma p g w s) := by
  unfold execFfma
  exact (h.issue (fun k => k.runFloat)).next

protected theorem Inv.execFmin {p g : Nat} {w : InstrBits} (h : Inv s) : KeepsInv (execFmin p g w s) := by
  unfold execFmin
  exact (h.issue (fun k => k.runFloat)).next

protected theorem Inv.execFmax {p g : Nat} {w : InstrBits} (h : Inv s) : KeepsInv (execFmax p g w s) := by
  unfold execFmax
  exact (h.issue (fun k => k.runFloat)).next

protected theorem Inv.execFcmp {p g : Nat} {w : InstrBits} (h : Inv s) : KeepsInv (execFcmp p g w s) := by
  unfold execFcmp
  exact (h.issue (fun k => k.runFloatPred)).next

protected theorem Inv.execCvt {p g : Nat} {w : InstrBits} (h : Inv s) : KeepsInv (execCvt p g w s) := by
  unfold execCvt
  exact (h.issue (fun k => k.runFloat)).next

protected theorem Inv.execEx2 {p g : Nat} {w : InstrBits} (h : Inv s) : KeepsInv (execEx2 p g w s) := by
  unfold execEx2
  exact (h.issue (fun k => k.runFloat)).next

protected theorem Inv.execLg2 {p g : Nat} {w : InstrBits} (h : Inv s) : KeepsInv (execLg2 p g w s) := by
  unfold execLg2
  exact (h.issue (fun k => k.runFloat)).next

protected theorem Inv.execRcp {p g : Nat} {w : InstrBits} (h : Inv s) : KeepsInv (execRcp p g w s) := by
  unfold execRcp
  exact (h.issue (fun k => k.runFloat)).next

protected theorem Inv.execRsq {p g : Nat} {w : InstrBits} (h : Inv s) : KeepsInv (execRsq p g w s) := by
  unfold execRsq
  exact (h.issue (fun k => k.runFloat)).next

protected theorem Inv.execIaddi {p g : Nat} {w : InstrBits} (h : Inv s) : KeepsInv (execIaddi p g w s) := by
  unfold execIaddi
  exact (h.issue (fun k => k.runReg)).next

protected theorem Inv.execIsubi {p g : Nat} {w : InstrBits} (h : Inv s) : KeepsInv (execIsubi p g w s) := by
  unfold execIsubi
  exact (h.issue (fun k => k.runReg)).next

protected theorem Inv.execImuli {p g : Nat} {w : InstrBits} (h : Inv s) : KeepsInv (execImuli p g w s) := by
  unfold execImuli
  exact (h.issue (fun k => k.runReg)).next

protected theorem Inv.execImini {p g : Nat} {w : InstrBits} (h : Inv s) : KeepsInv (execImini p g w s) := by
  unfold execImini
  exact (h.issue (fun k => k.runReg)).next

protected theorem Inv.execImaxi {p g : Nat} {w : InstrBits} (h : Inv s) : KeepsInv (execImaxi p g w s) := by
  unfold execImaxi
  exact (h.issue (fun k => k.runReg)).next

protected theorem Inv.execAndi {p g : Nat} {w : InstrBits} (h : Inv s) : KeepsInv (execAndi p g w s) := by
  unfold execAndi
  exact (h.issue (fun k => k.runReg)).next

protected theorem Inv.execOri {p g : Nat} {w : InstrBits} (h : Inv s) : KeepsInv (execOri p g w s) := by
  unfold execOri
  exact (h.issue (fun k => k.runReg)).next

protected theorem Inv.execXori {p g : Nat} {w : InstrBits} (h : Inv s) : KeepsInv (execXori p g w s) := by
  unfold execXori
  exact (h.issue (fun k => k.runReg)).next

protected theorem Inv.execShli {p g : Nat} {w : InstrBits} (h : Inv s) : KeepsInv (execShli p g w s) := by
  unfold execShli
  exact (h.issue (fun k => k.runReg)).next

protected theorem Inv.execShri {p g : Nat} {w : InstrBits} (h : Inv s) : KeepsInv (execShri p g w s) := by
  unfold execShri
  exact (h.issue (fun k => k.runReg)).next

protected theorem Inv.execIcmpi {p g : Nat} {w : InstrBits} (h : Inv s) : KeepsInv (execIcmpi p g w s) := by
  unfold execIcmpi
  exact (h.issue (fun k => k.runPred)).next

protected theorem Inv.execShfli {p g : Nat} {w : InstrBits} (h : Inv s) : KeepsInv (execShfli p g w s) := by
  unfold execShfli
  exact (h.issue (fun k => k.runReg)).next

protected theorem Inv.execFaddi {p g : Nat} {w : InstrBits} (h : Inv s) : KeepsInv (execFaddi p g w s) := by
  unfold execFaddi
  exact (h.issue (fun k => k.runFloat)).next

protected theorem Inv.execFmuli {p g : Nat} {w : InstrBits} (h : Inv s) : KeepsInv (execFmuli p g w s) := by
  unfold execFmuli
  exact (h.issue (fun k => k.runFloat)).next

protected theorem Inv.execFmini {p g : Nat} {w : InstrBits} (h : Inv s) : KeepsInv (execFmini p g w s) := by
  unfold execFmini
  exact (h.issue (fun k => k.runFloat)).next

protected theorem Inv.execFmaxi {p g : Nat} {w : InstrBits} (h : Inv s) : KeepsInv (execFmaxi p g w s) := by
  unfold execFmaxi
  exact (h.issue (fun k => k.runFloat)).next

protected theorem Inv.execFcmpi {p g : Nat} {w : InstrBits} (h : Inv s) : KeepsInv (execFcmpi p g w s) := by
  unfold execFcmpi
  exact (h.issue (fun k => k.runFloatPred)).next

/-! ### Machine/Spdm.lean -/

protected theorem Inv.spdmAnswer {f : State → State} (h : Inv s) (hf : ∀ {t}, Inv t → Inv (f t)) : Inv (spdmAnswer s f) := by
  unfold spdmAnswer
  exact .ite (hf h) h

protected theorem Inv.spdmReply {code : Nat} {fields : List (List Byte)} (h : Inv s) : Inv (spdmReply code fields s) :=
  h.emit

protected theorem Inv.takeFreeBytes {n : Nat} (h : Inv s) : Inv (takeFreeBytes s n).2 := h.takeFree

protected theorem Inv.spdmRefuse (h : Inv s) : Inv (spdmRefuse s) := h.takeFreeBytes.spdmReply

protected theorem Inv.execSpdmGetVersion (h : Inv s) : KeepsInv (execSpdmGetVersion s) := by
  unfold execSpdmGetVersion
  exact (h.spdmAnswer (fun k => k.spdmReply)).next

protected theorem Inv.execSpdmGetCapabilities (h : Inv s) : KeepsInv (execSpdmGetCapabilities s) := by
  unfold execSpdmGetCapabilities
  exact (h.spdmAnswer (fun k => k.spdmReply)).next

protected theorem Inv.execSpdmNegotiateAlgorithms {asym hash : Nat} (h : Inv s) : KeepsInv (execSpdmNegotiateAlgorithms asym hash s) := by
  unfold execSpdmNegotiateAlgorithms
  exact (h.spdmAnswer (fun k => k.spdmReply)).next

protected theorem Inv.execSpdmGetDigests (h : Inv s) : KeepsInv (execSpdmGetDigests s) := by
  unfold execSpdmGetDigests
  exact (h.spdmAnswer (fun k => k.spdmReply)).next

protected theorem Inv.execSpdmGetCertificate {slot offset len : Nat} (h : Inv s) : KeepsInv (execSpdmGetCertificate slot offset len s) := by
  unfold execSpdmGetCertificate
  exact (h.spdmAnswer (fun k => .ite k.spdmRefuse k.spdmReply)).next

protected theorem Inv.execSpdmChallenge {slot : Nat} {nonce : List Byte} (h : Inv s) : KeepsInv (execSpdmChallenge slot nonce s) := by
  unfold execSpdmChallenge
  exact (h.spdmAnswer (fun k => .ite k.spdmRefuse k.takeFreeBytes.spdmReply)).next

protected theorem Inv.execSpdmGetMeasurements {index : Nat} {sign : Bool} {nonce : List Byte} (h : Inv s) : KeepsInv (execSpdmGetMeasurements index sign nonce s) := by
  unfold execSpdmGetMeasurements
  exact (h.spdmAnswer (fun k => .ite k.spdmRefuse (.ite k.takeFreeBytes.spdmReply k.spdmReply))).next

protected theorem Inv.execSpdmUnsupportedRequest {code : Nat} (h : Inv s) : KeepsInv (execSpdmUnsupportedRequest code s) := by
  unfold execSpdmUnsupportedRequest
  exact (h.spdmAnswer (fun k => k.spdmReply)).next

/-! ### Machine/Smbus.lean -/

protected theorem Inv.smbusAnswer {data : Option (List Byte)} (h : Inv s) : Inv (smbusAnswer s data) := by
  unfold smbusAnswer
  exact .ite h.emit h

protected theorem Inv.execSmbusInputVoltage (h : Inv s) : KeepsInv (execSmbusInputVoltage s) := h.smbusAnswer.next

protected theorem Inv.execSmbusInputPower (h : Inv s) : KeepsInv (execSmbusInputPower s) := h.smbusAnswer.next

protected theorem Inv.execSmbusHottest (h : Inv s) : KeepsInv (execSmbusHottest s) := h.smbusAnswer.next

protected theorem Inv.execSmbusStage (h : Inv s) : KeepsInv (execSmbusStage s) := h.smbusAnswer.next

protected theorem Inv.execSmbusThrottleStep (h : Inv s) : KeepsInv (execSmbusThrottleStep s) := h.smbusAnswer.next

protected theorem Inv.execSmbusSerial (h : Inv s) : KeepsInv (execSmbusSerial s) := h.smbusAnswer.next

protected theorem Inv.execSmbusStageResult (h : Inv s) : KeepsInv (execSmbusStageResult s) := by
  unfold execSmbusStageResult
  exact .next (.ite h.smbusAnswer.withBoot h)

protected theorem Inv.execSmbusOtherCommand {cmd : Nat} (h : Inv s) : KeepsInv (execSmbusOtherCommand cmd s) := by
  unfold execSmbusOtherCommand
  exact .next (.ite h h.smbusAnswer)

end Sys2Proof.Machine
end

section
/-! PROOFS. A step runs the command at the front of the queue (O1), and every step keeps the invariant (O60). -/

namespace Sys2Proof.Machine

-- One theorem after another: elaborated side by side, each holds a thread of its own.
set_option Elab.async false

variable {s : State}

protected theorem Inv.exec {i : Instr} (h : Inv s) : KeepsInv (exec i s) := by
  unfold exec
  cases i with
  | bar2RecordWrite => exact h.execBar2RecordWrite
  | bar2Read => exact h.execBar2Read
  | intakeTake => exact h.execIntakeTake
  | stagingWindowEntry => exact h.execStagingWindowEntry
  | stagingAnswer => exact h.execStagingAnswer
  | deferredRetry => exact h.execDeferredRetry
  | sluiceStarved => exact h.execSluiceStarved
  | ageLimitExpiry => exact h.execAgeLimitExpiry
  | groupPlace => exact h.execGroupPlace
  | groupExit => exact h.execGroupExit
  | taskRetire => exact h.execTaskRetire
  | taskFaultSettle => exact h.execTaskFaultSettle
  | taskTimeout => exact h.execTaskTimeout
  | drainDeadline => exact h.execDrainDeadline
  | nop => exact h.execNop
  | iadd => exact h.execIadd
  | isub => exact h.execIsub
  | imul => exact h.execImul
  | imulhi => exact h.execImulhi
  | imad => exact h.execImad
  | imin => exact h.execImin
  | imax => exact h.execImax
  | andOp => exact h.execAndOp
  | orOp => exact h.execOrOp
  | xorOp => exact h.execXorOp
  | shl => exact h.execShl
  | shr => exact h.execShr
  | popc => exact h.execPopc
  | clz => exact h.execClz
  | icmp => exact h.execIcmp
  | sel => exact h.execSel
  | mov => exact h.execMov
  | movi => exact h.execMovi
  | plop => exact h.execPlop
  | shfl => exact h.execShfl
  | vote => exact h.execVote
  | fadd => exact h.execFadd
  | fmul => exact h.execFmul
  | ffma => exact h.execFfma
  | fmin => exact h.execFmin
  | fmax => exact h.execFmax
  | fcmp => exact h.execFcmp
  | cvt => exact h.execCvt
  | ex2 => exact h.execEx2
  | lg2 => exact h.execLg2
  | rcp => exact h.execRcp
  | rsq => exact h.execRsq
  | iaddi => exact h.execIaddi
  | isubi => exact h.execIsubi
  | imuli => exact h.execImuli
  | imini => exact h.execImini
  | imaxi => exact h.execImaxi
  | andi => exact h.execAndi
  | ori => exact h.execOri
  | xori => exact h.execXori
  | shli => exact h.execShli
  | shri => exact h.execShri
  | icmpi => exact h.execIcmpi
  | shfli => exact h.execShfli
  | faddi => exact h.execFaddi
  | fmuli => exact h.execFmuli
  | fmini => exact h.execFmini
  | fmaxi => exact h.execFmaxi
  | fcmpi => exact h.execFcmpi
  | ld => exact h.execLd
  | st => exact h.execSt
  | atom => exact h.execAtom
  | red => exact h.execRed
  | bra => exact h.execBra
  | brx => exact h.execBrx
  | bar => exact h.execBar
  | tbar => exact h.execTbar
  | exit => exact h.execExit
  | cwait => exact h.execCwait
  | fence => exact h.execFence
  | mma => exact h.execMma
  | mfrag => exact h.execMfrag
  | weir => exact h.execWeir
  | spawn => exact h.execSpawn
  | pub => exact h.execPub
  | srd => exact h.execSrd
  | loadDataReturn => exact h.execLoadDataReturn
  | writeAcceptance => exact h.execWriteAcceptance
  | fetchLineReturn => exact h.execFetchLineReturn
  | barrierRelease => exact h.execBarrierRelease
  | taskBarrierRelease => exact h.execTaskBarrierRelease
  | arrayOpStart => exact h.execArrayOpStart
  | arrayOpComplete => exact h.execArrayOpComplete
  | mfragWindowStart => exact h.execMfragWindowStart
  | mfragComplete => exact h.execMfragComplete
  | lxuExpand => exact h.execLxuExpand
  | lytTranspose => exact h.execLytTranspose
  | lytIngest => exact h.execLytIngest
  | weirCommandComplete => exact h.execWeirCommandComplete
  | pageWalk => exact h.execPageWalk
  | walkerInvalidate => exact h.execWalkerInvalidate
  | scrubRead => exact h.execScrubRead
  | promoteRequest => exact h.execPromoteRequest
  | promotionCopyComplete => exact h.execPromotionCopyComplete
  | sliceIntake => exact h.execSliceIntake
  | sectorFill => exact h.execSectorFill
  | reductionApply => exact h.execReductionApply
  | reduceForce => exact h.execReduceForce
  | thrashWindowEnd => exact h.execThrashWindowEnd
  | cisternWatchdog => exact h.execCisternWatchdog
  | sillTransfer => exact h.execSillTransfer
  | pinWaysApply => exact h.execPinWaysApply
  | poolPagesApply => exact h.execPoolPagesApply
  | reservoirReadRequest => exact h.execReservoirReadRequest
  | reservoirReadReturn => exact h.execReservoirReadReturn
  | reservoirWriteRequest => exact h.execReservoirWriteRequest
  | reservoirWriteDrain => exact h.execReservoirWriteDrain
  | refresh => exact h.execRefresh
  | channelRetrain => exact h.execChannelRetrain
  | demandFault => exact h.execDemandFault
  | hostLookahead => exact h.execHostLookahead
  | pageInComplete => exact h.execPageInComplete
  | pageoutStart => exact h.execPageoutStart
  | pageoutComplete => exact h.execPageoutComplete
  | seqRelease => exact h.execSeqRelease
  | seqQuery => exact h.execSeqQuery
  | flitReceive => exact h.execFlitReceive
  | readPacket => exact h.execReadPacket
  | writePacket => exact h.execWritePacket
  | writeMaskedPacket => exact h.execWriteMaskedPacket
  | atomPacket => exact h.execAtomPacket
  | postPacket => exact h.execPostPacket
  | signalPacket => exact h.execSignalPacket
  | readDataPacket => exact h.execReadDataPacket
  | writeAckPacket => exact h.execWriteAckPacket
  | atomDataPacket => exact h.execAtomDataPacket
  | postResultPacket => exact h.execPostResultPacket
  | refusedPacket => exact h.execRefusedPacket
  | redPacket => exact h.execRedPacket
  | redMaskedPacket => exact h.execRedMaskedPacket
  | dictPacket => exact h.execDictPacket
  | retryReqPacket => exact h.execRetryReqPacket
  | nullPacket => exact h.execNullPacket
  | poolAssign => exact h.execPoolAssign
  | poolJoin => exact h.execPoolJoin
  | poolFormationDeadline => exact h.execPoolFormationDeadline
  | poolStateQuery => exact h.execPoolStateQuery
  | poolLoss => exact h.execPoolLoss
  | poolWithdraw => exact h.execPoolWithdraw
  | poolReset => exact h.execPoolReset
  | replayTimeout => exact h.execReplayTimeout
  | linkRetrain => exact h.execLinkRetrain
  | linkRetrainComplete => exact h.execLinkRetrainComplete
  | linkDownTimeout => exact h.execLinkDownTimeout
  | peerTimeout => exact h.execPeerTimeout
  | linkEnable => exact h.execLinkEnable
  | poolMembers => exact h.execPoolMembers
  | pcieConfigRequest => exact h.execPcieConfigRequest
  | hostLinkTrained => exact h.execHostLinkTrained
  | portReset => exact h.execPortReset
  | bar4Read => exact h.execBar4Read
  | bar4Write => exact h.execBar4Write
  | bar0DirectRead => exact h.execBar0DirectRead
  | bar0ChannelSubmit => exact h.execBar0ChannelSubmit
  | bar0InvalidAccess => exact h.execBar0InvalidAccess
  | copyGo => exact h.execCopyGo
  | hostCopyMoveComplete => exact h.execHostCopyMoveComplete
  | spdmGetVersion => exact h.execSpdmGetVersion
  | spdmGetCapabilities => exact h.execSpdmGetCapabilities
  | spdmNegotiateAlgorithms => exact h.execSpdmNegotiateAlgorithms
  | spdmGetDigests => exact h.execSpdmGetDigests
  | spdmGetCertificate => exact h.execSpdmGetCertificate
  | spdmChallenge => exact h.execSpdmChallenge
  | spdmGetMeasurements => exact h.execSpdmGetMeasurements
  | spdmUnsupportedRequest => exact h.execSpdmUnsupportedRequest
  | casaroRead => exact h.execCasaroRead
  | casaroWrite => exact h.execCasaroWrite
  | casaroList => exact h.execCasaroList
  | casaroDescribe => exact h.execCasaroDescribe
  | casaroBegin => exact h.execCasaroBegin
  | casaroPrepare => exact h.execCasaroPrepare
  | casaroCommit => exact h.execCasaroCommit
  | casaroRollback => exact h.execCasaroRollback
  | casaroHello => exact h.execCasaroHello
  | casaroResend => exact h.execCasaroResend
  | dictRelayTimeout => exact h.execDictRelayTimeout
  | txnTimeout => exact h.execTxnTimeout
  | timedCommitInstant => exact h.execTimedCommitInstant
  | objectWrite => exact h.execObjectWrite
  | intakeErrorWrite => exact h.execIntakeErrorWrite
  | eventQuery => exact h.execEventQuery
  | defectQuery => exact h.execDefectQuery
  | coreEnable => exact h.execCoreEnable
  | classEnable => exact h.execClassEnable
  | minReset => exact h.execMinReset
  | snapshot => exact h.execSnapshot
  | snapshotAt => exact h.execSnapshotAt
  | secondsLoad => exact h.execSecondsLoad
  | arithClock => exact h.execArithClock
  | acceptUntested => exact h.execAcceptUntested
  | warmReset => exact h.execWarmReset
  | cisternReset => exact h.execCisternReset
  | cisternResetDrainEnd => exact h.execCisternResetDrainEnd
  | regulationAdmit => exact h.execRegulationAdmit
  | svcCancel => exact h.execSvcCancel
  | defectSweep => exact h.execDefectSweep
  | sweepBlockCommit => exact h.execSweepBlockCommit
  | spotTest => exact h.execSpotTest
  | testPackAppend => exact h.execTestPackAppend
  | testPackInstall => exact h.execTestPackInstall
  | testPackInstallPool => exact h.execTestPackInstallPool
  | testPackRun => exact h.execTestPackRun
  | coreTestComplete => exact h.execCoreTestComplete
  | firmwareUpdate => exact h.execFirmwareUpdate
  | firmwareUpdatePhase => exact h.execFirmwareUpdatePhase
  | licenceLoad => exact h.execLicenceLoad
  | failureSignatureExport => exact h.execFailureSignatureExport
  | defectEntryClearing => exact h.execDefectEntryClearing
  | flashStore => exact h.execFlashStore
  | coldStart => exact h.execColdStart
  | resetN => exact h.execResetN
  | keeperWatchdog => exact h.execKeeperWatchdog
  | stageS0 => exact h.execStageS0
  | stageS1 => exact h.execStageS1
  | stageS2 => exact h.execStageS2
  | stageS3 => exact h.execStageS3
  | stageS4 => exact h.execStageS4
  | stageS5 => exact h.execStageS5
  | stageS6 => exact h.execStageS6
  | stageS7 => exact h.execStageS7
  | stageS8 => exact h.execStageS8
  | stageS9 => exact h.execStageS9
  | stageS10 => exact h.execStageS10
  | thermalRestart => exact h.execThermalRestart
  | inletFault => exact h.execInletFault
  | inletRestored => exact h.execInletRestored
  | presentNRelease => exact h.execPresentNRelease
  | housekeepingRound => exact h.execHousekeepingRound
  | regulatorFailed => exact h.execRegulatorFailed
  | converterFailed => exact h.execConverterFailed
  | senseLost => exact h.execSenseLost
  | railFault => exact h.execRailFault
  | ppsPulse => exact h.execPpsPulse
  | ppsMissing => exact h.execPpsMissing
  | clockLock => exact h.execClockLock
  | verticalLaneTest => exact h.execVerticalLaneTest
  | sliceRetired => exact h.execSliceRetired
  | smbusInputVoltage => exact h.execSmbusInputVoltage
  | smbusInputPower => exact h.execSmbusInputPower
  | smbusHottest => exact h.execSmbusHottest
  | smbusStage => exact h.execSmbusStage
  | smbusThrottleStep => exact h.execSmbusThrottleStep
  | smbusSerial => exact h.execSmbusSerial
  | smbusStageResult => exact h.execSmbusStageResult
  | smbusOtherCommand => exact h.execSmbusOtherCommand
  | channelRetrainComplete => exact h.execChannelRetrainComplete
  | reservoirWriteBurstComplete => exact h.execReservoirWriteBurstComplete
  | pcieRefclkReturn => exact h.execPcieRefclkReturn
  | spotTestWaitMsExpiry => exact h.execSpotTestWaitMsExpiry

/-- What the link layer sends of itself, after time has gone on. -/
theorem Inv.idle (h : Inv s) : Inv (sendIdle (tick s)) := h.tick.sendIdle

protected theorem Inv.step (h : Inv s) : KeepsInv (step s) := by
  unfold step
  split
  · exact Inv.exec h.frame
  · exact h.idle.next

/-- Settles O60: each command keeps the invariant, and so does the passing of time. -/
theorem stepsKeepTheInvariant : Obligations.StepsKeepTheInvariant := by
  unfold Obligations.StepsKeepTheInvariant
  exact fun _ h => h.step

/-- Settles O1: it is how a step is defined. -/
theorem stepRunsFrontCommand : Obligations.StepRunsFrontCommand := by
  unfold Obligations.StepRunsFrontCommand
  exact fun _ _ _ => rfl

end Sys2Proof.Machine
end

section
/-! PROOFS. A fetched word that its opcode or the group's registers do not allow (O10). -/

namespace Sys2Proof.Machine

/-! ### Words that issue refuses (R106, R107) -/

section
variable {s : State} {p g op : Nat} {w : InstrBits} {f : Form} {c : Ctx} {run : Ctx → State → State}

/-- Fields that the opcode does not allow fault before anything else is looked at. -/
theorem issue_invalid (hready : readyGroup s p g w = some c)
    (hword : fetchedWord (recEntry c.sl.words) c.path.pc c.gr = some (op * 2 ^ 56 + w.toNat)) (hop : opcodes.contains op = true)
    (hf : f.valid = false) : issue p g op w f run s = faultAt s c Code.instructionInvalid 0 := by
  unfold issue
  rw [hready]
  dsimp only
  rw [hword]
  dsimp only
  rw [opcode_of_word, hop, hf]
  simp

/-- A register at or above REGS faults once the fields are allowed. -/
theorem issue_outOfRange (hready : readyGroup s p g w = some c)
    (hword : fetchedWord (recEntry c.sl.words) c.path.pc c.gr = some (op * 2 ^ 56 + w.toNat)) (hop : opcodes.contains op = true)
    (hf : f.valid = true) (hregs : (f.reads ++ f.writes).all (runOk c.gr) = false) :
    issue p g op w f run s = faultAt s c Code.registerRange 0 := by
  unfold issue
  rw [hready]
  dsimp only
  rw [hword]
  dsimp only
  rw [opcode_of_word, hop, hf, hregs]
  simp

end

/-! ### The lane instructions issue their words -/

/-- The command of a row issues the row's opcode with the row's fields. -/
def RowIssues (row : LaneRow) : Prop :=
  opcodes.contains row.op = true ∧
    ∀ p g w, ∃ run : Ctx → State → State, ∀ s, exec (row.instr p g w) s = .next (issue p g row.op w (row.form w) run s)

theorem rowIssues_intRows : ∀ row ∈ intRows, RowIssues row := by
  simp only [intRows, List.forall_mem_cons]
  refine ⟨?_, ?_, ?_, ?_, ?_, ?_, ?_, ?_, ?_, ?_, ?_, ?_, ?_, ?_, ?_, List.forall_mem_nil _⟩ <;> exact ⟨by decide, fun _ _ _ => ⟨_, fun _ => rfl⟩⟩

theorem rowIssues_immRows : ∀ row ∈ immRows, RowIssues row := by
  simp only [immRows, List.forall_mem_cons]
  refine ⟨?_, ?_, ?_, ?_, ?_, ?_, ?_, ?_, ?_, ?_, ?_, List.forall_mem_nil _⟩ <;> exact ⟨by decide, fun _ _ _ => ⟨_, fun _ => rfl⟩⟩

theorem rowIssues_floatRows : ∀ row ∈ floatRows, RowIssues row := by
  simp only [floatRows, List.forall_mem_cons]
  refine ⟨?_, ?_, ?_, ?_, List.forall_mem_nil _⟩ <;> exact ⟨by decide, fun _ _ _ => ⟨_, fun _ => rfl⟩⟩

theorem rowIssues_floatImmRows : ∀ row ∈ floatImmRows, RowIssues row := by
  simp only [floatImmRows, List.forall_mem_cons]
  refine ⟨?_, ?_, ?_, ?_, List.forall_mem_nil _⟩ <;> exact ⟨by decide, fun _ _ _ => ⟨_, fun _ => rfl⟩⟩

theorem rowIssues_sfuRows : ∀ row ∈ sfuRows, RowIssues row := by
  simp only [sfuRows, List.forall_mem_cons]
  refine ⟨?_, ?_, ?_, ?_, List.forall_mem_nil _⟩ <;> exact ⟨by decide, fun _ _ _ => ⟨_, fun _ => rfl⟩⟩

theorem rowIssues_laneRows : ∀ row ∈ intRows ++ immRows ++ floatRows ++ floatImmRows ++ sfuRows, RowIssues row := by
  simp only [List.forall_mem_append]
  exact ⟨⟨⟨⟨rowIssues_intRows, rowIssues_immRows⟩, rowIssues_floatRows⟩, rowIssues_floatImmRows⟩, rowIssues_sfuRows⟩

/-- Settles O10: both faults stand before the instruction is run, so they are those of the issue itself, whatever the row. -/
theorem wordsThatFault : Obligations.WordsThatFault := by
  unfold Obligations.WordsThatFault
  intro row hrow s p g w c hready hword
  obtain ⟨hop, hexec⟩ := rowIssues_laneRows row hrow
  obtain ⟨run, hrun⟩ := hexec p g w
  constructor
  · intro hvalid
    exact ⟨_, hrun s, by rw [issue_invalid hready hword hop hvalid]; exact faultAt_faulted hready _ _⟩
  · intro hvalid hregs
    exact ⟨_, hrun s, by rw [issue_outOfRange hready hword hop hvalid hregs]; exact faultAt_faulted hready _ _⟩

end Sys2Proof.Machine
end

section
/-! PROOFS. NOP and the special registers (O11). -/

namespace Sys2Proof.Machine

/-- An instruction that only goes on writes nothing. -/
theorem finishAt_wentOn (s : State) (c : Ctx) : WentOn s (finishAt c c.gr s) c := by
  obtain ⟨gr, hgroup, hgpr, hpreds, hrest, hadv, hquiet, hframe⟩ := finishAt_spec s c c.gr rfl rfl rfl
  refine ⟨gr, hgroup, fun k l _ => ?_, fun k l => getPred_congr hpreds k l, hrest, hadv, hquiet, hframe⟩
  rw [if_neg fun h => h.2.1 rfl]
  exact getReg_congr hgpr k l

/-- The registers as the table of R128 gives them, and the low halves of the two counters. -/
theorem sregValue_eq (s : State) (c : Ctx) (l : Nat) (hn : fSreg c.w ∈ sregs) :
    sregValue s c l = if fSreg c.w = 0x10 then s.time.tb % 2 ^ 32 else if fSreg c.w = 0x12 then s.time.cycle % 2 ^ 32
      else specialRegister s c (fSreg c.w) l := by
  have hrange : fSreg c.w < 0x14 ∨ (0x20 ≤ fSreg c.w ∧ fSreg c.w < 0x34) ∨ (0x40 ≤ fSreg c.w ∧ fSreg c.w < 0x50) := by
    simp only [sregs, List.mem_append, List.mem_map, List.mem_range] at hn
    rcases hn with (hn | ⟨i, hi, hn⟩) | ⟨i, hi, hn⟩ <;> omega
  unfold sregValue specialRegister
  generalize fSreg c.w = n at *
  rcases hrange with hlow | ⟨hge, hlt⟩ | ⟨hge, hlt⟩ <;> interval_cases n <;> rfl

/-- A value noted for each of some lanes. -/
theorem mapGet_foldl_mapSet (ls : List Nat) (v : Nat) (m : Sparse Nat) (l : Nat) :
    mapGet 0 (ls.foldl (fun m l => mapSet 0 m l v) m) l = if l ∈ ls then v else mapGet 0 m l := by
  induction ls generalizing m with
  | nil => simp
  | cons k ls ih =>
    rw [List.foldl_cons, ih, mapGet_mapSet]
    by_cases hk : l = k <;> by_cases hl : l ∈ ls <;> simp [hk, hl]

section
variable {s : State} {p g : Nat} {w : InstrBits} {c : Ctx}

/-- What SRD does where nothing stops it: the capture, and the value of the register in DST. -/
theorem exec_srd (h : Issues s p g 0x88 w (srdForm w) c) :
    exec (.srd p g w) s = .next (finishAt c (sregCapture s c (writeLanes c (fDst w) (sregValue s c))) s) := by
  obtain ⟨-, -, hw, -, -⟩ := readyGroup_spec h.1
  have hrun := issue_runs (fun c st => finishAt c (sregCapture st c (writeLanes c (fDst c.w) (sregValue st c))) st) h (by decide)
  rw [hw] at hrun
  exact congrArg Host.Outcome.next hrun

theorem sreg_of_issues (h : Issues s p g 0x88 w (srdForm w) c) : fSreg w ∈ sregs := by
  have hvalid : (srdForm w).valid = true := h.2.2.1
  simp only [srdForm, Bool.and_eq_true, List.contains_iff_mem] at hvalid
  exact hvalid.2

theorem srd_reads (h : Issues s p g 0x88 w (srdForm w) c) (htb : fSreg w ≠ 0x10) (hcyc : fSreg w ≠ 0x12) :
    ∃ t, exec (.srd p g w) s = .next t ∧ WroteReg s t c (fDst w) (fun l => BitVec.ofNat 32 (specialRegister s c (fSreg w) l)) := by
  refine ⟨_, exec_srd h, ?_⟩
  have hn := sreg_of_issues h
  obtain ⟨-, -, rfl, -, -⟩ := readyGroup_spec h.1
  unfold sregCapture
  dsimp only
  rw [if_neg htb, if_neg hcyc]
  refine runReg_wrote (fun c => sregValue s c) _ c s fun l _ => ?_
  rw [sregValue_eq s c l hn, if_neg htb, if_neg hcyc, BitVec.toNat_ofNat]

/-- The capture of the timebase or of the cycle count changes nothing else of the group. -/
theorem sregCapture_spec (s : State) (c : Ctx) (gr : Group) :
    (sregCapture s c gr).gpr = gr.gpr ∧ (sregCapture s c gr).preds = gr.preds ∧ (sregCapture s c gr).slot = gr.slot ∧
      (sregCapture s c gr).paths = gr.paths ∧ (sregCapture s c gr).splits = gr.splits ∧
      (∀ l, mapGet 0 (sregCapture s c gr).tbTimebase l =
        if fSreg c.w = 0x10 ∧ l ∈ lanesOf c.ex then s.time.tb else mapGet 0 gr.tbTimebase l) ∧
      (∀ l, mapGet 0 (sregCapture s c gr).tbCycle l =
        if fSreg c.w = 0x12 ∧ l ∈ lanesOf c.ex then s.time.cycle else mapGet 0 gr.tbCycle l) := by
  unfold sregCapture stamp
  dsimp only
  split
  next h => exact ⟨rfl, rfl, rfl, rfl, rfl, fun l => by simp [h, mapGet_foldl_mapSet], fun l => by simp [h]⟩
  next h =>
    split
    next h => exact ⟨rfl, rfl, rfl, rfl, rfl, fun l => by simp [h], fun l => by simp [h, mapGet_foldl_mapSet]⟩
    next h' => exact ⟨rfl, rfl, rfl, rfl, rfl, fun l => by simp [h], fun l => by simp [h']⟩

theorem srd_captures (h : Issues s p g 0x88 w (srdForm w) c) (hn : fSreg w = 0x10 ∨ fSreg w = 0x12) :
    ∃ t gr, exec (.srd p g w) s = .next t ∧ getGroup t p g = some gr ∧
      (∀ k l, l < 32 → getReg gr k l = if k = fDst w ∧ k ≠ 255 ∧ c.ex.getLsbD l = true
        then (if fSreg w = 0x10 then s.time.tb else s.time.cycle) % 2 ^ 32 else getReg c.gr k l) ∧
      (∀ l, l < 32 → mapGet 0 gr.tbTimebase l = if fSreg w = 0x10 ∧ c.ex.getLsbD l = true then s.time.tb else mapGet 0 c.gr.tbTimebase l) ∧
      (∀ l, l < 32 → mapGet 0 gr.tbCycle l = if fSreg w = 0x12 ∧ c.ex.getLsbD l = true then s.time.cycle else mapGet 0 c.gr.tbCycle l) ∧
      gr.preds = c.gr.preds ∧ Advanced c gr ∧ CoreFrame s t p g c.gr.slot := by
  have hexec := exec_srd h
  have hsreg := sreg_of_issues h
  have hvalue : ∀ l, sregValue s c l = (if fSreg w = 0x10 then s.time.tb else s.time.cycle) % 2 ^ 32 := fun l => by
    obtain ⟨-, -, rfl, -, -⟩ := readyGroup_spec h.1
    rw [sregValue_eq s c l hsreg]
    rcases hn with hn | hn <;> rw [hn] <;> rfl
  obtain ⟨rfl, rfl, rfl, -, -⟩ := readyGroup_spec h.1
  obtain ⟨wrest, wpreds, wpaths, wsplits, -⟩ := writeLanes_rest c (fDst c.w) (sregValue s c)
  obtain ⟨cgpr, cpreds, cslot, cpaths, csplits, ctb, ccyc⟩ := sregCapture_spec s c (writeLanes c (fDst c.w) (sregValue s c))
  obtain ⟨gr, hgroup, hgpr, hpreds, hrest, hadv, -, hframe⟩ := finishAt_spec s c _ (cslot.trans (rest_slot wrest)) (cpaths.trans wpaths)
    (csplits.trans wsplits)
  refine ⟨_, gr, hexec, hgroup, fun k l hl => ?_, fun l hl => ?_, fun l hl => ?_, hpreds.trans (cpreds.trans wpreds), hadv, hframe⟩
  · rw [getReg_congr (hgpr.trans cgpr), getReg_writeLanes _ _ _ _ _ hl, hvalue, Nat.mod_mod]
    refine if_congr (and_congr_right fun hk => ?_) rfl rfl
    rw [hk]
  · have htb : gr.tbTimebase = (sregCapture s c (writeLanes c (fDst c.w) (sregValue s c))).tbTimebase := (congrArg Group.tbTimebase hrest : _)
    rw [htb]
    refine (ctb l).trans (if_congr (and_congr_right fun _ => ?_) rfl (congrArg (fun x : Group => mapGet 0 x.tbTimebase l) wrest : _))
    rw [mem_lanesOf]
    exact and_iff_right hl
  · have hcyc : gr.tbCycle = (sregCapture s c (writeLanes c (fDst c.w) (sregValue s c))).tbCycle := (congrArg Group.tbCycle hrest : _)
    rw [hcyc]
    refine (ccyc l).trans (if_congr (and_congr_right fun _ => ?_) rfl (congrArg (fun x : Group => mapGet 0 x.tbCycle l) wrest : _))
    rw [mem_lanesOf]
    exact and_iff_right hl

end

/-- Settles O11: NOP only goes on; SRD writes the value of R128's table, and where it reads a counter also keeps the whole of it. -/
theorem nopAndSpecialRegisters : Obligations.NopAndSpecialRegisters := by
  unfold Obligations.NopAndSpecialRegisters
  intro s p g w c
  refine ⟨fun h => ?_, srd_reads, srd_captures⟩
  exact ⟨_, congrArg Host.Outcome.next (issue_runs (fun c st => finishAt c c.gr st) h (by decide)), finishAt_wentOn s c⟩

end Sys2Proof.Machine
end

section
/-! PROOFS. BAR, TBAR and EXIT (O15). -/

namespace Sys2Proof.Machine

/-! ### Masks of lists of lanes -/

theorem ofNat_add_two_pow {w m i : Nat} (hm : bit m i = false) :
    BitVec.ofNat w (m + 2 ^ i) = BitVec.ofNat w m ||| BitVec.twoPow w i := by
  have hpow : BitVec.ofNat w (2 ^ i) = BitVec.twoPow w i := BitVec.eq_of_toNat_eq (by rw [BitVec.toNat_ofNat, BitVec.toNat_twoPow])
  have hfree : BitVec.ofNat w m &&& BitVec.twoPow w i = 0#w := by
    rw [BitVec.and_twoPow, if_neg]
    rw [BitVec.getLsbD_ofNat, ← bit_eq_testBit, hm]
    simp
  rw [BitVec.ofNat_add, hpow, BitVec.add_eq_or_of_and_eq_zero _ _ hfree]

/-- The mask of a list of lanes holds those lanes. -/
theorem getLsbD_foldl_mask (ls : List Nat) (hls : ∀ l ∈ ls, l < 32) (m j : Nat) :
    (BitVec.ofNat 32 (ls.foldl (fun m i => if bit m i then m else m + 2 ^ i) m)).getLsbD j =
      ((BitVec.ofNat 32 m).getLsbD j || decide (j ∈ ls)) := by
  induction ls generalizing m with
  | nil => simp
  | cons i ls ih =>
    rw [List.foldl_cons, ih fun l hl => hls l (List.mem_cons_of_mem _ hl)]
    have hi := hls i List.mem_cons_self
    by_cases hm : bit m i = true
    · rw [if_pos hm]
      by_cases h : j = i
      · have hj' : (BitVec.ofNat 32 m).getLsbD j = true := by
          rw [BitVec.getLsbD_ofNat, h, ← bit_eq_testBit, hm]
          simpa using hi
        simp [hj']
      · simp [h]
    · rw [if_neg hm, ofNat_add_two_pow (by simpa using hm), BitVec.getLsbD_or, BitVec.getLsbD_twoPow]
      by_cases h : j = i
      · simp [h, hi]
      · simp [h, Ne.symm h]

theorem mask_lanesOf (m : LaneMask) : BitVec.ofNat 32 (maskOf (lanesOf m)) = m := by
  refine BitVec.eq_of_getLsbD_eq fun j hj => ?_
  unfold maskOf
  rw [getLsbD_foldl_mask _ (fun l hl => ((mem_lanesOf m l).mp hl).1) 0 j]
  simp [mem_lanesOf, hj]

/-! ### A group whose paths wait for what cannot come (R86) -/

section
variable {gr : Group} {st : PathState}

/-- A group is not all at a barrier where its lanes are not those that have arrived there. -/
theorem not_allAt {st' : PathState} (hlive : gr.live ≠ 0#32) (hpaths : ∀ q ∈ gr.paths, q.st = st ∨ q.st = .joined) (hj : st' ≠ .joined)
    (hpart : parkedAt gr st ≠ gr.live) : allAt gr st' = false := by
  unfold allAt
  rw [Bool.and_eq_false_iff, beq_eq_false_iff_ne]
  refine .inr ?_
  by_cases hst : st' = st
  · rw [hst]
    exact hpart
  · have hnone : gr.paths.filter (fun q => q.st == st') = [] := by
      rw [List.filter_eq_nil_iff]
      intro q hq he
      rcases hpaths q hq with h | h
      · exact hst ((beq_iff_eq.mp he).symm.trans h)
      · exact hj ((beq_iff_eq.mp he).symm.trans h)
    unfold parkedAt
    rw [hnone]
    exact hlive.symm

theorem orphaned_of_parked (hlive : gr.live ≠ 0#32) (hpaths : ∀ q ∈ gr.paths, q.st = st ∨ q.st = .joined) (hst : st ≠ .runnable)
    (hpart : parkedAt gr st ≠ gr.live) : orphaned gr = true := by
  unfold orphaned
  simp only [Bool.and_eq_true, Bool.not_eq_true', bne_iff_ne, List.all_eq_true]
  refine ⟨⟨⟨hlive, fun q hq => ?_⟩, not_allAt hlive hpaths nofun hpart⟩, fun b _ => not_allAt hlive hpaths nofun hpart⟩
  rcases hpaths q hq with h | h
  · rwa [h]
  · rw [h]
    nofun

/-- Putting back a group that is an orphan once its paths are settled faults its task, and the first fault gives the code (R66, R87). -/
theorem putGroup_orphan {s : State} {p g : Nat} {sl : Slot} (hsl : getSlot s gr.slot = some sl) (hbar : allAt (settleGroup gr) .taskBarrier = false)
    (horphan : orphaned (settleGroup gr) = true) (hended : gr.ended = false) :
    (getSlot (putGroup s p g gr) gr.slot).map (·.ending) = some (some (sl.ending.getD { code := Code.barrierOrphan, replay := none })) := by
  obtain ⟨qs, xs, hset⟩ := settleGroup_rest gr
  have hslot : (settleGroup gr).slot = gr.slot := by rw [hset]
  have hended' : (settleGroup gr).ended = false := by rw [hset]; exact hended
  unfold putGroup
  dsimp only
  rw [if_neg (by rw [hbar]; nofun), if_pos (by rw [horphan, hended']; rfl), hslot, getSlot_faultTask, if_pos rfl, getSlot_setGroup, hsl]
  rfl

end

/-! ### Arriving at a barrier (R85) -/

/-- The executing lanes are lanes of the path, and a group that issues has not been ended. -/
theorem readyGroup_live {s : State} {p g : Nat} {w : InstrBits} {c : Ctx} (h : readyGroup s p g w = some c) :
    c.ex &&& c.path.lanes = c.ex ∧ c.gr.ended = false := by
  unfold readyGroup at h
  split at h
  next gr _ _ =>
    split at h
    next q sl _ _ =>
      split at h
      · cases h
      next hgo =>
        obtain rfl := Option.some.inj h
        refine ⟨?_, ?_⟩
        · show q.lanes &&& _ &&& q.lanes = _
          rw [BitVec.and_comm, ← BitVec.and_assoc, BitVec.and_self]
        · simp only [Bool.or_eq_true, not_or, Bool.not_eq_true] at hgo
          exact hgo.1.1
    next => cases h
  next => cases h

/-- The path split in two at its next instruction: the lanes that arrive, and those that do not. -/
structure Halved (c : Ctx) (st : PathState) (gr : Group) : Prop where
  paths : ∃ q r : Path, (gr.paths = [q, r] ∨ gr.paths = [r, q]) ∧ q.lanes = c.ex ∧ q.st = st ∧ r.lanes = c.path.lanes &&& ~~~c.ex ∧
    r.st = .runnable ∧ r.pc = pcPlus c.path.pc 1 ∧ q.split = c.gr.nextSplit ∧ r.split = c.gr.nextSplit
  splits : ∃ x : Split, gr.splits = [x] ∧ x.id = c.gr.nextSplit ∧ x.reconv = pcPlus c.path.pc 1
  live : gr.live = c.gr.live
  slot : gr.slot = c.gr.slot
  ended : gr.ended = c.gr.ended

section
variable {s : State} {c : Ctx} {st : PathState} {gr : Group}

/-- The path splits where an entry is free. -/
theorem splitPath_two (h : stackUsed c.gr + 1 ≤ 32) {a b : List Nat} {n : Nat} :
    splitPath c.gr c.path [(n, a), (n, b)] n = some { swapPath c.gr c.path
        [{ pc := n, lanes := BitVec.ofNat 32 (maskOf b), split := c.gr.nextSplit, rank := c.gr.nextRank, st := .runnable },
         { pc := n, lanes := BitVec.ofNat 32 (maskOf a), split := c.gr.nextSplit, rank := c.gr.nextRank + 1, st := .runnable }] with
      splits := c.gr.splits ++ [{ id := c.gr.nextSplit, reconv := n, outer := c.path.split, rank := c.path.rank, entries := 1 }],
      nextSplit := c.gr.nextSplit + 1, nextRank := c.gr.nextRank + 2 } := by
  unfold splitPath
  rw [if_neg (by simpa using h)]
  rfl

theorem and_not_ne {a b : LaneMask} (hb : b ≠ 0#32) : a &&& ~~~b ≠ b := by
  intro h
  refine hb (BitVec.eq_of_getLsbD_eq fun j hj => ?_)
  have hj' := congrArg (fun x : LaneMask => x.getLsbD j) h
  simp only [BitVec.getLsbD_and, BitVec.getLsbD_not, hj, decide_true, Bool.true_and] at hj'
  cases hbj : b.getLsbD j <;> simp [hbj] at hj' ⊢

theorem and_not_eq_zero {a b : LaneMask} (h : a &&& ~~~b = 0#32) (hsub : b &&& a = b) : b = a := by
  refine BitVec.eq_of_getLsbD_eq fun j hj => ?_
  have hj' := congrArg (fun x : LaneMask => x.getLsbD j) h
  have hs := congrArg (fun x : LaneMask => x.getLsbD j) hsub
  simp only [BitVec.getLsbD_and, BitVec.getLsbD_not, hj, decide_true, Bool.true_and, BitVec.getLsbD_zero] at hj' hs
  cases haj : a.getLsbD j <;> cases hbj : b.getLsbD j <;> simp [haj, hbj] at hj' hs ⊢

/-- What a path that arrives with only some of its lanes does: it splits, and the lanes that arrive wait. -/
theorem parkAt_halves (hex : c.ex ≠ 0#32) (hpart : c.ex ≠ c.path.lanes) (hroom : stackUsed c.gr + 1 ≤ 32)
    (hsplits : c.gr.splits = []) (hpaths : c.gr.paths = [c.path]) :
    ∃ gr, parkAt st c s = putGroup s c.p c.g gr ∧ Halved c st gr := by
  have hdisj : c.path.lanes &&& ~~~c.ex ≠ c.ex := and_not_ne hex
  unfold parkAt
  dsimp only
  rw [if_neg hex, if_neg hpart]
  by_cases hord : (lanesOf c.ex).headD 0 < (lanesOf (c.path.lanes &&& ~~~c.ex)).headD 0
  · rw [if_pos hord, splitPath_two hroom]
    refine ⟨_, rfl, ?_, ?_, rfl, rfl, rfl⟩
    · simp only [swapPath, hpaths, mask_lanesOf, List.map_append, List.map_cons, List.map_nil, hdisj, false_and, true_and, if_false, if_true]
      exact ⟨_, _, .inr (by simp; exact ⟨rfl, rfl⟩), rfl, rfl, rfl, rfl, rfl, rfl, rfl⟩
    · rw [hsplits]
      exact ⟨_, rfl, rfl, rfl⟩
  · rw [if_neg hord, splitPath_two hroom]
    refine ⟨_, rfl, ?_, ?_, rfl, rfl, rfl⟩
    · simp only [swapPath, hpaths, mask_lanesOf, List.map_append, List.map_cons, List.map_nil, hdisj, false_and, true_and, if_false, if_true]
      exact ⟨_, _, .inl (by simp; exact ⟨rfl, rfl⟩), rfl, rfl, rfl, rfl, rfl, rfl, rfl⟩
    · rw [hsplits]
      exact ⟨_, rfl, rfl, rfl⟩

/-- Settled, the lanes that do not arrive wait at the reconvergence point for those that do, which wait at the barrier. -/
theorem Halved.settled (h : Halved c st gr) (hex : c.ex ≠ 0#32) (hpart : c.ex ≠ c.path.lanes) (hsub : c.ex &&& c.path.lanes = c.ex)
    (hst : st ≠ .runnable) (hj : st ≠ .joined) :
    (∀ q ∈ (settleGroup gr).paths, q.st = st ∨ q.st = .joined) ∧ parkedAt (settleGroup gr) st = c.ex := by
  obtain ⟨⟨q, r, hpaths, hqlanes, hqst, hrlanes, hrst, hrpc, hqsplit, hrsplit⟩, ⟨x, hsplits, hid, hreconv⟩, -, -, -⟩ := h
  have hrest : c.path.lanes &&& ~~~c.ex ≠ 0#32 := fun h0 => hpart (and_not_eq_zero h0 hsub)
  have hwait : reconvOf gr r = some r.pc := by
    unfold reconvOf
    rw [hsplits, List.find?_cons_of_pos (by rw [hid, hrsplit, beq_self_eq_true]), Option.map_some, hreconv, hrpc]
  have hq : (if (q.st == .runnable && reconvOf gr q == some q.pc) = true then { q with st := .joined } else q) = q :=
    if_neg (by rw [hqst, beq_false_of_ne hst]; nofun)
  have hr : (if (r.st == .runnable && reconvOf gr r == some r.pc) = true then { r with st := .joined } else r) = { r with st := .joined } :=
    if_pos (by rw [hrst, hwait]; simp)
  have hqkept : (q.lanes != 0#32) = true := by rw [hqlanes]; exact bne_iff_ne.mpr hex
  have hrkept : (r.lanes != 0#32) = true := by rw [hrlanes]; exact bne_iff_ne.mpr hrest
  have hjoin : (joinPaths gr).paths = [q, { r with st := .joined }] ∨ (joinPaths gr).paths = [{ r with st := .joined }, q] := by
    unfold joinPaths
    rcases hpaths with h | h
    · exact .inl (by simp only [h, List.filter_cons, hqkept, hrkept, if_true, List.filter_nil, List.map_cons, List.map_nil, hq, hr])
    · exact .inr (by simp only [h, List.filter_cons, hqkept, hrkept, if_true, List.filter_nil, List.map_cons, List.map_nil, hq, hr])
  have hmem : q ∈ (joinPaths gr).paths := by rcases hjoin with h | h <;> rw [h] <;> simp
  have hopen : splitDone (joinPaths gr) x = false := by
    unfold splitDone
    rw [Bool.and_eq_false_iff, List.all_eq_false]
    refine .inl ⟨q, List.mem_filter.mpr ⟨hmem, by rw [hid, hqsplit, beq_self_eq_true]⟩, ?_⟩
    rw [hqst, beq_false_of_ne hj]
    nofun
  have hsettle : settleGroup gr = joinPaths gr := by
    unfold settleGroup
    rw [hsplits]
    unfold settlePaths
    show (match (joinPaths gr).splits.find? (splitDone (joinPaths gr)) with | none => _ | some x => _) = _
    rw [show (joinPaths gr).splits = [x] from hsplits, List.find?_cons_of_neg (by rw [hopen]; nofun)]
    rfl
  rw [hsettle]
  constructor
  · intro k hk
    rcases hjoin with h | h <;> rw [h] at hk <;> simp only [List.mem_cons, List.not_mem_nil, or_false] at hk <;> rcases hk with rfl | rfl
    · exact .inl hqst
    · exact .inr rfl
    · exact .inr rfl
    · exact .inl hqst
  · have hrout : (PathState.joined == st) = false := beq_false_of_ne hj.symm
    unfold parkedAt
    rcases hjoin with h | h <;> rw [h] <;> simp [hqst, hqlanes, hrout]

theorem splitPath_full (h : stackUsed c.gr + 1 > 32) {a b : Nat × List Nat} {n : Nat} : splitPath c.gr c.path [a, b] n = none :=
  if_pos h

theorem parkAt_overflows (hex : c.ex ≠ 0#32) (hpart : c.ex ≠ c.path.lanes) (hfull : stackUsed c.gr + 1 > 32) :
    parkAt st c s = faultAt s c Code.divergenceOverflow 0 := by
  unfold parkAt
  dsimp only
  rw [if_neg hex, if_neg hpart]
  split_ifs <;> rw [splitPath_full hfull]

/-- Arriving at a barrier (R85). -/
theorem parkAt_arrives {p g : Nat} {w : InstrBits} (h : readyGroup s p g w = some c) (hst : st ≠ .runnable) (hj : st ≠ .joined) :
    ArrivesAt s (parkAt st c s) c st := by
  obtain ⟨-, -, -, -, hsl⟩ := readyGroup_spec h
  obtain ⟨hsub, hended⟩ := readyGroup_live h
  refine ⟨fun hex => ?_, fun hex hall => ?_, fun hex hpart => ⟨fun hfull => ?_, fun hroom hsplits hpaths hlive => ?_⟩⟩
  · unfold parkAt
    dsimp only
    rw [if_pos hex]
    exact finishAt_wentOn s c
  · unfold parkAt
    dsimp only
    rw [if_neg hex, if_pos hall]
    exact putGroup_spec s c.p c.g _
  · rw [parkAt_overflows hex hpart hfull]
    exact faultAt_faulted h _ _
  · obtain ⟨gr, hpark, hhalved⟩ := parkAt_halves (s := s) (st := st) hex hpart hroom hsplits hpaths
    obtain ⟨hwait, hparked⟩ := hhalved.settled hex hpart hsub hst hj
    obtain ⟨qs, xs, hset⟩ := settleGroup_rest gr
    have hslive : (settleGroup gr).live = c.path.lanes := by rw [hset]; exact hhalved.live.trans hlive
    have hnonzero : (settleGroup gr).live ≠ 0#32 := by
      rw [hslive]
      intro h0
      rw [h0, BitVec.and_zero] at hsub
      exact hex hsub.symm
    have hsome : parkedAt (settleGroup gr) st ≠ (settleGroup gr).live := by rw [hparked, hslive]; exact hpart
    obtain ⟨_, _, _, _, hframe⟩ := putGroup_spec s c.p c.g gr
    rw [hpark, ← hhalved.slot]
    exact ⟨putGroup_orphan (hhalved.slot ▸ hsl) (not_allAt hnonzero hwait nofun hsome) (orphaned_of_parked hnonzero hwait hst hsome)
      (hhalved.ended.trans hended), hframe⟩

end

/-- Settles O15: the statement's cases are the branches of arriving at a barrier; the path that arrives with only some of its lanes
leaves an orphan, as its other lanes wait where it would have joined them. -/
theorem barriersAndExit : Obligations.BarriersAndExit := by
  unfold Obligations.BarriersAndExit
  intro s p g w c
  refine ⟨fun h => ?_, fun h => ?_, fun h => ?_⟩
  · obtain ⟨rfl, rfl, rfl, -, -⟩ := readyGroup_spec h.1
    exact ⟨_, congrArg Host.Outcome.next (issue_runs (fun c st => parkAt (.barrier (fImm8 c.w)) c st) h (by decide)),
      parkAt_arrives h.1 nofun nofun⟩
  · refine ⟨_, congrArg Host.Outcome.next (issue_runs (fun c st =>
      if c.ex != 0#32 && !(recCosched c.sl.words) then faultAt st c Code.coschedRequired 0 else parkAt .taskBarrier c st) h (by decide)),
      fun hex hco => ?_, fun hgo => ?_⟩
    · rw [if_pos (by rw [hco, bne_iff_ne.mpr hex]; rfl)]
      exact faultAt_faulted h.1 _ _
    · rw [if_neg (by rcases hgo with h0 | hco <;> simp [*])]
      exact parkAt_arrives h.1 nofun nofun
  · have hrun := issue_runs (fun c st =>
      let gr := nextPc c c.gr
      putGroup st c.p c.g { gr with live := gr.live &&& ~~~c.ex, paths := gr.paths.map (fun q => { q with lanes := q.lanes &&& ~~~c.ex }) })
      h (by decide)
    obtain ⟨rfl, rfl, rfl, -, -⟩ := readyGroup_spec h.1
    exact ⟨_, congrArg Host.Outcome.next hrun, putGroup_spec s c.p c.g _⟩

end Sys2Proof.Machine
end

section
/-! PROOFS. SPAWN and PUB (O21). -/

namespace Sys2Proof.Machine

section
variable {s : State} {p g : Nat} {w : InstrBits} {c : Ctx}

/-! ### SPAWN (R58) -/

/-- Where nothing holds the Fountain, an executing SPAWN looks at the offset and then at the allocation. -/
theorem exec_spawn (h : Issues s p g 0x83 w (spawnForm w) c) (hex : c.ex ≠ 0#32) (hheld : fountainHeld s = false) :
    let off := getReg c.gr (fSrcA c.w) (issuer c)
    exec (.spawn p g w) s = .next (
      if off % 8 ≠ 0 then faultAt s c Code.misalignedAccess (aliasStaging + off)
      else if c.gr.staging * 256 < off + 256 then faultAt s c Code.stagingRange (aliasStaging + off)
      else spawnTo c (getReg c.gr (fSrcB c.w) (issuer c)) (stgBytes c.gr.stg off 256) s) := by
  have hrun := issue_runs (fun c st =>
      if c.ex = 0#32 then finishAt c c.gr st
      else if fountainHeld st then st
      else
        let off := laneA c (issuer c)
        if off % 8 ≠ 0 then faultAt st c Code.misalignedAccess (aliasStaging + off)
        else if c.gr.staging * 256 < off + 256 then faultAt st c Code.stagingRange (aliasStaging + off)
        else spawnTo c (laneB c (issuer c)) (stgBytes c.gr.stg off 256) st) h (by decide)
  rw [if_neg hex, hheld] at hrun
  exact congrArg Host.Outcome.next hrun

/-- A result in DST of the executing lanes, whatever state the record has left. -/
theorem spawn_wrote (s : State) (c : Ctx) (x : Nat) :
    WroteReg s (finishAt c (writeLanes c (fDst c.w) (fun _ => x)) s) c (fDst c.w) (fun _ => BitVec.ofNat 32 x) :=
  runReg_wrote (fun _ _ => x) (fun _ => BitVec.ofNat 32 x) c s fun _ _ => (BitVec.toNat_ofNat x 32).symm

theorem spawnTo_own {bs : List Byte} : spawnTo c s.pool.device bs s =
    finishAt c (writeLanes c (fDst c.w) (fun _ => (takeSpawn s (wordsOf 32 bs) false).1)) (takeSpawn s (wordsOf 32 bs) false).2 :=
  if_pos rfl

theorem spawnTo_noMember {dev : Nat} {bs : List Byte} (hdev : dev ≠ s.pool.device)
    (hnone : s.pool.st = .broken ∨ 64 ≤ dev ∨ isMember s dev = false) :
    spawnTo c dev bs s = finishAt c (writeLanes c (fDst c.w) (fun _ => 2 ^ 31 + dev % 64 * 2 ^ 16)) s := by
  unfold spawnTo
  dsimp only
  rw [if_neg hdev, if_neg]
  rintro ⟨hbroken, hlt, hmember⟩
  rcases hnone with h | h | h
  · exact hbroken h
  · omega
  · rw [hmember] at h
    cases h

theorem takeSpawn_refused {ws : List Word64} (h : recordFails ws = true ∨ freeSpawnSlot s = none) (posted : Bool) :
    (takeSpawn s ws posted).1 = 2 ^ 31 + s.pool.device * 2 ^ 16 := by
  unfold takeSpawn
  split
  · rfl
  · next hok =>
    rw [h.resolve_left hok]
    rfl

theorem takeSpawn_taken {ws : List Word64} (hok : recordFails ws = false) {n : Nat} (hn : freeSpawnSlot s = some n) (posted : Bool) :
    takeSpawn s ws posted = (s.pool.device * 2 ^ 16 + n, enterRecord s n ws true posted) := by
  unfold takeSpawn
  rw [hok, hn]
  rfl

/-! ### PUB (R59, R93) -/

theorem exec_pub (h : Issues s p g 0x84 w (pubForm w) c) (hex : c.ex ≠ 0#32) (hpubs : c.gr.pubs = []) :
    exec (.pub p g w) s = .next (runPubs (finishAt c { c.gr with
      pubs := [{ value := laneA c (issuer c), ids := (unaccepted c.gr).map (·.id) }] } s) c.p c.g) := by
  have hrun := issue_runs (fun c st =>
      if c.ex = 0#32 then finishAt c c.gr st
      else
        let u : Publish := { value := laneA c (issuer c), ids := (unaccepted c.gr).map (·.id) }
        runPubs (finishAt c { c.gr with pubs := c.gr.pubs ++ [u] } st) c.p c.g) h (by decide)
  rw [if_neg hex, hpubs] at hrun
  exact congrArg Host.Outcome.next hrun

/-- One publication: it is added where its stores have been accepted, and waits otherwise. -/
theorem runPubs_one {gr : Group} {u : Publish} (hgr : getGroup s p g = some gr) (hpubs : gr.pubs = [u]) :
    runPubs s p g = if pubReady (unaccepted gr) u = true then addProgress (setGroup s p g (some { gr with pubs := [] })) gr.slot u.value
      else setGroup s p g (some { gr with pubs := [u] }) := by
  unfold runPubs
  rw [hgr]
  dsimp only
  rw [hpubs]
  by_cases h : pubReady (unaccepted gr) u = true
  · simp [h]
  · simp [h, addProgress]

/-- The publication of an instruction that has just issued waits for exactly the stores not accepted yet. -/
theorem pubReady_unaccepted (ms : List MemOp) (v : Nat) : pubReady ms { value := v, ids := ms.map (·.id) } = true ↔ ms = [] := by
  unfold pubReady
  constructor
  · intro h
    cases ms with
    | nil => rfl
    | cons m ms => simp at h
  · rintro rfl
    rfl

theorem getSlot_addProgress {n v : Nat} (hv : v ≠ 0) :
    (getSlot (addProgress s n v) n).map (·.progress) = (getSlot s n).map (fun sl => (sl.progress + v) % 2 ^ 44) := by
  unfold addProgress
  rw [if_neg hv, getSlot_modSlot, if_pos rfl]
  cases getSlot s n <;> rfl

theorem getGroup_addProgress {n v q k : Nat} : getGroup (addProgress s n v) q k = getGroup s q k := by
  unfold addProgress
  split
  · rfl
  · obtain ⟨m, hm⟩ := modSlot_eq s n (fun sl => { sl with progress := (sl.progress + v) % 2 ^ 44 })
    rw [hm]
    rfl

/-- The statement's part on PUB. -/
theorem pub_publishes (h : Issues s p g 0x84 w (pubForm w) c) (hex : c.ex ≠ 0#32) (hpubs : c.gr.pubs = []) :
    ∃ t gr, exec (.pub p g w) s = .next t ∧ getGroup t p g = some gr ∧ gr.gpr = c.gr.gpr ∧ gr.preds = c.gr.preds ∧
      gr.mem = c.gr.mem ∧ Advanced c gr ∧
      let v := getReg c.gr (fSrcA w) (issuer c)
      (unaccepted c.gr = [] → gr.pubs = [] ∧ (v ≠ 0 → (getSlot t c.gr.slot).map (·.progress) = some ((c.sl.progress + v) % 2 ^ 44))) ∧
      (unaccepted c.gr ≠ [] → gr.pubs = [{ value := v, ids := (unaccepted c.gr).map (·.id) }] ∧
        (getSlot t c.gr.slot).map (·.progress) = some c.sl.progress) := by
  have hexec := exec_pub h hex hpubs
  obtain ⟨rfl, rfl, rfl, -, hsl⟩ := readyGroup_spec h.1
  let u : Publish := { value := laneA c (issuer c), ids := (unaccepted c.gr).map (·.id) }
  obtain ⟨g1, hgroup, hgpr, hpreds, hrest, hadv, -, hframe⟩ := finishAt_spec s c { c.gr with pubs := [u] } rfl rfl rfl
  generalize finishAt c { c.gr with pubs := [u] } s = s1 at *
  have hmem : g1.mem = c.gr.mem := (congrArg Group.mem hrest : _)
  have hslot : g1.slot = c.gr.slot := (congrArg Group.slot hrest : _)
  have hready : pubReady (unaccepted g1) u = true ↔ unaccepted c.gr = [] := by
    unfold unaccepted
    rw [hmem]
    exact pubReady_unaccepted _ _
  have hprogress : (getSlot s1 c.gr.slot).map (·.progress) = some c.sl.progress := by
    have hsettled := congrArg (Option.map (·.progress)) hframe.slot
    rw [Option.map_map, Option.map_map, hsl] at hsettled
    exact hsettled
  have hrun := runPubs_one hgroup ((congrArg Group.pubs hrest : _) : g1.pubs = [u])
  rw [hrun] at hexec
  by_cases hdone : unaccepted c.gr = []
  · rw [if_pos (hready.mpr hdone)] at hexec
    refine ⟨_, { g1 with pubs := [] }, hexec, ?_, hgpr, hpreds, hmem, hadv, fun _ => ⟨rfl, fun hv => ?_⟩, fun hne => absurd hdone hne⟩
    · rw [getGroup_addProgress, getGroup_setGroup_same]
    · rw [← hslot, getSlot_addProgress (show u.value ≠ 0 from hv), getSlot_setGroup, hslot]
      cases hs : getSlot s1 c.gr.slot with
      | none => rw [hs] at hprogress; cases hprogress
      | some sl =>
        rw [hs] at hprogress
        rw [Option.map_some, show sl.progress = c.sl.progress from Option.some.inj hprogress]
        rfl
  · rw [if_neg fun hr => hdone (hready.mp hr)] at hexec
    refine ⟨_, { g1 with pubs := [u] }, hexec, ?_, hgpr, hpreds, hmem, hadv, fun h0 => absurd h0 hdone, fun _ => ⟨rfl, ?_⟩⟩
    · rw [getGroup_setGroup_same]
    · rw [getSlot_setGroup]
      exact hprogress

/-- The statement's part on SPAWN. -/
theorem spawn_takes (h : Issues s p g 0x83 w (spawnForm w) c) (hex : c.ex ≠ 0#32) (hheld : fountainHeld s = false) :
    ∃ t, exec (.spawn p g w) s = .next t ∧
      let off := getReg c.gr (fSrcA w) (issuer c)
      let dev := getReg c.gr (fSrcB w) (issuer c)
      let ws := wordsOf 32 (stgBytes c.gr.stg off 256)
      (off % 8 ≠ 0 → FaultedWith s t c Code.misalignedAccess) ∧
      (off % 8 = 0 → c.gr.staging * 256 < off + 256 → FaultedWith s t c Code.stagingRange) ∧
      (off % 8 = 0 → off + 256 ≤ c.gr.staging * 256 →
        (dev = s.pool.device → ∃ s1, WroteReg s1 t c (fDst w) (fun _ => BitVec.ofNat 32 (takeSpawn s ws false).1) ∧
            s1 = (takeSpawn s ws false).2 ∧
            (recordFails ws = true ∨ freeSpawnSlot s = none → (takeSpawn s ws false).1 = 2 ^ 31 + s.pool.device * 2 ^ 16) ∧
            (recordFails ws = false → ∀ n, freeSpawnSlot s = some n → (takeSpawn s ws false).1 = s.pool.device * 2 ^ 16 + n ∧
              s1 = enterRecord s n ws true false)) ∧
        (dev ≠ s.pool.device → s.pool.st = .broken ∨ 64 ≤ dev ∨ isMember s dev = false →
          WroteReg s t c (fDst w) (fun _ => BitVec.ofNat 32 (2 ^ 31 + dev % 64 * 2 ^ 16)))) := by
  have hexec := exec_spawn h hex hheld
  obtain ⟨-, -, rfl, -, -⟩ := readyGroup_spec h.1
  dsimp only at hexec
  refine ⟨_, hexec, fun hmis => ?_, fun hal hout => ?_, fun hal hin => ⟨fun hown => ?_, fun hdev hnone => ?_⟩⟩
  · rw [if_pos hmis]
    exact faultAt_faulted h.1 _ _
  · rw [if_neg (not_not.mpr hal), if_pos hout]
    exact faultAt_faulted h.1 _ _
  · rw [if_neg (not_not.mpr hal), if_neg (not_lt.mpr hin), hown, spawnTo_own]
    refine ⟨_, spawn_wrote _ c _, rfl, fun h => takeSpawn_refused h false, fun hok n hn => ?_⟩
    have htaken := takeSpawn_taken (s := s) hok hn false
    exact ⟨congrArg Prod.fst htaken, congrArg Prod.snd htaken⟩
  · rw [if_neg (not_not.mpr hal), if_neg (not_lt.mpr hin), spawnTo_noMember hdev hnone]
    exact spawn_wrote s c _

end

/-- Settles O21: SPAWN's checks in their order, then the record's own slot or the refusal; PUB waits for the stores that its group has
not had accepted. -/
theorem spawnAndPublish : Obligations.SpawnAndPublish := by
  unfold Obligations.SpawnAndPublish
  exact fun s p g w c hex => ⟨fun h hheld => spawn_takes h hex hheld, fun h hpubs => pub_publishes h hex hpubs⟩

end Sys2Proof.Machine
end

section
/-! PROOFS. Records that reach the intake (O23). -/

namespace Sys2Proof.Machine

/-! ### What an act that only logs leaves alone -/

theorem Logged.onlyLogged {s t : State} (h : Logged s t) : OnlyLogged s t := by
  obtain ⟨_, _, _, _, _, rfl⟩ := h
  exact ⟨rfl, rfl⟩

theorem Logged.fountain {s t : State} (h : Logged s t) : t.fountain = s.fountain := by
  obtain ⟨_, _, _, _, _, rfl⟩ := h
  rfl

/-- A 64-bit counter rises. -/
theorem counted_bump {s : State} {k : Nat} (hk : objBits k = 64) (n : Nat) : Counted s (bump s k n) k n := by
  unfold Counted
  rw [getObj_bump_same, hk]

theorem Counted.after {s t u : State} {k n : Nat} (h : getObj t k = getObj s k) (hu : Counted t u k n) : Counted s u k n := by
  unfold Counted at hu ⊢
  rw [hu, h]

theorem Counted.then {s t u : State} {k n : Nat} (ht : Counted s t k n) (h : getObj u k = getObj t k) : Counted s u k n :=
  h.trans ht

/-! ### A dropped record (R40, R42 to R44) -/

/-- Setting a bit of a number. -/
theorem setBit_eq_or (e f : Nat) : (if bit e f then e else e + 2 ^ f) = e ||| 2 ^ f := by
  split
  next h =>
    rw [bit_eq_testBit] at h
    refine Nat.eq_of_testBit_eq fun j => ?_
    by_cases hj : f = j
    · subst hj
      simp [h]
    · simp [Nat.testBit_two_pow_of_ne hj]
  next h =>
    have hlt : ∀ x, x ≤ e + 2 ^ f → x < 2 ^ (e + f + 1) := fun x hx => by
      have he : e < 2 ^ e := Nat.lt_two_pow_self
      have h1 : 2 ^ e ≤ 2 ^ (e + f) := Nat.pow_le_pow_right (by omega) (by omega)
      have h2 : 2 ^ f ≤ 2 ^ (e + f) := Nat.pow_le_pow_right (by omega) (by omega)
      rw [Nat.pow_succ]
      omega
    have hor := congrArg BitVec.toNat (ofNat_add_two_pow (w := e + f + 1) (Bool.eq_false_iff.mpr h))
    have he := Nat.mod_eq_of_lt (hlt e (Nat.le_add_right _ _))
    have hf := Nat.mod_eq_of_lt (hlt (2 ^ f) (Nat.le_add_left _ _))
    have hef := Nat.mod_eq_of_lt (hlt _ (Nat.le_refl _))
    rwa [BitVec.toNat_or, BitVec.toNat_ofNat, BitVec.toNat_ofNat, BitVec.toNat_twoPow, he, hf, hef] at hor

theorem logged_dropRecord (s : State) (code flag offset slot tag : Nat) : Logged s (dropRecord s code flag offset slot tag) :=
  ((((logged_setObj _ _ _).trans (logged_bump _ _ _)).trans (logged_setObj _ _ _)).trans (logged_setObj _ _ _)).trans (logged_raise _ _)

theorem getObj_dropRecord {s : State} {code flag offset slot tag k : Nat} (h : Unlogged code k) :
    getObj (dropRecord s code flag offset slot tag) k = getObj (noteDrop s flag offset) k := getObj_raise_ne h

/-- What the objects of R43 hold once a drop is noted. -/
theorem noteDrop_spec (s : State) (flag offset : Nat) :
    Counted s (noteDrop s flag offset) Key.intakeDrops 1 ∧
      getObj (noteDrop s flag offset) Key.intakeError = getObj s Key.intakeError ||| 2 ^ flag ∧
      getObj (noteDrop s flag offset) Key.dropTime = stamp s ∧ getObj (noteDrop s flag offset) Key.dropOffset = offset := by
  unfold noteDrop
  dsimp only
  refine ⟨?_, ?_, ?_, getObj_setObj_same _ _ _⟩
  · refine Counted.then ?_ ((getObj_setObj_ne _ _ _ _ (by decide)).trans (getObj_setObj_ne _ _ _ _ (by decide)))
    exact (counted_bump (by decide) 1).after (getObj_setObj_ne _ _ _ _ (by decide))
  · rw [getObj_setObj_ne _ _ _ _ (by decide), getObj_setObj_ne _ _ _ _ (by decide), getObj_bump_ne _ _ _ _ (by decide),
      getObj_setObj_same, setBit_eq_or]
  · rw [getObj_setObj_ne _ _ _ _ (by decide), getObj_setObj_same]

theorem dropRecord_dropped (s : State) {code : Nat} (hcode : ∀ k ∈ [Key.intakeDrops, Key.intakeError, Key.dropTime, Key.dropOffset],
    Unlogged code k) (flag offset slot tag : Nat) : RecordDropped s (dropRecord s code flag offset slot tag) code flag offset := by
  obtain ⟨hdrops, herror, htime, hoffset⟩ := noteDrop_spec s flag offset
  obtain ⟨e, es, hring, hc, hv, -⟩ := reportedUnit_raise (noteDrop s flag offset)
    { code := code, sev := 1, origin := .fountain, slot := slot, tag := tag, extra := leBytes 4 offset }
  refine ⟨hdrops.then ?_, (getObj_dropRecord ?_).trans herror, (getObj_dropRecord ?_).trans htime, (getObj_dropRecord ?_).trans hoffset,
    ⟨e, es, hring, hc, hv⟩, (logged_dropRecord ..).onlyLogged⟩
  · exact getObj_dropRecord (hcode _ (by decide))
  all_goals exact hcode _ (by decide)

/-! ### BAR2 (R39, R40, R42, R343) -/

theorem unlogged_dropKeys {code : Nat} (h : ∀ k ∈ [Key.intakeDrops, Key.intakeError, Key.dropTime, Key.dropOffset],
    k ≠ Key.codeCount code ∧ k ≠ Key.codeLast code := by decide) :
    ∀ k ∈ [Key.intakeDrops, Key.intakeError, Key.dropTime, Key.dropOffset], Unlogged code k := by
  have hrest : ∀ k ∈ [Key.intakeDrops, Key.intakeError, Key.dropTime, Key.dropOffset],
      k ≠ Key.errors ∧ k ≠ Key.framesTx ∧ k ≠ Key.eventsUnsent := by decide
  intro k hk
  obtain ⟨he, hf, hu⟩ := hrest k hk
  obtain ⟨hc, hl⟩ := h k hk
  exact ⟨he, hc, hl, hf, hu⟩

/-- A change of other counters before the drop does not show in what the drop says. -/
theorem RecordDropped.after {s s1 t : State} {code flag offset : Nat} (hdrops : getObj s1 Key.intakeDrops = getObj s Key.intakeDrops)
    (herror : getObj s1 Key.intakeError = getObj s Key.intakeError) (hstamp : stamp s1 = stamp s) (hlog : OnlyLogged s t)
    (h : RecordDropped s1 t code flag offset) : RecordDropped s t code flag offset := by
  obtain ⟨hcount, hflag, htime, hoffset, hreport, -⟩ := h
  exact ⟨hcount.after hdrops, herror ▸ hflag, hstamp ▸ htime, hoffset, hreport, hlog⟩

/-- A record dropped after its bytes have been counted. -/
theorem dropRecord_counted (s : State) (n : Nat) {code : Nat} (hcode : ∀ k ∈ [Key.intakeDrops, Key.intakeError, Key.dropTime, Key.dropOffset],
    Unlogged code k) (flag offset slot tag : Nat) :
    RecordDropped s (dropRecord (bump s Key.bytesIn n) code flag offset slot tag) code flag offset :=
  (dropRecord_dropped _ hcode flag offset slot tag).after (getObj_bump_ne _ _ _ _ (by decide)) (getObj_bump_ne _ _ _ _ (by decide)) rfl
    ((logged_bump _ _ _).trans (logged_dropRecord ..)).onlyLogged

/-- A poisoned write is counted at the port, which is up where a BAR decodes. -/
theorem portPoisonedRx_counted {s : State} (hup : s.port.up = true) : Counted s (portPoisonedRx s) Key.poisonedRx 1 := by
  unfold portPoisonedRx portUncorrectableError
  rw [if_pos hup]
  refine (counted_bump (k := Key.poisonedRx) (by decide) 1).then ?_
  refine (getObj_pushEvent_ne (by decide) (by decide)).trans ?_
  rw [getObj_emit, getObj_setObj_ne _ _ _ _ (by decide), getObj_bump_ne _ _ _ _ (by decide)]
  rfl

theorem getObj_portPoisonedRx_intakeDrops (s : State) : getObj (portPoisonedRx s) Key.intakeDrops = getObj s Key.intakeDrops := by
  unfold portPoisonedRx portUncorrectableError
  split
  · refine (getObj_pushEvent_ne (by decide) (by decide)).trans ?_
    rw [getObj_emit, getObj_setObj_ne _ _ _ _ (by decide), getObj_bump_ne _ _ _ _ (by decide)]
    exact getObj_bump_ne _ _ _ _ (by decide)
  · rfl

theorem fountain_portPoisonedRx (s : State) : (portPoisonedRx s).fountain = s.fountain := by
  unfold portPoisonedRx portUncorrectableError
  split
  · exact (logged_pushEvent _ _ _).fountain
  · rfl

theorem port_up_of_barOpen {s : State} {bar : Nat} (h : barOpen s bar = true) : s.port.up = true := by
  unfold barOpen portServes at h
  simp only [Bool.and_eq_true] at h
  exact h.1.1.1.1.1.1.1.1.1

section
variable {s : State} {off : Nat} {data : List Byte}

theorem bar2RecordWrite_closed (h : barOpen s 2 = false) (ep : Bool) : exec (.bar2RecordWrite off data ep) s = .next (portUr s) := if_pos h

theorem bar2RecordWrite_poisoned (h : barOpen s 2 = true) :
    exec (.bar2RecordWrite off data true) s = .next (bump (portPoisonedRx s) Key.intakeDrops 1) :=
  (if_neg (by rw [h]; nofun)).trans (if_pos rfl)

theorem bar2RecordWrite_malformed (h : barOpen s 2 = true) (hbad : data.length ≠ 256 ∨ off % 256 ≠ 0) :
    exec (.bar2RecordWrite off data false) s =
      .next (dropRecord (bump s Key.bytesIn data.length) Code.intakeMalformed 2 off 0xFFFF 0) :=
  (if_neg (by rw [h]; nofun)).trans ((if_neg nofun).trans (if_pos hbad))

theorem bar2RecordWrite_full (h : barOpen s 2 = true) (hlen : data.length = 256) (hoff : off % 256 = 0) (hfull : 16384 ≤ s.fountain.intake.length) :
    exec (.bar2RecordWrite off data false) s =
      .next (dropRecord (bump s Key.bytesIn data.length) Code.intakeFull 0 off 0xFFFF (recTag (wordsOf 32 data))) :=
  (if_neg (by rw [h]; nofun)).trans ((if_neg nofun).trans ((if_neg (by simp [hlen, hoff])).trans (if_pos hfull)))

theorem bar2RecordWrite_lands (h : barOpen s 2 = true) (hlen : data.length = 256) (hoff : off % 256 = 0) (hroom : s.fountain.intake.length < 16384) :
    exec (.bar2RecordWrite off data false) s = .next { bump s Key.bytesIn data.length with
      fountain := { s.fountain with intake := s.fountain.intake ++ [⟨wordsOf 32 data, off⟩] } } :=
  (if_neg (by rw [h]; nofun)).trans ((if_neg nofun).trans ((if_neg (by simp [hlen, hoff])).trans (if_neg (by simpa using hroom))))

end

theorem portUr_spec (s : State) : OnlyLogged s (portUr s) ∧ (s.port.up = true → Counted s (portUr s) Key.urSent 1) ∧
    (s.port.up = false → portUr s = s) := by
  unfold portUr
  split
  next h => exact ⟨(logged_bump _ _ _).onlyLogged, fun _ => counted_bump (by decide) 1, fun h' => absurd h (by rw [h']; nofun)⟩
  next h => exact ⟨⟨rfl, rfl⟩, fun h' => absurd h' h, fun _ => rfl⟩

/-- Settles O23: the write's branches in the order in which it is looked at. -/
theorem recordsReachTheIntake : Obligations.RecordsReachTheIntake := by
  unfold Obligations.RecordsReachTheIntake
  refine ⟨fun s off data hopen => ⟨fun hlen hoff hroom => ?_, fun hlen hoff hfull => ?_, fun hbad => ?_, ?_⟩, fun s off data ep hclosed => ?_,
    fun s rd => ⟨fun hup => ?_, fun hdown => ?_⟩⟩
  · refine ⟨_, bar2RecordWrite_lands hopen hlen hoff hroom, ?_, rfl, (logged_bump s Key.bytesIn data.length).onlyLogged⟩
    rw [hlen]
    exact (counted_bump (s := s) (k := Key.bytesIn) (by decide) 256).then rfl
  · exact ⟨_, bar2RecordWrite_full hopen hlen hoff hfull, dropRecord_counted s _ unlogged_dropKeys _ _ _ _⟩
  · exact ⟨_, bar2RecordWrite_malformed hopen hbad, dropRecord_counted s _ unlogged_dropKeys _ _ _ _⟩
  · refine ⟨_, bar2RecordWrite_poisoned hopen, fountain_portPoisonedRx s, ?_, ?_⟩
    · exact (counted_bump (by decide) 1).after (getObj_portPoisonedRx_intakeDrops s)
    · exact (portPoisonedRx_counted (port_up_of_barOpen hopen)).then (getObj_bump_ne _ _ _ _ (by decide))
  · exact ⟨_, bar2RecordWrite_closed hclosed ep, portUr_spec s⟩
  · refine ⟨_, congrArg Host.Outcome.next (if_pos hup), rfl, ?_, ((logged_bump _ _ _).trans (logged_emit _ _)).onlyLogged⟩
    exact counted_bump (by decide) 1
  · exact congrArg Host.Outcome.next (if_neg (by rw [hdown]; nofun))

end Sys2Proof.Machine
end

section
/-! SUPPORT. Tasks that fail where they wait: what their poison touches, and the slots that it passes by. -/

namespace Sys2Proof.Machine

/-! ### What poison touches (R48, R49, R64) -/

/-- The states differ at most in what the Keeper logs, the outputs, the links, the requests to peers, the slots and the counters. -/
def SignalsOnly (s t : State) : Prop :=
  ∃ k o l pl sl c, k.rest = s.keeper.rest ∧
    t = { s with keeper := k, out := o, links := l, pool := pl, fountain := { s.fountain with slots := sl, counters := c } }

theorem SignalsOnly.refl (s : State) : SignalsOnly s s := ⟨_, _, _, _, _, _, rfl, rfl⟩

theorem SignalsOnly.trans {a b c : State} (h : SignalsOnly a b) (k : SignalsOnly b c) : SignalsOnly a c := by
  obtain ⟨_, _, _, _, _, _, hk, rfl⟩ := h
  obtain ⟨_, _, _, _, _, _, kk, rfl⟩ := k
  exact ⟨_, _, _, _, _, _, kk.trans hk, rfl⟩

theorem Logged.signals {s t : State} (h : Logged s t) : SignalsOnly s t := by
  obtain ⟨o, r, q, a, u, rfl⟩ := h
  exact ⟨{ s.keeper with obj := o, ring := r, eventSeq := q, sentAt := a }, u, s.links, s.pool, s.fountain.slots, s.fountain.counters, rfl, rfl⟩

theorem PeersOnly.signals {s t : State} (h : PeersOnly s t) : SignalsOnly s t := by
  obtain ⟨ob, o, l, pl, rfl⟩ := h
  exact ⟨{ s.keeper with obj := ob }, o, l, pl, s.fountain.slots, s.fountain.counters, rfl, rfl⟩

theorem signalsOnly_setSlot (s : State) (n : Nat) (x : Option Slot) : SignalsOnly s (setSlot s n x) := ⟨_, _, _, _, _, _, rfl, rfl⟩

theorem signalsOnly_modSlot (s : State) (n : Nat) (f : Slot → Slot) : SignalsOnly s (modSlot s n f) := by
  obtain ⟨m, hm⟩ := modSlot_eq s n f
  exact ⟨_, _, _, _, _, _, rfl, hm⟩

theorem signalsOnly_poisonSignals (s : State) (n : Nat) (sl : Slot) : SignalsOnly s (poisonSignals s n sl) := by
  unfold poisonSignals
  split
  · exact .refl s
  · refine foldl_rel SignalsOnly.refl SignalsOnly.trans _ (fun t e _ => ?_) s
    split
    · exact ⟨_, _, _, _, _, _, rfl, rfl⟩
    · split
      · exact (peersOnly_peerRequests t _).signals
      · exact .refl t

theorem signalsOnly_writeFaulted (s : State) (n code : Nat) : SignalsOnly s (writeFaulted s n code) := by
  unfold writeFaulted
  split
  · exact .refl s
  · refine (logged_bump s Key.tasksFaulted 1).signals.trans ?_
    dsimp only
    split <;> exact signalsOnly_setSlot _ _ _

theorem signalsOnly_failCore (s : State) (n : Nat) (r : ErrRec) : SignalsOnly s (failCore s n r) := by
  unfold failCore
  split
  · exact .refl s
  · exact ((logged_raiseTask s n r).signals.trans (signalsOnly_poisonSignals _ _ _)).trans (signalsOnly_writeFaulted _ _ _)

theorem signalsOnly_spreadPoison (k : Nat) (s : State) : SignalsOnly s (spreadPoison k s) := by
  induction k generalizing s with
  | zero => exact .refl s
  | succ k ih =>
    unfold spreadPoison
    split
    · exact .refl s
    · exact (signalsOnly_failCore s _ _).trans (ih _)

theorem signalsOnly_evalWaits (s : State) : SignalsOnly s (evalWaits s) := by
  unfold evalWaits
  refine (signalsOnly_spreadPoison _ s).trans (foldl_rel SignalsOnly.refl SignalsOnly.trans _ (fun t e _ => ?_) _)
  split
  · exact signalsOnly_modSlot t _ _
  · exact .refl t

theorem SignalsOnly.belowFountain {s t : State} (h : SignalsOnly s t) : BelowFountain s t ∧ t.sluice = s.sluice ∧ t.cistern = s.cistern := by
  obtain ⟨_, _, _, _, _, _, -, rfl⟩ := h
  exact ⟨⟨rfl, rfl, rfl, rfl, rfl, rfl, fun _ => rfl⟩, rfl, rfl⟩

theorem SignalsOnly.intake {s t : State} (h : SignalsOnly s t) :
    t.fountain.intake = s.fountain.intake ∧ t.fountain.lastTake = s.fountain.lastTake := by
  obtain ⟨_, _, _, _, _, _, -, rfl⟩ := h
  exact ⟨rfl, rfl⟩

/-! ### The slots that it passes by -/

/-- Tasks in another state than 1 are as they were. -/
def PassesBy (s t : State) : Prop := SlotsWf s → SlotsWf t ∧ ∀ n x, getSlot s n = some x → x.state ≠ 1 → getSlot t n = some x

theorem PassesBy.refl (s : State) : PassesBy s s := fun hw => ⟨hw, fun _ _ hx _ => hx⟩

theorem PassesBy.trans {a b c : State} (h : PassesBy a b) (k : PassesBy b c) : PassesBy a c := by
  intro hw
  obtain ⟨hw', hs⟩ := h hw
  obtain ⟨hw'', ks⟩ := k hw'
  exact ⟨hw'', fun n x hx h1 => ks n x (hs n x hx h1) h1⟩

/-- The slots after a failure: its own, and the others as they were. -/
theorem getSlot_failCore {s : State} {n : Nat} {sl : Slot} (h : getSlot s n = some sl) (r : ErrRec) (m : Nat) :
    getSlot (failCore s n r) m = if m = n then (if sl.spawned then none else
      some { sl with state := 6, code := r.code, satisfied := none, dispatchable := none, staging := .none,
                     ending := none, reserved := [], replayWait := none }) else getSlot s m := by
  have hslots : ∀ k, getSlot (poisonSignals (raiseTask s n r) n sl) k = getSlot s k := fun k => by
    unfold getSlot
    rw [poisonSignals_slots, (logged_raiseTask s n r).slots]
  unfold failCore
  rw [h]
  dsimp only
  unfold writeFaulted
  rw [hslots, h]
  dsimp only
  by_cases hm : m = n
  · subst hm
    split <;> rw [getSlot_setSlot_same, if_pos rfl]
  · split <;> rw [getSlot_setSlot_ne _ _ _ _ hm, getSlot_bump, hslots]

theorem slotsWf_failCore {s : State} (hw : SlotsWf s) (n : Nat) (r : ErrRec) : SlotsWf (failCore s n r) := by
  unfold failCore
  split
  · exact hw
  next sl _ =>
    have hp : SlotsWf (poisonSignals (raiseTask s n r) n sl) := by
      unfold SlotsWf
      rw [poisonSignals_slots, (logged_raiseTask s n r).slots]
      exact hw
    unfold writeFaulted
    split
    · exact hp
    · dsimp only
      split <;> exact slotsWf_setSlot (s := bump _ _ _) hp n _

theorem passesBy_spreadPoison (k : Nat) (s : State) : PassesBy s (spreadPoison k s) := by
  induction k generalizing s with
  | zero => exact .refl s
  | succ k ih =>
    intro hw
    unfold spreadPoison
    split
    · exact ⟨hw, fun _ _ hx _ => hx⟩
    next m sl hfind =>
      have hm := (mem_liveSlots hw m sl).mp (List.mem_of_find?_eq_some hfind)
      have hwaits : sl.state = 1 := by
        have := List.find?_some hfind
        simp only [Bool.and_eq_true, beq_iff_eq] at this
        exact this.1.1
      refine ((show PassesBy s (failCore s m _) from fun hw => ⟨slotsWf_failCore hw m _, fun n x hx h1 => ?_⟩).trans (ih _)) hw
      rw [getSlot_failCore hm, if_neg, hx]
      rintro rfl
      rw [hm] at hx
      obtain rfl := Option.some.inj hx
      exact h1 hwaits

/-! ### Waking the tasks whose waits are met (R47) -/

/-- A task in state 1 whose waits are met in `s` notes the time. -/
def wakeStep (s st : State) (e : Nat × Slot) : State :=
  if e.2.state == 1 && e.2.satisfied.isNone && waitsMet s e.2.words then
    modSlot st e.1 (fun sl => { sl with satisfied := some (now st) }) else st

/-- The second half of evaluating the waits. -/
def wakeAll (s : State) : State := (liveSlots s).foldl (wakeStep s) s

theorem evalWaits_eq (s : State) : evalWaits s = wakeAll (spreadPoison (liveSlots s).length s) := rfl

/-- A task as waking leaves it. -/
def woken (s : State) (sl : Slot) : Slot :=
  if sl.state == 1 && sl.satisfied.isNone && waitsMet s sl.words then { sl with satisfied := some (now s) } else sl

theorem now_wakeStep (s st : State) (e : Nat × Slot) : now (wakeStep s st e) = now st := by
  unfold wakeStep
  split
  · obtain ⟨m, hm⟩ := modSlot_eq st e.1 (fun sl => { sl with satisfied := some (now st) })
    rw [hm]
    rfl
  · rfl

theorem getSlot_wakeStep_ne (s st : State) {e : Nat × Slot} {n : Nat} (h : e.1 ≠ n) : getSlot (wakeStep s st e) n = getSlot st n := by
  unfold wakeStep
  split
  · rw [getSlot_modSlot, if_neg (Ne.symm h)]
  · rfl

theorem getSlot_wakeStep_same {s st : State} {n : Nat} {y : Slot} (hnow : now st = now s)
    (hst : getSlot st n = some y ∨ getSlot st n = some (woken s y)) : getSlot (wakeStep s st (n, y)) n = some (woken s y) := by
  unfold wakeStep
  unfold woken at hst ⊢
  split
  next hc =>
    rw [if_pos hc] at hst
    rw [getSlot_modSlot, if_pos rfl, hnow]
    rcases hst with h | h <;> rw [h] <;> rfl
  next hc =>
    rw [if_neg hc] at hst
    exact hst.elim id id

/-- A slot while the tasks of a list are woken: as it was, or woken already. -/
theorem getSlot_foldl_wakeStep {s : State} {n : Nat} {y : Slot} (xs : List (Nat × Slot)) (hxs : ∀ e ∈ xs, e.1 = n → e.2 = y) (st : State)
    (hnow : now st = now s) (hst : getSlot st n = some y ∨ getSlot st n = some (woken s y)) :
    (∃ e ∈ xs, e.1 = n) ∨ getSlot st n = some (woken s y) → getSlot (xs.foldl (wakeStep s) st) n = some (woken s y) := by
  induction xs generalizing st with
  | nil => exact fun h => h.resolve_left fun ⟨_, he, _⟩ => absurd he List.not_mem_nil
  | cons e xs ih =>
    have hrest := fun hst => ih (fun e he => hxs e (List.mem_cons_of_mem _ he)) (wakeStep s st e) ((now_wakeStep s st e).trans hnow) hst
    rw [List.foldl_cons]
    by_cases hn : e.1 = n
    · have he : e = (n, y) := Prod.ext hn (hxs e List.mem_cons_self hn)
      have hdone := getSlot_wakeStep_same hnow hst
      rw [← he] at hdone
      exact fun _ => hrest (.inr hdone) (.inr hdone)
    · rw [getSlot_wakeStep_ne s st hn] at hrest
      refine fun h => hrest hst (h.imp_left fun ⟨x, hx, hxn⟩ => ⟨x, ?_, hxn⟩)
      rcases List.mem_cons.mp hx with rfl | hx
      · exact absurd hxn hn
      · exact hx

theorem getSlot_wakeAll {s : State} (hw : SlotsWf s) {n : Nat} {y : Slot} (hy : getSlot s n = some y) :
    getSlot (wakeAll s) n = some (woken s y) := by
  refine getSlot_foldl_wakeStep (liveSlots s) (fun e he hn => ?_) s rfl (.inl hy) (.inl ⟨(n, y), (mem_liveSlots hw n y).mpr hy, rfl⟩)
  have := (mem_liveSlots hw e.1 e.2).mp he
  rw [hn, hy] at this
  exact (Option.some.inj this).symm

theorem slotsWf_wakeAll {s : State} (hw : SlotsWf s) : SlotsWf (wakeAll s) := by
  refine foldl_rel (R := fun a b => SlotsWf a → SlotsWf b) (fun _ => id) (fun h k => k ∘ h) _ (fun t e _ ht => ?_) s hw
  unfold wakeStep
  split
  · exact slotsWf_modSlot ht _ _
  · exact ht

theorem passesBy_evalWaits (s : State) : PassesBy s (evalWaits s) := by
  rw [evalWaits_eq]
  refine (passesBy_spreadPoison _ s).trans fun hw => ⟨slotsWf_wakeAll hw, fun n x hx h1 => ?_⟩
  rw [getSlot_wakeAll hw hx]
  unfold woken
  rw [if_neg (by simp [h1])]

end Sys2Proof.Machine
end

section
/-! PROOFS. The Fountain takes the oldest record (O24). -/

namespace Sys2Proof.Machine

/-! ### A record in its slot (R47, R49) -/

section
variable {s : State} {n : Nat} {ws : List Word64}

/-- The slot of a task that fails at once. -/
theorem failNow_slot {sl : Slot} (hw : SlotsWf s) (h : getSlot s n = some sl) (hspawned : sl.spawned = false) (r : ErrRec) :
    ∃ x, getSlot (failNow s n r) n = some x ∧ x.words = sl.words ∧ x.progress = sl.progress ∧ x.replays = sl.replays ∧
      x.spawned = false ∧ x.state = 6 ∧ x.code = r.code := by
  have hfailed := getSlot_failCore h r n
  rw [if_pos rfl, hspawned, if_neg nofun] at hfailed
  exact ⟨_, (passesBy_evalWaits _ (slotsWf_failCore hw n r)).2 n _ hfailed nofun, rfl, rfl, rfl, rfl, rfl, rfl⟩

/-- A task that waits on a poisoned counter, alone among those of its kind, is the first that poison reaches. -/
theorem spreadPoison_reaches {sl : Slot} (hw : SlotsWf s) (h : getSlot s n = some sl) (hstate : sl.state = 1) (hsig : sl.signalled = false)
    (hpoison : waitsPoisoned s sl.words = true)
    (hothers : ∀ m x, m ≠ n → getSlot s m = some x → x.state = 1 → x.signalled = false → waitsPoisoned s x.words = false) (k : Nat) :
    spreadPoison (k + 1) s = spreadPoison k (failCore s n { code := Code.dependencyFaulted, sev := 2, origin := .fountain }) := by
  rw [spreadPoison]
  split
  next hnone =>
    have := List.find?_eq_none.mp hnone (n, sl) ((mem_liveSlots hw n sl).mpr h)
    simp [hstate, hsig, hpoison] at this
  next m x hfind =>
    have hx := (mem_liveSlots hw m x).mp (List.mem_of_find?_eq_some hfind)
    have hdue := List.find?_some hfind
    simp only [Bool.and_eq_true, beq_iff_eq, Bool.not_eq_true'] at hdue
    obtain ⟨⟨h1, h2⟩, h3⟩ := hdue
    by_cases hm : m = n
    · rw [hm]
    · rw [hothers m x hm hx h1 h2] at h3
      cases h3

/-- Evaluating the waits fails a task that alone waits on a poisoned counter (R49). -/
theorem evalWaits_poisoned {sl : Slot} (hw : SlotsWf s) (h : getSlot s n = some sl) (hstate : sl.state = 1) (hsig : sl.signalled = false)
    (hspawned : sl.spawned = false) (hpoison : waitsPoisoned s sl.words = true)
    (hothers : ∀ m x, m ≠ n → getSlot s m = some x → x.state = 1 → x.signalled = false → waitsPoisoned s x.words = false) :
    ∃ x, getSlot (evalWaits s) n = some x ∧ x.words = sl.words ∧ x.progress = sl.progress ∧ x.replays = sl.replays ∧
      x.spawned = false ∧ x.state = 6 ∧ x.code = Code.dependencyFaulted := by
  have hfailed := getSlot_failCore h { code := Code.dependencyFaulted, sev := 2, origin := .fountain } n
  rw [if_pos rfl, hspawned, if_neg nofun] at hfailed
  have hlen : (liveSlots s).length ≠ 0 := fun h0 => by
    have := (mem_liveSlots hw n sl).mpr h
    rw [List.length_eq_zero_iff.mp h0] at this
    exact absurd this List.not_mem_nil
  obtain ⟨k, hk⟩ := Nat.exists_eq_succ_of_ne_zero hlen
  rw [evalWaits_eq, hk, spreadPoison_reaches hw h hstate hsig hpoison hothers k]
  obtain ⟨hw', hpass⟩ := passesBy_spreadPoison k _ (slotsWf_failCore hw n _)
  refine ⟨_, getSlot_wakeAll hw' (hpass n _ hfailed nofun), ?_⟩
  unfold woken
  rw [if_neg (by simp)]
  exact ⟨rfl, rfl, rfl, rfl, rfl, rfl⟩

/-- Evaluating the waits where no poison is due wakes a task whose waits are met (R47). -/
theorem evalWaits_wakes {sl : Slot} (hw : SlotsWf s) (h : getSlot s n = some sl) (hsound : Unpoisoned s) :
    getSlot (evalWaits s) n = some (woken s sl) := by
  rw [evalWaits_eq, spreadPoison_idle hw hsound]
  exact getSlot_wakeAll hw h

/-! ### A record put in a slot -/

theorem slotsWf_placeRecord (hw : SlotsWf s) (n : Nat) (sl : Slot) : SlotsWf (placeRecord s n sl) := slotsWf_setSlot (s := s) hw n (some sl)

theorem getSlot_placeRecord (s : State) (n : Nat) (sl : Slot) (m : Nat) :
    getSlot (placeRecord s n sl) m = if m = n then some sl else getSlot s m := by
  show getSlot (setSlot s n (some sl)) m = _
  by_cases hm : m = n
  · rw [hm, if_pos rfl, getSlot_setSlot_same]
  · rw [if_neg hm, getSlot_setSlot_ne _ _ _ _ hm]

theorem enterRecord_signals (s : State) (n : Nat) (ws : List Word64) : SignalsOnly (placeRecord s n (newSlot ws false false)) (enterRecord s n ws false false) := by
  unfold enterRecord
  dsimp only
  split
  · exact (signalsOnly_failCore _ _ _).trans (signalsOnly_evalWaits _)
  · exact signalsOnly_evalWaits _

theorem enterRecord_refused {c : Nat} (hw : SlotsWf s) (hc : recordCode s ws false = some c) :
    ∃ x, getSlot (enterRecord s n ws false false) n = some x ∧ x.words = maskRecord ws ∧ x.progress = 0 ∧ x.replays = 0 ∧
      x.spawned = false ∧ x.state = 6 ∧ x.code = c := by
  unfold enterRecord
  rw [hc]
  exact failNow_slot (s := placeRecord s n (newSlot ws false false)) (slotsWf_placeRecord hw n _) ((getSlot_placeRecord ..).trans (if_pos rfl)) rfl _

theorem enterRecord_poisoned (hw : SlotsWf s) (hsound : Unpoisoned s) (hc : recordCode s ws false = none)
    (hpoison : waitsPoisoned s (maskRecord ws) = true) :
    ∃ x, getSlot (enterRecord s n ws false false) n = some x ∧ x.words = maskRecord ws ∧ x.progress = 0 ∧ x.replays = 0 ∧
      x.spawned = false ∧ x.state = 6 ∧ x.code = Code.dependencyFaulted := by
  unfold enterRecord
  rw [hc]
  refine evalWaits_poisoned (s := placeRecord s n (newSlot ws false false)) (slotsWf_placeRecord hw n _) ((getSlot_placeRecord ..).trans (if_pos rfl))
    rfl rfl rfl hpoison fun m x hm hx => ?_
  rw [getSlot_placeRecord, if_neg hm] at hx
  exact hsound m x hx

theorem enterRecord_waits (hw : SlotsWf s) (hsound : Unpoisoned s) (hc : recordCode s ws false = none)
    (hpoison : waitsPoisoned s (maskRecord ws) = false) :
    ∃ x, getSlot (enterRecord s n ws false false) n = some x ∧ x.words = maskRecord ws ∧ x.progress = 0 ∧ x.replays = 0 ∧
      x.spawned = false ∧ x.state = 1 ∧ x.satisfied = if waitsMet s (maskRecord ws) then some (now s) else none := by
  have hsound' : Unpoisoned (placeRecord s n (newSlot ws false false)) := fun m x hx h1 h2 => by
    rw [getSlot_placeRecord] at hx
    split at hx
    · obtain rfl := Option.some.inj hx
      exact hpoison
    · exact hsound m x hx h1 h2
  have hwake := evalWaits_wakes (s := placeRecord s n (newSlot ws false false)) (slotsWf_placeRecord hw n _)
    ((getSlot_placeRecord ..).trans (if_pos rfl)) hsound'
  unfold enterRecord
  rw [hc]
  refine ⟨_, hwake, ?_⟩
  unfold woken
  have hmet : waitsMet (placeRecord s n (newSlot ws false false)) (maskRecord ws) = waitsMet s (maskRecord ws) := rfl
  by_cases h : waitsMet s (maskRecord ws) = true
  · rw [if_pos (by exact hmet.trans h), if_pos h]
    exact ⟨rfl, rfl, rfl, rfl, rfl, rfl⟩
  · rw [if_neg (by exact fun h' => h (hmet.symm.trans h')), if_neg h]
    exact ⟨rfl, rfl, rfl, rfl, rfl, rfl⟩

end

/-! ### INTAKE_TAKE (R41, R44) -/

theorem intakeTake_idle {s : State} (chk : Chk) (h : s.fountain.intake = [] ∨ inService s = false ∨ fountainHeld s = true ∨
    ∃ k, s.fountain.lastTake = some k ∧ now s < k + 4) : exec (.intakeTake chk) s = .next s := by
  show execIntakeTake chk s = .next s
  unfold execIntakeTake
  split
  next r rest hmay hintake =>
    unfold mayTake at hmay
    simp only [Bool.and_eq_true, Bool.not_eq_true'] at hmay
    obtain ⟨⟨hserve, hheld⟩, htime⟩ := hmay
    rcases h with h | h | h | ⟨k, hk, hlt⟩
    · rw [hintake] at h
      cases h
    · rw [hserve] at h
      cases h
    · rw [hheld] at h
      cases h
    · rw [hk] at htime
      have := of_decide_eq_true htime
      omega
  · rfl

theorem mayTake_true {s : State} (hserve : inService s = true) (hheld : fountainHeld s = false)
    (htime : ∀ k, s.fountain.lastTake = some k → k + 4 ≤ now s) : mayTake s = true := by
  unfold mayTake
  rw [hserve, hheld]
  cases h : s.fountain.lastTake with
  | none => rfl
  | some k => simpa using htime k h

/-- The state with the oldest record taken out of the intake. -/
def afterTake (s : State) (rest : List Landed) : State := { s with fountain := { s.fountain with intake := rest, lastTake := some (now s) } }

theorem intakeTake_takes {s : State} {r : Landed} {rest : List Landed} (hintake : s.fountain.intake = r :: rest) (hmay : mayTake s = true) :
    exec (.intakeTake .ok) s = .next (
      if recSlot r.words ≥ hostSlots s then dropRecord (afterTake s rest) Code.slotRange 3 r.offset (recSlot r.words) (recTag r.words)
      else if slotState s (recSlot r.words) = 0 ∨ slotState s (recSlot r.words) = 5 ∨ slotState s (recSlot r.words) = 6 then
        enterRecord (afterTake s rest) (recSlot r.words) r.words false false
      else dropRecord (afterTake s rest) Code.slotBusy 1 r.offset (recSlot r.words) (recTag r.words)) := by
  show execIntakeTake .ok s = _
  unfold execIntakeTake
  rw [hmay, hintake]
  simp only [reduceCtorEq, if_false]
  by_cases hrange : recSlot r.words ≥ hostSlots s
  · rw [if_pos hrange, if_pos hrange]
    rfl
  · rw [if_neg hrange, if_neg hrange]
    split <;> rfl

/-- Settles O24: a record's fate by its slot's number and state; one that is taken is evaluated with its slot in place, where it alone
can be due poison. -/
theorem intakeTakesTheOldest : Obligations.IntakeTakesTheOldest := by
  unfold Obligations.IntakeTakesTheOldest
  refine ⟨fun s chk => intakeTake_idle chk, fun s r rest hintake hserve hheld htime => ?_⟩
  dsimp only
  refine ⟨_, intakeTake_takes hintake (mayTake_true hserve hheld htime), fun hrange => ?_, fun hrange hbusy => ?_, fun hrange hfree hw hsound => ?_⟩
  · rw [if_pos hrange]
    exact dropRecord_dropped _ unlogged_dropKeys _ _ _ _
  · rw [if_neg (not_le.mpr hrange), if_neg (fun h => by rcases h with h | h | h <;> rw [h] at hbusy <;> revert hbusy <;> decide)]
    exact dropRecord_dropped _ unlogged_dropKeys _ _ _ _
  · rw [if_neg (not_le.mpr hrange), if_pos (by simpa using hfree)]
    have hunp := unpoisoned_of_noPoisonDue hw hsound
    have hsignals := enterRecord_signals (afterTake s rest) (recSlot r.words) r.words
    obtain ⟨hbelow, hsluice, hcistern⟩ := hsignals.belowFountain
    obtain ⟨hin, hlast⟩ := hsignals.intake
    have hcode : recordCode (afterTake s rest) r.words false = recordCode s r.words false := rfl
    refine ⟨hin, hlast, hbelow, hsluice, hcistern, ?_, fun hfails => if_pos hfails⟩
    rcases hc : recordCode s r.words false with _ | c
    · cases hp : waitsPoisoned s (maskRecord r.words) with
      | true =>
        obtain ⟨x, hx, h1, h2, h3, h4, h5, h6⟩ := enterRecord_poisoned (s := afterTake s rest) (n := recSlot r.words) hw hunp hc hp
        exact ⟨x, hx, h1, h2, h3, h4, nofun, fun _ _ => ⟨h5, h6⟩, nofun⟩
      | false =>
        obtain ⟨x, hx, h1, h2, h3, h4, h5, h6⟩ := enterRecord_waits (s := afterTake s rest) (n := recSlot r.words) hw hunp hc hp
        exact ⟨x, hx, h1, h2, h3, h4, nofun, nofun, fun _ _ => ⟨h5, h6⟩⟩
    · obtain ⟨x, hx, h1, h2, h3, h4, h5, h6⟩ := enterRecord_refused (s := afterTake s rest) (n := recSlot r.words) hw hc
      exact ⟨x, hx, h1, h2, h3, h4, fun d hd => ⟨h5, h6.trans (Option.some.inj hd)⟩, nofun, nofun⟩

end Sys2Proof.Machine
end

section
/-! PROOFS. The staging window (O25): a page that must come from the host is a transfer that the host port queues. -/

namespace Sys2Proof.Machine

/-- A satisfied task whose record names sequence 0, from its first page. -/
def namesSequence : Slot :=
  { words := [0#64, BitVec.ofNat 64 (2 ^ 40), 0#64, BitVec.ofNat 64 (2 ^ 24 + 1)] ++ List.replicate 12 0#64 ++
      [BitVec.ofNat 64 (2 ^ 63)] ++ List.replicate 15 0#64,
    state := 1, code := 0, flushed := false, replayed := false, progress := 0, spawned := false, posted := false, replays := 0,
    satisfied := some 0, dispatchable := none, staging := .none, home := 0, nextGroup := 0, exited := 0, reserved := [], runStart := 0,
    ending := none, faults := 0, replayWait := none, silent := false, signalled := false, tbar := [], peersWritten := [],
    peerUser := false, windowUser := false, extends_ := [], retired := [], asked := [], freeing := [], seqList := [] }

/-- A device in service with that task, whose sequence's only page is in state HOST, with one free page to bring it to. -/
def hostedSequence : State :=
  let s := State.reset
  let page : Page := { st := .host, zone := 0, hostPage := none, frame := none, ahead := false }
  let q : Seqn := { st := .active, half := 0, length := 0, writeFrom := 1000000, lastStaged := 0, retired := 0, pages := [page] }
  { s with boot := { s.boot with stage := 10, done := 11, keeperRuns := true }
           fountain := { s.fountain with slots := [(0, some namesSequence)] }
           sluice := { s.sluice with seqs := [(0, some q)], west := { s.sluice.west with freed := [1] } } }

/-- The transfers that wait for the host port once a step has been made. -/
def queuedAfter : Host.Outcome State Fault Refusal → Nat
  | .next t => t.port.queue.length
  | _ => 0

/-- Its entry into the window begins the move of the page, which is queued at the host port (R277, R285). -/
theorem hostedSequence_queues : queuedAfter (exec (.stagingWindowEntry .ok) hostedSequence) = 1 := by decide +kernel

/-- Refutes O25: a task that names a page in state HOST enters the window, and its page-in joins the host port's queue, while the
statement has the host port unchanged by every entry. -/
theorem not_stagingWindow : ¬ Obligations.StagingWindow := by
  unfold Obligations.StagingWindow
  intro h
  obtain ⟨hentry, -⟩ := h
  have henters := (hentry hostedSequence (by decide +kernel) (by decide +kernel) (by decide +kernel) rfl).2 0 namesSequence
    (by decide +kernel) rfl (by decide +kernel) (by decide +kernel) (by decide +kernel) rfl (by decide +kernel)
  obtain ⟨t, hexec, ⟨-, -, -, -, -, hport, -⟩, -⟩ := henters
  have hqueued : t.port.queue.length = 1 := (congrArg queuedAfter hexec).symm.trans hostedSequence_queues
  rw [hport] at hqueued
  exact absurd hqueued (by decide)

end Sys2Proof.Machine
end

section
/-! PROOFS. Faulted tasks settle (O28): the statement does not ask that the table of cores be in its canonical form. -/

namespace Sys2Proof.Machine

/-- A task in slot 0 that is being ended and has no groups. -/
def endingTask : Slot :=
  { words := List.replicate 32 0#64, state := 3, code := 0, flushed := false, replayed := false, progress := 0, spawned := false,
    posted := false, replays := 0, satisfied := some 0, dispatchable := some 0, staging := .staged, home := 0, nextGroup := 1, exited := 1,
    reserved := [], runStart := 0, ending := some ⟨Code.taskTimeout, none⟩, faults := 1, replayWait := none, silent := false, signalled := false,
    tbar := [], peersWritten := [], peerUser := false, windowUser := false, extends_ := [], retired := [], asked := [], freeing := [], seqList := [] }

/-- A device with that task whose table of cores names position 0 twice: an idle core, which is the one that counts, stands before
one with a byte in its Basin. No canonical table holds either the second entry or an idle core. -/
def coreNamedTwice : State :=
  { State.reset with
    fountain := { State.reset.fountain with slots := [(0, some endingTask)] }
    cores := [(0, Pos.idle), (0, { Pos.idle with basin := [(0, 1#8)] })] }

/-- The bytes of position 0's Basin once a step has been made. -/
def basinAfter : Host.Outcome State Fault Refusal → Sparse Byte
  | .next t => (getPos t 0).basin
  | _ => []

/-- As the task's queues are emptied the idle core leaves the table, and the entry behind it counts. -/
theorem coreNamedTwice_reveals : basinAfter (exec (.taskFaultSettle 0) coreNamedTwice) = [(0, 1#8)] := by decide +kernel

/-- Refutes O28: the statement asks that the slot table be canonical and not that the table of cores be; where that names a position
twice, a task that settles changes which of its entries counts, and with it the position's Basin. -/
theorem not_tasksFaultAndSettle : ¬ Obligations.TasksFaultAndSettle := by
  unfold Obligations.TasksFaultAndSettle
  intro h
  obtain ⟨hsettle, -⟩ := h
  obtain ⟨-, -, hquiet⟩ := hsettle coreNamedTwice 0 endingTask rfl (by decide +kernel) (by decide +kernel)
  obtain ⟨hfails, -⟩ := hquiet ⟨Code.taskTimeout, none⟩ rfl (by decide +kernel) (by decide +kernel)
  obtain ⟨t, hexec, -, ⟨-, -, -, -, -, -, hbasin⟩, -⟩ := hfails rfl
  have hrevealed : (getPos t 0).basin = [(0, 1#8)] := (congrArg basinAfter hexec).symm.trans coreNamedTwice_reveals
  rw [hbasin 0] at hrevealed
  exact absurd hrevealed (by decide +kernel)

end Sys2Proof.Machine
end

section
/-! PROOFS. Enables, resets and regulation (O50): a task that runs while the array its record names is still being read. -/

namespace Sys2Proof.Machine

/-- A running task that has used the Cistern window and whose SEQ_LIST is still being read; its record extends nothing and names
sequence 0, which is FREE. -/
def listingTask : Slot :=
  { namesSequence with state := 3, staging := .listing, nextGroup := 1, windowUser := true }

/-- A device in service with that task, at the beginning of a Cistern-only reset with nothing under way. -/
def resetWhileListing : State :=
  let s := State.reset
  { s with boot := { s.boot with stage := 10, done := 11, keeperRuns := true }
           fountain := { s.fountain with slots := [(0, some listingTask)] }
           cistern := { s.cistern with reset := some ⟨0, 0xFFFFFFFF, 0⟩ } }

/-- Whether the task in slot 0 is being ended once a step has been made. -/
def endingAfter : Host.Outcome State Fault Refusal → Option (Option Ending)
  | .next t => (getSlot t 0).map (·.ending)
  | _ => none

/-- The reset ends the task, and then asks the Sluice for it again: the request is refused, and the task has faulted. -/
theorem resetWhileListing_refused : endingAfter (exec .cisternResetDrainEnd resetWhileListing) = some none := by decide +kernel

/-- Refutes O50: the statement has every task in state 3 that has used the window still being ended when the reset is over, also
one whose SEQ_LIST is being read; that one is staged again, which here fails it at once. -/
theorem not_enablesAndResets : ¬ Obligations.EnablesAndResets := by
  unfold Obligations.EnablesAndResets
  intro h
  obtain ⟨-, -, -, -, -, -, hreset, -⟩ := h
  obtain ⟨-, hdrained⟩ := (hreset resetWhileListing).2 ⟨0, 0xFFFFFFFF, 0⟩ rfl
  obtain ⟨t, hexec, -, -, -, -, hwindow⟩ := hdrained (.inl (by decide +kernel)) (by decide +kernel)
  obtain ⟨x, hx, hending⟩ := hwindow 0 listingTask rfl rfl rfl
  have hfaulted : (getSlot t 0).map (·.ending) = some none := (congrArg endingAfter hexec).symm.trans resetWhileListing_refused
  rw [hx] at hfaulted
  exact hending (Option.some.inj hfaulted)

end Sys2Proof.Machine
end

section
/-! PROOFS. Writes of dictionary objects (O49). -/

namespace Sys2Proof.Machine

/-! ### One write (R355, R357, R374) -/

section
variable {s : State} {w : ObjWrite} {k n : Nat} {r : ObjRow}

/-- The rows of the objects that O49 gives one of their own. -/
def writeRows : List (Nat × (ObjWrite → Instr)) :=
  [(Key.intakeError, .intakeErrorWrite), (Key.eventQuery, .eventQuery), (Key.defectQuery, .defectQuery), (Key.minReset, .minReset),
    (Key.snapshot, .snapshot), (Key.secondsLoad, .secondsLoad), (Key.arithClock, .arithClock)]

theorem exec_writeRows (w : ObjWrite) (s : State) :
    ∀ row ∈ writeRows, exec (row.2 w) s = .next (if (w.key == row.1) = true then runWrite s w else s) := by
  unfold writeRows
  simp only [List.forall_mem_cons]
  exact ⟨rfl, rfl, rfl, rfl, rfl, rfl, rfl, fun _ h => absurd h List.not_mem_nil⟩

theorem exec_writeRow {row : Nat × (ObjWrite → Instr)} (hrow : row ∈ writeRows) (h : w.key = row.1) : exec (row.2 w) s = .next (runWrite s w) := by
  rw [exec_writeRows w s row hrow, h, if_pos (beq_self_eq_true _)]

theorem exec_objectWrite (w : ObjWrite) (s : State) : exec (.objectWrite w) s = .next (if (!(ownRow w.key)) = true then runWrite s w else s) := rfl

theorem exec_objectWrite_plain (h : ownRow w.key = false) : exec (.objectWrite w) s = .next (runWrite s w) := by
  rw [exec_objectWrite, h]
  rfl

theorem runWrite_alone (htxn : w.txn = 0) : runWrite s w = if netUp s = true then takeWarm (writeObj s 0 w.key w.val).2 else s := by
  unfold runWrite
  dsimp only
  rw [htxn, if_neg (fun h : (0 : Nat) ≠ 0 ∧ txnCurrent s 0 = true => h.1 rfl)]

/-- A write outside a transaction is refused before its conditions, with the code that O49 gives, or comes to them. -/
theorem writeObj_alone (hrow : objRow k = some r) (v : Val) :
    (refusedBefore s k v ≠ 0 ∧ writeObj s 0 k v = (refusedBefore s k v, s)) ∨ (refusedBefore s k v = 0 ∧ writeObj s 0 k v = applyWrite s [] r k v) := by
  unfold writeObj refusedBefore
  rw [hrow]
  dsimp only
  by_cases hopen : writeOpen s r k = true
  · rw [hopen, if_neg (show ¬true = false by decide), if_neg (show ¬(!true) = true by decide)]
    by_cases hro : r.acc = .ro
    · rw [if_pos hro, if_pos hro]
      exact .inl ⟨by decide, rfl⟩
    · rw [if_neg hro, if_neg hro]
      by_cases hcode : valueCode r k v = 0
      · rw [if_neg (not_not_intro hcode), if_neg (not_not_intro hcode), if_neg (not_not_intro rfl)]
        by_cases hrwt : r.acc = .rwt
        · rw [if_pos hrwt, if_pos hrwt]
          exact .inl ⟨by decide, rfl⟩
        · rw [if_neg hrwt, if_neg hrwt]
          split
          · exact .inl ⟨by decide, rfl⟩
          · exact .inr ⟨rfl, rfl⟩
      · rw [if_pos hcode, if_pos hcode]
        exact .inl ⟨hcode, rfl⟩
  · rw [if_pos (by simp [hopen]), if_pos (by simp [hopen])]
    exact .inl ⟨by decide, rfl⟩

theorem writeObj_refused {v : Val} (h : refusedBefore s k v ≠ 0) : (writeObj s 0 k v).2 = s := by
  cases hrow : objRow k with
  | none =>
    unfold writeObj
    rw [hrow]
    rfl
  | some r =>
    rcases writeObj_alone hrow v with ⟨-, hw⟩ | ⟨h0, -⟩
    · rw [hw]
    · exact absurd h0 h

theorem writeObj_open {v : Val} (hrow : objRow k = some r) (h : refusedBefore s k v = 0) : writeObj s 0 k v = applyWrite s [] r k v := by
  rcases writeObj_alone hrow v with ⟨hne, -⟩ | ⟨-, hw⟩
  · exact absurd h hne
  · exact hw

theorem runWrite_refused (hwarm : s.boot.warmWanted = none) (htxn : w.txn = 0) (h : refusedBefore s w.key w.val ≠ 0) : runWrite s w = s := by
  rw [runWrite_alone htxn, writeObj_refused h, takeWarm_none hwarm, ite_self]

theorem WriteTaken.refusedBefore_eq (h : WriteTaken s w k n) : refusedBefore s k (.num n) = 0 := by
  obtain ⟨-, -, -, -, -, hstaged, r, hrow, hopen, hro, hrwt, hcode, -⟩ := h
  have hany : s.keeper.txn.staged.any (fun e => e.1 == k) = false := by simpa using hstaged
  unfold refusedBefore
  rw [hrow]
  dsimp only
  rw [hopen, if_neg (by decide), if_neg hro, if_neg (not_not_intro hcode), if_neg hrwt, hany, if_neg (by decide)]

/-- A write that is taken, of an object on which the device's state puts no condition. -/
theorem runWrite_taken (h : WriteTaken s w k n) (hrow : objRow k = some r) (hcond : condOf s [] k n = (0, s)) :
    runWrite s w = takeWarm (applyNum s r k n).2 := by
  have hpasses := h.refusedBefore_eq
  obtain ⟨hk, hv, htxn, hup, -, -, r', hrow', -, -, -, -, hidle⟩ := h
  obtain rfl := Option.some.inj (hrow'.symm.trans hrow)
  rw [runWrite_alone htxn, if_pos hup, hk, hv, writeObj_open hrow hpasses]
  unfold applyWrite condFor
  dsimp only
  rw [if_neg (fun hc : r'.acc = .rwi ∧ deviceIdle s = false => by rw [hidle hc.1] at hc; exact absurd hc.2 (by decide)), hcond,
    if_neg (not_not_intro rfl)]

theorem WriteTaken.key (h : WriteTaken s w k n) : w.key = k := by
  obtain ⟨hk, -⟩ := h
  exact hk

theorem WriteTaken.warm (h : WriteTaken s w k n) : s.boot.warmWanted = none := by
  obtain ⟨-, -, -, -, hwarm, -⟩ := h
  exact hwarm

/-- The row of an object of O49's that takes a write, and what the write does. -/
theorem writeRow_taken {row : Nat × (ObjWrite → Instr)} (hmem : row ∈ writeRows) (h : WriteTaken s w row.1 n) (hrow : objRow row.1 = some r)
    (hcond : condOf s [] row.1 n = (0, s)) (hboot : (applyNum s r row.1 n).2.boot = s.boot) :
    exec (row.2 w) s = .next (applyNum s r row.1 n).2 := by
  rw [exec_writeRow hmem h.key, runWrite_taken h hrow hcond, takeWarm_none (hboot ▸ h.warm)]

/-- Of an object that is written only while the device is idle, a write of a busy one changes nothing. -/
theorem runWrite_busy (hwarm : s.boot.warmWanted = none) (htxn : w.txn = 0) (hv : w.val = .num n) (hrow : objRow w.key = some r)
    (hacc : r.acc = .rwi) (hbusy : deviceIdle s = false) : runWrite s w = s := by
  have happly : (applyWrite s [] r w.key (.num n)).2 = s := by
    have hcond : condFor s [] r w.key n = (Code.deviceBusy, s) := if_pos ⟨hacc, hbusy⟩
    unfold applyWrite
    dsimp only
    rw [hcond, if_pos (show Code.deviceBusy ≠ 0 by decide)]
  have hwrite : (writeObj s 0 w.key w.val).2 = s := by
    rw [hv]
    rcases writeObj_alone hrow (.num n) with ⟨-, hw⟩ | ⟨-, hw⟩
    · rw [hw]
    · rw [hw, happly]
  rw [runWrite_alone htxn, hwrite, takeWarm_none hwarm, ite_self]

end

/-! ### What a write does -/

/-- Nothing has changed but the value of one object. -/
def OnlyObject (s t : State) (k n : Nat) : Prop :=
  { t with keeper := s.keeper } = s ∧ getObj t k = n ∧ (∀ j, j ≠ k → getObj t j = getObj s j) ∧ { t.keeper with obj := s.keeper.obj } = s.keeper

theorem onlyObject_setObj (s : State) (k n : Nat) : OnlyObject s (setObj s k n) k n :=
  ⟨rfl, getObj_setObj_same s k n, fun _ hj => getObj_setObj_ne s _ _ _ hj, rfl⟩

theorem setKept_plain {r : ObjRow} (h : r.flash = false) (s : State) (k n : Nat) : setKept s r k n = setObj s k n := by
  unfold setKept
  rw [h]
  rfl

theorem setKept_stored {r : ObjRow} (h : r.flash = true) (s : State) (k n : Nat) : setKept s r k n = storeObj (setObj s k n) k n := by
  unfold setKept
  rw [h]
  rfl

/-- The areas of the Keeper and of traffic regulation have no conditions, and their plain objects take the value (R355). -/
theorem plain_area {s : State} {r : ObjRow} {k n : Nat} (hown : ownRow k = false) (harea : keyArea k = 0x20 ∨ keyArea k = 0x34) :
    condOf s [] k n = (0, s) ∧ applyNum s r k n = (0, setKept s r k n) := by
  have hsnap : k ≠ Key.snapshot := by
    rintro rfl
    exact absurd hown (by decide)
  unfold condOf applyNum
  rcases harea with h | h
  · simp only [h, and_self]
  · simp only [h, if_neg hsnap, and_self]

theorem testBit_maskOf_foldl (ls : List Nat) (m j : Nat) :
    (ls.foldl (fun m i => if bit m i then m else m + 2 ^ i) m).testBit j = (m.testBit j || decide (j ∈ ls)) := by
  induction ls generalizing m with
  | nil => simp
  | cons i ls ih =>
    rw [List.foldl_cons, setBit_eq_or, ih, Nat.testBit_or, Nat.testBit_two_pow]
    by_cases h : i = j
    · subst h
      simp
    · simp [h, Ne.symm h]

/-- INTAKE_ERROR keeps the bits that are written 1 (R43). -/
theorem clearIntake_testBit (s : State) (n : Nat) {i : Nat} (hi : i < 32) :
    (getObj (clearIntake s n) Key.intakeError).testBit i = ((getObj s Key.intakeError).testBit i && n.testBit i) := by
  unfold clearIntake bitsOf
  rw [getObj_setObj_same]
  refine (testBit_maskOf_foldl _ 0 i).trans ?_
  simp [hi, bit_eq_testBit, Bool.and_comm]

/-! ### Snapshots (R396, R479) -/

/-- A byte counter copied to its snapshot. -/
def copyCounter (s : State) (i : Nat) : State := setObj s (Key.bytesSnap i) (getObj s (Key.bytes i))

/-- The byte counters of all points and classes. -/
def counterNumbers : List Nat := (List.range 5).flatMap (fun p => (List.range 8).map (fun c => p * 16 + c))

theorem copyCounters_rest (xs : List Nat) (s : State) : { xs.foldl copyCounter s with keeper := s.keeper } = s := by
  induction xs generalizing s with
  | nil => rfl
  | cons i xs ih => exact congrArg (fun u : State => { u with keeper := s.keeper }) (ih (copyCounter s i))

theorem getObj_copyCounters {i : Nat} (xs : List Nat) (s : State) (h : i ∈ xs ∨ getObj s (Key.bytesSnap i) = getObj s (Key.bytes i)) :
    getObj (xs.foldl copyCounter s) (Key.bytesSnap i) = getObj s (Key.bytes i) := by
  induction xs generalizing s with
  | nil => exact h.resolve_left List.not_mem_nil
  | cons j xs ih =>
    have hkept : getObj (copyCounter s j) (Key.bytes i) = getObj s (Key.bytes i) := getObj_setObj_ne s _ _ _ (by unfold Key.bytes Key.bytesSnap; omega)
    rw [List.foldl_cons, ih, hkept]
    rw [hkept]
    by_cases hj : i = j
    · subst hj
      exact .inr (getObj_setObj_same ..)
    · refine h.imp (fun hi => (List.mem_cons.mp hi).resolve_left hj) fun hi => ?_
      exact (getObj_setObj_ne s _ _ _ (by unfold Key.bytesSnap; omega)).trans hi

/-- What a snapshot has copied. -/
def Snapped (s t : State) : Prop :=
  (∀ i < 5, ∀ c < 8, getObj t (Key.bytesSnap (i * 16 + c)) = getObj s (Key.bytes (i * 16 + c))) ∧
    getObj t Key.choicesSnap = (getObj s Key.routeChoices + getObj s Key.reduceArbitrations + getObj s Key.schedTiebreaks) % 2 ^ 64 ∧
    getObj t Key.snapTime = stamp s ∧ getObj t Key.snapshotAt = 0 ∧ { t with keeper := s.keeper } = s

theorem Snapped.boot {s t : State} (h : Snapped s t) : t.boot = s.boot := by
  obtain ⟨-, -, -, -, hrest⟩ := h
  exact (congrArg State.boot hrest : _)

theorem bytesSnap_ne {i k : Nat} (h : k < 0x34010002) : Key.bytesSnap i ≠ k := by
  unfold Key.bytesSnap
  omega

theorem snapshot_snapped (s : State) : Snapped s (setObj (snapshot s) Key.snapshotAt 0) := by
  obtain ⟨u, hu⟩ : ∃ u, counterNumbers.foldl copyCounter s = u := ⟨_, rfl⟩
  have heq : snapshot s = setObj (setObj u Key.choicesSnap (timingChoices s)) Key.snapTime (stamp s) := by
    rw [← hu]
    rfl
  have hcopied : ∀ j ∈ counterNumbers, getObj u (Key.bytesSnap j) = getObj s (Key.bytes j) := fun j hj => by
    rw [← hu]
    exact getObj_copyCounters counterNumbers s (.inl hj)
  have hrest : { u with keeper := s.keeper } = s := by
    rw [← hu]
    exact copyCounters_rest counterNumbers s
  rw [heq]
  refine ⟨fun i hi c hc => ?_, ?_, ?_, getObj_setObj_same _ _ _, hrest⟩
  · have hmem : i * 16 + c ∈ counterNumbers :=
      List.mem_flatMap.mpr ⟨i, List.mem_range.mpr hi, List.mem_map.mpr ⟨c, List.mem_range.mpr hc, rfl⟩⟩
    rw [getObj_setObj_ne _ _ _ _ (bytesSnap_ne (by decide)), getObj_setObj_ne _ _ _ _ (bytesSnap_ne (by decide)),
      getObj_setObj_ne _ _ _ _ (bytesSnap_ne (by decide)), hcopied _ hmem]
  · rw [getObj_setObj_ne _ _ _ _ (by decide), getObj_setObj_ne _ _ _ _ (by decide), getObj_setObj_same]
    rfl
  · rw [getObj_setObj_ne _ _ _ _ (by decide), getObj_setObj_same]

/-! ### The rows -/

theorem exec_snapshotAt_due {s : State} (h : getObj s Key.snapshotAt ≠ 0 ∧ getObj s Key.snapshotAt ≤ stamp s) :
    exec .snapshotAt s = .next (setObj (snapshot s) Key.snapshotAt 0) :=
  congrArg Host.Outcome.next (if_neg (not_or.mpr ⟨h.1, not_lt.mpr h.2⟩))

theorem exec_snapshotAt_early {s : State} (h : ¬(getObj s Key.snapshotAt ≠ 0 ∧ getObj s Key.snapshotAt ≤ stamp s)) :
    exec .snapshotAt s = .next s :=
  congrArg Host.Outcome.next (if_pos (by omega))

/-- SVC_ARGS takes its bytes (R382). -/
theorem svcArgs_taken {s : State} {w : ObjWrite} {op : Nat} {b : List Byte} (hop : op < 7) (hk : w.key = Key.svcArgs op) (hv : w.val = .bytes b)
    (htxn : w.txn = 0) (hwarm : s.boot.warmWanted = none) (hup : netUp s = true) (h : refusedBefore s w.key w.val = 0) :
    exec (.objectWrite w) s = .next (setBytes s (Key.svcArgs op) b) := by
  have hown : ∀ op < 7, ownRow (Key.svcArgs op) = false := by decide +kernel
  obtain ⟨r, hrow⟩ : ∃ r, objRow w.key = some r := by
    unfold refusedBefore at h
    cases hrow : objRow w.key with
    | some r => exact ⟨r, rfl⟩
    | none =>
      rw [hrow] at h
      dsimp only at h
      split at h <;> exact absurd h (by decide)
  have hwrite : writeObj s 0 w.key w.val = (0, setBytes s (Key.svcArgs op) b) := by
    rw [writeObj_open hrow h, hk, hv]
    rfl
  rw [exec_objectWrite_plain (hk ▸ hown op hop), runWrite_alone htxn, if_pos hup, hwrite]
  exact congrArg Host.Outcome.next (takeWarm_none (s := setBytes s _ b) hwarm)

/-- EVENT_RECORD shows the event that EVENT_QUERY names (R372). -/
theorem readBytes_eventRecord (s : State) (n : Nat) : readBytes (setObj s Key.eventQuery n) Key.eventRecord =
    match findEvent s n with
    | some e => eventHead leBytes e ++ e.detail
    | none => [] := by
  unfold readBytes
  rw [getObj_setObj_same]
  rfl

/-- DEFECT_ENTRY shows the record that DEFECT_QUERY names (R400). -/
theorem readBytes_defectEntry (s : State) (n : Nat) : readBytes (setObj s Key.defectQuery n) Key.defectEntry =
    match (s.flash.defects.take (defectCount s))[n]? with
    | some d => d.bytes
    | none => [] := by
  unfold readBytes
  rw [getObj_setObj_same]
  rfl

section
variable {s : State} {w : ObjWrite} {n : Nat}

theorem eventQuery_taken (h : WriteTaken s w Key.eventQuery n) : exec (.eventQuery w) s = .next (setObj s Key.eventQuery n) :=
  writeRow_taken (row := (Key.eventQuery, .eventQuery)) (by simp [writeRows]) h rfl rfl rfl

theorem defectQuery_taken (h : WriteTaken s w Key.defectQuery n) : exec (.defectQuery w) s = .next (setObj s Key.defectQuery n) :=
  writeRow_taken (row := (Key.defectQuery, .defectQuery)) (by simp [writeRows]) h rfl rfl rfl

theorem arithClock_taken (h : WriteTaken s w Key.arithClock n) : exec (.arithClock w) s = .next (setObj s Key.arithClock n) :=
  writeRow_taken (row := (Key.arithClock, .arithClock)) (by simp [writeRows]) h rfl rfl rfl

theorem intakeError_taken (h : WriteTaken s w Key.intakeError n) : exec (.intakeErrorWrite w) s = .next (clearIntake s n) :=
  writeRow_taken (row := (Key.intakeError, .intakeErrorWrite)) (by simp [writeRows]) h rfl rfl rfl

theorem minReset_taken (h : WriteTaken s w Key.minReset n) : exec (.minReset w) s = .next (if n = 0 then s else restartMins s) :=
  writeRow_taken (row := (Key.minReset, .minReset)) (by simp [writeRows]) h rfl rfl (by show (if n = 0 then _ else _ : State).boot = _; split <;> rfl)

theorem secondsLoad_taken (h : WriteTaken s w Key.secondsLoad n) : exec (.secondsLoad w) s = .next (loadSeconds s n) :=
  writeRow_taken (row := (Key.secondsLoad, .secondsLoad)) (by simp [writeRows]) h rfl rfl rfl

theorem snapshot_taken (h : WriteTaken s w Key.snapshot n) :
    exec (.snapshot w) s = .next (if n = 0 then s else setObj (snapshot s) Key.snapshotAt 0) := by
  refine writeRow_taken (row := (Key.snapshot, .snapshot)) (by simp [writeRows]) h rfl rfl ?_
  show (if n = 0 then s else setObj (snapshot s) Key.snapshotAt 0 : State).boot = s.boot
  split
  · rfl
  · exact (snapshot_snapped s).boot

end

/-- Settles O49: a write that is refused, staged, or taken; what each object's write then does; and the record that a query shows. -/
theorem objectWrites : Obligations.ObjectWrites := by
  unfold Obligations.ObjectWrites
  refine ⟨fun s w hwarm htxn href => ?_, fun s w k n h => ?_, fun s w k n r h hrow hown harea => ?_, fun s w op b hop hk hv htxn hwarm hup h => ?_,
    fun s w n hwarm hk hv htxn hbusy => ?_, fun s w n => ?_, fun s => ⟨exec_snapshotAt_early, fun h => ⟨_, exec_snapshotAt_due h, snapshot_snapped s⟩⟩⟩
  · rw [exec_objectWrite, runWrite_refused hwarm htxn href, ite_self]
    refine ⟨rfl, fun row hrow => ?_⟩
    rw [exec_writeRows w s row hrow, runWrite_refused hwarm htxn href, ite_self]
  · have hk : w.key = k := by
      obtain ⟨hk, -⟩ := h
      exact hk
    exact ⟨fun hown => ⟨_, exec_objectWrite_plain (hk ▸ hown), runWrite_staged h⟩,
      fun row hrow hkey => ⟨_, exec_writeRow hrow (hk.trans hkey.symm), runWrite_staged h⟩⟩
  · obtain ⟨hcond, happly⟩ := plain_area (s := s) (r := r) (n := n) hown harea
    have hexec : exec (.objectWrite w) s = .next (takeWarm (setKept s r k n)) := by
      rw [exec_objectWrite_plain (h.key ▸ hown), runWrite_taken h hrow hcond, happly]
    refine ⟨fun hflash => ?_, fun hflash => ?_⟩
    · rw [hexec, setKept_plain hflash, takeWarm_none (s := setObj s k n) h.warm]
      exact ⟨_, rfl, onlyObject_setObj s k n⟩
    · rw [hexec, setKept_stored hflash, takeWarm_none (s := storeObj (setObj s k n) k n) h.warm]
      exact ⟨_, rfl, getObj_setObj_same s k n, fun j hj => getObj_setObj_ne s _ _ _ hj, rfl, rfl⟩
  · exact ⟨_, svcArgs_taken hop hk hv htxn hwarm hup h, getBytes_setBytes_same s _ b, rfl, rfl⟩
  · rw [exec_writeRow (row := (Key.arithClock, .arithClock)) (by simp [writeRows]) hk, runWrite_busy hwarm htxn hv (by rw [hk]; rfl) rfl hbusy]
  · refine ⟨fun h => ?_, fun h => ?_, fun h => ?_, fun h => ?_, fun h => ?_, fun h => ?_, fun h => ?_⟩
    · exact ⟨_, intakeError_taken h, rfl, fun i hi => clearIntake_testBit s n hi⟩
    · refine ⟨_, eventQuery_taken h, onlyObject_setObj s _ n, fun e he => ?_, fun hnone => ?_⟩
      · rw [readBytes_eventRecord, he]
      · rw [readBytes_eventRecord, hnone]
    · refine ⟨_, defectQuery_taken h, onlyObject_setObj s _ n, fun d hd hn => ?_, fun hn => ?_⟩
      · rw [readBytes_defectEntry, List.getElem?_take_of_lt hn, hd]
      · rw [readBytes_defectEntry, List.getElem?_take_eq_none hn]
    · refine ⟨_, arithClock_taken h, onlyObject_setObj s _ n, fun hstep hn => ?_⟩
      show max (getObj (setObj s Key.arithClock n) Key.arithClock) (min s.power.step 2) = n
      rw [getObj_setObj_same, hstep]
      exact Nat.max_zero n
    · rw [minReset_taken h]
      by_cases hn : n = 0
      · rw [if_pos hn]
        exact ⟨s, rfl, rfl, fun _ => rfl, fun hne => absurd hn hne⟩
      · rw [if_neg hn]
        exact ⟨_, rfl, rfl, fun h0 => absurd h0 hn, fun _ => rfl⟩
    · rw [snapshot_taken h]
      exact ⟨fun hn => by rw [if_pos hn], fun hn => ⟨_, by rw [if_neg hn], snapshot_snapped s⟩⟩
    · refine ⟨_, secondsLoad_taken h, ?_⟩
      unfold loadSeconds
      dsimp only
      split <;> exact ⟨rfl, rfl, rfl, rfl⟩

end Sys2Proof.Machine
end

section
/-! SUPPORT for O42: an answer reaches what asked for it (R307, R320), and what a link then sends leaves alone. -/

namespace Sys2Proof.Machine

/-! ### A link that sends what it can -/

section
variable (u : State) (l : Nat)

theorem cores_pumpLink : (pumpLink u l).cores = u.cores := by
  obtain ⟨-, -, hcores, -⟩ := sameMemory_pumpLink u l
  exact hcores

theorem fountain_pumpLink : (pumpLink u l).fountain = u.fountain := by
  obtain ⟨-, -, -, hfountain, -⟩ := sameMemory_pumpLink u l
  exact hfountain

theorem port_pumpLink : (pumpLink u l).port = u.port := by
  obtain ⟨-, -, -, -, -, hport⟩ := sameMemory_pumpLink u l
  exact hport

theorem reservoir_pumpLink : (pumpLink u l).reservoir = u.reservoir := by
  obtain ⟨-, hreservoir, -⟩ := sameMemory_pumpLink u l
  exact hreservoir

theorem pool_pumpLink : (pumpLink u l).pool = u.pool := by
  obtain ⟨_, _, _, h⟩ := linksOnly_pumpLink u l
  rw [h]

theorem keeper_pumpLink : (pumpLink u l).keeper.rest = u.keeper.rest := by
  obtain ⟨_, _, _, h⟩ := linksOnly_pumpLink u l
  rw [h]
  rfl

theorem getSlot_pumpLink (n : Nat) : getSlot (pumpLink u l) n = getSlot u n := by
  unfold getSlot
  rw [fountain_pumpLink]

theorem getCounter_pumpLink (c : Nat) : getCounter (pumpLink u l) c = getCounter u c := by
  unfold getCounter
  rw [fountain_pumpLink]

theorem getGroup_pumpLink (p g : Nat) : getGroup (pumpLink u l) p g = getGroup u p g := by
  unfold getGroup getPos
  rw [cores_pumpLink]

theorem findMem_pumpLink (p g id : Nat) : findMem (pumpLink u l) p g id = findMem u p g id := by
  unfold findMem
  rw [getGroup_pumpLink]

theorem getCopy_pumpLink (cc : Nat) : getCopy (pumpLink u l) cc = getCopy u cc := by
  unfold getCopy
  rw [port_pumpLink]

theorem copyBusy_pumpLink (cc : Nat) : copyBusy (pumpLink u l) cc = copyBusy u cc := by
  unfold copyBusy
  rw [port_pumpLink]

theorem findReq_pumpLink (d tag : Nat) : findReq (pumpLink u l) d tag = findReq u d tag := by
  unfold findReq
  rw [pool_pumpLink]

theorem mem_out_pumpLink {u : State} {o : Out} (h : o ∈ u.out) : o ∈ (pumpLink u l).out := (poolKept_pumpLink u l).out.subset h

end

/-! ### An answer at the device that asked (R307) -/

/-- The device with an answer taken off its link: what it answers is outstanding no more. -/
def answered (s : State) (links : Sparse Link) (p : Packet) : State :=
  { s with links := links
           pool := { s.pool with reqs := s.pool.reqs.filter (fun r => !(r.dev == p.src && r.tag == p.tag)), waiting := [] } }

section
variable {s : State} {l i : Nat} {p : Packet} {ty : PktType}

theorem findReq_answered (links : Sparse Link) : findReq (answered s links p) p.src p.tag = none := by
  unfold findReq
  rw [List.find?_eq_none]
  intro r hr
  have := List.of_mem_filter hr
  simpa [imp_iff_not_or] using this

theorem onAnswer_stray (h : Arrived s l ty p i) (hr : findReq s p.src p.tag = none) (run : PeerReq → Packet → State → State) :
    onAnswer ty run l s = pumpLink (takeRx s l i) l := by
  have hrx : findReq (takeRx s l i) p.src p.tag = none := by
    obtain ⟨ls, hls⟩ := takeRx_eq s l i
    rw [hls]
    exact hr
  unfold onAnswer
  rw [onPacket_here h, hrx]

theorem onAnswer_found {r : PeerReq} (h : Arrived s l ty p i) (hr : findReq s p.src p.tag = some r) (hw : s.pool.waiting = [])
    (run : PeerReq → Packet → State → State) : ∃ ls, onAnswer ty run l s = pumpLink (run r p (answered s ls p)) l := by
  obtain ⟨ls, hls⟩ := takeRx_eq s l i
  have hrx : findReq (takeRx s l i) p.src p.tag = some r := by
    rw [hls]
    exact hr
  have hdrop : dropReq (takeRx s l i) p.src p.tag = answered s ls p := by
    unfold dropReq pumpPeers
    rw [hls]
    dsimp only
    rw [hw]
    rfl
  refine ⟨ls, ?_⟩
  unfold onAnswer
  rw [onPacket_here h, hrx, ← hdrop]

end

/-! ### The instruction that an answer is for -/

section
variable {s : State} {p k id : Nat} {gr : Group} {m : MemOp}

/-- A change of one memory instruction of a group, which keeps the group's registers. -/
theorem findMem_modMem (h : findMem s p k id = some (gr, m)) {f : MemOp → MemOp} (hf : ∀ m, (f m).id = m.id) :
    ∃ gr', findMem (modMem s p id f) p k id = some (gr', f m) ∧ gr'.gpr = gr.gpr := by
  obtain ⟨x, hx, hfind⟩ := Option.bind_eq_some_iff.mp h
  obtain ⟨y, hy, he⟩ := Option.map_eq_some_iff.mp hfind
  obtain ⟨rfl, rfl⟩ := Prod.mk.inj he
  have hid : y.id = id := by simpa using List.find?_some hy
  have hkeeps : (fun m : MemOp => m.id == id) ∘ (fun m : MemOp => if m.id = id then f m else m) = fun m => m.id == id := by
    funext m
    simp only [Function.comp]
    split
    · rw [hf]
    · rfl
  unfold findMem
  rw [getGroup_modMem_same, hx]
  refine ⟨{ x with mem := x.mem.map (fun m => if m.id = id then f m else m) }, ?_, rfl⟩
  simp only [Option.map_some, Option.bind_some, List.find?_map, hkeeps, hy, if_pos hid]

theorem findMem_deliverAccept (h : findMem s p k id = some (gr, m)) (sector : Nat) :
    ∃ gr', findMem (deliverAccept s p id sector) p k id = some (gr', { m with accepted := m.accepted ++ [sector] }) ∧ gr'.gpr = gr.gpr :=
  findMem_modMem h (fun _ => rfl)

theorem findMem_deliverEach (h : findMem s p k id = some (gr, m)) (xs : List Served) :
    ∃ gr', findMem (xs.foldl (fun st v => deliverData st p id v) s) p k id = some (gr', { m with got := m.got ++ xs }) ∧ gr'.gpr = gr.gpr := by
  induction xs generalizing s gr m with
  | nil => exact ⟨gr, by rw [List.append_nil]; exact h, rfl⟩
  | cons v xs ih =>
    obtain ⟨gr1, h1, hgpr1⟩ := findMem_modMem h (f := fun m => { m with got := m.got ++ [v] }) (fun _ => rfl)
    obtain ⟨gr2, h2, hgpr2⟩ := ih h1
    refine ⟨gr2, ?_, hgpr2.trans hgpr1⟩
    rw [List.foldl_cons]
    refine h2.trans ?_
    simp only [List.append_assoc, List.singleton_append]

theorem acceptNext_accepts {x : Nat} (hm : memBehind s p id = some m)
    (hx : m.need.find? (fun k => decide (2 ^ 61 ≤ k) && !(m.accepted.contains k)) = some x) : acceptNext s p id = deliverAccept s p id x := by
  unfold acceptNext
  rw [hm]
  dsimp only
  rw [hx]

theorem fountain_acceptNext (s : State) (p id : Nat) : (acceptNext s p id).fountain = s.fountain := by
  unfold acceptNext
  split
  · rfl
  · split <;> rfl

theorem findMem_noteWritten (s : State) (slot : Option Nat) (d p k id : Nat) : findMem (noteWritten s slot d) p k id = findMem s p k id := by
  unfold noteWritten
  split
  · rfl
  next n =>
    obtain ⟨_, h⟩ := modSlot_eq s n (fun sl => if sl.peersWritten.contains d then sl else { sl with peersWritten := sl.peersWritten ++ [d] })
    rw [h]
    rfl

theorem noteWritten_notes {n : Nat} {sl : Slot} (h : getSlot s n = some sl) (d : Nat) :
    ∃ x, getSlot (noteWritten s (some n) d) n = some x ∧ d ∈ x.peersWritten := by
  refine ⟨if sl.peersWritten.contains d then sl else { sl with peersWritten := sl.peersWritten ++ [d] }, ?_, ?_⟩
  · show getSlot (modSlot s n _) n = _
    rw [getSlot_modSlot, if_pos rfl, h]
    rfl
  · split
    next hd => exact List.contains_iff_mem.mp hd
    next => exact List.mem_append_right _ (List.mem_singleton.mpr rfl)

end

end Sys2Proof.Machine
end

section
/-! PROOFS. Answers of peers (O42): what each row does to what asked (R307, R320, R341, R345, R346). -/

namespace Sys2Proof.Machine

/-! ### The rows -/

/-- The answers, with what the device that asked does with each. -/
def answerRows : List (PktType × (Nat → Instr)) :=
  [(.readData, .readDataPacket), (.writeAck, .writeAckPacket), (.atomData, .atomDataPacket), (.postResult, .postResultPacket),
    (.refused, .refusedPacket)]

theorem exec_answerRows (l : Nat) (s : State) : ∀ row ∈ answerRows, ∃ run, exec (row.2 l) s = .next (onAnswer row.1 run l s) := by
  unfold answerRows
  simp only [List.forall_mem_cons]
  exact ⟨⟨takeReadData, rfl⟩, ⟨takeWriteAck, rfl⟩, ⟨takeAtomData, rfl⟩, ⟨takePostResult, rfl⟩, ⟨_, rfl⟩, fun _ h => absurd h List.not_mem_nil⟩

section
variable {s : State} {l i : Nat} {p : Packet} {r : PeerReq}

/-- An answer to nothing outstanding has no effect but that its flit is taken. -/
theorem strayAnswer {row : PktType × (Nat → Instr)} (hrow : row ∈ answerRows) (h : Arrived s l row.1 p i) (hr : findReq s p.src p.tag = none) :
    ∃ t, exec (row.2 l) s = .next t ∧ SameMemory s t ∧ t.pool = s.pool ∧ t.keeper.rest = s.keeper.rest := by
  obtain ⟨run, hexec⟩ := exec_answerRows l s row hrow
  obtain ⟨ls, hls⟩ := takeRx_eq s l i
  refine ⟨_, hexec, ?_⟩
  rw [onAnswer_stray h hr, hls]
  refine ⟨?_, pool_pumpLink _ l, keeper_pumpLink _ l⟩
  rw [← hls]
  exact (sameMemory_takeRx s l i).trans (sameMemory_pumpLink _ l)

/-! ### READ_DATA -/

/-- A sector that a READ_DATA packet brings to a memory instruction. -/
def readSector (p : Packet) (k : Nat) : Served := Served.mk (peerKey (p.src * 2 ^ 58 + p.addr + 32 * k)) (slice p.payload (32 * k) 32) false 0 0

theorem readData_core {pos a id g : Nat} {gr : Group} {m : MemOp} (h : Arrived s l .readData p i) (hr : findReq s p.src p.tag = some r)
    (hw : s.pool.waiting = []) (huser : r.user = .core pos a id) (hm : findMem s pos g id = some (gr, m)) :
    ∃ t gr' m', exec (.readDataPacket l) s = .next t ∧ findReq t p.src p.tag ≠ some r ∧ findMem t pos g id = some (gr', m') ∧
      gr'.gpr = gr.gpr ∧ m'.accepted = m.accepted ∧ m'.got = m.got ++ (List.range (p.sectors + 1)).map (readSector p) ∧
      t.reservoir = s.reservoir := by
  obtain ⟨ls, heq⟩ := onAnswer_found h hr hw takeReadData
  have hrun : takeReadData r p (answered s ls p) =
      ((List.range (p.sectors + 1)).map (readSector p)).foldl (fun st v => deliverData st pos id v) (answered s ls p) := by
    unfold takeReadData
    rw [huser, List.foldl_map]
    rfl
  obtain ⟨gr', hgr', hgpr⟩ := findMem_deliverEach (s := answered s ls p) hm ((List.range (p.sectors + 1)).map (readSector p))
  have hrest : ∀ xs : List Served, ∀ u, Delivered u (xs.foldl (fun st v => deliverData st pos id v) u) := fun xs u =>
    foldl_rel Delivered.refl Delivered.trans xs (fun t _ _ => delivered_modMem t _ _ _) u
  obtain ⟨_, _, _, _, hu, -⟩ := hrest ((List.range (p.sectors + 1)).map (readSector p)) (answered s ls p)
  refine ⟨_, gr', { m with got := m.got ++ (List.range (p.sectors + 1)).map (readSector p) }, congrArg Host.Outcome.next heq, ?_, ?_, hgpr, rfl, rfl, ?_⟩
  · rw [findReq_pumpLink, hrun, hu]
    exact fun hsome => absurd ((findReq_answered ls).symm.trans hsome) nofun
  · rw [findMem_pumpLink, hrun, hgr']
  · rw [reservoir_pumpLink, hrun, hu]
    rfl

theorem feedEngines_port (s : State) : ∃ q, (feedEngines s).port = { s.port with queue := q } ∧
    ∀ x ∈ q, x ∈ s.port.queue ∨ isPageMove x = true := by
  unfold feedEngines
  dsimp only
  refine ⟨_, (foldl_keeps (fun t : State => t.port) _ (fun t m _ => ?_) _), fun x hx => ?_⟩
  · unfold readPageOut
    split
    · rfl
    · exact startJob_port _ _ _ _ _ _ _ _
  · refine (List.mem_append.mp hx).imp id fun hnew => ?_
    obtain ⟨e, -, rfl⟩ := List.mem_map.mp hnew
    rfl

/-- The end of a move leaves the copies as they are. -/
theorem getCopy_freeEngine (s : State) (m : CopyMove) (cc : Nat) : getCopy (freeEngine s m) cc = getCopy s cc := by
  obtain ⟨q, hq, -⟩ := feedEngines_port { s with port := { s.port with queue := s.port.queue.erase (.copy m) } }
  unfold freeEngine getCopy
  rw [hq]

theorem out_freeEngine (s : State) (m : CopyMove) : s.out <:+ (freeEngine s m).out :=
  (poolKept_feedEngines { s with port := { s.port with queue := s.port.queue.erase (.copy m) } }).out

/-- Bytes accepted of a running copy. -/
theorem advanceMove_running {m : CopyMove} (hrun : (getCopy s m.cc).state = 3) (n : Nat) :
    ∃ u, s.out <:+ u.out ∧ advanceMove s m n = setCopy u m.cc { getCopy s m.cc with
      moved := (getCopy s m.cc).moved + n, state := if copyBusy u m.cc then 3 else 5 } := by
  have hkept : ∀ u : State, getCopy u m.cc = getCopy s m.cc → advanceCopy u m.cc n = setCopy u m.cc { getCopy s m.cc with
      moved := (getCopy s m.cc).moved + n, state := if copyBusy u m.cc then 3 else 5 } := fun u hu => by
    unfold advanceCopy
    dsimp only
    rw [hu, if_neg (not_not_intro hrun)]
  unfold advanceMove
  split
  · exact ⟨s, List.suffix_refl _, hkept s rfl⟩
  · exact ⟨freeEngine s m, out_freeEngine s m, hkept _ (getCopy_freeEngine s m m.cc)⟩

theorem getCopy_setCopy_same (s : State) (cc : Nat) (x : CopySlot) : getCopy (setCopy s cc x) cc = x := mapGet_mapSet_same _ _ _ _

theorem portSend_out (s : State) (n : Nat) : (portSend s n).out = s.out := by
  unfold portSend
  split <;> rfl

theorem portSend_port (s : State) (n : Nat) : (portSend s n).port = s.port := by
  unfold portSend
  split <;> rfl

theorem readData_copy {m : CopyMove} (h : Arrived s l .readData p i) (hr : findReq s p.src p.tag = some r) (hw : s.pool.waiting = [])
    (huser : r.user = .copy m) (hrun : (getCopy s m.cc).state = 3) : ∃ t, exec (.readDataPacket l) s = .next t ∧
      .hostWrite ((getCopy s m.cc).host + (p.src * 2 ^ 58 + p.addr - (getCopy s m.cc).pool)) (slice p.payload 0 (32 * (p.sectors + 1))) false ∈ t.out ∧
      (getCopy t m.cc).moved = (getCopy s m.cc).moved + 32 * (p.sectors + 1) ∧ (getCopy t m.cc).state = (if copyBusy t m.cc then 3 else 5) := by
  obtain ⟨ls, heq⟩ := onAnswer_found h hr hw takeReadData
  have hcopy : ∀ cc, getCopy (portSend (answered s ls p) (32 * (p.sectors + 1))) cc = getCopy s cc := fun cc => by
    unfold getCopy
    rw [portSend_port]
    rfl
  obtain ⟨y, hy⟩ : ∃ y, emit (portSend (answered s ls p) (32 * (p.sectors + 1))) (.hostWrite ((getCopy s m.cc).host +
    (p.src * 2 ^ 58 + p.addr - (getCopy s m.cc).pool)) (slice p.payload 0 (32 * (p.sectors + 1))) false) = y := ⟨_, rfl⟩
  have hycopy : getCopy y m.cc = getCopy s m.cc := by
    rw [← hy]
    exact hcopy m.cc
  have hyout : .hostWrite ((getCopy s m.cc).host + (p.src * 2 ^ 58 + p.addr - (getCopy s m.cc).pool))
      (slice p.payload 0 (32 * (p.sectors + 1))) false ∈ y.out := by
    rw [← hy]
    exact List.mem_cons_self
  have hrun' : takeReadData r p (answered s ls p) = advanceMove y m (32 * (p.sectors + 1)) := by
    unfold takeReadData
    rw [huser, ← hy]
    rfl
  obtain ⟨u, hout, hadvance⟩ := advanceMove_running (hycopy ▸ hrun) (32 * (p.sectors + 1))
  rw [hycopy] at hadvance
  refine ⟨_, congrArg Host.Outcome.next heq, mem_out_pumpLink l ?_, ?_, ?_⟩
  · rw [hrun', hadvance]
    exact hout.subset hyout
  · rw [getCopy_pumpLink, hrun', hadvance, getCopy_setCopy_same]
  · rw [getCopy_pumpLink, copyBusy_pumpLink, hrun', hadvance, getCopy_setCopy_same]
    rfl

/-- The last part that a BAR4 read waits for completes it (R341). -/
theorem bar4Part_last {tag : Nat} {w : Bar4Wait} {put : Bar4Wait → Bar4Wait} (hwait : s.port.bar4.find? (fun x => x.tag == tag) = some w)
    (hleft : w.left = 1) (hfailed : (put w).failed = false) : (∀ x ∈ (bar4Part s tag put).port.bar4, x.tag ≠ tag) ∧
      .completion tag .success (mapGetList 0#8 (put w).got (put w).addr (put w).len) ∈ (bar4Part s tag put).out := by
  have hpart : bar4Part s tag put = completeBar4 { s with port := { s.port with bar4 := s.port.bar4.filter (fun x => x.tag != tag) } } tag
      (mapGetList 0#8 (put w).got (put w).addr (put w).len) false := by
    unfold bar4Part
    rw [hwait]
    dsimp only
    rw [if_pos (by omega), hfailed]
    rfl
  rw [hpart]
  unfold completeBar4
  dsimp only
  rw [if_neg (by decide), portSend_port, portSend_out]
  exact ⟨fun x hx => by simpa using List.of_mem_filter hx, List.mem_cons_self⟩

/-- Another part leaves the BAR4 read waiting for one less. -/
theorem bar4Part_more {tag : Nat} {w : Bar4Wait} {put : Bar4Wait → Bar4Wait} (hwait : s.port.bar4.find? (fun x => x.tag == tag) = some w)
    (hleft : 2 ≤ w.left) (htag : (put w).tag = w.tag) :
    (bar4Part s tag put).port.bar4.find? (fun x => x.tag == tag) = some { put w with left := w.left - 1 } := by
  have hw : w.tag = tag := by simpa using List.find?_some hwait
  have hpart : bar4Part s tag put = { s with port := { s.port with
      bar4 := s.port.bar4.map (fun x => if x.tag = tag then { put w with left := w.left - 1 } else x) } } := by
    unfold bar4Part
    rw [hwait]
    dsimp only
    rw [if_neg (by omega)]
  have hkeeps : (fun x : Bar4Wait => x.tag == tag) ∘ (fun x => if x.tag = tag then { put w with left := w.left - 1 } else x) =
      fun x => x.tag == tag := by
    funext x
    simp only [Function.comp]
    split
    next hx => rw [htag, hw, hx]
    next => rfl
  rw [hpart]
  show (s.port.bar4.map _).find? _ = _
  rw [List.find?_map, hkeeps, hwait]
  exact congrArg some (if_pos hw)

/-- A BAR4 read's wait with the bytes of a READ_DATA packet. -/
def withBytes (p : Packet) (w : Bar4Wait) : Bar4Wait :=
  { w with got := mapSetList 0#8 w.got (p.src * 2 ^ 58 + p.addr) (slice p.payload 0 (32 * (p.sectors + 1))) }

theorem readData_bar4 {tag : Nat} {w : Bar4Wait} (h : Arrived s l .readData p i) (hr : findReq s p.src p.tag = some r) (hw : s.pool.waiting = [])
    (huser : r.user = .bar4 tag false) (hwait : s.port.bar4.find? (fun x => x.tag == tag) = some w) :
    (w.left = 1 → w.failed = false → ∃ t, exec (.readDataPacket l) s = .next t ∧ (∀ x ∈ t.port.bar4, x.tag ≠ tag) ∧
      .completion tag .success (mapGetList 0#8 (mapSetList 0#8 w.got (p.src * 2 ^ 58 + p.addr) (slice p.payload 0 (32 * (p.sectors + 1))))
        w.addr w.len) ∈ t.out) ∧
    (2 ≤ w.left → ∃ t x, exec (.readDataPacket l) s = .next t ∧ t.port.bar4.find? (fun x => x.tag == tag) = some x ∧ x.left + 1 = w.left) := by
  obtain ⟨ls, heq⟩ := onAnswer_found h hr hw takeReadData
  have hrun : takeReadData r p (answered s ls p) = bar4Part (answered s ls p) tag (withBytes p) := by
    unfold takeReadData
    rw [huser]
    rfl
  refine ⟨fun hleft hfailed => ⟨_, congrArg Host.Outcome.next heq, ?_⟩, fun hleft =>
    ⟨_, { withBytes p w with left := w.left - 1 }, congrArg Host.Outcome.next heq, ?_, Nat.sub_add_cancel (by omega)⟩⟩
  · obtain ⟨hgone, hdone⟩ := bar4Part_last (s := answered s ls p) (put := withBytes p) hwait hleft hfailed
    rw [hrun, port_pumpLink]
    exact ⟨hgone, mem_out_pumpLink l hdone⟩
  · rw [hrun, port_pumpLink]
    exact bar4Part_more (s := answered s ls p) (put := withBytes p) hwait hleft rfl

/-! ### WRITE_ACK, ATOM_DATA, POST_RESULT and REFUSED -/

theorem writeAck_core {pos a id g k : Nat} {gr : Group} {m : MemOp} (h : Arrived s l .writeAck p i) (hr : findReq s p.src p.tag = some r)
    (hw : s.pool.waiting = []) (huser : r.user = .core pos a id) (hm : findMem s pos g id = some (gr, m)) (hbehind : memBehind s pos id = some m)
    (hk : m.need.find? (fun k => decide (2 ^ 61 ≤ k) && !(m.accepted.contains k)) = some k) :
    ∃ t gr' m', exec (.writeAckPacket l) s = .next t ∧ findMem t pos g id = some (gr', m') ∧ m'.accepted = m.accepted ++ [k] ∧ m'.got = m.got ∧
      gr'.gpr = gr.gpr ∧ ∀ n sl, r.slot = some n → getSlot s n = some sl → ∃ x, getSlot t n = some x ∧ p.src ∈ x.peersWritten := by
  obtain ⟨ls, heq⟩ := onAnswer_found h hr hw takeWriteAck
  have hrun : takeWriteAck r p (answered s ls p) = noteWritten (deliverAccept (answered s ls p) pos id k) r.slot p.src := by
    unfold takeWriteAck
    rw [huser, ← acceptNext_accepts (s := answered s ls p) hbehind hk]
  obtain ⟨gr', hgr', hgpr⟩ := findMem_deliverAccept (s := answered s ls p) hm k
  refine ⟨_, gr', { m with accepted := m.accepted ++ [k] }, congrArg Host.Outcome.next heq, ?_, rfl, rfl, hgpr, fun n sl hslot hsl => ?_⟩
  · rw [findMem_pumpLink, hrun, findMem_noteWritten, hgr']
  · rw [hrun, hslot]
    obtain ⟨x, hx, hnoted⟩ := noteWritten_notes (s := deliverAccept (answered s ls p) pos id k) hsl p.src
    exact ⟨x, (getSlot_pumpLink _ l n).trans hx, hnoted⟩

theorem atomIndex_answered (ls : Sparse Link) (m : MemOp) (q : Packet) : atomIndex (answered s ls p) m q = atomIndex s m q := rfl

theorem atomData_core {pos a id g j : Nat} {gr : Group} {m : MemOp} {q : Packet} (h : Arrived s l .atomData p i)
    (hr : findReq s p.src p.tag = some r) (hw : s.pool.waiting = []) (huser : r.user = .core pos a id) (hm : findMem s pos g id = some (gr, m))
    (hbehind : memBehind s pos id = some m) (hq : r.pkts.head? = some q) (hj : atomIndex s m q = some j) :
    ∃ t gr' m', exec (.atomDataPacket l) s = .next t ∧ findMem t pos g id = some (gr', m') ∧ m'.accepted = m.accepted ++ [2 ^ 61 + j] ∧
      m'.got = m.got ++ [Served.mk (2 ^ 61 + j) (slice p.payload 16 128) false 0 0] ∧ gr'.gpr = gr.gpr := by
  obtain ⟨ls, heq⟩ := onAnswer_found h hr hw takeAtomData
  have hrun : takeAtomData r p (answered s ls p) = noteWritten (deliverAccept (deliverData (answered s ls p) pos id
      (Served.mk (2 ^ 61 + j) (slice p.payload 16 128) false 0 0)) pos id (2 ^ 61 + j)) r.slot p.src := by
    unfold takeAtomData
    rw [huser]
    dsimp only
    rw [show memBehind (answered s ls p) pos id = some m from hbehind, hq]
    dsimp only
    rw [atomIndex_answered, hj]
  obtain ⟨gr1, hgr1, hgpr1⟩ := findMem_modMem (s := answered s ls p) hm
    (f := fun m => { m with got := m.got ++ [Served.mk (2 ^ 61 + j) (slice p.payload 16 128) false 0 0] }) (fun _ => rfl)
  obtain ⟨gr2, hgr2, hgpr2⟩ := findMem_deliverAccept hgr1 (2 ^ 61 + j)
  refine ⟨_, gr2, { m with got := m.got ++ [Served.mk (2 ^ 61 + j) (slice p.payload 16 128) false 0 0], accepted := m.accepted ++ [2 ^ 61 + j] },
    congrArg Host.Outcome.next heq, ?_, rfl, rfl, hgpr2.trans hgpr1⟩
  rw [findMem_pumpLink, hrun, findMem_noteWritten]
  exact hgr2

theorem leAt_four_lt (bs : List Byte) (off : Nat) : leAt bs off 4 < 2 ^ 32 := by
  have hlt : ∀ xs : List Byte, leNat xs < 256 ^ xs.length := fun xs => by
    induction xs with
    | nil => exact Nat.one_pos
    | cons b xs ih =>
      have := b.isLt
      rw [leNat, List.length_cons, Nat.pow_succ]
      omega
  have := hlt (slice bs off 4)
  rwa [length_slice] at this

theorem postResult_spawn {pos g id : Nat} {gr : Group} {x : Spawning} (h : Arrived s l .postResult p i) (hr : findReq s p.src p.tag = some r)
    (hw : s.pool.waiting = []) (huser : r.user = .spawn pos g id) (hg : getGroup s pos g = some gr)
    (hx : gr.spawns.find? (fun y => y.id == id) = some x) :
    ∃ t gr', exec (.postResultPacket l) s = .next t ∧ getGroup t pos g = some gr' ∧ gr'.spawns = gr.spawns.filter (fun y => y.id != id) ∧
      (∀ k n, n < 32 → getReg gr' k n = if k = x.dst ∧ x.dst ≠ 255 ∧ x.lanes.getLsbD n = true then leAt p.payload 0 4 else getReg gr k n) ∧
      gr'.paths = gr.paths ∧ gr'.preds = gr.preds := by
  obtain ⟨ls, heq⟩ := onAnswer_found h hr hw takePostResult
  obtain ⟨y, hy⟩ : ∃ y : Group, (lanesOf x.lanes).foldl (fun y l => setReg y x.dst l (leAt p.payload 0 4)) gr = y := ⟨_, rfl⟩
  have hrun : takePostResult r p (answered s ls p) =
      setGroup (answered s ls p) pos g (some { y with spawns := gr.spawns.filter (fun y => y.id != id) }) := by
    unfold takePostResult endSpawn
    rw [huser]
    dsimp only
    rw [show getGroup (answered s ls p) pos g = some gr from hg]
    dsimp only
    rw [hx, ← hy]
  obtain ⟨-, hpreds, hpaths, -⟩ := setRegs_rest (lanesOf x.lanes) gr x.dst (fun _ => leAt p.payload 0 4)
  rw [hy] at hpreds hpaths
  refine ⟨_, { y with spawns := gr.spawns.filter (fun y => y.id != id) }, congrArg Host.Outcome.next heq, ?_, rfl, fun k n hn => ?_, hpaths, hpreds⟩
  · rw [getGroup_pumpLink, hrun, getGroup_setGroup_same]
  · have hreg := getReg_foldl (lanesOf x.lanes) gr x.dst (fun _ => leAt p.payload 0 4) k n hn (fun l hl => ((mem_lanesOf _ _).mp hl).1)
    rw [hy, Nat.mod_eq_of_lt (leAt_four_lt _ _)] at hreg
    simp only [mem_lanesOf, hn, true_and] at hreg
    exact hreg

theorem refused_core {pos a id n : Nat} {m : MemOp} {sl : Slot} (h : Arrived s l .refused p i) (hcode : leAt p.payload 0 2 % 4096 ≠ Code.verticalAbort)
    (hr : findReq s p.src p.tag = some r) (hw : s.pool.waiting = []) (huser : r.user = .core pos a id) (hbehind : memBehind s pos id = some m)
    (hslot : r.slot = some n) (hsl : getSlot s n = some sl) : ∃ t, exec (.refusedPacket l) s = .next t ∧
      (getSlot t n).map (·.ending) = some (some (sl.ending.getD { code := leAt p.payload 0 2 % 4096, replay := none })) := by
  obtain ⟨ls, heq⟩ := onAnswer_found h hr hw (fun r p st => failReq st r (leAt p.payload 0 2 % 4096))
  refine ⟨_, congrArg Host.Outcome.next heq, ?_⟩
  have hsl' : getSlot (acceptNext (answered s ls p) pos id) n = some sl := by
    unfold getSlot
    rw [fountain_acceptNext]
    exact hsl
  rw [getSlot_pumpLink]
  unfold failReq
  rw [huser]
  dsimp only
  rw [show memBehind (answered s ls p) pos id = some m from hbehind, hslot]
  dsimp only
  rw [endTaskReq_fault hcode, getSlot_faultTask, if_pos rfl, hsl']
  rfl

theorem failCopy_failed {cc : Nat} (hrun : (getCopy s cc).state = 3) (code : Nat) : (getCopy (failCopy s cc code) cc).state = 6 ∧
    (getCopy (failCopy s cc code) cc).code = code ∧ ∀ x ∈ (failCopy s cc code).port.queue, isCopyOf cc x = false := by
  have hport : ∃ q, (failCopy s cc code).port = { (setCopy s cc { getCopy s cc with state := 6, code := code }).port with queue := q } ∧
      ∀ x ∈ q, x ∈ s.port.queue.filter (fun m => !(isCopyOf cc m)) ∨ isPageMove x = true := by
    unfold failCopy
    dsimp only
    rw [if_neg (not_not_intro hrun)]
    exact feedEngines_port _
  obtain ⟨q, hq, hmoves⟩ := hport
  have hcopy : getCopy (failCopy s cc code) cc = { getCopy s cc with state := 6, code := code } := by
    show mapGet CopySlot.idle (failCopy s cc code).port.copies cc = _
    rw [hq]
    exact getCopy_setCopy_same s cc { getCopy s cc with state := 6, code := code }
  rw [hcopy, hq]
  refine ⟨rfl, rfl, fun x hx => ?_⟩
  rcases hmoves x hx with h | h
  · simpa using List.of_mem_filter h
  · cases x with
    | page => rfl
    | copy => cases h

theorem refused_copy {m : CopyMove} (h : Arrived s l .refused p i) (hr : findReq s p.src p.tag = some r) (hw : s.pool.waiting = [])
    (huser : r.user = .copy m) (hrun : (getCopy s m.cc).state = 3) : ∃ t, exec (.refusedPacket l) s = .next t ∧
      (getCopy t m.cc).state = 6 ∧ (getCopy t m.cc).code = leAt p.payload 0 2 % 4096 ∧ (∀ x ∈ t.port.queue, isCopyOf m.cc x = false) := by
  obtain ⟨ls, heq⟩ := onAnswer_found h hr hw (fun r p st => failReq st r (leAt p.payload 0 2 % 4096))
  have hfail : failReq (answered s ls p) r (leAt p.payload 0 2 % 4096) = failCopy (answered s ls p) m.cc (leAt p.payload 0 2 % 4096) := by
    unfold failReq
    rw [huser]
  refine ⟨_, congrArg Host.Outcome.next heq, ?_⟩
  rw [getCopy_pumpLink, port_pumpLink, hfail]
  exact failCopy_failed (s := answered s ls p) hrun _

end

end Sys2Proof.Machine
end

section
/-! PROOFS. Posted records, signals and fragments of frames (O42). -/

namespace Sys2Proof.Machine

/-! ### A posted record (R58, R305, R307) -/

theorem answerOf_of_device {s t : State} (h : t.pool.device = s.pool.device) (p : Packet) (ty : PktType) (n : Nat) (bs : List Byte) :
    answerOf t p ty n bs = answerOf s p ty n bs := by
  unfold answerOf
  rw [h]

theorem takeSpawn_notTaken {s : State} {ws : List Word64} (h : recordFails ws = true ∨ freeSpawnSlot s = none) (posted : Bool) :
    (takeSpawn s ws posted).2.fountain = s.fountain := by
  unfold takeSpawn
  split
  · exact (logged_raise s _).fountain
  · next hok => rw [h.resolve_left hok]

section
variable {s : State} {l i j : Nat} {a b : Packet}

/-- A record's first half, and the flit that follows it in its stream. -/
theorem exec_postPacket (h : Arrived s l .postA a i) (hb : ((getLink s l).rx.drop (i + 1)).zipIdx.find? (fun e => sameStream e.1 a) = some (b, j)) :
    exec (.postPacket l) s = if b.ty ≠ .postB ∨ b.tag ≠ a.tag ∨ b.src ≠ a.src then .next (linkProtocol (takeRx s l i) l)
      else if fountainHeld s = true then .next s
      else .next (pumpLink (servePost a (slice a.payload 0 128 ++ slice b.payload 0 128) (takeRx (takeRx s l (i + 1 + j)) l i)) l) := by
  obtain ⟨hfront, hdst, hheld⟩ := h
  show execPostPacket l s = _
  unfold execPostPacket
  dsimp only
  rw [hfront]
  dsimp only
  rw [hb]
  dsimp only
  rw [hheld, hdst, if_pos rfl, beq_self_eq_true, Bool.false_or, Bool.true_and]

theorem takeRx_obj (s : State) (l i k : Nat) : getObj (takeRx s l i) k = getObj s k := by
  obtain ⟨_, h⟩ := takeRx_eq s l i
  rw [h]
  rfl

/-- Two flits that are no record (R305). -/
theorem post_unpaired (h : Arrived s l .postA a i) (hb : ((getLink s l).rx.drop (i + 1)).zipIdx.find? (fun e => sameStream e.1 a) = some (b, j))
    (hbad : b.ty ≠ .postB ∨ b.tag ≠ a.tag ∨ b.src ≠ a.src) : ∃ t, exec (.postPacket l) s = .next t ∧ SameMemory s t ∧
      Counted s t Key.protocolErrors 1 ∧ ReportedUnit t Code.linkProtocol 1 l [] := by
  refine ⟨_, (exec_postPacket h hb).trans (if_pos hbad), (sameMemory_takeRx s l i).trans (linkProtocol_logged _ l).sameMemory, ?_,
    linkProtocol_reported _ l⟩
  have hbits : objBits Key.protocolErrors = 64 := by decide +kernel
  show getObj _ _ = _
  unfold linkProtocol
  rw [getObj_raiseUnit_ne protocolErrors_unlogged, getObj_bump_same, hbits, takeRx_obj]

/-- A record posted by a peer is taken as a spawn is, and answered with its result (R58). -/
theorem post_paired {words : List Word64} {u : State} {r : Nat × State}
    (hwords : wordsOf 32 (slice a.payload 0 128 ++ slice b.payload 0 128) = words) (hu : takeRx (takeRx s l (i + 1 + j)) l i = u) (hr : takeSpawn u words true = r)
    (h : Arrived s l .postA a i) (hb : ((getLink s l).rx.drop (i + 1)).zipIdx.find? (fun e => sameStream e.1 a) = some (b, j))
    (hpair : ¬(b.ty ≠ .postB ∨ b.tag ≠ a.tag ∨ b.src ≠ a.src)) (hheld : fountainHeld s = false) (hreach : Reaches r.2 a.src) :
    ∃ t, exec (.postPacket l) s = .next t ∧ SentOn t (answerOf r.2 a .postResult 0 (leBytes 4 r.1)) ∧ SameMemory r.2 t ∧
      (recordFails words = true → r.1 = 2 ^ 31 + s.pool.device * 2 ^ 16 ∧ t.fountain = s.fountain) ∧
      (recordFails words = false → freeSpawnSlot s = none → r.1 = 2 ^ 31 + s.pool.device * 2 ^ 16 ∧ t.fountain = s.fountain) ∧
      (∀ n, recordFails words = false → freeSpawnSlot s = some n → r.1 = s.pool.device * 2 ^ 16 + n) := by
  obtain ⟨ls, hls⟩ : ∃ ls, u = { s with links := ls } := by
    obtain ⟨ls1, h1⟩ := takeRx_eq s l (i + 1 + j)
    obtain ⟨ls2, h2⟩ := takeRx_eq (takeRx s l (i + 1 + j)) l i
    exact ⟨ls2, by rw [← hu, h2, h1]⟩
  have hdevice : u.pool.device = s.pool.device := by rw [hls]
  have hfree : freeSpawnSlot u = freeSpawnSlot s := by
    rw [hls]
    rfl
  have hfountain : u.fountain = s.fountain := by rw [hls]
  have hexec : exec (.postPacket l) s = .next (pumpLink (respond r.2 a .postResult 0 0 (leBytes 4 r.1)) l) := by
    rw [exec_postPacket h hb, if_neg hpair, hheld, if_neg (by decide), hu]
    unfold servePost
    rw [hwords, hr]
  obtain ⟨hsent, hsame⟩ := respond_done .postResult 0 0 (leBytes 4 r.1) hreach l
  have hunchanged : recordFails words = true ∨ freeSpawnSlot u = none →
      r.1 = 2 ^ 31 + s.pool.device * 2 ^ 16 ∧ (pumpLink (respond r.2 a .postResult 0 0 (leBytes 4 r.1)) l).fountain = s.fountain := fun hno => by
    obtain ⟨-, -, -, hf, -⟩ := hsame
    refine ⟨?_, hf.trans ?_⟩
    · rw [← hr, takeSpawn_refused hno true, hdevice]
    · rw [← hr, takeSpawn_notTaken hno true, hfountain]
  refine ⟨_, hexec, hsent, hsame, fun hbad => hunchanged (.inl hbad), fun _ hnone => hunchanged (.inr (hfree.trans hnone)), fun n hok hn => ?_⟩
  rw [← hr, takeSpawn_taken hok (hfree.trans hn) true, hdevice]

end

/-! ### A signal (R48, R320) -/

theorem waitsPoisoned_of_fewer {s t : State} {ws : List Word64} (hc : ∀ k, (getCounter t k).poison = true → (getCounter s k).poison = true)
    (h : waitsPoisoned s ws = false) : waitsPoisoned t ws = false := by
  unfold waitsPoisoned at h ⊢
  rw [List.any_eq_false] at h ⊢
  intro e he hp
  rw [Bool.and_eq_true] at hp
  exact h e he (by rw [Bool.and_eq_true]; exact ⟨hp.1, hc _ hp.2⟩)

theorem noPoisonDue_applySignal {s : State} (h : NoPoisonDue s) (c : Nat) (set : Bool) (v : Nat) : NoPoisonDue (applySignal s c set v) :=
  fun e he h1 h2 => waitsPoisoned_of_fewer (applySignal_poison s c set v) (h e he h1 h2)

theorem getCounter_applySignal (s : State) (c : Nat) (set : Bool) (v k : Nat) : getCounter (applySignal s c set v) k =
    if k = c then (if set then ⟨v, false⟩ else ⟨((getCounter s c).value + v) % 2 ^ 32, (getCounter s c).poison⟩) else getCounter s k := by
  unfold applySignal
  by_cases hk : k = c
  · subst hk
    rw [getCounter_setCounter_same, if_pos rfl]
  · rw [getCounter_setCounter_ne _ _ _ _ hk, if_neg hk]

/-- No counter has lost its poison, and none another value. -/
def PoisonSpreads (s t : State) : Prop :=
  ∀ k, (getCounter t k).value = (getCounter s k).value ∧ ((getCounter s k).poison = true → (getCounter t k).poison = true)

theorem PoisonSpreads.refl (s : State) : PoisonSpreads s s := fun _ => ⟨rfl, id⟩

theorem PoisonSpreads.trans {a b c : State} (h : PoisonSpreads a b) (k : PoisonSpreads b c) : PoisonSpreads a c :=
  fun n => ⟨(k n).1.trans (h n).1, (k n).2 ∘ (h n).2⟩

theorem poisonSpreads_of_counters {s t : State} (h : t.fountain.counters = s.fountain.counters) : PoisonSpreads s t := fun k => by
  unfold getCounter
  rw [h]
  exact ⟨rfl, id⟩

theorem poisonSpreads_poisonCounter (s : State) (c : Nat) : PoisonSpreads s (poisonCounter s c) := fun k => by
  unfold poisonCounter
  by_cases hk : k = c
  · subst hk
    rw [getCounter_setCounter_same]
    exact ⟨rfl, fun _ => rfl⟩
  · rw [getCounter_setCounter_ne _ _ _ _ hk]
    exact ⟨rfl, id⟩

theorem PeersOnly.fountain {s t : State} (h : PeersOnly s t) : t.fountain = s.fountain := by
  obtain ⟨_, _, _, _, rfl⟩ := h
  rfl

theorem poisonSpreads_poisonSignals (s : State) (n : Nat) (sl : Slot) : PoisonSpreads s (poisonSignals s n sl) := by
  unfold poisonSignals
  split
  · exact .refl s
  · refine foldl_rel .refl .trans _ (fun t e _ => ?_) s
    split
    · exact poisonSpreads_poisonCounter t _
    · split
      · exact poisonSpreads_of_counters (congrArg Fountain.counters (peersOnly_peerRequests t _).fountain)
      · exact .refl t

theorem poisonSpreads_failCore (s : State) (n : Nat) (r : ErrRec) : PoisonSpreads s (failCore s n r) := by
  unfold failCore
  split
  · exact .refl s
  next sl _ =>
    refine (poisonSpreads_of_counters (congrArg Fountain.counters (logged_raiseTask s n r).fountain)).trans
      ((poisonSpreads_poisonSignals _ n sl).trans (poisonSpreads_of_counters ?_))
    unfold writeFaulted
    split
    · rfl
    · dsimp only
      split <;> rfl

theorem poisonSpreads_evalWaits (s : State) : PoisonSpreads s (evalWaits s) := by
  have hspread : ∀ (k : Nat) (t : State), PoisonSpreads t (spreadPoison k t) := fun k => by
    induction k with
    | zero => exact .refl
    | succ k ih =>
      intro t
      unfold spreadPoison
      split
      · exact .refl t
      · exact (poisonSpreads_failCore t _ _).trans (ih _)
  rw [evalWaits_eq]
  refine (hspread _ s).trans (foldl_rel .refl .trans _ (fun t e _ => ?_) _)
  unfold wakeStep
  split
  · obtain ⟨m, hm⟩ := modSlot_eq t e.1 (fun sl => { sl with satisfied := some (now t) })
    exact poisonSpreads_of_counters (by rw [hm])
  · exact .refl t

section
variable {s : State} {l i : Nat} {p : Packet}

theorem exec_signalPacket (h : Arrived s l .signal p i) : exec (.signalPacket l) s = .next (pumpLink (serveSignal p (takeRx s l i)) l) :=
  congrArg Host.Outcome.next (onPacket_here h)

theorem fountain_respond (s : State) (p : Packet) (ty : PktType) (n half : Nat) (bs : List Byte) : (respond s p ty n half bs).fountain = s.fountain := by
  obtain ⟨_, _, _, h⟩ := linksOnly_respond s p ty n half bs
  rw [h]

/-- A signal that adds or sets (R48). -/
theorem signal_applied (h : Arrived s l .signal p i) (hdue : NoPoisonDue s) (hbit : bit (leAt p.payload 8 1) 0 = false) {e c : Nat}
    (he : leAt p.payload 0 8 = e) (hc : sigCounter e = c)
    (hreach : Reaches (signalLocal (takeRx s l i) c (sigSet e) (sigValue e)) p.src) :
    ∃ t, exec (.signalPacket l) s = .next t ∧ SentOn t (answerOf s p .writeAck 0 []) ∧
      (∀ k, getCounter t k = if k = c then (if sigSet e then Counter.mk (sigValue e) false
        else Counter.mk (((getCounter s c).value + sigValue e) % 2 ^ 32) (getCounter s c).poison) else getCounter s k) ∧
      t.reservoir = s.reservoir ∧ t.cistern = s.cistern := by
  obtain ⟨ls, hls⟩ := takeRx_eq s l i
  have hdue' : NoPoisonDue (applySignal (takeRx s l i) c (sigSet e) (sigValue e)) := by
    rw [hls]
    exact noPoisonDue_applySignal (s := { s with links := ls }) hdue c _ _
  obtain ⟨m, hm⟩ := evalWaits_slots hdue'
  have hserve : serveSignal p (takeRx s l i) = respond (signalLocal (takeRx s l i) c (sigSet e) (sigValue e)) p .writeAck 0 0 [] := by
    unfold serveSignal
    dsimp only
    rw [he, hc, hbit]
    rfl
  have hlocal : signalLocal (takeRx s l i) c (sigSet e) (sigValue e) =
      { applySignal (takeRx s l i) c (sigSet e) (sigValue e) with fountain := { (applySignal (takeRx s l i) c (sigSet e) (sigValue e)).fountain with slots := m } } := hm
  have hdevice : (signalLocal (takeRx s l i) c (sigSet e) (sigValue e)).pool.device = s.pool.device := by
    rw [hlocal, hls]
    rfl
  obtain ⟨hsent, hcistern, hreservoir, -⟩ := respond_done .writeAck 0 0 [] hreach l
  rw [answerOf_of_device hdevice] at hsent
  refine ⟨_, exec_signalPacket h, ?_⟩
  rw [hserve]
  refine ⟨hsent, fun k => ?_, hreservoir.trans ?_, hcistern.trans ?_⟩
  · have hget : getCounter (signalLocal (takeRx s l i) c (sigSet e) (sigValue e)) k = getCounter (applySignal (takeRx s l i) c (sigSet e) (sigValue e)) k := by
      rw [hlocal]
      rfl
    rw [getCounter_pumpLink]
    unfold getCounter
    rw [fountain_respond]
    refine (hget.trans (getCounter_applySignal _ c _ _ k)).trans ?_
    rw [hls]
    rfl
  · rw [hlocal, hls]
    rfl
  · rw [hlocal, hls]
    rfl

/-- A signal that poisons (R49). -/
theorem signal_poisons (h : Arrived s l .signal p i) (hbit : bit (leAt p.payload 8 1) 0 = true) {c : Nat} (hc : sigCounter (leAt p.payload 0 8) = c) :
    ∃ t, exec (.signalPacket l) s = .next t ∧ (getCounter t c).poison = true ∧ (getCounter t c).value = (getCounter s c).value := by
  obtain ⟨ls, hls⟩ := takeRx_eq s l i
  have hserve : serveSignal p (takeRx s l i) = respond (evalWaits (poisonCounter (takeRx s l i) c)) p .writeAck 0 0 [] := by
    unfold serveSignal
    dsimp only
    rw [hc, hbit]
    rfl
  have hget : getCounter (pumpLink (serveSignal p (takeRx s l i)) l) c = getCounter (evalWaits (poisonCounter (takeRx s l i) c)) c := by
    rw [hserve, getCounter_pumpLink]
    unfold getCounter
    rw [fountain_respond]
  have hown : getCounter (poisonCounter (takeRx s l i) c) c = { getCounter s c with poison := true } := by
    unfold poisonCounter
    rw [getCounter_setCounter_same, hls]
    rfl
  obtain ⟨hvalue, hpoison⟩ := poisonSpreads_evalWaits (poisonCounter (takeRx s l i) c) c
  rw [hown] at hvalue hpoison
  refine ⟨_, exec_signalPacket h, ?_⟩
  rw [hget]
  exact ⟨hpoison rfl, hvalue⟩

end

end Sys2Proof.Machine
end

section
/-! PROOFS. Fragments of dictionary frames (R370), and O42 of the parts. -/

namespace Sys2Proof.Machine

theorem linksOnly_sendDict (s : State) (dev tag : Nat) (frame : List Byte) : LinksOnly s (sendDict s dev tag frame) :=
  foldl_rel .refl .trans _ (fun t q _ => linksOnly_sendPacket t 0 [q]) s

theorem out_sendDict (s : State) (dev tag : Nat) (frame : List Byte) : s.out <:+ (sendDict s dev tag frame).out :=
  (foldl_rel (R := PoolKept) .refl .trans _ (fun t q _ => poolKept_sendPacket t 0 [q]) s).out

theorem LinksOnly.boot {s t : State} (h : LinksOnly s t) : t.boot = s.boot := by
  obtain ⟨_, _, _, rfl⟩ := h
  rfl

theorem LinksOnly.frags {s t : State} (h : LinksOnly s t) : t.keeper.frags = s.keeper.frags := by
  obtain ⟨_, _, _, rfl⟩ := h
  rfl

/-! ### A frame of one device to another -/

/-- The frame that answers a relayed request with a code and no body. -/
def codeFrame (s : State) (h : CasHdr) (op code : Nat) : List Byte := headerBytes false (answerHeader s h code h.txn 0) op

/-- Bytes 8 and 9 of a frame's header are its code. -/
theorem slice_headerBytes_code (h : CasHdr) (op : Nat) : slice (headerBytes false h op) 8 2 = leBytes 2 h.code := rfl

theorem leAt_codeFrame (s : State) (h : CasHdr) (op : Nat) : leAt (codeFrame s h op Code.messageInvalid) 8 2 = Code.messageInvalid := by
  unfold leAt codeFrame
  rw [slice_headerBytes_code]
  exact show leNat (leBytes 2 Code.messageInvalid) = Code.messageInvalid by decide

/-- A relayed request whose header is bad is answered MESSAGE_INVALID. -/
theorem serve_badRelay {s : State} {hdr : CasHdr} {body : List Byte} (hnet : netUp s = true) (hbad : headerGood hdr body = false) (op dev tag : Nat) :
    serve s op { via := .relay dev tag, hdr := hdr, body := body } =
      sendDict (emit s (.relayed dev tag (codeFrame s hdr op Code.messageInvalid))) dev tag (codeFrame s hdr op Code.messageInvalid) := by
  have hframe : headerBytes (viaBe (.relay dev tag)) (answerHeader s hdr Code.messageInvalid hdr.txn ([] : List Byte).length) op ++ [] =
      codeFrame s hdr op Code.messageInvalid := List.append_nil _
  unfold serve
  rw [hnet, Bool.not_true, if_neg Bool.false_ne_true]
  dsimp only
  rw [hbad, if_neg Bool.false_ne_true]
  unfold answer
  dsimp only
  rw [hframe]
  rfl

/-! ### A fragment that arrives -/

/-- The fragments of a packet's frame that the device holds, with the packet's own. -/
def fragsWith (s : State) (p : Packet) : Sparse (List Byte) :=
  mapPut (mapGet [] s.keeper.frags (p.src * 65536 + fragTag p)) (fragIndex p) (p.payload.drop 4)

section
variable {s : State} {l i : Nat} {p : Packet}

/-- A fragment of a request, where no relay waits for its frame. -/
theorem exec_dictPacket (h : Arrived s l .dict p i) (hwarm : (takeRequest (takeRx s l i) p).boot = s.boot) (hw : s.boot.warmWanted = none)
    (hrelays : ∀ r ∈ s.keeper.relays, ¬(r.dev = p.src ∧ r.tag = fragTag p)) :
    exec (.dictPacket l) s = .next (pumpLink (takeRequest (takeRx s l i) p) l) := by
  have hnone : (takeRx s l i).keeper.relays.find? (fun r => r.dev == p.src && r.tag == fragTag p) = none := by
    obtain ⟨ls, hls⟩ := takeRx_eq s l i
    rw [hls, List.find?_eq_none]
    intro r hr
    simpa using hrelays r hr
  have htake : takeDict p (takeRx s l i) = takeRequest (takeRx s l i) p := by
    unfold takeDict
    rw [hnone]
  show Host.Outcome.next (takeWarm (onPacket [.dict] l takeDict s)) = _
  rw [onPacket_here h, htake, takeWarm_none]
  rw [(linksOnly_pumpLink _ l).boot, hwarm, hw]

theorem fragsWith_takeRx : fragsWith (takeRx s l i) p = fragsWith s p := by
  obtain ⟨ls, hls⟩ := takeRx_eq s l i
  rw [hls]
  rfl

/-- A fragment that others of its frame are missing for waits for them. -/
theorem dict_waits (h : Arrived s l .dict p i) (hw : s.boot.warmWanted = none)
    (hrelays : ∀ r ∈ s.keeper.relays, ¬(r.dev = p.src ∧ r.tag = fragTag p)) (hpart : (fragsWith s p).length ≠ fragCount p) :
    ∃ t, exec (.dictPacket l) s = .next t ∧ SameMemory s t ∧ mapGet [] t.keeper.frags (p.src * 65536 + fragTag p) = fragsWith s p := by
  have htake : takeRequest (takeRx s l i) p = { takeRx s l i with keeper := { (takeRx s l i).keeper with
      frags := mapSet [] (takeRx s l i).keeper.frags (p.src * 65536 + fragTag p) (fragsWith s p) } } := by
    rw [← fragsWith_takeRx (l := l) (i := i)] at hpart ⊢
    exact if_neg hpart
  refine ⟨_, exec_dictPacket h ?_ hw hrelays, ?_⟩
  · obtain ⟨ls, hls⟩ := takeRx_eq s l i
    rw [htake, hls]
  rw [htake]
  refine ⟨(sameMemory_takeRx s l i).trans (sameMemory_pumpLink _ l), ?_⟩
  rw [(linksOnly_pumpLink _ l).frags]
  exact mapGet_mapSet_same _ _ _ _

/-- A whole frame whose header is bad is answered MESSAGE_INVALID, and its fragments are kept no more. -/
theorem dict_bad (h : Arrived s l .dict p i) (hw : s.boot.warmWanted = none)
    (hrelays : ∀ r ∈ s.keeper.relays, ¬(r.dev = p.src ∧ r.tag = fragTag p)) {f : List Byte} (hf : assemble ((fragsWith s p).map (·.2)) = f)
    (hwhole : (fragsWith s p).length = fragCount p) (hnet : netUp s = true) (hbad : headerGood (headerOf false f) (f.drop 32) = false) :
    ∃ t frame, exec (.dictPacket l) s = .next t ∧ SameMemory s t ∧ .relayed p.src (fragTag p) frame ∈ t.out ∧
      leAt frame 8 2 = Code.messageInvalid ∧ mapGet [] t.keeper.frags (p.src * 65536 + fragTag p) = [] := by
  obtain ⟨u, hu⟩ : ∃ u, { takeRx s l i with keeper := { (takeRx s l i).keeper with
    frags := mapErase (takeRx s l i).keeper.frags (p.src * 65536 + fragTag p) } } = u := ⟨_, rfl⟩
  have hsame : SameMemory s u := hu ▸ sameMemory_takeRx s l i
  have hboot : u.boot = s.boot := by
    obtain ⟨ls, hls⟩ := takeRx_eq s l i
    rw [← hu, hls]
  have hgone : mapGet [] u.keeper.frags (p.src * 65536 + fragTag p) = [] := by
    rw [← hu]
    exact mapGet_mapErase_same _ _ _
  have hunet : netUp u = true := by
    obtain ⟨ls, hls⟩ := takeRx_eq s l i
    rw [← hu, hls]
    exact hnet
  have htake : takeRequest (takeRx s l i) p = serve u (opOf f) { via := .relay p.src (fragTag p), hdr := headerOf false f, body := f.drop 32 } := by
    rw [← fragsWith_takeRx (l := l) (i := i)] at hwhole hf
    rw [← hf, ← hu]
    exact if_pos hwhole
  rw [serve_badRelay hunet hbad] at htake
  obtain ⟨frame, hframe⟩ : ∃ frame, codeFrame u (headerOf false f) (opOf f) Code.messageInvalid = frame := ⟨_, rfl⟩
  rw [hframe] at htake
  have hlinks : LinksOnly u (sendDict (emit u (.relayed p.src (fragTag p) frame)) p.src (fragTag p) frame) :=
    (linksOnly_emit u _).trans (linksOnly_sendDict _ _ _ _)
  have hpumped := hlinks.trans (linksOnly_pumpLink _ l)
  refine ⟨_, frame, exec_dictPacket h ?_ hw hrelays, ?_⟩
  · rw [htake, hlinks.boot, hboot]
  rw [htake]
  refine ⟨hsame.trans hpumped.sameMemory, mem_out_pumpLink l ((out_sendDict _ _ _ _).subset List.mem_cons_self), ?_, ?_⟩
  · rw [← hframe]
    exact leAt_codeFrame u _ _
  · rw [hpumped.frags, hgone]

end

/-- Settles O42, row by row: an answer of a peer reaches what it is outstanding for, and a request of a peer is done as the device's own is. -/
theorem responsePackets : Obligations.ResponsePackets := by
  unfold Obligations.ResponsePackets
  refine ⟨?stray, ?answers, ?post, ?signal, ?dict⟩
  case stray => exact fun row hrow s l i p _ h hr => strayAnswer (row := row) hrow h hr
  case answers =>
    refine fun s l i p r _ hr hw => ⟨fun h => ⟨?_, ?_, ?_⟩, fun h => ?_, fun h => ?_, fun h => ?_, fun h hcode => ⟨?_, ?_⟩⟩
    · exact fun pos a id g gr m huser hm => readData_core h hr hw huser hm
    · exact fun m huser hrun => readData_copy h hr hw huser hrun
    · exact fun tag w huser hwait => readData_bar4 h hr hw huser hwait
    · exact fun pos a id g gr m k huser hm hbehind hk => writeAck_core h hr hw huser hm hbehind hk
    · exact fun pos a id g gr m q j huser hm hbehind hq hj => atomData_core h hr hw huser hm hbehind hq hj
    · exact fun pos g id gr x huser hg hx => postResult_spawn h hr hw huser hg hx
    · exact fun pos a id m n sl huser hbehind hslot hsl => refused_core h hcode hr hw huser hbehind hslot hsl
    · exact fun m huser hrun => refused_copy h hr hw huser hrun
  case post =>
    refine fun s l i j a b _ h hb => ⟨post_unpaired h hb, fun hty htag hsrc => ?_⟩
    have hpair : ¬(b.ty ≠ .postB ∨ b.tag ≠ a.tag ∨ b.src ≠ a.src) := by simp [hty, htag, hsrc]
    refine ⟨fun hheld => (exec_postPacket h hb).trans ((if_neg hpair).trans (if_pos hheld)), fun hheld hreach => ?_⟩
    exact post_paired rfl rfl rfl h hb hpair hheld hreach
  case signal =>
    exact fun s l i p _ h hdue => ⟨fun hbit hreach => signal_applied h hdue hbit rfl rfl hreach, fun hbit _ => signal_poisons h hbit rfl⟩
  case dict =>
    exact fun s l i p _ h hw hrelays => ⟨dict_waits h hw hrelays, dict_bad h hw hrelays rfl⟩

end Sys2Proof.Machine
end
